-- ==== Sys2Proof/Word.lean ====
section
/-! DEFINITION. The word types of the DZ8256 and the plainest arithmetic on them: 32-bit register words, bytes, fields
of a word, signed readings. Times are natural numbers of VTS64 units, 1/64 cycle (R26). -/

namespace Sys2Proof

/-- A register word, 32 bits (R6). -/
abbrev Word := BitVec 32

/-- A byte of a memory, a record or a frame. -/
abbrev Byte := BitVec 8

/-- Units of 1/64 cycle in one cycle (R4, R26). -/
abbrev unitsPerCycle : Nat := 64

/-- `n` bits of `w` from bit `lo` up, as a number. -/
def bitsAt (w lo n : Nat) : Nat := (w >>> lo) % 2 ^ n

/-- `w` with `n` bits from bit `lo` replaced by the low bits of `v`. -/
def putBits (w lo n v : Nat) : Nat :=
  w - bitsAt w lo n * 2 ^ lo + (v % 2 ^ n) * 2 ^ lo

/-- The two's complement reading of the low `n` bits of `v`. -/
def signedOf (n v : Nat) : Int :=
  let u := v % 2 ^ n
  if 2 ^ (n - 1) ≤ u then (u : Int) - (2 ^ n : Nat) else (u : Int)

/-- The low `n` bits of the two's complement writing of `x`. -/
def bitsOfInt (n : Nat) (x : Int) : Nat := (x % ((2 ^ n : Nat) : Int)).toNat

/-- `a + b`, held at `top` when it would pass it: a saturating counter. -/
def satAdd (top a b : Nat) : Nat := min top (a + b)

/-- The 32-bit word that `n` names. -/
abbrev word (n : Nat) : Word := BitVec.ofNat 32 n

/-- The byte that `n` names. -/
abbrev byte (n : Nat) : Byte := BitVec.ofNat 8 n

/-- The little-endian number that bytes spell. -/
def leNat : List Byte → Nat
  | [] => 0
  | b :: bs => b.toNat + 256 * leNat bs

/-- The `n` little-endian bytes of `v`. -/
def leBytes : Nat → Nat → List Byte
  | 0, _ => []
  | n + 1, v => byte v :: leBytes n (v / 256)

/-! ### Names of the parts -/

/-- A track, T000 to T255. -/
abbrev TrackId := Fin 256
/-- A line, LN000 to LN127. -/
abbrev LineId := Fin 128
/-- A line bank, BANK0 to BANK7. -/
abbrev BankId := Fin 8
/-- A turntable, TT0 to TT7. -/
abbrev TurnId := Fin 8
/-- A ruling unit, RU00 to RU31. -/
abbrev RulerId := Fin 32
/-- A shunter, SH00 to SH15. -/
abbrev ShunterId := Fin 16
/-- A Cyram microengine, ME0 to ME7. -/
abbrev EngineId := Fin 8
/-- A siding, SD00 to SD15. -/
abbrev SidingId := Fin 16
/-- A host stream, 0 to 7. -/
abbrev StreamId := Fin 8
/-- A timetable slot, 0 to 16,383. -/
abbrev SlotId := Fin 16384
/-- An ADC buffer window, W00 to W31. -/
abbrev WindowId := Fin 32
/-- An optical-stamp channel, OC0 to OC15. -/
abbrev ChannelId := Fin 16

/-- Who makes an access: the requester identities of R78. -/
inductive Requester where
  | pcie | spi | jtag
  | engine (e : EngineId)
  | tbu | twn
  deriving DecidableEq, Repr

/-- The 8-bit identity of a requester (table of requester identities, R78). -/
def Requester.id : Requester → Nat
  | .pcie => 0x01
  | .spi => 0x02
  | .jtag => 0x03
  | .engine e => 0x10 + e.val
  | .tbu => 0x20
  | .twn => 0x21

/-- The role a requester holds or a field asks for (R336), in the order of their rights. -/
inductive Role where
  | none | operator | installer | maker
  deriving DecidableEq, Repr

/-- The code of a role: `TRK.OWN.HROLE`, `SEC.ROLES`. -/
def Role.code : Role → Nat
  | .none => 0
  | .operator => 1
  | .installer => 2
  | .maker => 3

/-- The role that a code names. -/
def Role.ofCode (n : Nat) : Role :=
  if n = 1 then .operator else if n = 2 then .installer else if n = 3 then .maker else .none

/-- A level at a ball: driven low, driven high, or released. -/
inductive Level where
  | low | high | hiz
  deriving DecidableEq, Repr

/-- What a bank's supply monitor measures on VDDIO (R83, R396): within the range of 1.8 V or of 3.3 V, absent, or a voltage
within neither range. -/
inductive Supply where
  | v18 | v33 | absent | other
  deriving DecidableEq, Repr

end Sys2Proof
end

