-- ==== Sys2Proof/Syntax.lean ====
section
/-! DEFINITION. The commands of the DZ8256: one constructor for each row of the table of operations and events. A
register command names its requester; an event names the unit it happens at and what comes from outside. -/

namespace Sys2Proof

/-- What a bank's calibration unit has observed since the last build for one ordered fraction (R54): how many edges, and
the sum of observed less ordered ball times in 1/4,096 cycle. -/
structure VernierObs where
  bank : BankId
  code : Fin 64
  count : Nat
  err : Int
  deriving DecidableEq, Repr

/-- Edges that a bank's calibration unit, a capture vernier itself (R54), has stamped with one raw code since the last
build (R53). -/
structure CalHits where
  bank : BankId
  code : Fin 128
  count : Nat
  deriving DecidableEq, Repr

/-- The payload of a HELLO frame (table of frame types, R346). `state` is the code of TWN.STS.STATE. -/
structure Hello where
  serial : Nat
  mcver0 : Word
  mcver1 : Word
  mcver2 : Word
  shnver : Word
  fltver : Word
  period : Nat
  stepping : Nat
  pref : Bool
  state : Nat
  deriving DecidableEq, Repr

/-- The payload of a HEARTBEAT frame (table of frame types, R346): its sequence number, DEP, t1 of the sender's previous
heartbeat, t4 of the peer's previous heartbeat, LIVE, RSEQ, FAULT flags. -/
structure Heartbeat where
  seq : Nat
  dep : Nat
  t1 : Nat
  t4 : Nat
  live : Nat
  rseq : Nat
  faults : Nat
  deriving DecidableEq, Repr

/-- A record of an INS frame: slot, PARK, inserting requester's identity, the 128 bits of the entry. -/
structure InsRec where
  slot : Nat
  park : Bool
  req : Nat
  bits : Nat
  deriving DecidableEq, Repr

/-- A record of a BULK frame: slot, state code, entry. -/
structure BulkRec where
  slot : Nat
  state : Nat
  park : Bool
  bits : Nat
  deriving DecidableEq, Repr

/-- A command to the block. The commands with operands stand first (compiled code builds no constructor with operands beyond
the 245th), those without after them, each in the order of the table. -/
inductive Instr where
  /-- `TICK_WRITE` (R12). A write of DSP.TICK is accepted only in Configure and within range, for use when Configure is left. -/
  | tickWrite (r : Requester) (v : Word)
  /-- `DEP_LO_READ` (R14). A read of DSP.DEP_LO returns DEP bits 31:0 and copies bits 63:32 into the requester's DEP_HI. -/
  | depLoRead (r : Requester)
  /-- `VT_LO_READ` (R27). A read of TBU.VT_LO returns vehicle time bits 31:0 and copies bits 63:32 into the requester's VT_HI. -/
  | vtLoRead (r : Requester)
  /-- `NEXTSEC_LO_READ` (R52). A read of the low word of TBU.NEXTSEC copies its high word for the requester. -/
  | nextsecLoRead (r : Requester)
  /-- `MAP_HI_WRITE` (R30). A write of the HI word of MAP_VT or MAP_TAI in Configure by the installer makes the 64-bit mapping value take effect. -/
  | mapHiWrite (r : Requester) (tai : Bool) (v : Word)
  /-- `PPS_EDGE` (R33). An active edge of the reference pulse is stamped by the TBU's capture vernier, less PPS_OFS. -/
  | ppsEdge (cyc : Nat) (code : Fin 128)
  /-- `TOD_MESSAGE` (R34). A complete ToD message is checked and names a pulse under R420, or is rejected. -/
  | todMessage (bytes : List Byte) (started : Nat)
  /-- `SRV_EN_WRITE` (R40). A write of TBU.CTL.SRV_EN turns the servo off to FREE_RUN or restarts it with integ preset from FREQ. -/
  | srvEnWrite (r : Requester) (v : Word)
  /-- `STEP_LAUNCH` (R44). A write of TBU.STEP_HI launches a step of vehicle time if role, mode and STEP_BUSY allow. -/
  | stepLaunch (r : Requester) (v : Word)
  /-- `K32_MEASURE` (R48). At the end of a 2^18-period window in LOCKED, the crystal ratio is stored in K32 and KS_K32. -/
  | k32Measure (cycles : Nat)
  /-- `KEEPTIME_LATCH` (R48). At the first crystal edge after entry to Keep-time, `delay` units after it, KS_VT takes vehicle time, KS_TICKS clears and VT_VALID is set. -/
  | keeptimeLatch (delay : Nat)
  /-- `PPSOUT_ENABLE` (R51). A write of PPSOUT.EN = 1 claims the named track for the second pulse, or records a refused claim. -/
  | ppsoutEnable (r : Requester) (v : Word)
  /-- `CAL_BUILD` (R56). Every INTERVAL ms the TBU builds capture and output vernier tables from the histograms and observations. -/
  | calBuild (obs : List VernierObs) (cal : List CalHits)
  /-- `CAL_FILL_EDGE` (R55). An idle capture vernier is offered an edge from the calibration oscillator, which enters its histogram only. -/
  | calFillEdge (v : Fin 301) (code : Fin 128)
  /-- `TRK_MODE_WRITE` (R60). A write of TRK.MODE takes effect in the next cycle, or is discarded with BUSY while the track is loaded or active. -/
  | trkModeWrite (r : Requester) (t : TrackId) (v : Word)
  /-- `COMPARE_MATCH` (R61). An active compare reaches its time and its edge or action is placed at the ball. -/
  | compareMatch (t : TrackId) (b : Bool)
  /-- `TRAIN_PULSE` (R63). A running train places its next pulse TPER after the previous leading edge until COUNT pulses have run. -/
  | trainPulse (t : TrackId)
  /-- `STOP_MATCH` (R66). The stop comparator matches and the track discards loads not yet fired and ends arming or following. -/
  | stopMatch (t : TrackId)
  /-- `CMP_HOLD_WRITE` (R68). A compare word write that does not arm stores its value in the holding register only. -/
  | cmpHoldWrite (r : Requester) (t : TrackId) (b hi : Bool) (v : Word)
  /-- `CMP_ARM_WRITE` (R68). The arming compare write loads the shadow from the held values, or is refused with BUSY. -/
  | cmpArmWrite (r : Requester) (t : TrackId) (b : Bool) (v : Word)
  /-- `CAPTURE_ARM` (R69). An ARM_CAPTURE reaches its DUE and arms the track with its edge limit. -/
  | captureArm (t : TrackId)
  /-- `CAPTURE_EDGE` (R70). A transition reaches a track's capture path and, if selected and armed, is stamped or measured. -/
  | captureEdge (t : TrackId) (cyc : Nat) (code : Fin 128) (rising : Bool)
  /-- `STAMP_FIFO_ENTRY` (R72). A stamp enters the track's FIFO 12 cycles after its edge, or is lost when the FIFO is full. -/
  | stampFifoEntry (t : TrackId)
  /-- `TRK_POP0_READ` (R73). A read of TRK.POP0 moves the head record into the requester's pop latch and returns bytes 0–3. -/
  | trkPop0Read (r : Requester) (t : TrackId)
  /-- `GATE_OPEN` (R75). In IN_GATE_COUNT an ARM_CAPTURE opens a counting gate at its DUE. -/
  | gateOpen (t : TrackId)
  /-- `GATE_CLOSE` (R75). At DUE + ARG, or at a stop time, the gate closes, the count goes to MEAS and a gate record is formed. -/
  | gateClose (t : TrackId)
  /-- `LINKED_EDGE` (R76). A LINKED track reproduces its source's edge, or a pulse after a tooth, LINKDLY later. -/
  | linkedEdge (t : TrackId)
  /-- `STAMP_MARK` (R77). At DUE a STAMP_MARK load forms a record with the ordered time and ARG as context. -/
  | stampMark (t : TrackId)
  /-- `TRK_CLAIM` (R78). A write of TRK.OWN.CLAIM makes the requester owner of a free track or records a refused claim. -/
  | trkClaim (r : Requester) (t : TrackId)
  /-- `TRK_RELEASE` (R78). A write of TRK.OWN.RELEASE from the holder clears the holder. -/
  | trkRelease (r : Requester) (t : TrackId)
  /-- `JNC_RELEASE` (R80). An installer write of JNC.RELEASE frees the named track, unit, window or line whatever holds it. -/
  | jncRelease (r : Requester) (v : Word)
  /-- `TRK_ABORT` (R82). An abort of a track sets it OFF, discards its loads, returns its line to idle and clears its holder. -/
  | trkAbort (t : TrackId)
  /-- `BANK_SUPPLY_CHANGE` (R83). A bank supply monitor finds VDDIO disagreeing with VSEL or absent, or agreeing again, and the bank's lines follow. -/
  | bankSupplyChange (b : BankId) (v : Supply)
  /-- `LN_CFG_WRITE` (R88). A write of JNC.LN_CFG or LN_TRIM is checked for ownership and range and held for the next boundary. -/
  | lnCfgWrite (r : Requester) (n : LineId) (trim : Bool) (v : Word)
  /-- `INSERTION_LAUNCH` (R97). A write of DSP.INS3 launches an insertion at the insertion port and clears INSRES.DONE. -/
  | insertionLaunch (r : Requester) (v : Word)
  /-- `CANCEL_WRITE` (R108). A write of DSP.CANCEL names an entry to cancel, freeing it at once if QUEUED. -/
  | cancelWrite (r : Requester) (v : Word)
  /-- `NOP_DUE` (R100). A QUEUED NOP entry reaches its DUE and becomes RETIRING with outcome ACTED. -/
  | nopDue (i : SlotId)
  /-- `ENTRY_RETIRE` (R100). An ACTIVE entry becomes RETIRING the cycle after its target acts, refuses or discards its load. -/
  | entryRetire (i : SlotId)
  /-- `CHAIN_UNPARK` (R107). In the cycle after a predecessor retires, its successor is unparked and placed, or the chain is cut under CHAINBRK. -/
  | chainUnpark (i : SlotId)
  /-- `DSP_RUN_SET` (R112). Setting DSP.CTL.RUN after 0 resumes moving and fills the catch-up list. -/
  | dspRunSet (r : Requester) (v : Word)
  /-- `DSP_FLUSH` (R113). A write of DSP.CMD.FLUSH while RUN = 0 starts freeing every QUEUED entry with outcome CANCELLED. -/
  | dspFlush (r : Requester)
  /-- `BOOKS0_READ` (R103). A read of DSP.BOOKS0 returns FREE and QUEUED and copies ACTIVE and RETIRING into the requester's BOOKS1. -/
  | books0Read (r : Requester)
  /-- `TOOTH_EDGE` (R116). An active edge on a turntable's tooth line is stamped at the ball by its capture vernier. -/
  | toothEdge (n : TurnId) (cyc : Nat) (code : Fin 128) (dir : Bool) (turned : Option (Nat × Fin 128))
  /-- `TOOTH_PROCESS` (R126). At b+12 the tooth is noise-tested, classified and checked, and tooth index, revolution, angle, ring and sync state are updated. -/
  | toothProcess (n : TurnId)
  /-- `TOOTH_FIT` (R127). At b+20 the constant-acceleration fit completes, OMEGA, ACCEL and PPER update and the stall deadline is armed. -/
  | toothFit (n : TurnId)
  /-- `OVERTAKEN` (R136). After a surge, a moved entry whose start lies behind the new anchor is treated by its LATE field. -/
  | overtaken (n : TurnId) (i : SlotId)
  /-- `REPREDICTION` (R133). A moved angle entry's start is re-predicted and written into its target's load. -/
  | reprediction (n : TurnId) (i : SlotId)
  /-- `ANNOUNCEMENT` (R131). A wheel entry entering its one-tooth window is announced to the angle lane with its predicted start. -/
  | announcement (n : TurnId) (i : SlotId)
  /-- `INDEX_EDGE` (R119). An active index edge opens a half-interval in which the next tooth is identified as IDXT. -/
  | indexEdge (n : TurnId) (cyc : Nat) (code : Fin 128)
  /-- `GAP_LINE_EDGE` (R119). An active gap-line edge opens a half-interval in which the next tooth is identified as the tooth after GAP0. -/
  | gapLineEdge (n : TurnId) (cyc : Nat) (code : Fin 128)
  /-- `MARK_WINDOW_EXPIRY` (R119). An index or gap-line half-interval ends with no tooth accepted, which is a sync error. -/
  | markWindowExpiry (n : TurnId)
  /-- `STALL` (R137). At D + 12 with no tooth by the stall deadline, a stall is declared, the angle freezes and keepsakes are written. -/
  | stall (n : TurnId)
  /-- `TTN_ENABLE` (R117). A write of TTN.CTL.EN = 1 checks the geometry and fan-out and starts hunting or a quick start or restore. -/
  | ttnEnable (r : Requester) (n : TurnId) (v : Word)
  /-- `TTN_DISABLE` (R141). A write of EN = 0 clears EN, sets UNSYNC and withdraws moved entries. -/
  | ttnDisable (r : Requester) (n : TurnId) (v : Word)
  /-- `TTN_ABORT` (R141). An abort of a turntable clears EN, sets UNSYNC and withdraws moved entries. -/
  | ttnAbort (n : TurnId)
  /-- `TTN_RESYNC` (R121). A write of TTN.CTL.RESYNC moves a LOST turntable to HUNTING. -/
  | ttnResync (r : Requester) (n : TurnId)
  /-- `TTN_ANGLE_READ` (R129). A read of TTN.ANGLE returns the interpolated angle and copies REV and TOOTH for the requester. -/
  | ttnAngleRead (r : Requester) (n : TurnId)
  /-- `TTN_TSTAMP_LO_READ` (R129). A read of TTN.TSTAMP_LO copies bits 63:32 of the last tooth stamp for the requester. -/
  | ttnTstampLoRead (r : Requester) (n : TurnId)
  /-- `CALL_PENDING` (R147). A queued call becomes pending at its CALLMAP level in the first cycle at or after its start. -/
  | callPending (e : EngineId)
  /-- `DOORBELL` (R149). A write of MEN.DB makes the named doorbell vector pending with 24 bits of data. -/
  | doorbell (r : Requester) (e : EngineId) (v : Word)
  /-- `ROUTINE_START` (R152). The highest pending invocation starts at its level after the switch cycle, loading g0, g1 and s0. -/
  | routineStart (e : EngineId)
  /-- `NEXT` (R157). The microword executes its nanoword and continues at PC + 1. -/
  | wordNext (e : EngineId)
  /-- `JUMP` (R157). The microword executes its nanoword and branches within the page. -/
  | wordJump (e : EngineId)
  /-- `JUMPC` (R157). The microword branches within the page if the selected condition holds. -/
  | wordJumpC (e : EngineId)
  /-- `CALL` (R157). The microword pushes its return address and PAGE and branches. -/
  | wordCall (e : EngineId)
  /-- `RET` (R157). The microword returns to the popped address, or ends the routine on an empty stack. -/
  | wordRet (e : EngineId)
  /-- `END` (R154). The microword ends the routine and frees its level. -/
  | wordEnd (e : EngineId)
  /-- `MWB` (R158). The microword ORs up to four conditions into IMM and branches to the result. -/
  | wordMwb (e : EngineId)
  /-- `PAGE` (R179). The microword loads PAGE from IMM bits 3:0 for the next word. -/
  | wordPage (e : EngineId)
  /-- `WAIT` (R159). The microword starts waiting on a condition and an optional deadline, yielding the engine. -/
  | wordWait (e : EngineId)
  /-- `SEAL` (R161). The microword opens a sealed section in which writes are buffered. -/
  | wordSeal (e : EngineId)
  /-- `UNSEAL` (R163). The microword closes the sealed section, making its buffered writes commit in the next cycle. -/
  | wordUnseal (e : EngineId)
  /-- `RESERVED_SEQ` (R178). A word with a reserved SEQ code or nanoword encoding faults with RESERVED_OP and does not execute. -/
  | wordReserved (e : EngineId)
  /-- `READ_DATA_ARRIVAL` (R190). The data of an engine read arrives in the issuing routine's bank register. -/
  | readDataArrival (e : EngineId)
  /-- `TTR_RESULT` (R189). The result of an engine's timetable access arrives in its bank's TTR. -/
  | ttrResult (e : EngineId)
  /-- `WAIT_CONDITION` (R159). A waited condition holds and the wait resolves with TO cleared, the condition winning a tie with the deadline. -/
  | waitCondition (e : EngineId) (l : Fin 8)
  /-- `WAIT_DEADLINE` (R159). A wait's deadline is reached first and the wait resolves with TO set. -/
  | waitDeadline (e : EngineId) (l : Fin 8)
  /-- `SEAL_COMMIT` (R163). In u+1 every buffered write of the section takes effect together and its insertions are placed. -/
  | sealCommit (e : EngineId)
  /-- `MICROSTORE_SCRUB` (R172). Every 64 cycles the scrubber reads one microword, or nanoword, and rewrites it if corrected. -/
  | microstoreScrub (e : EngineId)
  /-- `MEN_RESUME` (R171). A write of MEN.CTL.RESUME takes a FAULTED engine to IDLE. -/
  | menResume (r : Requester) (e : EngineId)
  /-- `MEN_ABORT` (R174). An abort of an engine ends its routines, retires its queued calls ABORTED and drops pending invocations. -/
  | menAbort (e : EngineId)
  /-- `RU_RELOAD` (R199). Three cycles before a period starts, pending shadows transfer, the period's edges are formed and a sync is sent. -/
  | ruReload (u : RulerId)
  /-- `RU_OUTPUT_EDGE` (R195). A formed HI or LO edge is placed at its time after dead time, MAXON and filtering. -/
  | ruOutputEdge (u : RulerId) (hi : Bool)
  /-- `RU_ST_HI_WRITE` (R203). A write of RUL.ST_HI loads a direct start, or is discarded with BUSY where a delivery would be refused. -/
  | ruStHiWrite (r : Requester) (u : RulerId) (v : Word)
  /-- `RU_START_INSTANT` (R203). A loaded start reaches its begin time and the unit starts its grid of periods. -/
  | ruStartInstant (u : RulerId)
  /-- `RU_SP_HI_WRITE` (R204). A write of RUL.SP_HI loads a direct stop, replacing a pending one. -/
  | ruSpHiWrite (r : Requester) (u : RulerId) (v : Word)
  /-- `RU_STOP_INSTANT` (R204). The stop instant is reached and the run ends by STOPMODE, discarding a start not yet begun. -/
  | ruStopInstant (u : RulerId)
  /-- `RU_RUN_END` (R194). A BURST or ONESHOT reaches T_N, DONE is set and the lines return to IDLE or the next start begins. -/
  | ruRunEnd (u : RulerId)
  /-- `RUL_MODE_WRITE` (R214). A write of RUL.MODE is accepted only while OFF or IDLE with nothing pending and changes the unit state. -/
  | rulModeWrite (r : Requester) (u : RulerId) (v : Word)
  /-- `UPD_HOLD_WRITE` (R200). A write of UPD_HOLD holds shadow transfers or releases them for the next reload. -/
  | updHoldWrite (r : Requester) (u : RulerId) (v : Word)
  /-- `RU_FORCE_WRITE` (R208). A write of RUL.OVR.FORCE sets or releases forced output levels within 2 cycles. -/
  | ruForceWrite (r : Requester) (u : RulerId) (v : Word)
  /-- `RU_FAULT_INPUT` (R209). The fault line goes active and the unit's lines go to their safe levels within 10 ns without CLK400. -/
  | ruFaultInput (u : RulerId)
  /-- `RU_FAULT_RELEASE` (R209). With LATCH = 0 the fault line returns inactive and edges resume at the next period start. -/
  | ruFaultRelease (u : RulerId)
  /-- `RU_CLRFLT` (R202). A write of RUL.CTL.CLRFLT takes a FAULTED unit to IDLE if its fault input is inactive. -/
  | ruClrFlt (r : Requester) (u : RulerId)
  /-- `RU_CLAIM` (R212). A claim of RUL.OWN makes the requester owner or is refused with KIND 3. -/
  | ruClaim (r : Requester) (u : RulerId)
  /-- `RU_RELEASE` (R212). A release of RUL.OWN by the holder clears the holder and TTACC. -/
  | ruRelease (r : Requester) (u : RulerId)
  /-- `RUL_ABORT` (R213). An abort of a ruling unit stops it at once, drives IDLE, discards pending start and stop and clears the holder. -/
  | rulAbort (u : RulerId)
  /-- `ADC_SAMPLE` (R219). A converter sample is corrected, filtered, marked, added to features and written to a frame and optical channel. -/
  | adcSample (b : Bool) (code : BitVec 12)
  /-- `OPTICAL_RECORD_ENTRY` (R236). An optical stamp record enters its channel FIFO within 48 cycles, or is lost. -/
  | opticalRecordEntry (c : ChannelId)
  /-- `OPTICAL_POP0_READ` (R236). A read of ADC.OPOP POP0 pops a channel record into the requester's latch. -/
  | opticalPop0Read (r : Requester) (c : ChannelId)
  /-- `MMC_BLOCK` (R221). At the end of each 4,096-sample block the mismatch estimates of each slice are updated or frozen. -/
  | mmcBlock (b : Bool)
  /-- `ADC_TRIGGER_INPUT` (R226). A selected edge on a trigger input's line or internal source presents a trigger to its sequencer. -/
  | adcTriggerInput (n : Fin 4) (cyc : Nat) (code : Fin 128) (rising : Bool)
  /-- `ADC_TRIGGER_ACCEPT` (R227). A sequencer accepts a trigger and starts, queues, drops or restarts by SQPOL. -/
  | adcTriggerAccept (q : Fin 3)
  /-- `ADC_STEP_BEGIN` (R223). A step begins at its sample instant, latching its fields and opening its frame. -/
  | adcStepBegin (q : Fin 3)
  /-- `ADC_STEP_END` (R230). A step ends, its frame header is written and WP advances past the frame, or the frame is lost. -/
  | adcStepEnd (q : Fin 3)
  /-- `WINDOW_ALLOC` (R229). A write of WCFG.ALLOC takes contiguous free blocks for a window, or sets NOSPACE. -/
  | windowAlloc (r : Requester) (w : WindowId) (v : Word)
  /-- `WINDOW_FREE` (R229). A write of WCFG.FREE returns a window's blocks to the buffer. -/
  | windowFree (r : Requester) (w : WindowId) (v : Word)
  /-- `WINDOW_TRANSFER_COMPLETE` (R229). The last block of an allocation or release has moved and BUSY clears. -/
  | windowTransferComplete (w : WindowId)
  /-- `WINDOW_RP_WRITE` (R231). A write of WPTR.RP with DEST = 1 frees frames that have been read. -/
  | windowRpWrite (r : Requester) (w : WindowId) (v : Word)
  /-- `WINDOW_CLAIM` (R232). A claim of ADC.WOWN makes the requester owner of a window or is refused with KIND 4. -/
  | windowClaim (r : Requester) (w : WindowId)
  /-- `WINDOW_RELEASE` (R232). A release of ADC.WOWN by the holder clears the window's holder. -/
  | windowRelease (r : Requester) (w : WindowId)
  /-- `ADC_CTL_WRITE` (R240). A write of ADC.CTL EN or PAIR is refused with BUSY while a sequencer is running or holds work. -/
  | adcCtlWrite (r : Requester) (v : Word)
  /-- `PROGRAM_STORE_WRITE` (R242). A write to a shunter program store is accepted only while HALTED. -/
  | programStoreWrite (r : Requester) (s : ShunterId) (i : Fin 128) (v : Word)
  /-- `BR` (R243). The shunter branches to ADDR when COND holds. -/
  | shBr (s : ShunterId) (pins : Byte)
  /-- `LOOP` (R243). The shunter decrements a non-zero loop counter and branches. -/
  | shLoop (s : ShunterId)
  /-- `AT` (R245). The shunter waits so that the next instruction acts at the ball at T, or sets LATE. -/
  | shAt (s : ShunterId)
  /-- `SHN_WAIT` (R246). The shunter waits until a pin reads POL, or until a deadline in T. -/
  | shWait (s : ShunterId) (pins : Byte)
  /-- `SEND` (R249). The shunter sends N bits of the send wagon to pins or a register. -/
  | shSend (s : ShunterId)
  /-- `TAKE` (R249). The shunter gathers N bits into the receive wagon. -/
  | shTake (s : ShunterId) (pins : Byte)
  /-- `LOAD` (R250). The shunter moves the TX FIFO head into the send wagon, or stalls or sets NODATA. -/
  | shLoad (s : ShunterId)
  /-- `STORE` (R250). The shunter moves the receive wagon into the RX FIFO, or stalls or drops it. -/
  | shStore (s : ShunterId)
  /-- `COPY` (R243). The shunter copies a source through OP to a destination. -/
  | shCopy (s : ShunterId) (pins : Byte)
  /-- `LDI` (R243). The shunter loads an immediate into pins, A, B or PINDRV. -/
  | shLdi (s : ShunterId)
  /-- `ADD` (R243). The shunter adds a source to A, B or T modulo 2^32. -/
  | shAdd (s : ShunterId)
  /-- `SIG` (R254). The shunter writes SIGWORD and signals event kind 0x8. -/
  | shSig (s : ShunterId)
  /-- `LCNT` (R243). The shunter loads a loop counter. -/
  | shLcnt (s : ShunterId)
  /-- `HALT` (R243). The shunter becomes HALTED with HALT_RSN = 1. -/
  | shHalt (s : ShunterId)
  /-- `RESERVED_INSTRUCTION` (R243). A reserved or malformed shunter instruction halts the shunter with HALT_RSN = 2 and ILLEGAL. -/
  | shReserved (s : ShunterId)
  /-- `AT_RESOLVE` (R245). The AT target minus 8 cycles is reached and the next instruction executes. -/
  | shAtResolve (s : ShunterId)
  /-- `SHN_WAIT_PIN` (R246). The waited pin reads POL and the wait resolves with TO cleared. -/
  | shWaitPin (s : ShunterId)
  /-- `SHN_WAIT_DEADLINE` (R246). The WAIT deadline is reached first and the wait resolves with TO set. -/
  | shWaitDeadline (s : ShunterId)
  /-- `LOAD_STALL_END` (R251). A word arrives in an empty TX FIFO and a stalled LOAD completes at the next tick. -/
  | shLoadStallEnd (s : ShunterId)
  /-- `STORE_STALL_END` (R251). A slot frees in a full RX FIFO and a stalled STORE completes at the next tick. -/
  | shStoreStallEnd (s : ShunterId)
  /-- `TXF_WRITE` (R250). A write of SHN.TXF pushes a word into the TX FIFO or is discarded. -/
  | txfWrite (r : Requester) (s : ShunterId) (v : Word)
  /-- `RXF_READ` (R250). A read of SHN.RXF pops the RX FIFO head. -/
  | rxfRead (r : Requester) (s : ShunterId)
  /-- `TXDMA_READ` (R252). TX DMA issues a log store read, reserving a FIFO slot as in flight. -/
  | txdmaRead (s : ShunterId)
  /-- `TXDMA_STORE` (R252). A TX DMA read completes into its reserved slot, and the pass ends or loops after LEN words. -/
  | txdmaStore (s : ShunterId)
  /-- `RXDMA_MOVE` (R253). RX DMA moves the RX FIFO head into its ring in the log store, unless the ring is full. -/
  | rxdmaMove (s : ShunterId)
  /-- `SHN_START_ENTRY` (R255). An SHN_START load acts at its start, starting the shunter or its group, or is discarded. -/
  | shnStartEntry (s : ShunterId)
  /-- `SHN_START_WRITE` (R255). A write of SHN.CTL.START starts a HALTED shunter at START.ADDR. -/
  | shnStartWrite (r : Requester) (s : ShunterId)
  /-- `SHN_GSTART_WRITE` (R255). A write of SHN.CTL.GSTART starts every HALTED member of the group together. -/
  | shnGstartWrite (r : Requester) (s : ShunterId)
  /-- `SHN_HALT_WRITE` (R257). A write of SHN.CTL.HALT halts the shunter, abandoning waits and stalls. -/
  | shnHaltWrite (r : Requester) (s : ShunterId)
  /-- `SHN_CLKRST_WRITE` (R255). A write of SHN.CTL.CLKRST restarts the group's dividers together. -/
  | shnClkrstWrite (r : Requester) (s : ShunterId)
  /-- `SHN_CLRFIFO_WRITE` (R261). A write of SHN.CTL.CLRFIFO empties both FIFOs of a halted shunter with DMA disabled. -/
  | shnClrfifoWrite (r : Requester) (s : ShunterId)
  /-- `SHN_ABORT` (R259). An abort of a shunter halts it, disables its DMA and discards a pending start. -/
  | shnAbort (s : ShunterId)
  /-- `SIDING_GRANT` (R266). Each cycle a siding grants its one access to the first waiting requester in the fixed order. -/
  | sidingGrant (d : SidingId)
  /-- `DMA_STARVE` (R268). A DMA-class access waits STARVE_THR cycles and starvation is counted. -/
  | dmaStarve (d : SidingId)
  /-- `SCRUB_READ` (R265). Every SCRUB_INT cycles each scrubbed store reads and checks one word. -/
  | scrubRead (store : Fin 8)
  /-- `BGT_TEST_END` (R276). The March C− test of the home bank ends, passing to RESTORE or retiring the siding. -/
  | bgtTestEnd (passed : Bool)
  /-- `BGT_EN_WRITE` (R278). A maker write of MEM.BGT.EN stops background test at the next RESTORE end or starts it. -/
  | bgtEnWrite (r : Requester) (v : Word)
  /-- `PCIE_READ_REQUEST` (R284). A BAR0 read request is performed one dword at a time and completed. -/
  | pcieReadRequest (a : Nat) (n : Nat)
  /-- `PCIE_WRITE_REQUEST` (R284). A BAR0 write request is performed one dword at a time in ascending order. -/
  | pcieWriteRequest (a : Nat) (ws : List (Word × BitVec 4))
  /-- `SPI_WRITE` (R285). An SPI WRITE transaction writes words from the address on single lines. -/
  | spiWrite (a : Nat) (ws : List Word)
  /-- `SPI_READ` (R285). An SPI READ transaction returns a status byte and words from the address. -/
  | spiRead (a : Nat) (n : Nat)
  /-- `SPI_QWRITE` (R285). An SPI QWRITE transaction writes words over four lines. -/
  | spiQwrite (a : Nat) (ws : List Word)
  /-- `SPI_QREAD` (R285). An SPI QREAD transaction reads words over four lines. -/
  | spiQread (a : Nat) (n : Nat)
  /-- `REGISTER_WRITE` (R6). A write to a register without its own row stores or discards each field by access type, role, range and mode. -/
  | registerWrite (r : Requester) (a : Nat) (v : Word)
  /-- `IRQ_SET_WRITE` (R287). A maker write of IRQ_SET sets IRQ_RAW bits as if their events had occurred. -/
  | irqSetWrite (r : Requester) (a : Nat) (v : Word)
  /-- `LOCK_SEAL` (R289). An installer write of LOCK.SEAL raises the page's RWL fields to maker until Boot and logs it. -/
  | lockSeal (r : Requester) (a : Nat)
  /-- `SLOT_OPEN` (R292). A stream with payload and a credit opens a slot in its host ring. -/
  | slotOpen (n : StreamId)
  /-- `SLOT_CLOSE` (R292). A slot closes when the next unit will not fit, the source empties or the stream stops, and its descriptor is written. -/
  | slotClose (n : StreamId)
  /-- `SLOT_TIMEOUT` (R292). COAL × 10 µs after opening, a slot closes with TIMEOUT. -/
  | slotTimeout (n : StreamId)
  /-- `STREAM_REPORT` (R294). After the data of closed slots, the report word is written and REP may raise the stream's vector. -/
  | streamReport (n : StreamId)
  /-- `STREAM_DOORBELL` (R293). A write of SnDB grants credits up to index G, or is discarded with DB_ERR. -/
  | streamDoorbell (r : Requester) (n : StreamId) (v : Word)
  /-- `STREAM_POLL_READ` (R298). A read of SnPOLL returns the next word of the current poll-mode slot. -/
  | streamPollRead (r : Requester) (n : StreamId)
  /-- `VACK_WRITE` (R300). A write of HST.VACK resends the vector's message if it is still asserted. -/
  | vackWrite (r : Requester) (v : Word)
  /-- `MSIX_UNMASK` (R300). Unmasking a vector sends its withheld message if the vector is asserted. -/
  | msixUnmask (v : Fin 32)
  /-- `CONSIST_BEGIN` (R305). CNS.CMD OP BEGIN opens a consist in the lowest free slot for the requester. -/
  | consistBegin (r : Requester)
  /-- `CONSIST_COMMIT` (R309). CNS.CMD OP COMMIT closes the requester's consist for a boundary named by WHEN. -/
  | consistCommit (r : Requester) (v : Word)
  /-- `CONSIST_ROLLBACK` (R313). CNS.CMD OP ROLLBACK discards the requester's consist if not too close to its commit. -/
  | consistRollback (r : Requester)
  /-- `BLOCK_ABORT` (R315). A write of a page's ABORT.GO starts that block's abort, or is absorbed into one in progress. -/
  | blockAbort (r : Requester) (a : Nat)
  /-- `ABORT_COMPLETE` (R315). A block's abort completes, BUSY clears, DONE is set and COUNT increases. -/
  | abortComplete (a : Nat)
  /-- `GLB_ABORT` (R317). A write of GLB.ABORT.GO aborts every block except PWR and SEC in one cycle. -/
  | glbAbort (r : Requester)
  /-- `ROLLCALL_REQUEST` (R319). A write of GLB.ROLLCALL.GO requests a digest, or is discarded with BUSY or RANGE. -/
  | rollcallRequest (r : Requester) (v : Word)
  /-- `BOOT_ENTRY` (R324). Entry to Boot starts Umaust boot's sequence from the SRAM clear onward. -/
  | bootEntry (clearOk : Bool)
  /-- `SEC_LOAD` (R327). SEC.CMD OP LOAD starts an image load from the log store in Provision, or replaces the image in Configure. -/
  | secLoad (r : Requester) (v : Word)
  /-- `OVERRIDE` (R333). SEC.CMD OP OVERRIDE from a maker passes a gate-refused image. -/
  | secOverride (r : Requester)
  /-- `KEY_PROG` (R335). SEC.CMD OP KEY_PROG programs an OTP key slot. -/
  | keyProg (r : Requester)
  /-- `KEY_REVOKE` (R335). SEC.CMD OP KEY_REVOKE revokes an OTP key slot. -/
  | keyRevoke (r : Requester)
  /-- `ARB_ADVANCE` (R335). SEC.CMD OP ARB_ADVANCE blows anti-rollback fuses up to the running image's SVN. -/
  | arbAdvance (r : Requester)
  /-- `REFSEL_PROG` (R335). SEC.CMD OP REFSEL_PROG programs the REFCLK selection in OTP. -/
  | refselProg (r : Requester)
  /-- `NONCE_LO_READ` (R337). A read of SEC.NONCE_LO draws a fresh nonce for the requester. -/
  | nonceLoRead (r : Requester)
  /-- `SESSION_OPEN` (R337). SEC.SESS OP OPEN starts verifying the requester's token. -/
  | sessionOpen (r : Requester)
  /-- `SESSION_VERIFY_COMPLETE` (R338). Token verification ends and the role is raised or the failure recorded. -/
  | sessionVerifyComplete (r : Requester)
  /-- `SESSION_CLOSE` (R339). SEC.SESS OP CLOSE ends the requester's session. -/
  | sessionClose (r : Requester)
  /-- `SESSION_EXPIRY` (R339). A session's lifetime ends and its requester returns to operator. -/
  | sessionExpiry (r : Requester)
  /-- `SESSION_LOCKOUT_END` (R338). Sixty seconds after a lockout began, the requester may open sessions again. -/
  | sessionLockoutEnd (r : Requester)
  /-- `TWN_ENABLE` (R347). A write of TWN.CTL.EN = 1 in Configure trains the link and starts HELLO exchange. -/
  | twnEnable (r : Requester) (v : Word)
  /-- `HELLO_FRAME` (R347). A received HELLO is compared and the devices pair as PRIMARY and STANDBY or stay SOLO. -/
  | helloFrame (h : Hello)
  /-- `HEARTBEAT_FRAME` (R349). A received heartbeat is stamped, updates θ and FOLLOW, and drives the divergence and readiness checks. -/
  | heartbeatFrame (h : Heartbeat) (t : Nat)
  /-- `ACK_FRAME` (R345). A received ACK confirms mirror records up to its SEQ. -/
  | ackFrame (seq launch : Nat)
  /-- `INS_FRAME` (R352). The STANDBY applies mirrored insertions to the named slots. -/
  | insFrame (seq : Nat) (rs : List InsRec)
  /-- `CAN_FRAME` (R352). The STANDBY applies mirrored cancellations. -/
  | canFrame (seq slot : Nat) (chain : Bool) (req : Nat)
  /-- `RET_FRAME` (R352). The STANDBY applies mirrored retirements with their outcomes. -/
  | retFrame (seq : Nat) (rs : List (Nat × Nat))
  /-- `CONS_FRAME` (R355). The STANDBY receives the staged values of a mirrored consist. -/
  | consFrame (seq slot owner whn bound : Nat) (last : Bool) (vals : List (Nat × Word))
  /-- `CONS_AT_FRAME` (R355). The STANDBY receives the boundary of a mirrored WHEN = ENTRY commit. -/
  | consAtFrame (seq slot dep : Nat)
  /-- `CONS_END_FRAME` (R355). The STANDBY receives a mirrored consist's outcome other than COMMITTED. -/
  | consEndFrame (seq slot out : Nat)
  /-- `MAP_FRAME` (R350). The STANDBY takes the MAP pair from the PRIMARY. -/
  | mapFrame (seq vt tai : Nat)
  /-- `BULK_FRAME` (R364). A joining device applies a join copy of up to 12 slots. -/
  | bulkFrame (seq : Nat) (rs : List BulkRec) (last : Bool)
  /-- `SWITCH_FRAME` (R359). A received SWITCH names the boundary of a commanded switchover. -/
  | switchFrame (w : Nat)
  /-- `TWN_SWITCH_CMD` (R359). TWN.CMD OP SWITCH on the PRIMARY commands a switchover two boundaries ahead. -/
  | twnSwitchCmd (r : Requester)
  /-- `TWN_REJOIN` (R364). TWN.CMD OP REJOIN takes a NOT_READY device back to JOINING. -/
  | twnRejoin (r : Requester)
  /-- `PWR_CONFIGURE` (R369). PWR.CMD OP CONFIGURE moves the device to Configure after a global abort. -/
  | pwrConfigure (r : Requester)
  /-- `PWR_RUN` (R369). PWR.CMD OP RUN moves the device to Run or Holdover and sets DSP.CTL.RUN. -/
  | pwrRun (r : Requester)
  /-- `PWR_SAFE` (R375). PWR.CMD OP SAFE enters Safe-state, driving SAFE levels and aborting the acting blocks. -/
  | pwrSafe (r : Requester)
  /-- `PWR_HIBERNATE` (R376). PWR.CMD OP HIBERNATE aborts, isolates the core and drops PMIC_EN. -/
  | pwrHibernate (r : Requester)
  /-- `PWR_KEEPTIME` (R376). PWR.CMD OP KEEPTIME aborts, starts keeping time on the crystal and drops PMIC_EN. -/
  | pwrKeeptime (r : Requester)
  /-- `PWR_RESET` (R380). PWR.CMD OP RESET from the installer enters Boot as reset source COMMAND. -/
  | pwrReset (r : Requester)
  /-- `PWR_FACTORY` (R374). PWR.CMD OP FACTORY from the maker in Configure enters Factory-test. -/
  | pwrFactory (r : Requester)
  /-- `WDOG_KICK` (R379). A write of 0x0000_4B1C to PWR.KICK restarts the watchdog period. -/
  | wdogKick (r : Requester) (v : Word)
  /-- `PLL_LOCK` (R324). The CLK400 PLL lock detector reports lock, PLL_LOCK reads 1 and Boot or the return from Keep-time proceeds. -/
  | pllLock (marchOk : Bool) (straps : BitVec 2)
  /-- `PCIE_LINK_UP` (R282). PCIe link training completes and HST.LINK reports UP with its width and speed. -/
  | pcieLinkUp (width speed : Nat)
  /-- `SPI_UNKNOWN_COMMAND` (R285). An SPI transaction with a command code not in the table, or a misaligned address, ends with no access and sets SPI_ERR. -/
  | spiUnknownCommand (code : Byte) (a : Nat)
  /-- `JTAG_TEST_ACCESS` (R374). In Factory-test, a JTAG maker test access reads or writes microstore, nanostore or SRAM words, with check bits computed on writes. -/
  | jtagTestAccess (store inst : Nat) (a : Nat) (write : Bool) (v : Nat)
  /-- `DEPARTURE_BOUNDARY` (R15). At cycle c of each boundary DEP advances, the overrun verdict of the past departure is recorded, committed consists swap and the new vernier epoch comes into force. -/
  | departureBoundary
  /-- `HOUSEKEEPING` (R15). In cycles c+1 to c+15 the deferred list is formed, the entry books are snapshotted, the far list is swept and RETIRING entries are freed. -/
  | housekeeping
  /-- `DISPATCH_MOVE` (R98). In each move cycle the dispatcher takes the first available entry from its lanes and loads it into its target. -/
  | dispatchMove
  /-- `REPLACE_COMPLETE` (R13). When the last entry is re-placed, REPLACING clears and the catch-up list is filled. -/
  | replaceComplete
  /-- `PLL_UNLOCK` (R32). The lock detector reports loss of CLK400 lock, setting PLL_UNLOCK and triggering its fault reaction. -/
  | pllUnlock
  /-- `PULSE_WINDOW_CLOSE` (R420). A pulse that no message has named when its window closes is rejected as a pulse. -/
  | pulseWindowClose
  /-- `REF_LOSS` (R37). When no pulse has been accepted for LOSS × 100 ms of raw time, the reference is lost. -/
  | refLoss
  /-- `KS_FREQ_COPY` (R41). Once per 64 s of LOCKED, FREQ_HOLD is copied to TBU.KS_FREQ and FREQ_VALID is set. -/
  | ksFreqCopy
  /-- `HOLD_LONG` (R43). When Holdover has lasted TMAX seconds, HOLD_LONG is set. -/
  | holdLong
  /-- `STEP_TAKE_EFFECT` (R46). At the first housekeeping cycle after the launch, vehicle time is stepped, DEP recomputed and every block adjusted per the table of effects. -/
  | stepTakeEffect
  /-- `STEP_DONE` (R46). At s+15 STEP_BUSY has cleared and STEP_DONE is set. -/
  | stepDone
  /-- `KS_TICK` (R48). Each crystal period in Keep-time increments KS_TICKS. -/
  | ksTick
  /-- `KEEPTIME_RESUME` (R49). On return from Keep-time, at the next crystal edge after lock, vehicle time is set from the keepsakes and COARSE is set. -/
  | keeptimeResume
  /-- `PPSOUT_LOAD` (R51). For each TAI second the TBU loads the claimed track's compare with the second pulse at least 100 ms ahead. -/
  | ppsoutLoad
  /-- `NEXTSEC_UPDATE` (R52). At each TAI second TBU.NEXTSEC takes the vehicle time of the next second. -/
  | nextsecUpdate
  /-- `TBU_ABORT` (R58). An abort of the TBU cancels a step not yet at its cycle s and releases the PPSOUT claim. -/
  | tbuAbort
  /-- `RECORD_WRITER_DRAIN` (R73). The record writer takes one record per cycle from a track FIFO with DEST = 0 and writes it to the stamp log. -/
  | recordWriterDrain
  /-- `JNC_ABORT` (R316). An abort of JNC releases the claims held through JNC.RELEASE kinds and leaves sources and trims unchanged. -/
  | jncAbort
  /-- `INSERTION_SERVE` (R97). The insertion port checks a waiting insertion, takes a free slot and places the entry, reporting the result in INSRES. -/
  | insertionServe
  /-- `CANCEL_RESOLVE` (R108). Two cycles after the write the withdrawal reaches the target and the result WITHDRAWN or TOO_LATE is reported. -/
  | cancelResolve
  /-- `DSP_ABORT` (R113). An abort of the dispatcher stops moves within 4 cycles and clears RUN, leaving entries in place. -/
  | dspAbort
  /-- `FLUSH_COMPLETE` (R113). The flush has freed every QUEUED entry and FLUSHING clears. -/
  | flushComplete
  /-- `EVENT_SIGNAL` (R148). A source signals and every enabled vector naming it becomes pending or coalesces the signal. -/
  | eventSignal
  /-- `OPTICAL_DRAIN` (R290). Records leave channel FIFOs with DEST = 0 into the optical log. -/
  | opticalDrain
  /-- `ADC_ABORT` (R239). An abort of the ADC ends sequences, discards loads and triggers and resets channels. -/
  | adcAbort
  /-- `ECC_REWRITE` (R263). A corrected word is rewritten in the next idle cycle of its bank. -/
  | eccRewrite
  /-- `ICB_ACCESS` (R269). The interchange bank serves one access on each of port A and port B. -/
  | icbAccess
  /-- `BGT_COPY_END` (R274). The last word of the borrowed siding is copied to the relief and service switches to TEST. -/
  | bgtCopyEnd
  /-- `BGT_RESTORE_END` (R278). RESTORE ends, service returns to the home bank and the next siding's COPY begins or the test stops. -/
  | bgtRestoreEnd
  /-- `MEM_ABORT` (R280). An abort of MEM returns waiting DMA accesses and clears the collision and UE captures. -/
  | memAbort
  /-- `SPI_STATUS` (R285). An SPI STATUS transaction returns only the status byte. -/
  | spiStatus
  /-- `LINK_DOWN` (R301). Link loss, hot reset or FLR stops every stream within 2 µs and ends the PCIe session. -/
  | linkDown
  /-- `HST_ABORT` (R302). An abort of HST closes open slots with ABORTED, reports them and disables every stream. -/
  | hstAbort
  /-- `CONSIST_CHECK` (R310). At c−1 each consist due at the boundary is checked against the state at c and passes or fails whole. -/
  | consistCheck
  /-- `CNS_ABORT` (R316). An abort of CNS frees every consist with outcome ABORTED. -/
  | cnsAbort
  /-- `PWR_ABORT` (R316). An abort of PWR cancels a requested mode change not yet begun. -/
  | pwrAbort
  /-- `SEC_ABORT` (R316). An abort of SEC closes installer and maker sessions and keeps the logbook. -/
  | secAbort
  /-- `ROLLCALL_SNAPSHOT` (R320). In the cycle after acceptance every digest field is taken at one instant. -/
  | rollcallSnapshot
  /-- `ROLLCALL_COMPLETE` (R319). The digest is complete, BUSY clears, RCGEN updates and RC_DONE is set. -/
  | rollcallComplete
  /-- `ROLLCALL_AUTO` (R323). Every PERIOD × 10 ms the device requests a roll call, or skips it while busy. -/
  | rollcallAuto
  /-- `PLL_RELOCK_RETRY` (R391). If the PLL has not locked by the bound, it is reprogrammed and tried again every 240 µs. -/
  | pllRelockRetry
  /-- `LOAD_COMPLETE` (R328). An image load ends, the log store is zero-filled, and the device enters Configure or stays in Provision. -/
  | loadComplete
  /-- `OTP_DONE` (R335). An OTP operation ends, BUSY clears, OTP_DONE is set and the logbook records it. -/
  | otpDone
  /-- `HEARTBEAT_MISS` (R351). A heartbeat deadline passes without receipt and the miss is counted and signalled. -/
  | heartbeatMiss
  /-- `MIRROR_SEND` (R345). The PRIMARY sends queued mirror records as frames and resends from the first unacknowledged record. -/
  | mirrorSend
  /-- `SWITCHOVER_DRIVE` (R360). At w + 10 the new PRIMARY drives its PRIMARY_ONLY lines from their sources. -/
  | switchoverDrive
  /-- `SWITCHOVER_TAKEOVER` (R360). At the first boundary after w + 200 the device becomes PRIMARY in Run or Holdover and treats live entries under R361. -/
  | switchoverTakeover
  /-- `KILL_INPUT` (R358). IZ_KILL_IN_N goes low and every line goes high-impedance within 20 ns and the device is deposed. -/
  | killInput
  /-- `TWN_ABORT` (R365). An abort of TWN flushes the mirror queue or makes the STANDBY NOT_READY. -/
  | twnAbort
  /-- `VDD_AO_POWER_ON` (R369). VDD_AO rises past its threshold and the device enters Hibernate. -/
  | vddAoPowerOn
  /-- `POR_AO` (R380). VDD_AO falls below its threshold and the device goes Off, losing its keepsakes. -/
  | porAo
  /-- `BROWNOUT` (R380). A core-group or analog supply leaves its range and the device is held in reset until it returns. -/
  | brownout
  /-- `RESET_PIN_ASSERT` (R380). RESET_N low for at least 1 µs holds the device in reset. -/
  | resetPinAssert
  /-- `RESET_PIN_RELEASE` (R380). The rising edge of RESET_N enters Boot. -/
  | resetPinRelease
  /-- `WAKE` (R377). WAKE held at its active level for 10 µs raises PMIC_EN toward Boot. -/
  | wake
  /-- `KEEPTIME_ALARM` (R377). KS_TICKS reaches KS_ALARM with AEN set and wakes the device. -/
  | keeptimeAlarm
  /-- `WAKE_FAIL` (R377). Core supplies not in range within 50 ms of a wake drop PMIC_EN again with WAKE_FAIL. -/
  | wakeFail
  /-- `CORE_SUPPLY_GOOD` (R378). All core-group and analog supplies are in range and Boot begins 100 µs later. -/
  | coreSupplyGood
  /-- `JTAG_HALT` (R373). A JTAG halt request from the installer enters Debug-halt within 4 cycles. -/
  | jtagHalt
  /-- `JTAG_RESUME` (R373). A JTAG resume request returns to the mode held before, applying any held fault reaction. -/
  | jtagResume
  /-- `WDOG_EXPIRY` (R379). A watchdog period passes without a kick and the device enters Safe-state or resets. -/
  | wdogExpiry
  /-- `XTAL32_FAIL` (R376). The 32.768 kHz crystal leaves ±500 ppm of nominal, XTAL32_OK falls and XTAL32_FAIL is set. -/
  | xtal32Fail
  /-- `XTAL32_OK` (R407). The crystal oscillator starts and runs within ±500 ppm, and PWR.STS.XTAL32_OK reads 1, permitting KEEPTIME. -/
  | xtal32Ok
  /-- `IZLAR_LINK_DOWN` (R348). The Izlar link loses its lanes, LINK_UP clears and a JOINING or READY STANDBY becomes NOT_READY. -/
  | izlarLinkDown
  /-- `IZLAR_LINK_UP` (R347). Both Izlar lanes finish training and TWN.STS.LINK_UP reads 1, letting HELLO exchange begin. -/
  | izlarLinkUp
  /-- `FRAME_CRC_ERR` (R345). An Izlar frame whose CRC fails is discarded, counted in CNT_EVT and sets CRC_ERR. -/
  | frameCrcErr
  /-- `KILL_INPUT_RELEASE` (R358). IZ_KILL_IN_N returns high and the device's lines leave the forced high-impedance state. -/
  | killInputRelease
  deriving DecidableEq, Repr

end Sys2Proof
end

