-- ==== Sys2Proof/Decode.lean ====
section
/-! DEFINITION. The commands that a word spells by the table's bits. The table of operations and events gives no row of this
block any bits: its commands are accesses on the host interfaces, frames, edges at balls and events of its own clock. -/

namespace Sys2Proof

/-- The command that a word of `nbits` bits spells: none, for no row of the table has bits. -/
def decodeTableWord (_nbits _w : Nat) : Option Instr := none

end Sys2Proof
end

