-- ==== Sys2Proof/Config.lean ====
section
/-! DEFINITION. What an implementation fixes and what the manual leaves open. A constant without a body is a free value:
nothing in Lean can evaluate it, so a claim about it holds whatever it is. -/

namespace Sys2Proof.Config

/-- A fresh free value: nonces (R337), BOOTNONCE (R322), CLRTIME (R279), an undriven input without a pull (R85), an SPI
word that was not ready (R285), the rounding of a sample (R219), the stall of a nanoword repair (R172). Applied to
the counter `State.free` (entry 5). -/
opaque freeValue : Nat → Nat

/-- The value of a result that the listings leave undefined because a divisor is zero (entry 7). -/
opaque divByZero : Nat → Int

/-- FLAGS of a frame of type `n` (R345): a free value, the manual does not say what it holds (entry 47). -/
opaque frameFlags : Nat → Nat

end Sys2Proof.Config
end

