-- ==== Sys2Proof/Machine/F64.lean ====
section
/-! DEFINITION. The `double` arithmetic of the manual's listings (R38, R127, R221): binary64 significands, each operation
rounded once to nearest, ties to even. A value is `m` times 2 to the `e`, with 53 significant bits or zero; the exponent
is not bounded (DESIGN CHOICE, entry 6: the quantities of the manual stay far inside the range of a double). -/

namespace Sys2Proof.Machine

/-- A binary floating-point number, `m * 2 ^ e`. -/
structure F64 where
  m : Int := 0
  e : Int := 0
  deriving DecidableEq, Repr

/-- `n / d` rounded half to even to a natural number. -/
def divRne (n d : Nat) : Nat :=
  let q := n / d
  let r := n % d
  if 2 * r < d then q else if d < 2 * r then q + 1 else if q % 2 = 0 then q else q + 1

/-- `n / d` rounded to the nearest natural number, halves up. -/
def divNear (n d : Nat) : Nat := (2 * n + d) / (2 * d)

/-- `x / d` rounded to the nearest integer, halves away from zero. -/
def divNearInt (x : Int) (d : Nat) : Int :=
  if 0 ≤ x then (divNear x.toNat d : Nat) else -((divNear (-x).toNat d : Nat) : Int)

/-- The positive ratio `a / b` (both positive), scaled so that `q` has 53 bits: the pair of `q` and its exponent. -/
def F64.scale (a b : Nat) : Nat × Int :=
  let k : Int := 52 - ((a.log2 : Int) - b.log2)
  let q (s : Int) : Nat := if 0 ≤ s then divRne (a * 2 ^ s.toNat) b else divRne a (b * 2 ^ (-s).toNat)
  let f (s : Int) : Nat := if 0 ≤ s then a * 2 ^ s.toNat / b else a / (b * 2 ^ (-s).toNat)
  let s := if f k < 2 ^ 52 then k + 1 else k
  let r := q s
  if r = 2 ^ 53 then (2 ^ 52, 1 - s) else (r, -s)

/-- The ratio `n / d` rounded to binary64; zero where `d` is zero. -/
def F64.ofRatio (n : Int) (d : Nat) : F64 :=
  if n = 0 ∨ d = 0 then {}
  else
    let (q, e) := F64.scale n.natAbs d
    { m := if n < 0 then -(q : Int) else q, e := e }

/-- An integer as a double. -/
def F64.ofInt (n : Int) : F64 := F64.ofRatio n 1

/-- The value as a ratio of integers. -/
def F64.ratio (x : F64) : Int × Nat :=
  if 0 ≤ x.e then (x.m * (2 ^ x.e.toNat : Nat), 1) else (x.m, 2 ^ (-x.e).toNat)

def F64.neg (x : F64) : F64 := { x with m := -x.m }

def F64.add (x y : F64) : F64 :=
  let (a, b) := x.ratio
  let (c, d) := y.ratio
  F64.ofRatio (a * d + c * b) (b * d)

def F64.sub (x y : F64) : F64 := x.add y.neg

def F64.mul (x y : F64) : F64 :=
  let (a, b) := x.ratio
  let (c, d) := y.ratio
  F64.ofRatio (a * c) (b * d)

/-- Quotient; zero where the divisor is zero (the callers supply a free value there). -/
def F64.div (x y : F64) : F64 :=
  let (a, b) := x.ratio
  let (c, d) := y.ratio
  F64.ofRatio (if c < 0 then -(a * d) else a * d) (b * c.natAbs)

def F64.lt (x y : F64) : Bool :=
  let (a, b) := x.ratio
  let (c, d) := y.ratio
  decide (a * d < c * b)

def F64.le (x y : F64) : Bool := !(y.lt x)

def F64.abs (x : F64) : F64 := { x with m := x.m.natAbs }

def F64.min (x y : F64) : F64 := if y.lt x then y else x
def F64.max (x y : F64) : F64 := if x.lt y then y else x

/-- `clamp(x, lo, hi)` of the listings. -/
def F64.clamp (x lo hi : F64) : F64 := (x.max lo).min hi

/-- `copysign(x, y)`: the size of `x` with the sign of `y`. -/
def F64.copysign (x y : F64) : F64 := if y.m < 0 then x.abs.neg else x.abs

/-- The nearest integer, halves away from zero. -/
def F64.round (x : F64) : Int := let (a, b) := x.ratio; divNearInt a b

/-- The greatest integer not above the value. -/
def F64.floor (x : F64) : Int := let (a, b) := x.ratio; a / (b : Int)

/-- `sqrt`, rounded to binary64; zero for a negative argument (the callers exclude it). -/
def F64.sqrt (x : F64) : F64 :=
  let (a, b) := x.ratio
  if a ≤ 0 then {}
  else
    let n := a.toNat
    let sh := 108 + 2 * b.log2
    let r := Nat.sqrt (n * 2 ^ sh / b)
    -- one sticky bit keeps the rounding right where the root is not exact
    let sticky := if r * r * b = n * 2 ^ sh then 0 else 1
    F64.ofRatio ((2 * r + sticky : Nat) : Int) (2 ^ (sh / 2 + 1))

/-- `x * 2 ^ k`, exactly. -/
def F64.scalb (x : F64) (k : Int) : F64 := if x.m = 0 then {} else { x with e := x.e + k }

end Sys2Proof.Machine
end

