-- ==== Sys2Proof/Machine/Regs.lean ====
section
/-! DEFINITION. The register map (R416, R417): every register of every page, its address, its fields with access type,
role, reset value and the values a write of them discards with reason RANGE. Written from the field tables of the
chapters; one row here is one row there. -/

namespace Sys2Proof.Machine

/-- Access types (R6). -/
inductive Acc where
  | rw | ro | wo | w1c | w1s | rwl
  deriving DecidableEq, Repr

/-- One field of a register: byte address of the register in BAR0 (of the first instance), lowest bit, width, access,
the role an RWL or limited field asks for, reset value, and the closed ranges of values that are discarded with reason
RANGE. -/
structure Fld where
  off : Nat
  lo : Nat
  wid : Nat
  acc : Acc := .rw
  role : Role := .operator
  reset : Nat := 0
  bad : List (Nat × Nat) := []
  deriving DecidableEq, Repr

/-- One register: byte address of its first instance, inner array length and stride, the consistable bits (R314),
whether it is held per requester (R14), and its fields. Reserved bits are the ones no field covers (R7). -/
structure Reg where
  off : Nat
  cnt : Nat := 1
  stride : Nat := 4
  cons : Nat := 0
  perReq : Bool := false
  fields : List Fld
  deriving DecidableEq, Repr

/-! ### GLB, page base 0x0 -/

def GLB.IRQ_RAW.ABORT_DONE : Fld := { off := 0x10, lo := 2, wid := 1, acc := .w1c }
def GLB.IRQ_RAW.RC_SKIP : Fld := { off := 0x10, lo := 1, wid := 1, acc := .w1c }
def GLB.IRQ_RAW.RC_DONE : Fld := { off := 0x10, lo := 0, wid := 1, acc := .w1c }
/-- `GLB.IRQ_RAW`, file 13 of the spec. -/
def GLB.IRQ_RAW : Reg := { off := 0x10, fields := [GLB.IRQ_RAW.ABORT_DONE, GLB.IRQ_RAW.RC_SKIP, GLB.IRQ_RAW.RC_DONE] }
def GLB.CHIPID.PART : Fld := { off := 0x40, lo := 16, wid := 16, acc := .ro, reset := 0x8256 }
def GLB.CHIPID.STEP : Fld := { off := 0x40, lo := 8, wid := 8, acc := .ro, reset := 0xA1 }
/-- `GLB.CHIPID`, file 13 of the spec. -/
def GLB.CHIPID : Reg := { off := 0x40, fields := [GLB.CHIPID.PART, GLB.CHIPID.STEP] }
def GLB.SERIAL_LO.V : Fld := { off := 0x44, lo := 0, wid := 32, acc := .ro }
/-- `GLB.SERIAL_LO`, file 13 of the spec. -/
def GLB.SERIAL_LO : Reg := { off := 0x44, fields := [GLB.SERIAL_LO.V] }
def GLB.SERIAL_HI.V : Fld := { off := 0x48, lo := 0, wid := 32, acc := .ro }
/-- `GLB.SERIAL_HI`, file 13 of the spec. -/
def GLB.SERIAL_HI : Reg := { off := 0x48, fields := [GLB.SERIAL_HI.V] }
def GLB.ROLLCALL.GO : Fld := { off := 0x50, lo := 31, wid := 1, acc := .wo }
def GLB.ROLLCALL.DEST : Fld := { off := 0x50, lo := 30, wid := 1 }
def GLB.ROLLCALL.OFS : Fld := { off := 0x50, lo := 6, wid := 10, reset := 0x3A0 }
/-- `GLB.ROLLCALL`, file 13 of the spec. -/
def GLB.ROLLCALL : Reg := { off := 0x50, fields := [GLB.ROLLCALL.GO, GLB.ROLLCALL.DEST, GLB.ROLLCALL.OFS] }
def GLB.RCAUTO.PERIOD : Fld := { off := 0x54, lo := 0, wid := 8 }
/-- `GLB.RCAUTO`, file 13 of the spec. -/
def GLB.RCAUTO : Reg := { off := 0x54, fields := [GLB.RCAUTO.PERIOD] }
def GLB.RCSTS.BUSY : Fld := { off := 0x58, lo := 31, wid := 1, acc := .ro }
/-- `GLB.RCSTS`, file 13 of the spec. -/
def GLB.RCSTS : Reg := { off := 0x58, fields := [GLB.RCSTS.BUSY] }
def GLB.RCGEN.V : Fld := { off := 0x5C, lo := 0, wid := 32, acc := .ro }
/-- `GLB.RCGEN`, file 13 of the spec. -/
def GLB.RCGEN : Reg := { off := 0x5C, fields := [GLB.RCGEN.V] }
def GLB.BOOTNONCE.V : Fld := { off := 0x60, lo := 0, wid := 32, acc := .ro }
/-- `GLB.BOOTNONCE`, file 13 of the spec. -/
def GLB.BOOTNONCE : Reg := { off := 0x60, fields := [GLB.BOOTNONCE.V] }
def GLB.BLK_ID.CODE : Fld := { off := 0x0, lo := 24, wid := 8, acc := .ro }
def GLB.BLK_ID.INST : Fld := { off := 0x0, lo := 16, wid := 8, acc := .ro }
def GLB.BLK_ID.LAYOUT : Fld := { off := 0x0, lo := 8, wid := 8, acc := .ro, reset := 0x1 }
/-- `GLB.BLK_ID`, file 12 of the spec. -/
def GLB.BLK_ID : Reg := { off := 0x0, fields := [GLB.BLK_ID.CODE, GLB.BLK_ID.INST, GLB.BLK_ID.LAYOUT] }
def GLB.BLK_VER.MAJOR : Fld := { off := 0x4, lo := 24, wid := 8, acc := .ro, reset := 0x1 }
def GLB.BLK_VER.MINOR : Fld := { off := 0x4, lo := 16, wid := 8, acc := .ro }
def GLB.BLK_VER.STEP : Fld := { off := 0x4, lo := 8, wid := 8, acc := .ro, reset := 0xA1 }
/-- `GLB.BLK_VER`, file 12 of the spec. -/
def GLB.BLK_VER : Reg := { off := 0x4, fields := [GLB.BLK_VER.MAJOR, GLB.BLK_VER.MINOR, GLB.BLK_VER.STEP] }
def GLB.ERR_CAP.VALID : Fld := { off := 0x1C, lo := 31, wid := 1, acc := .w1c }
def GLB.ERR_CAP.REASON : Fld := { off := 0x1C, lo := 27, wid := 4, acc := .ro }
def GLB.ERR_CAP.REQ : Fld := { off := 0x1C, lo := 19, wid := 8, acc := .ro }
def GLB.ERR_CAP.OFS : Fld := { off := 0x1C, lo := 0, wid := 12, acc := .ro }
/-- `GLB.ERR_CAP`, file 12 of the spec. -/
def GLB.ERR_CAP : Reg := { off := 0x1C, fields := [GLB.ERR_CAP.VALID, GLB.ERR_CAP.REASON, GLB.ERR_CAP.REQ, GLB.ERR_CAP.OFS] }
def GLB.ABORT.GO : Fld := { off := 0x20, lo := 0, wid := 1, acc := .wo }
/-- `GLB.ABORT`, file 12 of the spec. -/
def GLB.ABORT : Reg := { off := 0x20, fields := [GLB.ABORT.GO] }
def GLB.ABORT_STS.COUNT : Fld := { off := 0x24, lo := 16, wid := 16, acc := .ro }
def GLB.ABORT_STS.BUSY : Fld := { off := 0x24, lo := 1, wid := 1, acc := .ro }
def GLB.ABORT_STS.DONE : Fld := { off := 0x24, lo := 0, wid := 1, acc := .w1c }
/-- `GLB.ABORT_STS`, file 12 of the spec. -/
def GLB.ABORT_STS : Reg := { off := 0x24, fields := [GLB.ABORT_STS.COUNT, GLB.ABORT_STS.BUSY, GLB.ABORT_STS.DONE] }
def GLB.LOCK.SEAL : Fld := { off := 0x28, lo := 31, wid := 1, acc := .w1s, role := .installer }
def GLB.LOCK.MYROLE : Fld := { off := 0x28, lo := 16, wid := 2, acc := .ro }
def GLB.LOCK.MINROLE : Fld := { off := 0x28, lo := 0, wid := 2, acc := .ro }
/-- `GLB.LOCK`, file 12 of the spec. -/
def GLB.LOCK : Reg := { off := 0x28, fields := [GLB.LOCK.SEAL, GLB.LOCK.MYROLE, GLB.LOCK.MINROLE] }
def GLB.IRQ_EN.V : Fld := { off := 0x14, lo := 0, wid := 32 }
/-- `GLB.IRQ_EN`, file 12 of the spec. -/
def GLB.IRQ_EN : Reg := { off := 0x14, fields := [GLB.IRQ_EN.V] }
def GLB.IRQ_SET.V : Fld := { off := 0x18, lo := 0, wid := 32, acc := .w1s, role := .maker }
/-- `GLB.IRQ_SET`, file 12 of the spec. -/
def GLB.IRQ_SET : Reg := { off := 0x18, fields := [GLB.IRQ_SET.V] }
def GLB.CNT_EVT.HI : Fld := { off := 0x2C, lo := 16, wid := 16, acc := .ro }
def GLB.CNT_EVT.LO : Fld := { off := 0x2C, lo := 0, wid := 16, acc := .ro }
/-- `GLB.CNT_EVT`, file 12 of the spec. -/
def GLB.CNT_EVT : Reg := { off := 0x2C, fields := [GLB.CNT_EVT.HI, GLB.CNT_EVT.LO] }
/-- Every register of the GLB page. -/
def GLB.regs : List Reg :=
  [GLB.IRQ_RAW, GLB.CHIPID, GLB.SERIAL_LO, GLB.SERIAL_HI, GLB.ROLLCALL, GLB.RCAUTO, GLB.RCSTS, GLB.RCGEN, GLB.BOOTNONCE, GLB.BLK_ID, GLB.BLK_VER, GLB.ERR_CAP, GLB.ABORT, GLB.ABORT_STS, GLB.LOCK, GLB.IRQ_EN, GLB.IRQ_SET, GLB.CNT_EVT]

/-! ### PWR, page base 0x1000 -/

def PWR.STS.XTAL32_OK : Fld := { off := 0x100C, lo := 11, wid := 1, acc := .ro }
def PWR.STS.HALT_REQ : Fld := { off := 0x100C, lo := 10, wid := 1, acc := .ro }
def PWR.STS.CORE_OK : Fld := { off := 0x100C, lo := 9, wid := 1, acc := .ro, reset := 0x1 }
def PWR.STS.PREV : Fld := { off := 0x100C, lo := 4, wid := 4, acc := .ro }
def PWR.STS.MODE : Fld := { off := 0x100C, lo := 0, wid := 4, acc := .ro, reset := 0x3 }
/-- `PWR.STS`, file 16 of the spec. -/
def PWR.STS : Reg := { off := 0x100C, fields := [PWR.STS.XTAL32_OK, PWR.STS.HALT_REQ, PWR.STS.CORE_OK, PWR.STS.PREV, PWR.STS.MODE] }
def PWR.IRQ_RAW.XTAL32_FAIL : Fld := { off := 0x1010, lo := 3, wid := 1, acc := .w1c }
def PWR.IRQ_RAW.WDOG : Fld := { off := 0x1010, lo := 2, wid := 1, acc := .w1c }
def PWR.IRQ_RAW.SAFE : Fld := { off := 0x1010, lo := 1, wid := 1, acc := .w1c }
def PWR.IRQ_RAW.MODE_CHG : Fld := { off := 0x1010, lo := 0, wid := 1, acc := .w1c }
/-- `PWR.IRQ_RAW`, file 16 of the spec. -/
def PWR.IRQ_RAW : Reg := { off := 0x1010, fields := [PWR.IRQ_RAW.XTAL32_FAIL, PWR.IRQ_RAW.WDOG, PWR.IRQ_RAW.SAFE, PWR.IRQ_RAW.MODE_CHG] }
def PWR.CMD.OP : Fld := { off := 0x1040, lo := 0, wid := 4, acc := .wo }
/-- `PWR.CMD`, file 16 of the spec. -/
def PWR.CMD : Reg := { off := 0x1040, fields := [PWR.CMD.OP] }
def PWR.CMDSTS.BUSY : Fld := { off := 0x1044, lo := 31, wid := 1, acc := .ro }
def PWR.CMDSTS.RESULT : Fld := { off := 0x1044, lo := 0, wid := 4, acc := .ro }
/-- `PWR.CMDSTS`, file 16 of the spec. -/
def PWR.CMDSTS : Reg := { off := 0x1044, fields := [PWR.CMDSTS.BUSY, PWR.CMDSTS.RESULT] }
def PWR.WDOG.EN : Fld := { off := 0x1048, lo := 31, wid := 1, acc := .rwl, role := .installer }
def PWR.WDOG.ACTION : Fld := { off := 0x1048, lo := 30, wid := 1, acc := .rwl, role := .installer }
def PWR.WDOG.PERIOD : Fld := { off := 0x1048, lo := 0, wid := 16, acc := .rwl, role := .installer, reset := 0x64, bad := [(0, 9)] }
/-- `PWR.WDOG`, file 16 of the spec. -/
def PWR.WDOG : Reg := { off := 0x1048, fields := [PWR.WDOG.EN, PWR.WDOG.ACTION, PWR.WDOG.PERIOD] }
def PWR.KICK.V : Fld := { off := 0x104C, lo := 0, wid := 32, acc := .wo }
/-- `PWR.KICK`, file 16 of the spec. -/
def PWR.KICK : Reg := { off := 0x104C, fields := [PWR.KICK.V] }
def PWR.SAFECAUSE.CAUSE : Fld := { off := 0x1050, lo := 0, wid := 4, acc := .ro }
def PWR.SAFECAUSE.FAULT : Fld := { off := 0x1050, lo := 8, wid := 8, acc := .ro }
/-- `PWR.SAFECAUSE`, file 16 of the spec. -/
def PWR.SAFECAUSE : Reg := { off := 0x1050, fields := [PWR.SAFECAUSE.CAUSE, PWR.SAFECAUSE.FAULT] }
def PWR.KS_WAKECFG.WEN : Fld := { off := 0x10E0, lo := 3, wid := 1 }
def PWR.KS_WAKECFG.AEN : Fld := { off := 0x10E0, lo := 2, wid := 1 }
def PWR.KS_WAKECFG.WPOL : Fld := { off := 0x10E0, lo := 1, wid := 1 }
def PWR.KS_WAKECFG.NOAUTO : Fld := { off := 0x10E0, lo := 0, wid := 1 }
/-- `PWR.KS_WAKECFG`, file 16 of the spec. -/
def PWR.KS_WAKECFG : Reg := { off := 0x10E0, fields := [PWR.KS_WAKECFG.WEN, PWR.KS_WAKECFG.AEN, PWR.KS_WAKECFG.WPOL, PWR.KS_WAKECFG.NOAUTO] }
def PWR.KS_ALARM_LO.V : Fld := { off := 0x10E4, lo := 0, wid := 32 }
/-- `PWR.KS_ALARM_LO`, file 16 of the spec. -/
def PWR.KS_ALARM_LO : Reg := { off := 0x10E4, fields := [PWR.KS_ALARM_LO.V] }
def PWR.KS_ALARM_HI.V : Fld := { off := 0x10E8, lo := 0, wid := 16 }
/-- `PWR.KS_ALARM_HI`, file 16 of the spec. -/
def PWR.KS_ALARM_HI : Reg := { off := 0x10E8, fields := [PWR.KS_ALARM_HI.V] }
def PWR.KS_CAUSE.LASTMODE : Fld := { off := 0x10EC, lo := 4, wid := 4, acc := .ro }
def PWR.KS_CAUSE.CAUSE : Fld := { off := 0x10EC, lo := 0, wid := 4, acc := .ro }
/-- `PWR.KS_CAUSE`, file 16 of the spec. -/
def PWR.KS_CAUSE : Reg := { off := 0x10EC, fields := [PWR.KS_CAUSE.LASTMODE, PWR.KS_CAUSE.CAUSE] }
def PWR.KS_SCRATCH.V : Fld := { off := 0x1100, lo := 0, wid := 32 }
/-- `PWR.KS_SCRATCH`, file 16 of the spec. -/
def PWR.KS_SCRATCH : Reg := { off := 0x1100, cnt := 8, stride := 4, fields := [PWR.KS_SCRATCH.V] }
def PWR.FLTACT.PEER : Fld := { off := 0x1054, lo := 10, wid := 2, acc := .rwl, role := .installer, bad := [(3, 3)] }
def PWR.FLTACT.HOLD : Fld := { off := 0x1054, lo := 8, wid := 2, acc := .rwl, role := .installer, bad := [(3, 3)] }
def PWR.FLTACT.OSCHK : Fld := { off := 0x1054, lo := 6, wid := 2, acc := .rwl, role := .installer, bad := [(3, 3)] }
def PWR.FLTACT.BANK : Fld := { off := 0x1054, lo := 4, wid := 2, acc := .rwl, role := .installer, reset := 0x1, bad := [(3, 3)] }
def PWR.FLTACT.ENG : Fld := { off := 0x1054, lo := 2, wid := 2, acc := .rwl, role := .installer, reset := 0x1, bad := [(3, 3)] }
def PWR.FLTACT.UNCORR : Fld := { off := 0x1054, lo := 0, wid := 2, acc := .rwl, role := .installer, reset := 0x1, bad := [(3, 3)] }
/-- `PWR.FLTACT`, file 17 of the spec. -/
def PWR.FLTACT : Reg := { off := 0x1054, fields := [PWR.FLTACT.PEER, PWR.FLTACT.HOLD, PWR.FLTACT.OSCHK, PWR.FLTACT.BANK, PWR.FLTACT.ENG, PWR.FLTACT.UNCORR] }
def PWR.FLTSTS.FAULT : Fld := { off := 0x1058, lo := 1, wid := 12, acc := .w1c }
/-- `PWR.FLTSTS`, file 17 of the spec. -/
def PWR.FLTSTS : Reg := { off := 0x1058, fields := [PWR.FLTSTS.FAULT] }
def PWR.KS_FAULT.LAST : Fld := { off := 0x10F0, lo := 16, wid := 8, acc := .ro }
def PWR.KS_FAULT.COUNT : Fld := { off := 0x10F0, lo := 0, wid := 16, acc := .ro }
/-- `PWR.KS_FAULT`, file 17 of the spec. -/
def PWR.KS_FAULT : Reg := { off := 0x10F0, fields := [PWR.KS_FAULT.LAST, PWR.KS_FAULT.COUNT] }
def PWR.BLK_ID.CODE : Fld := { off := 0x1000, lo := 24, wid := 8, acc := .ro }
def PWR.BLK_ID.INST : Fld := { off := 0x1000, lo := 16, wid := 8, acc := .ro }
def PWR.BLK_ID.LAYOUT : Fld := { off := 0x1000, lo := 8, wid := 8, acc := .ro, reset := 0x1 }
/-- `PWR.BLK_ID`, file 12 of the spec. -/
def PWR.BLK_ID : Reg := { off := 0x1000, fields := [PWR.BLK_ID.CODE, PWR.BLK_ID.INST, PWR.BLK_ID.LAYOUT] }
def PWR.BLK_VER.MAJOR : Fld := { off := 0x1004, lo := 24, wid := 8, acc := .ro, reset := 0x1 }
def PWR.BLK_VER.MINOR : Fld := { off := 0x1004, lo := 16, wid := 8, acc := .ro }
def PWR.BLK_VER.STEP : Fld := { off := 0x1004, lo := 8, wid := 8, acc := .ro, reset := 0xA1 }
/-- `PWR.BLK_VER`, file 12 of the spec. -/
def PWR.BLK_VER : Reg := { off := 0x1004, fields := [PWR.BLK_VER.MAJOR, PWR.BLK_VER.MINOR, PWR.BLK_VER.STEP] }
def PWR.ERR_CAP.VALID : Fld := { off := 0x101C, lo := 31, wid := 1, acc := .w1c }
def PWR.ERR_CAP.REASON : Fld := { off := 0x101C, lo := 27, wid := 4, acc := .ro }
def PWR.ERR_CAP.REQ : Fld := { off := 0x101C, lo := 19, wid := 8, acc := .ro }
def PWR.ERR_CAP.OFS : Fld := { off := 0x101C, lo := 0, wid := 12, acc := .ro }
/-- `PWR.ERR_CAP`, file 12 of the spec. -/
def PWR.ERR_CAP : Reg := { off := 0x101C, fields := [PWR.ERR_CAP.VALID, PWR.ERR_CAP.REASON, PWR.ERR_CAP.REQ, PWR.ERR_CAP.OFS] }
def PWR.ABORT.GO : Fld := { off := 0x1020, lo := 0, wid := 1, acc := .wo }
/-- `PWR.ABORT`, file 12 of the spec. -/
def PWR.ABORT : Reg := { off := 0x1020, fields := [PWR.ABORT.GO] }
def PWR.ABORT_STS.COUNT : Fld := { off := 0x1024, lo := 16, wid := 16, acc := .ro }
def PWR.ABORT_STS.BUSY : Fld := { off := 0x1024, lo := 1, wid := 1, acc := .ro }
def PWR.ABORT_STS.DONE : Fld := { off := 0x1024, lo := 0, wid := 1, acc := .w1c }
/-- `PWR.ABORT_STS`, file 12 of the spec. -/
def PWR.ABORT_STS : Reg := { off := 0x1024, fields := [PWR.ABORT_STS.COUNT, PWR.ABORT_STS.BUSY, PWR.ABORT_STS.DONE] }
def PWR.LOCK.SEAL : Fld := { off := 0x1028, lo := 31, wid := 1, acc := .w1s, role := .installer }
def PWR.LOCK.MYROLE : Fld := { off := 0x1028, lo := 16, wid := 2, acc := .ro }
def PWR.LOCK.MINROLE : Fld := { off := 0x1028, lo := 0, wid := 2, acc := .ro }
/-- `PWR.LOCK`, file 12 of the spec. -/
def PWR.LOCK : Reg := { off := 0x1028, fields := [PWR.LOCK.SEAL, PWR.LOCK.MYROLE, PWR.LOCK.MINROLE] }
def PWR.IRQ_EN.V : Fld := { off := 0x1014, lo := 0, wid := 32 }
/-- `PWR.IRQ_EN`, file 12 of the spec. -/
def PWR.IRQ_EN : Reg := { off := 0x1014, fields := [PWR.IRQ_EN.V] }
def PWR.IRQ_SET.V : Fld := { off := 0x1018, lo := 0, wid := 32, acc := .w1s, role := .maker }
/-- `PWR.IRQ_SET`, file 12 of the spec. -/
def PWR.IRQ_SET : Reg := { off := 0x1018, fields := [PWR.IRQ_SET.V] }
def PWR.CNT_EVT.HI : Fld := { off := 0x102C, lo := 16, wid := 16, acc := .ro }
def PWR.CNT_EVT.LO : Fld := { off := 0x102C, lo := 0, wid := 16, acc := .ro }
/-- `PWR.CNT_EVT`, file 12 of the spec. -/
def PWR.CNT_EVT : Reg := { off := 0x102C, fields := [PWR.CNT_EVT.HI, PWR.CNT_EVT.LO] }
/-- Every register of the PWR page. -/
def PWR.regs : List Reg :=
  [PWR.STS, PWR.IRQ_RAW, PWR.CMD, PWR.CMDSTS, PWR.WDOG, PWR.KICK, PWR.SAFECAUSE, PWR.KS_WAKECFG, PWR.KS_ALARM_LO, PWR.KS_ALARM_HI, PWR.KS_CAUSE, PWR.KS_SCRATCH, PWR.FLTACT, PWR.FLTSTS, PWR.KS_FAULT, PWR.BLK_ID, PWR.BLK_VER, PWR.ERR_CAP, PWR.ABORT, PWR.ABORT_STS, PWR.LOCK, PWR.IRQ_EN, PWR.IRQ_SET, PWR.CNT_EVT]

/-! ### SEC, page base 0x2000 -/

def SEC.IRQ_RAW.OTP_DONE : Fld := { off := 0x2010, lo := 5, wid := 1, acc := .w1c }
def SEC.IRQ_RAW.LOG_OVW : Fld := { off := 0x2010, lo := 4, wid := 1, acc := .w1c }
def SEC.IRQ_RAW.SESS_FAIL : Fld := { off := 0x2010, lo := 3, wid := 1, acc := .w1c }
def SEC.IRQ_RAW.SESS_OPEN : Fld := { off := 0x2010, lo := 2, wid := 1, acc := .w1c }
def SEC.IRQ_RAW.LOAD_FAIL : Fld := { off := 0x2010, lo := 1, wid := 1, acc := .w1c }
def SEC.IRQ_RAW.LOAD_DONE : Fld := { off := 0x2010, lo := 0, wid := 1, acc := .w1c }
/-- `SEC.IRQ_RAW`, file 14 of the spec. -/
def SEC.IRQ_RAW : Reg := { off := 0x2010, fields := [SEC.IRQ_RAW.OTP_DONE, SEC.IRQ_RAW.LOG_OVW, SEC.IRQ_RAW.SESS_FAIL, SEC.IRQ_RAW.SESS_OPEN, SEC.IRQ_RAW.LOAD_FAIL, SEC.IRQ_RAW.LOAD_DONE] }
def SEC.LOADSTS.GATED : Fld := { off := 0x2040, lo := 31, wid := 1, acc := .ro }
def SEC.LOADSTS.OVERRIDDEN : Fld := { off := 0x2040, lo := 30, wid := 1, acc := .ro }
def SEC.LOADSTS.SOURCE : Fld := { off := 0x2040, lo := 28, wid := 2, acc := .ro }
def SEC.LOADSTS.SECT : Fld := { off := 0x2040, lo := 16, wid := 8, acc := .ro, reset := 0xFF }
def SEC.LOADSTS.PRIOR : Fld := { off := 0x2040, lo := 8, wid := 8, acc := .ro }
def SEC.LOADSTS.REASON : Fld := { off := 0x2040, lo := 0, wid := 8, acc := .ro }
/-- `SEC.LOADSTS`, file 14 of the spec. -/
def SEC.LOADSTS : Reg := { off := 0x2040, fields := [SEC.LOADSTS.GATED, SEC.LOADSTS.OVERRIDDEN, SEC.LOADSTS.SOURCE, SEC.LOADSTS.SECT, SEC.LOADSTS.PRIOR, SEC.LOADSTS.REASON] }
def SEC.BOOTVER.BOOT_ABI : Fld := { off := 0x2044, lo := 24, wid := 8, acc := .ro, reset := 0x3 }
def SEC.BOOTVER.MC_ABI : Fld := { off := 0x2044, lo := 16, wid := 8, acc := .ro, reset := 0x2 }
def SEC.BOOTVER.SHN_ABI : Fld := { off := 0x2044, lo := 8, wid := 8, acc := .ro, reset := 0x1 }
def SEC.BOOTVER.FLT_ABI : Fld := { off := 0x2044, lo := 0, wid := 8, acc := .ro, reset := 0x1 }
/-- `SEC.BOOTVER`, file 14 of the spec. -/
def SEC.BOOTVER : Reg := { off := 0x2044, fields := [SEC.BOOTVER.BOOT_ABI, SEC.BOOTVER.MC_ABI, SEC.BOOTVER.SHN_ABI, SEC.BOOTVER.FLT_ABI] }
def SEC.IMGINFO.SVN : Fld := { off := 0x2048, lo := 24, wid := 8, acc := .ro }
def SEC.IMGINFO.ABI_REQ : Fld := { off := 0x2048, lo := 16, wid := 8, acc := .ro }
def SEC.IMGINFO.SECTIONS : Fld := { off := 0x2048, lo := 8, wid := 8, acc := .ro }
def SEC.IMGINFO.SLOT : Fld := { off := 0x2048, lo := 0, wid := 2, acc := .ro }
/-- `SEC.IMGINFO`, file 14 of the spec. -/
def SEC.IMGINFO : Reg := { off := 0x2048, fields := [SEC.IMGINFO.SVN, SEC.IMGINFO.ABI_REQ, SEC.IMGINFO.SECTIONS, SEC.IMGINFO.SLOT] }
def SEC.SHNVER.V : Fld := { off := 0x204C, lo := 0, wid := 32, acc := .ro }
/-- `SEC.SHNVER`, file 14 of the spec. -/
def SEC.SHNVER : Reg := { off := 0x204C, fields := [SEC.SHNVER.V] }
def SEC.FLTVER.V : Fld := { off := 0x2050, lo := 0, wid := 32, acc := .ro }
/-- `SEC.FLTVER`, file 14 of the spec. -/
def SEC.FLTVER : Reg := { off := 0x2050, fields := [SEC.FLTVER.V] }
def SEC.PUSHLEN.V : Fld := { off := 0x2054, lo := 0, wid := 21 }
/-- `SEC.PUSHLEN`, file 14 of the spec. -/
def SEC.PUSHLEN : Reg := { off := 0x2054, fields := [SEC.PUSHLEN.V] }
def SEC.CMD.OP : Fld := { off := 0x2058, lo := 28, wid := 4, acc := .wo }
/-- `SEC.CMD`, file 14 of the spec. -/
def SEC.CMD : Reg := { off := 0x2058, fields := [SEC.CMD.OP] }
def SEC.NONCE_LO.V : Fld := { off := 0x205C, lo := 0, wid := 32, acc := .ro }
/-- `SEC.NONCE_LO`, file 14 of the spec. -/
def SEC.NONCE_LO : Reg := { off := 0x205C, fields := [SEC.NONCE_LO.V] }
def SEC.NONCE_HI.V : Fld := { off := 0x2060, lo := 0, wid := 32, acc := .ro }
/-- `SEC.NONCE_HI`, file 14 of the spec. -/
def SEC.NONCE_HI : Reg := { off := 0x2060, perReq := true, fields := [SEC.NONCE_HI.V] }
def SEC.SESS.OP : Fld := { off := 0x2064, lo := 30, wid := 2, acc := .wo }
def SEC.SESS.BUSY : Fld := { off := 0x2064, lo := 29, wid := 1, acc := .ro }
def SEC.SESS.ROLE : Fld := { off := 0x2064, lo := 26, wid := 2, acc := .ro, reset := 0x1 }
def SEC.SESS.RESULT : Fld := { off := 0x2064, lo := 20, wid := 4, acc := .ro }
def SEC.SESS.LIFE : Fld := { off := 0x2064, lo := 0, wid := 11, acc := .ro }
/-- `SEC.SESS`, file 14 of the spec. -/
def SEC.SESS : Reg := { off := 0x2064, perReq := true, fields := [SEC.SESS.OP, SEC.SESS.BUSY, SEC.SESS.ROLE, SEC.SESS.RESULT, SEC.SESS.LIFE] }
def SEC.ROLES.JTAG : Fld := { off := 0x2068, lo := 4, wid := 2, acc := .ro, reset := 0x1 }
def SEC.ROLES.SPI : Fld := { off := 0x2068, lo := 2, wid := 2, acc := .ro, reset := 0x1 }
def SEC.ROLES.PCIE : Fld := { off := 0x2068, lo := 0, wid := 2, acc := .ro, reset := 0x1 }
/-- `SEC.ROLES`, file 14 of the spec. -/
def SEC.ROLES : Reg := { off := 0x2068, fields := [SEC.ROLES.JTAG, SEC.ROLES.SPI, SEC.ROLES.PCIE] }
def SEC.OTPSTS.PROG : Fld := { off := 0x206C, lo := 29, wid := 3, acc := .ro }
def SEC.OTPSTS.REVOKED : Fld := { off := 0x206C, lo := 26, wid := 3, acc := .ro }
def SEC.OTPSTS.USAGE : Fld := { off := 0x206C, lo := 17, wid := 9, acc := .ro }
def SEC.OTPSTS.ARB : Fld := { off := 0x206C, lo := 10, wid := 6, acc := .ro }
def SEC.OTPSTS.REFSEL : Fld := { off := 0x206C, lo := 8, wid := 2, acc := .ro }
def SEC.OTPSTS.BUSY : Fld := { off := 0x206C, lo := 1, wid := 1, acc := .ro }
def SEC.OTPSTS.OTP_ERR : Fld := { off := 0x206C, lo := 0, wid := 1, acc := .ro }
/-- `SEC.OTPSTS`, file 14 of the spec. -/
def SEC.OTPSTS : Reg := { off := 0x206C, fields := [SEC.OTPSTS.PROG, SEC.OTPSTS.REVOKED, SEC.OTPSTS.USAGE, SEC.OTPSTS.ARB, SEC.OTPSTS.REFSEL, SEC.OTPSTS.BUSY, SEC.OTPSTS.OTP_ERR] }
def SEC.OTPARG.V : Fld := { off := 0x2070, lo := 0, wid := 7 }
/-- `SEC.OTPARG`, file 14 of the spec. -/
def SEC.OTPARG : Reg := { off := 0x2070, fields := [SEC.OTPARG.V] }
def SEC.LOGPOS.V : Fld := { off := 0x2074, lo := 0, wid := 32, acc := .ro }
/-- `SEC.LOGPOS`, file 14 of the spec. -/
def SEC.LOGPOS : Reg := { off := 0x2074, fields := [SEC.LOGPOS.V] }
def SEC.LOGLOST.V : Fld := { off := 0x2078, lo := 0, wid := 32, acc := .ro }
/-- `SEC.LOGLOST`, file 14 of the spec. -/
def SEC.LOGLOST : Reg := { off := 0x2078, fields := [SEC.LOGLOST.V] }
def SEC.LOGIDX.V : Fld := { off := 0x207C, lo := 0, wid := 10 }
/-- `SEC.LOGIDX`, file 14 of the spec. -/
def SEC.LOGIDX : Reg := { off := 0x207C, fields := [SEC.LOGIDX.V] }
def SEC.LOGDATA.V : Fld := { off := 0x2080, lo := 0, wid := 32, acc := .ro }
/-- `SEC.LOGDATA`, file 14 of the spec. -/
def SEC.LOGDATA : Reg := { off := 0x2080, cnt := 8, stride := 4, fields := [SEC.LOGDATA.V] }
def SEC.TOKEN.V : Fld := { off := 0x2100, lo := 0, wid := 32, acc := .wo }
/-- `SEC.TOKEN`, file 14 of the spec. -/
def SEC.TOKEN : Reg := { off := 0x2100, cnt := 40, stride := 4, perReq := true, fields := [SEC.TOKEN.V] }
def SEC.BLK_ID.CODE : Fld := { off := 0x2000, lo := 24, wid := 8, acc := .ro }
def SEC.BLK_ID.INST : Fld := { off := 0x2000, lo := 16, wid := 8, acc := .ro }
def SEC.BLK_ID.LAYOUT : Fld := { off := 0x2000, lo := 8, wid := 8, acc := .ro, reset := 0x1 }
/-- `SEC.BLK_ID`, file 12 of the spec. -/
def SEC.BLK_ID : Reg := { off := 0x2000, fields := [SEC.BLK_ID.CODE, SEC.BLK_ID.INST, SEC.BLK_ID.LAYOUT] }
def SEC.BLK_VER.MAJOR : Fld := { off := 0x2004, lo := 24, wid := 8, acc := .ro, reset := 0x1 }
def SEC.BLK_VER.MINOR : Fld := { off := 0x2004, lo := 16, wid := 8, acc := .ro }
def SEC.BLK_VER.STEP : Fld := { off := 0x2004, lo := 8, wid := 8, acc := .ro, reset := 0xA1 }
/-- `SEC.BLK_VER`, file 12 of the spec. -/
def SEC.BLK_VER : Reg := { off := 0x2004, fields := [SEC.BLK_VER.MAJOR, SEC.BLK_VER.MINOR, SEC.BLK_VER.STEP] }
def SEC.ERR_CAP.VALID : Fld := { off := 0x201C, lo := 31, wid := 1, acc := .w1c }
def SEC.ERR_CAP.REASON : Fld := { off := 0x201C, lo := 27, wid := 4, acc := .ro }
def SEC.ERR_CAP.REQ : Fld := { off := 0x201C, lo := 19, wid := 8, acc := .ro }
def SEC.ERR_CAP.OFS : Fld := { off := 0x201C, lo := 0, wid := 12, acc := .ro }
/-- `SEC.ERR_CAP`, file 12 of the spec. -/
def SEC.ERR_CAP : Reg := { off := 0x201C, fields := [SEC.ERR_CAP.VALID, SEC.ERR_CAP.REASON, SEC.ERR_CAP.REQ, SEC.ERR_CAP.OFS] }
def SEC.ABORT.GO : Fld := { off := 0x2020, lo := 0, wid := 1, acc := .wo }
/-- `SEC.ABORT`, file 12 of the spec. -/
def SEC.ABORT : Reg := { off := 0x2020, fields := [SEC.ABORT.GO] }
def SEC.ABORT_STS.COUNT : Fld := { off := 0x2024, lo := 16, wid := 16, acc := .ro }
def SEC.ABORT_STS.BUSY : Fld := { off := 0x2024, lo := 1, wid := 1, acc := .ro }
def SEC.ABORT_STS.DONE : Fld := { off := 0x2024, lo := 0, wid := 1, acc := .w1c }
/-- `SEC.ABORT_STS`, file 12 of the spec. -/
def SEC.ABORT_STS : Reg := { off := 0x2024, fields := [SEC.ABORT_STS.COUNT, SEC.ABORT_STS.BUSY, SEC.ABORT_STS.DONE] }
def SEC.LOCK.SEAL : Fld := { off := 0x2028, lo := 31, wid := 1, acc := .w1s, role := .installer }
def SEC.LOCK.MYROLE : Fld := { off := 0x2028, lo := 16, wid := 2, acc := .ro }
def SEC.LOCK.MINROLE : Fld := { off := 0x2028, lo := 0, wid := 2, acc := .ro }
/-- `SEC.LOCK`, file 12 of the spec. -/
def SEC.LOCK : Reg := { off := 0x2028, fields := [SEC.LOCK.SEAL, SEC.LOCK.MYROLE, SEC.LOCK.MINROLE] }
def SEC.IRQ_EN.V : Fld := { off := 0x2014, lo := 0, wid := 32 }
/-- `SEC.IRQ_EN`, file 12 of the spec. -/
def SEC.IRQ_EN : Reg := { off := 0x2014, fields := [SEC.IRQ_EN.V] }
def SEC.IRQ_SET.V : Fld := { off := 0x2018, lo := 0, wid := 32, acc := .w1s, role := .maker }
/-- `SEC.IRQ_SET`, file 12 of the spec. -/
def SEC.IRQ_SET : Reg := { off := 0x2018, fields := [SEC.IRQ_SET.V] }
def SEC.CNT_EVT.HI : Fld := { off := 0x202C, lo := 16, wid := 16, acc := .ro }
def SEC.CNT_EVT.LO : Fld := { off := 0x202C, lo := 0, wid := 16, acc := .ro }
/-- `SEC.CNT_EVT`, file 12 of the spec. -/
def SEC.CNT_EVT : Reg := { off := 0x202C, fields := [SEC.CNT_EVT.HI, SEC.CNT_EVT.LO] }
/-- Every register of the SEC page. -/
def SEC.regs : List Reg :=
  [SEC.IRQ_RAW, SEC.LOADSTS, SEC.BOOTVER, SEC.IMGINFO, SEC.SHNVER, SEC.FLTVER, SEC.PUSHLEN, SEC.CMD, SEC.NONCE_LO, SEC.NONCE_HI, SEC.SESS, SEC.ROLES, SEC.OTPSTS, SEC.OTPARG, SEC.LOGPOS, SEC.LOGLOST, SEC.LOGIDX, SEC.LOGDATA, SEC.TOKEN, SEC.BLK_ID, SEC.BLK_VER, SEC.ERR_CAP, SEC.ABORT, SEC.ABORT_STS, SEC.LOCK, SEC.IRQ_EN, SEC.IRQ_SET, SEC.CNT_EVT]

/-! ### HST, page base 0x3000 -/

def HST.IRQ_RAW.SPI_ERR : Fld := { off := 0x3010, lo := 10, wid := 1, acc := .w1c }
def HST.IRQ_RAW.DB_ERR : Fld := { off := 0x3010, lo := 9, wid := 1, acc := .w1c }
def HST.IRQ_RAW.LINKDOWN : Fld := { off := 0x3010, lo := 8, wid := 1, acc := .w1c }
def HST.IRQ_RAW.REP : Fld := { off := 0x3010, lo := 0, wid := 8, acc := .w1c }
/-- `HST.IRQ_RAW`, file 12 of the spec. -/
def HST.IRQ_RAW : Reg := { off := 0x3010, fields := [HST.IRQ_RAW.SPI_ERR, HST.IRQ_RAW.DB_ERR, HST.IRQ_RAW.LINKDOWN, HST.IRQ_RAW.REP] }
def HST.LINK.LINKSEL : Fld := { off := 0x3040, lo := 9, wid := 1, acc := .ro }
def HST.LINK.UP : Fld := { off := 0x3040, lo := 8, wid := 1, acc := .ro }
def HST.LINK.WIDTH : Fld := { off := 0x3040, lo := 4, wid := 4, acc := .ro }
def HST.LINK.SPEED : Fld := { off := 0x3040, lo := 0, wid := 4, acc := .ro }
/-- `HST.LINK`, file 12 of the spec. -/
def HST.LINK : Reg := { off := 0x3040, fields := [HST.LINK.LINKSEL, HST.LINK.UP, HST.LINK.WIDTH, HST.LINK.SPEED] }
def HST.BUDGET.V : Fld := { off := 0x3044, lo := 0, wid := 11, reset := 0x5DC, bad := [(0, 99), (1501, 2047)] }
/-- `HST.BUDGET`, file 12 of the spec. -/
def HST.BUDGET : Reg := { off := 0x3044, cons := 0x7FF, fields := [HST.BUDGET.V] }
def HST.VACK.V : Fld := { off := 0x3048, lo := 0, wid := 5, acc := .wo }
/-- `HST.VACK`, file 12 of the spec. -/
def HST.VACK : Reg := { off := 0x3048, fields := [HST.VACK.V] }
def HST.ISUM.V : Fld := { off := 0x3050, lo := 0, wid := 32, acc := .ro }
/-- `HST.ISUM`, file 12 of the spec. -/
def HST.ISUM : Reg := { off := 0x3050, cnt := 2, stride := 4, fields := [HST.ISUM.V] }
def HST.RULSUM.V : Fld := { off := 0x3058, lo := 0, wid := 32, acc := .ro }
/-- `HST.RULSUM`, file 12 of the spec. -/
def HST.RULSUM : Reg := { off := 0x3058, fields := [HST.RULSUM.V] }
def HST.SHNSUM.V : Fld := { off := 0x305C, lo := 0, wid := 16, acc := .ro }
/-- `HST.SHNSUM`, file 12 of the spec. -/
def HST.SHNSUM : Reg := { off := 0x305C, fields := [HST.SHNSUM.V] }
def HST.TRKSUM.V : Fld := { off := 0x3060, lo := 0, wid := 32, acc := .ro }
/-- `HST.TRKSUM`, file 12 of the spec. -/
def HST.TRKSUM : Reg := { off := 0x3060, cnt := 8, stride := 4, fields := [HST.TRKSUM.V] }
def HST.VMAP.VEC0 : Fld := { off := 0x3080, lo := 0, wid := 5 }
def HST.VMAP.EN0 : Fld := { off := 0x3080, lo := 7, wid := 1, reset := 0x1 }
def HST.VMAP.VEC1 : Fld := { off := 0x3080, lo := 8, wid := 5 }
def HST.VMAP.EN1 : Fld := { off := 0x3080, lo := 15, wid := 1, reset := 0x1 }
def HST.VMAP.VEC2 : Fld := { off := 0x3080, lo := 16, wid := 5 }
def HST.VMAP.EN2 : Fld := { off := 0x3080, lo := 23, wid := 1, reset := 0x1 }
def HST.VMAP.VEC3 : Fld := { off := 0x3080, lo := 24, wid := 5 }
def HST.VMAP.EN3 : Fld := { off := 0x3080, lo := 31, wid := 1, reset := 0x1 }
/-- `HST.VMAP`, file 12 of the spec. -/
def HST.VMAP : Reg := { off := 0x3080, cnt := 16, stride := 4, cons := 0x9F9F9F9F, fields := [HST.VMAP.VEC0, HST.VMAP.EN0, HST.VMAP.VEC1, HST.VMAP.EN1, HST.VMAP.VEC2, HST.VMAP.EN2, HST.VMAP.VEC3, HST.VMAP.EN3] }
def HST.SCFG.EN : Fld := { off := 0x3100, lo := 31, wid := 1 }
def HST.SCFG.POLL : Fld := { off := 0x3100, lo := 30, wid := 1 }
def HST.SCFG.WGT : Fld := { off := 0x3100, lo := 24, wid := 4, reset := 0x4, bad := [(0, 0)] }
def HST.SCFG.SLOTSZ : Fld := { off := 0x3100, lo := 20, wid := 4, reset := 0x4, bad := [(11, 15)] }
def HST.SCFG.LOGN : Fld := { off := 0x3100, lo := 15, wid := 5, reset := 0x8, bad := [(0, 0), (17, 31)] }
def HST.SCFG.ICNT : Fld := { off := 0x3100, lo := 8, wid := 7, reset := 0x1, bad := [(0, 0)] }
def HST.SCFG.COAL : Fld := { off := 0x3100, lo := 0, wid := 8, reset := 0xA }
/-- `HST.SCFG`, file 12 of the spec. -/
def HST.SCFG : Reg := { off := 0x3100, cnt := 8, stride := 64, cons := 0xF007FFF, fields := [HST.SCFG.EN, HST.SCFG.POLL, HST.SCFG.WGT, HST.SCFG.SLOTSZ, HST.SCFG.LOGN, HST.SCFG.ICNT, HST.SCFG.COAL] }
def HST.SCAP.V : Fld := { off := 0x3104, lo := 0, wid := 11 }
/-- `HST.SCAP`, file 12 of the spec. -/
def HST.SCAP : Reg := { off := 0x3104, cnt := 8, stride := 64, fields := [HST.SCAP.V] }
def HST.SRING_LO.V : Fld := { off := 0x3108, lo := 0, wid := 32 }
/-- `HST.SRING_LO`, file 12 of the spec. -/
def HST.SRING_LO : Reg := { off := 0x3108, cnt := 8, stride := 64, fields := [HST.SRING_LO.V] }
def HST.SRING_HI.V : Fld := { off := 0x310C, lo := 0, wid := 32 }
/-- `HST.SRING_HI`, file 12 of the spec. -/
def HST.SRING_HI : Reg := { off := 0x310C, cnt := 8, stride := 64, fields := [HST.SRING_HI.V] }
def HST.SREP_LO.V : Fld := { off := 0x3110, lo := 0, wid := 32 }
/-- `HST.SREP_LO`, file 12 of the spec. -/
def HST.SREP_LO : Reg := { off := 0x3110, cnt := 8, stride := 64, fields := [HST.SREP_LO.V] }
def HST.SREP_HI.V : Fld := { off := 0x3114, lo := 0, wid := 32 }
/-- `HST.SREP_HI`, file 12 of the spec. -/
def HST.SREP_HI : Reg := { off := 0x3114, cnt := 8, stride := 64, fields := [HST.SREP_HI.V] }
def HST.SDB.V : Fld := { off := 0x3118, lo := 0, wid := 32 }
/-- `HST.SDB`, file 12 of the spec. -/
def HST.SDB : Reg := { off := 0x3118, cnt := 8, stride := 64, fields := [HST.SDB.V] }
def HST.SCONS.V : Fld := { off := 0x311C, lo := 0, wid := 32, acc := .ro }
/-- `HST.SCONS`, file 12 of the spec. -/
def HST.SCONS : Reg := { off := 0x311C, cnt := 8, stride := 64, fields := [HST.SCONS.V] }
def HST.SREPIDX.V : Fld := { off := 0x3120, lo := 0, wid := 32, acc := .ro }
/-- `HST.SREPIDX`, file 12 of the spec. -/
def HST.SREPIDX : Reg := { off := 0x3120, cnt := 8, stride := 64, fields := [HST.SREPIDX.V] }
def HST.SBOOK.UNREPORTED : Fld := { off := 0x3124, lo := 18, wid := 14, acc := .ro }
def HST.SBOOK.IN_FLIGHT : Fld := { off := 0x3124, lo := 17, wid := 1, acc := .ro }
def HST.SBOOK.HELD : Fld := { off := 0x3124, lo := 0, wid := 17, acc := .ro }
/-- `HST.SBOOK`, file 12 of the spec. -/
def HST.SBOOK : Reg := { off := 0x3124, cnt := 8, stride := 64, fields := [HST.SBOOK.UNREPORTED, HST.SBOOK.IN_FLIGHT, HST.SBOOK.HELD] }
def HST.SSRC.BASE : Fld := { off := 0x3128, lo := 12, wid := 9 }
def HST.SSRC.SIZE : Fld := { off := 0x3128, lo := 0, wid := 8, bad := [(0, 0)] }
/-- `HST.SSRC`, file 12 of the spec. -/
def HST.SSRC : Reg := { off := 0x3128, cnt := 8, stride := 64, fields := [HST.SSRC.BASE, HST.SSRC.SIZE] }
def HST.SSRCLVL.V : Fld := { off := 0x312C, lo := 0, wid := 21, acc := .ro }
/-- `HST.SSRCLVL`, file 12 of the spec. -/
def HST.SSRCLVL : Reg := { off := 0x312C, cnt := 8, stride := 64, fields := [HST.SSRCLVL.V] }
def HST.SPOLL.V : Fld := { off := 0x3130, lo := 0, wid := 32, acc := .ro }
/-- `HST.SPOLL`, file 12 of the spec. -/
def HST.SPOLL : Reg := { off := 0x3130, cnt := 8, stride := 64, fields := [HST.SPOLL.V] }
def HST.SPSTS.V : Fld := { off := 0x3134, lo := 0, wid := 7, acc := .ro }
/-- `HST.SPSTS`, file 12 of the spec. -/
def HST.SPSTS : Reg := { off := 0x3134, cnt := 8, stride := 64, fields := [HST.SPSTS.V] }
def HST.SLOST.V : Fld := { off := 0x3138, lo := 0, wid := 32, acc := .ro }
/-- `HST.SLOST`, file 12 of the spec. -/
def HST.SLOST : Reg := { off := 0x3138, cnt := 8, stride := 64, fields := [HST.SLOST.V] }
def HST.BLK_ID.CODE : Fld := { off := 0x3000, lo := 24, wid := 8, acc := .ro }
def HST.BLK_ID.INST : Fld := { off := 0x3000, lo := 16, wid := 8, acc := .ro }
def HST.BLK_ID.LAYOUT : Fld := { off := 0x3000, lo := 8, wid := 8, acc := .ro, reset := 0x1 }
/-- `HST.BLK_ID`, file 12 of the spec. -/
def HST.BLK_ID : Reg := { off := 0x3000, fields := [HST.BLK_ID.CODE, HST.BLK_ID.INST, HST.BLK_ID.LAYOUT] }
def HST.BLK_VER.MAJOR : Fld := { off := 0x3004, lo := 24, wid := 8, acc := .ro, reset := 0x1 }
def HST.BLK_VER.MINOR : Fld := { off := 0x3004, lo := 16, wid := 8, acc := .ro }
def HST.BLK_VER.STEP : Fld := { off := 0x3004, lo := 8, wid := 8, acc := .ro, reset := 0xA1 }
/-- `HST.BLK_VER`, file 12 of the spec. -/
def HST.BLK_VER : Reg := { off := 0x3004, fields := [HST.BLK_VER.MAJOR, HST.BLK_VER.MINOR, HST.BLK_VER.STEP] }
def HST.ERR_CAP.VALID : Fld := { off := 0x301C, lo := 31, wid := 1, acc := .w1c }
def HST.ERR_CAP.REASON : Fld := { off := 0x301C, lo := 27, wid := 4, acc := .ro }
def HST.ERR_CAP.REQ : Fld := { off := 0x301C, lo := 19, wid := 8, acc := .ro }
def HST.ERR_CAP.OFS : Fld := { off := 0x301C, lo := 0, wid := 12, acc := .ro }
/-- `HST.ERR_CAP`, file 12 of the spec. -/
def HST.ERR_CAP : Reg := { off := 0x301C, fields := [HST.ERR_CAP.VALID, HST.ERR_CAP.REASON, HST.ERR_CAP.REQ, HST.ERR_CAP.OFS] }
def HST.ABORT.GO : Fld := { off := 0x3020, lo := 0, wid := 1, acc := .wo }
/-- `HST.ABORT`, file 12 of the spec. -/
def HST.ABORT : Reg := { off := 0x3020, fields := [HST.ABORT.GO] }
def HST.ABORT_STS.COUNT : Fld := { off := 0x3024, lo := 16, wid := 16, acc := .ro }
def HST.ABORT_STS.BUSY : Fld := { off := 0x3024, lo := 1, wid := 1, acc := .ro }
def HST.ABORT_STS.DONE : Fld := { off := 0x3024, lo := 0, wid := 1, acc := .w1c }
/-- `HST.ABORT_STS`, file 12 of the spec. -/
def HST.ABORT_STS : Reg := { off := 0x3024, fields := [HST.ABORT_STS.COUNT, HST.ABORT_STS.BUSY, HST.ABORT_STS.DONE] }
def HST.LOCK.SEAL : Fld := { off := 0x3028, lo := 31, wid := 1, acc := .w1s, role := .installer }
def HST.LOCK.MYROLE : Fld := { off := 0x3028, lo := 16, wid := 2, acc := .ro }
def HST.LOCK.MINROLE : Fld := { off := 0x3028, lo := 0, wid := 2, acc := .ro }
/-- `HST.LOCK`, file 12 of the spec. -/
def HST.LOCK : Reg := { off := 0x3028, fields := [HST.LOCK.SEAL, HST.LOCK.MYROLE, HST.LOCK.MINROLE] }
def HST.IRQ_EN.V : Fld := { off := 0x3014, lo := 0, wid := 32 }
/-- `HST.IRQ_EN`, file 12 of the spec. -/
def HST.IRQ_EN : Reg := { off := 0x3014, fields := [HST.IRQ_EN.V] }
def HST.IRQ_SET.V : Fld := { off := 0x3018, lo := 0, wid := 32, acc := .w1s, role := .maker }
/-- `HST.IRQ_SET`, file 12 of the spec. -/
def HST.IRQ_SET : Reg := { off := 0x3018, fields := [HST.IRQ_SET.V] }
def HST.CNT_EVT.HI : Fld := { off := 0x302C, lo := 16, wid := 16, acc := .ro }
def HST.CNT_EVT.LO : Fld := { off := 0x302C, lo := 0, wid := 16, acc := .ro }
/-- `HST.CNT_EVT`, file 12 of the spec. -/
def HST.CNT_EVT : Reg := { off := 0x302C, fields := [HST.CNT_EVT.HI, HST.CNT_EVT.LO] }
/-- Every register of the HST page. -/
def HST.regs : List Reg :=
  [HST.IRQ_RAW, HST.LINK, HST.BUDGET, HST.VACK, HST.ISUM, HST.RULSUM, HST.SHNSUM, HST.TRKSUM, HST.VMAP, HST.SCFG, HST.SCAP, HST.SRING_LO, HST.SRING_HI, HST.SREP_LO, HST.SREP_HI, HST.SDB, HST.SCONS, HST.SREPIDX, HST.SBOOK, HST.SSRC, HST.SSRCLVL, HST.SPOLL, HST.SPSTS, HST.SLOST, HST.BLK_ID, HST.BLK_VER, HST.ERR_CAP, HST.ABORT, HST.ABORT_STS, HST.LOCK, HST.IRQ_EN, HST.IRQ_SET, HST.CNT_EVT]

/-! ### TBU, page base 0x4000 -/

def TBU.VT_LO.V : Fld := { off := 0x4040, lo := 0, wid := 32, acc := .ro }
/-- `TBU.VT_LO`, file 02 of the spec. -/
def TBU.VT_LO : Reg := { off := 0x4040, fields := [TBU.VT_LO.V] }
def TBU.VT_HI.V : Fld := { off := 0x4044, lo := 0, wid := 32, acc := .ro }
/-- `TBU.VT_HI`, file 02 of the spec. -/
def TBU.VT_HI : Reg := { off := 0x4044, perReq := true, fields := [TBU.VT_HI.V] }
def TBU.MAP_VT_LO.MAP_VT : Fld := { off := 0x4048, lo := 0, wid := 32, acc := .rwl, role := .installer }
/-- `TBU.MAP_VT_LO`, file 02 of the spec. -/
def TBU.MAP_VT_LO : Reg := { off := 0x4048, fields := [TBU.MAP_VT_LO.MAP_VT] }
def TBU.MAP_VT_HI.MAP_VT : Fld := { off := 0x404C, lo := 0, wid := 32, acc := .rwl, role := .installer }
/-- `TBU.MAP_VT_HI`, file 02 of the spec. -/
def TBU.MAP_VT_HI : Reg := { off := 0x404C, fields := [TBU.MAP_VT_HI.MAP_VT] }
def TBU.MAP_TAI_LO.MAP_SEC : Fld := { off := 0x4050, lo := 30, wid := 2, acc := .rwl, role := .installer }
def TBU.MAP_TAI_LO.MAP_NS : Fld := { off := 0x4050, lo := 0, wid := 30, acc := .rwl, role := .installer, bad := [(1000000000, 1073741823)] }
/-- `TBU.MAP_TAI_LO`, file 02 of the spec. -/
def TBU.MAP_TAI_LO : Reg := { off := 0x4050, fields := [TBU.MAP_TAI_LO.MAP_SEC, TBU.MAP_TAI_LO.MAP_NS] }
def TBU.MAP_TAI_HI.MAP_SEC : Fld := { off := 0x4054, lo := 0, wid := 32, acc := .rwl, role := .installer }
/-- `TBU.MAP_TAI_HI`, file 02 of the spec. -/
def TBU.MAP_TAI_HI : Reg := { off := 0x4054, fields := [TBU.MAP_TAI_HI.MAP_SEC] }
def TBU.FREQ.CORR : Fld := { off := 0x406C, lo := 0, wid := 32, acc := .rwl, role := .installer }
/-- `TBU.FREQ`, file 02 of the spec. -/
def TBU.FREQ : Reg := { off := 0x406C, fields := [TBU.FREQ.CORR] }
def TBU.REF.PPS_OFS : Fld := { off := 0x405C, lo := 16, wid := 16, acc := .rwl, role := .installer }
def TBU.REF.LOSS : Fld := { off := 0x405C, lo := 12, wid := 4, acc := .rwl, role := .installer, reset := 0xF, bad := [(0, 1)] }
def TBU.REF.QUAL_N : Fld := { off := 0x405C, lo := 9, wid := 3, acc := .rwl, role := .installer, reset := 0x3, bad := [(0, 0)] }
def TBU.REF.RATE : Fld := { off := 0x405C, lo := 8, wid := 1, acc := .rwl, role := .installer }
def TBU.REF.PPS_POL : Fld := { off := 0x405C, lo := 7, wid := 1, acc := .rwl, role := .installer }
def TBU.REF.PPS_SRC : Fld := { off := 0x405C, lo := 6, wid := 1, acc := .rwl, role := .installer }
def TBU.REF.PPS_LINE : Fld := { off := 0x405C, lo := 0, wid := 6, acc := .rwl, role := .installer }
/-- `TBU.REF`, file 02 of the spec. -/
def TBU.REF : Reg := { off := 0x405C, fields := [TBU.REF.PPS_OFS, TBU.REF.LOSS, TBU.REF.QUAL_N, TBU.REF.RATE, TBU.REF.PPS_POL, TBU.REF.PPS_SRC, TBU.REF.PPS_LINE] }
def TBU.TOD.TAI_UTC : Fld := { off := 0x4060, lo := 24, wid := 8, acc := .rwl, role := .installer, reset := 0x25 }
def TBU.TOD.NMEA_NEXT : Fld := { off := 0x4060, lo := 8, wid := 1, acc := .rwl, role := .installer }
def TBU.TOD.BAUD : Fld := { off := 0x4060, lo := 5, wid := 3, acc := .rwl, role := .installer, reset := 0x4 }
def TBU.TOD.FMT : Fld := { off := 0x4060, lo := 0, wid := 2, acc := .rwl, role := .installer, reset := 0x1, bad := [(3, 3)] }
/-- `TBU.TOD`, file 02 of the spec. -/
def TBU.TOD : Reg := { off := 0x4060, fields := [TBU.TOD.TAI_UTC, TBU.TOD.NMEA_NEXT, TBU.TOD.BAUD, TBU.TOD.FMT] }
def TBU.SERVO.LOCK_THR : Fld := { off := 0x4064, lo := 20, wid := 12, acc := .rwl, role := .installer, reset := 0x64, bad := [(0, 0)] }
def TBU.SERVO.LOCK_N : Fld := { off := 0x4064, lo := 16, wid := 4, acc := .rwl, role := .installer, reset := 0x8, bad := [(0, 0)] }
def TBU.SERVO.SLEW : Fld := { off := 0x4064, lo := 8, wid := 8, acc := .rwl, role := .installer, reset := 0x32, bad := [(0, 0), (51, 255)] }
def TBU.SERVO.BW : Fld := { off := 0x4064, lo := 0, wid := 3, acc := .rwl, role := .installer, reset := 0x3 }
/-- `TBU.SERVO`, file 02 of the spec. -/
def TBU.SERVO : Reg := { off := 0x4064, fields := [TBU.SERVO.LOCK_THR, TBU.SERVO.LOCK_N, TBU.SERVO.SLEW, TBU.SERVO.BW] }
def TBU.PHERR.V : Fld := { off := 0x4068, lo := 0, wid := 32, acc := .ro }
/-- `TBU.PHERR`, file 02 of the spec. -/
def TBU.PHERR : Reg := { off := 0x4068, fields := [TBU.PHERR.V] }
def TBU.HOLD.TMAX : Fld := { off := 0x4070, lo := 16, wid := 16, acc := .rwl, role := .installer, reset := 0x3C }
def TBU.HOLD.AVG : Fld := { off := 0x4070, lo := 13, wid := 3, acc := .rwl, role := .installer, reset := 0x6 }
def TBU.HOLD.FREQ_HOLD : Fld := { off := 0x4070, lo := 0, wid := 13, acc := .ro }
/-- `TBU.HOLD`, file 02 of the spec. -/
def TBU.HOLD : Reg := { off := 0x4070, fields := [TBU.HOLD.TMAX, TBU.HOLD.AVG, TBU.HOLD.FREQ_HOLD] }
def TBU.STEP_HI.DUEMODE : Fld := { off := 0x4078, lo := 16, wid := 1 }
def TBU.STEP_HI.CYCLES : Fld := { off := 0x4078, lo := 0, wid := 16 }
/-- `TBU.STEP_HI`, file 02 of the spec. -/
def TBU.STEP_HI : Reg := { off := 0x4078, fields := [TBU.STEP_HI.DUEMODE, TBU.STEP_HI.CYCLES] }
def TBU.STEP_LO.CYCLES : Fld := { off := 0x4074, lo := 0, wid := 32 }
/-- `TBU.STEP_LO`, file 02 of the spec. -/
def TBU.STEP_LO : Reg := { off := 0x4074, fields := [TBU.STEP_LO.CYCLES] }
def TBU.STEPLOG_HI.COUNT : Fld := { off := 0x409C, lo := 16, wid := 16, acc := .ro }
def TBU.STEPLOG_HI.S : Fld := { off := 0x409C, lo := 0, wid := 16, acc := .ro }
/-- `TBU.STEPLOG_HI`, file 02 of the spec. -/
def TBU.STEPLOG_HI : Reg := { off := 0x409C, fields := [TBU.STEPLOG_HI.COUNT, TBU.STEPLOG_HI.S] }
def TBU.STEPLOG_LO.S : Fld := { off := 0x4098, lo := 0, wid := 32, acc := .ro }
/-- `TBU.STEPLOG_LO`, file 02 of the spec. -/
def TBU.STEPLOG_LO : Reg := { off := 0x4098, fields := [TBU.STEPLOG_LO.S] }
def TBU.KS_VT_LO.V : Fld := { off := 0x40E0, lo := 0, wid := 32, acc := .ro }
/-- `TBU.KS_VT_LO`, file 02 of the spec. -/
def TBU.KS_VT_LO : Reg := { off := 0x40E0, fields := [TBU.KS_VT_LO.V] }
def TBU.KS_VT_HI.V : Fld := { off := 0x40E4, lo := 0, wid := 32, acc := .ro }
/-- `TBU.KS_VT_HI`, file 02 of the spec. -/
def TBU.KS_VT_HI : Reg := { off := 0x40E4, fields := [TBU.KS_VT_HI.V] }
def TBU.KS_TICKS_LO.V : Fld := { off := 0x40E8, lo := 0, wid := 32, acc := .ro }
/-- `TBU.KS_TICKS_LO`, file 02 of the spec. -/
def TBU.KS_TICKS_LO : Reg := { off := 0x40E8, fields := [TBU.KS_TICKS_LO.V] }
def TBU.KS_TICKS_HI.V : Fld := { off := 0x40EC, lo := 0, wid := 16, acc := .ro }
/-- `TBU.KS_TICKS_HI`, file 02 of the spec. -/
def TBU.KS_TICKS_HI : Reg := { off := 0x40EC, fields := [TBU.KS_TICKS_HI.V] }
def TBU.KS_FREQ.V : Fld := { off := 0x40F0, lo := 0, wid := 32, acc := .ro }
/-- `TBU.KS_FREQ`, file 02 of the spec. -/
def TBU.KS_FREQ : Reg := { off := 0x40F0, fields := [TBU.KS_FREQ.V] }
def TBU.KS_K32.V : Fld := { off := 0x40F4, lo := 0, wid := 32, acc := .ro }
/-- `TBU.KS_K32`, file 02 of the spec. -/
def TBU.KS_K32 : Reg := { off := 0x40F4, fields := [TBU.KS_K32.V] }
def TBU.KS_FLAGS.V : Fld := { off := 0x40F8, lo := 0, wid := 3, acc := .ro }
/-- `TBU.KS_FLAGS`, file 02 of the spec. -/
def TBU.KS_FLAGS : Reg := { off := 0x40F8, fields := [TBU.KS_FLAGS.V] }
def TBU.K32.V : Fld := { off := 0x4090, lo := 0, wid := 32, acc := .ro, reset := 0xBEBC2000 }
/-- `TBU.K32`, file 02 of the spec. -/
def TBU.K32 : Reg := { off := 0x4090, fields := [TBU.K32.V] }
def TBU.PPSOUT.EN : Fld := { off := 0x407C, lo := 31, wid := 1 }
def TBU.PPSOUT.HOLD_EN : Fld := { off := 0x407C, lo := 30, wid := 1, reset := 0x1 }
def TBU.PPSOUT.TRACK : Fld := { off := 0x407C, lo := 22, wid := 8 }
def TBU.PPSOUT.OFS : Fld := { off := 0x407C, lo := 0, wid := 16 }
/-- `TBU.PPSOUT`, file 02 of the spec. -/
def TBU.PPSOUT : Reg := { off := 0x407C, fields := [TBU.PPSOUT.EN, TBU.PPSOUT.HOLD_EN, TBU.PPSOUT.TRACK, TBU.PPSOUT.OFS] }
def TBU.PPSWID.WIDTH : Fld := { off := 0x4094, lo := 0, wid := 20, reset := 0x186A0, bad := [(0, 0), (1000000, 1048575)] }
/-- `TBU.PPSWID`, file 02 of the spec. -/
def TBU.PPSWID : Reg := { off := 0x4094, fields := [TBU.PPSWID.WIDTH] }
def TBU.NEXTSEC_LO.NEXTSEC : Fld := { off := 0x4080, lo := 0, wid := 32, acc := .ro }
/-- `TBU.NEXTSEC_LO`, file 02 of the spec. -/
def TBU.NEXTSEC_LO : Reg := { off := 0x4080, fields := [TBU.NEXTSEC_LO.NEXTSEC] }
def TBU.NEXTSEC_HI.NEXTSEC : Fld := { off := 0x4084, lo := 0, wid := 32, acc := .ro }
/-- `TBU.NEXTSEC_HI`, file 02 of the spec. -/
def TBU.NEXTSEC_HI : Reg := { off := 0x4084, perReq := true, fields := [TBU.NEXTSEC_HI.NEXTSEC] }
def TBU.CAL.INTERVAL : Fld := { off := 0x4088, lo := 18, wid := 14, reset := 0x64, bad := [(0, 9), (10001, 16383)] }
def TBU.CAL.MIN_HITS : Fld := { off := 0x4088, lo := 13, wid := 5, reset := 0x10, bad := [(0, 11), (21, 31)] }
def TBU.CAL.FILL : Fld := { off := 0x4088, lo := 1, wid := 1, reset := 0x1 }
def TBU.CAL.CAL_EN : Fld := { off := 0x4088, lo := 0, wid := 1, reset := 0x1 }
/-- `TBU.CAL`, file 02 of the spec. -/
def TBU.CAL : Reg := { off := 0x4088, fields := [TBU.CAL.INTERVAL, TBU.CAL.MIN_HITS, TBU.CAL.FILL, TBU.CAL.CAL_EN] }
def TBU.CALSTS.FAIL_TRK : Fld := { off := 0x408C, lo := 24, wid := 8, acc := .ro }
def TBU.CALSTS.FAIL_BANK : Fld := { off := 0x408C, lo := 21, wid := 3, acc := .ro }
def TBU.CALSTS.FAIL_OUT : Fld := { off := 0x408C, lo := 20, wid := 1, acc := .ro }
def TBU.CALSTS.UNCAL : Fld := { off := 0x408C, lo := 9, wid := 11, acc := .ro }
def TBU.CALSTS.FAILS : Fld := { off := 0x408C, lo := 0, wid := 9, acc := .ro }
/-- `TBU.CALSTS`, file 02 of the spec. -/
def TBU.CALSTS : Reg := { off := 0x408C, fields := [TBU.CALSTS.FAIL_TRK, TBU.CALSTS.FAIL_BANK, TBU.CALSTS.FAIL_OUT, TBU.CALSTS.UNCAL, TBU.CALSTS.FAILS] }
def TBU.EPOCHLOG.DEP : Fld := { off := 0x40A0, lo := 0, wid := 32, acc := .ro }
/-- `TBU.EPOCHLOG`, file 02 of the spec. -/
def TBU.EPOCHLOG : Reg := { off := 0x40A0, cnt := 16, stride := 4, fields := [TBU.EPOCHLOG.DEP] }
def TBU.CTL.AUTOSTEP : Fld := { off := 0x4008, lo := 1, wid := 1, acc := .rwl, role := .installer, reset := 0x1 }
def TBU.CTL.SRV_EN : Fld := { off := 0x4008, lo := 0, wid := 1, acc := .rwl, role := .installer, reset := 0x1 }
/-- `TBU.CTL`, file 02 of the spec. -/
def TBU.CTL : Reg := { off := 0x4008, fields := [TBU.CTL.AUTOSTEP, TBU.CTL.SRV_EN] }
def TBU.STS.TAI_UTC_SRC : Fld := { off := 0x400C, lo := 16, wid := 16, acc := .ro }
def TBU.STS.EPOCH : Fld := { off := 0x400C, lo := 12, wid := 4, acc := .ro }
def TBU.STS.PPSOUT_REFUSED : Fld := { off := 0x400C, lo := 11, wid := 1, acc := .ro }
def TBU.STS.K32_NOM : Fld := { off := 0x400C, lo := 10, wid := 1, acc := .ro }
def TBU.STS.COARSE : Fld := { off := 0x400C, lo := 9, wid := 1, acc := .ro }
def TBU.STS.STEP_BUSY : Fld := { off := 0x400C, lo := 8, wid := 1, acc := .ro }
def TBU.STS.SLEW_SAT : Fld := { off := 0x400C, lo := 7, wid := 1, acc := .ro }
def TBU.STS.CAL_OK : Fld := { off := 0x400C, lo := 6, wid := 1, acc := .ro }
def TBU.STS.REF_QUAL : Fld := { off := 0x400C, lo := 5, wid := 1, acc := .ro }
def TBU.STS.PLL_LOCK : Fld := { off := 0x400C, lo := 4, wid := 1, acc := .ro }
def TBU.STS.SRV_STATE : Fld := { off := 0x400C, lo := 0, wid := 3, acc := .ro }
/-- `TBU.STS`, file 02 of the spec. -/
def TBU.STS : Reg := { off := 0x400C, fields := [TBU.STS.TAI_UTC_SRC, TBU.STS.EPOCH, TBU.STS.PPSOUT_REFUSED, TBU.STS.K32_NOM, TBU.STS.COARSE, TBU.STS.STEP_BUSY, TBU.STS.SLEW_SAT, TBU.STS.CAL_OK, TBU.STS.REF_QUAL, TBU.STS.PLL_LOCK, TBU.STS.SRV_STATE] }
def TBU.IRQ_RAW.CAL_FAIL : Fld := { off := 0x4010, lo := 9, wid := 1, acc := .w1c }
def TBU.IRQ_RAW.EPOCH : Fld := { off := 0x4010, lo := 8, wid := 1, acc := .w1c }
def TBU.IRQ_RAW.HOLD_LONG : Fld := { off := 0x4010, lo := 7, wid := 1, acc := .w1c }
def TBU.IRQ_RAW.BIG_ERR : Fld := { off := 0x4010, lo := 6, wid := 1, acc := .w1c }
def TBU.IRQ_RAW.STEP_DONE : Fld := { off := 0x4010, lo := 5, wid := 1, acc := .w1c }
def TBU.IRQ_RAW.REF_REJ : Fld := { off := 0x4010, lo := 4, wid := 1, acc := .w1c }
def TBU.IRQ_RAW.LOCKED : Fld := { off := 0x4010, lo := 3, wid := 1, acc := .w1c }
def TBU.IRQ_RAW.REF_LOST : Fld := { off := 0x4010, lo := 2, wid := 1, acc := .w1c }
def TBU.IRQ_RAW.PLL_UNLOCK : Fld := { off := 0x4010, lo := 0, wid := 1, acc := .w1c }
/-- `TBU.IRQ_RAW`, file 02 of the spec. -/
def TBU.IRQ_RAW : Reg := { off := 0x4010, fields := [TBU.IRQ_RAW.CAL_FAIL, TBU.IRQ_RAW.EPOCH, TBU.IRQ_RAW.HOLD_LONG, TBU.IRQ_RAW.BIG_ERR, TBU.IRQ_RAW.STEP_DONE, TBU.IRQ_RAW.REF_REJ, TBU.IRQ_RAW.LOCKED, TBU.IRQ_RAW.REF_LOST, TBU.IRQ_RAW.PLL_UNLOCK] }
def TBU.BLK_ID.CODE : Fld := { off := 0x4000, lo := 24, wid := 8, acc := .ro }
def TBU.BLK_ID.INST : Fld := { off := 0x4000, lo := 16, wid := 8, acc := .ro }
def TBU.BLK_ID.LAYOUT : Fld := { off := 0x4000, lo := 8, wid := 8, acc := .ro, reset := 0x1 }
/-- `TBU.BLK_ID`, file 12 of the spec. -/
def TBU.BLK_ID : Reg := { off := 0x4000, fields := [TBU.BLK_ID.CODE, TBU.BLK_ID.INST, TBU.BLK_ID.LAYOUT] }
def TBU.BLK_VER.MAJOR : Fld := { off := 0x4004, lo := 24, wid := 8, acc := .ro, reset := 0x1 }
def TBU.BLK_VER.MINOR : Fld := { off := 0x4004, lo := 16, wid := 8, acc := .ro }
def TBU.BLK_VER.STEP : Fld := { off := 0x4004, lo := 8, wid := 8, acc := .ro, reset := 0xA1 }
/-- `TBU.BLK_VER`, file 12 of the spec. -/
def TBU.BLK_VER : Reg := { off := 0x4004, fields := [TBU.BLK_VER.MAJOR, TBU.BLK_VER.MINOR, TBU.BLK_VER.STEP] }
def TBU.ERR_CAP.VALID : Fld := { off := 0x401C, lo := 31, wid := 1, acc := .w1c }
def TBU.ERR_CAP.REASON : Fld := { off := 0x401C, lo := 27, wid := 4, acc := .ro }
def TBU.ERR_CAP.REQ : Fld := { off := 0x401C, lo := 19, wid := 8, acc := .ro }
def TBU.ERR_CAP.OFS : Fld := { off := 0x401C, lo := 0, wid := 12, acc := .ro }
/-- `TBU.ERR_CAP`, file 12 of the spec. -/
def TBU.ERR_CAP : Reg := { off := 0x401C, fields := [TBU.ERR_CAP.VALID, TBU.ERR_CAP.REASON, TBU.ERR_CAP.REQ, TBU.ERR_CAP.OFS] }
def TBU.ABORT.GO : Fld := { off := 0x4020, lo := 0, wid := 1, acc := .wo }
/-- `TBU.ABORT`, file 12 of the spec. -/
def TBU.ABORT : Reg := { off := 0x4020, fields := [TBU.ABORT.GO] }
def TBU.ABORT_STS.COUNT : Fld := { off := 0x4024, lo := 16, wid := 16, acc := .ro }
def TBU.ABORT_STS.BUSY : Fld := { off := 0x4024, lo := 1, wid := 1, acc := .ro }
def TBU.ABORT_STS.DONE : Fld := { off := 0x4024, lo := 0, wid := 1, acc := .w1c }
/-- `TBU.ABORT_STS`, file 12 of the spec. -/
def TBU.ABORT_STS : Reg := { off := 0x4024, fields := [TBU.ABORT_STS.COUNT, TBU.ABORT_STS.BUSY, TBU.ABORT_STS.DONE] }
def TBU.LOCK.SEAL : Fld := { off := 0x4028, lo := 31, wid := 1, acc := .w1s, role := .installer }
def TBU.LOCK.MYROLE : Fld := { off := 0x4028, lo := 16, wid := 2, acc := .ro }
def TBU.LOCK.MINROLE : Fld := { off := 0x4028, lo := 0, wid := 2, acc := .ro }
/-- `TBU.LOCK`, file 12 of the spec. -/
def TBU.LOCK : Reg := { off := 0x4028, fields := [TBU.LOCK.SEAL, TBU.LOCK.MYROLE, TBU.LOCK.MINROLE] }
def TBU.IRQ_EN.V : Fld := { off := 0x4014, lo := 0, wid := 32 }
/-- `TBU.IRQ_EN`, file 12 of the spec. -/
def TBU.IRQ_EN : Reg := { off := 0x4014, fields := [TBU.IRQ_EN.V] }
def TBU.IRQ_SET.V : Fld := { off := 0x4018, lo := 0, wid := 32, acc := .w1s, role := .maker }
/-- `TBU.IRQ_SET`, file 12 of the spec. -/
def TBU.IRQ_SET : Reg := { off := 0x4018, fields := [TBU.IRQ_SET.V] }
def TBU.CNT_EVT.HI : Fld := { off := 0x402C, lo := 16, wid := 16, acc := .ro }
def TBU.CNT_EVT.LO : Fld := { off := 0x402C, lo := 0, wid := 16, acc := .ro }
/-- `TBU.CNT_EVT`, file 12 of the spec. -/
def TBU.CNT_EVT : Reg := { off := 0x402C, fields := [TBU.CNT_EVT.HI, TBU.CNT_EVT.LO] }
/-- Every register of the TBU page. -/
def TBU.regs : List Reg :=
  [TBU.VT_LO, TBU.VT_HI, TBU.MAP_VT_LO, TBU.MAP_VT_HI, TBU.MAP_TAI_LO, TBU.MAP_TAI_HI, TBU.FREQ, TBU.REF, TBU.TOD, TBU.SERVO, TBU.PHERR, TBU.HOLD, TBU.STEP_HI, TBU.STEP_LO, TBU.STEPLOG_HI, TBU.STEPLOG_LO, TBU.KS_VT_LO, TBU.KS_VT_HI, TBU.KS_TICKS_LO, TBU.KS_TICKS_HI, TBU.KS_FREQ, TBU.KS_K32, TBU.KS_FLAGS, TBU.K32, TBU.PPSOUT, TBU.PPSWID, TBU.NEXTSEC_LO, TBU.NEXTSEC_HI, TBU.CAL, TBU.CALSTS, TBU.EPOCHLOG, TBU.CTL, TBU.STS, TBU.IRQ_RAW, TBU.BLK_ID, TBU.BLK_VER, TBU.ERR_CAP, TBU.ABORT, TBU.ABORT_STS, TBU.LOCK, TBU.IRQ_EN, TBU.IRQ_SET, TBU.CNT_EVT]

/-! ### TWN, page base 0x5000 -/

def TWN.CTL.AMBIG : Fld := { off := 0x5008, lo := 2, wid := 1, acc := .rwl, role := .installer }
def TWN.CTL.PREF : Fld := { off := 0x5008, lo := 1, wid := 1, acc := .rwl, role := .installer }
def TWN.CTL.EN : Fld := { off := 0x5008, lo := 0, wid := 1, acc := .rwl, role := .installer }
/-- `TWN.CTL`, file 15 of the spec. -/
def TWN.CTL : Reg := { off := 0x5008, fields := [TWN.CTL.AMBIG, TWN.CTL.PREF, TWN.CTL.EN] }
def TWN.STS.PAIR_ERR : Fld := { off := 0x500C, lo := 12, wid := 4, acc := .ro }
def TWN.STS.KILL_OUT : Fld := { off := 0x500C, lo := 8, wid := 1, acc := .ro }
def TWN.STS.KILL_IN : Fld := { off := 0x500C, lo := 7, wid := 1, acc := .ro }
def TWN.STS.FOLLOW_LOCK : Fld := { off := 0x500C, lo := 6, wid := 1, acc := .ro }
def TWN.STS.LINK_UP : Fld := { off := 0x500C, lo := 5, wid := 1, acc := .ro }
def TWN.STS.STATE : Fld := { off := 0x500C, lo := 0, wid := 3, acc := .ro }
/-- `TWN.STS`, file 15 of the spec. -/
def TWN.STS : Reg := { off := 0x500C, fields := [TWN.STS.PAIR_ERR, TWN.STS.KILL_OUT, TWN.STS.KILL_IN, TWN.STS.FOLLOW_LOCK, TWN.STS.LINK_UP, TWN.STS.STATE] }
def TWN.IRQ_RAW.PEER_FAULT : Fld := { off := 0x5010, lo := 10, wid := 1, acc := .w1c }
def TWN.IRQ_RAW.CRC_ERR : Fld := { off := 0x5010, lo := 9, wid := 1, acc := .w1c }
def TWN.IRQ_RAW.MQ_FULL : Fld := { off := 0x5010, lo := 8, wid := 1, acc := .w1c }
def TWN.IRQ_RAW.DIVERGE : Fld := { off := 0x5010, lo := 7, wid := 1, acc := .w1c }
def TWN.IRQ_RAW.PEER_LOST : Fld := { off := 0x5010, lo := 6, wid := 1, acc := .w1c }
def TWN.IRQ_RAW.HB_MISS : Fld := { off := 0x5010, lo := 5, wid := 1, acc := .w1c }
def TWN.IRQ_RAW.DEPOSED : Fld := { off := 0x5010, lo := 4, wid := 1, acc := .w1c }
def TWN.IRQ_RAW.TAKEOVER : Fld := { off := 0x5010, lo := 3, wid := 1, acc := .w1c }
def TWN.IRQ_RAW.NOT_READY : Fld := { off := 0x5010, lo := 2, wid := 1, acc := .w1c }
def TWN.IRQ_RAW.READY : Fld := { off := 0x5010, lo := 1, wid := 1, acc := .w1c }
def TWN.IRQ_RAW.PAIRED : Fld := { off := 0x5010, lo := 0, wid := 1, acc := .w1c }
/-- `TWN.IRQ_RAW`, file 15 of the spec. -/
def TWN.IRQ_RAW : Reg := { off := 0x5010, fields := [TWN.IRQ_RAW.PEER_FAULT, TWN.IRQ_RAW.CRC_ERR, TWN.IRQ_RAW.MQ_FULL, TWN.IRQ_RAW.DIVERGE, TWN.IRQ_RAW.PEER_LOST, TWN.IRQ_RAW.HB_MISS, TWN.IRQ_RAW.DEPOSED, TWN.IRQ_RAW.TAKEOVER, TWN.IRQ_RAW.NOT_READY, TWN.IRQ_RAW.READY, TWN.IRQ_RAW.PAIRED] }
def TWN.FLTSEL.V : Fld := { off := 0x5040, lo := 0, wid := 6, acc := .rwl, role := .installer, reset := 0x3F }
/-- `TWN.FLTSEL`, file 15 of the spec. -/
def TWN.FLTSEL : Reg := { off := 0x5040, fields := [TWN.FLTSEL.V] }
def TWN.HBWIN.V : Fld := { off := 0x5044, lo := 0, wid := 16, acc := .rwl, role := .installer, reset := 0x190, bad := [(0, 399), (25601, 65535)] }
/-- `TWN.HBWIN`, file 15 of the spec. -/
def TWN.HBWIN : Reg := { off := 0x5044, fields := [TWN.HBWIN.V] }
def TWN.ASYM.V : Fld := { off := 0x5048, lo := 0, wid := 16, acc := .rwl, role := .installer }
/-- `TWN.ASYM`, file 15 of the spec. -/
def TWN.ASYM : Reg := { off := 0x5048, fields := [TWN.ASYM.V] }
def TWN.FOLLOW.LOCK_THR : Fld := { off := 0x504C, lo := 8, wid := 8, reset := 0x2, bad := [(0, 0)] }
def TWN.FOLLOW.BW : Fld := { off := 0x504C, lo := 0, wid := 2, reset := 0x1, bad := [(3, 3)] }
/-- `TWN.FOLLOW`, file 15 of the spec. -/
def TWN.FOLLOW : Reg := { off := 0x504C, fields := [TWN.FOLLOW.LOCK_THR, TWN.FOLLOW.BW] }
def TWN.THETA.V : Fld := { off := 0x5050, lo := 0, wid := 32, acc := .ro }
/-- `TWN.THETA`, file 15 of the spec. -/
def TWN.THETA : Reg := { off := 0x5050, fields := [TWN.THETA.V] }
def TWN.PEERSER_LO.V : Fld := { off := 0x5054, lo := 0, wid := 32, acc := .ro }
/-- `TWN.PEERSER_LO`, file 15 of the spec. -/
def TWN.PEERSER_LO : Reg := { off := 0x5054, fields := [TWN.PEERSER_LO.V] }
def TWN.PEERSER_HI.V : Fld := { off := 0x5058, lo := 0, wid := 32, acc := .ro }
/-- `TWN.PEERSER_HI`, file 15 of the spec. -/
def TWN.PEERSER_HI : Reg := { off := 0x5058, fields := [TWN.PEERSER_HI.V] }
def TWN.MQ.FREEKB : Fld := { off := 0x505C, lo := 16, wid := 16, acc := .ro, reset := 0x40 }
def TWN.MQ.SIDING : Fld := { off := 0x505C, lo := 0, wid := 4, acc := .rwl, role := .installer, reset := 0xD }
/-- `TWN.MQ`, file 15 of the spec. -/
def TWN.MQ : Reg := { off := 0x505C, fields := [TWN.MQ.FREEKB, TWN.MQ.SIDING] }
def TWN.MIRSEQ.V : Fld := { off := 0x5060, lo := 0, wid := 32, acc := .ro }
/-- `TWN.MIRSEQ`, file 15 of the spec. -/
def TWN.MIRSEQ : Reg := { off := 0x5060, fields := [TWN.MIRSEQ.V] }
def TWN.MIRACK.V : Fld := { off := 0x5064, lo := 0, wid := 32, acc := .ro }
/-- `TWN.MIRACK`, file 15 of the spec. -/
def TWN.MIRACK : Reg := { off := 0x5064, fields := [TWN.MIRACK.V] }
def TWN.MYMIR.ACKED : Fld := { off := 0x5068, lo := 31, wid := 1, acc := .ro }
def TWN.MYMIR.SEQ : Fld := { off := 0x5068, lo := 0, wid := 24, acc := .ro }
/-- `TWN.MYMIR`, file 15 of the spec. -/
def TWN.MYMIR : Reg := { off := 0x5068, perReq := true, fields := [TWN.MYMIR.ACKED, TWN.MYMIR.SEQ] }
def TWN.COUNT.SWITCHES : Fld := { off := 0x506C, lo := 16, wid := 16, acc := .ro }
def TWN.COUNT.AMBIG : Fld := { off := 0x506C, lo := 0, wid := 16, acc := .ro }
/-- `TWN.COUNT`, file 15 of the spec. -/
def TWN.COUNT : Reg := { off := 0x506C, fields := [TWN.COUNT.SWITCHES, TWN.COUNT.AMBIG] }
def TWN.HOV.V : Fld := { off := 0x5070, lo := 0, wid := 32, acc := .rwl, role := .installer }
/-- `TWN.HOV`, file 15 of the spec. -/
def TWN.HOV : Reg := { off := 0x5070, cnt := 4, stride := 4, fields := [TWN.HOV.V] }
def TWN.CMD.OP : Fld := { off := 0x5080, lo := 30, wid := 2, acc := .wo }
/-- `TWN.CMD`, file 15 of the spec. -/
def TWN.CMD : Reg := { off := 0x5080, fields := [TWN.CMD.OP] }
def TWN.LASTSW.TRIGGER : Fld := { off := 0x5084, lo := 28, wid := 4, acc := .ro }
def TWN.LASTSW.DEP : Fld := { off := 0x5084, lo := 0, wid := 28, acc := .ro }
/-- `TWN.LASTSW`, file 15 of the spec. -/
def TWN.LASTSW : Reg := { off := 0x5084, fields := [TWN.LASTSW.TRIGGER, TWN.LASTSW.DEP] }
def TWN.BLK_ID.CODE : Fld := { off := 0x5000, lo := 24, wid := 8, acc := .ro }
def TWN.BLK_ID.INST : Fld := { off := 0x5000, lo := 16, wid := 8, acc := .ro }
def TWN.BLK_ID.LAYOUT : Fld := { off := 0x5000, lo := 8, wid := 8, acc := .ro, reset := 0x1 }
/-- `TWN.BLK_ID`, file 12 of the spec. -/
def TWN.BLK_ID : Reg := { off := 0x5000, fields := [TWN.BLK_ID.CODE, TWN.BLK_ID.INST, TWN.BLK_ID.LAYOUT] }
def TWN.BLK_VER.MAJOR : Fld := { off := 0x5004, lo := 24, wid := 8, acc := .ro, reset := 0x1 }
def TWN.BLK_VER.MINOR : Fld := { off := 0x5004, lo := 16, wid := 8, acc := .ro }
def TWN.BLK_VER.STEP : Fld := { off := 0x5004, lo := 8, wid := 8, acc := .ro, reset := 0xA1 }
/-- `TWN.BLK_VER`, file 12 of the spec. -/
def TWN.BLK_VER : Reg := { off := 0x5004, fields := [TWN.BLK_VER.MAJOR, TWN.BLK_VER.MINOR, TWN.BLK_VER.STEP] }
def TWN.ERR_CAP.VALID : Fld := { off := 0x501C, lo := 31, wid := 1, acc := .w1c }
def TWN.ERR_CAP.REASON : Fld := { off := 0x501C, lo := 27, wid := 4, acc := .ro }
def TWN.ERR_CAP.REQ : Fld := { off := 0x501C, lo := 19, wid := 8, acc := .ro }
def TWN.ERR_CAP.OFS : Fld := { off := 0x501C, lo := 0, wid := 12, acc := .ro }
/-- `TWN.ERR_CAP`, file 12 of the spec. -/
def TWN.ERR_CAP : Reg := { off := 0x501C, fields := [TWN.ERR_CAP.VALID, TWN.ERR_CAP.REASON, TWN.ERR_CAP.REQ, TWN.ERR_CAP.OFS] }
def TWN.ABORT.GO : Fld := { off := 0x5020, lo := 0, wid := 1, acc := .wo }
/-- `TWN.ABORT`, file 12 of the spec. -/
def TWN.ABORT : Reg := { off := 0x5020, fields := [TWN.ABORT.GO] }
def TWN.ABORT_STS.COUNT : Fld := { off := 0x5024, lo := 16, wid := 16, acc := .ro }
def TWN.ABORT_STS.BUSY : Fld := { off := 0x5024, lo := 1, wid := 1, acc := .ro }
def TWN.ABORT_STS.DONE : Fld := { off := 0x5024, lo := 0, wid := 1, acc := .w1c }
/-- `TWN.ABORT_STS`, file 12 of the spec. -/
def TWN.ABORT_STS : Reg := { off := 0x5024, fields := [TWN.ABORT_STS.COUNT, TWN.ABORT_STS.BUSY, TWN.ABORT_STS.DONE] }
def TWN.LOCK.SEAL : Fld := { off := 0x5028, lo := 31, wid := 1, acc := .w1s, role := .installer }
def TWN.LOCK.MYROLE : Fld := { off := 0x5028, lo := 16, wid := 2, acc := .ro }
def TWN.LOCK.MINROLE : Fld := { off := 0x5028, lo := 0, wid := 2, acc := .ro }
/-- `TWN.LOCK`, file 12 of the spec. -/
def TWN.LOCK : Reg := { off := 0x5028, fields := [TWN.LOCK.SEAL, TWN.LOCK.MYROLE, TWN.LOCK.MINROLE] }
def TWN.IRQ_EN.V : Fld := { off := 0x5014, lo := 0, wid := 32 }
/-- `TWN.IRQ_EN`, file 12 of the spec. -/
def TWN.IRQ_EN : Reg := { off := 0x5014, fields := [TWN.IRQ_EN.V] }
def TWN.IRQ_SET.V : Fld := { off := 0x5018, lo := 0, wid := 32, acc := .w1s, role := .maker }
/-- `TWN.IRQ_SET`, file 12 of the spec. -/
def TWN.IRQ_SET : Reg := { off := 0x5018, fields := [TWN.IRQ_SET.V] }
def TWN.CNT_EVT.HI : Fld := { off := 0x502C, lo := 16, wid := 16, acc := .ro }
def TWN.CNT_EVT.LO : Fld := { off := 0x502C, lo := 0, wid := 16, acc := .ro }
/-- `TWN.CNT_EVT`, file 12 of the spec. -/
def TWN.CNT_EVT : Reg := { off := 0x502C, fields := [TWN.CNT_EVT.HI, TWN.CNT_EVT.LO] }
/-- Every register of the TWN page. -/
def TWN.regs : List Reg :=
  [TWN.CTL, TWN.STS, TWN.IRQ_RAW, TWN.FLTSEL, TWN.HBWIN, TWN.ASYM, TWN.FOLLOW, TWN.THETA, TWN.PEERSER_LO, TWN.PEERSER_HI, TWN.MQ, TWN.MIRSEQ, TWN.MIRACK, TWN.MYMIR, TWN.COUNT, TWN.HOV, TWN.CMD, TWN.LASTSW, TWN.BLK_ID, TWN.BLK_VER, TWN.ERR_CAP, TWN.ABORT, TWN.ABORT_STS, TWN.LOCK, TWN.IRQ_EN, TWN.IRQ_SET, TWN.CNT_EVT]

/-! ### CNS, page base 0x6000 -/

def CNS.STS.OPEN : Fld := { off := 0x600C, lo := 28, wid := 4, acc := .ro }
def CNS.STS.CLOSED : Fld := { off := 0x600C, lo := 24, wid := 4, acc := .ro }
def CNS.STS.BYPASS : Fld := { off := 0x600C, lo := 16, wid := 1, acc := .ro }
def CNS.STS.FREE : Fld := { off := 0x600C, lo := 0, wid := 10, acc := .ro, reset := 0x200 }
/-- `CNS.STS`, file 13 of the spec. -/
def CNS.STS : Reg := { off := 0x600C, fields := [CNS.STS.OPEN, CNS.STS.CLOSED, CNS.STS.BYPASS, CNS.STS.FREE] }
def CNS.IRQ_RAW.BYPASS : Fld := { off := 0x6010, lo := 3, wid := 1, acc := .w1c }
def CNS.IRQ_RAW.OVERFLOW : Fld := { off := 0x6010, lo := 2, wid := 1, acc := .w1c }
def CNS.IRQ_RAW.FAILED : Fld := { off := 0x6010, lo := 1, wid := 1, acc := .w1c }
def CNS.IRQ_RAW.COMMITTED : Fld := { off := 0x6010, lo := 0, wid := 1, acc := .w1c }
/-- `CNS.IRQ_RAW`, file 13 of the spec. -/
def CNS.IRQ_RAW : Reg := { off := 0x6010, fields := [CNS.IRQ_RAW.BYPASS, CNS.IRQ_RAW.OVERFLOW, CNS.IRQ_RAW.FAILED, CNS.IRQ_RAW.COMMITTED] }
def CNS.CMD.OP : Fld := { off := 0x6040, lo := 30, wid := 2, acc := .wo }
def CNS.CMD.WHEN : Fld := { off := 0x6040, lo := 28, wid := 2, acc := .wo, bad := [(3, 3)] }
def CNS.CMD.ENTRY : Fld := { off := 0x6040, lo := 0, wid := 14, acc := .wo }
/-- `CNS.CMD`, file 13 of the spec. -/
def CNS.CMD : Reg := { off := 0x6040, perReq := true, fields := [CNS.CMD.OP, CNS.CMD.WHEN, CNS.CMD.ENTRY] }
def CNS.CDEP_LO.V : Fld := { off := 0x6044, lo := 0, wid := 32 }
/-- `CNS.CDEP_LO`, file 13 of the spec. -/
def CNS.CDEP_LO : Reg := { off := 0x6044, perReq := true, fields := [CNS.CDEP_LO.V] }
def CNS.CDEP_HI.V : Fld := { off := 0x6048, lo := 0, wid := 32 }
/-- `CNS.CDEP_HI`, file 13 of the spec. -/
def CNS.CDEP_HI : Reg := { off := 0x6048, perReq := true, fields := [CNS.CDEP_HI.V] }
def CNS.MYSTS.HAS : Fld := { off := 0x604C, lo := 31, wid := 1, acc := .ro }
def CNS.MYSTS.STATE : Fld := { off := 0x604C, lo := 28, wid := 3, acc := .ro }
def CNS.MYSTS.SLOT : Fld := { off := 0x604C, lo := 26, wid := 2, acc := .ro }
def CNS.MYSTS.COUNT : Fld := { off := 0x604C, lo := 16, wid := 10, acc := .ro }
def CNS.MYSTS.LAST : Fld := { off := 0x604C, lo := 12, wid := 4, acc := .ro }
/-- `CNS.MYSTS`, file 13 of the spec. -/
def CNS.MYSTS : Reg := { off := 0x604C, perReq := true, fields := [CNS.MYSTS.HAS, CNS.MYSTS.STATE, CNS.MYSTS.SLOT, CNS.MYSTS.COUNT, CNS.MYSTS.LAST] }
def CNS.KSTS.STATE : Fld := { off := 0x6050, lo := 29, wid := 3, acc := .ro }
def CNS.KSTS.WHEN : Fld := { off := 0x6050, lo := 27, wid := 2, acc := .ro }
def CNS.KSTS.BYPASS : Fld := { off := 0x6050, lo := 26, wid := 1, acc := .ro }
def CNS.KSTS.COUNT : Fld := { off := 0x6050, lo := 16, wid := 10, acc := .ro }
def CNS.KSTS.OWNER : Fld := { off := 0x6050, lo := 8, wid := 8, acc := .ro }
def CNS.KSTS.LAST : Fld := { off := 0x6050, lo := 4, wid := 4, acc := .ro }
/-- `CNS.KSTS`, file 13 of the spec. -/
def CNS.KSTS : Reg := { off := 0x6050, cnt := 4, stride := 4, fields := [CNS.KSTS.STATE, CNS.KSTS.WHEN, CNS.KSTS.BYPASS, CNS.KSTS.COUNT, CNS.KSTS.OWNER, CNS.KSTS.LAST] }
def CNS.KDEP.V : Fld := { off := 0x6060, lo := 0, wid := 32, acc := .ro }
/-- `CNS.KDEP`, file 13 of the spec. -/
def CNS.KDEP : Reg := { off := 0x6060, cnt := 4, stride := 4, fields := [CNS.KDEP.V] }
def CNS.BLK_ID.CODE : Fld := { off := 0x6000, lo := 24, wid := 8, acc := .ro }
def CNS.BLK_ID.INST : Fld := { off := 0x6000, lo := 16, wid := 8, acc := .ro }
def CNS.BLK_ID.LAYOUT : Fld := { off := 0x6000, lo := 8, wid := 8, acc := .ro, reset := 0x1 }
/-- `CNS.BLK_ID`, file 12 of the spec. -/
def CNS.BLK_ID : Reg := { off := 0x6000, fields := [CNS.BLK_ID.CODE, CNS.BLK_ID.INST, CNS.BLK_ID.LAYOUT] }
def CNS.BLK_VER.MAJOR : Fld := { off := 0x6004, lo := 24, wid := 8, acc := .ro, reset := 0x1 }
def CNS.BLK_VER.MINOR : Fld := { off := 0x6004, lo := 16, wid := 8, acc := .ro }
def CNS.BLK_VER.STEP : Fld := { off := 0x6004, lo := 8, wid := 8, acc := .ro, reset := 0xA1 }
/-- `CNS.BLK_VER`, file 12 of the spec. -/
def CNS.BLK_VER : Reg := { off := 0x6004, fields := [CNS.BLK_VER.MAJOR, CNS.BLK_VER.MINOR, CNS.BLK_VER.STEP] }
def CNS.ERR_CAP.VALID : Fld := { off := 0x601C, lo := 31, wid := 1, acc := .w1c }
def CNS.ERR_CAP.REASON : Fld := { off := 0x601C, lo := 27, wid := 4, acc := .ro }
def CNS.ERR_CAP.REQ : Fld := { off := 0x601C, lo := 19, wid := 8, acc := .ro }
def CNS.ERR_CAP.OFS : Fld := { off := 0x601C, lo := 0, wid := 12, acc := .ro }
/-- `CNS.ERR_CAP`, file 12 of the spec. -/
def CNS.ERR_CAP : Reg := { off := 0x601C, fields := [CNS.ERR_CAP.VALID, CNS.ERR_CAP.REASON, CNS.ERR_CAP.REQ, CNS.ERR_CAP.OFS] }
def CNS.ABORT.GO : Fld := { off := 0x6020, lo := 0, wid := 1, acc := .wo }
/-- `CNS.ABORT`, file 12 of the spec. -/
def CNS.ABORT : Reg := { off := 0x6020, fields := [CNS.ABORT.GO] }
def CNS.ABORT_STS.COUNT : Fld := { off := 0x6024, lo := 16, wid := 16, acc := .ro }
def CNS.ABORT_STS.BUSY : Fld := { off := 0x6024, lo := 1, wid := 1, acc := .ro }
def CNS.ABORT_STS.DONE : Fld := { off := 0x6024, lo := 0, wid := 1, acc := .w1c }
/-- `CNS.ABORT_STS`, file 12 of the spec. -/
def CNS.ABORT_STS : Reg := { off := 0x6024, fields := [CNS.ABORT_STS.COUNT, CNS.ABORT_STS.BUSY, CNS.ABORT_STS.DONE] }
def CNS.LOCK.SEAL : Fld := { off := 0x6028, lo := 31, wid := 1, acc := .w1s, role := .installer }
def CNS.LOCK.MYROLE : Fld := { off := 0x6028, lo := 16, wid := 2, acc := .ro }
def CNS.LOCK.MINROLE : Fld := { off := 0x6028, lo := 0, wid := 2, acc := .ro }
/-- `CNS.LOCK`, file 12 of the spec. -/
def CNS.LOCK : Reg := { off := 0x6028, fields := [CNS.LOCK.SEAL, CNS.LOCK.MYROLE, CNS.LOCK.MINROLE] }
def CNS.IRQ_EN.V : Fld := { off := 0x6014, lo := 0, wid := 32 }
/-- `CNS.IRQ_EN`, file 12 of the spec. -/
def CNS.IRQ_EN : Reg := { off := 0x6014, fields := [CNS.IRQ_EN.V] }
def CNS.IRQ_SET.V : Fld := { off := 0x6018, lo := 0, wid := 32, acc := .w1s, role := .maker }
/-- `CNS.IRQ_SET`, file 12 of the spec. -/
def CNS.IRQ_SET : Reg := { off := 0x6018, fields := [CNS.IRQ_SET.V] }
def CNS.CNT_EVT.HI : Fld := { off := 0x602C, lo := 16, wid := 16, acc := .ro }
def CNS.CNT_EVT.LO : Fld := { off := 0x602C, lo := 0, wid := 16, acc := .ro }
/-- `CNS.CNT_EVT`, file 12 of the spec. -/
def CNS.CNT_EVT : Reg := { off := 0x602C, fields := [CNS.CNT_EVT.HI, CNS.CNT_EVT.LO] }
/-- Every register of the CNS page. -/
def CNS.regs : List Reg :=
  [CNS.STS, CNS.IRQ_RAW, CNS.CMD, CNS.CDEP_LO, CNS.CDEP_HI, CNS.MYSTS, CNS.KSTS, CNS.KDEP, CNS.BLK_ID, CNS.BLK_VER, CNS.ERR_CAP, CNS.ABORT, CNS.ABORT_STS, CNS.LOCK, CNS.IRQ_EN, CNS.IRQ_SET, CNS.CNT_EVT]

/-! ### DSP, page base 0x8000 -/

def DSP.TICK.PERIOD : Fld := { off := 0x8040, lo := 0, wid := 15, reset := 0x190, bad := [(0, 99), (25601, 32767)] }
/-- `DSP.TICK`, file 01 of the spec. -/
def DSP.TICK : Reg := { off := 0x8040, fields := [DSP.TICK.PERIOD] }
def DSP.DEP_LO.V : Fld := { off := 0x8044, lo := 0, wid := 32, acc := .ro }
/-- `DSP.DEP_LO`, file 01 of the spec. -/
def DSP.DEP_LO : Reg := { off := 0x8044, fields := [DSP.DEP_LO.V] }
def DSP.DEP_HI.V : Fld := { off := 0x8048, lo := 0, wid := 32, acc := .ro }
/-- `DSP.DEP_HI`, file 01 of the spec. -/
def DSP.DEP_HI : Reg := { off := 0x8048, perReq := true, fields := [DSP.DEP_HI.V] }
def DSP.OVRCTL.ESC : Fld := { off := 0x804C, lo := 4, wid := 4, acc := .rwl, role := .installer, reset := 0x4 }
def DSP.OVRCTL.POLICY : Fld := { off := 0x804C, lo := 0, wid := 1, acc := .rwl, role := .installer }
/-- `DSP.OVRCTL`, file 01 of the spec. -/
def DSP.OVRCTL : Reg := { off := 0x804C, fields := [DSP.OVRCTL.ESC, DSP.OVRCTL.POLICY] }
def DSP.OVRCNT.DEFERRED : Fld := { off := 0x8050, lo := 16, wid := 16, acc := .ro }
def DSP.OVRCNT.OVERRUNS : Fld := { off := 0x8050, lo := 0, wid := 16, acc := .ro }
/-- `DSP.OVRCNT`, file 01 of the spec. -/
def DSP.OVRCNT : Reg := { off := 0x8050, fields := [DSP.OVRCNT.DEFERRED, DSP.OVRCNT.OVERRUNS] }
def DSP.OVRSTS.CAUSE_ME : Fld := { off := 0x8054, lo := 17, wid := 1, acc := .ro }
def DSP.OVRSTS.CAUSE_MOVE : Fld := { off := 0x8054, lo := 16, wid := 1, acc := .ro }
def DSP.OVRSTS.RUN_LEN : Fld := { off := 0x8054, lo := 0, wid := 16, acc := .ro }
/-- `DSP.OVRSTS`, file 01 of the spec. -/
def DSP.OVRSTS : Reg := { off := 0x8054, fields := [DSP.OVRSTS.CAUSE_ME, DSP.OVRSTS.CAUSE_MOVE, DSP.OVRSTS.RUN_LEN] }
def DSP.CTL.CHAINBRK : Fld := { off := 0x8008, lo := 1, wid := 1, reset := 0x1 }
def DSP.CTL.RUN : Fld := { off := 0x8008, lo := 0, wid := 1, reset := 0x1 }
/-- `DSP.CTL`, file 04 of the spec. -/
def DSP.CTL : Reg := { off := 0x8008, cons := 0x2, fields := [DSP.CTL.CHAINBRK, DSP.CTL.RUN] }
def DSP.STS.REPLACING : Fld := { off := 0x800C, lo := 3, wid := 1, acc := .ro }
def DSP.STS.FLUSHING : Fld := { off := 0x800C, lo := 2, wid := 1, acc := .ro }
def DSP.STS.CATCHUP : Fld := { off := 0x800C, lo := 1, wid := 1, acc := .ro }
def DSP.STS.MOVING : Fld := { off := 0x800C, lo := 0, wid := 1, acc := .ro }
/-- `DSP.STS`, file 04 of the spec. -/
def DSP.STS : Reg := { off := 0x800C, fields := [DSP.STS.REPLACING, DSP.STS.FLUSHING, DSP.STS.CATCHUP, DSP.STS.MOVING] }
def DSP.IRQ_RAW.LOW_FREE : Fld := { off := 0x8010, lo := 6, wid := 1, acc := .w1c }
def DSP.IRQ_RAW.INS_REJ : Fld := { off := 0x8010, lo := 5, wid := 1, acc := .w1c }
def DSP.IRQ_RAW.LINK_ERR : Fld := { off := 0x8010, lo := 4, wid := 1, acc := .w1c }
def DSP.IRQ_RAW.REFUSED : Fld := { off := 0x8010, lo := 3, wid := 1, acc := .w1c }
def DSP.IRQ_RAW.LATE : Fld := { off := 0x8010, lo := 2, wid := 1, acc := .w1c }
def DSP.IRQ_RAW.OVR_ESC : Fld := { off := 0x8010, lo := 1, wid := 1, acc := .w1c }
def DSP.IRQ_RAW.TICK_OVERRUN : Fld := { off := 0x8010, lo := 0, wid := 1, acc := .w1c }
/-- `DSP.IRQ_RAW`, file 04 of the spec. -/
def DSP.IRQ_RAW : Reg := { off := 0x8010, fields := [DSP.IRQ_RAW.LOW_FREE, DSP.IRQ_RAW.INS_REJ, DSP.IRQ_RAW.LINK_ERR, DSP.IRQ_RAW.REFUSED, DSP.IRQ_RAW.LATE, DSP.IRQ_RAW.OVR_ESC, DSP.IRQ_RAW.TICK_OVERRUN] }
def DSP.INS.V : Fld := { off := 0x8058, lo := 0, wid := 32 }
/-- `DSP.INS`, file 04 of the spec. -/
def DSP.INS : Reg := { off := 0x8058, cnt := 4, stride := 4, perReq := true, fields := [DSP.INS.V] }
def DSP.INSCTL.PARK : Fld := { off := 0x8068, lo := 0, wid := 1 }
/-- `DSP.INSCTL`, file 04 of the spec. -/
def DSP.INSCTL : Reg := { off := 0x8068, perReq := true, fields := [DSP.INSCTL.PARK] }
def DSP.INSRES.DONE : Fld := { off := 0x806C, lo := 31, wid := 1, acc := .ro, reset := 0x1 }
def DSP.INSRES.OK : Fld := { off := 0x806C, lo := 30, wid := 1, acc := .ro }
def DSP.INSRES.REASON : Fld := { off := 0x806C, lo := 24, wid := 4, acc := .ro }
def DSP.INSRES.INDEX : Fld := { off := 0x806C, lo := 0, wid := 14, acc := .ro }
/-- `DSP.INSRES`, file 04 of the spec. -/
def DSP.INSRES : Reg := { off := 0x806C, perReq := true, fields := [DSP.INSRES.DONE, DSP.INSRES.OK, DSP.INSRES.REASON, DSP.INSRES.INDEX] }
def DSP.CANCEL.CHAIN : Fld := { off := 0x8070, lo := 31, wid := 1, acc := .wo }
def DSP.CANCEL.INDEX : Fld := { off := 0x8070, lo := 0, wid := 14, acc := .wo }
/-- `DSP.CANCEL`, file 04 of the spec. -/
def DSP.CANCEL : Reg := { off := 0x8070, fields := [DSP.CANCEL.CHAIN, DSP.CANCEL.INDEX] }
def DSP.CANRES.DONE : Fld := { off := 0x8074, lo := 31, wid := 1, acc := .ro, reset := 0x1 }
def DSP.CANRES.RESULT : Fld := { off := 0x8074, lo := 28, wid := 3, acc := .ro, reset := 0x3 }
def DSP.CANRES.INDEX : Fld := { off := 0x8074, lo := 0, wid := 14, acc := .ro }
/-- `DSP.CANRES`, file 04 of the spec. -/
def DSP.CANRES : Reg := { off := 0x8074, perReq := true, fields := [DSP.CANRES.DONE, DSP.CANRES.RESULT, DSP.CANRES.INDEX] }
def DSP.LATEVEC.ENG : Fld := { off := 0x8078, lo := 13, wid := 3 }
def DSP.LATEVEC.ADDR : Fld := { off := 0x8078, lo := 0, wid := 13 }
/-- `DSP.LATEVEC`, file 04 of the spec. -/
def DSP.LATEVEC : Reg := { off := 0x8078, cons := 0xFFFF, fields := [DSP.LATEVEC.ENG, DSP.LATEVEC.ADDR] }
def DSP.BOOKS0.QUEUED : Fld := { off := 0x807C, lo := 16, wid := 15, acc := .ro }
def DSP.BOOKS0.FREE : Fld := { off := 0x807C, lo := 0, wid := 15, acc := .ro, reset := 0x4000 }
/-- `DSP.BOOKS0`, file 04 of the spec. -/
def DSP.BOOKS0 : Reg := { off := 0x807C, fields := [DSP.BOOKS0.QUEUED, DSP.BOOKS0.FREE] }
def DSP.BOOKS1.RETIRING : Fld := { off := 0x8080, lo := 16, wid := 15, acc := .ro }
def DSP.BOOKS1.ACTIVE : Fld := { off := 0x8080, lo := 0, wid := 15, acc := .ro }
/-- `DSP.BOOKS1`, file 04 of the spec. -/
def DSP.BOOKS1 : Reg := { off := 0x8080, perReq := true, fields := [DSP.BOOKS1.RETIRING, DSP.BOOKS1.ACTIVE] }
def DSP.LATECNT.SKIPPED : Fld := { off := 0x8084, lo := 16, wid := 16, acc := .ro }
def DSP.LATECNT.FIRED_LATE : Fld := { off := 0x8084, lo := 0, wid := 16, acc := .ro }
/-- `DSP.LATECNT`, file 04 of the spec. -/
def DSP.LATECNT : Reg := { off := 0x8084, fields := [DSP.LATECNT.SKIPPED, DSP.LATECNT.FIRED_LATE] }
def DSP.EVTCNT.REFUSED : Fld := { off := 0x8088, lo := 16, wid := 16, acc := .ro }
def DSP.EVTCNT.LATE_CALLS : Fld := { off := 0x8088, lo := 0, wid := 16, acc := .ro }
/-- `DSP.EVTCNT`, file 04 of the spec. -/
def DSP.EVTCNT : Reg := { off := 0x8088, fields := [DSP.EVTCNT.REFUSED, DSP.EVTCNT.LATE_CALLS] }
def DSP.LASTEVT.OUTCOME : Fld := { off := 0x808C, lo := 28, wid := 4, acc := .ro }
def DSP.LASTEVT.INDEX : Fld := { off := 0x808C, lo := 0, wid := 14, acc := .ro }
/-- `DSP.LASTEVT`, file 04 of the spec. -/
def DSP.LASTEVT : Reg := { off := 0x808C, fields := [DSP.LASTEVT.OUTCOME, DSP.LASTEVT.INDEX] }
def DSP.BKTQ.V : Fld := { off := 0x8090, lo := 0, wid := 32 }
/-- `DSP.BKTQ`, file 04 of the spec. -/
def DSP.BKTQ : Reg := { off := 0x8090, fields := [DSP.BKTQ.V] }
def DSP.SLOTQ.V : Fld := { off := 0x8094, lo := 0, wid := 32 }
/-- `DSP.SLOTQ`, file 04 of the spec. -/
def DSP.SLOTQ : Reg := { off := 0x8094, fields := [DSP.SLOTQ.V] }
def DSP.LOWFREE.V : Fld := { off := 0x8098, lo := 0, wid := 15, reset := 0x100 }
/-- `DSP.LOWFREE`, file 04 of the spec. -/
def DSP.LOWFREE : Reg := { off := 0x8098, cons := 0x7FFF, fields := [DSP.LOWFREE.V] }
def DSP.CMD.FLUSH : Fld := { off := 0x809C, lo := 0, wid := 1, acc := .wo }
/-- `DSP.CMD`, file 04 of the spec. -/
def DSP.CMD : Reg := { off := 0x809C, fields := [DSP.CMD.FLUSH] }
def DSP.BLK_ID.CODE : Fld := { off := 0x8000, lo := 24, wid := 8, acc := .ro }
def DSP.BLK_ID.INST : Fld := { off := 0x8000, lo := 16, wid := 8, acc := .ro }
def DSP.BLK_ID.LAYOUT : Fld := { off := 0x8000, lo := 8, wid := 8, acc := .ro, reset := 0x1 }
/-- `DSP.BLK_ID`, file 12 of the spec. -/
def DSP.BLK_ID : Reg := { off := 0x8000, fields := [DSP.BLK_ID.CODE, DSP.BLK_ID.INST, DSP.BLK_ID.LAYOUT] }
def DSP.BLK_VER.MAJOR : Fld := { off := 0x8004, lo := 24, wid := 8, acc := .ro, reset := 0x1 }
def DSP.BLK_VER.MINOR : Fld := { off := 0x8004, lo := 16, wid := 8, acc := .ro }
def DSP.BLK_VER.STEP : Fld := { off := 0x8004, lo := 8, wid := 8, acc := .ro, reset := 0xA1 }
/-- `DSP.BLK_VER`, file 12 of the spec. -/
def DSP.BLK_VER : Reg := { off := 0x8004, fields := [DSP.BLK_VER.MAJOR, DSP.BLK_VER.MINOR, DSP.BLK_VER.STEP] }
def DSP.ERR_CAP.VALID : Fld := { off := 0x801C, lo := 31, wid := 1, acc := .w1c }
def DSP.ERR_CAP.REASON : Fld := { off := 0x801C, lo := 27, wid := 4, acc := .ro }
def DSP.ERR_CAP.REQ : Fld := { off := 0x801C, lo := 19, wid := 8, acc := .ro }
def DSP.ERR_CAP.OFS : Fld := { off := 0x801C, lo := 0, wid := 12, acc := .ro }
/-- `DSP.ERR_CAP`, file 12 of the spec. -/
def DSP.ERR_CAP : Reg := { off := 0x801C, fields := [DSP.ERR_CAP.VALID, DSP.ERR_CAP.REASON, DSP.ERR_CAP.REQ, DSP.ERR_CAP.OFS] }
def DSP.ABORT.GO : Fld := { off := 0x8020, lo := 0, wid := 1, acc := .wo }
/-- `DSP.ABORT`, file 12 of the spec. -/
def DSP.ABORT : Reg := { off := 0x8020, fields := [DSP.ABORT.GO] }
def DSP.ABORT_STS.COUNT : Fld := { off := 0x8024, lo := 16, wid := 16, acc := .ro }
def DSP.ABORT_STS.BUSY : Fld := { off := 0x8024, lo := 1, wid := 1, acc := .ro }
def DSP.ABORT_STS.DONE : Fld := { off := 0x8024, lo := 0, wid := 1, acc := .w1c }
/-- `DSP.ABORT_STS`, file 12 of the spec. -/
def DSP.ABORT_STS : Reg := { off := 0x8024, fields := [DSP.ABORT_STS.COUNT, DSP.ABORT_STS.BUSY, DSP.ABORT_STS.DONE] }
def DSP.LOCK.SEAL : Fld := { off := 0x8028, lo := 31, wid := 1, acc := .w1s, role := .installer }
def DSP.LOCK.MYROLE : Fld := { off := 0x8028, lo := 16, wid := 2, acc := .ro }
def DSP.LOCK.MINROLE : Fld := { off := 0x8028, lo := 0, wid := 2, acc := .ro }
/-- `DSP.LOCK`, file 12 of the spec. -/
def DSP.LOCK : Reg := { off := 0x8028, fields := [DSP.LOCK.SEAL, DSP.LOCK.MYROLE, DSP.LOCK.MINROLE] }
def DSP.IRQ_EN.V : Fld := { off := 0x8014, lo := 0, wid := 32 }
/-- `DSP.IRQ_EN`, file 12 of the spec. -/
def DSP.IRQ_EN : Reg := { off := 0x8014, fields := [DSP.IRQ_EN.V] }
def DSP.IRQ_SET.V : Fld := { off := 0x8018, lo := 0, wid := 32, acc := .w1s, role := .maker }
/-- `DSP.IRQ_SET`, file 12 of the spec. -/
def DSP.IRQ_SET : Reg := { off := 0x8018, fields := [DSP.IRQ_SET.V] }
def DSP.CNT_EVT.HI : Fld := { off := 0x802C, lo := 16, wid := 16, acc := .ro }
def DSP.CNT_EVT.LO : Fld := { off := 0x802C, lo := 0, wid := 16, acc := .ro }
/-- `DSP.CNT_EVT`, file 12 of the spec. -/
def DSP.CNT_EVT : Reg := { off := 0x802C, fields := [DSP.CNT_EVT.HI, DSP.CNT_EVT.LO] }
/-- Every register of the DSP page. -/
def DSP.regs : List Reg :=
  [DSP.TICK, DSP.DEP_LO, DSP.DEP_HI, DSP.OVRCTL, DSP.OVRCNT, DSP.OVRSTS, DSP.CTL, DSP.STS, DSP.IRQ_RAW, DSP.INS, DSP.INSCTL, DSP.INSRES, DSP.CANCEL, DSP.CANRES, DSP.LATEVEC, DSP.BOOKS0, DSP.BOOKS1, DSP.LATECNT, DSP.EVTCNT, DSP.LASTEVT, DSP.BKTQ, DSP.SLOTQ, DSP.LOWFREE, DSP.CMD, DSP.BLK_ID, DSP.BLK_VER, DSP.ERR_CAP, DSP.ABORT, DSP.ABORT_STS, DSP.LOCK, DSP.IRQ_EN, DSP.IRQ_SET, DSP.CNT_EVT]

/-! ### TRK, page base 0x100000 -/

def TRK.MODE.AUTOARM : Fld := { off := 0x100040, lo := 7, wid := 1 }
def TRK.MODE.REC : Fld := { off := 0x100040, lo := 6, wid := 1, reset := 0x1 }
def TRK.MODE.EDGE : Fld := { off := 0x100040, lo := 4, wid := 2, reset := 0x3, bad := [(0, 0)] }
def TRK.MODE.CODE : Fld := { off := 0x100040, lo := 0, wid := 4 }
/-- `TRK.MODE`, file 03 of the spec. -/
def TRK.MODE : Reg := { off := 0x100040, cons := 0xFF, fields := [TRK.MODE.AUTOARM, TRK.MODE.REC, TRK.MODE.EDGE, TRK.MODE.CODE] }
def TRK.CMPA_LO.V : Fld := { off := 0x100050, lo := 0, wid := 32 }
/-- `TRK.CMPA_LO`, file 03 of the spec. -/
def TRK.CMPA_LO : Reg := { off := 0x100050, fields := [TRK.CMPA_LO.V] }
def TRK.CMPA_HI.V : Fld := { off := 0x100054, lo := 0, wid := 32 }
/-- `TRK.CMPA_HI`, file 03 of the spec. -/
def TRK.CMPA_HI : Reg := { off := 0x100054, fields := [TRK.CMPA_HI.V] }
def TRK.CMPB_LO.V : Fld := { off := 0x100058, lo := 0, wid := 32 }
/-- `TRK.CMPB_LO`, file 03 of the spec. -/
def TRK.CMPB_LO : Reg := { off := 0x100058, fields := [TRK.CMPB_LO.V] }
def TRK.CMPB_HI.V : Fld := { off := 0x10005C, lo := 0, wid := 32 }
/-- `TRK.CMPB_HI`, file 03 of the spec. -/
def TRK.CMPB_HI : Reg := { off := 0x10005C, fields := [TRK.CMPB_HI.V] }
def TRK.WIDTH.V : Fld := { off := 0x100060, lo := 0, wid := 30, reset := 0x80 }
/-- `TRK.WIDTH`, file 03 of the spec. -/
def TRK.WIDTH : Reg := { off := 0x100060, cons := 0x3FFFFFFF, fields := [TRK.WIDTH.V] }
def TRK.TPER.V : Fld := { off := 0x100064, lo := 0, wid := 30, reset := 0x100, bad := [(0, 255)] }
/-- `TRK.TPER`, file 03 of the spec. -/
def TRK.TPER : Reg := { off := 0x100064, cons := 0x3FFFFFFF, fields := [TRK.TPER.V] }
def TRK.TCNT.V : Fld := { off := 0x100068, lo := 0, wid := 16, reset := 0x1 }
/-- `TRK.TCNT`, file 03 of the spec. -/
def TRK.TCNT : Reg := { off := 0x100068, cons := 0xFFFF, fields := [TRK.TCNT.V] }
def TRK.TAG.V : Fld := { off := 0x10006C, lo := 0, wid := 32 }
/-- `TRK.TAG`, file 03 of the spec. -/
def TRK.TAG : Reg := { off := 0x10006C, cons := 0xFFFFFFFF, fields := [TRK.TAG.V] }
def TRK.LINKDLY.V : Fld := { off := 0x10007C, lo := 0, wid := 30, reset := 0x400 }
/-- `TRK.LINKDLY`, file 03 of the spec. -/
def TRK.LINKDLY : Reg := { off := 0x10007C, cons := 0x3FFFFFFF, fields := [TRK.LINKDLY.V] }
def TRK.CFG.CTX : Fld := { off := 0x100044, lo := 30, wid := 2, bad := [(2, 3)] }
def TRK.CFG.CTX_TT : Fld := { off := 0x100044, lo := 27, wid := 3 }
def TRK.CFG.DEST : Fld := { off := 0x100044, lo := 26, wid := 1 }
/-- `TRK.CFG`, file 03 of the spec. -/
def TRK.CFG : Reg := { off := 0x100044, cons := 0xFC000000, fields := [TRK.CFG.CTX, TRK.CFG.CTX_TT, TRK.CFG.DEST] }
def TRK.FSTS.SEQ : Fld := { off := 0x100074, lo := 16, wid := 16, acc := .ro }
def TRK.FSTS.LEVEL : Fld := { off := 0x100074, lo := 0, wid := 4, acc := .ro }
/-- `TRK.FSTS`, file 03 of the spec. -/
def TRK.FSTS : Reg := { off := 0x100074, fields := [TRK.FSTS.SEQ, TRK.FSTS.LEVEL] }
def TRK.POP.V : Fld := { off := 0x100080, lo := 0, wid := 32, acc := .ro }
/-- `TRK.POP`, file 03 of the spec. -/
def TRK.POP : Reg := { off := 0x100080, cnt := 4, stride := 4, perReq := true, fields := [TRK.POP.V] }
def TRK.CAPCNT.V : Fld := { off := 0x100090, lo := 0, wid := 16, acc := .ro }
/-- `TRK.CAPCNT`, file 03 of the spec. -/
def TRK.CAPCNT : Reg := { off := 0x100090, fields := [TRK.CAPCNT.V] }
def TRK.MEAS.V : Fld := { off := 0x100070, lo := 0, wid := 32, acc := .ro }
/-- `TRK.MEAS`, file 03 of the spec. -/
def TRK.MEAS : Reg := { off := 0x100070, fields := [TRK.MEAS.V] }
def TRK.LINK.SRC : Fld := { off := 0x100078, lo := 0, wid := 8, bad := [(80, 255)] }
/-- `TRK.LINK`, file 03 of the spec. -/
def TRK.LINK : Reg := { off := 0x100078, cons := 0xFF, fields := [TRK.LINK.SRC] }
def TRK.OWN.CLAIM : Fld := { off := 0x100048, lo := 31, wid := 1, acc := .wo }
def TRK.OWN.RELEASE : Fld := { off := 0x100048, lo := 30, wid := 1, acc := .wo }
def TRK.OWN.HROLE : Fld := { off := 0x100048, lo := 16, wid := 2, acc := .ro }
def TRK.OWN.HOLDER : Fld := { off := 0x100048, lo := 8, wid := 8, acc := .ro }
/-- `TRK.OWN`, file 03 of the spec. -/
def TRK.OWN : Reg := { off := 0x100048, fields := [TRK.OWN.CLAIM, TRK.OWN.RELEASE, TRK.OWN.HROLE, TRK.OWN.HOLDER] }
def TRK.INSEL.EN : Fld := { off := 0x10004C, lo := 31, wid := 1 }
def TRK.INSEL.LINE : Fld := { off := 0x10004C, lo := 0, wid := 7 }
/-- `TRK.INSEL`, file 03 of the spec. -/
def TRK.INSEL : Reg := { off := 0x10004C, cons := 0x8000007F, fields := [TRK.INSEL.EN, TRK.INSEL.LINE] }
def TRK.CTL.FTHR : Fld := { off := 0x100008, lo := 0, wid := 4, reset := 0x1, bad := [(0, 0), (9, 15)] }
/-- `TRK.CTL`, file 03 of the spec. -/
def TRK.CTL : Reg := { off := 0x100008, cons := 0xF, fields := [TRK.CTL.FTHR] }
def TRK.STS.TRAIN_RUN : Fld := { off := 0x10000C, lo := 7, wid := 1, acc := .ro }
def TRK.STS.ACTIVE_LVL : Fld := { off := 0x10000C, lo := 6, wid := 1, acc := .ro }
def TRK.STS.ARMED : Fld := { off := 0x10000C, lo := 5, wid := 1, acc := .ro }
def TRK.STS.STOP_LD : Fld := { off := 0x10000C, lo := 4, wid := 1, acc := .ro }
def TRK.STS.B_SHD : Fld := { off := 0x10000C, lo := 3, wid := 1, acc := .ro }
def TRK.STS.B_ACT : Fld := { off := 0x10000C, lo := 2, wid := 1, acc := .ro }
def TRK.STS.A_SHD : Fld := { off := 0x10000C, lo := 1, wid := 1, acc := .ro }
def TRK.STS.A_ACT : Fld := { off := 0x10000C, lo := 0, wid := 1, acc := .ro }
/-- `TRK.STS`, file 03 of the spec. -/
def TRK.STS : Reg := { off := 0x10000C, fields := [TRK.STS.TRAIN_RUN, TRK.STS.ACTIVE_LVL, TRK.STS.ARMED, TRK.STS.STOP_LD, TRK.STS.B_SHD, TRK.STS.B_ACT, TRK.STS.A_SHD, TRK.STS.A_ACT] }
def TRK.IRQ_RAW.MEAS_OVF : Fld := { off := 0x100010, lo := 7, wid := 1, acc := .w1c }
def TRK.IRQ_RAW.OWNER_REJ : Fld := { off := 0x100010, lo := 6, wid := 1, acc := .w1c }
def TRK.IRQ_RAW.DONE : Fld := { off := 0x100010, lo := 5, wid := 1, acc := .w1c }
def TRK.IRQ_RAW.CLAMP : Fld := { off := 0x100010, lo := 4, wid := 1, acc := .w1c }
def TRK.IRQ_RAW.MISSED : Fld := { off := 0x100010, lo := 3, wid := 1, acc := .w1c }
def TRK.IRQ_RAW.LOAD_REJ : Fld := { off := 0x100010, lo := 2, wid := 1, acc := .w1c }
def TRK.IRQ_RAW.OVERFLOW : Fld := { off := 0x100010, lo := 1, wid := 1, acc := .w1c }
def TRK.IRQ_RAW.FIFO_THR : Fld := { off := 0x100010, lo := 0, wid := 1, acc := .w1c }
/-- `TRK.IRQ_RAW`, file 03 of the spec. -/
def TRK.IRQ_RAW : Reg := { off := 0x100010, fields := [TRK.IRQ_RAW.MEAS_OVF, TRK.IRQ_RAW.OWNER_REJ, TRK.IRQ_RAW.DONE, TRK.IRQ_RAW.CLAMP, TRK.IRQ_RAW.MISSED, TRK.IRQ_RAW.LOAD_REJ, TRK.IRQ_RAW.OVERFLOW, TRK.IRQ_RAW.FIFO_THR] }
def TRK.BLK_ID.CODE : Fld := { off := 0x100000, lo := 24, wid := 8, acc := .ro }
def TRK.BLK_ID.INST : Fld := { off := 0x100000, lo := 16, wid := 8, acc := .ro }
def TRK.BLK_ID.LAYOUT : Fld := { off := 0x100000, lo := 8, wid := 8, acc := .ro, reset := 0x1 }
/-- `TRK.BLK_ID`, file 12 of the spec. -/
def TRK.BLK_ID : Reg := { off := 0x100000, fields := [TRK.BLK_ID.CODE, TRK.BLK_ID.INST, TRK.BLK_ID.LAYOUT] }
def TRK.BLK_VER.MAJOR : Fld := { off := 0x100004, lo := 24, wid := 8, acc := .ro, reset := 0x1 }
def TRK.BLK_VER.MINOR : Fld := { off := 0x100004, lo := 16, wid := 8, acc := .ro }
def TRK.BLK_VER.STEP : Fld := { off := 0x100004, lo := 8, wid := 8, acc := .ro, reset := 0xA1 }
/-- `TRK.BLK_VER`, file 12 of the spec. -/
def TRK.BLK_VER : Reg := { off := 0x100004, fields := [TRK.BLK_VER.MAJOR, TRK.BLK_VER.MINOR, TRK.BLK_VER.STEP] }
def TRK.ERR_CAP.VALID : Fld := { off := 0x10001C, lo := 31, wid := 1, acc := .w1c }
def TRK.ERR_CAP.REASON : Fld := { off := 0x10001C, lo := 27, wid := 4, acc := .ro }
def TRK.ERR_CAP.REQ : Fld := { off := 0x10001C, lo := 19, wid := 8, acc := .ro }
def TRK.ERR_CAP.OFS : Fld := { off := 0x10001C, lo := 0, wid := 12, acc := .ro }
/-- `TRK.ERR_CAP`, file 12 of the spec. -/
def TRK.ERR_CAP : Reg := { off := 0x10001C, fields := [TRK.ERR_CAP.VALID, TRK.ERR_CAP.REASON, TRK.ERR_CAP.REQ, TRK.ERR_CAP.OFS] }
def TRK.ABORT.GO : Fld := { off := 0x100020, lo := 0, wid := 1, acc := .wo }
/-- `TRK.ABORT`, file 12 of the spec. -/
def TRK.ABORT : Reg := { off := 0x100020, fields := [TRK.ABORT.GO] }
def TRK.ABORT_STS.COUNT : Fld := { off := 0x100024, lo := 16, wid := 16, acc := .ro }
def TRK.ABORT_STS.BUSY : Fld := { off := 0x100024, lo := 1, wid := 1, acc := .ro }
def TRK.ABORT_STS.DONE : Fld := { off := 0x100024, lo := 0, wid := 1, acc := .w1c }
/-- `TRK.ABORT_STS`, file 12 of the spec. -/
def TRK.ABORT_STS : Reg := { off := 0x100024, fields := [TRK.ABORT_STS.COUNT, TRK.ABORT_STS.BUSY, TRK.ABORT_STS.DONE] }
def TRK.LOCK.SEAL : Fld := { off := 0x100028, lo := 31, wid := 1, acc := .w1s, role := .installer }
def TRK.LOCK.MYROLE : Fld := { off := 0x100028, lo := 16, wid := 2, acc := .ro }
def TRK.LOCK.MINROLE : Fld := { off := 0x100028, lo := 0, wid := 2, acc := .ro }
/-- `TRK.LOCK`, file 12 of the spec. -/
def TRK.LOCK : Reg := { off := 0x100028, fields := [TRK.LOCK.SEAL, TRK.LOCK.MYROLE, TRK.LOCK.MINROLE] }
def TRK.IRQ_EN.V : Fld := { off := 0x100014, lo := 0, wid := 32 }
/-- `TRK.IRQ_EN`, file 12 of the spec. -/
def TRK.IRQ_EN : Reg := { off := 0x100014, fields := [TRK.IRQ_EN.V] }
def TRK.IRQ_SET.V : Fld := { off := 0x100018, lo := 0, wid := 32, acc := .w1s, role := .maker }
/-- `TRK.IRQ_SET`, file 12 of the spec. -/
def TRK.IRQ_SET : Reg := { off := 0x100018, fields := [TRK.IRQ_SET.V] }
def TRK.CNT_EVT.HI : Fld := { off := 0x10002C, lo := 16, wid := 16, acc := .ro }
def TRK.CNT_EVT.LO : Fld := { off := 0x10002C, lo := 0, wid := 16, acc := .ro }
/-- `TRK.CNT_EVT`, file 12 of the spec. -/
def TRK.CNT_EVT : Reg := { off := 0x10002C, fields := [TRK.CNT_EVT.HI, TRK.CNT_EVT.LO] }
/-- Every register of the TRK page. -/
def TRK.regs : List Reg :=
  [TRK.MODE, TRK.CMPA_LO, TRK.CMPA_HI, TRK.CMPB_LO, TRK.CMPB_HI, TRK.WIDTH, TRK.TPER, TRK.TCNT, TRK.TAG, TRK.LINKDLY, TRK.CFG, TRK.FSTS, TRK.POP, TRK.CAPCNT, TRK.MEAS, TRK.LINK, TRK.OWN, TRK.INSEL, TRK.CTL, TRK.STS, TRK.IRQ_RAW, TRK.BLK_ID, TRK.BLK_VER, TRK.ERR_CAP, TRK.ABORT, TRK.ABORT_STS, TRK.LOCK, TRK.IRQ_EN, TRK.IRQ_SET, TRK.CNT_EVT]

/-! ### JNC, page base 0x120000 -/

def JNC.BANK.LVDS : Fld := { off := 0x120040, lo := 2, wid := 1, acc := .rwl, role := .installer }
def JNC.BANK.TERM : Fld := { off := 0x120040, lo := 1, wid := 1, acc := .rwl, role := .installer }
def JNC.BANK.VSEL : Fld := { off := 0x120040, lo := 0, wid := 1, acc := .rwl, role := .installer, reset := 0x1 }
/-- `JNC.BANK`, file 03 of the spec. -/
def JNC.BANK : Reg := { off := 0x120040, cnt := 8, stride := 4, fields := [JNC.BANK.LVDS, JNC.BANK.TERM, JNC.BANK.VSEL] }
def JNC.BANKSTS.MEAS33 : Fld := { off := 0x120060, lo := 8, wid := 8, acc := .ro }
def JNC.BANKSTS.VOK : Fld := { off := 0x120060, lo := 0, wid := 8, acc := .ro }
/-- `JNC.BANKSTS`, file 03 of the spec. -/
def JNC.BANKSTS : Reg := { off := 0x120060, fields := [JNC.BANKSTS.MEAS33, JNC.BANKSTS.VOK] }
def JNC.LN_CFG.SRC : Fld := { off := 0x120800, lo := 16, wid := 10, acc := .rwl, role := .installer }
def JNC.LN_CFG.IDLE : Fld := { off := 0x120800, lo := 14, wid := 2, acc := .rwl, role := .installer, reset := 0x2, bad := [(3, 3)] }
def JNC.LN_CFG.SAFE : Fld := { off := 0x120800, lo := 12, wid := 2, acc := .rwl, role := .installer, reset := 0x2, bad := [(3, 3)] }
def JNC.LN_CFG.PULL : Fld := { off := 0x120800, lo := 10, wid := 2, acc := .rwl, role := .installer, reset := 0x1 }
def JNC.LN_CFG.DRV : Fld := { off := 0x120800, lo := 8, wid := 2, acc := .rwl, role := .installer, reset := 0x1 }
def JNC.LN_CFG.SLEW : Fld := { off := 0x120800, lo := 7, wid := 1, acc := .rwl, role := .installer, reset := 0x1 }
def JNC.LN_CFG.OD : Fld := { off := 0x120800, lo := 6, wid := 1, acc := .rwl, role := .installer }
def JNC.LN_CFG.INV : Fld := { off := 0x120800, lo := 5, wid := 1, acc := .rwl, role := .installer }
/-- `JNC.LN_CFG`, file 03 of the spec. -/
def JNC.LN_CFG : Reg := { off := 0x120800, cnt := 128, stride := 16, cons := 0x3FFFFE0, fields := [JNC.LN_CFG.SRC, JNC.LN_CFG.IDLE, JNC.LN_CFG.SAFE, JNC.LN_CFG.PULL, JNC.LN_CFG.DRV, JNC.LN_CFG.SLEW, JNC.LN_CFG.OD, JNC.LN_CFG.INV] }
def JNC.LN_TRIM.TRIM : Fld := { off := 0x120804, lo := 0, wid := 10, acc := .rwl, role := .installer, bad := [(257, 767)] }
/-- `JNC.LN_TRIM`, file 03 of the spec. -/
def JNC.LN_TRIM : Reg := { off := 0x120804, cnt := 128, stride := 16, cons := 0x3FF, fields := [JNC.LN_TRIM.TRIM] }
def JNC.LN_STS.CLAIMANT : Fld := { off := 0x120808, lo := 24, wid := 8, acc := .ro }
def JNC.LN_STS.CROLE : Fld := { off := 0x120808, lo := 22, wid := 2, acc := .ro }
def JNC.LN_STS.NCONS : Fld := { off := 0x120808, lo := 16, wid := 3, acc := .ro }
def JNC.LN_STS.VOK : Fld := { off := 0x120808, lo := 2, wid := 1, acc := .ro }
def JNC.LN_STS.DRIVING : Fld := { off := 0x120808, lo := 1, wid := 1, acc := .ro }
def JNC.LN_STS.LEVEL : Fld := { off := 0x120808, lo := 0, wid := 1, acc := .ro }
/-- `JNC.LN_STS`, file 03 of the spec. -/
def JNC.LN_STS : Reg := { off := 0x120808, cnt := 128, stride := 16, fields := [JNC.LN_STS.CLAIMANT, JNC.LN_STS.CROLE, JNC.LN_STS.NCONS, JNC.LN_STS.VOK, JNC.LN_STS.DRIVING, JNC.LN_STS.LEVEL] }
def JNC.CONFCAP0.KIND : Fld := { off := 0x120070, lo := 28, wid := 4, acc := .ro }
def JNC.CONFCAP0.INDEX : Fld := { off := 0x120070, lo := 18, wid := 10, acc := .ro }
def JNC.CONFCAP0.ROLE : Fld := { off := 0x120070, lo := 16, wid := 2, acc := .ro }
def JNC.CONFCAP0.CLAIMANT : Fld := { off := 0x120070, lo := 8, wid := 8, acc := .ro }
def JNC.CONFCAP0.HOLDER : Fld := { off := 0x120070, lo := 0, wid := 8, acc := .ro }
/-- `JNC.CONFCAP0`, file 03 of the spec. -/
def JNC.CONFCAP0 : Reg := { off := 0x120070, fields := [JNC.CONFCAP0.KIND, JNC.CONFCAP0.INDEX, JNC.CONFCAP0.ROLE, JNC.CONFCAP0.CLAIMANT, JNC.CONFCAP0.HOLDER] }
def JNC.CONFCAP1.HELD_SRC : Fld := { off := 0x120074, lo := 16, wid := 10, acc := .ro }
def JNC.CONFCAP1.REQ_SRC : Fld := { off := 0x120074, lo := 0, wid := 10, acc := .ro }
/-- `JNC.CONFCAP1`, file 03 of the spec. -/
def JNC.CONFCAP1 : Reg := { off := 0x120074, fields := [JNC.CONFCAP1.HELD_SRC, JNC.CONFCAP1.REQ_SRC] }
def JNC.CONFCAP2.DEP : Fld := { off := 0x120078, lo := 0, wid := 32, acc := .ro }
/-- `JNC.CONFCAP2`, file 03 of the spec. -/
def JNC.CONFCAP2 : Reg := { off := 0x120078, fields := [JNC.CONFCAP2.DEP] }
def JNC.RELEASE.KIND : Fld := { off := 0x12007C, lo := 28, wid := 4, acc := .wo, bad := [(1, 1)] }
def JNC.RELEASE.INDEX : Fld := { off := 0x12007C, lo := 18, wid := 10, acc := .wo }
/-- `JNC.RELEASE`, file 03 of the spec. -/
def JNC.RELEASE : Reg := { off := 0x12007C, fields := [JNC.RELEASE.KIND, JNC.RELEASE.INDEX] }
def JNC.IRQ_RAW.BANK_FAULT : Fld := { off := 0x120010, lo := 2, wid := 1, acc := .w1c }
def JNC.IRQ_RAW.FANOUT : Fld := { off := 0x120010, lo := 1, wid := 1, acc := .w1c }
def JNC.IRQ_RAW.CONFLICT : Fld := { off := 0x120010, lo := 0, wid := 1, acc := .w1c }
/-- `JNC.IRQ_RAW`, file 03 of the spec. -/
def JNC.IRQ_RAW : Reg := { off := 0x120010, fields := [JNC.IRQ_RAW.BANK_FAULT, JNC.IRQ_RAW.FANOUT, JNC.IRQ_RAW.CONFLICT] }
def JNC.STS.BANK_OK : Fld := { off := 0x12000C, lo := 0, wid := 8, acc := .ro }
/-- `JNC.STS`, file 03 of the spec. -/
def JNC.STS : Reg := { off := 0x12000C, fields := [JNC.STS.BANK_OK] }
def JNC.BLK_ID.CODE : Fld := { off := 0x120000, lo := 24, wid := 8, acc := .ro }
def JNC.BLK_ID.INST : Fld := { off := 0x120000, lo := 16, wid := 8, acc := .ro }
def JNC.BLK_ID.LAYOUT : Fld := { off := 0x120000, lo := 8, wid := 8, acc := .ro, reset := 0x1 }
/-- `JNC.BLK_ID`, file 12 of the spec. -/
def JNC.BLK_ID : Reg := { off := 0x120000, fields := [JNC.BLK_ID.CODE, JNC.BLK_ID.INST, JNC.BLK_ID.LAYOUT] }
def JNC.BLK_VER.MAJOR : Fld := { off := 0x120004, lo := 24, wid := 8, acc := .ro, reset := 0x1 }
def JNC.BLK_VER.MINOR : Fld := { off := 0x120004, lo := 16, wid := 8, acc := .ro }
def JNC.BLK_VER.STEP : Fld := { off := 0x120004, lo := 8, wid := 8, acc := .ro, reset := 0xA1 }
/-- `JNC.BLK_VER`, file 12 of the spec. -/
def JNC.BLK_VER : Reg := { off := 0x120004, fields := [JNC.BLK_VER.MAJOR, JNC.BLK_VER.MINOR, JNC.BLK_VER.STEP] }
def JNC.ERR_CAP.VALID : Fld := { off := 0x12001C, lo := 31, wid := 1, acc := .w1c }
def JNC.ERR_CAP.REASON : Fld := { off := 0x12001C, lo := 27, wid := 4, acc := .ro }
def JNC.ERR_CAP.REQ : Fld := { off := 0x12001C, lo := 19, wid := 8, acc := .ro }
def JNC.ERR_CAP.OFS : Fld := { off := 0x12001C, lo := 0, wid := 12, acc := .ro }
/-- `JNC.ERR_CAP`, file 12 of the spec. -/
def JNC.ERR_CAP : Reg := { off := 0x12001C, fields := [JNC.ERR_CAP.VALID, JNC.ERR_CAP.REASON, JNC.ERR_CAP.REQ, JNC.ERR_CAP.OFS] }
def JNC.ABORT.GO : Fld := { off := 0x120020, lo := 0, wid := 1, acc := .wo }
/-- `JNC.ABORT`, file 12 of the spec. -/
def JNC.ABORT : Reg := { off := 0x120020, fields := [JNC.ABORT.GO] }
def JNC.ABORT_STS.COUNT : Fld := { off := 0x120024, lo := 16, wid := 16, acc := .ro }
def JNC.ABORT_STS.BUSY : Fld := { off := 0x120024, lo := 1, wid := 1, acc := .ro }
def JNC.ABORT_STS.DONE : Fld := { off := 0x120024, lo := 0, wid := 1, acc := .w1c }
/-- `JNC.ABORT_STS`, file 12 of the spec. -/
def JNC.ABORT_STS : Reg := { off := 0x120024, fields := [JNC.ABORT_STS.COUNT, JNC.ABORT_STS.BUSY, JNC.ABORT_STS.DONE] }
def JNC.LOCK.SEAL : Fld := { off := 0x120028, lo := 31, wid := 1, acc := .w1s, role := .installer }
def JNC.LOCK.MYROLE : Fld := { off := 0x120028, lo := 16, wid := 2, acc := .ro }
def JNC.LOCK.MINROLE : Fld := { off := 0x120028, lo := 0, wid := 2, acc := .ro }
/-- `JNC.LOCK`, file 12 of the spec. -/
def JNC.LOCK : Reg := { off := 0x120028, fields := [JNC.LOCK.SEAL, JNC.LOCK.MYROLE, JNC.LOCK.MINROLE] }
def JNC.IRQ_EN.V : Fld := { off := 0x120014, lo := 0, wid := 32 }
/-- `JNC.IRQ_EN`, file 12 of the spec. -/
def JNC.IRQ_EN : Reg := { off := 0x120014, fields := [JNC.IRQ_EN.V] }
def JNC.IRQ_SET.V : Fld := { off := 0x120018, lo := 0, wid := 32, acc := .w1s, role := .maker }
/-- `JNC.IRQ_SET`, file 12 of the spec. -/
def JNC.IRQ_SET : Reg := { off := 0x120018, fields := [JNC.IRQ_SET.V] }
def JNC.CNT_EVT.HI : Fld := { off := 0x12002C, lo := 16, wid := 16, acc := .ro }
def JNC.CNT_EVT.LO : Fld := { off := 0x12002C, lo := 0, wid := 16, acc := .ro }
/-- `JNC.CNT_EVT`, file 12 of the spec. -/
def JNC.CNT_EVT : Reg := { off := 0x12002C, fields := [JNC.CNT_EVT.HI, JNC.CNT_EVT.LO] }
/-- Every register of the JNC page. -/
def JNC.regs : List Reg :=
  [JNC.BANK, JNC.BANKSTS, JNC.LN_CFG, JNC.LN_TRIM, JNC.LN_STS, JNC.CONFCAP0, JNC.CONFCAP1, JNC.CONFCAP2, JNC.RELEASE, JNC.IRQ_RAW, JNC.STS, JNC.BLK_ID, JNC.BLK_VER, JNC.ERR_CAP, JNC.ABORT, JNC.ABORT_STS, JNC.LOCK, JNC.IRQ_EN, JNC.IRQ_SET, JNC.CNT_EVT]

/-! ### TTN, page base 0x130000 -/

def TTN.INSEL.DIR_EN : Fld := { off := 0x130040, lo := 31, wid := 1 }
def TTN.INSEL.DIR_LINE : Fld := { off := 0x130040, lo := 24, wid := 7 }
def TTN.INSEL.GAP_EN : Fld := { off := 0x130040, lo := 23, wid := 1 }
def TTN.INSEL.GAP_LINE : Fld := { off := 0x130040, lo := 16, wid := 7 }
def TTN.INSEL.IDX_EN : Fld := { off := 0x130040, lo := 15, wid := 1 }
def TTN.INSEL.IDX_LINE : Fld := { off := 0x130040, lo := 8, wid := 7 }
def TTN.INSEL.TOOTH_LINE : Fld := { off := 0x130040, lo := 0, wid := 7 }
/-- `TTN.INSEL`, file 05 of the spec. -/
def TTN.INSEL : Reg := { off := 0x130040, fields := [TTN.INSEL.DIR_EN, TTN.INSEL.DIR_LINE, TTN.INSEL.GAP_EN, TTN.INSEL.GAP_LINE, TTN.INSEL.IDX_EN, TTN.INSEL.IDX_LINE, TTN.INSEL.TOOTH_LINE] }
def TTN.INCFG.SYNCSRC : Fld := { off := 0x130044, lo := 4, wid := 2, bad := [(3, 3)] }
def TTN.INCFG.DPOL : Fld := { off := 0x130044, lo := 3, wid := 1 }
def TTN.INCFG.GPOL : Fld := { off := 0x130044, lo := 2, wid := 1 }
def TTN.INCFG.IPOL : Fld := { off := 0x130044, lo := 1, wid := 1 }
def TTN.INCFG.TPOL : Fld := { off := 0x130044, lo := 0, wid := 1 }
/-- `TTN.INCFG`, file 05 of the spec. -/
def TTN.INCFG : Reg := { off := 0x130044, fields := [TTN.INCFG.SYNCSRC, TTN.INCFG.DPOL, TTN.INCFG.GPOL, TTN.INCFG.IPOL, TTN.INCFG.TPOL] }
def TTN.TEETH.IDXT : Fld := { off := 0x130048, lo := 16, wid := 12 }
def TTN.TEETH.NT : Fld := { off := 0x130048, lo := 0, wid := 13, reset := 0x400, bad := [(0, 7), (4097, 8191)] }
/-- `TTN.TEETH`, file 05 of the spec. -/
def TTN.TEETH : Reg := { off := 0x130048, fields := [TTN.TEETH.IDXT, TTN.TEETH.NT] }
def TTN.GAP.EN : Fld := { off := 0x13004C, lo := 15, wid := 1 }
def TTN.GAP.LEN : Fld := { off := 0x13004C, lo := 12, wid := 2, reset := 0x1 }
def TTN.GAP.POS : Fld := { off := 0x13004C, lo := 0, wid := 12 }
/-- `TTN.GAP`, file 05 of the spec. -/
def TTN.GAP : Reg := { off := 0x13004C, cnt := 3, stride := 4, fields := [TTN.GAP.EN, TTN.GAP.LEN, TTN.GAP.POS] }
def TTN.NOISE.MINP : Fld := { off := 0x13005C, lo := 0, wid := 16, reset := 0xC8, bad := [(0, 199)] }
/-- `TTN.NOISE`, file 05 of the spec. -/
def TTN.NOISE : Reg := { off := 0x13005C, fields := [TTN.NOISE.MINP] }
def TTN.REVOFS.V : Fld := { off := 0x130060, lo := 0, wid := 16 }
/-- `TTN.REVOFS`, file 05 of the spec. -/
def TTN.REVOFS : Reg := { off := 0x130060, fields := [TTN.REVOFS.V] }
def TTN.RESTORE.VALID : Fld := { off := 0x130084, lo := 31, wid := 1 }
def TTN.RESTORE.TOOTH : Fld := { off := 0x130084, lo := 0, wid := 12 }
/-- `TTN.RESTORE`, file 05 of the spec. -/
def TTN.RESTORE : Reg := { off := 0x130084, fields := [TTN.RESTORE.VALID, TTN.RESTORE.TOOTH] }
def TTN.RESTREV.V : Fld := { off := 0x130088, lo := 0, wid := 32 }
/-- `TTN.RESTREV`, file 05 of the spec. -/
def TTN.RESTREV : Reg := { off := 0x130088, fields := [TTN.RESTREV.V] }
def TTN.KS_ANGLE.STOP_CLEAN : Fld := { off := 0x1300F0, lo := 31, wid := 1, acc := .ro }
def TTN.KS_ANGLE.DIR : Fld := { off := 0x1300F0, lo := 30, wid := 1, acc := .ro }
def TTN.KS_ANGLE.ANGLE : Fld := { off := 0x1300F0, lo := 0, wid := 24, acc := .ro }
/-- `TTN.KS_ANGLE`, file 05 of the spec. -/
def TTN.KS_ANGLE : Reg := { off := 0x1300F0, fields := [TTN.KS_ANGLE.STOP_CLEAN, TTN.KS_ANGLE.DIR, TTN.KS_ANGLE.ANGLE] }
def TTN.KS_TOOTH.NT : Fld := { off := 0x1300F4, lo := 16, wid := 13, acc := .ro }
def TTN.KS_TOOTH.TOOTH : Fld := { off := 0x1300F4, lo := 0, wid := 12, acc := .ro }
/-- `TTN.KS_TOOTH`, file 05 of the spec. -/
def TTN.KS_TOOTH : Reg := { off := 0x1300F4, fields := [TTN.KS_TOOTH.NT, TTN.KS_TOOTH.TOOTH] }
def TTN.KS_REV.V : Fld := { off := 0x1300F8, lo := 0, wid := 32, acc := .ro }
/-- `TTN.KS_REV`, file 05 of the spec. -/
def TTN.KS_REV : Reg := { off := 0x1300F8, fields := [TTN.KS_REV.V] }
def TTN.ANGLE.V : Fld := { off := 0x130064, lo := 0, wid := 24, acc := .ro }
/-- `TTN.ANGLE`, file 05 of the spec. -/
def TTN.ANGLE : Reg := { off := 0x130064, fields := [TTN.ANGLE.V] }
def TTN.REV.V : Fld := { off := 0x130068, lo := 0, wid := 32, acc := .ro }
/-- `TTN.REV`, file 05 of the spec. -/
def TTN.REV : Reg := { off := 0x130068, perReq := true, fields := [TTN.REV.V] }
def TTN.TOOTH.DIR : Fld := { off := 0x13006C, lo := 12, wid := 1, acc := .ro }
def TTN.TOOTH.INDEX : Fld := { off := 0x13006C, lo := 0, wid := 12, acc := .ro }
/-- `TTN.TOOTH`, file 05 of the spec. -/
def TTN.TOOTH : Reg := { off := 0x13006C, perReq := true, fields := [TTN.TOOTH.DIR, TTN.TOOTH.INDEX] }
def TTN.TSTAMP_LO.V : Fld := { off := 0x130070, lo := 0, wid := 32, acc := .ro }
/-- `TTN.TSTAMP_LO`, file 05 of the spec. -/
def TTN.TSTAMP_LO : Reg := { off := 0x130070, fields := [TTN.TSTAMP_LO.V] }
def TTN.TSTAMP_HI.V : Fld := { off := 0x130074, lo := 0, wid := 32, acc := .ro }
/-- `TTN.TSTAMP_HI`, file 05 of the spec. -/
def TTN.TSTAMP_HI : Reg := { off := 0x130074, perReq := true, fields := [TTN.TSTAMP_HI.V] }
def TTN.OMEGA.V : Fld := { off := 0x130078, lo := 0, wid := 32, acc := .ro }
/-- `TTN.OMEGA`, file 05 of the spec. -/
def TTN.OMEGA : Reg := { off := 0x130078, fields := [TTN.OMEGA.V] }
def TTN.ACCEL.V : Fld := { off := 0x13007C, lo := 0, wid := 32, acc := .ro }
/-- `TTN.ACCEL`, file 05 of the spec. -/
def TTN.ACCEL : Reg := { off := 0x13007C, fields := [TTN.ACCEL.V] }
def TTN.PPER.V : Fld := { off := 0x130080, lo := 0, wid := 32, acc := .ro }
/-- `TTN.PPER`, file 05 of the spec. -/
def TTN.PPER : Reg := { off := 0x130080, fields := [TTN.PPER.V] }
def TTN.PRED.CANCEL_ON_STALL : Fld := { off := 0x130058, lo := 23, wid := 1 }
def TTN.PRED.BIDIR : Fld := { off := 0x130058, lo := 22, wid := 1 }
def TTN.PRED.ADV : Fld := { off := 0x130058, lo := 18, wid := 4 }
def TTN.PRED.STALLK : Fld := { off := 0x130058, lo := 14, wid := 4, reset := 0x7, bad := [(0, 0)] }
def TTN.PRED.SURGE_TOL : Fld := { off := 0x130058, lo := 6, wid := 4, reset := 0x4, bad := [(0, 0), (9, 15)] }
def TTN.PRED.N : Fld := { off := 0x130058, lo := 0, wid := 4, reset := 0x4, bad := [(0, 1), (9, 15)] }
/-- `TTN.PRED`, file 05 of the spec. -/
def TTN.PRED : Reg := { off := 0x130058, cons := 0xFFC3CF, fields := [TTN.PRED.CANCEL_ON_STALL, TTN.PRED.BIDIR, TTN.PRED.ADV, TTN.PRED.STALLK, TTN.PRED.SURGE_TOL, TTN.PRED.N] }
def TTN.PSET.FULLCNT : Fld := { off := 0x130090, lo := 16, wid := 16, acc := .ro }
def TTN.PSET.LEVEL : Fld := { off := 0x130090, lo := 0, wid := 7, acc := .ro }
/-- `TTN.PSET`, file 05 of the spec. -/
def TTN.PSET : Reg := { off := 0x130090, fields := [TTN.PSET.FULLCNT, TTN.PSET.LEVEL] }
def TTN.RINGPOS.WRAPS : Fld := { off := 0x13008C, lo := 10, wid := 22, acc := .ro }
def TTN.RINGPOS.WP : Fld := { off := 0x13008C, lo := 0, wid := 10, acc := .ro }
/-- `TTN.RINGPOS`, file 05 of the spec. -/
def TTN.RINGPOS : Reg := { off := 0x13008C, fields := [TTN.RINGPOS.WRAPS, TTN.RINGPOS.WP] }
def TTN.CTL.RESYNC : Fld := { off := 0x130008, lo := 4, wid := 1, acc := .wo }
def TTN.CTL.AUTORS : Fld := { off := 0x130008, lo := 3, wid := 1, reset := 0x1 }
def TTN.CTL.QSEN : Fld := { off := 0x130008, lo := 2, wid := 1, reset := 0x1 }
def TTN.CTL.RINGFRZ : Fld := { off := 0x130008, lo := 1, wid := 1 }
def TTN.CTL.EN : Fld := { off := 0x130008, lo := 0, wid := 1 }
/-- `TTN.CTL`, file 05 of the spec. -/
def TTN.CTL : Reg := { off := 0x130008, fields := [TTN.CTL.RESYNC, TTN.CTL.AUTORS, TTN.CTL.QSEN, TTN.CTL.RINGFRZ, TTN.CTL.EN] }
def TTN.STS.PRED_OK : Fld := { off := 0x13000C, lo := 8, wid := 1, acc := .ro }
def TTN.STS.SURGE_LEFT : Fld := { off := 0x13000C, lo := 5, wid := 3, acc := .ro }
def TTN.STS.QS : Fld := { off := 0x13000C, lo := 4, wid := 1, acc := .ro }
def TTN.STS.DIR : Fld := { off := 0x13000C, lo := 3, wid := 1, acc := .ro }
def TTN.STS.STATE : Fld := { off := 0x13000C, lo := 0, wid := 3, acc := .ro }
/-- `TTN.STS`, file 05 of the spec. -/
def TTN.STS : Reg := { off := 0x13000C, fields := [TTN.STS.PRED_OK, TTN.STS.SURGE_LEFT, TTN.STS.QS, TTN.STS.DIR, TTN.STS.STATE] }
def TTN.IRQ_RAW.OVERTAKEN : Fld := { off := 0x130010, lo := 9, wid := 1, acc := .w1c }
def TTN.IRQ_RAW.QS_FAIL : Fld := { off := 0x130010, lo := 8, wid := 1, acc := .w1c }
def TTN.IRQ_RAW.TIMEOUT_RACE : Fld := { off := 0x130010, lo := 7, wid := 1, acc := .w1c }
def TTN.IRQ_RAW.PSET_FULL : Fld := { off := 0x130010, lo := 6, wid := 1, acc := .w1c }
def TTN.IRQ_RAW.SYNC_ERR : Fld := { off := 0x130010, lo := 5, wid := 1, acc := .w1c }
def TTN.IRQ_RAW.REVERSE : Fld := { off := 0x130010, lo := 4, wid := 1, acc := .w1c }
def TTN.IRQ_RAW.STALL : Fld := { off := 0x130010, lo := 3, wid := 1, acc := .w1c }
def TTN.IRQ_RAW.ANGLE_SURGE : Fld := { off := 0x130010, lo := 2, wid := 1, acc := .w1c }
def TTN.IRQ_RAW.LOST : Fld := { off := 0x130010, lo := 1, wid := 1, acc := .w1c }
def TTN.IRQ_RAW.SYNCED : Fld := { off := 0x130010, lo := 0, wid := 1, acc := .w1c }
/-- `TTN.IRQ_RAW`, file 05 of the spec. -/
def TTN.IRQ_RAW : Reg := { off := 0x130010, fields := [TTN.IRQ_RAW.OVERTAKEN, TTN.IRQ_RAW.QS_FAIL, TTN.IRQ_RAW.TIMEOUT_RACE, TTN.IRQ_RAW.PSET_FULL, TTN.IRQ_RAW.SYNC_ERR, TTN.IRQ_RAW.REVERSE, TTN.IRQ_RAW.STALL, TTN.IRQ_RAW.ANGLE_SURGE, TTN.IRQ_RAW.LOST, TTN.IRQ_RAW.SYNCED] }
def TTN.EVTCNT.STALLS : Fld := { off := 0x130094, lo := 16, wid := 16, acc := .ro }
def TTN.EVTCNT.SURGES : Fld := { off := 0x130094, lo := 0, wid := 16, acc := .ro }
/-- `TTN.EVTCNT`, file 05 of the spec. -/
def TTN.EVTCNT : Reg := { off := 0x130094, fields := [TTN.EVTCNT.STALLS, TTN.EVTCNT.SURGES] }
def TTN.BLK_ID.CODE : Fld := { off := 0x130000, lo := 24, wid := 8, acc := .ro }
def TTN.BLK_ID.INST : Fld := { off := 0x130000, lo := 16, wid := 8, acc := .ro }
def TTN.BLK_ID.LAYOUT : Fld := { off := 0x130000, lo := 8, wid := 8, acc := .ro, reset := 0x1 }
/-- `TTN.BLK_ID`, file 12 of the spec. -/
def TTN.BLK_ID : Reg := { off := 0x130000, fields := [TTN.BLK_ID.CODE, TTN.BLK_ID.INST, TTN.BLK_ID.LAYOUT] }
def TTN.BLK_VER.MAJOR : Fld := { off := 0x130004, lo := 24, wid := 8, acc := .ro, reset := 0x1 }
def TTN.BLK_VER.MINOR : Fld := { off := 0x130004, lo := 16, wid := 8, acc := .ro }
def TTN.BLK_VER.STEP : Fld := { off := 0x130004, lo := 8, wid := 8, acc := .ro, reset := 0xA1 }
/-- `TTN.BLK_VER`, file 12 of the spec. -/
def TTN.BLK_VER : Reg := { off := 0x130004, fields := [TTN.BLK_VER.MAJOR, TTN.BLK_VER.MINOR, TTN.BLK_VER.STEP] }
def TTN.ERR_CAP.VALID : Fld := { off := 0x13001C, lo := 31, wid := 1, acc := .w1c }
def TTN.ERR_CAP.REASON : Fld := { off := 0x13001C, lo := 27, wid := 4, acc := .ro }
def TTN.ERR_CAP.REQ : Fld := { off := 0x13001C, lo := 19, wid := 8, acc := .ro }
def TTN.ERR_CAP.OFS : Fld := { off := 0x13001C, lo := 0, wid := 12, acc := .ro }
/-- `TTN.ERR_CAP`, file 12 of the spec. -/
def TTN.ERR_CAP : Reg := { off := 0x13001C, fields := [TTN.ERR_CAP.VALID, TTN.ERR_CAP.REASON, TTN.ERR_CAP.REQ, TTN.ERR_CAP.OFS] }
def TTN.ABORT.GO : Fld := { off := 0x130020, lo := 0, wid := 1, acc := .wo }
/-- `TTN.ABORT`, file 12 of the spec. -/
def TTN.ABORT : Reg := { off := 0x130020, fields := [TTN.ABORT.GO] }
def TTN.ABORT_STS.COUNT : Fld := { off := 0x130024, lo := 16, wid := 16, acc := .ro }
def TTN.ABORT_STS.BUSY : Fld := { off := 0x130024, lo := 1, wid := 1, acc := .ro }
def TTN.ABORT_STS.DONE : Fld := { off := 0x130024, lo := 0, wid := 1, acc := .w1c }
/-- `TTN.ABORT_STS`, file 12 of the spec. -/
def TTN.ABORT_STS : Reg := { off := 0x130024, fields := [TTN.ABORT_STS.COUNT, TTN.ABORT_STS.BUSY, TTN.ABORT_STS.DONE] }
def TTN.LOCK.SEAL : Fld := { off := 0x130028, lo := 31, wid := 1, acc := .w1s, role := .installer }
def TTN.LOCK.MYROLE : Fld := { off := 0x130028, lo := 16, wid := 2, acc := .ro }
def TTN.LOCK.MINROLE : Fld := { off := 0x130028, lo := 0, wid := 2, acc := .ro }
/-- `TTN.LOCK`, file 12 of the spec. -/
def TTN.LOCK : Reg := { off := 0x130028, fields := [TTN.LOCK.SEAL, TTN.LOCK.MYROLE, TTN.LOCK.MINROLE] }
def TTN.IRQ_EN.V : Fld := { off := 0x130014, lo := 0, wid := 32 }
/-- `TTN.IRQ_EN`, file 12 of the spec. -/
def TTN.IRQ_EN : Reg := { off := 0x130014, fields := [TTN.IRQ_EN.V] }
def TTN.IRQ_SET.V : Fld := { off := 0x130018, lo := 0, wid := 32, acc := .w1s, role := .maker }
/-- `TTN.IRQ_SET`, file 12 of the spec. -/
def TTN.IRQ_SET : Reg := { off := 0x130018, fields := [TTN.IRQ_SET.V] }
def TTN.CNT_EVT.HI : Fld := { off := 0x13002C, lo := 16, wid := 16, acc := .ro }
def TTN.CNT_EVT.LO : Fld := { off := 0x13002C, lo := 0, wid := 16, acc := .ro }
/-- `TTN.CNT_EVT`, file 12 of the spec. -/
def TTN.CNT_EVT : Reg := { off := 0x13002C, fields := [TTN.CNT_EVT.HI, TTN.CNT_EVT.LO] }
/-- Every register of the TTN page. -/
def TTN.regs : List Reg :=
  [TTN.INSEL, TTN.INCFG, TTN.TEETH, TTN.GAP, TTN.NOISE, TTN.REVOFS, TTN.RESTORE, TTN.RESTREV, TTN.KS_ANGLE, TTN.KS_TOOTH, TTN.KS_REV, TTN.ANGLE, TTN.REV, TTN.TOOTH, TTN.TSTAMP_LO, TTN.TSTAMP_HI, TTN.OMEGA, TTN.ACCEL, TTN.PPER, TTN.PRED, TTN.PSET, TTN.RINGPOS, TTN.CTL, TTN.STS, TTN.IRQ_RAW, TTN.EVTCNT, TTN.BLK_ID, TTN.BLK_VER, TTN.ERR_CAP, TTN.ABORT, TTN.ABORT_STS, TTN.LOCK, TTN.IRQ_EN, TTN.IRQ_SET, TTN.CNT_EVT]

/-! ### RUL, page base 0x140000 -/

def RUL.CTL.CLRFLT : Fld := { off := 0x140008, lo := 2, wid := 1, acc := .wo }
def RUL.CTL.HALTPOL : Fld := { off := 0x140008, lo := 1, wid := 1, acc := .rwl, role := .installer }
def RUL.CTL.UPD_HOLD : Fld := { off := 0x140008, lo := 0, wid := 1 }
/-- `RUL.CTL`, file 08 of the spec. -/
def RUL.CTL : Reg := { off := 0x140008, fields := [RUL.CTL.CLRFLT, RUL.CTL.HALTPOL, RUL.CTL.UPD_HOLD] }
def RUL.STS.FLT_IN : Fld := { off := 0x14000C, lo := 15, wid := 1, acc := .ro }
def RUL.STS.FORCED : Fld := { off := 0x14000C, lo := 14, wid := 1, acc := .ro }
def RUL.STS.DT_RAISED : Fld := { off := 0x14000C, lo := 13, wid := 1, acc := .ro }
def RUL.STS.FULL : Fld := { off := 0x14000C, lo := 12, wid := 1, acc := .ro }
def RUL.STS.PEND : Fld := { off := 0x14000C, lo := 6, wid := 6, acc := .ro }
def RUL.STS.STOP_PEND : Fld := { off := 0x14000C, lo := 5, wid := 1, acc := .ro }
def RUL.STS.START_PEND : Fld := { off := 0x14000C, lo := 4, wid := 1, acc := .ro }
def RUL.STS.STATE : Fld := { off := 0x14000C, lo := 0, wid := 3, acc := .ro }
/-- `RUL.STS`, file 08 of the spec. -/
def RUL.STS : Reg := { off := 0x14000C, fields := [RUL.STS.FLT_IN, RUL.STS.FORCED, RUL.STS.DT_RAISED, RUL.STS.FULL, RUL.STS.PEND, RUL.STS.STOP_PEND, RUL.STS.START_PEND, RUL.STS.STATE] }
def RUL.IRQ_RAW.OWNER_REJ : Fld := { off := 0x140010, lo := 8, wid := 1, acc := .w1c }
def RUL.IRQ_RAW.SYNC_EARLY : Fld := { off := 0x140010, lo := 7, wid := 1, acc := .w1c }
def RUL.IRQ_RAW.FAULT : Fld := { off := 0x140010, lo := 6, wid := 1, acc := .w1c }
def RUL.IRQ_RAW.LIMIT : Fld := { off := 0x140010, lo := 5, wid := 1, acc := .w1c }
def RUL.IRQ_RAW.PER_DUTY_MISMATCH : Fld := { off := 0x140010, lo := 4, wid := 1, acc := .w1c }
def RUL.IRQ_RAW.FILTER : Fld := { off := 0x140010, lo := 3, wid := 1, acc := .w1c }
def RUL.IRQ_RAW.LOAD_REJ : Fld := { off := 0x140010, lo := 2, wid := 1, acc := .w1c }
def RUL.IRQ_RAW.MISSED : Fld := { off := 0x140010, lo := 1, wid := 1, acc := .w1c }
def RUL.IRQ_RAW.DONE : Fld := { off := 0x140010, lo := 0, wid := 1, acc := .w1c }
/-- `RUL.IRQ_RAW`, file 08 of the spec. -/
def RUL.IRQ_RAW : Reg := { off := 0x140010, fields := [RUL.IRQ_RAW.OWNER_REJ, RUL.IRQ_RAW.SYNC_EARLY, RUL.IRQ_RAW.FAULT, RUL.IRQ_RAW.LIMIT, RUL.IRQ_RAW.PER_DUTY_MISMATCH, RUL.IRQ_RAW.FILTER, RUL.IRQ_RAW.LOAD_REJ, RUL.IRQ_RAW.MISSED, RUL.IRQ_RAW.DONE] }
def RUL.MODE.STOPMODE : Fld := { off := 0x140040, lo := 8, wid := 1 }
def RUL.MODE.MINPOL : Fld := { off := 0x140040, lo := 7, wid := 1 }
def RUL.MODE.DTREF : Fld := { off := 0x140040, lo := 6, wid := 1 }
def RUL.MODE.ALIGN : Fld := { off := 0x140040, lo := 5, wid := 1 }
def RUL.MODE.CODE : Fld := { off := 0x140040, lo := 0, wid := 3, bad := [(5, 7)] }
/-- `RUL.MODE`, file 08 of the spec. -/
def RUL.MODE : Reg := { off := 0x140040, fields := [RUL.MODE.STOPMODE, RUL.MODE.MINPOL, RUL.MODE.DTREF, RUL.MODE.ALIGN, RUL.MODE.CODE] }
def RUL.PER.V : Fld := { off := 0x140044, lo := 0, wid := 30, reset := 0x1900, bad := [(0, 511)] }
/-- `RUL.PER`, file 08 of the spec. -/
def RUL.PER : Reg := { off := 0x140044, cons := 0x3FFFFFFF, fields := [RUL.PER.V] }
def RUL.DUTY.V : Fld := { off := 0x140048, lo := 0, wid := 30 }
/-- `RUL.DUTY`, file 08 of the spec. -/
def RUL.DUTY : Reg := { off := 0x140048, cons := 0x3FFFFFFF, fields := [RUL.DUTY.V] }
def RUL.PHASE.V : Fld := { off := 0x14004C, lo := 0, wid := 30 }
/-- `RUL.PHASE`, file 08 of the spec. -/
def RUL.PHASE : Reg := { off := 0x14004C, cons := 0x3FFFFFFF, fields := [RUL.PHASE.V] }
def RUL.DTR.V : Fld := { off := 0x140050, lo := 0, wid := 18, reset := 0x40, bad := [(256001, 262143)] }
/-- `RUL.DTR`, file 08 of the spec. -/
def RUL.DTR : Reg := { off := 0x140050, cons := 0x3FFFF, fields := [RUL.DTR.V] }
def RUL.DTF.V : Fld := { off := 0x140054, lo := 0, wid := 18, reset := 0x40, bad := [(256001, 262143)] }
/-- `RUL.DTF`, file 08 of the spec. -/
def RUL.DTF : Reg := { off := 0x140054, cons := 0x3FFFF, fields := [RUL.DTF.V] }
def RUL.MINP.V : Fld := { off := 0x140058, lo := 0, wid := 16, reset := 0x80, bad := [(0, 127)] }
/-- `RUL.MINP`, file 08 of the spec. -/
def RUL.MINP : Reg := { off := 0x140058, cons := 0xFFFF, fields := [RUL.MINP.V] }
def RUL.BCNT.V : Fld := { off := 0x14005C, lo := 0, wid := 24, reset := 0x1, bad := [(0, 0)] }
/-- `RUL.BCNT`, file 08 of the spec. -/
def RUL.BCNT : Reg := { off := 0x14005C, cons := 0xFFFFFF, fields := [RUL.BCNT.V] }
def RUL.CHAIN.SYNC_EN : Fld := { off := 0x140060, lo := 31, wid := 1 }
def RUL.CHAIN.WRAP : Fld := { off := 0x140060, lo := 30, wid := 1 }
def RUL.CHAIN.OFS : Fld := { off := 0x140060, lo := 0, wid := 30 }
/-- `RUL.CHAIN`, file 08 of the spec. -/
def RUL.CHAIN : Reg := { off := 0x140060, cons := 0xFFFFFFFF, fields := [RUL.CHAIN.SYNC_EN, RUL.CHAIN.WRAP, RUL.CHAIN.OFS] }
def RUL.OVR.FLO : Fld := { off := 0x140064, lo := 6, wid := 1 }
def RUL.OVR.FHI : Fld := { off := 0x140064, lo := 5, wid := 1 }
def RUL.OVR.FORCE : Fld := { off := 0x140064, lo := 4, wid := 1 }
def RUL.OVR.INV_LO : Fld := { off := 0x140064, lo := 2, wid := 1 }
def RUL.OVR.INV_HI : Fld := { off := 0x140064, lo := 1, wid := 1 }
def RUL.OVR.SWAP : Fld := { off := 0x140064, lo := 0, wid := 1 }
/-- `RUL.OVR`, file 08 of the spec. -/
def RUL.OVR : Reg := { off := 0x140064, cons := 0x77, fields := [RUL.OVR.FLO, RUL.OVR.FHI, RUL.OVR.FORCE, RUL.OVR.INV_LO, RUL.OVR.INV_HI, RUL.OVR.SWAP] }
def RUL.FLT.EN : Fld := { off := 0x140068, lo := 31, wid := 1, acc := .rwl, role := .installer }
def RUL.FLT.POL : Fld := { off := 0x140068, lo := 30, wid := 1, acc := .rwl, role := .installer }
def RUL.FLT.LATCH : Fld := { off := 0x140068, lo := 29, wid := 1, acc := .rwl, role := .installer, reset := 0x1 }
def RUL.FLT.LINE : Fld := { off := 0x140068, lo := 0, wid := 7, acc := .rwl, role := .installer }
/-- `RUL.FLT`, file 08 of the spec. -/
def RUL.FLT : Reg := { off := 0x140068, fields := [RUL.FLT.EN, RUL.FLT.POL, RUL.FLT.LATCH, RUL.FLT.LINE] }
def RUL.LIM.SAFE_HI : Fld := { off := 0x14006C, lo := 30, wid := 2, acc := .rwl, role := .installer, bad := [(3, 3)] }
def RUL.LIM.SAFE_LO : Fld := { off := 0x14006C, lo := 28, wid := 2, acc := .rwl, role := .installer, bad := [(3, 3)] }
def RUL.LIM.BOTHON : Fld := { off := 0x14006C, lo := 27, wid := 1, acc := .rwl, role := .installer }
def RUL.LIM.MINDT : Fld := { off := 0x14006C, lo := 0, wid := 18, acc := .rwl, role := .installer }
/-- `RUL.LIM`, file 08 of the spec. -/
def RUL.LIM : Reg := { off := 0x14006C, fields := [RUL.LIM.SAFE_HI, RUL.LIM.SAFE_LO, RUL.LIM.BOTHON, RUL.LIM.MINDT] }
def RUL.MAXON.V : Fld := { off := 0x140070, lo := 0, wid := 24, acc := .rwl, role := .installer }
/-- `RUL.MAXON`, file 08 of the spec. -/
def RUL.MAXON : Reg := { off := 0x140070, fields := [RUL.MAXON.V] }
def RUL.ST_LO.V : Fld := { off := 0x140074, lo := 0, wid := 32 }
/-- `RUL.ST_LO`, file 08 of the spec. -/
def RUL.ST_LO : Reg := { off := 0x140074, fields := [RUL.ST_LO.V] }
def RUL.ST_HI.V : Fld := { off := 0x140078, lo := 0, wid := 32 }
/-- `RUL.ST_HI`, file 08 of the spec. -/
def RUL.ST_HI : Reg := { off := 0x140078, fields := [RUL.ST_HI.V] }
def RUL.SP_LO.V : Fld := { off := 0x14007C, lo := 0, wid := 32 }
/-- `RUL.SP_LO`, file 08 of the spec. -/
def RUL.SP_LO : Reg := { off := 0x14007C, fields := [RUL.SP_LO.V] }
def RUL.SP_HI.V : Fld := { off := 0x140080, lo := 0, wid := 32 }
/-- `RUL.SP_HI`, file 08 of the spec. -/
def RUL.SP_HI : Reg := { off := 0x140080, fields := [RUL.SP_HI.V] }
def RUL.OWN.CLAIM : Fld := { off := 0x140084, lo := 31, wid := 1, acc := .wo }
def RUL.OWN.RELEASE : Fld := { off := 0x140084, lo := 30, wid := 1, acc := .wo }
def RUL.OWN.TTACC : Fld := { off := 0x140084, lo := 29, wid := 1 }
def RUL.OWN.HROLE : Fld := { off := 0x140084, lo := 16, wid := 2, acc := .ro }
def RUL.OWN.HOLDER : Fld := { off := 0x140084, lo := 8, wid := 8, acc := .ro }
/-- `RUL.OWN`, file 08 of the spec. -/
def RUL.OWN : Reg := { off := 0x140084, fields := [RUL.OWN.CLAIM, RUL.OWN.RELEASE, RUL.OWN.TTACC, RUL.OWN.HROLE, RUL.OWN.HOLDER] }
def RUL.PCNT.V : Fld := { off := 0x140088, lo := 0, wid := 32, acc := .ro }
/-- `RUL.PCNT`, file 08 of the spec. -/
def RUL.PCNT : Reg := { off := 0x140088, fields := [RUL.PCNT.V] }
def RUL.BLEFT.V : Fld := { off := 0x14008C, lo := 0, wid := 24, acc := .ro }
/-- `RUL.BLEFT`, file 08 of the spec. -/
def RUL.BLEFT : Reg := { off := 0x14008C, fields := [RUL.BLEFT.V] }
def RUL.BLK_ID.CODE : Fld := { off := 0x140000, lo := 24, wid := 8, acc := .ro }
def RUL.BLK_ID.INST : Fld := { off := 0x140000, lo := 16, wid := 8, acc := .ro }
def RUL.BLK_ID.LAYOUT : Fld := { off := 0x140000, lo := 8, wid := 8, acc := .ro, reset := 0x1 }
/-- `RUL.BLK_ID`, file 12 of the spec. -/
def RUL.BLK_ID : Reg := { off := 0x140000, fields := [RUL.BLK_ID.CODE, RUL.BLK_ID.INST, RUL.BLK_ID.LAYOUT] }
def RUL.BLK_VER.MAJOR : Fld := { off := 0x140004, lo := 24, wid := 8, acc := .ro, reset := 0x1 }
def RUL.BLK_VER.MINOR : Fld := { off := 0x140004, lo := 16, wid := 8, acc := .ro }
def RUL.BLK_VER.STEP : Fld := { off := 0x140004, lo := 8, wid := 8, acc := .ro, reset := 0xA1 }
/-- `RUL.BLK_VER`, file 12 of the spec. -/
def RUL.BLK_VER : Reg := { off := 0x140004, fields := [RUL.BLK_VER.MAJOR, RUL.BLK_VER.MINOR, RUL.BLK_VER.STEP] }
def RUL.ERR_CAP.VALID : Fld := { off := 0x14001C, lo := 31, wid := 1, acc := .w1c }
def RUL.ERR_CAP.REASON : Fld := { off := 0x14001C, lo := 27, wid := 4, acc := .ro }
def RUL.ERR_CAP.REQ : Fld := { off := 0x14001C, lo := 19, wid := 8, acc := .ro }
def RUL.ERR_CAP.OFS : Fld := { off := 0x14001C, lo := 0, wid := 12, acc := .ro }
/-- `RUL.ERR_CAP`, file 12 of the spec. -/
def RUL.ERR_CAP : Reg := { off := 0x14001C, fields := [RUL.ERR_CAP.VALID, RUL.ERR_CAP.REASON, RUL.ERR_CAP.REQ, RUL.ERR_CAP.OFS] }
def RUL.ABORT.GO : Fld := { off := 0x140020, lo := 0, wid := 1, acc := .wo }
/-- `RUL.ABORT`, file 12 of the spec. -/
def RUL.ABORT : Reg := { off := 0x140020, fields := [RUL.ABORT.GO] }
def RUL.ABORT_STS.COUNT : Fld := { off := 0x140024, lo := 16, wid := 16, acc := .ro }
def RUL.ABORT_STS.BUSY : Fld := { off := 0x140024, lo := 1, wid := 1, acc := .ro }
def RUL.ABORT_STS.DONE : Fld := { off := 0x140024, lo := 0, wid := 1, acc := .w1c }
/-- `RUL.ABORT_STS`, file 12 of the spec. -/
def RUL.ABORT_STS : Reg := { off := 0x140024, fields := [RUL.ABORT_STS.COUNT, RUL.ABORT_STS.BUSY, RUL.ABORT_STS.DONE] }
def RUL.LOCK.SEAL : Fld := { off := 0x140028, lo := 31, wid := 1, acc := .w1s, role := .installer }
def RUL.LOCK.MYROLE : Fld := { off := 0x140028, lo := 16, wid := 2, acc := .ro }
def RUL.LOCK.MINROLE : Fld := { off := 0x140028, lo := 0, wid := 2, acc := .ro }
/-- `RUL.LOCK`, file 12 of the spec. -/
def RUL.LOCK : Reg := { off := 0x140028, fields := [RUL.LOCK.SEAL, RUL.LOCK.MYROLE, RUL.LOCK.MINROLE] }
def RUL.IRQ_EN.V : Fld := { off := 0x140014, lo := 0, wid := 32 }
/-- `RUL.IRQ_EN`, file 12 of the spec. -/
def RUL.IRQ_EN : Reg := { off := 0x140014, fields := [RUL.IRQ_EN.V] }
def RUL.IRQ_SET.V : Fld := { off := 0x140018, lo := 0, wid := 32, acc := .w1s, role := .maker }
/-- `RUL.IRQ_SET`, file 12 of the spec. -/
def RUL.IRQ_SET : Reg := { off := 0x140018, fields := [RUL.IRQ_SET.V] }
def RUL.CNT_EVT.HI : Fld := { off := 0x14002C, lo := 16, wid := 16, acc := .ro }
def RUL.CNT_EVT.LO : Fld := { off := 0x14002C, lo := 0, wid := 16, acc := .ro }
/-- `RUL.CNT_EVT`, file 12 of the spec. -/
def RUL.CNT_EVT : Reg := { off := 0x14002C, fields := [RUL.CNT_EVT.HI, RUL.CNT_EVT.LO] }
/-- Every register of the RUL page. -/
def RUL.regs : List Reg :=
  [RUL.CTL, RUL.STS, RUL.IRQ_RAW, RUL.MODE, RUL.PER, RUL.DUTY, RUL.PHASE, RUL.DTR, RUL.DTF, RUL.MINP, RUL.BCNT, RUL.CHAIN, RUL.OVR, RUL.FLT, RUL.LIM, RUL.MAXON, RUL.ST_LO, RUL.ST_HI, RUL.SP_LO, RUL.SP_HI, RUL.OWN, RUL.PCNT, RUL.BLEFT, RUL.BLK_ID, RUL.BLK_VER, RUL.ERR_CAP, RUL.ABORT, RUL.ABORT_STS, RUL.LOCK, RUL.IRQ_EN, RUL.IRQ_SET, RUL.CNT_EVT]

/-! ### ADC, page base 0x160000 -/

def ADC.CTL.MMC_EN : Fld := { off := 0x160008, lo := 3, wid := 1, reset := 0x1 }
def ADC.CTL.PAIR : Fld := { off := 0x160008, lo := 2, wid := 1 }
def ADC.CTL.EN_B : Fld := { off := 0x160008, lo := 1, wid := 1 }
def ADC.CTL.EN_A : Fld := { off := 0x160008, lo := 0, wid := 1 }
/-- `ADC.CTL`, file 09 of the spec. -/
def ADC.CTL : Reg := { off := 0x160008, fields := [ADC.CTL.MMC_EN, ADC.CTL.PAIR, ADC.CTL.EN_B, ADC.CTL.EN_A] }
def ADC.STS.EPOCH_B : Fld := { off := 0x16000C, lo := 12, wid := 4, acc := .ro }
def ADC.STS.EPOCH_A : Fld := { off := 0x16000C, lo := 8, wid := 4, acc := .ro }
def ADC.STS.FROZEN_B : Fld := { off := 0x16000C, lo := 4, wid := 1, acc := .ro }
def ADC.STS.FROZEN_A : Fld := { off := 0x16000C, lo := 3, wid := 1, acc := .ro }
def ADC.STS.RUN : Fld := { off := 0x16000C, lo := 0, wid := 3, acc := .ro }
/-- `ADC.STS`, file 09 of the spec. -/
def ADC.STS : Reg := { off := 0x16000C, fields := [ADC.STS.EPOCH_B, ADC.STS.EPOCH_A, ADC.STS.FROZEN_B, ADC.STS.FROZEN_A, ADC.STS.RUN] }
def ADC.IRQ_RAW.OVR : Fld := { off := 0x160010, lo := 12, wid := 1, acc := .w1c }
def ADC.IRQ_RAW.ALLOC_FAIL : Fld := { off := 0x160010, lo := 11, wid := 1, acc := .w1c }
def ADC.IRQ_RAW.OWNER_REJ : Fld := { off := 0x160010, lo := 10, wid := 1, acc := .w1c }
def ADC.IRQ_RAW.MMC_FROZEN : Fld := { off := 0x160010, lo := 9, wid := 1, acc := .w1c }
def ADC.IRQ_RAW.MMC_RANGE : Fld := { off := 0x160010, lo := 8, wid := 1, acc := .w1c }
def ADC.IRQ_RAW.OS_LOST : Fld := { off := 0x160010, lo := 7, wid := 1, acc := .w1c }
def ADC.IRQ_RAW.OS_FAIL : Fld := { off := 0x160010, lo := 6, wid := 1, acc := .w1c }
def ADC.IRQ_RAW.FRAME_LOST : Fld := { off := 0x160010, lo := 5, wid := 1, acc := .w1c }
def ADC.IRQ_RAW.LOAD_REJ : Fld := { off := 0x160010, lo := 4, wid := 1, acc := .w1c }
def ADC.IRQ_RAW.MISSED : Fld := { off := 0x160010, lo := 3, wid := 1, acc := .w1c }
def ADC.IRQ_RAW.QOVF : Fld := { off := 0x160010, lo := 2, wid := 1, acc := .w1c }
def ADC.IRQ_RAW.DROPPED : Fld := { off := 0x160010, lo := 1, wid := 1, acc := .w1c }
def ADC.IRQ_RAW.SEQ_END : Fld := { off := 0x160010, lo := 0, wid := 1, acc := .w1c }
/-- `ADC.IRQ_RAW`, file 09 of the spec. -/
def ADC.IRQ_RAW : Reg := { off := 0x160010, fields := [ADC.IRQ_RAW.OVR, ADC.IRQ_RAW.ALLOC_FAIL, ADC.IRQ_RAW.OWNER_REJ, ADC.IRQ_RAW.MMC_FROZEN, ADC.IRQ_RAW.MMC_RANGE, ADC.IRQ_RAW.OS_LOST, ADC.IRQ_RAW.OS_FAIL, ADC.IRQ_RAW.FRAME_LOST, ADC.IRQ_RAW.LOAD_REJ, ADC.IRQ_RAW.MISSED, ADC.IRQ_RAW.QOVF, ADC.IRQ_RAW.DROPPED, ADC.IRQ_RAW.SEQ_END] }
def ADC.SQPOL.AB : Fld := { off := 0x160040, lo := 4, wid := 2, bad := [(3, 3)] }
def ADC.SQPOL.B : Fld := { off := 0x160040, lo := 2, wid := 2, bad := [(3, 3)] }
def ADC.SQPOL.A : Fld := { off := 0x160040, lo := 0, wid := 2, bad := [(3, 3)] }
/-- `ADC.SQPOL`, file 09 of the spec. -/
def ADC.SQPOL : Reg := { off := 0x160040, cons := 0x3F, fields := [ADC.SQPOL.AB, ADC.SQPOL.B, ADC.SQPOL.A] }
def ADC.MMC.MU : Fld := { off := 0x160044, lo := 16, wid := 4, reset := 0x8, bad := [(0, 3), (13, 15)] }
def ADC.MMC.ACT : Fld := { off := 0x160044, lo := 0, wid := 12, reset := 0x40, bad := [(0, 0), (2048, 4095)] }
/-- `ADC.MMC`, file 09 of the spec. -/
def ADC.MMC : Reg := { off := 0x160044, cons := 0xF0FFF, fields := [ADC.MMC.MU, ADC.MMC.ACT] }
def ADC.SQSTS.SEQNO : Fld := { off := 0x160048, lo := 16, wid := 16, acc := .ro }
def ADC.SQSTS.STEP : Fld := { off := 0x160048, lo := 10, wid := 4, acc := .ro }
def ADC.SQSTS.RUNNING : Fld := { off := 0x160048, lo := 9, wid := 1, acc := .ro }
def ADC.SQSTS.PLEVEL : Fld := { off := 0x160048, lo := 5, wid := 4, acc := .ro }
def ADC.SQSTS.QLEVEL : Fld := { off := 0x160048, lo := 0, wid := 3, acc := .ro }
/-- `ADC.SQSTS`, file 09 of the spec. -/
def ADC.SQSTS : Reg := { off := 0x160048, cnt := 3, stride := 4, fields := [ADC.SQSTS.SEQNO, ADC.SQSTS.STEP, ADC.SQSTS.RUNNING, ADC.SQSTS.PLEVEL, ADC.SQSTS.QLEVEL] }
def ADC.BUFBOOKS.TRANSIT : Fld := { off := 0x160054, lo := 20, wid := 9, acc := .ro }
def ADC.BUFBOOKS.FREE : Fld := { off := 0x160054, lo := 10, wid := 9, acc := .ro, reset := 0x100 }
def ADC.BUFBOOKS.USED : Fld := { off := 0x160054, lo := 0, wid := 9, acc := .ro }
/-- `ADC.BUFBOOKS`, file 09 of the spec. -/
def ADC.BUFBOOKS : Reg := { off := 0x160054, fields := [ADC.BUFBOOKS.TRANSIT, ADC.BUFBOOKS.FREE, ADC.BUFBOOKS.USED] }
def ADC.APSEL.V : Fld := { off := 0x160058, lo := 0, wid := 8 }
/-- `ADC.APSEL`, file 09 of the spec. -/
def ADC.APSEL : Reg := { off := 0x160058, fields := [ADC.APSEL.V] }
def ADC.FINFO.LOGD : Fld := { off := 0x160060, lo := 8, wid := 4, acc := .ro }
def ADC.FINFO.FLEN : Fld := { off := 0x160060, lo := 0, wid := 8, acc := .ro }
/-- `ADC.FINFO`, file 09 of the spec. -/
def ADC.FINFO : Reg := { off := 0x160060, cnt := 8, stride := 4, fields := [ADC.FINFO.LOGD, ADC.FINFO.FLEN] }
def ADC.SEQDEF.VALID : Fld := { off := 0x160080, lo := 31, wid := 1 }
def ADC.SEQDEF.COUNT : Fld := { off := 0x160080, lo := 8, wid := 4 }
def ADC.SEQDEF.FIRST : Fld := { off := 0x160080, lo := 0, wid := 6 }
/-- `ADC.SEQDEF`, file 09 of the spec. -/
def ADC.SEQDEF : Reg := { off := 0x160080, cnt := 16, stride := 4, cons := 0x80000F3F, fields := [ADC.SEQDEF.VALID, ADC.SEQDEF.COUNT, ADC.SEQDEF.FIRST] }
def ADC.STEP0.WIN_EN : Fld := { off := 0x160100, lo := 31, wid := 1 }
def ADC.STEP0.WIN : Fld := { off := 0x160100, lo := 26, wid := 5 }
def ADC.STEP0.OS_EN : Fld := { off := 0x160100, lo := 25, wid := 1 }
def ADC.STEP0.OSCH : Fld := { off := 0x160100, lo := 21, wid := 4 }
def ADC.STEP0.FILT : Fld := { off := 0x160100, lo := 17, wid := 4, bad := [(9, 15)] }
def ADC.STEP0.DEC : Fld := { off := 0x160100, lo := 14, wid := 3 }
def ADC.STEP0.GAIN : Fld := { off := 0x160100, lo := 12, wid := 2 }
def ADC.STEP0.INPUT : Fld := { off := 0x160100, lo := 9, wid := 3 }
def ADC.STEP0.DELAY : Fld := { off := 0x160100, lo := 0, wid := 9 }
/-- `ADC.STEP0`, file 09 of the spec. -/
def ADC.STEP0 : Reg := { off := 0x160100, cnt := 64, stride := 8, cons := 0xFFFFFFFF, fields := [ADC.STEP0.WIN_EN, ADC.STEP0.WIN, ADC.STEP0.OS_EN, ADC.STEP0.OSCH, ADC.STEP0.FILT, ADC.STEP0.DEC, ADC.STEP0.GAIN, ADC.STEP0.INPUT, ADC.STEP0.DELAY] }
def ADC.STEP1.LEN : Fld := { off := 0x160104, lo := 0, wid := 24, reset := 0x1, bad := [(0, 0)] }
/-- `ADC.STEP1`, file 09 of the spec. -/
def ADC.STEP1 : Reg := { off := 0x160104, cnt := 64, stride := 8, cons := 0xFFFFFF, fields := [ADC.STEP1.LEN] }
def ADC.INDLY.V : Fld := { off := 0x160300, lo := 0, wid := 10, acc := .rwl, role := .installer }
/-- `ADC.INDLY`, file 09 of the spec. -/
def ADC.INDLY : Reg := { off := 0x160300, cnt := 8, stride := 4, fields := [ADC.INDLY.V] }
def ADC.TG.EN : Fld := { off := 0x160320, lo := 31, wid := 1 }
def ADC.TG.SQ : Fld := { off := 0x160320, lo := 29, wid := 2, bad := [(3, 3)] }
def ADC.TG.KIND : Fld := { off := 0x160320, lo := 28, wid := 1 }
def ADC.TG.POL : Fld := { off := 0x160320, lo := 27, wid := 1 }
def ADC.TG.SEQ : Fld := { off := 0x160320, lo := 20, wid := 4 }
def ADC.TG.SRC : Fld := { off := 0x160320, lo := 0, wid := 10 }
/-- `ADC.TG`, file 09 of the spec. -/
def ADC.TG : Reg := { off := 0x160320, cnt := 4, stride := 4, cons := 0xF8F003FF, fields := [ADC.TG.EN, ADC.TG.SQ, ADC.TG.KIND, ADC.TG.POL, ADC.TG.SEQ, ADC.TG.SRC] }
def ADC.WCFG.ALLOC : Fld := { off := 0x160400, lo := 31, wid := 1, acc := .wo }
def ADC.WCFG.FREE : Fld := { off := 0x160400, lo := 30, wid := 1, acc := .wo }
def ADC.WCFG.DEST : Fld := { off := 0x160400, lo := 29, wid := 1 }
def ADC.WCFG.SIZE : Fld := { off := 0x160400, lo := 0, wid := 9, reset := 0x10, bad := [(0, 0), (257, 511)] }
/-- `ADC.WCFG`, file 09 of the spec. -/
def ADC.WCFG : Reg := { off := 0x160400, cnt := 32, stride := 16, fields := [ADC.WCFG.ALLOC, ADC.WCFG.FREE, ADC.WCFG.DEST, ADC.WCFG.SIZE] }
def ADC.WSTS.ALLOCATED : Fld := { off := 0x160404, lo := 31, wid := 1, acc := .ro }
def ADC.WSTS.BUSY : Fld := { off := 0x160404, lo := 30, wid := 1, acc := .ro }
def ADC.WSTS.NOSPACE : Fld := { off := 0x160404, lo := 29, wid := 1, acc := .ro }
def ADC.WSTS.BASE : Fld := { off := 0x160404, lo := 18, wid := 8, acc := .ro }
def ADC.WSTS.SIZE : Fld := { off := 0x160404, lo := 0, wid := 9, acc := .ro }
/-- `ADC.WSTS`, file 09 of the spec. -/
def ADC.WSTS : Reg := { off := 0x160404, cnt := 32, stride := 16, fields := [ADC.WSTS.ALLOCATED, ADC.WSTS.BUSY, ADC.WSTS.NOSPACE, ADC.WSTS.BASE, ADC.WSTS.SIZE] }
def ADC.WPTR.RP : Fld := { off := 0x160408, lo := 16, wid := 13 }
def ADC.WPTR.WP : Fld := { off := 0x160408, lo := 0, wid := 13, acc := .ro }
/-- `ADC.WPTR`, file 09 of the spec. -/
def ADC.WPTR : Reg := { off := 0x160408, cnt := 32, stride := 16, fields := [ADC.WPTR.RP, ADC.WPTR.WP] }
def ADC.WOWN.CLAIM : Fld := { off := 0x16040C, lo := 31, wid := 1, acc := .wo }
def ADC.WOWN.RELEASE : Fld := { off := 0x16040C, lo := 30, wid := 1, acc := .wo }
def ADC.WOWN.HROLE : Fld := { off := 0x16040C, lo := 16, wid := 2, acc := .ro }
def ADC.WOWN.HOLDER : Fld := { off := 0x16040C, lo := 8, wid := 8, acc := .ro }
/-- `ADC.WOWN`, file 09 of the spec. -/
def ADC.WOWN : Reg := { off := 0x16040C, cnt := 32, stride := 16, fields := [ADC.WOWN.CLAIM, ADC.WOWN.RELEASE, ADC.WOWN.HROLE, ADC.WOWN.HOLDER] }
def ADC.OCFG.EN : Fld := { off := 0x160600, lo := 31, wid := 1 }
def ADC.OCFG.MODE : Fld := { off := 0x160600, lo := 30, wid := 1 }
def ADC.OCFG.EDGES : Fld := { off := 0x160600, lo := 28, wid := 2, reset := 0x3, bad := [(0, 0)] }
def ADC.OCFG.DEST : Fld := { off := 0x160600, lo := 27, wid := 1 }
def ADC.OCFG.HYS : Fld := { off := 0x160600, lo := 12, wid := 12, bad := [(2048, 4095)] }
def ADC.OCFG.THR : Fld := { off := 0x160600, lo := 0, wid := 12 }
/-- `ADC.OCFG`, file 09 of the spec. -/
def ADC.OCFG : Reg := { off := 0x160600, cnt := 16, stride := 32, cons := 0xF8FFFFFF, fields := [ADC.OCFG.EN, ADC.OCFG.MODE, ADC.OCFG.EDGES, ADC.OCFG.DEST, ADC.OCFG.HYS, ADC.OCFG.THR] }
def ADC.OQUIET.V : Fld := { off := 0x160604, lo := 0, wid := 16, reset := 0x40, bad := [(0, 0)] }
/-- `ADC.OQUIET`, file 09 of the spec. -/
def ADC.OQUIET : Reg := { off := 0x160604, cnt := 16, stride := 32, cons := 0xFFFF, fields := [ADC.OQUIET.V] }
def ADC.OCHK.CHK_EN : Fld := { off := 0x160608, lo := 31, wid := 1 }
def ADC.OCHK.CHK_SRC : Fld := { off := 0x160608, lo := 16, wid := 10 }
def ADC.OCHK.WIN : Fld := { off := 0x160608, lo := 0, wid := 16, reset := 0xA00 }
/-- `ADC.OCHK`, file 09 of the spec. -/
def ADC.OCHK : Reg := { off := 0x160608, cnt := 16, stride := 32, cons := 0x83FFFFFF, fields := [ADC.OCHK.CHK_EN, ADC.OCHK.CHK_SRC, ADC.OCHK.WIN] }
def ADC.OEXPR.EXP_R : Fld := { off := 0x16060C, lo := 16, wid := 16 }
def ADC.OEXPR.TOL_R : Fld := { off := 0x16060C, lo := 0, wid := 16 }
/-- `ADC.OEXPR`, file 09 of the spec. -/
def ADC.OEXPR : Reg := { off := 0x16060C, cnt := 16, stride := 32, cons := 0xFFFFFFFF, fields := [ADC.OEXPR.EXP_R, ADC.OEXPR.TOL_R] }
def ADC.OEXPF.EXP_F : Fld := { off := 0x160610, lo := 16, wid := 16 }
def ADC.OEXPF.TOL_F : Fld := { off := 0x160610, lo := 0, wid := 16 }
/-- `ADC.OEXPF`, file 09 of the spec. -/
def ADC.OEXPF : Reg := { off := 0x160610, cnt := 16, stride := 32, cons := 0xFFFFFFFF, fields := [ADC.OEXPF.EXP_F, ADC.OEXPF.TOL_F] }
def ADC.OCNT.FAIL : Fld := { off := 0x160614, lo := 16, wid := 16, acc := .ro }
def ADC.OCNT.PASS : Fld := { off := 0x160614, lo := 0, wid := 16, acc := .ro }
/-- `ADC.OCNT`, file 09 of the spec. -/
def ADC.OCNT : Reg := { off := 0x160614, cnt := 16, stride := 32, fields := [ADC.OCNT.FAIL, ADC.OCNT.PASS] }
def ADC.OFSTS.SEQ : Fld := { off := 0x160618, lo := 16, wid := 16, acc := .ro }
def ADC.OFSTS.LEVEL : Fld := { off := 0x160618, lo := 0, wid := 4, acc := .ro }
/-- `ADC.OFSTS`, file 09 of the spec. -/
def ADC.OFSTS : Reg := { off := 0x160618, cnt := 16, stride := 32, fields := [ADC.OFSTS.SEQ, ADC.OFSTS.LEVEL] }
def ADC.OLOST.V : Fld := { off := 0x16061C, lo := 0, wid := 16, acc := .ro }
/-- `ADC.OLOST`, file 09 of the spec. -/
def ADC.OLOST : Reg := { off := 0x16061C, cnt := 16, stride := 32, fields := [ADC.OLOST.V] }
def ADC.OPOP0.V : Fld := { off := 0x160800, lo := 0, wid := 32, acc := .ro }
/-- `ADC.OPOP0`, file 19 of the spec. -/
def ADC.OPOP0 : Reg := { off := 0x160800, cnt := 16, stride := 16, perReq := true, fields := [ADC.OPOP0.V] }
def ADC.OPOP1.V : Fld := { off := 0x160804, lo := 0, wid := 32, acc := .ro }
/-- `ADC.OPOP1`, file 19 of the spec. -/
def ADC.OPOP1 : Reg := { off := 0x160804, cnt := 16, stride := 16, perReq := true, fields := [ADC.OPOP1.V] }
def ADC.OPOP2.V : Fld := { off := 0x160808, lo := 0, wid := 32, acc := .ro }
/-- `ADC.OPOP2`, file 19 of the spec. -/
def ADC.OPOP2 : Reg := { off := 0x160808, cnt := 16, stride := 16, perReq := true, fields := [ADC.OPOP2.V] }
def ADC.OPOP3.V : Fld := { off := 0x16080C, lo := 0, wid := 32, acc := .ro }
/-- `ADC.OPOP3`, file 19 of the spec. -/
def ADC.OPOP3 : Reg := { off := 0x16080C, cnt := 16, stride := 16, perReq := true, fields := [ADC.OPOP3.V] }
def ADC.BLK_ID.CODE : Fld := { off := 0x160000, lo := 24, wid := 8, acc := .ro }
def ADC.BLK_ID.INST : Fld := { off := 0x160000, lo := 16, wid := 8, acc := .ro }
def ADC.BLK_ID.LAYOUT : Fld := { off := 0x160000, lo := 8, wid := 8, acc := .ro, reset := 0x1 }
/-- `ADC.BLK_ID`, file 12 of the spec. -/
def ADC.BLK_ID : Reg := { off := 0x160000, fields := [ADC.BLK_ID.CODE, ADC.BLK_ID.INST, ADC.BLK_ID.LAYOUT] }
def ADC.BLK_VER.MAJOR : Fld := { off := 0x160004, lo := 24, wid := 8, acc := .ro, reset := 0x1 }
def ADC.BLK_VER.MINOR : Fld := { off := 0x160004, lo := 16, wid := 8, acc := .ro }
def ADC.BLK_VER.STEP : Fld := { off := 0x160004, lo := 8, wid := 8, acc := .ro, reset := 0xA1 }
/-- `ADC.BLK_VER`, file 12 of the spec. -/
def ADC.BLK_VER : Reg := { off := 0x160004, fields := [ADC.BLK_VER.MAJOR, ADC.BLK_VER.MINOR, ADC.BLK_VER.STEP] }
def ADC.ERR_CAP.VALID : Fld := { off := 0x16001C, lo := 31, wid := 1, acc := .w1c }
def ADC.ERR_CAP.REASON : Fld := { off := 0x16001C, lo := 27, wid := 4, acc := .ro }
def ADC.ERR_CAP.REQ : Fld := { off := 0x16001C, lo := 19, wid := 8, acc := .ro }
def ADC.ERR_CAP.OFS : Fld := { off := 0x16001C, lo := 0, wid := 12, acc := .ro }
/-- `ADC.ERR_CAP`, file 12 of the spec. -/
def ADC.ERR_CAP : Reg := { off := 0x16001C, fields := [ADC.ERR_CAP.VALID, ADC.ERR_CAP.REASON, ADC.ERR_CAP.REQ, ADC.ERR_CAP.OFS] }
def ADC.ABORT.GO : Fld := { off := 0x160020, lo := 0, wid := 1, acc := .wo }
/-- `ADC.ABORT`, file 12 of the spec. -/
def ADC.ABORT : Reg := { off := 0x160020, fields := [ADC.ABORT.GO] }
def ADC.ABORT_STS.COUNT : Fld := { off := 0x160024, lo := 16, wid := 16, acc := .ro }
def ADC.ABORT_STS.BUSY : Fld := { off := 0x160024, lo := 1, wid := 1, acc := .ro }
def ADC.ABORT_STS.DONE : Fld := { off := 0x160024, lo := 0, wid := 1, acc := .w1c }
/-- `ADC.ABORT_STS`, file 12 of the spec. -/
def ADC.ABORT_STS : Reg := { off := 0x160024, fields := [ADC.ABORT_STS.COUNT, ADC.ABORT_STS.BUSY, ADC.ABORT_STS.DONE] }
def ADC.LOCK.SEAL : Fld := { off := 0x160028, lo := 31, wid := 1, acc := .w1s, role := .installer }
def ADC.LOCK.MYROLE : Fld := { off := 0x160028, lo := 16, wid := 2, acc := .ro }
def ADC.LOCK.MINROLE : Fld := { off := 0x160028, lo := 0, wid := 2, acc := .ro }
/-- `ADC.LOCK`, file 12 of the spec. -/
def ADC.LOCK : Reg := { off := 0x160028, fields := [ADC.LOCK.SEAL, ADC.LOCK.MYROLE, ADC.LOCK.MINROLE] }
def ADC.IRQ_EN.V : Fld := { off := 0x160014, lo := 0, wid := 32 }
/-- `ADC.IRQ_EN`, file 12 of the spec. -/
def ADC.IRQ_EN : Reg := { off := 0x160014, fields := [ADC.IRQ_EN.V] }
def ADC.IRQ_SET.V : Fld := { off := 0x160018, lo := 0, wid := 32, acc := .w1s, role := .maker }
/-- `ADC.IRQ_SET`, file 12 of the spec. -/
def ADC.IRQ_SET : Reg := { off := 0x160018, fields := [ADC.IRQ_SET.V] }
def ADC.CNT_EVT.HI : Fld := { off := 0x16002C, lo := 16, wid := 16, acc := .ro }
def ADC.CNT_EVT.LO : Fld := { off := 0x16002C, lo := 0, wid := 16, acc := .ro }
/-- `ADC.CNT_EVT`, file 12 of the spec. -/
def ADC.CNT_EVT : Reg := { off := 0x16002C, fields := [ADC.CNT_EVT.HI, ADC.CNT_EVT.LO] }
/-- Every register of the ADC page. -/
def ADC.regs : List Reg :=
  [ADC.CTL, ADC.STS, ADC.IRQ_RAW, ADC.SQPOL, ADC.MMC, ADC.SQSTS, ADC.BUFBOOKS, ADC.APSEL, ADC.FINFO, ADC.SEQDEF, ADC.STEP0, ADC.STEP1, ADC.INDLY, ADC.TG, ADC.WCFG, ADC.WSTS, ADC.WPTR, ADC.WOWN, ADC.OCFG, ADC.OQUIET, ADC.OCHK, ADC.OEXPR, ADC.OEXPF, ADC.OCNT, ADC.OFSTS, ADC.OLOST, ADC.OPOP0, ADC.OPOP1, ADC.OPOP2, ADC.OPOP3, ADC.BLK_ID, ADC.BLK_VER, ADC.ERR_CAP, ADC.ABORT, ADC.ABORT_STS, ADC.LOCK, ADC.IRQ_EN, ADC.IRQ_SET, ADC.CNT_EVT]

/-! ### SHN, page base 0x170000 -/

def SHN.CTL.KEEP_SHIFT : Fld := { off := 0x170008, lo := 5, wid := 1 }
def SHN.CTL.CLRFIFO : Fld := { off := 0x170008, lo := 4, wid := 1, acc := .wo }
def SHN.CTL.CLKRST : Fld := { off := 0x170008, lo := 3, wid := 1, acc := .wo }
def SHN.CTL.HALT : Fld := { off := 0x170008, lo := 2, wid := 1, acc := .wo }
def SHN.CTL.GSTART : Fld := { off := 0x170008, lo := 1, wid := 1, acc := .wo }
def SHN.CTL.START : Fld := { off := 0x170008, lo := 0, wid := 1, acc := .wo }
/-- `SHN.CTL`, file 10 of the spec. -/
def SHN.CTL : Reg := { off := 0x170008, fields := [SHN.CTL.KEEP_SHIFT, SHN.CTL.CLRFIFO, SHN.CTL.CLKRST, SHN.CTL.HALT, SHN.CTL.GSTART, SHN.CTL.START] }
def SHN.STS.PC : Fld := { off := 0x17000C, lo := 24, wid := 8, acc := .ro }
def SHN.STS.PINS : Fld := { off := 0x17000C, lo := 16, wid := 8, acc := .ro }
def SHN.STS.DRV : Fld := { off := 0x17000C, lo := 8, wid := 8, acc := .ro }
def SHN.STS.PGM_REJECT : Fld := { off := 0x17000C, lo := 7, wid := 1, acc := .ro }
def SHN.STS.TO : Fld := { off := 0x17000C, lo := 6, wid := 1, acc := .ro }
def SHN.STS.LATE : Fld := { off := 0x17000C, lo := 5, wid := 1, acc := .ro }
def SHN.STS.HALT_RSN : Fld := { off := 0x17000C, lo := 3, wid := 2, acc := .ro, reset := 0x3 }
def SHN.STS.STATE : Fld := { off := 0x17000C, lo := 0, wid := 3, acc := .ro }
/-- `SHN.STS`, file 10 of the spec. -/
def SHN.STS : Reg := { off := 0x17000C, fields := [SHN.STS.PC, SHN.STS.PINS, SHN.STS.DRV, SHN.STS.PGM_REJECT, SHN.STS.TO, SHN.STS.LATE, SHN.STS.HALT_RSN, SHN.STS.STATE] }
def SHN.IRQ_RAW.TXDMA_DONE : Fld := { off := 0x170010, lo := 10, wid := 1, acc := .w1c }
def SHN.IRQ_RAW.RXDMA_FULL : Fld := { off := 0x170010, lo := 9, wid := 1, acc := .w1c }
def SHN.IRQ_RAW.ILLEGAL : Fld := { off := 0x170010, lo := 8, wid := 1, acc := .w1c }
def SHN.IRQ_RAW.START_REJ : Fld := { off := 0x170010, lo := 7, wid := 1, acc := .w1c }
def SHN.IRQ_RAW.PGM_REJ : Fld := { off := 0x170010, lo := 6, wid := 1, acc := .w1c }
def SHN.IRQ_RAW.TX_OVF : Fld := { off := 0x170010, lo := 5, wid := 1, acc := .w1c }
def SHN.IRQ_RAW.RX_DROP : Fld := { off := 0x170010, lo := 4, wid := 1, acc := .w1c }
def SHN.IRQ_RAW.TIMEOUT_RACE : Fld := { off := 0x170010, lo := 3, wid := 1, acc := .w1c }
def SHN.IRQ_RAW.LATE : Fld := { off := 0x170010, lo := 2, wid := 1, acc := .w1c }
def SHN.IRQ_RAW.HALTED : Fld := { off := 0x170010, lo := 1, wid := 1, acc := .w1c }
def SHN.IRQ_RAW.SIG : Fld := { off := 0x170010, lo := 0, wid := 1, acc := .w1c }
/-- `SHN.IRQ_RAW`, file 10 of the spec. -/
def SHN.IRQ_RAW : Reg := { off := 0x170010, fields := [SHN.IRQ_RAW.TXDMA_DONE, SHN.IRQ_RAW.RXDMA_FULL, SHN.IRQ_RAW.ILLEGAL, SHN.IRQ_RAW.START_REJ, SHN.IRQ_RAW.PGM_REJ, SHN.IRQ_RAW.TX_OVF, SHN.IRQ_RAW.RX_DROP, SHN.IRQ_RAW.TIMEOUT_RACE, SHN.IRQ_RAW.LATE, SHN.IRQ_RAW.HALTED, SHN.IRQ_RAW.SIG] }
def SHN.START.ADDR : Fld := { off := 0x170040, lo := 0, wid := 8 }
/-- `SHN.START`, file 10 of the spec. -/
def SHN.START : Reg := { off := 0x170040, cons := 0xFF, fields := [SHN.START.ADDR] }
def SHN.DIV.INT : Fld := { off := 0x170044, lo := 8, wid := 16, reset := 0x1, bad := [(0, 0)] }
def SHN.DIV.FRAC : Fld := { off := 0x170044, lo := 0, wid := 8 }
/-- `SHN.DIV`, file 10 of the spec. -/
def SHN.DIV : Reg := { off := 0x170044, cons := 0xFFFFFF, fields := [SHN.DIV.INT, SHN.DIV.FRAC] }
def SHN.SHCFG.SLEN : Fld := { off := 0x170048, lo := 11, wid := 5 }
def SHN.SHCFG.RLEN : Fld := { off := 0x170048, lo := 6, wid := 5 }
def SHN.SHCFG.SMSB : Fld := { off := 0x170048, lo := 5, wid := 1 }
def SHN.SHCFG.RMSB : Fld := { off := 0x170048, lo := 4, wid := 1 }
def SHN.SHCFG.AUTOLOAD : Fld := { off := 0x170048, lo := 3, wid := 1 }
def SHN.SHCFG.AUTOSTORE : Fld := { off := 0x170048, lo := 2, wid := 1 }
/-- `SHN.SHCFG`, file 10 of the spec. -/
def SHN.SHCFG : Reg := { off := 0x170048, cons := 0xFFFC, fields := [SHN.SHCFG.SLEN, SHN.SHCFG.RLEN, SHN.SHCFG.SMSB, SHN.SHCFG.RMSB, SHN.SHCFG.AUTOLOAD, SHN.SHCFG.AUTOSTORE] }
def SHN.PINCFG.PUTMASK : Fld := { off := 0x17004C, lo := 24, wid := 8, reset := 0xFF }
def SHN.PINCFG.DRV0 : Fld := { off := 0x17004C, lo := 16, wid := 8 }
def SHN.PINCFG.JPIN : Fld := { off := 0x17004C, lo := 12, wid := 3 }
def SHN.PINCFG.TBASE : Fld := { off := 0x17004C, lo := 8, wid := 3 }
def SHN.PINCFG.SBASE : Fld := { off := 0x17004C, lo := 4, wid := 3 }
/-- `SHN.PINCFG`, file 10 of the spec. -/
def SHN.PINCFG : Reg := { off := 0x17004C, cons := 0xFFFF7770, fields := [SHN.PINCFG.PUTMASK, SHN.PINCFG.DRV0, SHN.PINCFG.JPIN, SHN.PINCFG.TBASE, SHN.PINCFG.SBASE] }
def SHN.INSEL.LINE0 : Fld := { off := 0x170050, lo := 0, wid := 7 }
def SHN.INSEL.EN0 : Fld := { off := 0x170050, lo := 7, wid := 1 }
def SHN.INSEL.LINE1 : Fld := { off := 0x170050, lo := 8, wid := 7 }
def SHN.INSEL.EN1 : Fld := { off := 0x170050, lo := 15, wid := 1 }
def SHN.INSEL.LINE2 : Fld := { off := 0x170050, lo := 16, wid := 7 }
def SHN.INSEL.EN2 : Fld := { off := 0x170050, lo := 23, wid := 1 }
def SHN.INSEL.LINE3 : Fld := { off := 0x170050, lo := 24, wid := 7 }
def SHN.INSEL.EN3 : Fld := { off := 0x170050, lo := 31, wid := 1 }
/-- `SHN.INSEL`, file 10 of the spec. -/
def SHN.INSEL : Reg := { off := 0x170050, cnt := 2, stride := 4, fields := [SHN.INSEL.LINE0, SHN.INSEL.EN0, SHN.INSEL.LINE1, SHN.INSEL.EN1, SHN.INSEL.LINE2, SHN.INSEL.EN2, SHN.INSEL.LINE3, SHN.INSEL.EN3] }
def SHN.GRP.V : Fld := { off := 0x170058, lo := 0, wid := 16 }
/-- `SHN.GRP`, file 10 of the spec. -/
def SHN.GRP : Reg := { off := 0x170058, cons := 0xFFFF, fields := [SHN.GRP.V] }
def SHN.A.V : Fld := { off := 0x17005C, lo := 0, wid := 32 }
/-- `SHN.A`, file 10 of the spec. -/
def SHN.A : Reg := { off := 0x17005C, fields := [SHN.A.V] }
def SHN.B.V : Fld := { off := 0x170060, lo := 0, wid := 32 }
/-- `SHN.B`, file 10 of the spec. -/
def SHN.B : Reg := { off := 0x170060, fields := [SHN.B.V] }
def SHN.T.V : Fld := { off := 0x170064, lo := 0, wid := 32 }
/-- `SHN.T`, file 10 of the spec. -/
def SHN.T : Reg := { off := 0x170064, fields := [SHN.T.V] }
def SHN.SW.V : Fld := { off := 0x170068, lo := 0, wid := 32, acc := .ro }
/-- `SHN.SW`, file 10 of the spec. -/
def SHN.SW : Reg := { off := 0x170068, fields := [SHN.SW.V] }
def SHN.RW.V : Fld := { off := 0x17006C, lo := 0, wid := 32, acc := .ro }
/-- `SHN.RW`, file 10 of the spec. -/
def SHN.RW : Reg := { off := 0x17006C, fields := [SHN.RW.V] }
def SHN.WCNT.NODATA : Fld := { off := 0x170070, lo := 31, wid := 1, acc := .ro }
def SHN.WCNT.RF : Fld := { off := 0x170070, lo := 8, wid := 6, acc := .ro }
def SHN.WCNT.SF : Fld := { off := 0x170070, lo := 0, wid := 6, acc := .ro }
/-- `SHN.WCNT`, file 10 of the spec. -/
def SHN.WCNT : Reg := { off := 0x170070, fields := [SHN.WCNT.NODATA, SHN.WCNT.RF, SHN.WCNT.SF] }
def SHN.TXF.V : Fld := { off := 0x170074, lo := 0, wid := 32, acc := .wo }
/-- `SHN.TXF`, file 10 of the spec. -/
def SHN.TXF : Reg := { off := 0x170074, fields := [SHN.TXF.V] }
def SHN.RXF.V : Fld := { off := 0x170078, lo := 0, wid := 32, acc := .ro }
/-- `SHN.RXF`, file 10 of the spec. -/
def SHN.RXF : Reg := { off := 0x170078, fields := [SHN.RXF.V] }
def SHN.FSTS.TX_HELD : Fld := { off := 0x17007C, lo := 0, wid := 4, acc := .ro }
def SHN.FSTS.TX_FREE : Fld := { off := 0x17007C, lo := 4, wid := 4, acc := .ro, reset := 0x8 }
def SHN.FSTS.TX_INFL : Fld := { off := 0x17007C, lo := 8, wid := 2, acc := .ro }
def SHN.FSTS.RX_HELD : Fld := { off := 0x17007C, lo := 16, wid := 4, acc := .ro }
def SHN.FSTS.RX_FREE : Fld := { off := 0x17007C, lo := 20, wid := 4, acc := .ro, reset := 0x8 }
/-- `SHN.FSTS`, file 10 of the spec. -/
def SHN.FSTS : Reg := { off := 0x17007C, fields := [SHN.FSTS.TX_HELD, SHN.FSTS.TX_FREE, SHN.FSTS.TX_INFL, SHN.FSTS.RX_HELD, SHN.FSTS.RX_FREE] }
def SHN.TXDMA_BASE.V : Fld := { off := 0x170080, lo := 2, wid := 19 }
/-- `SHN.TXDMA_BASE`, file 10 of the spec. -/
def SHN.TXDMA_BASE : Reg := { off := 0x170080, fields := [SHN.TXDMA_BASE.V] }
def SHN.TXDMA_LEN.EN : Fld := { off := 0x170084, lo := 31, wid := 1 }
def SHN.TXDMA_LEN.LOOP : Fld := { off := 0x170084, lo := 30, wid := 1 }
def SHN.TXDMA_LEN.LEN : Fld := { off := 0x170084, lo := 0, wid := 16, bad := [(0, 0)] }
/-- `SHN.TXDMA_LEN`, file 10 of the spec. -/
def SHN.TXDMA_LEN : Reg := { off := 0x170084, fields := [SHN.TXDMA_LEN.EN, SHN.TXDMA_LEN.LOOP, SHN.TXDMA_LEN.LEN] }
def SHN.TXDMA_POS.PASSES : Fld := { off := 0x170088, lo := 16, wid := 16, acc := .ro }
def SHN.TXDMA_POS.POS : Fld := { off := 0x170088, lo := 0, wid := 16, acc := .ro }
/-- `SHN.TXDMA_POS`, file 10 of the spec. -/
def SHN.TXDMA_POS : Reg := { off := 0x170088, fields := [SHN.TXDMA_POS.PASSES, SHN.TXDMA_POS.POS] }
def SHN.RXDMA_BASE.V : Fld := { off := 0x17008C, lo := 2, wid := 19 }
/-- `SHN.RXDMA_BASE`, file 10 of the spec. -/
def SHN.RXDMA_BASE : Reg := { off := 0x17008C, fields := [SHN.RXDMA_BASE.V] }
def SHN.RXDMA_CFG.EN : Fld := { off := 0x170090, lo := 31, wid := 1 }
def SHN.RXDMA_CFG.STRM : Fld := { off := 0x170090, lo := 29, wid := 2 }
def SHN.RXDMA_CFG.SIZE : Fld := { off := 0x170090, lo := 0, wid := 16, bad := [(0, 1)] }
/-- `SHN.RXDMA_CFG`, file 10 of the spec. -/
def SHN.RXDMA_CFG : Reg := { off := 0x170090, fields := [SHN.RXDMA_CFG.EN, SHN.RXDMA_CFG.STRM, SHN.RXDMA_CFG.SIZE] }
def SHN.RXDMA_WP.V : Fld := { off := 0x170094, lo := 0, wid := 16, acc := .ro }
/-- `SHN.RXDMA_WP`, file 10 of the spec. -/
def SHN.RXDMA_WP : Reg := { off := 0x170094, fields := [SHN.RXDMA_WP.V] }
def SHN.RXDMA_RP.V : Fld := { off := 0x170098, lo := 0, wid := 16 }
/-- `SHN.RXDMA_RP`, file 10 of the spec. -/
def SHN.RXDMA_RP : Reg := { off := 0x170098, fields := [SHN.RXDMA_RP.V] }
def SHN.SIGWORD.V : Fld := { off := 0x17009C, lo := 0, wid := 32, acc := .ro }
/-- `SHN.SIGWORD`, file 10 of the spec. -/
def SHN.SIGWORD : Reg := { off := 0x17009C, fields := [SHN.SIGWORD.V] }
def SHN.LCTR.L1 : Fld := { off := 0x1700A0, lo := 16, wid := 16 }
def SHN.LCTR.L0 : Fld := { off := 0x1700A0, lo := 0, wid := 16 }
/-- `SHN.LCTR`, file 10 of the spec. -/
def SHN.LCTR : Reg := { off := 0x1700A0, fields := [SHN.LCTR.L1, SHN.LCTR.L0] }
def SHN.BLK_ID.CODE : Fld := { off := 0x170000, lo := 24, wid := 8, acc := .ro }
def SHN.BLK_ID.INST : Fld := { off := 0x170000, lo := 16, wid := 8, acc := .ro }
def SHN.BLK_ID.LAYOUT : Fld := { off := 0x170000, lo := 8, wid := 8, acc := .ro, reset := 0x1 }
/-- `SHN.BLK_ID`, file 12 of the spec. -/
def SHN.BLK_ID : Reg := { off := 0x170000, fields := [SHN.BLK_ID.CODE, SHN.BLK_ID.INST, SHN.BLK_ID.LAYOUT] }
def SHN.BLK_VER.MAJOR : Fld := { off := 0x170004, lo := 24, wid := 8, acc := .ro, reset := 0x1 }
def SHN.BLK_VER.MINOR : Fld := { off := 0x170004, lo := 16, wid := 8, acc := .ro }
def SHN.BLK_VER.STEP : Fld := { off := 0x170004, lo := 8, wid := 8, acc := .ro, reset := 0xA1 }
/-- `SHN.BLK_VER`, file 12 of the spec. -/
def SHN.BLK_VER : Reg := { off := 0x170004, fields := [SHN.BLK_VER.MAJOR, SHN.BLK_VER.MINOR, SHN.BLK_VER.STEP] }
def SHN.ERR_CAP.VALID : Fld := { off := 0x17001C, lo := 31, wid := 1, acc := .w1c }
def SHN.ERR_CAP.REASON : Fld := { off := 0x17001C, lo := 27, wid := 4, acc := .ro }
def SHN.ERR_CAP.REQ : Fld := { off := 0x17001C, lo := 19, wid := 8, acc := .ro }
def SHN.ERR_CAP.OFS : Fld := { off := 0x17001C, lo := 0, wid := 12, acc := .ro }
/-- `SHN.ERR_CAP`, file 12 of the spec. -/
def SHN.ERR_CAP : Reg := { off := 0x17001C, fields := [SHN.ERR_CAP.VALID, SHN.ERR_CAP.REASON, SHN.ERR_CAP.REQ, SHN.ERR_CAP.OFS] }
def SHN.ABORT.GO : Fld := { off := 0x170020, lo := 0, wid := 1, acc := .wo }
/-- `SHN.ABORT`, file 12 of the spec. -/
def SHN.ABORT : Reg := { off := 0x170020, fields := [SHN.ABORT.GO] }
def SHN.ABORT_STS.COUNT : Fld := { off := 0x170024, lo := 16, wid := 16, acc := .ro }
def SHN.ABORT_STS.BUSY : Fld := { off := 0x170024, lo := 1, wid := 1, acc := .ro }
def SHN.ABORT_STS.DONE : Fld := { off := 0x170024, lo := 0, wid := 1, acc := .w1c }
/-- `SHN.ABORT_STS`, file 12 of the spec. -/
def SHN.ABORT_STS : Reg := { off := 0x170024, fields := [SHN.ABORT_STS.COUNT, SHN.ABORT_STS.BUSY, SHN.ABORT_STS.DONE] }
def SHN.LOCK.SEAL : Fld := { off := 0x170028, lo := 31, wid := 1, acc := .w1s, role := .installer }
def SHN.LOCK.MYROLE : Fld := { off := 0x170028, lo := 16, wid := 2, acc := .ro }
def SHN.LOCK.MINROLE : Fld := { off := 0x170028, lo := 0, wid := 2, acc := .ro }
/-- `SHN.LOCK`, file 12 of the spec. -/
def SHN.LOCK : Reg := { off := 0x170028, fields := [SHN.LOCK.SEAL, SHN.LOCK.MYROLE, SHN.LOCK.MINROLE] }
def SHN.IRQ_EN.V : Fld := { off := 0x170014, lo := 0, wid := 32 }
/-- `SHN.IRQ_EN`, file 12 of the spec. -/
def SHN.IRQ_EN : Reg := { off := 0x170014, fields := [SHN.IRQ_EN.V] }
def SHN.IRQ_SET.V : Fld := { off := 0x170018, lo := 0, wid := 32, acc := .w1s, role := .maker }
/-- `SHN.IRQ_SET`, file 12 of the spec. -/
def SHN.IRQ_SET : Reg := { off := 0x170018, fields := [SHN.IRQ_SET.V] }
def SHN.CNT_EVT.HI : Fld := { off := 0x17002C, lo := 16, wid := 16, acc := .ro }
def SHN.CNT_EVT.LO : Fld := { off := 0x17002C, lo := 0, wid := 16, acc := .ro }
/-- `SHN.CNT_EVT`, file 12 of the spec. -/
def SHN.CNT_EVT : Reg := { off := 0x17002C, fields := [SHN.CNT_EVT.HI, SHN.CNT_EVT.LO] }
/-- Every register of the SHN page. -/
def SHN.regs : List Reg :=
  [SHN.CTL, SHN.STS, SHN.IRQ_RAW, SHN.START, SHN.DIV, SHN.SHCFG, SHN.PINCFG, SHN.INSEL, SHN.GRP, SHN.A, SHN.B, SHN.T, SHN.SW, SHN.RW, SHN.WCNT, SHN.TXF, SHN.RXF, SHN.FSTS, SHN.TXDMA_BASE, SHN.TXDMA_LEN, SHN.TXDMA_POS, SHN.RXDMA_BASE, SHN.RXDMA_CFG, SHN.RXDMA_WP, SHN.RXDMA_RP, SHN.SIGWORD, SHN.LCTR, SHN.BLK_ID, SHN.BLK_VER, SHN.ERR_CAP, SHN.ABORT, SHN.ABORT_STS, SHN.LOCK, SHN.IRQ_EN, SHN.IRQ_SET, SHN.CNT_EVT]

/-! ### MEN, page base 0x180000 -/

def MEN.CTL.RESUME : Fld := { off := 0x180008, lo := 3, wid := 1, acc := .wo }
def MEN.CTL.SCRUB : Fld := { off := 0x180008, lo := 2, wid := 1, reset := 0x1 }
def MEN.CTL.FAULTPOL : Fld := { off := 0x180008, lo := 1, wid := 1 }
def MEN.CTL.EN : Fld := { off := 0x180008, lo := 0, wid := 1, reset := 0x1 }
/-- `MEN.CTL`, file 06 of the spec. -/
def MEN.CTL : Reg := { off := 0x180008, fields := [MEN.CTL.RESUME, MEN.CTL.SCRUB, MEN.CTL.FAULTPOL, MEN.CTL.EN] }
def MEN.STS.PENDING : Fld := { off := 0x18000C, lo := 24, wid := 8, acc := .ro }
def MEN.STS.PRESENT : Fld := { off := 0x18000C, lo := 16, wid := 8, acc := .ro }
def MEN.STS.CUR_LVL : Fld := { off := 0x18000C, lo := 13, wid := 3, acc := .ro }
def MEN.STS.SEALED : Fld := { off := 0x18000C, lo := 12, wid := 1, acc := .ro }
def MEN.STS.STATE : Fld := { off := 0x18000C, lo := 0, wid := 3, acc := .ro }
/-- `MEN.STS`, file 06 of the spec. -/
def MEN.STS : Reg := { off := 0x18000C, fields := [MEN.STS.PENDING, MEN.STS.PRESENT, MEN.STS.CUR_LVL, MEN.STS.SEALED, MEN.STS.STATE] }
def MEN.IRQ_RAW.ACC_ERR : Fld := { off := 0x180010, lo := 8, wid := 1, acc := .w1c }
def MEN.IRQ_RAW.ECC_REPAIR : Fld := { off := 0x180010, lo := 7, wid := 1, acc := .w1c }
def MEN.IRQ_RAW.ECC_CORR : Fld := { off := 0x180010, lo := 6, wid := 1, acc := .w1c }
def MEN.IRQ_RAW.LATE_OVR : Fld := { off := 0x180010, lo := 5, wid := 1, acc := .w1c }
def MEN.IRQ_RAW.OVERRUN : Fld := { off := 0x180010, lo := 4, wid := 1, acc := .w1c }
def MEN.IRQ_RAW.CALL_REF : Fld := { off := 0x180010, lo := 3, wid := 1, acc := .w1c }
def MEN.IRQ_RAW.EV_OVR : Fld := { off := 0x180010, lo := 2, wid := 1, acc := .w1c }
def MEN.IRQ_RAW.TIMEOUT_RACE : Fld := { off := 0x180010, lo := 1, wid := 1, acc := .w1c }
def MEN.IRQ_RAW.FAULT : Fld := { off := 0x180010, lo := 0, wid := 1, acc := .w1c }
/-- `MEN.IRQ_RAW`, file 06 of the spec. -/
def MEN.IRQ_RAW : Reg := { off := 0x180010, fields := [MEN.IRQ_RAW.ACC_ERR, MEN.IRQ_RAW.ECC_REPAIR, MEN.IRQ_RAW.ECC_CORR, MEN.IRQ_RAW.LATE_OVR, MEN.IRQ_RAW.OVERRUN, MEN.IRQ_RAW.CALL_REF, MEN.IRQ_RAW.EV_OVR, MEN.IRQ_RAW.TIMEOUT_RACE, MEN.IRQ_RAW.FAULT] }
def MEN.CALLMAP.LATE : Fld := { off := 0x180040, lo := 12, wid := 3, reset := 0x5 }
def MEN.CALLMAP.P3 : Fld := { off := 0x180040, lo := 9, wid := 3, reset := 0x4 }
def MEN.CALLMAP.P2 : Fld := { off := 0x180040, lo := 6, wid := 3, reset := 0x3 }
def MEN.CALLMAP.P1 : Fld := { off := 0x180040, lo := 3, wid := 3, reset := 0x2 }
def MEN.CALLMAP.P0 : Fld := { off := 0x180040, lo := 0, wid := 3, reset := 0x1 }
/-- `MEN.CALLMAP`, file 06 of the spec. -/
def MEN.CALLMAP : Reg := { off := 0x180040, cons := 0x7FFF, fields := [MEN.CALLMAP.LATE, MEN.CALLMAP.P3, MEN.CALLMAP.P2, MEN.CALLMAP.P1, MEN.CALLMAP.P0] }
def MEN.BUDGET.LOW : Fld := { off := 0x180044, lo := 0, wid := 16, reset := 0x20 }
/-- `MEN.BUDGET`, file 06 of the spec. -/
def MEN.BUDGET : Reg := { off := 0x180044, cons := 0xFFFF, fields := [MEN.BUDGET.LOW] }
def MEN.CALLQ.REFUSED : Fld := { off := 0x180048, lo := 16, wid := 16, acc := .ro }
def MEN.CALLQ.LEVEL : Fld := { off := 0x180048, lo := 0, wid := 4, acc := .ro }
/-- `MEN.CALLQ`, file 06 of the spec. -/
def MEN.CALLQ : Reg := { off := 0x180048, fields := [MEN.CALLQ.REFUSED, MEN.CALLQ.LEVEL] }
def MEN.EVOVR.COALESCED : Fld := { off := 0x18004C, lo := 16, wid := 16, acc := .ro }
def MEN.EVOVR.VEC : Fld := { off := 0x18004C, lo := 0, wid := 3, acc := .ro }
/-- `MEN.EVOVR`, file 06 of the spec. -/
def MEN.EVOVR : Reg := { off := 0x18004C, fields := [MEN.EVOVR.COALESCED, MEN.EVOVR.VEC] }
def MEN.FAULT.REASON : Fld := { off := 0x180050, lo := 28, wid := 4, acc := .ro }
def MEN.FAULT.LEVEL : Fld := { off := 0x180050, lo := 24, wid := 3, acc := .ro }
def MEN.FAULT.PC : Fld := { off := 0x180050, lo := 0, wid := 13, acc := .ro }
/-- `MEN.FAULT`, file 06 of the spec. -/
def MEN.FAULT : Reg := { off := 0x180050, fields := [MEN.FAULT.REASON, MEN.FAULT.LEVEL, MEN.FAULT.PC] }
def MEN.OVRCAP.VALID : Fld := { off := 0x180054, lo := 31, wid := 1, acc := .w1c }
def MEN.OVRCAP.LEVEL : Fld := { off := 0x180054, lo := 28, wid := 3, acc := .ro }
def MEN.OVRCAP.PC : Fld := { off := 0x180054, lo := 15, wid := 13, acc := .ro }
def MEN.OVRCAP.INDEX : Fld := { off := 0x180054, lo := 0, wid := 14, acc := .ro }
/-- `MEN.OVRCAP`, file 06 of the spec. -/
def MEN.OVRCAP : Reg := { off := 0x180054, fields := [MEN.OVRCAP.VALID, MEN.OVRCAP.LEVEL, MEN.OVRCAP.PC, MEN.OVRCAP.INDEX] }
def MEN.PCSNAP.ACTIVE : Fld := { off := 0x180058, lo := 24, wid := 8, acc := .ro }
def MEN.PCSNAP.WAITING : Fld := { off := 0x180058, lo := 16, wid := 8, acc := .ro }
def MEN.PCSNAP.LEVEL : Fld := { off := 0x180058, lo := 13, wid := 3, acc := .ro }
def MEN.PCSNAP.PC : Fld := { off := 0x180058, lo := 0, wid := 13, acc := .ro }
/-- `MEN.PCSNAP`, file 06 of the spec. -/
def MEN.PCSNAP : Reg := { off := 0x180058, fields := [MEN.PCSNAP.ACTIVE, MEN.PCSNAP.WAITING, MEN.PCSNAP.LEVEL, MEN.PCSNAP.PC] }
def MEN.ECC0.NANO_CORR : Fld := { off := 0x18005C, lo := 16, wid := 16, acc := .ro }
def MEN.ECC0.MICRO_CORR : Fld := { off := 0x18005C, lo := 0, wid := 16, acc := .ro }
/-- `MEN.ECC0`, file 06 of the spec. -/
def MEN.ECC0 : Reg := { off := 0x18005C, fields := [MEN.ECC0.NANO_CORR, MEN.ECC0.MICRO_CORR] }
def MEN.EV.EN : Fld := { off := 0x180060, lo := 31, wid := 1 }
def MEN.EV.KIND : Fld := { off := 0x180060, lo := 27, wid := 4 }
def MEN.EV.INDEX : Fld := { off := 0x180060, lo := 19, wid := 8 }
def MEN.EV.LEVEL : Fld := { off := 0x180060, lo := 16, wid := 3 }
def MEN.EV.ADDR : Fld := { off := 0x180060, lo := 0, wid := 13 }
/-- `MEN.EV`, file 06 of the spec. -/
def MEN.EV : Reg := { off := 0x180060, cnt := 8, stride := 4, cons := 0xFFFF1FFF, fields := [MEN.EV.EN, MEN.EV.KIND, MEN.EV.INDEX, MEN.EV.LEVEL, MEN.EV.ADDR] }
def MEN.DBV.EN : Fld := { off := 0x180080, lo := 31, wid := 1 }
def MEN.DBV.LEVEL : Fld := { off := 0x180080, lo := 16, wid := 3 }
def MEN.DBV.ADDR : Fld := { off := 0x180080, lo := 0, wid := 13 }
/-- `MEN.DBV`, file 06 of the spec. -/
def MEN.DBV : Reg := { off := 0x180080, cnt := 4, stride := 4, cons := 0x80071FFF, fields := [MEN.DBV.EN, MEN.DBV.LEVEL, MEN.DBV.ADDR] }
def MEN.DB.VEC : Fld := { off := 0x180090, lo := 30, wid := 2, acc := .wo }
def MEN.DB.DATA : Fld := { off := 0x180090, lo := 0, wid := 24, acc := .wo }
def MEN.DB.PEND : Fld := { off := 0x180090, lo := 0, wid := 4, acc := .ro }
/-- `MEN.DB`, file 06 of the spec. -/
def MEN.DB : Reg := { off := 0x180090, fields := [MEN.DB.VEC, MEN.DB.DATA, MEN.DB.PEND] }
def MEN.ECC1.PASSES : Fld := { off := 0x180094, lo := 16, wid := 16, acc := .ro }
def MEN.ECC1.NANO_REPAIR : Fld := { off := 0x180094, lo := 0, wid := 16, acc := .ro }
/-- `MEN.ECC1`, file 06 of the spec. -/
def MEN.ECC1 : Reg := { off := 0x180094, fields := [MEN.ECC1.PASSES, MEN.ECC1.NANO_REPAIR] }
def MEN.MCVER0.IMAGE_ID : Fld := { off := 0x1800A0, lo := 16, wid := 16, acc := .ro }
def MEN.MCVER0.ABI : Fld := { off := 0x1800A0, lo := 8, wid := 8, acc := .ro }
/-- `MEN.MCVER0`, file 06 of the spec. -/
def MEN.MCVER0 : Reg := { off := 0x1800A0, fields := [MEN.MCVER0.IMAGE_ID, MEN.MCVER0.ABI] }
def MEN.MCVER1.MAJOR : Fld := { off := 0x1800A4, lo := 24, wid := 8, acc := .ro }
def MEN.MCVER1.MINOR : Fld := { off := 0x1800A4, lo := 16, wid := 8, acc := .ro }
def MEN.MCVER1.PATCH : Fld := { off := 0x1800A4, lo := 0, wid := 16, acc := .ro }
/-- `MEN.MCVER1`, file 06 of the spec. -/
def MEN.MCVER1 : Reg := { off := 0x1800A4, fields := [MEN.MCVER1.MAJOR, MEN.MCVER1.MINOR, MEN.MCVER1.PATCH] }
def MEN.MCVER2.BUILD : Fld := { off := 0x1800A8, lo := 0, wid := 32, acc := .ro }
/-- `MEN.MCVER2`, file 06 of the spec. -/
def MEN.MCVER2 : Reg := { off := 0x1800A8, fields := [MEN.MCVER2.BUILD] }
def MEN.BLK_ID.CODE : Fld := { off := 0x180000, lo := 24, wid := 8, acc := .ro }
def MEN.BLK_ID.INST : Fld := { off := 0x180000, lo := 16, wid := 8, acc := .ro }
def MEN.BLK_ID.LAYOUT : Fld := { off := 0x180000, lo := 8, wid := 8, acc := .ro, reset := 0x1 }
/-- `MEN.BLK_ID`, file 12 of the spec. -/
def MEN.BLK_ID : Reg := { off := 0x180000, fields := [MEN.BLK_ID.CODE, MEN.BLK_ID.INST, MEN.BLK_ID.LAYOUT] }
def MEN.BLK_VER.MAJOR : Fld := { off := 0x180004, lo := 24, wid := 8, acc := .ro, reset := 0x1 }
def MEN.BLK_VER.MINOR : Fld := { off := 0x180004, lo := 16, wid := 8, acc := .ro }
def MEN.BLK_VER.STEP : Fld := { off := 0x180004, lo := 8, wid := 8, acc := .ro, reset := 0xA1 }
/-- `MEN.BLK_VER`, file 12 of the spec. -/
def MEN.BLK_VER : Reg := { off := 0x180004, fields := [MEN.BLK_VER.MAJOR, MEN.BLK_VER.MINOR, MEN.BLK_VER.STEP] }
def MEN.ERR_CAP.VALID : Fld := { off := 0x18001C, lo := 31, wid := 1, acc := .w1c }
def MEN.ERR_CAP.REASON : Fld := { off := 0x18001C, lo := 27, wid := 4, acc := .ro }
def MEN.ERR_CAP.REQ : Fld := { off := 0x18001C, lo := 19, wid := 8, acc := .ro }
def MEN.ERR_CAP.OFS : Fld := { off := 0x18001C, lo := 0, wid := 12, acc := .ro }
/-- `MEN.ERR_CAP`, file 12 of the spec. -/
def MEN.ERR_CAP : Reg := { off := 0x18001C, fields := [MEN.ERR_CAP.VALID, MEN.ERR_CAP.REASON, MEN.ERR_CAP.REQ, MEN.ERR_CAP.OFS] }
def MEN.ABORT.GO : Fld := { off := 0x180020, lo := 0, wid := 1, acc := .wo }
/-- `MEN.ABORT`, file 12 of the spec. -/
def MEN.ABORT : Reg := { off := 0x180020, fields := [MEN.ABORT.GO] }
def MEN.ABORT_STS.COUNT : Fld := { off := 0x180024, lo := 16, wid := 16, acc := .ro }
def MEN.ABORT_STS.BUSY : Fld := { off := 0x180024, lo := 1, wid := 1, acc := .ro }
def MEN.ABORT_STS.DONE : Fld := { off := 0x180024, lo := 0, wid := 1, acc := .w1c }
/-- `MEN.ABORT_STS`, file 12 of the spec. -/
def MEN.ABORT_STS : Reg := { off := 0x180024, fields := [MEN.ABORT_STS.COUNT, MEN.ABORT_STS.BUSY, MEN.ABORT_STS.DONE] }
def MEN.LOCK.SEAL : Fld := { off := 0x180028, lo := 31, wid := 1, acc := .w1s, role := .installer }
def MEN.LOCK.MYROLE : Fld := { off := 0x180028, lo := 16, wid := 2, acc := .ro }
def MEN.LOCK.MINROLE : Fld := { off := 0x180028, lo := 0, wid := 2, acc := .ro }
/-- `MEN.LOCK`, file 12 of the spec. -/
def MEN.LOCK : Reg := { off := 0x180028, fields := [MEN.LOCK.SEAL, MEN.LOCK.MYROLE, MEN.LOCK.MINROLE] }
def MEN.IRQ_EN.V : Fld := { off := 0x180014, lo := 0, wid := 32 }
/-- `MEN.IRQ_EN`, file 12 of the spec. -/
def MEN.IRQ_EN : Reg := { off := 0x180014, fields := [MEN.IRQ_EN.V] }
def MEN.IRQ_SET.V : Fld := { off := 0x180018, lo := 0, wid := 32, acc := .w1s, role := .maker }
/-- `MEN.IRQ_SET`, file 12 of the spec. -/
def MEN.IRQ_SET : Reg := { off := 0x180018, fields := [MEN.IRQ_SET.V] }
def MEN.CNT_EVT.HI : Fld := { off := 0x18002C, lo := 16, wid := 16, acc := .ro }
def MEN.CNT_EVT.LO : Fld := { off := 0x18002C, lo := 0, wid := 16, acc := .ro }
/-- `MEN.CNT_EVT`, file 12 of the spec. -/
def MEN.CNT_EVT : Reg := { off := 0x18002C, fields := [MEN.CNT_EVT.HI, MEN.CNT_EVT.LO] }
/-- Every register of the MEN page. -/
def MEN.regs : List Reg :=
  [MEN.CTL, MEN.STS, MEN.IRQ_RAW, MEN.CALLMAP, MEN.BUDGET, MEN.CALLQ, MEN.EVOVR, MEN.FAULT, MEN.OVRCAP, MEN.PCSNAP, MEN.ECC0, MEN.EV, MEN.DBV, MEN.DB, MEN.ECC1, MEN.MCVER0, MEN.MCVER1, MEN.MCVER2, MEN.BLK_ID, MEN.BLK_VER, MEN.ERR_CAP, MEN.ABORT, MEN.ABORT_STS, MEN.LOCK, MEN.IRQ_EN, MEN.IRQ_SET, MEN.CNT_EVT]

/-! ### MEM, page base 0x190000 -/

def MEM.IRQ_RAW.ROTATION : Fld := { off := 0x190010, lo := 5, wid := 1, acc := .w1c }
def MEM.IRQ_RAW.BGT_FAIL : Fld := { off := 0x190010, lo := 4, wid := 1, acc := .w1c }
def MEM.IRQ_RAW.UNCORR : Fld := { off := 0x190010, lo := 3, wid := 1, acc := .w1c }
def MEM.IRQ_RAW.CORR : Fld := { off := 0x190010, lo := 2, wid := 1, acc := .w1c }
def MEM.IRQ_RAW.COLLIDE : Fld := { off := 0x190010, lo := 1, wid := 1, acc := .w1c }
def MEM.IRQ_RAW.DMA_STARVE : Fld := { off := 0x190010, lo := 0, wid := 1, acc := .w1c }
/-- `MEM.IRQ_RAW`, file 11 of the spec. -/
def MEM.IRQ_RAW : Reg := { off := 0x190010, fields := [MEM.IRQ_RAW.ROTATION, MEM.IRQ_RAW.BGT_FAIL, MEM.IRQ_RAW.UNCORR, MEM.IRQ_RAW.CORR, MEM.IRQ_RAW.COLLIDE, MEM.IRQ_RAW.DMA_STARVE] }
def MEM.CTL.SCRUB_INT : Fld := { off := 0x190008, lo := 8, wid := 8, reset := 0x40, bad := [(0, 15)] }
def MEM.CTL.SCRUB_EN : Fld := { off := 0x190008, lo := 0, wid := 1, reset := 0x1 }
/-- `MEM.CTL`, file 11 of the spec. -/
def MEM.CTL : Reg := { off := 0x190008, fields := [MEM.CTL.SCRUB_INT, MEM.CTL.SCRUB_EN] }
def MEM.STS.RETIRED : Fld := { off := 0x19000C, lo := 2, wid := 1, acc := .ro }
def MEM.STS.BGT_RUN : Fld := { off := 0x19000C, lo := 1, wid := 1, acc := .ro, reset := 0x1 }
def MEM.STS.CLEAR_DONE : Fld := { off := 0x19000C, lo := 0, wid := 1, acc := .ro, reset := 0x1 }
/-- `MEM.STS`, file 11 of the spec. -/
def MEM.STS : Reg := { off := 0x19000C, fields := [MEM.STS.RETIRED, MEM.STS.BGT_RUN, MEM.STS.CLEAR_DONE] }
def MEM.ARB.STARVE_THR : Fld := { off := 0x190040, lo := 0, wid := 16, reset := 0x40, bad := [(0, 15)] }
/-- `MEM.ARB`, file 11 of the spec. -/
def MEM.ARB : Reg := { off := 0x190040, fields := [MEM.ARB.STARVE_THR] }
def MEM.STARVE.MAXWAIT : Fld := { off := 0x190044, lo := 16, wid := 16, acc := .ro }
def MEM.STARVE.SIDING : Fld := { off := 0x190044, lo := 0, wid := 4, acc := .ro }
/-- `MEM.STARVE`, file 11 of the spec. -/
def MEM.STARVE : Reg := { off := 0x190044, fields := [MEM.STARVE.MAXWAIT, MEM.STARVE.SIDING] }
def MEM.COLLIDE0.REQ : Fld := { off := 0x190048, lo := 24, wid := 8, acc := .ro }
def MEM.COLLIDE0.LANES : Fld := { off := 0x190048, lo := 20, wid := 4, acc := .ro }
def MEM.COLLIDE0.ENG : Fld := { off := 0x190048, lo := 17, wid := 3, acc := .ro }
def MEM.COLLIDE0.ADDR : Fld := { off := 0x190048, lo := 2, wid := 14, acc := .ro }
/-- `MEM.COLLIDE0`, file 11 of the spec. -/
def MEM.COLLIDE0 : Reg := { off := 0x190048, fields := [MEM.COLLIDE0.REQ, MEM.COLLIDE0.LANES, MEM.COLLIDE0.ENG, MEM.COLLIDE0.ADDR] }
def MEM.COLLIDE1.DEP : Fld := { off := 0x19004C, lo := 0, wid := 32, acc := .ro }
/-- `MEM.COLLIDE1`, file 11 of the spec. -/
def MEM.COLLIDE1 : Reg := { off := 0x19004C, fields := [MEM.COLLIDE1.DEP] }
def MEM.ECCCNT.UNCORR : Fld := { off := 0x190050, lo := 16, wid := 16, acc := .ro }
def MEM.ECCCNT.CORR : Fld := { off := 0x190050, lo := 0, wid := 16, acc := .ro }
/-- `MEM.ECCCNT`, file 11 of the spec. -/
def MEM.ECCCNT : Reg := { off := 0x190050, fields := [MEM.ECCCNT.UNCORR, MEM.ECCCNT.CORR] }
def MEM.UECAP.VALID : Fld := { off := 0x190054, lo := 31, wid := 1, acc := .w1c }
def MEM.UECAP.STORE : Fld := { off := 0x190054, lo := 28, wid := 3, acc := .ro }
def MEM.UECAP.WORD : Fld := { off := 0x190054, lo := 0, wid := 19, acc := .ro }
/-- `MEM.UECAP`, file 11 of the spec. -/
def MEM.UECAP : Reg := { off := 0x190054, fields := [MEM.UECAP.VALID, MEM.UECAP.STORE, MEM.UECAP.WORD] }
def MEM.BGT.EN : Fld := { off := 0x190058, lo := 31, wid := 1, acc := .rwl, role := .maker, reset := 0x1 }
/-- `MEM.BGT`, file 11 of the spec. -/
def MEM.BGT : Reg := { off := 0x190058, fields := [MEM.BGT.EN] }
def MEM.BGT_STS.SIDING : Fld := { off := 0x19005C, lo := 28, wid := 4, acc := .ro }
def MEM.BGT_STS.PHASE : Fld := { off := 0x19005C, lo := 26, wid := 2, acc := .ro }
def MEM.BGT_STS.RSIDING : Fld := { off := 0x19005C, lo := 21, wid := 4, acc := .ro }
def MEM.BGT_STS.PTR : Fld := { off := 0x19005C, lo := 0, wid := 15, acc := .ro }
/-- `MEM.BGT_STS`, file 11 of the spec. -/
def MEM.BGT_STS : Reg := { off := 0x19005C, fields := [MEM.BGT_STS.SIDING, MEM.BGT_STS.PHASE, MEM.BGT_STS.RSIDING, MEM.BGT_STS.PTR] }
def MEM.BGT_ROT.V : Fld := { off := 0x190060, lo := 0, wid := 32, acc := .ro }
/-- `MEM.BGT_ROT`, file 11 of the spec. -/
def MEM.BGT_ROT : Reg := { off := 0x190060, fields := [MEM.BGT_ROT.V] }
def MEM.BOOKS.BSIDING : Fld := { off := 0x190064, lo := 12, wid := 4, acc := .ro }
def MEM.BOOKS.BORROWED : Fld := { off := 0x190064, lo := 8, wid := 1, acc := .ro, reset := 0x1 }
def MEM.BOOKS.IN_SERVICE : Fld := { off := 0x190064, lo := 0, wid := 5, acc := .ro, reset := 0x10 }
/-- `MEM.BOOKS`, file 11 of the spec. -/
def MEM.BOOKS : Reg := { off := 0x190064, fields := [MEM.BOOKS.BSIDING, MEM.BOOKS.BORROWED, MEM.BOOKS.IN_SERVICE] }
def MEM.CLRTIME.V : Fld := { off := 0x190068, lo := 0, wid := 16, acc := .ro }
/-- `MEM.CLRTIME`, file 11 of the spec. -/
def MEM.CLRTIME : Reg := { off := 0x190068, fields := [MEM.CLRTIME.V] }
def MEM.BLK_ID.CODE : Fld := { off := 0x190000, lo := 24, wid := 8, acc := .ro }
def MEM.BLK_ID.INST : Fld := { off := 0x190000, lo := 16, wid := 8, acc := .ro }
def MEM.BLK_ID.LAYOUT : Fld := { off := 0x190000, lo := 8, wid := 8, acc := .ro, reset := 0x1 }
/-- `MEM.BLK_ID`, file 12 of the spec. -/
def MEM.BLK_ID : Reg := { off := 0x190000, fields := [MEM.BLK_ID.CODE, MEM.BLK_ID.INST, MEM.BLK_ID.LAYOUT] }
def MEM.BLK_VER.MAJOR : Fld := { off := 0x190004, lo := 24, wid := 8, acc := .ro, reset := 0x1 }
def MEM.BLK_VER.MINOR : Fld := { off := 0x190004, lo := 16, wid := 8, acc := .ro }
def MEM.BLK_VER.STEP : Fld := { off := 0x190004, lo := 8, wid := 8, acc := .ro, reset := 0xA1 }
/-- `MEM.BLK_VER`, file 12 of the spec. -/
def MEM.BLK_VER : Reg := { off := 0x190004, fields := [MEM.BLK_VER.MAJOR, MEM.BLK_VER.MINOR, MEM.BLK_VER.STEP] }
def MEM.ERR_CAP.VALID : Fld := { off := 0x19001C, lo := 31, wid := 1, acc := .w1c }
def MEM.ERR_CAP.REASON : Fld := { off := 0x19001C, lo := 27, wid := 4, acc := .ro }
def MEM.ERR_CAP.REQ : Fld := { off := 0x19001C, lo := 19, wid := 8, acc := .ro }
def MEM.ERR_CAP.OFS : Fld := { off := 0x19001C, lo := 0, wid := 12, acc := .ro }
/-- `MEM.ERR_CAP`, file 12 of the spec. -/
def MEM.ERR_CAP : Reg := { off := 0x19001C, fields := [MEM.ERR_CAP.VALID, MEM.ERR_CAP.REASON, MEM.ERR_CAP.REQ, MEM.ERR_CAP.OFS] }
def MEM.ABORT.GO : Fld := { off := 0x190020, lo := 0, wid := 1, acc := .wo }
/-- `MEM.ABORT`, file 12 of the spec. -/
def MEM.ABORT : Reg := { off := 0x190020, fields := [MEM.ABORT.GO] }
def MEM.ABORT_STS.COUNT : Fld := { off := 0x190024, lo := 16, wid := 16, acc := .ro }
def MEM.ABORT_STS.BUSY : Fld := { off := 0x190024, lo := 1, wid := 1, acc := .ro }
def MEM.ABORT_STS.DONE : Fld := { off := 0x190024, lo := 0, wid := 1, acc := .w1c }
/-- `MEM.ABORT_STS`, file 12 of the spec. -/
def MEM.ABORT_STS : Reg := { off := 0x190024, fields := [MEM.ABORT_STS.COUNT, MEM.ABORT_STS.BUSY, MEM.ABORT_STS.DONE] }
def MEM.LOCK.SEAL : Fld := { off := 0x190028, lo := 31, wid := 1, acc := .w1s, role := .installer }
def MEM.LOCK.MYROLE : Fld := { off := 0x190028, lo := 16, wid := 2, acc := .ro }
def MEM.LOCK.MINROLE : Fld := { off := 0x190028, lo := 0, wid := 2, acc := .ro }
/-- `MEM.LOCK`, file 12 of the spec. -/
def MEM.LOCK : Reg := { off := 0x190028, fields := [MEM.LOCK.SEAL, MEM.LOCK.MYROLE, MEM.LOCK.MINROLE] }
def MEM.IRQ_EN.V : Fld := { off := 0x190014, lo := 0, wid := 32 }
/-- `MEM.IRQ_EN`, file 12 of the spec. -/
def MEM.IRQ_EN : Reg := { off := 0x190014, fields := [MEM.IRQ_EN.V] }
def MEM.IRQ_SET.V : Fld := { off := 0x190018, lo := 0, wid := 32, acc := .w1s, role := .maker }
/-- `MEM.IRQ_SET`, file 12 of the spec. -/
def MEM.IRQ_SET : Reg := { off := 0x190018, fields := [MEM.IRQ_SET.V] }
def MEM.CNT_EVT.HI : Fld := { off := 0x19002C, lo := 16, wid := 16, acc := .ro }
def MEM.CNT_EVT.LO : Fld := { off := 0x19002C, lo := 0, wid := 16, acc := .ro }
/-- `MEM.CNT_EVT`, file 12 of the spec. -/
def MEM.CNT_EVT : Reg := { off := 0x19002C, fields := [MEM.CNT_EVT.HI, MEM.CNT_EVT.LO] }
/-- Every register of the MEM page. -/
def MEM.regs : List Reg :=
  [MEM.IRQ_RAW, MEM.CTL, MEM.STS, MEM.ARB, MEM.STARVE, MEM.COLLIDE0, MEM.COLLIDE1, MEM.ECCCNT, MEM.UECAP, MEM.BGT, MEM.BGT_STS, MEM.BGT_ROT, MEM.BOOKS, MEM.CLRTIME, MEM.BLK_ID, MEM.BLK_VER, MEM.ERR_CAP, MEM.ABORT, MEM.ABORT_STS, MEM.LOCK, MEM.IRQ_EN, MEM.IRQ_SET, MEM.CNT_EVT]

/-! ### The pages -/

/-- One kind of page: base address, number of instances, distance between them, block code (`BLK_ID.CODE`) and its
registers. -/
structure Page where
  base : Nat
  cnt : Nat
  stride : Nat
  code : Nat
  regs : List Reg
  deriving DecidableEq, Repr

/-- The GLB page (R416). -/
def GLB.page : Page :=
  { base := 0x0, cnt := 1, stride := 0x1000, code := 0x1, regs := GLB.regs }
/-- The PWR page (R416). -/
def PWR.page : Page :=
  { base := 0x1000, cnt := 1, stride := 0x1000, code := 0x2, regs := PWR.regs }
/-- The SEC page (R416). -/
def SEC.page : Page :=
  { base := 0x2000, cnt := 1, stride := 0x1000, code := 0x3, regs := SEC.regs }
/-- The HST page (R416). -/
def HST.page : Page :=
  { base := 0x3000, cnt := 1, stride := 0x1000, code := 0x4, regs := HST.regs }
/-- The TBU page (R416). -/
def TBU.page : Page :=
  { base := 0x4000, cnt := 1, stride := 0x1000, code := 0x5, regs := TBU.regs }
/-- The TWN page (R416). -/
def TWN.page : Page :=
  { base := 0x5000, cnt := 1, stride := 0x1000, code := 0x6, regs := TWN.regs }
/-- The CNS page (R416). -/
def CNS.page : Page :=
  { base := 0x6000, cnt := 1, stride := 0x1000, code := 0x7, regs := CNS.regs }
/-- The DSP page (R416). -/
def DSP.page : Page :=
  { base := 0x8000, cnt := 1, stride := 0x1000, code := 0x8, regs := DSP.regs }
/-- The TRK pages (R416). -/
def TRK.page : Page :=
  { base := 0x100000, cnt := 256, stride := 0x100, code := 0x10, regs := TRK.regs }
/-- The JNC page (R416). -/
def JNC.page : Page :=
  { base := 0x120000, cnt := 1, stride := 0x1000, code := 0x11, regs := JNC.regs }
/-- The TTN pages (R416). -/
def TTN.page : Page :=
  { base := 0x130000, cnt := 8, stride := 0x1000, code := 0x12, regs := TTN.regs }
/-- The RUL pages (R416). -/
def RUL.page : Page :=
  { base := 0x140000, cnt := 32, stride := 0x1000, code := 0x13, regs := RUL.regs }
/-- The ADC page (R416). -/
def ADC.page : Page :=
  { base := 0x160000, cnt := 1, stride := 0x1000, code := 0x14, regs := ADC.regs }
/-- The SHN pages (R416). -/
def SHN.page : Page :=
  { base := 0x170000, cnt := 16, stride := 0x1000, code := 0x15, regs := SHN.regs }
/-- The MEN pages (R416). -/
def MEN.page : Page :=
  { base := 0x180000, cnt := 8, stride := 0x1000, code := 0x16, regs := MEN.regs }
/-- The MEM page (R416). -/
def MEM.page : Page :=
  { base := 0x190000, cnt := 1, stride := 0x1000, code := 0x17, regs := MEM.regs }

/-- Every page of BAR0 (R283, R416). -/
def pages : List Page :=
  [GLB.page, PWR.page, SEC.page, HST.page, TBU.page, TWN.page, CNS.page, DSP.page, TRK.page, JNC.page, TTN.page, RUL.page, ADC.page, SHN.page, MEN.page, MEM.page]

/-- The page kind that holds address `a`, with the base of the instance. -/
def pageOf (a : Nat) : Option (Page × Nat) :=
  (pages.find? (fun p => p.base ≤ a ∧ a < p.base + p.cnt * p.stride)).map
    (fun p => (p, p.base + (a - p.base) / p.stride * p.stride))

/-- The registers at address `a` of a page: the row that covers it, with the distance of `a` from the row's first
instance. -/
def regAt (a : Nat) : Option (Reg × Nat) :=
  match pageOf a with
  | none => none
  | some (p, b) =>
    let o := a - b + p.base
    (p.regs.find? (fun r => r.off ≤ o ∧ o < r.off + r.cnt * r.stride ∧ (o - r.off) % r.stride = 0)).map
      (fun r => (r, a - r.off))

/-- The word a list of fields holds after reset. -/
def resetOfFields : List Fld → Nat
  | [] => 0
  | f :: fs => f.reset * 2 ^ f.lo + resetOfFields fs

end Sys2Proof.Machine
end

