-- ==== Sys2Proof/Machine/SMap.lean ====
section
/-! DEFINITION. Sparse maps with one canonical form: a list of key and value pairs, keys strictly rising, no entry
equal to what an unlisted key reads as. Register words, memories and units are held in them. -/

namespace Sys2Proof.Machine

/-- Key and value pairs. What an unlisted key reads as is an argument of every operation. -/
abbrev SMap (α : Type) := List (Nat × α)

variable {α : Type}

/-- The value at `k`, or `d k` where nothing is listed. -/
def SMap.get (d : Nat → α) : SMap α → Nat → α
  | [], k => d k
  | (i, v) :: m, k => if k = i then v else SMap.get d m k

/-- The listing of `v` at `k`, in key order. -/
def SMap.list (k : Nat) (v : α) : SMap α → SMap α
  | [] => [(k, v)]
  | (i, w) :: m =>
    if k < i then (k, v) :: (i, w) :: m
    else if k = i then (k, v) :: m
    else (i, w) :: SMap.list k v m

/-- `m` with `k` unlisted. -/
def SMap.unlist (k : Nat) (m : SMap α) : SMap α := m.filter (fun e => e.1 ≠ k)

/-- `m` with `v` at `k`: listed, or unlisted where `v` is what an unlisted key reads as. -/
def SMap.put [DecidableEq α] (d : Nat → α) (m : SMap α) (k : Nat) (v : α) : SMap α :=
  if v = d k then SMap.unlist k m else SMap.list k v m

/-- Every key of `m` lies above `k`. -/
def SMap.above (k : Nat) (m : SMap α) : Bool := m.all (fun e => k < e.1)

/-- The canonical form: keys strictly rising, no entry equal to its default. -/
def SMap.wf [DecidableEq α] (d : Nat → α) : SMap α → Bool
  | [] => true
  | (i, v) :: m => decide (v ≠ d i) && SMap.above i m && SMap.wf d m

end Sys2Proof.Machine
end

