-- ==== Sys2Proof/Machine/State.lean ====
section
/-! DEFINITION. The state of the DZ8256: the register file, the state behind the registers of each block, and the queue
of waiting commands. Plain data throughout. Times named `raw` are cycles of the raw counter (R28), `rawU` its 1/64
cycles; other times are VTS64 units of vehicle time (R26). -/

namespace Sys2Proof.Machine

/-- Reasons a command stops the machine. None of the commands of this block faults; the type has one constructor because
the host's interface asks for a closed inductive. -/
inductive Fault where
  /-- Raised by no command (safe: the machine would stop). -/
  | none
  deriving DecidableEq, Repr

/-- Reasons a command is refused. -/
inductive Refusal where
  /-- Raised by the dispatch for a command that has no meaning yet (safe: the machine stops). -/
  | notModelled (mnemonic : String)
  deriving DecidableEq, Repr

/-- The operating modes (R368). -/
inductive Mode where
  | off | hibernate | keeptime | boot | provision | configure | run | holdover | standby | halt | safe | factory
  deriving DecidableEq, Repr

/-! ### Timebase -/

/-- A reference pulse that no message has named yet (R420): its edge on the raw counter and its stamp. -/
structure Pulse where
  edge : Nat
  stamp : Nat
  deriving DecidableEq, Repr

/-- A time-of-day message that names the next pulse and waits for it (R420). -/
structure TodWait where
  sec : Nat
  refOk : Bool
  done : Nat
  deriving DecidableEq, Repr

/-- A vernier: the histogram of raw codes since the last build and the tap table in force, empty until the first build
(R53, R57); the raw cycle of its last live edge, in which no fill edge enters (R55). -/
structure Vernier where
  hist : SMap Nat := []
  tap : List Nat := []
  live : Option Nat := none
  deriving DecidableEq, Repr

/-- The whole-second pulse whose tenths are being counted at 10 Hz (R35, R420). -/
structure Tenths where
  sec : Nat
  count : Nat
  accepted : Bool
  deriving DecidableEq, Repr

/-- A step that is launched and has not taken effect (R44, R46). -/
structure StepReq where
  cycles : Int
  shift : Bool
  req : Nat
  role : Role
  /-- DEP at the launch. -/
  dep : Nat
  deriving DecidableEq, Repr

structure Tbu where
  pulses : List Pulse := []
  await : Option TodWait := none
  /-- The last message named the next pulse (R420). -/
  next1 : Bool := false
  tenths : Option Tenths := none
  /-- Edge (raw units) and second of the last accepted whole second. -/
  lastSec : Option (Nat × Nat) := none
  /-- Edge (raw units) of the last accepted pulse; the loss deadline runs from it (R37). -/
  lastPulse : Option Nat := none
  /-- Edge of the last pulse, accepted or not, for the tenth spacing (R36). -/
  prevPulse : Option Nat := none
  /-- Consecutive accepted seconds (R36). -/
  run : Nat := 0
  /-- The servo state held before QUALIFY (R40). -/
  before : Nat := 0
  lockCnt : Nat := 0
  overCnt : Nat := 0
  integ : F64 := {}
  /-- The values pushed by `avg_push`, newest first (R38, R41). -/
  avg : List F64 := []
  /-- Raw cycle of the entry to Holdover, and whether HOLD_LONG was raised in it (R43). -/
  holdSince : Option Nat := none
  holdTold : Bool := false
  step : Option StepReq := none
  /-- The alignment step of R47 that waits for a step in progress. -/
  align : Option StepReq := none
  /-- The ratio, a fraction, that Boot has programmed into the CLK400 PLL (R31); 0 before. -/
  ratio : Nat × Nat := (0, 1)
  /-- The first crystal edge of this stay in Keep-time has come (R48). -/
  latched : Bool := false
  /-- The step has taken effect and STEP_DONE is due (R46). -/
  stepDue : Bool := false
  /-- Raw units of the last step cycle (R46: the servo skips a pulse interval that straddles it). -/
  lastStep : Option Nat := none
  /-- The offset of vehicle time before that step. -/
  offBefore : Int := 0
  /-- The mapping pair in force (R30). -/
  mapVt : Nat := 0
  mapTai : Nat := 0
  /-- The claim of R51 is held, and the TAI second of the last load. -/
  ppsClaim : Bool := false
  ppsSec : Option Nat := none
  /-- Second pulses have stopped at an entry to Holdover and wait for LOCKED (R51). -/
  ppsStop : Bool := false
  /-- Capture verniers: 0 to 255 tracks, 256 the reference pulse, 257 to 264 turntable tooth inputs, 265 to 272 bank
  calibration units, 273 to 280 index inputs, 281 to 288 gap-line inputs, 289 to 292 ADC trigger inputs (R33, R53, R54,
  R115, R226). -/
  verniers : SMap Vernier := []
  /-- Output tables of the banks, 64 phase indices each, empty until the first build (R54). -/
  outTabs : SMap (List Nat) := []
  /-- Tables built and waiting for the next boundary (R56). -/
  newTaps : SMap (List Nat) := []
  newOuts : SMap (List Nat) := []
  built : Bool := false
  lastBuild : Nat := 0
  /-- The tables in force before the last boundary, and the cycle of that boundary (R16). -/
  swapAt : Nat := 0
  oldTaps : SMap (List Nat) := []
  deriving DecidableEq, Repr

/-! ### Tracks and lines -/

/-- Who loaded a compare or a start: a direct write, or a timetable slot. -/
inductive LoadSrc where
  | direct
  | slot (i : Nat)
  deriving DecidableEq, Repr

/-- What a compare does at its time (R61 to R63, R69, R75). -/
inductive CmpAct where
  | set | clear | toggle | lead | trail | train | arm | gate
  /-- Compare B of a gate: its end (R75). -/
  | close
  deriving DecidableEq, Repr

/-- A loaded compare: its time, action, the action's argument (a width, an edge limit, a gate length), its source, the
late mark of R22, the raw cycle in which it became active (R65), the turntable of an angle-domain entry, the raw unit
before which a re-prediction lets it not act (R133). -/
structure Cmp where
  time : Nat
  act : CmpAct
  arg : Nat := 0
  src : LoadSrc := .direct
  late : Bool := false
  since : Nat := 0
  turn : Option Nat := none
  floor : Nat := 0
  deriving DecidableEq, Repr

/-- A running train (R63): raw units of the next leading edge, of the pending trailing edge, pulses left (nothing for a
train without end), width and period latched at the start. -/
structure Train where
  next : Nat
  trail : Option Nat := none
  left : Option Nat
  width : Nat
  per : Nat
  src : LoadSrc := .direct
  late : Bool := false
  turn : Option Nat := none
  deriving DecidableEq, Repr

/-- A record formed, before and in the FIFO (R72, R74). `ctx` is fixed for marks and gates and taken under CFG.CTX
otherwise. -/
structure Stamp where
  time : Nat
  rising : Bool
  interp : Bool
  epoch : Nat
  ovf : Bool := false
  late : Bool := false
  seq : Nat
  ctx : Option Nat
  /-- The raw cycle in which the stamp enters the FIFO (R72). -/
  enter : Nat := 0
  deriving DecidableEq, Repr

/-- An open gate (R75): the count and the raw cycle at which it closes. -/
structure Gate where
  count : Nat
  close : Option Nat
  src : LoadSrc := .direct
  late : Bool := false
  deriving DecidableEq, Repr

/-- An edge a LINKED track owes its line (R76): raw units of its ordered time, level, and whether it is the trailing edge of a pulse whose
leading edge has fired. -/
structure Follow where
  time : Nat
  lvl : Bool
  trail : Bool := false
  deriving DecidableEq, Repr

structure Track where
  aAct : Option Cmp := none
  aShd : Option Cmp := none
  bAct : Option Cmp := none
  bShd : Option Cmp := none
  stop : Option (Nat × LoadSrc) := none
  holdALo : Word := 0
  holdAHi : Word := 0
  holdBLo : Word := 0
  marks : List Cmp := []
  train : Option Train := none
  /-- Level the track drives, raw units of its last edge (R64). -/
  lvl : Bool := false
  edgeAt : Option Nat := none
  armed : Bool := false
  /-- Selected edges left before the track disarms itself; nothing while there is no limit (R69). -/
  left : Option Nat := none
  /-- The arming comes from a deferred entry (R22). -/
  armLate : Bool := false
  gate : Option Gate := none
  /-- Raw units of the previous selected edge, of the opening edge of a width (R75), of the previous transition, and the
  raw cycles of the last rising and falling transition (R70). -/
  prevSel : Option Nat := none
  openEdge : Option Nat := none
  prevAny : Option Nat := none
  riseCyc : Option Nat := none
  fallCyc : Option Nat := none
  /-- Stamps formed and not yet in the FIFO (R72). -/
  formed : List Stamp := []
  fifo : List Stamp := []
  ovf : Bool := false
  seq : Nat := 0
  /-- Pop latches, 128 bits for each requester (R73). -/
  pops : SMap Nat := []
  /-- The LINKED track follows its source (R66, R76), and the edges it owes. -/
  following : Bool := false
  owed : List Follow := []
  deriving DecidableEq, Repr

/-- A line: its configuration and trim in force (R88), who wrote its source (LN_STS), what drives it from outside, the
last level at the pad (R85), the edges of its source on their way to the ball: ball time in raw units and the source's
level from it on (R24, R86). -/
structure Line where
  cfg : Word := 0x0000A580
  trim : Word := 0
  claimant : Nat := 0
  crole : Nat := 0
  ext : Level := .hiz
  keep : Bool := false
  due : List (Nat × Bool) := []
  /-- What pins still see (R248): the levels that the device drives, each from its raw cycle on, those known to come
  included, and the last outside levels, each with the raw cycle in which it ended. -/
  shown : List (Nat × Level) := []
  was : List (Nat × Level) := []
  deriving DecidableEq, Repr

/-! ### Timetable and dispatcher -/

/-- The states of an entry (R100). -/
inductive SlotSt where
  | free | queued | active | retiring
  deriving DecidableEq, Repr

/-- Where a QUEUED entry waits (table of waiting places, and the lanes of R98). -/
inductive Place where
  | nowhere | parked | far | rota | imm | wheel | lane | catchup | deferred
  /-- Taken by a checked insertion of a sealed section (R164). -/
  | reserved
  /-- Off its list until a new departure length has placed it again (R13). -/
  | unplaced
  deriving DecidableEq, Repr

/-- A timetable slot: its 128 bits (R91) and what the dispatcher keeps of it. -/
structure Slot where
  bits : Nat := 0
  st : SlotSt := .free
  place : Place := .nowhere
  /-- Last outcome, coded as the table of outcome codes. -/
  out : Nat := 0
  /-- Effective start (R105), or the predicted start of an angle entry. -/
  start : Nat := 0
  /-- Order of placement inside its list. -/
  ord : Nat := 0
  /-- Departure of the rota bucket it hangs on (R95, R111). -/
  bkt : Nat := 0
  /-- Late mark of a deferred entry (R22), moved late (R104), held until its late routine ends (R104). -/
  defer : Bool := false
  late : Bool := false
  held : Bool := false
  /-- The target has acted, refused or discarded: the outcome that ENTRY_RETIRE records (R100). -/
  acted : Option Nat := none
  /-- A retirement whose successor is still to be treated (R107). -/
  chain : Bool := false
  deriving DecidableEq, Repr

/-- An insertion that waits at the port (R97). `lvl` is the level of the engine bank whose TTR takes the result, `seal`
the position of a checked insertion of a section (R164). -/
structure PortReq where
  req : Requester
  bits : Nat
  park : Bool
  lvl : Option Nat := none
  deriving DecidableEq, Repr

/-- A cancellation whose withdrawal is on its way to the target (R108). -/
structure CancelReq where
  req : Requester
  slot : Nat
  chain : Bool
  time : Nat
  lvl : Option Nat := none
  /-- Its CAN record has been sent (R352). -/
  told : Bool := false
  deriving DecidableEq, Repr

structure Dsp where
  /-- PERIOD in force (R12). -/
  period : Nat := 400
  /-- Departure whose boundary was last processed, and whether its housekeeping is still due. -/
  bdep : Nat := 0
  hk : Bool := false
  /-- Raw cycle of the last move (R98: one move a cycle). -/
  lastMove : Nat := 0
  /-- Free list: `front`, returned to the head (R165), slots never used, from `fresh` up, then `freed` in order. -/
  front : List Nat := []
  fresh : Nat := 0
  freed : List Nat := []
  ord : Nat := 0
  farPos : Nat := 0
  port : List PortReq := []
  portLast : Nat := 12
  cancels : List CancelReq := []
  /-- Snapshot of the entry books (R103): FREE, QUEUED, ACTIVE, RETIRING. -/
  books : Nat × Nat × Nat × Nat := (16384, 0, 0, 0)
  /-- Departure of that snapshot (R320). -/
  booksDep : Nat := 0
  /-- The next snapshot counts as following one at or above the threshold (R103). -/
  lowArmed : Bool := true
  replacing : Bool := false
  flushing : Bool := false
  /-- Entries unmoved at the end of a departure whose verdict they made an overrun, each with its order of placement, in
  the order of their lanes, until the housekeeping defers them (R22). -/
  overMove : List (Nat × Nat) := []
  deriving DecidableEq, Repr

/-! ### Ruling units -/

/-- The states of a ruling unit (R202). -/
inductive RulSt where
  | off | idle | armed | running | stopping | faulted | halted
  deriving DecidableEq, Repr

/-- A formed edge of an output, in raw units: a rise or a fall, whether it is MAXON's cut of HI or LO's rise after one
(R197), whether a rise was moved by a barrier or a stretch (its interval is not stretched in turn, R195, R198) and from
where, whether it is the fall that R421 places one reload early. -/
structure RuEdge where
  time : Nat
  up : Bool
  cut : Bool := false
  moved : Bool := false
  orig : Nat := 0
  early : Bool := false
  deriving DecidableEq, Repr

/-- One output of a unit: its formed edges in order, its level, raw units of its last rise and last fall, the end that a
kept interval has at least (R421), the level it shows while edges are not masked (R208, R209), and the raw units of a fall
that was closed against a rise not formed yet (R198, R421). -/
structure RuOut where
  edges : List RuEdge := []
  lvl : Bool := false
  rise : Option Nat := none
  fall : Option Nat := none
  least : Nat := 0
  shown : Bool := false
  shut : Option Nat := none
  deriving DecidableEq, Repr

/-- A pending start (R203): instant, N (nothing without end), source, late mark, turntable of an angle-domain entry, raw
cycle of the load. -/
structure RuStart where
  time : Nat
  n : Option Nat
  src : LoadSrc := .direct
  late : Bool := false
  angle : Option Nat := none
  loaded : Nat
  deriving DecidableEq, Repr

/-- A pending stop (R204), with the raw unit before which it does not act, and whether an angle-domain entry loaded it. -/
structure RuStop where
  time : Nat
  src : LoadSrc := .direct
  floor : Nat := 0
  angle : Bool := false
  deriving DecidableEq, Repr

/-- A run: raw units of the start of the last period formed and of its end, periods formed, periods left to form, the end
T_N once it is known, the turntable of the angle-domain entry that started it, whether its begin is that of the second
case of R203. -/
structure RuRun where
  t : Nat
  stop : Nat
  k : Nat
  left : Option Nat
  fin : Option Nat := none
  angle : Option Nat := none
  missed : Bool := false
  deriving DecidableEq, Repr

/-- A ruling unit. Each shadow holds a value and the raw cycle in which it was written. -/
structure Ruler where
  st : RulSt := .off
  prior : RulSt := .off
  per : Option (Nat × Nat) := none
  duty : Option (Nat × Nat) := none
  phase : Option (Nat × Nat) := none
  dtr : Option (Nat × Nat) := none
  dtf : Option (Nat × Nat) := none
  ovr : Option (Nat × Nat) := none
  /-- Raw cycle of the last release of UPD_HOLD (R200). -/
  freed : Nat := 0
  /-- Reload at which PER and DUTY were last transferred in the run, 0 the start (R201). -/
  perK : Nat := 0
  dutyK : Nat := 0
  start : Option RuStart := none
  stop : Option RuStop := none
  run : Option RuRun := none
  /-- The run whose first period is formed and has not begun. -/
  next : Option RuRun := none
  hi : RuOut := {}
  lo : RuOut := {}
  /-- The last reference pulse formed, in order of time (R193). -/
  ref : Option (Nat × Nat) := none
  /-- The edges before the last reload, which a stop restores (R204). -/
  undo : Option (List RuEdge × List RuEdge) := none
  /-- Sync instants with OFS added that a follower has not used (R207). -/
  syncs : List Nat := []
  /-- Periods formed in the current or last run, those of full duty. -/
  count : Nat := 0
  /-- The count before the first period of a run that has not begun was formed. -/
  counted : Nat := 0
  full : List (Nat × Nat) := []
  fltIn : Bool := false
  /-- Raw cycle before which no period start ends the masking of the edges, and the period start that ends it. -/
  mask : Option Nat := none
  resume : Option Nat := none
  /-- Raw cycle of the entry to Debug-halt under FREEZE. -/
  frozen : Option Nat := none
  deriving DecidableEq, Repr

/-! ### ADC -/

/-- An optical stamp record formed, without its overflow mark: its bits, and whether a full FIFO has lost one before it
(R236). -/
structure OptRec where
  bits : Nat
  ovf : Bool := false
  deriving DecidableEq, Repr

/-- A crossing that waits to be recorded (R235, R237): time in raw units, direction, interpolation valid, step and number
of its sequence, epoch. -/
structure Crossing where
  time : Nat
  rising : Bool
  interp : Bool
  step : Nat
  seq : Nat
  epoch : Nat
  deriving DecidableEq, Repr

/-- An optical-stamp channel (R233 to R237): its state, the last valid sample (code, instant in fifths of a unit, whether
OVR or clamped), consecutive low samples, a fall not yet confirmed, reference edges newest first. -/
structure OptChan where
  high : Option Bool := none
  last : Option (Int × Nat × Bool) := none
  lows : Nat := 0
  fall : Option Crossing := none
  rises : List Nat := []
  falls : List Nat := []
  seq : Nat := 0
  formed : List OptRec := []
  fifo : List OptRec := []
  ovf : Bool := false
  pops : SMap Nat := []
  deriving DecidableEq, Repr

/-- A window of the ADC buffer (R229 to R231). `moving` is an allocation (true) or release in progress, with its first
cycle. -/
structure Window where
  alloc : Bool := false
  base : Nat := 0
  size : Nat := 0
  moving : Option (Bool × Nat) := none
  nospace : Bool := false
  wp : Nat := 0
  rp : Nat := 0
  num : Nat := 0
  ovf : Bool := false
  /-- Units promised to frames that are still open; a frame is being delivered. -/
  held : Nat := 0
  sending : Bool := false
  deriving DecidableEq, Repr

/-- A load held by a sequencer (R225), with the raw unit before which a late one does not act. -/
structure AdcLoad where
  time : Nat
  seq : Nat
  tag : Nat
  src : LoadSrc
  angle : Bool := false
  floor : Nat := 0
  deriving DecidableEq, Repr

/-- A trigger: its time in raw units, what it starts, the trigger input that made it, the raw cycle in which the sequencer
knows it, then that in which it accepted it (R226). -/
structure AdcTrig where
  time : Nat
  seq : Nat
  tag : Nat
  input : Option Nat := none
  known : Nat := 0
  deriving DecidableEq, Repr

/-- A slice's estimates (R221). -/
structure Slice where
  off : F64 := {}
  gain : F64 := { m := 1, e := 0 }
  skew : F64 := {}
  deriving DecidableEq, Repr

/-- A step that runs or whose samples are not all made (R223, R230): begin in native instants, D, LEN, samples made, samples
with VALID = 0, filter, channel, the estimates in force for its sequence (R222), the window that admitted its frame with
the units it takes there and its sample words, newest first, and its header's fields. -/
structure StepRun where
  k : Nat
  first : Nat
  dec : Nat
  len : Nat
  made : Nat := 0
  settle : Nat
  filt : Nat
  chan : Option Nat
  force : SMap Slice := []
  win : Option Nat
  units : Nat := 0
  words : List Nat := []
  input : Nat
  gain : Nat
  g : Nat
  sub : Nat
  late : Bool
  trig : Bool
  tag : Nat
  epoch : Nat
  seq : Nat
  num : Nat := 0
  before : Bool := false
  ovr : Bool := false
  min : Option Int := none
  max : Option Int := none
  sum : Int := 0
  trunc : Bool := false
  deriving DecidableEq, Repr

/-- A sequence in progress: its steps, the one that runs or comes next, the instant at which that one begins. -/
structure SeqRun where
  first : Nat
  count : Nat
  k : Nat := 0
  start : Nat
  step : Option StepRun := none
  tag : Nat
  trig : Bool
  late : Bool
  num : Nat
  /-- Channels that its steps have named, newest first. -/
  chans : List Nat := []
  prevChan : Option Nat := none
  deriving DecidableEq, Repr

/-- The last step of a sequence that has ended before its samples are all made, with the channels that the sequence named:
they end with its last sample (R227, R235). -/
structure Tail where
  step : StepRun
  chans : List Nat := []
  deriving DecidableEq, Repr

/-- A sequencer (R225 to R228): A, B or AB. -/
structure Sequencer where
  loads : List AdcLoad := []
  given : List AdcTrig := []
  queue : List AdcTrig := []
  run : Option SeqRun := none
  /-- Ended sequences whose last samples are not all made, oldest first. -/
  tails : List Tail := []
  num : Nat := 0
  deriving DecidableEq, Repr

/-- The sums of a block of the mismatch estimator for one slice (R221): sum, sum of squares, twice the sum of x times the
slope, count. -/
structure MmcSum where
  m : Int := 0
  p : Nat := 0
  r : Int := 0
  c : Nat := 0
  deriving DecidableEq, Repr

/-- The sample stream of a sequencer: the next native instant, the raw codes that a filter can still use, newest first, the
settings last run, the estimator's block and the estimates. -/
structure AdcStream where
  idx : Nat := 0
  raws : List Int := []
  last : Option (Nat × Nat × Nat) := none
  n : Nat := 0
  sums : SMap MmcSum := []
  /-- Four times the sum of squared slopes. -/
  slope : Nat := 0
  ready : Option (SMap MmcSum × Nat) := none
  est : SMap Slice := []
  force : SMap Slice := []
  epoch : Nat := 0
  frozen : Bool := false
  deriving DecidableEq, Repr

structure Adc where
  streams : SMap AdcStream := []
  seqs : SMap Sequencer := []
  chans : SMap OptChan := []
  wins : SMap Window := []
  /-- Frames complete and not yet delivered or passed, in the order of their headers: window, first unit, units (R290). -/
  frames : List (Nat × Nat × Nat) := []
  /-- Selected edges of internal sources that trigger inputs 0 to 3 have yet to present: ordered times in raw units, oldest
  first (R226). -/
  srcEdges : SMap (List Nat) := []
  deriving DecidableEq, Repr

/-! ### Shunters -/

/-- The states of a shunter (R241). -/
inductive ShnSt where
  | halted | running | atWait | pinWait | loadStall | storeStall
  deriving DecidableEq, Repr

/-- A start in the start shadow (R255): start instant, address, whole group, source, late mark as the raw cycle before
which it does not act. -/
structure ShnStart where
  time : Nat
  addr : Nat
  grp : Bool
  src : LoadSrc
  angle : Bool := false
  floor : Nat := 0
  deriving DecidableEq, Repr

/-- What a shunter in PIN_WAIT watches (R246): pin, level, deadline as a vehicle-time cycle count, the raw cycle of the
WAIT. -/
structure ShnWait where
  pin : Nat
  pol : Bool
  dl : Option Nat
  since : Nat
  deriving DecidableEq, Repr

/-- What a start changes in a shunter (R256), as it was before it: a HALT of the same cycle discards the start (R255). -/
structure ShnPrior where
  pc : Nat
  tmo : Bool
  late : Bool
  nodata : Bool
  tick : Nat
  drv : Nat
  pipe : List (Nat × Nat × Nat)
  sw : Word
  rw : Word
  sf : Nat
  rf : Nat
  deriving DecidableEq, Repr

/-- A shunter. `tick` is the time of its next tick in 1/256 raw cycle (R244). -/
structure Shunter where
  st : ShnSt := .halted
  rsn : Nat := 3
  reject : Bool := false
  pc : Nat := 0
  a : Word := 0
  b : Word := 0
  t : Word := 0
  l0 : Nat := 0
  l1 : Nat := 0
  sw : Word := 0
  rw : Word := 0
  sf : Nat := 0
  rf : Nat := 0
  tmo : Bool := false
  late : Bool := false
  nodata : Bool := false
  pins : Nat := 0
  drv : Nat := 0
  /-- Levels and drive masks on their way to the ball, with the raw cycle in which they reach it (R247), oldest first. -/
  pipe : List (Nat × Nat × Nat) := []
  tick : Nat := 0
  start : Option ShnStart := none
  /-- AT's target (R245), WAIT's condition, the raw cycle in which a stall can end. -/
  target : Option Nat := none
  wait : Option ShnWait := none
  tx : List Word := []
  rx : List Word := []
  /-- The raw cycles in which a word last entered an empty TX FIFO, and a slot of a full RX FIFO last freed (R251). -/
  fed : Nat := 0
  freed : Nat := 0
  /-- Words read by TX DMA and not yet stored, each with whether it is of the pass that EN began last, words of the pass read
  and stored, passes (R252). -/
  flight : List (Word × Bool) := []
  issued : Nat := 0
  pos : Nat := 0
  passes : Nat := 0
  wp : Nat := 0
  rp : Nat := 0
  /-- The raw cycles in which the last start took effect and the last write of HALT did (R255). -/
  began : Option Nat := none
  haltAt : Option Nat := none
  prior : Option ShnPrior := none
  /-- SHCFG and PINCFG as the instruction that is stalled found them (R260). -/
  cfg : Word × Word := (0, 0)
  deriving DecidableEq, Repr

/-! ### Consists -/

/-- The states of a consist slot (R305). -/
inductive ConsistSt where
  | free | opened | closed | broken
  deriving DecidableEq, Repr

/-- A staging place (R304): address, value, the role held at staging (R340), and the state of its parity. -/
structure Staged where
  addr : Nat
  val : Word
  role : Role
  parity : Bool := true
  deriving DecidableEq, Repr

/-- A consist slot. `whn` is CMD.WHEN, `dep` the departure its boundary begins, `entry` the entry it names, `passed`
that the check of R310 has passed it for the coming boundary. -/
structure Consist where
  st : ConsistSt := .free
  owner : Nat := 0
  role : Role := .none
  whn : Nat := 0
  dep : Option Nat := none
  entry : Nat := 0
  order : Nat := 0
  byp : Bool := false
  passed : Bool := false
  /-- The mode in force at the check (R310). -/
  mode : Nat := 0
  last : Nat := 0
  places : List Staged := []
  deriving DecidableEq, Repr

/-! ### Memory -/

/-- What waits for a siding's one access a cycle (R266): a word of a sealed commit, an engine's read (bank level and
destination register) or write, a host access, or a requester of the DMA class that holds its own data. -/
inductive WaitKind where
  | commit (v : Word)
  | engRead (lvl dst : Nat) (issue : Nat)
  | engWrite (v : Word)
  | hostRead
  | hostWrite (v : Word) (be : Nat)
  | dma (tag : Nat)
  deriving DecidableEq, Repr

/-- A waiting access: siding, word within the log store, who, what, and the raw cycle it began to wait. -/
structure Wait where
  sid : Nat
  idx : Nat
  req : Requester
  kind : WaitKind
  since : Nat
  counted : Bool := false
  deriving DecidableEq, Repr

/-- A port-B access of the interchange bank that waits for its cycle (R269): requester (nothing for an internal writer),
word index, value, lanes. -/
structure PortB where
  req : Option Requester
  idx : Nat
  val : Word
  be : Nat
  write : Bool
  deriving DecidableEq, Repr

/-- Read data on its way to an engine (R168, R190): engine, bank level, destination register, the value, how many bits,
the raw cycle at which it is available. -/
structure Arrival where
  eng : Nat
  lvl : Nat
  dst : Nat
  val : Nat
  wide : Bool := false
  time : Nat
  deriving DecidableEq, Repr

/-- The stores of R262 that no other structure holds, and the background test (R272 to R278). `ecc` marks stored words
whose check bits disagree, keyed by store and word: 1 a single-bit error, 2 an uncorrectable one. -/
structure Mem where
  log : SMap Word := []
  relief : SMap Word := []
  icb : SMap Word := []
  adcBuf : SMap Word := []
  book : SMap Word := []
  ecc : SMap Nat := []
  waits : List Wait := []
  /-- Engine last granted, per siding, 16 the interchange bank; DMA identity last granted, per siding. -/
  lastEng : SMap Nat := []
  lastDma : SMap Nat := []
  /-- First raw cycle that a siding (16 the interchange bank, 32 + k store k) has not yet given to an access. -/
  bankAt : SMap Nat := []
  /-- Port-A accesses waiting (engine, level, word, write value or destination), and port-B accesses. -/
  portA : List Wait := []
  portB : List PortB := []
  lastB : Nat := 0
  /-- The words stored in raw cycle `freshAt`, each with its value before (R186). -/
  fresh : List (Nat × Word) := []
  freshAt : Nat := 0
  arrivals : List Arrival := []
  /-- Words corrected and not yet rewritten (R263): store and word. -/
  rewrites : List Nat := []
  /-- The next word of each scrubber, and the raw cycle from which it reads it (R265). -/
  scrubAt : SMap Nat := []
  scrubDue : SMap Nat := []
  /-- Internal DMA accesses granted and not yet made: siding and requester. -/
  granted : List (Nat × Nat) := []
  bgtSid : Nat := 0
  /-- 0 COPY, 1 TEST, 2 RESTORE, 3 stopped. -/
  bgtPhase : Nat := 0
  bgtPtr : Nat := 0
  /-- The copy register: the word index it holds, with its value and its check-bit mark. -/
  copyReg : Option (Nat × Word × Nat) := none
  /-- The cycle of the last copy access, of the last mirrored write that put off its word, or of the write of that word. -/
  copyAt : Nat := 0
  passed : Nat := 0
  /-- The next siding in order once the test has stopped; a siding whose home is the relief for good (16 none). -/
  retired : Option Nat := none
  testEnds : Nat := 0
  deriving DecidableEq, Repr

/-! ### Host link and streams -/

/-- A record on its way into a log ring (R73, R266): its bits, the words written, the raw cycle from which the writer wants
the next. -/
structure Writer where
  bits : Nat
  done : Nat := 0
  since : Nat
  deriving DecidableEq, Repr

/-- An MSI-X message sent: its vector, the address and the data of the vector's table entry (R283, R300). -/
structure Msg where
  vec : Nat
  addr : Nat
  data : Word
  deriving DecidableEq, Repr

/-- An open slot (R292): its index, the payload so far, the raw cycle it was opened, CONT, the shunter it serves. -/
structure OpenSlot where
  idx : Nat
  payload : List Byte
  opened : Nat
  cont : Bool := false
  shn : Nat := 0
  /-- Frames that end in this slot: window and units, freed when the slot closes (R231). -/
  ends : List (Nat × Nat) := []
  /-- Opened in poll mode; its size in bytes. -/
  polled : Bool := false
  size : Nat := 0
  deriving DecidableEq, Repr

/-- A host stream: G, C and R of R293 to R295, the open slot, slots closed and not reported, whether one of them closed
by TIMEOUT, R when REP was last cleared, the poll buffer and the slots that wait for it, the unit being written in pieces with
the frame it is, data discarded since the last slot, the last shunter served, a restart of the counts due at the next enable
(R301); the bytes read of a unit not yet complete, and the raw cycle from which the reader wants the next word (R266). -/
structure Stream where
  g : Nat := 0
  c : Nat := 0
  r : Nat := 0
  slot : Option OpenSlot := none
  unrep : Nat := 0
  tmo : Bool := false
  base : Nat := 0
  poll : List Word := []
  pollNext : List (List Word) := []
  rest : List Byte := []
  restEnd : Option (Nat × Nat) := none
  loss : Bool := false
  rr : Nat := 15
  restart : Bool := false
  part : List Byte := []
  readAt : Nat := 0
  deriving DecidableEq, Repr

/-- A read answered to its requester: address, data, poisoned (R263). -/
structure Reply where
  req : Requester
  addr : Nat
  data : Word
  poison : Bool := false
  deriving DecidableEq, Repr

/-- The host link. `outbox` holds the posted writes the device has issued, newest first; `msgs` the MSI-X messages it has
sent, newest first; `replies` the reads it has answered, newest first. -/
structure Hst where
  streams : SMap Stream := []
  /-- Byte positions of the log rings of streams 0 and 2: written and taken, free-running. -/
  stampWp : Nat := 0
  stampRp : Nat := 0
  optWp : Nat := 0
  optRp : Nat := 0
  /-- The writers' round-robin positions: track last drained, channel last drained. -/
  trkLast : Nat := 255
  chLast : Nat := 15
  /-- The records that the writers of the stamp log and of the optical log hold. -/
  stampOut : Option Writer := none
  optOut : Option Writer := none
  /-- Logbook entries that stream 6 has taken; the digest space holds a digest that stream 7 has not. -/
  logTaken : Nat := 0
  digest : Bool := false
  outbox : List (Nat × List Byte) := []
  /-- The stream that last had a turn on the link (R296). -/
  turn : Nat := 7
  msgs : List Msg := []
  replies : List Reply := []
  /-- Address and data words of the MSI-X table (R283), four words to a vector, the fourth unused. -/
  msix : SMap Word := []
  /-- Vectors unmasked by the host, vectors with their pending bit set, vectors asserted. -/
  unmasked : List Nat := []
  pba : List Nat := []
  asserted : List Nat := []
  /-- The next SPI status byte reads ERR = 1; the last status byte sent. -/
  spiErr : Bool := false
  spiStatus : Nat := 1
  deriving DecidableEq, Repr

/-! ### Security -/

/-- A session of a requester (R337 to R339): its end on the raw counter, the last nonce drawn with its raw cycle, failed
OPENs in a row, the end of a lockout, the token and the nonce under verification. -/
structure Session where
  role : Role := .operator
  stop : Option Nat := none
  nonce : Option (Nat × Nat) := none
  fails : Nat := 0
  lockout : Option Nat := none
  verify : Option (List Byte × Option (Nat × Nat)) := none
  result : Nat := 0
  deriving DecidableEq, Repr

/-- An OTP key slot (R331). -/
structure KeySlot where
  hash : List Byte := []
  prog : Bool := false
  usage : Nat := 0
  revoked : Bool := false
  parity : Bool := true
  deriving DecidableEq, Repr

structure Otp where
  k0 : KeySlot := {}
  k1 : KeySlot := {}
  k2 : KeySlot := {}
  imageKey : List Byte := []
  /-- The 32 anti-rollback fuses. -/
  fuses : BitVec 32 := 0
  refsel : Nat := 0
  vendor : Nat := 0
  serial : Nat := 0
  /-- Parity of the image key, the anti-rollback fuses, REFSEL, the vendor identifier and the serial holds. -/
  keyParity : Bool := true
  arbParity : Bool := true
  refParity : Bool := true
  venParity : Bool := true
  serParity : Bool := true
  deriving DecidableEq, Repr

/-- What the device keeps of an image it has loaded: header words (MCVER0 to MCVER2 of R173), SVN, ABI level required,
sections, key slot, section versions, and whether it has engine stores. -/
structure Image where
  ver0 : Nat
  ver1 : Nat
  ver2 : Nat
  svn : Nat
  abiReq : Nat
  sections : Nat
  slot : Nat
  shnVer : Nat
  fltVer : Nat
  /-- Filters whose section asks for an ABI level that is not provided (R332). -/
  badFlt : List Nat := []
  deriving DecidableEq, Repr

/-- An image load in progress: the source it reads (1 flash primary, 2 flash alternate, 3 log store), and whether it
replaces a running image (R334). -/
structure LoadJob where
  src : Nat
  replace : Bool
  role : Role
  req : Nat
  deriving DecidableEq, Repr

/-- An OTP operation in progress (R335): OP, argument, hash written, actor. -/
structure OtpJob where
  op : Nat
  arg : Nat
  hash : List Byte
  req : Nat
  deriving DecidableEq, Repr

structure Sec where
  sessions : SMap Session := []
  otp : Otp := {}
  /-- External NOR flash, as the device reads it (R326). -/
  flash : SMap Byte := []
  /-- Step of R324 that Boot has reached: 0 entered, 1 PLL programmed, 2 stopped for good at CLEAR, 3 Provision. -/
  boot : Nat := 0
  straps : Nat := 0
  /-- Times that this stay in Boot has programmed the PLL (R391). -/
  tries : Nat := 0
  load : Option LoadJob := none
  /-- Image held after a gate refusal, image in force. -/
  held : Option Image := none
  image : Option Image := none
  otpJob : Option OtpJob := none
  deriving DecidableEq, Repr

/-! ### Power and modes -/

structure Pwr where
  coreOk : Bool := true
  xtalOk : Bool := false
  pmicEn : Bool := true
  /-- A reset is held: its cause (R380). -/
  held : Option Nat := none
  /-- RESET_N is low (R380). -/
  pinLow : Bool := false
  /-- Mode held before Debug-halt or Safe-state (PREV). -/
  prev : Nat := 0
  /-- A command accepted and not yet completed (OP), whose abort is in progress. -/
  cmd : Option Nat := none
  /-- Fault codes detected and not yet treated; the reactions held in Twin-standby (R387) and in Debug-halt (R371),
  severity and code. -/
  faults : List Nat := []
  heldFault : Option (Nat × Nat) := none
  haltFault : Option (Nat × Nat) := none
  /-- The raw cycle in which a command has taken the device from Run or Holdover to Configure, and the mode left (R371). -/
  taken : Option (Nat × Mode) := none
  /-- Raw cycle from which the watchdog period runs (R379). -/
  kick : Nat := 0
  /-- A wake has raised PMIC_EN and Boot is awaited: its cause. -/
  waking : Option Nat := none
  /-- Raw cycle of the entry to Debug-halt (R373). -/
  haltAt : Nat := 0
  deriving DecidableEq, Repr

/-! ### GLB -/

/-- A roll call in progress: requester, automatic, destination, offset, and the digest once taken. -/
structure RollCall where
  req : Nat
  auto : Bool
  dest : Bool
  ofs : Nat
  /-- The raw cycle in which the request was accepted. -/
  asked : Nat
  bytes : Option (List Byte) := none
  deriving DecidableEq, Repr

structure Glb where
  rc : Option RollCall := none
  nonce : Nat := 0
  gen : Nat := 0
  /-- Vehicle time of the next automatic request (R323). -/
  autoAt : Option Nat := none
  deriving DecidableEq, Repr

/-! ### Twin pair -/

/-- The twin states (R348). -/
inductive TwnSt where
  | solo | primary | joining | ready | notReady
  deriving DecidableEq, Repr

/-- A record of the mirror queue (R352, R355). -/
inductive Mirror where
  | ins (slot : Nat) (park : Bool) (req : Nat) (bits : Nat)
  | can (slot : Nat) (chain : Bool) (req : Nat)
  | ret (slot : Nat) (out : Nat)
  | cons (slot owner whn dep : Nat) (last : Bool) (vals : List (Nat × Word))
  | consAt (slot dep : Nat)
  | consEnd (slot out : Nat)
  | map (vt tai : Nat)
  | bulk (rs : List BulkRec) (last : Bool)
  deriving DecidableEq, Repr

/-- A frame sent on the Izlar link. -/
inductive Frame where
  | hello (h : Hello)
  | heartbeat (h : Heartbeat)
  | ack (seq launch : Nat)
  | mirror (seq : Nat) (rs : List Mirror)
  | switch (w : Nat)
  deriving DecidableEq, Repr

/-- A mirrored consist on a STANDBY, or the acknowledgement books of one on the PRIMARY. -/
structure MirCns where
  slot : Nat
  owner : Nat
  whn : Nat
  dep : Option Nat
  entry : Nat
  vals : List (Nat × Word) := []
  complete : Bool := false
  /-- SEQ of the last record it needs, and the vehicle-time cycle of the launch of the ACK that covered it. -/
  seq : Nat := 0
  acked : Option Nat := none
  /-- The verdict at its boundary, kept until the PRIMARY's is known (R355). -/
  verdict : Option Bool := none
  deriving DecidableEq, Repr

/-- A switchover under way (R359, R360): trigger, w and c_v as vehicle-time cycles, lines driven. -/
structure Switch where
  trig : Nat
  w : Nat
  cv : Nat
  driven : Bool := false
  deriving DecidableEq, Repr

structure Twn where
  st : TwnSt := .solo
  linkUp : Bool := false
  killIn : Bool := false
  killOut : Bool := false
  lock : Bool := false
  pairErr : Nat := 0
  peerSt : TwnSt := .solo
  theta : Int := 0
  /-- Heartbeats: sequence last sent, the launch of the last one, the launches that a t4 may name (newest first), the receipt of
  the last one received (vehicle times), the round trip of the last exchange in VTS64 units (R349). -/
  txSeq : Nat := 0
  txAt : Option Nat := none
  sent : List Nat := []
  rxAt : Option Nat := none
  trip : Option Int := none
  /-- Heartbeats expected and not yet received, oldest first: SEQ and deadline, a raw cycle; the SEQ that the next own launch
  expects; those received ahead of it (R351). -/
  expect : List (Nat × Nat) := []
  expSeq : Nat := 0
  early : List Nat := []
  /-- The SEQ after the last one received. -/
  rxNext : Nat := 0
  missed : Nat := 0
  /-- Safe-state has been entered since the last heartbeat (R375). -/
  safeFlag : Bool := false
  lockCnt : Nat := 0
  integ : F64 := {}
  /-- Mirror records: waiting, sent and not acknowledged, each with its SEQ. -/
  queue : List (Nat × Mirror) := []
  unacked : List (Nat × Mirror) := []
  enq : Nat := 0
  mirSeq : Nat := 0
  mirAck : Nat := 0
  /-- Words of the mirror queue that wait for their siding: place in the ring and value; the cycle from which the first one waits;
  where the next record of each half goes (R346). -/
  toRing : List (Nat × Word) := []
  ringSince : Nat := 0
  qPos : Nat := 0
  rPos : Nat := 0
  /-- SEQ of each requester's last record (R353). -/
  mine : SMap Nat := []
  /-- Highest SEQ received in order. -/
  rxSeq : Nat := 0
  /-- Heartbeats waiting to be verified, oldest first, each with launch cycle, RSEQ and LIVE; the verified one; differing and
  agreeing comparisons in a row. -/
  check : List (Nat × Nat × Nat) := []
  cv : Nat := 0
  differ : Nat := 0
  agree : Nat := 0
  copied : Bool := false
  /-- The PRIMARY owes its joiner the copy of the timetable (R364). -/
  owesCopy : Bool := false
  /-- Joining: the alignment step has been taken (R364). -/
  aligned : Bool := false
  cons : List MirCns := []
  sw : Option Switch := none
  /-- Boundary w of a commanded switchover, on the old PRIMARY. -/
  yieldAt : Option Nat := none
  /-- Lines released at an earlier one stay released. -/
  released : Bool := false
  out : List Frame := []
  deriving DecidableEq, Repr

/-! ### Turntables -/

/-- The angle model of an accepted tooth (R127 to R129): its raw units, the angle there, counts to the next tooth, speed
and acceleration of the fit where one exists, revolution, reverse motion. -/
structure AngleModel where
  time : Nat := 0
  theta : Nat := 0
  span : Nat := 1
  ok : Bool := false
  w : F64 := {}
  a : F64 := {}
  rev : Nat := 0
  rvs : Bool := false
  deriving DecidableEq, Repr

/-- A turntable (R115 to R143). -/
structure Turntable where
  /-- Tooth edges stamped and not yet processed: raw units, level of the direction input read as reverse. -/
  edges : List (Nat × Bool) := []
  /-- Index or gap-line edges not yet judged, raw units, oldest first (R119). -/
  marks : List Nat := []
  /-- Raw units of the last accepted tooth. -/
  last : Option Nat := none
  tooth : Nat := 0
  rev : Nat := 0
  now : AngleModel := {}
  /-- The model of the tooth before (R129). -/
  prev : Option AngleModel := none
  /-- Intervals since the last start, reversal or stall, newest first: duration and span (R127). -/
  hist : List (Nat × Nat) := []
  /-- The intervals that the single predicted interval of HUNTING counts, newest first (R119). -/
  singles : List Nat := []
  /-- TTN.PPER while a fit exists (R127). -/
  pper : Option Nat := none
  /-- The stall deadline D, raw units (R137). -/
  deadline : Option Nat := none
  /-- The state held before a stall (R121). -/
  before : Nat := 0
  /-- A tooth waits for its fit at b+20; the fit uses at most two intervals (R135). -/
  fitDue : Bool := false
  short : Bool := false
  /-- The angle in STALLED, and from a quick start to its first tooth (R124, R138). -/
  frozen : Option Nat := none
  /-- The next tooth is the first after a start from a kept position. -/
  fresh : Bool := false
  /-- A tooth has been accepted since the last start, reversal or stall. -/
  linked : Bool := false
  /-- The last detected gap of HUNTING with the teeth accepted since (R120). -/
  gap : Option (Nat × Nat) := none
  /-- Entries the tooth has overtaken, to re-predict and to announce, in order; the raw cycle of the next such action
  (R126). -/
  behind : List Nat := []
  repred : List Nat := []
  ann : List Nat := []
  act : Nat := 0
  /-- Entries whose announcement a full prediction set refused (R134). -/
  refused : List Nat := []
  /-- TTN.PRED as the last accepted tooth found it (R118). -/
  pred : Word := 0x0001C104
  ring : SMap Word := []
  deriving DecidableEq, Repr

/-! ### Engines -/

/-- The states of an engine (R146). -/
inductive EngSt where
  | held | idle | running | waiting | faulted | halted
  deriving DecidableEq, Repr

/-- The register bank of a level (R144): g0 to g15, s0 to s3, the return stack, PAGE, the flags of R184, TTR (R189). -/
structure Bank where
  g : SMap Word := []
  st : SMap Nat := []
  stack : List (Nat × Nat) := []
  page : Nat := 0
  z : Bool := false
  n : Bool := false
  c : Bool := false
  v : Bool := false
  sat : Bool := false
  tmo : Bool := false
  acc : Bool := false
  stepped : Bool := false
  f0 : Bool := false
  f1 : Bool := false
  f2 : Bool := false
  ttr : Word := 0x80000000
  deriving DecidableEq, Repr

/-- The classes of invocation, coded as g0 codes them (R151). -/
inductive InvClass where
  | call | late | event | doorbell
  deriving DecidableEq, Repr

/-- A wait (R159): condition code and polarity, the stamp register that is its deadline, word of the interchange bank it
watches, raw cycle of the WAIT. -/
structure EngWait where
  cond : Nat
  pol : Bool
  dl : Option Nat
  watch : Nat
  since : Nat
  deriving DecidableEq, Repr

/-- A routine that occupies a level: its class, entry slot, PC, the departure that R19 assigns it to, its wait, the raw
cycle in which its last wait resolved, whether its first word has yet to execute. -/
structure Routine where
  cls : InvClass
  slot : Nat := 0
  pc : Nat
  dep : Option Nat := none
  wait : Option EngWait := none
  woke : Nat := 0
  first : Bool := true
  deriving DecidableEq, Repr

/-- A call in the queue (R147, R150): entry, address, parameter, PRIO, start, angle domain, the raw cycle before which a
late one does not act, late call; once pending, the level, the raw cycle and the departure. -/
structure Call where
  slot : Nat
  addr : Nat
  param : Nat
  prio : Nat
  start : Nat
  angle : Bool := false
  floor : Nat := 0
  late : Bool := false
  pend : Option (Nat × Nat × Nat) := none
  deriving DecidableEq, Repr

/-- An event or doorbell vector that is pending (R148, R149): level and address it was raised with, count, source INDEX,
g1, s0, raw cycle. -/
structure VecPend where
  lvl : Nat
  addr : Nat
  count : Nat := 1
  idx : Nat := 0
  g1 : Nat
  s0 : Nat
  since : Nat
  deriving DecidableEq, Repr

/-- A buffered write of a sealed section (R162): a word of the log store or of the interchange bank, a register, a checked
insertion in its slot, a cancellation. -/
inductive SealWrite where
  | sid (i : Nat) (v : Word)
  | icb (i : Nat) (v : Word)
  | reg (a : Nat) (v : Word)
  | ins (slot : Nat) (park : Bool) (bits : Nat)
  | can (slot : Nat) (chain : Bool)
  deriving DecidableEq, Repr

/-- An open or committing section: level, words executed, raw cycle of the SEAL, its writes in order, the raw cycle of the
UNSEAL, whether its last timetable access was a cancellation (R189). -/
structure SealSect where
  lvl : Nat
  words : Nat := 1
  since : Nat
  writes : List SealWrite := []
  done : Option Nat := none
  last : Option Bool := none
  deriving DecidableEq, Repr

/-- A timetable access of an engine that awaits its result (R189): level, whether it is a cancellation, the result with the
raw cycle in which it arrives. -/
structure TtWait where
  lvl : Nat
  can : Bool
  res : Option (Word × Nat) := none
  deriving DecidableEq, Repr

structure Engine where
  st : EngSt := .held
  prior : EngSt := .held
  banks : SMap Bank := []
  routines : SMap (Option Routine) := []
  /-- The level whose word executed last, and the first raw cycle in which a word may execute (R153). -/
  cur : Nat := 0
  next : Nat := 0
  calls : List Call := []
  evs : SMap (Option VecPend) := []
  /-- The first raw cycle whose signals each vector counts, after its EN was last set (R148). -/
  evOn : SMap Nat := []
  dbs : SMap (Option VecPend) := []
  sect : Option SealSect := none
  tt : Option TtWait := none
  /-- A product on its way (R190): level, destination code, its FLAGW, first raw cycle that may use it. -/
  mul : Option (Nat × Nat × Nat × Nat) := none
  micAt : Nat := 0
  nanAt : Nat := 0
  deriving DecidableEq, Repr

/-- A source's signal on its way to the engines (R148). -/
structure Signal where
  kind : Nat
  idx : Nat
  g1 : Nat
  s0 : Nat
  /-- The raw cycle of the event. -/
  since : Nat := 0
  deriving DecidableEq, Repr

/-! ### Stores of the image (R262, R328) -/

/-- A decimation filter of the ADC (R224): LOGD, FLEN, coefficients in units of 2^-17. -/
structure Filter where
  logd : Nat := 0
  flen : Nat := 0
  coef : List Int := []
  deriving DecidableEq, Repr

/-- The microstores (key engine * 8192 + address, 24 bits), the four copies of the nanostore (key copy * 2048 + address,
128 bits), the shunter program stores (key shunter * 128 + word), the filters (key 1 to 8). `micEcc` and `nanEcc` mark
words whose check bits disagree: 1 a single-bit error, 2 an uncorrectable one. -/
structure Stores where
  micro : SMap Nat := []
  nano : SMap Nat := []
  micEcc : SMap Nat := []
  nanEcc : SMap Nat := []
  prog : SMap Word := []
  filt : SMap Filter := []
  deriving DecidableEq, Repr

/-! ### The device -/

/-- What the raw cycle in progress and the access under way have seen: the model's own fields. -/
structure Seen where
  /-- The raw cycle that `events` belongs to. -/
  eventsAt : Nat := 0
  /-- Bits of W1C registers that the hardware has set in that cycle (R9), keyed by address. -/
  events : SMap Word := []
  /-- The requester whose access is watched for a discard (R165, R285). -/
  watch : Option Requester := none
  /-- Reason of the first discard of the watched access. -/
  why : Option Nat := none
  deriving DecidableEq, Repr

/-- The state of the device. -/
structure State where
  /-- Cycles of the raw counter (R28). -/
  raw : Nat := 0
  /-- Vehicle time less the raw counter, in VTS64 units (R28, R46). -/
  vtOff : Int := 0
  mode : Mode := .boot
  /-- Register words, keyed by BAR0 address; unlisted ones read their reset value. -/
  regs : SMap Word := []
  /-- Words held per requester (R14), keyed by copy and address. -/
  preqs : SMap Word := []
  tbu : Tbu := {}
  trk : SMap Track := []
  lines : SMap Line := []
  banks : SMap Supply := []
  slots : SMap Slot := []
  dsp : Dsp := {}
  ttn : SMap Turntable := []
  eng : SMap Engine := []
  rul : SMap Ruler := []
  adc : Adc := {}
  shn : SMap Shunter := []
  cons : SMap Consist := []
  consOrd : Nat := 0
  mem : Mem := {}
  stores : Stores := {}
  hst : Hst := {}
  sec : Sec := {}
  pwr : Pwr := {}
  glb : Glb := {}
  twn : Twn := {}
  /-- Signals of the sources that have not yet reached the engines (R148), oldest first. -/
  signals : List Signal := []
  /-- Free values drawn so far: the argument of the next one (the model's own field). -/
  free : Nat := 0
  seenNow : Seen := {}
  pending : List Instr := []
  deriving DecidableEq, Repr

/-- The lowest role that an RWL field of a list of registers names (`LOCK.MINROLE`, R289), coded; 0 for none. -/
def minRole (rs : List Reg) : Nat :=
  let fs := (rs.flatMap Reg.fields).filter (fun f => f.acc = .rwl)
  if fs.any (fun f => f.role = .operator) then 1
  else if fs.any (fun f => f.role = .installer) then 2
  else if fs.any (fun f => f.role = .maker) then 3 else 0

/-- The word a register holds after Boot (R380): its fields' reset values, and the values that depend on the page, the
instance, the stream or the source. -/
def resetWord (a : Nat) : Word :=
  match pageOf a with
  | none => 0
  | some (p, b) =>
    let o := a - b
    if o = 0 then word (p.code * 2 ^ 24 + (a - p.base) / p.stride * 2 ^ 16 + 0x100)
    else if o = 0x28 then word (minRole p.regs)
    else if p.code = 4 ∧ 0x80 ≤ o ∧ o ≤ 0xBC then
      let v (j : Nat) := 0x80 + min (o - 0x80 + j) 31
      word (v 0 + v 1 * 2 ^ 8 + v 2 * 2 ^ 16 + v 3 * 2 ^ 24)
    else if p.code = 4 ∧ 0x100 ≤ o ∧ (o - 0x100) % 0x40 = 4 then
      word (if o = 0x104 then 640 else if o = 0x144 then 800 else 1500)
    else if p.code = 4 ∧ o = 0x128 then word (0x1C0000 + 32)
    else if p.code = 4 ∧ o = 0x1A8 then word (0x1E0000 + 8)
    else if a = 0x10E0 then 8
    else
      match regAt a with
      | none => 0
      | some (r, _) => word (resetOfFields r.fields)

/-- The machine right after reset: the entry to Boot after the first power-up of VDD_AO (R380). -/
def State.reset : State := {}

end Sys2Proof.Machine
end

