-- ==== Sys2Proof/Machine/Frames.lean ====
section
/-! DEFINITION. Frames of the Izlar link as bytes (R345, R346). PRESUMED (entry 47): fields stand in the order of the table of
frame types, little-endian, in the sizes that fit the record counts the table gives; the manual does not say what FLAGS holds,
nor SEQ in a frame without mirror records. -/

namespace Sys2Proof.Machine

/-- One bit of CRC-32: polynomial 0x04C1_1DB7, reflected (R321). -/
def crc32Bit (c : Nat) : Nat := if c % 2 = 1 then Nat.xor (c / 2) 0xEDB88320 else c / 2

/-- One byte of CRC-32. -/
def crc32Byte (c : Nat) (b : Byte) : Nat :=
  crc32Bit (crc32Bit (crc32Bit (crc32Bit (crc32Bit (crc32Bit (crc32Bit (crc32Bit (Nat.xor c b.toNat))))))))

/-- CRC-32 of a byte list: initial value and final XOR all ones (R321). -/
def crc32 (bs : List Byte) : Nat := Nat.xor (bs.foldl crc32Byte 0xFFFFFFFF) 0xFFFFFFFF

/-- The bytes of a mirror record. -/
def Mirror.image : Mirror → List Byte
  | .ins i park r b => leBytes 2 i ++ [byte (if park then 1 else 0), byte r] ++ leBytes 16 b
  | .can i chain r => leBytes 2 i ++ [byte (if chain then 1 else 0), byte r]
  | .ret i out => leBytes 2 i ++ leBytes 2 out
  | .cons k owner whn b last vs =>
    [byte k, byte owner, byte whn, byte (if last then 1 else 0)] ++ leBytes 4 b
      ++ vs.flatMap (fun p => leBytes 4 p.1 ++ leBytes 4 p.2.toNat)
  | .consAt k d => leBytes 4 k ++ leBytes 8 d
  | .consEnd k out => leBytes 2 k ++ leBytes 2 out
  | .map vt tai => leBytes 8 vt ++ leBytes 8 tai
  | .bulk rs last =>
    rs.flatMap (fun r => leBytes 2 r.slot
      ++ [byte (r.state + (if r.park then 4 else 0)), byte (if last then 1 else 0)] ++ leBytes 16 r.bits)

/-- TYPE of the frame that carries a record (table of frame types). -/
def Mirror.type : Mirror → Nat
  | .ins _ _ _ _ => 0x10
  | .can _ _ _ => 0x11
  | .ret _ _ => 0x12
  | .cons _ _ _ _ _ _ => 0x20
  | .consAt _ _ => 0x21
  | .consEnd _ _ => 0x22
  | .map _ _ => 0x30
  | .bulk _ _ => 0x40

/-- TYPE, byte 0 of the header. -/
def Frame.type : Frame → Nat
  | .hello _ => 0x01
  | .heartbeat _ => 0x02
  | .ack _ _ => 0x03
  | .mirror _ rs => (rs.head?.map Mirror.type).getD 0
  | .switch _ => 0x50

/-- SEQ, bytes 2 to 5: that of the frame's first record. -/
def Frame.seq : Frame → Nat
  | .heartbeat h => h.seq
  | .mirror n _ => n
  | _ => 0

/-- The payload. -/
def Frame.payload : Frame → List Byte
  | .hello h =>
    leBytes 8 h.serial ++ [h.mcver0, h.mcver1, h.mcver2, h.shnver, h.fltver].flatMap (fun v => leBytes 4 v.toNat)
      ++ leBytes 4 h.period ++ [byte h.stepping, byte (if h.pref then 1 else 0), byte h.state]
  | .heartbeat h =>
    leBytes 4 h.seq ++ leBytes 8 h.dep ++ leBytes 8 h.t1 ++ leBytes 8 h.t4 ++ leBytes 4 h.live ++ leBytes 4 h.rseq
      ++ leBytes 4 h.faults
  | .ack n t => leBytes 4 n ++ leBytes 8 t
  | .mirror _ rs => rs.flatMap Mirror.image
  | .switch w => leBytes 8 w

/-- The header: TYPE, FLAGS, SEQ and LEN (R345). -/
def Frame.header (f : Frame) : List Byte :=
  [byte f.type, byte (Config.frameFlags f.type)] ++ leBytes 4 f.seq ++ leBytes 2 f.payload.length

/-- A frame between its K27.7 and K29.7: header, payload, and the CRC-32 over both (R345). -/
def Frame.bytes (f : Frame) : List Byte := f.header ++ f.payload ++ leBytes 4 (crc32 (f.header ++ f.payload))

/-- Bytes as little-endian words. -/
def toWords : List Byte → List Word
  | a :: b :: c :: d :: bs => word (leNat [a, b, c, d]) :: toWords bs
  | _ => []

/-- The words that a record takes in the ring of the mirror queue, padded to whole words (R346); the join copy is read from the
timetable. -/
def Mirror.ringed : Mirror → List Word
  | .bulk _ _ => []
  | r => toWords (r.image ++ [0, 0, 0])

/-- Bytes that a record takes in the part of the mirror queue that is not reserved: retirements lie in the reserved part. -/
def Mirror.bytes : Mirror → Nat
  | .ret _ _ => 0
  | r => 4 * r.ringed.length

/-- A record put into the ring at raw cycle `c`: its words wait for their siding, in the half that is theirs. -/
def Twn.intoRing (x : Twn) (r : Mirror) (c : Nat) : Twn :=
  let ws := r.ringed
  let lay (p b : Nat) : List (Nat × Word) := ws.zipIdx.map (fun w => (b + (p + w.2) % 16384, w.1))
  let x := { x with ringSince := if x.toRing = [] then c else x.ringSince }
  match r with
  | .ret _ _ => { x with toRing := x.toRing ++ lay x.rPos 16384, rPos := (x.rPos + ws.length) % 16384 }
  | _ => { x with toRing := x.toRing ++ lay x.qPos 0, qPos := (x.qPos + ws.length) % 16384 }

end Sys2Proof.Machine
end

