-- ==== Sys2Proof/Machine/Ops.lean ====
section
/-! DEFINITION. The operations every block uses: the clock and vehicle time, the register file, interrupt bits, counters,
the capture of a discarded access, roles, the logbook, signals, free values, faults. -/

namespace Sys2Proof.Machine

/-! ### The clock and vehicle time -/

/-- Vehicle time at `u` raw units (R26, R28), modulo 2^64. -/
def State.vtAt (s : State) (u : Nat) : Nat := bitsOfInt 64 ((u : Int) + s.vtOff)

/-- Vehicle time now, in VTS64 units. -/
def State.vt (s : State) : Nat := s.vtAt (s.raw * 64)

/-- The vehicle-time cycle count now. -/
def State.cyc (s : State) : Nat := s.vt / 64

/-- DEP (R10): the cycle count divided by the period in force. -/
def State.dep (s : State) : Nat := s.cyc / s.dsp.period

/-- `a` less `b` as vehicle times, the nearest signed difference. -/
def vtDiff (a b : Nat) : Int := signedOf 64 (a + (2 ^ 64 - b % 2 ^ 64))

/-- The raw units at which vehicle time reads `t`. -/
def State.rawOf (s : State) (t : Nat) : Nat := ((s.raw * 64 : Nat) + vtDiff t s.vt).toNat

/-- The clock moved forward to raw cycle `c`; it never moves back. -/
def State.advance (s : State) (c : Nat) : State := { s with raw := max s.raw c }

/-- The clock moved forward to the first cycle at or after raw unit `u`. -/
def State.advanceU (s : State) (u : Nat) : State := s.advance ((u + 63) / 64)

/-- The clock moved forward to vehicle time `t`. -/
def State.advanceVt (s : State) (t : Nat) : State := s.advanceU (s.rawOf t)

/-- Cycle c of departure `d` (R10), as a vehicle time. -/
def State.boundary (s : State) (d : Nat) : Nat := d * s.dsp.period * 64

/-! ### Registers -/

/-- The word at a register address. -/
def State.reg (s : State) (a : Nat) : Word := SMap.get resetWord s.regs a

/-- The word at a register address replaced. -/
def State.setReg (s : State) (a : Nat) (v : Word) : State := { s with regs := SMap.put resetWord s.regs a v }

/-- Field `g` of the register `i` bytes above the field's own. -/
def State.f (s : State) (g : Fld) (i : Nat := 0) : Nat := bitsAt (s.reg (g.off + i)).toNat g.lo g.wid

/-- A one-bit field as a truth value. -/
def State.on (s : State) (g : Fld) (i : Nat := 0) : Bool := s.f g i ≠ 0

/-- Field `g` replaced by the low bits of `v`. -/
def State.setF (s : State) (g : Fld) (v : Nat) (i : Nat := 0) : State :=
  s.setReg (g.off + i) (word (putBits (s.reg (g.off + i)).toNat g.lo g.wid v))

/-- Bits of the register at `a` that the hardware has set in this raw cycle (R9). -/
def State.events (s : State) (a : Nat) : Word :=
  if s.seenNow.eventsAt = s.raw then SMap.get (fun _ => 0) s.seenNow.events a else 0

/-- The bits `m` of the W1C register at `a` noted as set in raw cycle `c`. -/
def Seen.noted (w : Seen) (c a m : Nat) : Seen :=
  let es := if w.eventsAt = c then w.events else []
  { w with eventsAt := c, events := SMap.put (fun _ => 0) es a (SMap.get (fun _ => 0) es a ||| word m) }

/-- A bit field set to 1 by the hardware: an `IRQ_RAW` bit, a flag. A W1C bit is noted: no write of the same cycle clears it
(R9). -/
def State.set1 (s : State) (g : Fld) (i : Nat := 0) : State :=
  { s.setF g 1 i with
    seenNow := if g.acc = .w1c then s.seenNow.noted s.raw (g.off + i) (2 ^ g.lo) else s.seenNow }

/-- A bit field cleared. -/
def State.clr (s : State) (g : Fld) (i : Nat := 0) : State := s.setF g 0 i

/-- A counter field increased by `n`, saturating at its width. -/
def State.bump (s : State) (g : Fld) (n : Nat := 1) (i : Nat := 0) : State :=
  s.setF g (satAdd (2 ^ g.wid - 1) (s.f g i) n) i

/-- A counter field increased by one, wrapping. -/
def State.incr (s : State) (g : Fld) (i : Nat := 0) : State := s.setF g (s.f g i + 1) i

/-- The requester an identity names. -/
def requesterOf (n : Nat) : Option Requester :=
  if n = 1 then some .pcie else if n = 2 then some .spi else if n = 3 then some .jtag
  else if n = 0x20 then some .tbu else if n = 0x21 then some .twn
  else if h : 0x10 ≤ n ∧ n < 0x18 then some (.engine ⟨n - 0x10, by omega⟩) else none

/-- Key of a per-requester word. -/
def pkey (k a : Nat) : Nat := k * 2 ^ 28 + a

/-- The word of the requester with identity `k` at address `a`, each requester its own (R14, R73, R304); 0 where nothing has been
copied. -/
def State.preg (s : State) (k a : Nat) : Word := SMap.get (fun _ => 0) s.preqs (pkey k a)

/-- A per-requester word replaced. -/
def State.setPreg (s : State) (k a : Nat) (v : Word) : State :=
  { s with preqs := SMap.put (fun _ => 0) s.preqs (pkey k a) v }

/-! ### Roles and discards -/

/-- The session of a requester (R336). -/
def State.session (s : State) (r : Requester) : Session := SMap.get (fun _ => {}) s.sec.sessions r.id

def State.setSession (s : State) (r : Requester) (x : Session) : State :=
  { s with sec := { s.sec with sessions := SMap.put (fun _ => {}) s.sec.sessions r.id x } }

/-- The role a requester holds: interfaces their session's, engines operator always (R336, R167); TBU and TWN none. -/
def State.role (s : State) (r : Requester) : Role :=
  match r with
  | .engine _ => .operator
  | .tbu => .none
  | .twn => .none
  | r => (s.session r).role

/-- The requester has the rights of role `need` (R336). -/
def State.hasRole (s : State) (r : Requester) (need : Role) : Bool := decide (need.code ≤ (s.role r).code)

/-- Reasons of a discard, coded as ERR_CAP.REASON (R288). -/
inductive Reason where
  | role | mode | range | busy | owner | conflict | fanout | ecc
  deriving DecidableEq, Repr

def Reason.code : Reason → Nat
  | .role => 1
  | .mode => 2
  | .range => 3
  | .busy => 4
  | .owner => 5
  | .conflict => 6
  | .fanout => 7
  | .ecc => 8

/-- A discard of an access of `r` noted where that requester's access is watched. -/
def Seen.refused (w : Seen) (r : Requester) (why : Reason) : Seen :=
  if w.watch = some r ∧ w.why = none then { w with why := some why.code } else w

/-- A discarded access of the page at `base` at offset `ofs`: the page's ERR_CAP captures the first (R288). -/
def State.capture (s : State) (base ofs : Nat) (r : Requester) (why : Reason) : State :=
  { s with
    regs :=
      if bitsAt (s.reg (base + 0x1C)).toNat 31 1 = 1 then s.regs
      else (s.setReg (base + 0x1C) (word (2 ^ 31 + why.code * 2 ^ 27 + r.id * 2 ^ 19 + ofs % 2 ^ 12))).regs
    seenNow := s.seenNow.refused r why }

/-- A discarded access to register address `a` captured in its page (R8, R288). -/
def State.discard (s : State) (a : Nat) (r : Requester) (why : Reason) : State :=
  match pageOf a with
  | none => s
  | some (_, b) => s.capture b (a - b) r why

/-- A read answered. -/
def State.answer (s : State) (r : Requester) (a : Nat) (v : Word) (poison : Bool := false) : State :=
  { s with hst := { s.hst with
      replies := { req := r, addr := a, data := v, poison := poison } :: s.hst.replies } }

/-! ### Free values, signals, faults -/

/-- A fresh free value (entry 5). -/
def State.drawn (s : State) : Nat := Config.freeValue s.free

/-- The state after a free value has been drawn. -/
def State.draw (s : State) : State := { s with free := s.free + 1 }

/-- A source signals: the event reaches the engines in the next cycle (R148). -/
def State.signal (s : State) (kind idx g1 s0 : Nat) : State :=
  { s with signals := s.signals ++ [{ kind := kind, idx := idx, g1 := g1, s0 := s0, since := s.raw }] }

/-- A coded fault is detected (R384): its PWR.FLTSTS bit is set, and its reaction is due. -/
def State.fault (s : State) (code : Nat) : State :=
  let s := s.setF PWR.FLTSTS.FAULT (s.f PWR.FLTSTS.FAULT ||| 2 ^ (code - 1))
  { s with pwr := { s.pwr with faults := s.pwr.faults ++ [code] } }

/-! ### Entries seen from their targets -/

def State.slot (s : State) (i : Nat) : Slot := SMap.get (fun _ => {}) s.slots i

def State.setSlot (s : State) (i : Nat) (x : Slot) : State := { s with slots := SMap.put (fun _ => {}) s.slots i x }

/-- Outcome codes of an entry (table of outcome codes). -/
abbrev outActed : Nat := 1
abbrev outActedLate : Nat := 2
abbrev outSkipped : Nat := 3
abbrev outLateCalled : Nat := 4
abbrev outRefused : Nat := 5
abbrev outCancelled : Nat := 6
abbrev outAborted : Nat := 7
abbrev outDiscarded : Nat := 8
abbrev outChainCut : Nat := 9

/-- The target of an ACTIVE entry has acted on it, refused it or discarded it with outcome `out`; the entry becomes
RETIRING in the next cycle (R100). An entry moved late that acts does so with outcome ACTED_LATE (R104). -/
def State.acted (s : State) (src : LoadSrc) (out : Nat) : State :=
  match src with
  | .direct => s
  | .slot i =>
    let x := s.slot i
    if x.st = .active ∧ x.acted = none then
      s.setSlot i { x with acted := some (if out = outActed ∧ x.late then outActedLate else out) }
    else s

/-! ### The logbook -/

/-- Bytes 0 to 31 of a logbook entry as one number (table of the logbook entry, R341). -/
def logEntry (vt kind : Nat) (role : Role) (req result addr : Nat) (old new : Nat) : Nat :=
  vt % 2 ^ 64 + kind % 256 * 2 ^ 64 + role.code * 2 ^ 72 + req % 256 * 2 ^ 80 + result % 256 * 2 ^ 88
    + addr % 2 ^ 32 * 2 ^ 96 + old % 2 ^ 64 * 2 ^ 128 + new % 2 ^ 64 * 2 ^ 192

/-! Store numbers, as MEM.UECAP.STORE, and the key of a word's check-bit mark. -/

abbrev stLog : Nat := 0
abbrev stRelief : Nat := 1
abbrev stIcb : Nat := 2
abbrev stTt : Nat := 3
abbrev stAdc : Nat := 4
abbrev stRing : Nat := 5
abbrev stShn : Nat := 6
abbrev stBook : Nat := 7

def eccKey (k i : Nat) : Nat := k * 2 ^ 20 + i

/-- Words 0 to 7 of an entry written at word `w` of the logbook space. -/
def putEntry (m : SMap Word) (w e : Nat) : SMap Word :=
  (List.range 8).foldl (fun m j => SMap.put (fun _ => 0) m (w + j) (word (e / 2 ^ (32 * j)))) m

/-- An entry written to the logbook (R341): never blocked; an entry that stream 6 has not taken is lost where it is
overwritten. -/
def State.logAt (s : State) (vt kind : Nat) (role : Role) (req result addr old new : Nat) : State :=
  let n := s.f SEC.LOGPOS.V
  let e := logEntry vt kind role req result addr old new
  let ecc := (List.range 8).foldl (fun m j => SMap.put (fun _ => 0) m (eccKey stBook (n % 1024 * 8 + j)) 0) s.mem.ecc
  let s := { s with mem := { s.mem with
      book := putEntry s.mem.book (n % 1024 * 8) e, ecc := ecc
      bankAt := SMap.put (fun _ => 0) s.mem.bankAt (32 + stBook) (s.raw + 1) } }
  let s := s.setF SEC.LOGPOS.V (n + 1)
  if s.hst.logTaken + 1024 ≤ n then
    let st := SMap.get (fun _ => ({} : Stream)) s.hst.streams 6
    let s := (s.bump SEC.LOGLOST.V).set1 SEC.IRQ_RAW.LOG_OVW
    { s with hst := { s.hst with
        logTaken := n - 1023
        streams := SMap.put (fun _ => {}) s.hst.streams 6 { st with loss := true } } }
  else s

/-- An entry of the cycle now. -/
def State.log (s : State) (kind : Nat) (role : Role) (req result addr old new : Nat) : State :=
  s.logAt s.vt kind role req result addr old new

/-! ### Mirroring -/

/-- The peer of a PRIMARY is in a state in which it receives mirror records (R352), from its copy on (R364). -/
def State.mirrors (s : State) : Bool :=
  s.twn.st = .primary && !s.twn.owesCopy && (s.twn.peerSt = .joining || s.twn.peerSt = .ready || s.twn.peerSt = .notReady)

/-- A mirror record enqueued in the cycle of its event (R352), with the next SEQ. -/
def State.mirror (s : State) (r : Mirror) : State :=
  if s.mirrors then
    let x := s.twn.intoRing r s.raw
    { s with twn := { x with queue := x.queue ++ [(x.enq + 1, r)], enq := x.enq + 1 } }
  else s

/-! ### Addresses of instances -/

/-- Byte distance of track `t`'s subpage from T000's. -/
abbrev trkAt (t : Nat) : Nat := t * 0x100
/-- Byte distance of instance `n`'s page from the first instance's. -/
abbrev pgAt (n : Nat) : Nat := n * 0x1000

/-! ### Aborts -/

/-- An abort of the page at `base` is in progress (R315). -/
def State.aborting (s : State) (base : Nat) : Bool := bitsAt (s.reg (base + 0x24)).toNat 1 1 = 1

/-- ABORT_STS.BUSY set. -/
def State.abortBegin (s : State) (base : Nat) : State :=
  s.setReg (base + 0x24) (word (putBits (s.reg (base + 0x24)).toNat 1 1 1))

/-- BUSY clears, DONE is set and COUNT increases (R315). -/
def State.abortEnd (s : State) (base : Nat) : State :=
  let w := (s.reg (base + 0x24)).toNat
  let w := putBits (putBits w 1 1 0) 0 1 1
  s.setReg (base + 0x24) (word (putBits w 16 16 (satAdd 0xFFFF (bitsAt w 16 16) 1)))

/-! ### Outcomes -/

/-- The next state. -/
abbrev Out := Host.Outcome State Fault Refusal

end Sys2Proof.Machine
end

