-- ==== Sys2Proof/Machine/MemOps.lean ====
section
/-! DEFINITION. Memory (file 11 of the spec): reading and writing the stores with their check bits, the order of access to a siding,
the interchange bank, the copy of the background test. -/

namespace Sys2Proof.Machine

/-! ### Stores and check bits (R262 to R264) -/

/-- Words of a store. -/
def storeWords (k : Nat) : Nat :=
  if k = stLog then 524288 else if k = stRelief then 32768 else if k = stIcb then 16384
  else if k = stTt then 65536 else if k = stAdc then 65536 else if k = stRing then 8192
  else if k = stShn then 2048 else 10240

/-- The mark of a stored word: 0 good, 1 a single-bit error, 2 an uncorrectable one. -/
def State.ecc (s : State) (k i : Nat) : Nat := SMap.get (fun _ => 0) s.mem.ecc (eccKey k i)

/-- First raw cycle that bank `d` can give to an access (`16` the interchange bank, `32 + k` the bank of store `k`); the
cycle now given to one. -/
def State.bankFree (s : State) (d : Nat) : Nat := SMap.get (fun _ => 0) s.mem.bankAt d
def State.useBank (s : State) (d : Nat) (cycles : Nat := 1) : State :=
  { s with mem := { s.mem with bankAt := SMap.put (fun _ => 0) s.mem.bankAt d (s.raw + cycles) } }

/-- An access of this cycle to store `k`: its scrubber finds the bank taken (R265). -/
def State.touch (s : State) (k : Nat) : State := s.useBank (32 + k) (max 1 (s.bankFree (32 + k) - s.raw))

/-- A host access to store `k` in the next cycle its bank has free, which it occupies for `n` cycles (R264). -/
def State.onStore (s : State) (k n : Nat) : State := (s.advance (s.bankFree (32 + k))).useBank (32 + k) n

/-- Fresh check bits: the mark of a word cleared (R264), or copied with it (R275). -/
def State.setEcc (s : State) (k i e : Nat) : State :=
  { s with mem := { s.mem with ecc := SMap.put (fun _ => 0) s.mem.ecc (eccKey k i) e } }

/-- What a read of a word finds (R263): a corrected word is queued for its rewrite, at which it is counted; an uncorrectable
one is counted, captured, and is fault MEM_UNCORR. -/
def State.checked (s : State) (k i : Nat) : State :=
  let e := s.ecc k i
  if e = 0 then s
  else if e = 1 then
    if s.mem.rewrites.contains (eccKey k i) then s
    else { s with mem := { s.mem with rewrites := s.mem.rewrites ++ [eccKey k i] } }
  else
    let s := (s.bump MEM.ECCCNT.UNCORR).set1 MEM.IRQ_RAW.UNCORR
    let s := if s.on MEM.UECAP.VALID then s
      else s.setReg MEM.UECAP.VALID.off (word (2 ^ 31 + k * 2 ^ 28 + i))
    s.fault 0x02

/-- A host write of word `i` of store `k` with the lanes `be` (R264): a part of a word is a read-modify-write, which an
uncorrectable word refuses; `a` is its byte address in the window. -/
def State.rmw (s : State) (r : Requester) (k i a be : Nat) (f : State → State) : State :=
  if be = 15 then f s
  else if s.ecc k i = 2 then (s.checked k i).capture MEM.page.base a r .ecc
  else f (s.checked k i)

/-- The lanes `be` of `v` over `w`. -/
def mergeBe (w v : Word) (be : Nat) : Word :=
  let lane (k : Nat) : Nat := (if bitsAt be k 1 = 1 then bitsAt v.toNat (8 * k) 8 else bitsAt w.toNat (8 * k) 8) * 2 ^ (8 * k)
  word (lane 0 + lane 1 + lane 2 + lane 3)

/-! ### Sidings -/

/-- A siding is borrowed (R272). -/
def Mem.borrowed (m : Mem) : Bool := m.bgtPhase ≠ 3

/-- Siding `d` is served from the relief: borrowed in TEST or RESTORE, or retired (R274, R277). -/
def Mem.onRelief (m : Mem) (d : Nat) : Bool :=
  m.retired = some d || (m.bgtSid = d && (m.bgtPhase = 1 || m.bgtPhase = 2))

/-- The word `i` of the log store as it stands (home bank or relief), without its check. -/
def State.logPeek (s : State) (i : Nat) : Word :=
  if s.mem.onRelief (i / 32768) then SMap.get (fun _ => 0) s.mem.relief (i % 32768)
  else SMap.get (fun _ => 0) s.mem.log i

/-- Store and index that serve a read of log store word `i`. -/
def State.logHome (s : State) (i : Nat) : Nat × Nat :=
  if s.mem.onRelief (i / 32768) then (stRelief, i % 32768) else (stLog, i)

/-- A read of log store word `i`: the state after its check; the value is `logPeek`. -/
def State.logRead (s : State) (i : Nat) : State := s.checked (s.logHome i).1 (s.logHome i).2

def State.putHome (s : State) (i : Nat) (v : Word) : State :=
  ({ s with mem := { s.mem with log := SMap.put (fun _ => 0) s.mem.log i v } }).setEcc stLog i 0

def State.putRelief (s : State) (i : Nat) (v : Word) : State :=
  ({ s with mem := { s.mem with relief := SMap.put (fun _ => 0) s.mem.relief i v } }).setEcc stRelief i 0

/-- A word of the logbook and digest space written. -/
def State.bookPut (s : State) (i : Nat) (v : Word) : State :=
  ({ s with mem := { s.mem with book := SMap.put (fun _ => 0) s.mem.book i v } }.touch stBook).setEcc stBook i 0

/-- A full-word write of log store word `i`: to the bank that serves it, and to the other in COPY and RESTORE (R274); a
mirrored write of the word in the copy register cancels the register (R275). -/
def State.logWrite (s : State) (i : Nat) (v : Word) : State :=
  let d := i / 32768
  let m := s.mem
  if m.retired = some d then s.putRelief (i % 32768) v
  else if m.borrowed && m.bgtSid = d then
    let s := match m.copyReg with
      | some (k, _, _) => if k = i % 32768 then { s with mem := { s.mem with copyReg := none } } else s
      | none => s
    if m.bgtPhase = 1 then s.putRelief (i % 32768) v
    else (s.putHome i v).putRelief (i % 32768) v
  else s.putHome i v

/-- A host write of log store word `i` (R264): whole, or a read-modify-write that an uncorrectable word refuses. -/
def State.logMerge (s : State) (r : Requester) (i : Nat) (v : Word) (be : Nat) : State :=
  if be = 15 then s.logWrite i v
  else s.rmw r (s.logHome i).1 (s.logHome i).2 (i * 4) be fun t => t.logWrite i (mergeBe (s.logPeek i) v be)

/-- The word of the copy register written to its destination, in the cycle after the copy access or after the mirrored write
that put it off (R275). -/
def State.copyFlush (s : State) : State :=
  match s.mem.copyReg with
  | none => s
  | some (k, v, e) =>
    let i := s.mem.bgtSid * 32768 + k
    let s := { s with mem := { s.mem with copyReg := none, copyAt := s.mem.copyAt + 1 } }
    if s.mem.bgtPhase = 0 then (s.putRelief k v).setEcc stRelief k e
    else (s.putHome i v).setEcc stLog i e

/-- The word of the copy register is written once the cycle in which it can be has passed (R275). -/
def State.copyTick (s : State) : State := if s.mem.copyAt + 1 < s.raw then s.copyFlush else s

/-- What an access of siding `d` in cycle `c` means for the copy register: a mirrored write in the cycle in which its word would
be written puts it off (R275). -/
def State.copyMeets (s : State) (d c : Nat) (mirrored : Bool) : State :=
  if s.mem.bgtSid ≠ d ∨ c ≤ s.mem.copyAt ∨ s.mem.copyReg = none then s
  else if mirrored && c = s.mem.copyAt + 1 then { s with mem := { s.mem with copyAt := c } }
  else s.copyFlush

/-- The copy access of cycle `c` (R275): the register's word is written, and the next word is read into it. -/
def State.copyStep (s : State) (c : Nat) : State :=
  let s := s.copyFlush
  let k := s.mem.bgtPtr
  if s.mem.bgtPhase = 1 ∨ s.mem.bgtPhase = 3 ∨ 32768 ≤ k then s
  else
    let i := s.mem.bgtSid * 32768 + k
    let src := if s.mem.bgtPhase = 0 then (stLog, i) else (stRelief, k)
    let v := if s.mem.bgtPhase = 0 then SMap.get (fun _ => 0) s.mem.log i else SMap.get (fun _ => 0) s.mem.relief k
    let e := s.ecc src.1 src.2
    let s := s.checked src.1 src.2
    { s with mem := { s.mem with copyReg := some (k, v, if e = 2 then 2 else 0), bgtPtr := k + 1, copyAt := c, passed := 0 } }

/-! ### The order of access (R266) -/

def WaitKind.isCommit : WaitKind → Bool
  | .commit _ => true
  | _ => false

def WaitKind.isEngine : WaitKind → Bool
  | .engRead _ _ _ => true
  | .engWrite _ => true
  | _ => false

def WaitKind.isDma (k : WaitKind) : Bool := !k.isCommit && !k.isEngine

/-- Order of the DMA-class requesters: the host interfaces, then the tags of the internal engines. -/
def Wait.dmaId (w : Wait) : Nat :=
  match w.kind with
  | .dma tag => 3 + tag
  | _ => w.req.id - 1

/-- The waiting access whose number comes first after `last` in cyclic order modulo `n`; among equals the oldest. -/
def cyclicFirst (n last : Nat) (num : Wait → Nat) : List Wait → Option Wait
  | [] => none
  | w :: ws =>
    match cyclicFirst n last num ws with
    | none => some w
    | some v =>
      if (num v + 2 * n - last - 1) % n < (num w + 2 * n - last - 1) % n then some v else some w

/-- The engine number of an access. -/
def Wait.eng (w : Wait) : Nat := w.req.id - 0x10

/-- The access that a single-ported bank grants: engines that waited before the oldest commit, the oldest commit,
engines round-robin, then the DMA class round-robin (R266). -/
def pickWait (ws : List Wait) (lastE lastD : Nat) : Option Wait :=
  let engs := ws.filter (fun w => w.kind.isEngine)
  match ws.find? (fun w => w.kind.isCommit) with
  | some c =>
    match cyclicFirst 8 lastE Wait.eng (engs.filter (fun w => w.since < c.since)) with
    | some w => some w
    | none => some c
  | none =>
    match cyclicFirst 8 lastE Wait.eng engs with
    | some w => some w
    | none => cyclicFirst 64 lastD Wait.dmaId (ws.filter (fun w => w.kind.isDma))

/-- The longest DMA-class wait kept (R268). -/
def State.noteWait (s : State) (n : Nat) : State :=
  s.setF MEM.STARVE.MAXWAIT (max (s.f MEM.STARVE.MAXWAIT) (min n 0xFFFF))

/-- What a granted access of the log store does. Read data of an engine is available two cycles later, four where the
relief serves (R267). -/
def State.serve (s : State) (w : Wait) : State :=
  match w.kind with
  | .commit v => s.logWrite w.idx v
  | .engWrite v => s.logWrite w.idx v
  | .engRead lvl dst _ =>
    let v := s.logPeek w.idx
    let late := if s.mem.onRelief (w.idx / 32768) then 4 else 2
    let s := s.logRead w.idx
    { s with mem := { s.mem with arrivals := s.mem.arrivals ++
        [{ eng := w.eng, lvl := lvl, dst := dst, val := v.toNat, time := s.raw + late }] } }
  | .hostRead =>
    let v := s.logPeek w.idx
    let h := s.logHome w.idx
    let bad := s.ecc h.1 h.2 = 2
    ((s.logRead w.idx).noteWait (s.raw - w.since)).answer w.req (0x400000 + w.idx * 4) v bad
  | .hostWrite v be => (s.logMerge w.req w.idx v be).noteWait (s.raw - w.since)
  | .dma tag =>
    { (s.noteWait (s.raw - w.since)) with mem := { s.mem with granted := s.mem.granted ++ [(w.sid, tag)] } }

/-- A write of a whole or partial word (the DMA tags are those of the writers of records, of shunter RX DMA and of the mirror
queue). -/
def WaitKind.stores : WaitKind → Bool
  | .commit _ => true
  | .engWrite _ => true
  | .hostWrite _ _ => true
  | .dma tag => tag = 0 || (25 ≤ tag && tag < 41) || tag = 42 || tag = 43
  | _ => false

/-- Cycles that an access occupies its bank: two for a read-modify-write (R264). -/
def WaitKind.cycles : WaitKind → Nat
  | .hostWrite _ be => if be = 15 then 1 else 2
  | _ => 1

/-- The record of who was last granted a bank (`16` the interchange bank). -/
def State.noteGrant (s : State) (d : Nat) (w : Wait) : State :=
  if w.kind.isEngine then { s with mem := { s.mem with lastEng := SMap.put (fun _ => 7) s.mem.lastEng d w.eng } }
  else if w.kind.isDma then { s with mem := { s.mem with lastDma := SMap.put (fun _ => 63) s.mem.lastDma d w.dmaId } }
  else s

/-- The siding whose copy access waits. -/
def Mem.copying (m : Mem) (d : Nat) : Bool :=
  m.bgtSid = d && (m.bgtPhase = 0 || m.bgtPhase = 2) && m.bgtPtr < 32768

/-- The copy access of siding `d` can take cycle `c`. -/
def State.copyWaits (s : State) (d c : Nat) : Bool := s.mem.copying d && s.mode ≠ .halt && s.mem.copyAt < c

/-- No earlier access of the same engine waits, at whichever siding: an engine's accesses to one space are performed in the
order it issued them (R190). -/
def State.inTurn (s : State) (w : Wait) : Bool :=
  !(w.kind.isEngine && (s.mem.waits.takeWhile (fun v => v ≠ w)).any (fun v => v.req = w.req && v.kind.isEngine))

/-- The access of siding `d` that goes next among `ws`. -/
def State.pickAt (s : State) (d : Nat) (ws : List Wait) : Option Wait :=
  pickWait (ws.filter s.inTurn) (SMap.get (fun _ => 7) s.mem.lastEng d) (SMap.get (fun _ => 63) s.mem.lastDma d)

/-- The copy access is passed over once more by a DMA-class access; a cycle that a commit or an engine takes breaks the run
of cycles, until it is complete (R266). -/
def State.passCopy (s : State) (d : Nat) (w : Wait) : State :=
  if !s.copyWaits d s.raw then s
  else if w.kind.isDma then { s with mem := { s.mem with passed := s.mem.passed + 1 } }
  else if s.mem.passed < 32 then { s with mem := { s.mem with passed := 0 } }
  else s

/-- The access `w` served in this cycle of siding `d`. -/
def State.give (s : State) (d : Nat) (w : Wait) : State :=
  let s := ((s.useBank d w.kind.cycles).copyMeets d s.raw w.kind.stores).passCopy d w
  (({ s with mem := { s.mem with waits := s.mem.waits.erase w } } : State).serve w).noteGrant d w

/-- One cycle of siding `d` (R266): the first waiting access is served; the background test's copy takes a cycle that
nobody takes, or one ahead of DMA after 32 it was passed over in. -/
def State.grant (s : State) (d : Nat) : State :=
  let s := s.advance (s.bankFree d)
  match s.pickAt d (s.mem.waits.filter (fun w => w.sid = d)) with
  | none => if s.copyWaits d s.raw then (s.useBank d).copyStep s.raw else s.useBank d
  | some w =>
    if w.kind.isDma && s.copyWaits d s.raw && 32 ≤ s.mem.passed then (s.useBank d).copyStep s.raw else s.give d w

/-- Siding `d` can give this cycle to the DMA-class access `w`: nothing goes before it, and the copy access does not. -/
def State.admits (s : State) (d : Nat) (w : Wait) : Bool :=
  s.bankFree d ≤ s.raw && s.pickAt d (s.mem.waits.filter (fun x => x.sid = d && x ≠ w) ++ [w]) = some w
    && !(s.copyWaits d s.raw && 32 ≤ s.mem.passed)

/-- The access of the internal DMA requester `tag` to siding `d`: the one that waits, or a new one. -/
def State.dmaWait (s : State) (d tag : Nat) : Wait :=
  (s.mem.waits.find? (fun w => w.sid = d && w.kind = .dma tag)).getD
    { sid := d, idx := 0, req := .tbu, kind := .dma tag, since := s.raw }

/-- An internal DMA requester has this cycle of siding `d`, or was granted one. -/
def State.dmaReady (s : State) (d tag : Nat) : Bool := s.mem.granted.contains (d, tag) || s.admits d (s.dmaWait d tag)

/-- A DMA-class requester reaches siding `d`: it goes on with `k` when it is granted a cycle, and waits otherwise (R266, R268). -/
def State.dma (s : State) (d tag : Nat) (k : State → State) : State :=
  let done (s : State) : State := { s with mem := { s.mem with granted := s.mem.granted.erase (d, tag) } }
  if s.mem.granted.contains (d, tag) then k (done s)
  else
    let w := s.dmaWait d tag
    if s.admits d w then k (done (s.give d w))
    else if s.mem.waits.contains w then s
    else { s with mem := { s.mem with waits := s.mem.waits ++ [w] } }

/-- A cycle of siding `d`, at `g` or later up to now, given to the DMA-class access `w` where nothing else waits for the siding
(R266): the copy access that has been passed over long enough goes first. -/
def State.dmaLone (s : State) (d : Nat) (w : Wait) (g : Nat) : State × Option Nat :=
  let at_ (s : State) (c : Nat) : State := { s with mem := { s.mem with bankAt := SMap.put (fun _ => 0) s.mem.bankAt d c } }
  let copies := s.copyWaits d g && 32 ≤ s.mem.passed && g ≤ s.raw
  let s := if copies then (at_ s (g + 1)).copyStep g else s
  let g := if copies then g + 1 else g
  if s.raw < g then (s, none)
  else
    let s := (at_ s (g + 1)).copyMeets d g w.kind.stores
    let n := if s.copyWaits d g then s.mem.passed + 1 else s.mem.passed
    let s := { s with mem := { s.mem with passed := n, waits := s.mem.waits.erase w } }
    ((s.noteWait (g - w.since)).noteGrant d w, some g)

/-- One word access of the internal DMA requester `tag` to siding `d`, wanted from raw cycle `since` on: the cycle in which it
is granted, at the latest now; nothing where it has to wait (R266, R268). -/
def State.dmaWord (s : State) (d tag since : Nat) : State × Option Nat :=
  let done (s : State) : State := { s with mem := { s.mem with granted := s.mem.granted.erase (d, tag) } }
  let w : Wait := (s.mem.waits.find? (fun w => w.sid = d && w.kind = .dma tag)).getD
    { sid := d, idx := 0, req := .tbu, kind := .dma tag, since := since }
  if s.mem.granted.contains (d, tag) then (done s, some s.raw)
  else if !s.mem.waits.any (fun v => v.sid = d && v ≠ w) then s.dmaLone d w (max (s.bankFree d) w.since)
  else if s.admits d w then (done (s.give d w), some s.raw)
  else if s.mem.waits.contains w then (s, none)
  else ({ s with mem := { s.mem with waits := s.mem.waits ++ [w] } }, none)

/-- A host access to word `i` of the log store window: at once where the siding gives it this cycle, otherwise held until a
grant (R266, R268). -/
def State.hostLog (s : State) (r : Requester) (i : Nat) (kind : WaitKind) : State :=
  let w : Wait := { sid := i / 32768, idx := i, req := r, kind := kind, since := s.raw }
  if s.admits w.sid w && !(s.mem.waits.any (fun x => x.req = r)) then s.give w.sid w
  else { s with mem := { s.mem with waits := s.mem.waits ++ [w] } }

/-! ### The interchange bank (R269 to R271) -/

def State.icbPeek (s : State) (i : Nat) : Word := SMap.get (fun _ => 0) s.mem.icb i

/-- The words stored in this cycle, each with its value before: what the watch comparators still see (R186). -/
def State.icbNote (s : State) (i : Nat) : State :=
  let old := if s.mem.freshAt = s.raw then s.mem.fresh else []
  let fresh := if old.any (fun p => p.1 = i) then old else old ++ [(i, s.icbPeek i)]
  { s with mem := { s.mem with fresh := fresh, freshAt := s.raw } }

/-- An interchange bank word as a watch comparator sees it now: a store of this cycle not yet (R186). -/
def State.icbSeen (s : State) (i : Nat) : Word :=
  match (if s.mem.freshAt = s.raw then s.mem.fresh else []).find? (fun p => p.1 = i) with
  | some p => p.2
  | none => s.icbPeek i

/-- Lanes of an interchange bank word written, with check bits in the same cycle (R264). -/
def State.icbPut (s : State) (i : Nat) (v : Word) (be : Nat) : State :=
  let s := s.icbNote i
  ({ s with mem := { s.mem with
      icb := SMap.put (fun _ => 0) s.mem.icb i (mergeBe (s.icbPeek i) v be) } }).setEcc stIcb i 0

/-- The value a port-A access writes, if it writes. -/
def WaitKind.writes : WaitKind → Option Word
  | .commit v => some v
  | .engWrite v => some v
  | _ => none

/-- Lanes that port B enables and in which its data differs from port A's (R270). -/
def collided (a b : Word) (be : Nat) : Nat :=
  let lane (k : Nat) : Nat :=
    if bitsAt be k 1 = 1 ∧ bitsAt a.toNat (8 * k) 8 ≠ bitsAt b.toNat (8 * k) 8 then 2 ^ k else 0
  lane 0 + lane 1 + lane 2 + lane 3

/-- Port A's access, reading from the bank as it stood in state `s0` (R271). -/
def State.servePortA (s s0 : State) (w : Wait) : State :=
  match w.kind with
  | .engRead lvl dst _ =>
    let v := s0.icbPeek w.idx
    let s := s.checked stIcb w.idx
    { s with mem := { s.mem with arrivals := s.mem.arrivals ++
        [{ eng := w.eng, lvl := lvl, dst := dst, val := v.toNat, time := s.raw + 2 }] } }
  | k =>
    match k.writes with
    | some v => s.icbPut w.idx v 15
    | none => s

/-- Port B's access, reading from the bank as it stood in state `s0`. -/
def State.servePortB (s s0 : State) (b : PortB) (lanes : Nat) : State :=
  if b.write then s.icbPut b.idx b.val lanes
  else
    let bad := s0.ecc stIcb b.idx = 2
    let s := s.checked stIcb b.idx
    match b.req with
    | none => s
    | some r => s.answer r (0x600000 + b.idx * 4) (s0.icbPeek b.idx) bad

/-- A collision recorded (R270). -/
def State.collide (s : State) (b : PortB) (eng lanes : Nat) : State :=
  let id := match b.req with | some r => r.id | none => 0
  let s := s.setReg MEM.COLLIDE0.REQ.off (word (id * 2 ^ 24 + lanes * 2 ^ 20 + eng * 2 ^ 17 + b.idx * 4))
  let s := s.setReg MEM.COLLIDE1.DEP.off (word s.dep)
  (s.bump MEM.CNT_EVT.LO).set1 MEM.IRQ_RAW.COLLIDE

/-- The port-B access that goes next: round-robin by requester identity, 0 an internal writer. -/
def pickB (last : Nat) : List PortB → Option PortB
  | [] => none
  | b :: bs =>
    let num (x : PortB) : Nat := (match x.req with | some r => r.id | none => 0)
    match pickB last bs with
    | none => some b
    | some c => if (num c + 128 - last - 1) % 64 < (num b + 128 - last - 1) % 64 then some c else some b

/-- A port-B access is held: a commit to its word was made in an earlier cycle and is not yet stored, or waits behind the
access that port A grants in this one (R163). -/
def State.heldB (s : State) (a : Option Wait) (b : PortB) : Bool :=
  s.mem.portA.any (fun w => w.kind.isCommit && w.idx = b.idx && (w.since < s.raw || a ≠ some w))

/-- One cycle of the interchange bank (R269 to R271): one access on each port; port A's data stands where both write a
word and differ. -/
def State.icbCycle (s : State) : State :=
  let s := (s.advance (s.bankFree 16)).useBank 16
  let a := pickWait s.mem.portA (SMap.get (fun _ => 7) s.mem.lastEng 16) 0
  let b := pickB s.mem.lastB (s.mem.portB.filter (fun b => !s.heldB a b))
  let s0 := s
  let s := match a with
    | none => s
    | some w => ({ s with mem := { s.mem with portA := s.mem.portA.erase w } }).noteGrant 16 w
  let s := match b with
    | none => s
    | some x => { s with mem := { s.mem with
        portB := s.mem.portB.erase x, lastB := (match x.req with | some r => r.id | none => 0) } }
  match a, b with
  | none, none => s
  | some w, none => s.servePortA s0 w
  | none, some x => s.servePortB s0 x x.be
  | some w, some x =>
    match w.kind.writes with
    | none => (s.servePortA s0 w).servePortB s0 x x.be
    | some v =>
      let hit := x.write && x.idx = w.idx
      let lanes := if hit then collided v x.val x.be else 0
      let s := (s.servePortB s0 x (if hit then 0 else x.be)).servePortA s0 w
      if lanes = 0 then s else s.collide x w.eng lanes

/-- A host access to the interchange bank window: in this cycle where both ports are idle, otherwise in its turn. -/
def State.hostIcb (s : State) (b : PortB) : State :=
  let s := { s with mem := { s.mem with portB := s.mem.portB ++ [b] } }
  if s.mem.portA.isEmpty && s.mem.portB.length = 1 && s.bankFree 16 ≤ s.raw then s.icbCycle else s

/-- Cycles of the interchange bank until port B has served `b`, at most `k`. -/
def State.icbUntil (s : State) (b : PortB) : Nat → State
  | 0 => s
  | k + 1 => if s.mem.portB.contains b then s.icbCycle.icbUntil b k else s

/-- A whole word written through port B by an internal writer, in its turn among the port-B requesters (R269, R270): the
clock moves to the cycle of the write. -/
def State.icbInternal (s : State) (i : Nat) (v : Word) : State :=
  let b : PortB := { req := none, idx := i, val := v, be := 15, write := true }
  ({ s with mem := { s.mem with portB := s.mem.portB ++ [b] } } : State).icbUntil b
    (s.mem.portA.length + s.mem.portB.length + 1)

/-! ### One requester's accesses in the order in which they arrive (R284) -/

/-- A host interface: its accesses may wait in the memories. -/
def isHost (r : Requester) : Bool := r = .pcie || r = .spi || r = .jtag

/-- The accesses that `r` has waiting in the log store and at the interchange bank served, at most `k` cycles. -/
def State.serveOwn (s : State) (r : Requester) : Nat → State
  | 0 => s
  | k + 1 =>
    match s.mem.waits.find? (fun w => w.req = r) with
    | some w => (s.grant w.sid).serveOwn r k
    | none => if s.mem.portB.any (fun b => b.req = some r) then s.icbCycle.serveOwn r k else s

/-- A host interface's next access comes after those it has waiting (R284): the clock moves until they have been granted. -/
def State.afterOwn (s : State) (r : Requester) : State :=
  if isHost r then s.serveOwn r (2 * (s.mem.waits.length + s.mem.portA.length + s.mem.portB.length) + 2) else s

/-! ### Clear (R279) -/

/-- Every word of every store that `Mem` and `Stores` hold zero, with valid check bits; the background test at its
start. -/
def State.clearStores (s : State) : State := { s with mem := {}, stores := {} }

/-- The word of the current element of March C- in cycle `t` of TEST (R276): one operation on every word, two elements
upward and two downward of two operations a word, and one operation on every word again. -/
def marchWord (t : Nat) : Nat :=
  let n := 32768
  if t < n then t
  else if t < 3 * n then (t - n) / 2
  else if t < 5 * n then (t - 3 * n) / 2
  else if t < 7 * n then n - 1 - (t - 5 * n) / 2
  else if t < 9 * n then n - 1 - (t - 7 * n) / 2
  else min (t - 9 * n) (n - 1)

/-- PTR of BGT_STS: the word of the copy, or of the march, which stands still in Debug-halt. -/
def State.bgtWord (s : State) : Nat :=
  if s.mem.bgtPhase = 1 then
    marchWord ((if s.mode = .halt then s.pwr.haltAt else s.raw) + 327680 - s.mem.testEnds)
  else s.mem.bgtPtr

/-- Debug-halt left after `d` cycles: the march goes on where it paused (R278). -/
def State.memThaw (s : State) (d : Nat) : State :=
  if s.mem.bgtPhase = 1 then { s with mem := { s.mem with testEnds := s.mem.testEnds + d } } else s

/-- The registers of MEM that read the state: STS, BGT_STS, BOOKS. -/
def State.liveMem (s : State) (o : Nat) (w : Word) : Word :=
  let m := s.mem
  let b := if m.borrowed then 1 else 0
  if o = 0x0C then word (putBits w.toNat 1 1 b)
  else if o = 0x5C then
    word (putBits (putBits (putBits w.toNat 28 4 m.bgtSid) 26 2 m.bgtPhase) 0 15 s.bgtWord)
  else if o = 0x64 then word (m.bgtSid * 2 ^ 12 + b * 2 ^ 8 + 16)
  else w

/-! ### Background test and abort -/

/-- The words of siding `d`'s home bank as March C- leaves them, all zero (R276). -/
def State.zeroHome (s : State) (d : Nat) : State :=
  { s with mem := { s.mem with log := s.mem.log.filter (fun e => e.1 / 32768 ≠ d) } }

/-- COPY of the next siding begins; its first copy access is in the next cycle (R274, R278). -/
def State.bgtNext (s : State) : State :=
  { s with mem := { s.mem with
      bgtSid := (s.mem.bgtSid + 1) % 16, bgtPhase := 0, bgtPtr := 0, copyReg := none, copyAt := s.raw, passed := 0 } }

/-- What an abort of MEM leaves of a waiting access (R280): a DMA-class access goes back to its requester, and a host
interface issues its own again at once. -/
def Wait.aborted (w : Wait) (now : Nat) : Option Wait :=
  match w.kind with
  | .dma _ => none
  | k => if k.isDma then some { w with since := now, counted := false } else some w

/-- The effect of an abort of MEM (R280). -/
def State.memAbort (s : State) : State :=
  let s := { s with mem := { s.mem with waits := s.mem.waits.filterMap (fun (w : Wait) => w.aborted s.raw) } }
  ((s.setReg MEM.COLLIDE0.REQ.off 0).setReg MEM.COLLIDE1.DEP.off 0).setReg MEM.UECAP.VALID.off 0

end Sys2Proof.Machine
end

