-- ==== Sys2Proof/Machine/IrqOps.lean ====
section
/-! DEFINITION. Interrupt sources, vectors and messages (R299, R300). -/

namespace Sys2Proof.Machine

/-- The sources that a page's pending bits `p` (IRQ_RAW masked by IRQ_EN) raise (table of interrupt sources). -/
def sourcesOf (code inst p : Nat) : List Nat :=
  if p = 0 then []
  else if code = 0x04 then
    (List.range 8).filter (fun n => bitsAt p n 1 = 1) ++ (if 2 ^ 8 ≤ p then [11] else [])
  else if code = 0x01 then [8] else if code = 0x02 then [9] else if code = 0x03 then [10]
  else if code = 0x05 then [12] else if code = 0x06 then [13] else if code = 0x07 then [14]
  else if code = 0x08 then [15] else if code = 0x10 then [19] else if code = 0x11 then [16]
  else if code = 0x12 then [20 + inst] else if code = 0x13 then [36] else if code = 0x14 then [17]
  else if code = 0x15 then [37] else if code = 0x16 then [28 + inst] else [18]

/-- IRQ_RAW masked by IRQ_EN of the page at `b`. -/
def State.pendBits (s : State) (b : Nat) : Nat := (s.reg (b + 0x10)).toNat &&& (s.reg (b + 0x14)).toNat

/-- The pages with an enabled event: code, instance, pending bits. A page whose IRQ_EN is at its reset value has none. -/
def State.pendingPages (s : State) : List (Nat × Nat × Nat) :=
  s.regs.filterMap (fun e =>
    match pageOf e.1 with
    | none => none
    | some (p, b) =>
      if e.1 - b = 0x14 ∧ s.pendBits b ≠ 0 then some (p.code, (b - p.base) / p.stride, s.pendBits b) else none)

/-- The pending sources (R299). -/
def State.sources (s : State) : List Nat := s.pendingPages.flatMap (fun x => sourcesOf x.1 x.2.1 x.2.2)

/-- The vector that a source is mapped to, if it is enabled (HST.VMAP). -/
def State.vectorOf (s : State) (src : Nat) : Option Nat :=
  let b := bitsAt (s.reg (HST.VMAP.VEC0.off + src / 4 * 4)).toNat (src % 4 * 8) 8
  if 128 ≤ b then some (b % 32) else none

/-- The asserted vectors (R299). -/
def State.vectors (s : State) : List Nat := (s.sources.filterMap s.vectorOf).eraseDups

/-- A word of a vector's entry in the MSI-X table (R283): its address, low and high, and its data. -/
def State.msixWord (s : State) (v j : Nat) : Word := SMap.get (fun _ => 0) s.hst.msix (4 * v + j)

/-- A vector's message is sent, or withheld by the mask (R300). No message leaves while the link is down: it is withheld
too. -/
def State.message (s : State) (v : Nat) : State :=
  if s.on HST.LINK.UP && s.hst.unmasked.contains v then
    let m : Msg := { vec := v, addr := (s.msixWord v 0).toNat + (s.msixWord v 1).toNat * 2 ^ 32, data := s.msixWord v 2 }
    { s with hst := { s.hst with msgs := m :: s.hst.msgs } }
  else if s.hst.pba.contains v then s
  else { s with hst := { s.hst with pba := v :: s.hst.pba } }

/-- The messages of the vectors that have become asserted (R300). -/
def State.notify (s : State) : State :=
  let now := s.vectors
  if now = s.hst.asserted then s
  else
    let new := now.filter (fun v => !s.hst.asserted.contains v)
    let s := new.foldl State.message s
    { s with hst := { s.hst with asserted := now } }

/-- The summary registers of HST: ISUM, RULSUM, SHNSUM, TRKSUM. -/
def State.summary (s : State) (o : Nat) : Word :=
  let bitOf (n lo : Nat) : Nat := if lo ≤ n ∧ n < lo + 32 then 2 ^ (n - lo) else 0
  let sumOf (ns : List Nat) (lo : Nat) : Word := word ((ns.eraseDups.map (fun n => bitOf n lo)).sum)
  let inst (code : Nat) : List Nat := s.pendingPages.filterMap (fun x => if x.1 = code then some x.2.1 else none)
  if o = 0x50 then sumOf s.sources 0
  else if o = 0x54 then sumOf s.sources 32
  else if o = 0x58 then sumOf (inst 0x13) 0
  else if o = 0x5C then sumOf (inst 0x15) 0
  else sumOf (inst 0x10) ((o - 0x60) / 4 * 32)

end Sys2Proof.Machine
end

