-- ==== Sys2Proof/Machine/Crypto.lean ====
section
/-! DEFINITION. The algorithms that file 14 names (R328, R330, R337, R338): SHA-256, ECDSA P-256, AES-256-GCM. PRESUMED (entry
46): their text is that of the public standards, which the manual names and does not print. -/

namespace Sys2Proof.Machine

/-- `k n`, with `n` evaluated first. -/
def evalNat {α : Type} (n : Nat) (k : Nat → α) : α :=
  match n with
  | 0 => k 0
  | m + 1 => k (m + 1)

@[simp] theorem evalNat_eq {α : Type} (n : Nat) (k : Nat → α) : evalNat n k = k n := by cases n <;> rfl

/-- The big-endian number that bytes spell. -/
def beNat (b : List Byte) : Nat := b.foldl (fun n x => evalNat (n * 256 + x.toNat) fun v => v) 0

/-- The `n` big-endian bytes of `v`. -/
def beBytes (n v : Nat) : List Byte := (leBytes n v).reverse

/-! ### SHA-256 -/

/-- Words of 32 bits packed into one number, word 0 lowest. -/
abbrev packed (w k : Nat) : Nat := w / 2 ^ (32 * k) % 2 ^ 32

/-- The 64 round constants, packed. -/
def shaK : Nat := 0xc67178f2bef9a3f7a4506ceb90befffa8cc7020884c8781478a5636f748f82ee682e6ff35b9cca4f4ed8aa4a391c0cb334b0bcb52748774c1e376c0819a4c116106aa070f40e3585d6990624d192e819c76c51a3c24b8b70a81a664ba2bfe8a192722c8581c2c92e766a0abb650a735453380d134d2c6dfc2e1b213827b70a851429296706ca6351d5a79147c6e00bf3bf597fc7b00327c8a831c66d983e515276f988da5cb0a9dc4a7484aa2de92c6f240ca1cc0fc19dc6efbe4786e49b69c1c19bf1749bdc06a780deb1fe72be5d74550c7dc3243185be12835b01d807aa98ab1c5ed5923f82a459f111f13956c25be9b5dba5b5c0fbcf71374491428a2f98

/-- The initial hash value, packed. -/
def shaH : Nat := 0x5be0cd191f83d9ab9b05688c510e527fa54ff53a3c6ef372bb67ae856a09e667

def rotr (x n : Nat) : Nat := x / 2 ^ n ^^^ x * 2 ^ (32 - n) % 2 ^ 32

/-- The words of the message schedule, the newest first, after `n` more. -/
def shaSchedule : Nat → List Nat → List Nat
  | 0, ws => ws
  | n + 1, ws =>
    let a := ws.getD 14 0
    let b := ws.getD 1 0
    let s0 := rotr a 7 ^^^ rotr a 18 ^^^ a / 2 ^ 3
    let s1 := rotr b 17 ^^^ rotr b 19 ^^^ b / 2 ^ 10
    evalNat ((ws.getD 15 0 + s0 + ws.getD 6 0 + s1) % 2 ^ 32) fun w => shaSchedule n (w :: ws)

/-- One round over the working variables `v`, packed `a` to `h`. -/
def shaRound (v kw : Nat) : Nat :=
  let e := packed v 4
  let a := packed v 0
  let s1 := rotr e 6 ^^^ rotr e 11 ^^^ rotr e 25
  let ch := e &&& packed v 5 ^^^ (2 ^ 32 - 1 - e) &&& packed v 6
  evalNat (packed v 7 + s1 + ch + kw) fun t1 =>
  let s0 := rotr a 2 ^^^ rotr a 13 ^^^ rotr a 22
  let mj := a &&& packed v 1 ^^^ a &&& packed v 2 ^^^ packed v 1 &&& packed v 2
  evalNat ((t1 + s0 + mj) % 2 ^ 32) fun a' =>
  evalNat ((packed v 3 + t1) % 2 ^ 32) fun e' =>
  evalNat (a' + v % 2 ^ 96 * 2 ^ 32 + e' * 2 ^ 128 + v / 2 ^ 128 % 2 ^ 96 * 2 ^ 160) fun w => w

/-- The rounds from round `k` on, over the words of the schedule that remain. -/
def shaRounds (v k : Nat) : List Nat → Nat
  | [] => v
  | w :: ws => evalNat (shaRound v (packed shaK k + w)) fun v => shaRounds v (k + 1) ws

/-- One block of sixteen words into the hash value `h`. -/
def shaBlock (h : Nat) (ws : List Nat) : Nat :=
  evalNat (shaRounds h 0 (shaSchedule 48 ws.reverse).reverse) fun v =>
  (List.range 8).foldl (fun n j => n + (packed h j + packed v j) % 2 ^ 32 * 2 ^ (32 * j)) 0

/-- Bytes as big-endian words. -/
def beWords : List Byte → List Nat
  | a :: b :: c :: d :: bs => (evalNat (beNat [a, b, c, d]) fun w => w) :: beWords bs
  | _ => []

/-- The blocks of a padded message hashed, at most `k`. -/
def shaBlocks (h : Nat) : Nat → List Nat → Nat
  | 0, _ => h
  | k + 1, ws => if ws = [] then h else evalNat (shaBlock h (ws.take 16)) fun h => shaBlocks h k (ws.drop 16)

/-- The padding of a message of `n` bytes. -/
def shaPad (n : Nat) : List Byte :=
  byte 0x80 :: (List.replicate ((119 - n % 64) % 64) (byte 0) ++ beBytes 8 (8 * n))

/-- SHA-256 as a number. -/
def shaNat (b : List Byte) : Nat :=
  let h := shaBlocks shaH (b.length / 64 + 2) (beWords (b ++ shaPad b.length))
  (List.range 8).foldl (fun n j => n * 2 ^ 32 + packed h j) 0

/-- SHA-256 (R330, R331, R338). -/
def sha256 (b : List Byte) : List Byte := beBytes 32 (shaNat b)

/-! ### ECDSA over P-256 -/

abbrev p256P : Nat := 0xffffffff00000001000000000000000000000000ffffffffffffffffffffffff
abbrev p256N : Nat := 0xffffffff00000000ffffffffffffffffbce6faada7179e84f3b9cac2fc632551
abbrev p256B : Nat := 0x5ac635d8aa3a93e7b3ebbd55769886bc651d06b0cc53b0f63bce3c3e27d2604b
abbrev p256X : Nat := 0x6b17d1f2e12c4247f8bce6e563a440f277037d812deb33a0f4a13945d898c296
abbrev p256Y : Nat := 0x4fe342e2fe1a7f9b8ee7eb4a7c0f9e162bce33576b315ececbb6406837bf51f5

/-- A point in Jacobian coordinates; `z` = 0 the point at infinity. -/
structure Point where
  x : Nat
  y : Nat
  z : Nat
  deriving DecidableEq, Repr

/-- The point of three coordinates, evaluated. -/
def Point.of (x y z : Nat) : Point := evalNat x fun x => evalNat y fun y => evalNat z fun z => { x := x, y := y, z := z }

/-- Subtraction modulo p of reduced numbers. -/
def subP (a b : Nat) : Nat := (a + p256P - b) % p256P

/-- A point doubled. -/
def Point.dbl (a : Point) : Point :=
  if a.z = 0 ∨ a.y = 0 then { x := 1, y := 1, z := 0 }
  else
    evalNat (a.z * a.z % p256P) fun d =>
    evalNat (a.y * a.y % p256P) fun g =>
    evalNat (a.x * g % p256P) fun b =>
    evalNat (3 * subP a.x d * (a.x + d) % p256P) fun al =>
    evalNat (subP (al * al % p256P) (8 * b % p256P)) fun x =>
    Point.of x (subP (al * subP (4 * b % p256P) x % p256P) (8 * g * g % p256P)) (2 * a.y * a.z % p256P)

/-- Two points added. -/
def Point.add (a b : Point) : Point :=
  if a.z = 0 then b else if b.z = 0 then a
  else
    evalNat (a.z * a.z % p256P) fun za =>
    evalNat (b.z * b.z % p256P) fun zb =>
    evalNat (a.x * zb % p256P) fun ua =>
    evalNat (b.x * za % p256P) fun ub =>
    evalNat (a.y * b.z % p256P * zb % p256P) fun sa =>
    evalNat (b.y * a.z % p256P * za % p256P) fun sb =>
    if ua = ub then (if sa = sb then a.dbl else { x := 1, y := 1, z := 0 })
    else
      evalNat (subP ub ua) fun h =>
      evalNat (subP sb sa) fun r =>
      evalNat (h * h % p256P) fun hh =>
      evalNat (h * hh % p256P) fun hc =>
      evalNat (ua * hh % p256P) fun v =>
      evalNat (subP (subP (r * r % p256P) hc) (2 * v % p256P)) fun x =>
      Point.of x (subP (r * subP v x % p256P) (sa * hc % p256P)) (a.z * b.z % p256P * h % p256P)

/-- `u * a + v * b` over the bits `k - 1` down to 0 of both factors, after `q`; `ab` is `a + b`. -/
def mulSum (a b ab : Point) (u v : Nat) (q : Point) : Nat → Point
  | 0 => q
  | k + 1 =>
    let q := q.dbl
    let q := match bitsAt u k 1, bitsAt v k 1 with
      | 0, 0 => q
      | 0, _ => q.add b
      | _, 0 => q.add a
      | _, _ => q.add ab
    evalNat q.x fun x => evalNat q.y fun y => evalNat q.z fun z => mulSum a b ab u v { x := x, y := y, z := z } k

/-- `a ^ e` modulo `m` over the bits `k - 1` down to 0 of `e`, after `q`. -/
def powMod (a m e q : Nat) : Nat → Nat
  | 0 => q
  | k + 1 =>
    evalNat (q * q % m) fun q => evalNat (if bitsAt e k 1 = 1 then q * a % m else q) fun q => powMod a m e q k

/-- The public key of 64 bytes is a point of the curve. -/
def onCurve (x y : Nat) : Bool := x < p256P && y < p256P && (y * y + 3 * x) % p256P = (x * x * x + p256B) % p256P

/-- The ECDSA signature `sig` (r then s) over the SHA-256 digest of `msg` verifies with the key `key` (X then Y) (R330, R338). -/
def ecdsaOk (msg sig key : List Byte) : Bool :=
  let r := beNat (sig.take 32)
  let s := beNat (sig.drop 32)
  let x := beNat (key.take 32)
  let y := beNat (key.drop 32)
  if r = 0 ∨ p256N ≤ r ∨ s = 0 ∨ p256N ≤ s ∨ !onCurve x y then false
  else
    evalNat (powMod s p256N (p256N - 2) 1 256) fun w =>
    evalNat (shaNat msg * w % p256N) fun u =>
    evalNat (r * w % p256N) fun v =>
    let g : Point := { x := p256X, y := p256Y, z := 1 }
    let q : Point := { x := x, y := y, z := 1 }
    let t := mulSum g q (g.add q) u v { x := 1, y := 1, z := 0 } 256
    evalNat (t.z * t.z % p256P) fun zz =>
    t.z ≠ 0 && (t.x = r * zz % p256P || (r + p256N < p256P && t.x = (r + p256N) * zz % p256P))

/-! ### AES-256-GCM -/

/-- The substitution box, packed by bytes. -/
def aesS : Nat := 0x16bb54b00f2d99416842e6bf0d89a18cdf2855cee9871e9b948ed9691198f8e19e1dc186b95735610ef6034866b53e708a8bbd4b1f74dde8c6b4a61c2e2578ba08ae7a65eaf4566ca94ed58d6d37c8e779e4959162acd3c25c2406490a3a32e0db0b5ede14b8ee4688902a22dc4f816073195d643d7ea7c41744975fec130ccdd2f3ff1021dab6bcf5389d928f40a351a89f3c507f02f94585334d43fbaaefd0cf584c4a39becb6a5bb1fc20ed00d153842fe329b3d63b52a05a6e1b1a2c830975b227ebe28012079a059618c323c7041531d871f1e5a534ccf73f362693fdb7c072a49cafa2d4adf04759fa7dc982ca76abd7fe2b670130c56f6bf27b777c63

def aesSub (b : Nat) : Nat := aesS / 2 ^ (8 * b) % 256

/-- Multiplication by x in the field of AES. -/
def aesX (b : Nat) : Nat := if 128 ≤ b then (2 * b ^^^ 0x11b) else 2 * b

/-- Byte `i` of a block of 16 bytes, byte 0 the most significant. -/
def blkByte (w i : Nat) : Nat := w / 2 ^ (8 * (15 - i)) % 256

/-- The block of sixteen bytes. -/
def blkOf (f : Nat → Nat) : Nat := (List.range 16).foldl (fun n i => evalNat (n * 256 + f i) fun v => v) 0

/-- A word of four bytes substituted. -/
def aesSubWord (w : Nat) : Nat :=
  aesSub (w / 2 ^ 24 % 256) * 2 ^ 24 + aesSub (w / 2 ^ 16 % 256) * 2 ^ 16 + aesSub (w / 2 ^ 8 % 256) * 2 ^ 8 + aesSub (w % 256)

/-- The words of the key schedule, the newest first, after `n` more; `i` words stand, `rc` is the next round constant. -/
def aesExpand : Nat → Nat → Nat → List Nat → List Nat
  | 0, _, _, ws => ws
  | n + 1, i, rc, ws =>
    let t := ws.headD 0
    let t := if i % 8 = 0 then aesSubWord (t * 2 ^ 8 % 2 ^ 32 + t / 2 ^ 24) ^^^ rc * 2 ^ 24
      else if i % 8 = 4 then aesSubWord t else t
    evalNat (ws.getD 7 0 ^^^ t) fun w => aesExpand n (i + 1) (if i % 8 = 0 then 2 * rc else rc) (w :: ws)

/-- The fifteen round keys of a key of 32 bytes. -/
def aesKeys (key : List Byte) : List Nat :=
  let k := beNat key
  let ws := (aesExpand 52 8 1 ((List.range 8).map (fun j => k / 2 ^ (32 * j) % 2 ^ 32))).reverse
  (List.range 15).map (fun r =>
    evalNat (ws.getD (4 * r) 0 * 2 ^ 96 + ws.getD (4 * r + 1) 0 * 2 ^ 64 + ws.getD (4 * r + 2) 0 * 2 ^ 32 + ws.getD (4 * r + 3) 0)
      fun v => v)

/-- Bytes substituted and rows shifted. -/
def aesShift (w : Nat) : Nat := blkOf (fun i => aesSub (blkByte w ((i + 4 * (i % 4)) % 16)))

/-- Columns mixed. -/
def aesMix (w : Nat) : Nat :=
  blkOf (fun i =>
    let c := i / 4 * 4
    let a (k : Nat) : Nat := blkByte w (c + (i + k) % 4)
    aesX (a 0) ^^^ aesX (a 1) ^^^ a 1 ^^^ a 2 ^^^ a 3)

/-- The rounds after the first key, over the keys that remain. -/
def aesRounds (w : Nat) : List Nat → Nat
  | [] => w
  | [k] => evalNat (aesShift w ^^^ k) fun v => v
  | k :: ks => evalNat (aesShift w) fun v => evalNat (aesMix v ^^^ k) fun v => aesRounds v ks

/-- A block enciphered with the round keys `ks`. -/
def aesBlock (ks : List Nat) (w : Nat) : Nat := evalNat (w ^^^ ks.headD 0) fun v => aesRounds v ks.tail

/-- `z` plus the product of the high `k` bits of `x` with `v`, in the field of GCM. -/
def ghashMul (x : Nat) : Nat → Nat → Nat → Nat
  | 0, _, z => z
  | k + 1, v, z =>
    evalNat (if bitsAt x k 1 = 1 then z ^^^ v else z) fun z =>
    evalNat (if v % 2 = 1 then v / 2 ^^^ 0xe1 * 2 ^ 120 else v / 2) fun v => ghashMul x k v z

/-- Bytes as blocks, the last one padded with zeros, at most `k`. -/
def blocksOf : Nat → List Byte → List Nat
  | 0, _ => []
  | k + 1, b =>
    if b = [] then [] else (evalNat (beNat (b.take 16 ++ List.replicate (16 - b.length) (byte 0))) fun v => v) :: blocksOf k (b.drop 16)

def blocks (b : List Byte) : List Nat := blocksOf (b.length / 16 + 1) b

/-- GHASH under `h` of associated data `a` and ciphertext `c`. -/
def ghash (h : Nat) (a c : List Byte) : Nat :=
  (blocks a ++ blocks c ++ [a.length * 8 * 2 ^ 64 + c.length * 8]).foldl
    (fun y x => evalNat (y ^^^ x) fun w => evalNat (ghashMul w 128 h 0) fun v => v) 0

/-- The counter mode of GCM from counter `j` on. -/
def gctr (ks : List Nat) (iv : Nat) : Nat → List Nat → List Byte
  | _, [] => []
  | j, c :: cs => beBytes 16 (c ^^^ aesBlock ks (iv * 2 ^ 32 + j)) ++ gctr ks iv (j + 1) cs

/-- AES-256-GCM decryption of `c`, ciphertext and then tag, with associated data `a`: nothing where the tag does not match
(R330). -/
def gcmOpen (key iv a c : List Byte) : Option (List Byte) :=
  let n := c.length - 16
  let ks := aesKeys key
  let v := beNat iv
  let ct := c.take n
  if (ghash (aesBlock ks 0) a ct ^^^ aesBlock ks (v * 2 ^ 32 + 1)) = beNat (c.drop n) then some ((gctr ks v 2 (blocks ct)).take n)
  else none

end Sys2Proof.Machine
end

