-- ==== Sys2Proof/Machine/Image.lean ====
section
/-! DEFINITION. The Umaust image (file 14): its layout, the checks of a load in the order of the table of load reason codes, and what
a load writes to the stores. -/

namespace Sys2Proof.Machine

/-- `n` bytes of an image from byte `o`. -/
def slice (b : List Byte) (o n : Nat) : List Byte := (b.drop o).take n

/-- The little-endian number in `n` bytes from byte `o`. -/
def numAt (b : List Byte) (o n : Nat) : Nat := leNat (slice b o n)

/-- Bytes `o` to `o + n - 1` are zero. -/
def zeroAt (b : List Byte) (o n : Nat) : Bool := (slice b o n).all (fun x => x = 0)

/-- An entry of the section table. -/
structure Section where
  typ : Nat
  idx : Nat
  abi : Nat
  ofs : Nat
  len : Nat
  iv : List Byte
  ver : Nat
  aad : List Byte
  deriving DecidableEq, Repr

def sectionAt (b : List Byte) (k : Nat) : Section :=
  let o := 256 + 32 * k
  { typ := numAt b o 1, idx := numAt b (o + 1) 1, abi := numAt b (o + 2) 1, ofs := numAt b (o + 4) 4,
    len := numAt b (o + 8) 4, iv := slice b (o + 12) 12, ver := numAt b (o + 24) 4, aad := slice b o 32 }

/-- The section count of the header. -/
def sectionCount (b : List Byte) : Nat := numAt b 36 2

def imageSections (b : List Byte) : List Section := (List.range (sectionCount b)).map (sectionAt b)

/-- The indices that a type of section allows. -/
def indexOk (x : Section) : Bool :=
  (x.typ = 1 && x.idx ≤ 7) || (x.typ = 2 && x.idx = 0) || (x.typ = 3 && x.idx ≤ 15)
    || (x.typ = 4 && 1 ≤ x.idx && x.idx ≤ 8)

/-- The bytes between the sections, and up to the signature, are zero, from byte `e` on (`n` is the image length). -/
def gapsOk (b : List Byte) (n : Nat) : Nat → List Section → Bool
  | e, [] => zeroAt b e (n - 64 - e)
  | e, x :: xs => zeroAt b e (x.ofs - e) && gapsOk b n (x.ofs + x.len + 16) xs

/-- The first entry of the section table, from number `k` on, that breaks the format: reserved bytes, an index that its type
does not have, a place out of order, misaligned or out of bounds; the sections before it end at byte `e`. -/
def badEntry (b : List Byte) (n : Nat) : Nat → Nat → List Section → Option Nat
  | _, _, [] => none
  | e, k, x :: xs =>
    if zeroAt b (256 + 32 * k + 3) 1 && zeroAt b (256 + 32 * k + 28) 4 && indexOk x && decide (e ≤ x.ofs) && x.ofs % 16 = 0
      && decide (x.ofs + x.len + 16 ≤ n - 64) then badEntry b n (x.ofs + x.len + 16) (k + 1) xs
    else some k

/-- The format of a header; `top` is the number of bytes that hold the image. -/
def headOk (b : List Byte) (top : Nat) : Bool :=
  let n := numAt b 8 4
  let s := sectionCount b
  numAt b 4 2 = 256 && numAt b 6 2 = 1 && 1024 ≤ n && n ≤ 1048576 && n ≤ top && zeroAt b 14 2 && zeroAt b 27 1
    && zeroAt b 38 2 && zeroAt b 104 152 && s ≤ 48 && decide (256 + 32 * s ≤ n - 64)

/-- The entry that fails the format of an image, or 0xFF for none; nothing where the format holds (reason FORMAT). -/
def formatFault (b : List Byte) (top : Nat) : Option Nat :=
  let n := numAt b 8 4
  let e := 256 + 32 * sectionCount b
  if !headOk b top then some 0xFF
  else match badEntry b n e 0 (imageSections b) with
    | some k => some k
    | none => if gapsOk b n e (imageSections b) then none else some 0xFF

/-- The key slots with their numbers. -/
def Otp.keys (o : Otp) : List (Nat × KeySlot) := [(0, o.k0), (1, o.k1), (2, o.k2)]

/-- The anti-rollback count: the fuses blown, at most 32 (R331). -/
def Otp.arb (o : Otp) : Nat := (List.range 32).foldl (fun n k => n + bitsAt o.fuses.toNat k 1) 0

/-- Fuses blown, the lowest first, until the count is `n` (R335). -/
def blow (n : Nat) (f : BitVec 32) : Nat → BitVec 32
  | 0 => f
  | k + 1 =>
    let f := blow n f k
    if ({ ({} : Otp) with fuses := f } : Otp).arb < n then f ||| BitVec.ofNat 32 (2 ^ k) else f

/-- A slot that fails parity counts as revoked (R331). -/
def KeySlot.dead (k : KeySlot) : Bool := k.revoked || !k.parity

/-- The plaintext of a section, nothing where its tag does not match (R328). -/
def plainOf (o : Otp) (b : List Byte) (x : Section) : Option (List Byte) :=
  gcmOpen o.imageKey x.iv x.aad (slice b x.ofs (x.len + 16))

/-- The plaintext length that a type of section allows. -/
def lenOk (x : Section) (p : List Byte) : Bool :=
  if x.typ = 1 then x.len % 3 = 0 && x.len ≤ 24576
  else if x.typ = 2 then x.len % 16 = 0 && x.len ≤ 32768
  else if x.typ = 3 then x.len % 4 = 0 && x.len ≤ 512
  else
    let t := numAt p 2 2
    1 ≤ t && t ≤ 256 && x.len = 8 + 4 * t

/-- The coefficients of a filter section. -/
def coefOf (p : List Byte) : List Int :=
  (List.range (numAt p 2 2)).map (fun k => signedOf 32 (numAt p (8 + 4 * k) 4))

/-- The filter of a section's plaintext. -/
def filterOf (p : List Byte) : Filter :=
  { logd := numAt p 0 1, flen := numAt p 1 1, coef := coefOf p }

/-- A section breaks no rule of reason SECTION against the sections before it. -/
def sectionOk (before : List Section) (x : Section) (p : List Byte) : Bool :=
  lenOk x p && !(before.any (fun y => y.typ = x.typ && y.idx = x.idx))
    && !(before.any (fun y => y.typ = x.typ && y.ver ≠ x.ver))
    && (x.typ ≠ 4 || ((coefOf p).sum = 2 ^ 17 && zeroAt p 4 4))

/-- The first index whose section fails `bad`. -/
def firstBad (bad : Nat → Section → Bool) : Nat → List Section → Option Nat
  | _, [] => none
  | k, x :: xs => if bad k x then some k else firstBad bad (k + 1) xs

/-- The verdict of a load: reason, section, key slot. -/
structure Verdict where
  reason : Nat
  sect : Nat := 0xFF
  slot : Nat := 0
  deriving DecidableEq, Repr

/-- ABI levels that Umaust boot provides at stepping A1 (R330). -/
abbrev bootAbi : Nat := 3
abbrev mcAbi : Nat := 2
abbrev shnAbi : Nat := 1
abbrev fltAbi : Nat := 1

/-- The checks of the Gate stage (R330). -/
def gateCheck (b : List Byte) : Verdict :=
  let xs := imageSections b
  if bootAbi < numAt b 12 1 then { reason := 0x09 }
  else if !((slice b 16 8).any (fun x => x.toNat = 0xA1)) then { reason := 0x0A }
  else if mcAbi < numAt b 26 1 && xs.any (fun x => x.typ = 1 || x.typ = 2) then { reason := 0x0B }
  else match firstBad (fun _ x => x.typ = 3 && decide (shnAbi < x.abi)) 0 xs with
    | some k => { reason := 0x0C, sect := k }
    | none =>
      match firstBad (fun _ x => x.typ = 4 && decide (fltAbi < x.abi)) 0 xs with
      | some k => { reason := 0x0D, sect := k }
      | none => { reason := 0 }

/-- The checks of a load in the order of R330, over the bytes `b` of which `top` hold the image. -/
def imageCheck (o : Otp) (b : List Byte) (top : Nat) : Verdict :=
  let n := numAt b 8 4
  let xs := imageSections b
  if slice b 0 4 ≠ [0x55, 0x4D, 0x49, 0x31] || top < 1024 then { reason := 0x01 }
  else match formatFault b top with
  | some k => { reason := 0x02, sect := k }
  | none =>
    let h := sha256 (slice b 40 64)
    let ks := o.keys.filter (fun k => k.2.prog && k.2.usage % 2 = 1 && k.2.hash = h)
    match ks.find? (fun k => !k.2.dead) with
    | none => { reason := if ks = [] then 0x03 else 0x04 }
    | some (j, _) =>
      if !ecdsaOk (b.take (n - 64)) (slice b (n - 64) 64) (slice b 40 64) then { reason := 0x05 }
      else if numAt b 13 1 < o.arb then { reason := 0x06 }
      else match firstBad (fun _ x => (plainOf o b x).isNone) 0 xs with
        | some i => { reason := 0x07, sect := i }
        | none =>
          match firstBad (fun i x => !sectionOk (xs.take i) x ((plainOf o b x).getD [])) 0 xs with
          | some i => { reason := 0x08, sect := i }
          | none => { gateCheck b with slot := j }

/-- A reason of the Gate stage. -/
def gateReason (r : Nat) : Bool := 0x09 ≤ r && r ≤ 0x0D

/-- What the device keeps of an image that has passed every check before the gate. -/
def imageOf (b : List Byte) (slot : Nat) : Image :=
  let xs := imageSections b
  let verOf (t : Nat) : Nat := match xs.find? (fun x => x.typ = t) with | some x => x.ver | none => 0
  -- MCVER words carry MAJOR and MINOR in the upper bytes, PATCH in the lower half (R173)
  let vers (v : Nat) : Nat := v % 256 * 2 ^ 24 + v / 256 % 256 * 2 ^ 16 + v / 65536
  { ver0 := numAt b 24 2 * 2 ^ 16 + numAt b 26 1 * 2 ^ 8,
    ver1 := numAt b 28 1 * 2 ^ 24 + numAt b 29 1 * 2 ^ 16 + numAt b 30 2,
    ver2 := numAt b 32 4, svn := numAt b 13 1, abiReq := numAt b 12 1, sections := sectionCount b, slot := slot,
    shnVer := vers (verOf 3),
    fltVer := vers (verOf 4)
    badFlt := (xs.filter (fun x => x.typ = 4 && decide (fltAbi < x.abi))).map (fun x => x.idx) }

/-- `n`-byte words of a plaintext put into a sparse store from key `k`. -/
def putWords (n : Nat) (p : List Byte) (k : Nat) (m : SMap Nat) : SMap Nat :=
  (List.range (p.length / n)).foldl (fun m j => SMap.put (fun _ => 0) m (k + j) (numAt p (n * j) n)) m

/-- A section's plaintext in its store (R328). -/
def putSection (st : Stores) (x : Section) (p : List Byte) : Stores :=
  if x.typ = 1 then { st with micro := putWords 3 p (x.idx * 8192) st.micro }
  else if x.typ = 2 then
    { st with nano := (List.range 4).foldl (fun m c => putWords 16 p (c * 2048) m) st.nano }
  else if x.typ = 3 then
    let put (m : SMap Word) (j : Nat) : SMap Word :=
      SMap.put (fun _ => 0) m (x.idx * 128 + j) (word (numAt p (4 * j) 4))
    { st with prog := (List.range (p.length / 4)).foldl put st.prog }
  else { st with filt := SMap.put (fun _ => ({} : Filter)) st.filt x.idx (filterOf p) }

/-- The stores after a load that has passed every check before the gate: words without a section zero. -/
def storesOf (o : Otp) (b : List Byte) : Stores :=
  (imageSections b).foldl (fun st x => putSection st x ((plainOf o b x).getD [])) {}

end Sys2Proof.Machine
end

