-- ==== Sys2Proof/Machine/SecOps.lean ====
section
/-! DEFINITION. Security (file 14): sessions and their tokens, OTP, the registers of SEC that read the state. -/

namespace Sys2Proof.Machine

/-- Raw cycles in a minute: 60 s at 400 MHz. -/
abbrev minuteCycles : Nat := 24000000000

/-! ### Sessions -/

/-- A requester that may hold a session: the two host links and JTAG (R336). -/
def hasSession : Requester → Bool
  | .pcie => true
  | .spi => true
  | .jtag => true
  | _ => false

/-- The session of `r` ends with a cause of SESSION_CLOSE, and the requester returns to operator (R339). -/
def State.endSession (s : State) (r : Requester) (cause : Nat) : State :=
  let x := s.session r
  if Role.operator.code < x.role.code then
    let s := s.log 4 x.role r.id cause 0 x.role.code 0
    s.setSession r { x with role := .operator, stop := none }
  else s

/-- An abort of SEC (R316): installer and maker sessions are closed; the logbook is kept. -/
def State.secAbort (s : State) : State :=
  ((s.endSession .pcie 3).endSession .spi 3).endSession .jtag 3

/-- The 160 bytes of the token that a requester has written (R337). -/
def State.tokenOf (s : State) (r : Requester) : List Byte :=
  (List.range 40).flatMap (fun k => leBytes 4 (s.preg r.id (SEC.TOKEN.V.off + 4 * k)).toNat)

/-- The role bit of a key slot's usage that a session role needs (R331): IMAGE 0, INSTALLER 1, MAKER 2. -/
def usageBit (role : Nat) : Nat := if role = 3 then 2 else 1

/-- A token is well formed (R338). -/
def tokenOk (b : List Byte) : Bool :=
  slice b 0 4 = [0x54, 0x4B, 0x4E, 0x31] && (numAt b 4 1 = 2 || numAt b 4 1 = 3) && numAt b 5 1 = 0
    && 1 ≤ numAt b 6 2 && numAt b 6 2 ≤ 1440 && zeroAt b 24 8

/-- The result of verifying a token (R338; table of session results), with the nonce it is held against, nothing
where the last one drawn was 60 s old or more at the OPEN. -/
def State.tokenResult (s : State) (b : List Byte) (nonce : Option (Nat × Nat)) : Nat :=
  if !tokenOk b then 1
  else if numAt b 8 8 ≠ s.sec.otp.serial then 2
  else
    let fresh := match nonce with
      | none => false
      | some (n, _) => n = numAt b 16 8
    if !fresh then 3
    else
      let h := sha256 (slice b 32 64)
      let ks := s.sec.otp.keys.filter (fun k => k.2.prog && k.2.hash = h)
      let live := ks.filter (fun k => !k.2.dead)
      if ks = [] then 4
      else if live = [] then 5
      else if !(live.any (fun k => bitsAt k.2.usage (usageBit (numAt b 4 1)) 1 = 1)) then 6
      else if ecdsaOk (slice b 0 96) (slice b 96 64) (slice b 32 64) then 0 else 7

/-- OPENs of `r` are locked out now (R338). -/
def State.lockedOut (s : State) (r : Requester) : Bool :=
  match (s.session r).lockout with
  | some t => decide (s.raw < t)
  | none => false

/-- Verification ends with OK: the role is raised, a session it replaces is closed (R337, R339). -/
def State.openSession (s : State) (r : Requester) (b : List Byte) : State :=
  let old := (s.session r).role
  let new := Role.ofCode (numAt b 4 1)
  let mins := numAt b 6 2
  let s := if old = new then s else s.endSession r 4
  let x := s.session r
  let s := s.setSession r { x with
    role := new, stop := some (s.raw + mins * minuteCycles), fails := 0, result := 0, verify := none }
  let s := s.log 3 new r.id 0 0 old.code (numAt b 4 1 + mins * 2 ^ 16)
  s.set1 SEC.IRQ_RAW.SESS_OPEN

/-- Verification ends with a failure: the result is recorded; the fourth in a row locks the requester out for 60 s
(R338). -/
def State.failSession (s : State) (r : Requester) (b : List Byte) (res : Nat) : State :=
  let x := s.session r
  let n := x.fails + 1
  let x := { x with result := res, verify := none, fails := n }
  let x := if 4 ≤ n then { x with result := 8, lockout := some (s.raw + minuteCycles) } else x
  let s := s.setSession r x
  let s := s.log 5 x.role r.id res 0 (numAt b 4 1) 0
  (s.set1 SEC.IRQ_RAW.SESS_FAIL).bump SEC.CNT_EVT.LO

/-! ### OTP -/

def Otp.slotOf (o : Otp) (k : Nat) : KeySlot := if k = 0 then o.k0 else if k = 1 then o.k1 else o.k2

def Otp.putSlot (o : Otp) (k : Nat) (x : KeySlot) : Otp :=
  if k = 0 then { o with k0 := x } else if k = 1 then { o with k1 := x } else { o with k2 := x }

/-- A parity failure among the OTP fields (R331). -/
def Otp.bad (o : Otp) : Bool :=
  !o.k0.parity || !o.k1.parity || !o.k2.parity || !o.keyParity || !o.arbParity || !o.refParity || !o.venParity || !o.serParity

/-- SEC.OTPSTS as the fields read, without BUSY and OTP_ERR. -/
def Otp.status (o : Otp) : Nat :=
  let b (x : Bool) : Nat := if x then 1 else 0
  let slot (k : Nat) (x : KeySlot) : Nat :=
    b x.prog * 2 ^ (29 + k) + b x.dead * 2 ^ (26 + k) + x.usage % 8 * 2 ^ (17 + 3 * k)
  slot 0 o.k0 + slot 1 o.k1 + slot 2 o.k2 + o.arb % 64 * 2 ^ 10 + o.refsel % 4 * 2 ^ 8

/-- An OTP operation is discarded with RANGE (table of OTP operations, R335). -/
def State.otpRange (s : State) (op arg : Nat) : Bool :=
  let o := s.sec.otp
  let k := arg % 4
  if op = 5 then k = 3 || (o.slotOf k).prog
  else if op = 6 then
    k = 3 || !(o.keys.any (fun x => x.1 ≠ k && x.2.prog && !x.2.dead && x.2.usage % 2 = 1))
  else if op = 7 then (match s.sec.image with | none => true | some i => decide (i.svn ≤ o.arb))
  else o.refsel ≠ 0

/-- What an OTP operation blows. -/
def State.otpApply (s : State) (j : OtpJob) : Otp :=
  let o := s.sec.otp
  let k := j.arg % 4
  if j.op = 5 then o.putSlot k { o.slotOf k with hash := j.hash, prog := true, usage := j.arg / 16 % 8 }
  else if j.op = 6 then o.putSlot k { o.slotOf k with revoked := true }
  else if j.op = 7 then { o with fuses := blow ((s.sec.image.map (fun i => i.svn)).getD 0) o.fuses 32 }
  else { o with refsel := k }

/-- A command of SEC.CMD in the OTP group (R335): accepted only from a maker session in Provision or Configure, with no
operation in progress. -/
def State.otpStart (s : State) (r : Requester) (op : Nat) : State :=
  let a := SEC.CMD.OP.off
  if !s.hasRole r .maker then s.discard a r .role
  else if s.mode ≠ .provision ∧ s.mode ≠ .configure then s.discard a r .mode
  else if s.sec.otpJob.isSome then s.discard a r .busy
  else
    let arg := s.f SEC.OTPARG.V
    if s.otpRange op arg then s.discard a r .range
    else
      { s with sec := { s.sec with
          otpJob := some { op := op, arg := arg, hash := (s.tokenOf r).take 32, req := r.id } } }

/-! ### Registers that read the state -/

/-- Minutes that remain of a session (R339). -/
def State.lifeOf (s : State) (x : Session) : Nat :=
  match x.stop with
  | none => 0
  | some t => (t - s.raw + minuteCycles - 1) / minuteCycles

/-- An entry word of the logbook slot in SEC.LOGIDX (R341). -/
def State.logWord (s : State) (j : Nat) : Word :=
  SMap.get (fun _ => 0) s.mem.book (s.f SEC.LOGIDX.V * 8 + j)

def State.liveSec (s : State) (r : Requester) (o : Nat) (w : Word) : Word :=
  let x := s.session r
  if o = 0x48 then
    match s.sec.image with
    | none => 0
    | some i => word (i.svn * 2 ^ 24 + i.abiReq * 2 ^ 16 + i.sections * 2 ^ 8 + i.slot)
  else if o = 0x4C then (match s.sec.image with | none => 0 | some i => word i.shnVer)
  else if o = 0x50 then (match s.sec.image with | none => 0 | some i => word i.fltVer)
  else if o = 0x60 then s.preg r.id SEC.NONCE_HI.V.off
  else if o = 0x64 then
    word ((if x.verify.isSome then 2 ^ 29 else 0) + (s.role r).code * 2 ^ 26 + x.result * 2 ^ 20 + s.lifeOf x % 2 ^ 11)
  else if o = 0x68 then
    word ((s.role .jtag).code * 16 + (s.role .spi).code * 4 + (s.role .pcie).code)
  else if o = 0x6C then
    word (s.sec.otp.status + (if s.sec.otpJob.isSome then 2 else 0) + w.toNat % 2)
  else if 0x80 ≤ o ∧ o < 0xA0 then s.logWord ((o - 0x80) / 4)
  else if 0x100 ≤ o ∧ o < 0x1A0 then 0
  else w

/-! ### The image load (R326 to R329) -/

/-- A byte of the log store, as the load reads it. -/
def State.logByte (s : State) (a : Nat) : Byte := byte ((s.logPeek (a / 4)).toNat / 2 ^ (8 * (a % 4)))

/-- What the reading of the first `n` words of the log store finds in their check bits (R263); words without a mark, and a
store without one, are not visited. -/
def State.logChecks (s : State) (n : Nat) : State :=
  s.mem.ecc.foldl (fun s e =>
    let i := e.1 % 2 ^ 20
    let k := e.1 / 2 ^ 20
    let read := (k = stLog && i < n && !s.mem.onRelief (i / 32768))
      || (k = stRelief && (List.range 16).any (fun d => s.mem.onRelief d && d * 32768 + i < n))
    if read then s.checked k i else s) s

/-- Byte `a` of the image source: flash primary, flash alternate, log store. -/
def State.sourceByte (s : State) (src a : Nat) : Byte :=
  if src = 1 then SMap.get (fun _ => 0xFF) s.sec.flash a
  else if src = 2 then SMap.get (fun _ => 0xFF) s.sec.flash (0x100000 + a)
  else s.logByte a

/-- Bytes that hold the image in a source: a flash copy's room, or PUSHLEN (R327). -/
def State.sourceTop (s : State) (src : Nat) : Nat := if src = 3 then s.f SEC.PUSHLEN.V else 0x100000

/-- The bytes of a source, as far as its header says they reach. -/
def State.sourceBytes (s : State) (src : Nat) : List Byte :=
  let head := (List.range 256).map (s.sourceByte src)
  let n := min (numAt head 8 4) 1048576
  if slice head 0 4 = [0x55, 0x4D, 0x49, 0x31] ∧ 1024 ≤ n then (List.range n).map (s.sourceByte src) else head

/-- The verdict of a load from a source. -/
def State.tryImage (s : State) (src : Nat) : Verdict := imageCheck s.sec.otp (s.sourceBytes src) (s.sourceTop src)

/-- The log store zero, with valid check bits (R327). -/
def State.zeroLog (s : State) : State :=
  { s with mem := { s.mem with
      log := [], relief := [], copyReg := none, ecc := s.mem.ecc.filter (fun e => 2 * 2 ^ 20 ≤ e.1) } }

/-- MCVER1 and MCVER2 of an image as one 64-bit value (kind IMAGE_LOAD). -/
def verPair (i : Option Image) : Nat :=
  match i with
  | none => 0
  | some x => x.ver1 + x.ver2 * 2 ^ 32

/-- The load of source `src` ends with verdict `v` (R326 to R330): stores, status, counters and the logbook. An override lasts
until the next Boot (R333). -/
def State.loadEnd (s : State) (job : LoadJob) (src prior : Nat) (v : Verdict) : State :=
  let b := s.sourceBytes src
  let s := if src = 3 then s.logChecks ((b.length + 3) / 4) else s
  let past := v.reason = 0 || gateReason v.reason
  let img := if past then some (imageOf b v.slot) else none
  let old := verPair s.sec.image
  let st := if past then storesOf s.sec.otp b else {}
  let s := { s with stores := st
                    mem := { s.mem with ecc := s.mem.ecc.filter (fun e => e.1 / 2 ^ 20 ≠ stShn) }
                    sec := { s.sec with
      load := none
      image := if v.reason = 0 then img else none
      held := if gateReason v.reason then img else none } }
  let s := s.setReg SEC.LOADSTS.GATED.off
    (word ((if gateReason v.reason then 2 ^ 31 else 0) + s.f SEC.LOADSTS.OVERRIDDEN * 2 ^ 30 + (if past then src else 0) * 2 ^ 28 + v.sect * 2 ^ 16
      + prior * 2 ^ 8 + v.reason))
  let s := if v.reason = 0 then s.set1 SEC.IRQ_RAW.LOAD_DONE
    else (s.set1 SEC.IRQ_RAW.LOAD_FAIL).bump SEC.CNT_EVT.HI
  let s := if src = 3 then s.zeroLog else s
  s.log 6 job.role job.req v.reason 0 old (verPair s.sec.image)

end Sys2Proof.Machine
end

