-- ==== Sys2Proof/Machine/RegOps.lean ====
section
/-! DEFINITION. The common rule of a register write (R6 to R9, R289): each field by its access type, its role and its range. -/

namespace Sys2Proof.Machine

/-- The page is sealed (R289). -/
def State.sealed (s : State) (base : Nat) : Bool := bitsAt (s.reg (base + 0x28)).toNat 31 1 = 1

/-- A writer has the role that an RWL or W1S field asks for, or role maker on a sealed page (R6). -/
def State.allows (s : State) (r : Requester) (base : Nat) (g : Fld) : Bool :=
  if s.sealed base && g.acc = .rwl then s.hasRole r .maker else s.hasRole r g.role

/-- A value that a field discards with reason RANGE. -/
def Fld.refuses (g : Fld) (v : Nat) : Bool := g.bad.any (fun p => p.1 ≤ v && v ≤ p.2)

/-- Fields that a write stores. -/
def Fld.stored (g : Fld) : Bool := g.acc = .rw || g.acc = .rwl

/-- A write of `v` holds a value that some stored field discards with RANGE. -/
def rangeBad (gs : List Fld) (v : Nat) : Bool := gs.any (fun g => g.stored && g.refuses (bitsAt v g.lo g.wid))

/-- One field of a write of `v` over the word `w` (R6, R8). `v` holds no 1 for a bit that an event keeps (R9). -/
def State.mergeField (s : State) (r : Requester) (base v : Nat) (w : Nat) (g : Fld) : Nat :=
  let x := bitsAt v g.lo g.wid
  let old := bitsAt w g.lo g.wid
  match g.acc with
  | .rw => putBits w g.lo g.wid x
  | .rwl => if s.allows r base g then putBits w g.lo g.wid x else w
  | .w1c => putBits w g.lo g.wid (old - (old &&& x))
  | .w1s => if s.allows r base g then putBits w g.lo g.wid (old ||| x) else w
  | .ro => w
  | .wo => w

/-- A change of an RWL field that the writer's role does not allow (R8). -/
def State.roleBad (s : State) (r : Requester) (base v w : Nat) (gs : List Fld) : Bool :=
  gs.any (fun g => g.acc = .rwl && bitsAt v g.lo g.wid ≠ bitsAt w g.lo g.wid && !s.allows r base g)

/-- A change of an RWL field between two words. -/
def rwlChanged (w w' : Nat) (gs : List Fld) : Bool :=
  gs.any (fun g => g.acc = .rwl && bitsAt w g.lo g.wid ≠ bitsAt w' g.lo g.wid)

/-- The word after a write of `v` over `w`. -/
def State.mergeWord (s : State) (r : Requester) (base v w : Nat) (gs : List Fld) : Nat :=
  gs.foldl (s.mergeField r base v) w

/-- A write of the fields `gs` of the register at `a` (R6 to R8): discarded whole with RANGE where a value is out of
range; RWL fields that the role does not allow keep their value; a W1C bit set in this cycle stays set (R9); a changed RWL
field makes a logbook entry (R341). -/
def State.storeFields (s : State) (r : Requester) (a : Nat) (v : Word) (gs : List Fld) : State :=
  match pageOf a with
  | none => s
  | some (_, base) =>
    if rangeBad gs v.toNat then s.capture base (a - base) r .range
    else
      let w := (s.reg a).toNat
      let w' := s.mergeWord r base (v &&& ~~~s.events a).toNat w gs
      let t := if s.roleBad r base v.toNat w gs then s.capture base (a - base) r .role else s
      let t := t.setReg a (word w')
      if rwlChanged w w' gs then t.log 1 (s.role r) r.id 0 a w w' else t

/-- The fields of the register at `a`. -/
def fieldsAt (a : Nat) : List Fld :=
  match regAt a with
  | none => []
  | some (g, _) => g.fields

/-- A write of every field of the register at `a`. -/
def State.storeReg (s : State) (r : Requester) (a : Nat) (v : Word) : State := s.storeFields r a v (fieldsAt a)

/-- A write to the page at `base` is turned away while its abort is in progress (R315), but for ERR_CAP, IRQ_RAW and
ABORT_STS; a GO in ABORT is absorbed by its own rule. -/
def State.abortBlocks (s : State) (base ofs : Nat) : Bool :=
  s.aborting base && ofs ≠ 0x1C && ofs ≠ 0x10 && ofs ≠ 0x24 && ofs ≠ 0x20

/-- A write reaches `k` unless an abort of its page is in progress (R315). -/
def State.unlessAborting (s : State) (r : Requester) (a : Nat) (k : State → State) : State :=
  match pageOf a with
  | none => s
  | some (_, base) => if s.abortBlocks base (a - base) then s.capture base (a - base) r .busy else k s

end Sys2Proof.Machine
end

