-- ==== Sys2Proof/Machine/TbuOps.lean ====
section
/-! DEFINITION. The timebase (file 02): verniers and stamps, the TAI mapping, the reference, the servo, holdover. -/

namespace Sys2Proof.Machine

/-- Raw units in a second, a millisecond: 25.6 per nanosecond (R26). -/
abbrev secU : Nat := 25600000000
abbrev msU : Nat := 25600000

/-! ### Capture verniers (R53, R57) -/

/-- Vernier numbers: tracks 0 to 255, the reference pulse, turntable tooth inputs, bank calibration units, index inputs,
gap-line inputs, ADC trigger inputs, direction inputs. -/
abbrev vernRef : Nat := 256
abbrev vernTooth (n : Nat) : Nat := 257 + n
abbrev vernCal (b : Nat) : Nat := 265 + b
abbrev vernIndex (n : Nat) : Nat := 273 + n
abbrev vernGap (n : Nat) : Nat := 281 + n
abbrev vernTrig (n : Nat) : Nat := 289 + n
abbrev vernDir (n : Nat) : Nat := 293 + n

def State.vernier (s : State) (v : Nat) : Vernier := SMap.get (fun _ => {}) s.tbu.verniers v

def State.setVernier (s : State) (v : Nat) (x : Vernier) : State :=
  { s with tbu := { s.tbu with verniers := SMap.put (fun _ => {}) s.tbu.verniers v x } }

/-- `n` edges of one raw code counted in a histogram. -/
def Vernier.count (x : Vernier) (code n : Nat) : Vernier :=
  { x with hist := SMap.put (fun _ => 0) x.hist code (SMap.get (fun _ => 0) x.hist code + n) }

/-- A live edge in raw cycle `c`: its raw code is counted in the histogram of the vernier that it takes (R53, R55). -/
def State.hit (s : State) (v code c : Nat) : State :=
  s.setVernier v { (s.vernier v).count code 1 with live := some c }

/-- A fill edge offered now: counted, unless a live edge has taken the vernier in this cycle (R55). -/
def State.fillHit (s : State) (v code : Nat) : State :=
  if (s.vernier v).live = some s.raw then s else s.setVernier v ((s.vernier v).count code 1)

/-- The tap table in force for an edge in raw cycle `c` (R16): empty until the first build (R57). -/
def State.tapsAt (s : State) (v c : Nat) : List Nat :=
  if c < s.tbu.swapAt then SMap.get (fun _ => []) s.tbu.oldTaps v else (s.vernier v).tap

/-- The nominal entry of a code, its centre in 1/4,096 cycle. -/
def nominalTap (code : Nat) : Nat := 32 * code + 16

/-- Raw units of an edge in raw cycle `c` with raw code `code` (R53): the table entry rounded to 1/64 cycle, carrying into
the cycle count. -/
def State.edgeU (s : State) (v c code : Nat) : Nat :=
  let taps := s.tapsAt v c
  let e := if taps = [] then nominalTap code else taps.getD code 0
  c * 64 + (e + 32) / 64

/-- Vehicle time of raw unit `u`: in the old scale before the last step, in the stepped scale from it on (R46). -/
def State.stampVt (s : State) (u : Nat) : Nat :=
  match s.tbu.lastStep with
  | some k => if u < k then bitsOfInt 64 ((u : Int) + s.tbu.offBefore) else s.vtAt u
  | none => s.vtAt u

/-- The calibration epoch of an edge in raw cycle `c` (R16). -/
def State.epochAt (s : State) (c : Nat) : Nat :=
  let e := s.f TBU.STS.EPOCH
  if c < s.tbu.swapAt then (e + 15) % 16 else e

/-! ### The TAI mapping (R29) -/

def State.mapSec (s : State) : Nat := s.tbu.mapTai / 2 ^ 30
def State.mapNs (s : State) : Nat := s.tbu.mapTai % 2 ^ 30

/-- `vt(sec, ns)` of R29: the vehicle time of a TAI instant, to the nearest unit. -/
def State.vtOf (s : State) (sec : Nat) (ns : Int) : Nat :=
  let d : Int := ((sec : Int) - s.mapSec) * 1000000000 + ns - s.mapNs
  bitsOfInt 64 ((s.tbu.mapVt : Int) + divNearInt (d * 128) 5)

/-- The TAI second that contains vehicle time `v` (R29). -/
def State.taiSec (s : State) (v : Nat) : Nat :=
  let ns128 : Int := ((s.mapSec : Int) * 1000000000 + s.mapNs) * 128 + ((v : Int) - s.tbu.mapVt) * 5
  (ns128 / 128000000000).toNat

/-- NEXTSEC recomputed (R52). -/
def State.nextSec (s : State) : State :=
  let t := s.vtOf (s.taiSec s.vt + 1) 0
  ((s.setF TBU.NEXTSEC_LO.NEXTSEC t).setF TBU.NEXTSEC_HI.NEXTSEC (t / 2 ^ 32))

/-! ### The servo (R38 to R41) -/

/-- Codes of TBU.STS.SRV_STATE. -/
abbrev srvFree : Nat := 0
abbrev srvQualify : Nat := 1
abbrev srvAcquire : Nat := 2
abbrev srvLocked : Nat := 3
abbrev srvHoldover : Nat := 4
abbrev srvFollow : Nat := 5

def State.srv (s : State) : Nat := s.f TBU.STS.SRV_STATE
def State.setSrv (s : State) (n : Nat) : State := s.setF TBU.STS.SRV_STATE n
def State.srvOn (s : State) : Bool := s.on TBU.CTL.SRV_EN

/-- kp and ki of a bandwidth code (R39), as the table gives them. -/
def gains (bw : Nat) : F64 × F64 :=
  let q (n d : Nat) : F64 := F64.ofRatio n d
  if bw = 0 then (q 4317 100000, q 932 1000000)
  else if bw = 1 then (q 8635 100000, q 3728 1000000)
  else if bw = 2 then (q 2159 10000, q 2330 100000)
  else if bw = 3 then (q 4317 10000, q 9321 100000)
  else if bw = 4 then (q 8635 10000, q 3728 10000)
  else if bw = 5 then (q 2159 1000, q 2330 1000)
  else (q 4317 1000, q 9321 1000)

/-- The clamp of TBU.FREQ, ±200 ppm in 2^-40 units (R32). -/
def clampCorr (x : Int) : Int := max (-219902325) (min 219902325 x)

/-- A dimensionless frequency written to TBU.FREQ.CORR (R32, R38). -/
def State.putFreq (s : State) (x : F64) : State :=
  s.setF TBU.FREQ.CORR (bitsOfInt 32 (clampCorr (x.scalb 40).round))

/-- TBU.FREQ.CORR as a dimensionless frequency. -/
def State.freqNow (s : State) : F64 := (F64.ofInt (signedOf 32 (s.f TBU.FREQ.CORR))).scalb (-40)

/-- Parts per million as a double. -/
def ppm (n : Int) : F64 := F64.ofRatio n 1000000

/-- Pulses a second at the rate in force. -/
def State.rateHz (s : State) : Nat := if s.on TBU.REF.RATE then 10 else 1

/-- The servo update of the listing of R38, for a phase error of `e` VTS64 units. -/
def State.servo (s : State) (e : Int) : State :=
  let es := F64.ofRatio (e * 5) 128000000000
  let g := gains (s.f TBU.SERVO.BW)
  let slew := ppm (s.f TBU.SERVO.SLEW)
  let p := g.1.mul es
  let sat := slew.lt p.abs
  let p := if sat then slew.copysign p else p
  let ts := F64.ofRatio 1 s.rateHz
  let integ := if sat then s.tbu.integ else s.tbu.integ.add ((g.2.mul ts).mul es)
  let integ := integ.clamp (ppm (-200)) (ppm 200)
  let freq := ((integ.add p).neg).clamp (ppm (-200)) (ppm 200)
  let s := (s.putFreq freq).setF TBU.STS.SLEW_SAT (if sat then 1 else 0)
  { s with tbu := { s.tbu with integ := integ, avg := (integ.neg :: s.tbu.avg).take 2560 } }

/-- FREQ_HOLD (R41): the mean of -integ over the last AVG seconds of ACQUIRE and LOCKED, or as many as there were. DESIGN
CHOICE (entry 44): where the servo has had no update, it is the frequency in force. -/
def State.freqHold (s : State) : F64 :=
  let n := 2 ^ (s.f TBU.HOLD.AVG + 1) * s.rateHz
  let xs := s.tbu.avg.take n
  if xs = [] then s.freqNow else (xs.foldl F64.add {}).div (F64.ofInt xs.length)

/-- FREQ_HOLD copied to TBU.KS_FREQ and shown in TBU.HOLD (R41, R50). -/
def State.copyFreqHold (s : State) : State :=
  let x := clampCorr (s.freqHold.scalb 40).round
  let s := s.setF TBU.KS_FREQ.V (bitsOfInt 32 x)
  let s := s.setF TBU.KS_FLAGS.V (s.f TBU.KS_FLAGS.V ||| 2)
  s.setF TBU.HOLD.FREQ_HOLD (bitsOfInt 43 x / 2 ^ 30)

/-- The reference is lost (R37, R40, R41). DESIGN CHOICE (entry 44): a loss in QUALIFY that returns the servo to HOLDOVER sets no
REF_LOST and copies no FREQ_HOLD. -/
def State.refLost (s : State) : State :=
  let s := { s with tbu := { s.tbu with lastPulse := none, lastSec := none, run := 0, tenths := none } }
  let s := s.clr TBU.STS.REF_QUAL
  if s.srv = srvQualify then s.setSrv s.tbu.before
  else if s.srv = srvAcquire ∨ s.srv = srvLocked then
    let s := s.copyFreqHold
    let s := s.setF TBU.FREQ.CORR (s.f TBU.KS_FREQ.V)
    (s.setSrv srvHoldover).set1 TBU.IRQ_RAW.REF_LOST
  else s

/-- The loss deadline of R37 in raw units, while a reference is present. -/
def State.lossAt (s : State) : Option Nat := s.tbu.lastPulse.map (fun u => u + s.f TBU.REF.LOSS * 100 * msU)

/-- A pulse with its edge at or before the deadline awaits its verdict (R37). -/
def State.lossWaits (s : State) (d : Nat) : Bool := s.tbu.pulses.any (fun p => p.edge ≤ d)

/-- A loss whose deadline lies before raw unit `u` and that no pulse holds back takes effect. -/
def State.lossBy (s : State) (u : Nat) : State :=
  match s.lossAt with
  | none => s
  | some d => if d < u ∧ !s.lossWaits d then s.refLost else s

/-- A loss whose deadline has passed. -/
def State.lossDue (s : State) : State := s.lossBy (s.raw * 64)

/-- A pulse rejected (R420): counted, and the loss it held back takes effect. -/
def State.rejectPulse (s : State) : State :=
  let s := (s.bump TBU.CNT_EVT.LO).set1 TBU.IRQ_RAW.REF_REJ
  s.lossDue

/-- A ToD message rejected (R420). -/
def State.rejectMessage (s : State) : State := (s.bump TBU.CNT_EVT.HI).set1 TBU.IRQ_RAW.REF_REJ

/-- An alignment step launched: minus `e`, rounded to whole cycles, with DUEMODE = SHIFT for the servo's (R47), KEEP for a
joiner's (R364). DESIGN CHOICE (entry 39):
while a step is in progress it waits, and is launched as that one is done. -/
def State.alignStep (s : State) (e : Int) (shift : Bool) : State :=
  let q : StepReq := { cycles := -(divNearInt e 64), shift := shift, req := 0x20, role := .none, dep := s.dep }
  if s.on TBU.STS.STEP_BUSY then { s with tbu := { s.tbu with align := some q } }
  else
    let s := s.set1 TBU.STS.STEP_BUSY
    { s with tbu := { s.tbu with step := some q } }

/-- The state changes that an accepted pulse brings in ACQUIRE and LOCKED (R40). -/
def State.lockStep (s : State) (e : Int) : State :=
  let thr := s.f TBU.SERVO.LOCK_THR
  if s.srv = srvAcquire then
    let n := if e.natAbs * 10 ≤ thr * 256 then s.tbu.lockCnt + 1 else 0
    let s := { s with tbu := { s.tbu with lockCnt := n } }
    if s.f TBU.SERVO.LOCK_N ≤ n then
      { (s.setSrv srvLocked).set1 TBU.IRQ_RAW.LOCKED with tbu := { s.tbu with overCnt := 0, ppsStop := false } }
    else s
  else if s.srv = srvLocked then
    let n := if 8 * thr * 256 < e.natAbs * 10 then s.tbu.overCnt + 1 else 0
    if 2 ≤ n then { s.setSrv srvAcquire with tbu := { s.tbu with lockCnt := 0, overCnt := 0 } }
    else { s with tbu := { s.tbu with overCnt := n } }
  else s

/-- The moves into QUALIFY and ACQUIRE that an accepted second brings (R40, R41). The second component tells that the
alignment step of R47 was taken. DESIGN CHOICE (entry 39): seconds accepted before SRV_EN was set count toward QUAL_N. -/
def State.qualify (s : State) (e : Int) : State × Bool :=
  let s : State := if s.srv = srvFree ∨ s.srv = srvHoldover then
      { s.setSrv srvQualify with tbu := { s.tbu with before := s.srv } } else s
  if s.srv = srvQualify ∧ s.f TBU.REF.QUAL_N ≤ s.tbu.run then
    let s : State := { s.setSrv srvAcquire with tbu := { s.tbu with lockCnt := 0, integ := s.freqNow.neg } }
    if s.mode = .configure ∧ s.on TBU.CTL.AUTOSTEP then (s.alignStep e true, true) else (s, false)
  else (s, false)

/-- A pulse accepted, whole second or tenth, with phase error `e` (R38 to R40, R45). `straddles`: its interval holds the
last step (R46). -/
def State.acceptPulse (s : State) (e : Int) (whole straddles : Bool) : State :=
  let s := s.setF TBU.PHERR.V (bitsOfInt 32 (max (-(2 ^ 31 - 1)) (min (2 ^ 31 - 1) e)))
  if !s.srvOn ∨ s.srv = srvFollow then s
  else
    let s := if 1000 * 1000 * 256 < e.natAbs * 10 ∧ s.mode ≠ .configure then s.set1 TBU.IRQ_RAW.BIG_ERR else s
    let (s, aligned) := if whole then s.qualify e else (s, false)
    if aligned ∨ straddles then s
    else if s.srv = srvAcquire ∨ s.srv = srvLocked then (s.servo e).lockStep e
    else s

/-! ### Pulses and messages (R33 to R36, R420) -/

/-- The stamp of a reference pulse with its edge at raw unit `u`: ball time less PPS_OFS (R33). -/
def State.refStamp (s : State) (u : Nat) : Nat :=
  bitsOfInt 64 ((s.stampVt u : Int) - divNearInt (signedOf 16 (s.f TBU.REF.PPS_OFS) * 128) 5)

/-- The interval between two raw instants holds the last step cycle. -/
def State.straddles (s : State) (u0 : Option Nat) (u : Nat) : Bool :=
  match s.tbu.lastStep, u0 with
  | some k, some a => decide (a < k ∧ k ≤ u)
  | _, _ => false

/-- `x` lies within `tol` of `want`. -/
def within (x want tol : Nat) : Bool := want ≤ x + tol && x ≤ want + tol

/-- The verdict on a labelled second (R36) and its effects: pulse `p` named second `sec`, by a message whose window was
`inTime` and that reported `refOk`. -/
def State.judgeSecond (s : State) (p : Pulse) (sec : Nat) (refOk inTime : Bool) : State :=
  let seqOk := match s.tbu.lastSec with
    | none => true
    | some (u, n) => within (p.edge - u) secU msU && sec = n + 1
  let s := { s with tbu := { s.tbu with prevPulse := some p.edge } }
  if refOk && inTime && seqOk then
    let strad := s.straddles s.tbu.lastPulse p.edge
    let s := { s with tbu := { s.tbu with
      lastSec := some (p.edge, sec), lastPulse := some p.edge, run := s.tbu.run + 1
      tenths := if s.on TBU.REF.RATE then some { sec := sec, count := 0, accepted := true } else none } }
    let s := if s.f TBU.REF.QUAL_N ≤ s.tbu.run then s.set1 TBU.STS.REF_QUAL else s
    s.acceptPulse (vtDiff p.stamp (s.vtOf sec 0)) true strad
  else
    let s := { s with tbu := { s.tbu with
      run := 0, tenths := if s.on TBU.REF.RATE then some { sec := sec, count := 0, accepted := false } else none } }
    s.rejectPulse

/-- A tenth pulse (R35, R36): the `k`-th after its whole second. -/
def State.judgeTenth (s : State) (t : Tenths) (p : Pulse) : State :=
  let ok := t.accepted && (match s.tbu.prevPulse with
    | none => false
    | some u => within (p.edge - u) (100 * msU) (msU / 10))
  let strad := s.straddles s.tbu.lastPulse p.edge
  let k := t.count + 1
  let s := { s with tbu := { s.tbu with
    prevPulse := some p.edge, tenths := if k = 9 then none else some { t with count := k } } }
  if ok then
    let s := { s with tbu := { s.tbu with lastPulse := some p.edge } }
    s.acceptPulse (vtDiff p.stamp (s.vtOf t.sec (k * 100000000))) false strad
  else s.rejectPulse

/-- NEXT in force: in the NMEA format that of TBU.TOD, in the binary one that of the message (R420). DESIGN CHOICE (entry 44):
for a binary-format pulse that no message awaits, NEXT is the last message's, and 0 before the first. -/
def State.nextNow (s : State) : Bool := if s.f TBU.TOD.FMT = 0 then s.on TBU.TOD.NMEA_NEXT else s.tbu.next1

/-- A reference pulse arrives (R420): a tenth is counted; a pulse that a message awaits is judged; a pulse that no message
awaits is rejected where messages name the next pulse, and waits for its message otherwise. -/
def State.pulse (s : State) (p : Pulse) : State :=
  match (if s.on TBU.REF.RATE then s.tbu.tenths else none) with
  | some t => s.judgeTenth t p
  | none =>
    match s.tbu.await with
    | some m =>
      let gap := p.edge - m.done
      let s := { s with tbu := { s.tbu with await := none } }
      s.judgeSecond p m.sec m.refOk (10 * msU ≤ gap && gap ≤ 990 * msU)
    | none =>
      if s.nextNow && !s.on TBU.REF.RATE then s.rejectPulse
      else { s with tbu := { s.tbu with pulses := s.tbu.pulses ++ [p] } }

/-- The time after its edge at which the window of a pulse closes (R420). -/
def State.windowU (s : State) : Nat := if s.on TBU.REF.RATE then 100 * msU else 990 * msU

/-- A message names second `sec` (R35, R420); `next1` names the next pulse; first byte at raw cycle `started`, last at
`ended`. DESIGN CHOICE (entry 44): a message with NEXT = 1 at 10 Hz, which the user must not send, names the next pulse all the
same. -/
def State.message1 (s : State) (sec : Nat) (refOk next1 : Bool) (started ended : Nat) : State :=
  let s := { s with tbu := { s.tbu with next1 := next1 } }
  if next1 then
    let s := if s.tbu.await.isSome then s.rejectMessage else s
    { s with tbu := { s.tbu with await := some { sec := sec, refOk := refOk, done := ended * 64 } } }
  else
    match (s.tbu.pulses.filter (fun p => p.edge < started * 64)).getLast? with
    | none => s.rejectMessage
    | some p =>
      let gap := ended * 64 - p.edge
      let s := { s with tbu := { s.tbu with pulses := s.tbu.pulses.erase p } }
      let low := if s.on TBU.REF.RATE then 0 else 10 * msU
      s.judgeSecond p sec refOk (low ≤ gap && gap ≤ s.windowU)

/-! ### ToD formats (R34) -/

/-- CRC-16, polynomial 0x1021, most significant bit first. -/
def crc16Byte (c : Nat) (b : Byte) : Nat :=
  (List.range 8).foldl (fun c _ => if 0x8000 ≤ c then (c * 2 % 0x10000) ^^^ 0x1021 else c * 2 % 0x10000)
    (c ^^^ (b.toNat * 256))

def crc16 (bs : List Byte) : Nat := bs.foldl crc16Byte 0xFFFF

/-- A time-of-day message decoded: second, REF_OK, NEXT, TAI − UTC if the frame carries it. -/
structure Tod where
  sec : Nat
  refOk : Bool
  next1 : Bool
  utc : Option Nat := none
  deriving DecidableEq, Repr

/-- The Gnowald binary frame; nothing where sync, type, zero bytes or checksum fail. DESIGN CHOICE (entry 44): a frame whose
checksum holds and whose sync, type or zero bytes do not is a rejected message, as one whose checksum fails. -/
def binaryTod (b : List Byte) : Option Tod :=
  let n (o k : Nat) : Nat := leNat ((b.drop o).take k)
  if b.length = 16 ∧ n 0 1 = 0xD2 ∧ n 1 1 = 0x5A ∧ n 2 1 = 1 ∧ n 3 1 < 8 ∧ n 12 2 = 0 ∧ n 14 2 = crc16 (b.take 14) then
    some { sec := n 4 6, refOk := n 3 1 / 4 % 2 = 1, next1 := n 3 1 % 2 = 1, utc := some (n 10 2) }
  else none

/-- The value of a decimal digit. -/
def digit (b : Byte) : Option Nat := if 48 ≤ b.toNat ∧ b.toNat ≤ 57 then some (b.toNat - 48) else none

/-- The number that decimal digits spell; nothing where one is not a digit or there is none. -/
def decimal : List Byte → Option Nat
  | [] => none
  | bs => bs.foldl (fun acc b => match acc, digit b with | some n, some d => some (10 * n + d) | _, _ => none) (some 0)

/-- The value of a hexadecimal digit. -/
def hexDigit (b : Byte) : Option Nat :=
  let n := b.toNat
  if 48 ≤ n ∧ n ≤ 57 then some (n - 48)
  else if 65 ≤ n ∧ n ≤ 70 then some (n - 55)
  else if 97 ≤ n ∧ n ≤ 102 then some (n - 87) else none

/-- The bytes of a list cut at each byte equal to `x`. -/
def splitAtByte (x : Nat) : List Byte → List (List Byte)
  | [] => [[]]
  | b :: bs =>
    match splitAtByte x bs with
    | [] => [[b]]
    | f :: fs => if b.toNat = x then [] :: f :: fs else (b :: f) :: fs

/-- Days from 1970-01-01 to a date of the Gregorian calendar. -/
def daysOf (y m d : Nat) : Int :=
  let y' : Int := if m ≤ 2 then (y : Int) - 1 else y
  let era := y' / 400
  let yoe := y' - era * 400
  let mp : Int := if 2 < m then (m : Int) - 3 else (m : Int) + 9
  let doy := (153 * mp + 2) / 5 + (d : Int) - 1
  let doe := yoe * 365 + yoe / 4 - yoe / 100 + doy
  era * 146097 + doe - 719468

/-- Seconds of the day in an hhmmss field with an optional fraction. -/
def timeOf (f : List Byte) : Option Nat :=
  match decimal (f.take 2), decimal ((f.drop 2).take 2), decimal ((f.drop 4).take 2) with
  | some h, some m, some x => some (h * 3600 + m * 60 + x)
  | _, _, _ => none

/-- UTC seconds of a ZDA or RMC sentence's fields (its first field the talker and type). DESIGN CHOICE (entry 39): they are
counted from 1970-01-01, and RMC's two-digit year is one of this century, 20yy. -/
def nmeaUtc (fs : List (List Byte)) : Option Int :=
  let fld (k : Nat) : List Byte := fs.getD k []
  let typ := ((fld 0).drop 2).map BitVec.toNat
  if typ = [90, 68, 65] then
    match timeOf (fld 1), decimal (fld 2), decimal (fld 3), decimal (fld 4) with
    | some t, some d, some m, some y => some (daysOf y m d * 86400 + t)
    | _, _, _, _ => none
  else if typ = [82, 77, 67] ∧ (fld 2).map BitVec.toNat = [65] then
    match timeOf (fld 1), decimal ((fld 9).take 2), decimal (((fld 9).drop 2).take 2), decimal ((fld 9).drop 4) with
    | some t, some d, some m, some y => some (daysOf (2000 + y) m d * 86400 + t)
    | _, _, _, _ => none
  else none

/-- An NMEA sentence: `$`, its body, `*`, two checksum digits, with or without a line end. The checksum is the exclusive-or
of the body. -/
def nmeaTod (taiUtc : Nat) (next1 : Bool) (b : List Byte) : Option Tod :=
  match b with
  | [] => none
  | d :: rest =>
    match splitAtByte 42 rest with
    | [body, sum] =>
      match (sum.take 2).map hexDigit with
      | [some x, some y] =>
        if d.toNat = 36 ∧ body.foldl (fun c z => c ^^^ z.toNat) 0 = 16 * x + y then
          (nmeaUtc (splitAtByte 44 body)).map
            (fun t => { sec := (t + (taiUtc : Int)).toNat, refOk := true, next1 := next1 })
        else none
      | _ => none
    | _ => none

/-- A complete message in the format in force (R34). -/
def State.decodeTod (s : State) (b : List Byte) : Option Tod :=
  if s.f TBU.TOD.FMT = 0 then nmeaTod (s.f TBU.TOD.TAI_UTC) (s.on TBU.TOD.NMEA_NEXT) b else binaryTod b

/-! ### Calibration (R53, R54, R56) -/

/-- The capture table of a histogram over `old`, nothing where a code is over four times its nominal width. -/
def buildTaps (h : SMap Nat) (n : Nat) (old : List Nat) : Option (List Nat) :=
  let get (k : Nat) : Nat := SMap.get (fun _ => 0) h k
  let step (acc : List Nat × Nat × Bool) (k : Nat) : List Nat × Nat × Bool :=
    let (out, below, ok) := acc
    let centre := ((2 * below + get k) * 4096 + n) / (2 * n) % 65536
    let v := if old = [] then centre else (3 * old.getD k 0 + centre + 2) / 4 % 65536
    (out ++ [v], below + get k, ok && decide (get k ≤ 4 * n / 128))
  let (out, _, ok) := (List.range 128).foldl step ([], 0, true)
  if ok then some out else none

/-- Edges in a histogram. -/
def histSum (h : SMap Nat) : Nat := (h.map (fun e => e.2)).sum

/-- A vernier's failed build noted in CALSTS, with CAL_FAIL (R56); `v` its number. DESIGN CHOICE (entry 39): FAIL_TRK reads 0
for a vernier that is no track's. -/
def State.calFail (s : State) (v : Nat) : State :=
  let s := (s.bump TBU.CALSTS.FAILS).setF TBU.CALSTS.FAIL_TRK (if v < 256 then v else 0)
  ((s.clr TBU.CALSTS.FAIL_OUT).set1 TBU.IRQ_RAW.CAL_FAIL).fault 0x07

/-- One capture vernier at a build. DESIGN CHOICE (entry 39): one with too few hits keeps its histogram into the next build. -/
def State.buildOne (s : State) (e : Nat × Vernier) : State :=
  let n := histSum e.2.hist
  if n < 2 ^ s.f TBU.CAL.MIN_HITS then s
  else
    let s := s.setVernier e.1 { e.2 with hist := [] }
    match buildTaps e.2.hist n e.2.tap with
    | none => s.calFail e.1
    | some t => { s with tbu := { s.tbu with newTaps := SMap.put (fun _ => []) s.tbu.newTaps e.1 t } }

/-- The output table of a bank: 64 phase indices, nominal 4 for each 1/64 cycle until the first build. -/
def outTable (m : SMap (List Nat)) (b : Nat) : List Nat :=
  let t := SMap.get (fun _ => []) m b
  if t = [] then (List.range 64).map (fun k => 4 * k) else t

/-- One ordered fraction of an output vernier at a build (R54): its entry corrected by the mean error in whole phases
(1/256 cycle, 16 of the error's units), blended 3:1 after the first build. -/
def State.buildOut (s : State) (o : VernierObs) : State :=
  if o.count < 64 then s
  else
    let b := o.bank.val
    let first := SMap.get (fun _ => []) s.tbu.outTabs b = []
    let cur := if SMap.get (fun _ => []) s.tbu.newOuts b = [] then outTable s.tbu.outTabs b
      else SMap.get (fun _ => []) s.tbu.newOuts b
    let old := cur.getD o.code.val 0
    let want := (old : Int) - divNearInt o.err (o.count * 16)
    let v := if first then want else (3 * (old : Int) + want + 2) / 4
    let t := cur.set o.code.val (v % 256).toNat
    { s with tbu := { s.tbu with newOuts := SMap.put (fun _ => []) s.tbu.newOuts b t } }

/-- Every bank has an output table from a build on: one without enough observations keeps its entries (R54, R57). -/
def State.keepOuts (s : State) : State :=
  (List.range 8).foldl (fun s b =>
    if SMap.get (fun _ => []) s.tbu.newOuts b = [] then
      { s with tbu := { s.tbu with newOuts := SMap.put (fun _ => []) s.tbu.newOuts b (outTable s.tbu.outTabs b) } }
    else s) s

/-- The tables of the last build come into force at the boundary now, and the epoch increases (R56); with CAL_EN = 0 both
stay. DESIGN CHOICE (entry 13): the built tables are then dropped. -/
def State.epochSwap (s : State) : State :=
  if !s.tbu.built then s
  else if !s.on TBU.CAL.CAL_EN then { s with tbu := { s.tbu with newTaps := [], newOuts := [], built := false } }
  else
    let old := s.tbu.verniers.map (fun e => (e.1, e.2.tap))
    let s := { s with tbu := { s.tbu with
      oldTaps := old.filter (fun e => e.2 ≠ []), swapAt := s.raw, built := false } }
    let s := s.tbu.newTaps.foldl (fun s e => s.setVernier e.1 { s.vernier e.1 with tap := e.2 }) s
    let outs := s.tbu.newOuts.foldl (fun m e => SMap.put (fun _ => []) m e.1 e.2) s.tbu.outTabs
    let s := { s with tbu := { s.tbu with outTabs := outs, newTaps := [], newOuts := [] } }
    let n := (s.f TBU.STS.EPOCH + 1) % 16
    let s := (s.setF TBU.STS.EPOCH n).setF TBU.EPOCHLOG.DEP s.dep (4 * n)
    s.set1 TBU.IRQ_RAW.EPOCH

/-! ### Boot and Keep-time (R40, R48 to R50) -/

/-- TBU.FREQ as Boot leaves it (R40). -/
def State.tbuBoot (s : State) : State :=
  if bitsAt (s.f TBU.KS_FLAGS.V) 1 1 = 1 then s.setF TBU.FREQ.CORR (s.f TBU.KS_FREQ.V) else s

/-- Vehicle time set to `t` now. -/
def State.setVt (s : State) (t : Nat) : State := { s with vtOff := (t : Int) - ((s.raw * 64 : Nat) : Int) }

end Sys2Proof.Machine
end

