-- ==== Sys2Proof/Machine/JncOps.lean ====
section
/-! DEFINITION. Lines, banks, consumers and claims (file 03: R78 to R88). -/

namespace Sys2Proof.Machine

/-! ### Claims (R78, R80) -/

/-- Kinds of CONFCAP0. -/
abbrev kindLine : Nat := 0
abbrev kindFanout : Nat := 1
abbrev kindTrack : Nat := 2
abbrev kindRuler : Nat := 3
abbrev kindWindow : Nat := 4

/-- The most recent refusal recorded in CONFCAP0 to CONFCAP2, and JNC.CNT_EVT counted (R78). -/
def State.conflictCap (s : State) (kind idx : Nat) (role : Role) (id holder held want : Nat) : State :=
  let s := s.setReg JNC.CONFCAP0.KIND.off
    (word (kind * 2 ^ 28 + idx % 2 ^ 10 * 2 ^ 18 + role.code * 2 ^ 16 + id % 2 ^ 8 * 2 ^ 8 + holder % 2 ^ 8))
  let s := s.setReg JNC.CONFCAP1.HELD_SRC.off (word (held % 2 ^ 10 * 2 ^ 16 + want % 2 ^ 10))
  let s := s.setReg JNC.CONFCAP2.DEP.off (word s.dep)
  let n := (s.reg JNC.CNT_EVT.LO.off).toNat
  s.setReg JNC.CNT_EVT.LO.off (word (satAdd 0xFFFFFFFF n 1))

/-- JNC.ERR_CAP takes the first refusal of all that CONFCAP0 to CONFCAP2 record (R88). DESIGN CHOICE (entry 39): OFS is the
offset of the refused access in its own page. -/
def State.firstRefusal (s : State) (r : Requester) (a : Nat) (why : Reason) : State := s.capture JNC.page.base a r why

/-- A refused claim (R78): captured at address `a` of the resource's page with reason CONFLICT. -/
def State.refuseClaim (s : State) (r : Requester) (a kind idx holder held want : Nat) : State :=
  let s := (s.set1 JNC.IRQ_RAW.CONFLICT).conflictCap kind idx (s.role r) r.id holder held want
  (s.discard a r .conflict).firstRefusal r a .conflict

/-- The holder that an OWN register at `a` names (TRK.OWN, RUL.OWN, ADC.WOWN share the layout). -/
def State.holderAt (s : State) (a : Nat) : Nat := bitsAt (s.reg a).toNat 8 8

/-- HOLDER and HROLE written. -/
def State.setHolder (s : State) (a id role : Nat) : State :=
  let w := (s.reg a).toNat
  s.setReg a (word (putBits (putBits w 8 8 id) 16 2 role))

/-- HROLE of a holder: operator, installer or maker, 0 for an internal requester. -/
def State.holderRole (s : State) (r : Requester) : Nat :=
  match r with
  | .tbu => 0
  | .twn => 0
  | r => (s.role r).code

/-- A claim (R78): granted where nobody holds the resource, without effect for its holder, refused otherwise. -/
def State.claim (s : State) (r : Requester) (a kind idx : Nat) : State :=
  let h := s.holderAt a
  if h = 0 then s.setHolder a r.id (s.holderRole r)
  else if h = r.id then s
  else s.refuseClaim r a kind idx h 0 0

/-- A release (R78): the holder's clears it, one of a free resource does nothing, another's is refused as a claim. -/
def State.release (s : State) (r : Requester) (a kind idx : Nat) : State :=
  let h := s.holderAt a
  if h = 0 then s
  else if h = r.id then s.setHolder a 0 0
  else s.refuseClaim r a kind idx h 0 0

/-- A write to a resource that another requester holds is discarded (R79). -/
def State.foreign (s : State) (r : Requester) (own : Nat) : Bool :=
  let h := s.holderAt own
  h ≠ 0 && h ≠ r.id

/-! ### Lines -/

def State.line (s : State) (n : Nat) : Line := SMap.get (fun _ => {}) s.lines n

def State.setLine (s : State) (n : Nat) (x : Line) : State := { s with lines := SMap.put (fun _ => {}) s.lines n x }

/-- Byte distance of line `n`'s registers from LN000's. -/
abbrev lnAt (n : Nat) : Nat := 16 * n

/-- SRC of the configuration in force. -/
def Line.src (x : Line) : Nat := bitsAt x.cfg.toNat 16 10
def Line.idle (x : Line) : Nat := bitsAt x.cfg.toNat 14 2
def Line.safe (x : Line) : Nat := bitsAt x.cfg.toNat 12 2
def Line.pull (x : Line) : Nat := bitsAt x.cfg.toNat 10 2
def Line.openDrain (x : Line) : Bool := bitsAt x.cfg.toNat 6 1 = 1
def Line.inv (x : Line) : Bool := bitsAt x.cfg.toNat 5 1 = 1

/-- What a bank's supply monitor measures (R83); a bank that nothing has been measured on is unpowered. -/
def State.supply (s : State) (b : Nat) : Supply := SMap.get (fun _ => .absent) s.banks b

/-- The bank's supply agrees with VSEL (R83). -/
def State.bankOk (s : State) (b : Nat) : Bool :=
  match s.supply b with
  | .absent => false
  | .other => false
  | .v18 => !s.on JNC.BANK.VSEL (4 * b)
  | .v33 => s.on JNC.BANK.VSEL (4 * b)

/-- Bank `b` forms LVDS pairs (R84). -/
def State.lvds (s : State) (b : Nat) : Bool := s.on JNC.BANK.LVDS (4 * b)

/-- An odd line of a bank that forms pairs: its registers read 0 and take no write (R84). -/
def State.oddOfPair (s : State) (n : Nat) : Bool := s.lvds (n / 16) && n % 2 = 1

/-! ### Consumers (R87) -/

/-- Line `n` named by a field pair of a word: enable bit `e`, line in seven bits from `lo`. -/
def named (w e lo n : Nat) : Nat := if bitsAt w e 1 = 1 ∧ bitsAt w lo 7 = n then 1 else 0

/-- Consumers that the register at address `a` holding `w` connects to line `n`. -/
def State.consumersAt (s : State) (n a w : Nat) : Nat :=
  match pageOf a with
  | none => 0
  | some (p, b) =>
    let o := a - b
    if p.code = 0x10 ∧ o = 0x4C then named w 31 0 n
    else if p.code = 0x12 ∧ o = 0x08 then
      -- an enabled turntable: its INSEL
      if bitsAt w 0 1 = 1 then
        let x := (s.reg (b + 0x40)).toNat
        named x 31 24 n + named x 23 16 n + named x 15 8 n + (if bitsAt x 0 7 = n then 1 else 0)
      else 0
    else if p.code = 0x13 ∧ o = 0x68 then named w 31 0 n
    else if p.code = 0x14 ∧ 0x320 ≤ o ∧ o ≤ 0x32C then (if bitsAt w 28 1 = 0 then named w 31 0 n else 0)
    else if p.code = 0x15 ∧ (o = 0x50 ∨ o = 0x54) then
      named w 7 0 n + named w 15 8 n + named w 23 16 n + named w 31 24 n
    else if a = TBU.REF.RATE.off then
      if bitsAt w 6 1 = 1 ∧ bitsAt w 3 3 * 16 + bitsAt w 0 3 * 2 = n then 1 else 0
    else 0

/-- Consumers connected to line `n` (JNC.LN_STS.NCONS). A register at its reset value connects none. -/
def State.consumers (s : State) (n : Nat) : Nat := (s.regs.map (fun e => s.consumersAt n e.1 e.2.toNat)).sum

/-- A line that the change from `s` to `t` gives a fifth consumer (R87). -/
def State.overFanned (s t : State) : Option Nat :=
  (List.range 128).find? (fun n => 4 < t.consumers n && s.consumers n < t.consumers n)

/-- A selection refused because it would make a fifth consumer of line `n` (R87); `a` the register written. -/
def State.refuseFanout (s : State) (r : Requester) (role : Role) (a n : Nat) : State :=
  let s := (s.set1 JNC.IRQ_RAW.FANOUT).conflictCap kindFanout n role r.id 0 0 0
  (s.discard a r .fanout).firstRefusal r a .fanout

/-- An odd line of a pair that the change from `s` to `t` gives a consumer (R84). -/
def State.selectsOdd (s t : State) : Option Nat :=
  (List.range 128).find? (fun n => t.oddOfPair n && s.consumers n < t.consumers n)

/-- A consumer selection `t` (made from `s`) stands unless it makes a fifth consumer of a line (FANOUT), or names an odd line
of a pair. DESIGN CHOICE (entry 39): the reason of the second is MODE, that of a write to such a line's registers. -/
def State.select (s t : State) (r : Requester) (a : Nat) : State :=
  match s.overFanned t with
  | some n => s.refuseFanout r (s.role r) a n
  | none => if (s.selectsOdd t).isSome then s.discard a r .mode else t

/-! ### Line configuration (R87, R88) -/

/-- A legal source code (table of source codes). -/
def srcOk (c : Nat) : Bool :=
  c = 0 || (0x100 ≤ c && c < 0x240) || (0x240 ≤ c && c < 0x2C0)

/-- A line takes the configuration and trim last accepted (R88); edges of another source on their way to its ball are
gone. -/
def State.lineApply (s : State) (n : Nat) : State :=
  let x := s.line n
  let y := { x with cfg := s.reg (JNC.LN_CFG.SRC.off + lnAt n), trim := s.reg (JNC.LN_TRIM.TRIM.off + lnAt n) }
  s.setLine n { y with due := if y.src = x.src then x.due else [] }

/-! ### Edges at the ball (R24, R86) -/

/-- TRIM of a line, in raw units. -/
def Line.trimU (x : Line) : Int := signedOf 10 x.trim.toNat

/-- The ball time on line `x` of an edge ordered for raw unit `u` by a compare that became active in cycle `since`, and
whether the trim would have placed it before that cycle (R86). -/
def Line.ballTime (x : Line) (u since : Nat) : Nat × Bool :=
  if (u : Int) + x.trimU < (since * 64 : Nat) then ((since + 2) * 64, true) else (((u : Int) + x.trimU).toNat, false)

/-- An edge of the source of code `src`, ordered for raw unit `u`, sent to the balls of the lines it drives. -/
def State.lineEdge (s : State) (src u : Nat) (lvl : Bool) (since : Nat) : State :=
  { s with lines := s.lines.map (fun e =>
      if e.2.src = src then (e.1, { e.2 with due := e.2.due ++ [((e.2.ballTime u since).1, lvl)] }) else e) }

/-- The trim of some line of the source moves an edge as R86 states, which sets MISSED. -/
def State.trimEarly (s : State) (src u since : Nat) : Bool :=
  s.lines.any (fun e => e.2.src = src && (e.2.ballTime u since).2)

/-- The line whose LN_CFG or LN_TRIM lies at an address. -/
def lineAt (a : Nat) : Option Nat :=
  let b := JNC.LN_CFG.SRC.off
  if b ≤ a ∧ a < b + 2048 ∧ (a - b) % 16 < 8 then some ((a - b) / 16) else none

/-- Every line takes the configuration and trim accepted last, at cycle c (R88). A line that nothing has written since
Boot and that the state does not list has them already. -/
def State.linesApply (s : State) : State :=
  (s.regs.filterMap (fun e => lineAt e.1) ++ s.lines.map (fun e => e.1)).eraseDups.foldl State.lineApply s

/-- LN_STS records who made the last accepted SRC write. -/
def State.claimLine (s : State) (n id role : Nat) : State := s.setLine n { s.line n with claimant := id, crole := role }

/-! ### Edges of a source that optical stamps are checked against (R237) -/

def State.chan (s : State) (c : Nat) : OptChan := SMap.get (fun _ => {}) s.adc.chans c

def State.setChan (s : State) (c : Nat) (x : OptChan) : State :=
  { s with adc := { s.adc with chans := SMap.put (fun _ => {}) s.adc.chans c x } }

/-- An edge of source `code` ordered for raw unit `u`, kept by the trigger inputs that it is a selected edge of (R226). -/
def State.noteTrig (s : State) (code u : Nat) (lvl : Bool) : State :=
  (List.range 4).foldl (fun s n =>
    let o := 4 * n
    if s.on ADC.TG.EN o ∧ s.on ADC.TG.KIND o ∧ s.f ADC.TG.SRC o = code ∧ (lvl != s.on ADC.TG.POL o) = true then
      { s with adc := { s.adc with
          srcEdges := SMap.put (fun _ => []) s.adc.srcEdges n (SMap.get (fun _ => []) s.adc.srcEdges n ++ [u]) } }
    else s) s

/-- OCHK of channel `c` after a write over `old` (R237): the edges kept are those of CHK_SRC, so a new source, or none, starts
with no edge. -/
def State.checkAgain (s : State) (c old : Nat) : State :=
  if s.on ADC.OCHK.CHK_EN (32 * c) ∧ bitsAt old 16 10 = s.f ADC.OCHK.CHK_SRC (32 * c) then s
  else s.setChan c { s.chan c with rises := [], falls := [] }

/-- An edge of source `code` ordered for raw unit `u`, kept by the channels that check against it and the trigger inputs
that it feeds. -/
def State.noteEdge (s : State) (code u : Nat) (lvl : Bool) : State :=
  (List.range 16).foldl (fun s c =>
    if s.on ADC.OCHK.CHK_EN (32 * c) ∧ s.f ADC.OCHK.CHK_SRC (32 * c) = code then
      let x := s.chan c
      s.setChan c (if lvl then { x with rises := (u :: x.rises).take 8 } else { x with falls := (u :: x.falls).take 8 })
    else s) (s.noteTrig code u lvl)

/-! ### The mode's part in a line (table of lines by mode) -/

/-- Modes in which sources reach their lines. -/
def Mode.sources : Mode → Bool
  | .run => true
  | .holdover => true
  | .factory => true
  | .halt => true
  | _ => false

/-- A level code of IDLE or SAFE: 0 drive 0, 1 drive 1, 2 high-impedance. -/
def levelOf (c : Nat) : Level := if c = 0 then .low else if c = 1 then .high else .hiz

/-- A level after open drain: level 1 is released. -/
def Line.drain (x : Line) (v : Level) : Level := if x.openDrain && v = .high then .hiz else v

end Sys2Proof.Machine
end

