-- ==== Sys2Proof/Machine/TrkOps.lean ====
section
/-! DEFINITION. Tracks (file 03: R59 to R77, R82): loads and shadows, the placing of edges, capture, gates, records. -/

namespace Sys2Proof.Machine

def State.track (s : State) (t : Nat) : Track := SMap.get (fun _ => {}) s.trk t

def State.setTrack (s : State) (t : Nat) (x : Track) : State := { s with trk := SMap.put (fun _ => {}) s.trk t x }

/-- Track mode codes (table of track modes). -/
abbrev mdOff : Nat := 0
abbrev mdEdge : Nat := 1
abbrev mdPulse : Nat := 2
abbrev mdTrain : Nat := 3
abbrev mdCapture : Nat := 4
abbrev mdPeriod : Nat := 5
abbrev mdWidth : Nat := 6
abbrev mdGate : Nat := 7
abbrev mdLinked : Nat := 8

/-- TRK.MODE.MODE of track `t`. -/
def State.tmode (s : State) (t : Nat) : Nat := s.f TRK.MODE.CODE (trkAt t)

def outMode (m : Nat) : Bool := 1 ≤ m && m ≤ 3
def inMode (m : Nat) : Bool := 4 ≤ m && m ≤ 7
/-- A mode in which the track drives its line (R85). -/
def producing (m : Nat) : Bool := outMode m || m = mdLinked

def State.tirq (s : State) (t : Nat) (g : Fld) : State := s.set1 g (trkAt t)

/-- A width of 24 bits of cycles and 6 of fraction (R92): the low 30 bits. -/
def width30 (n : Nat) : Nat := n % 2 ^ 30

/-! ### Loads and shadows (R61 to R67) -/

/-- A compare as it becomes active in the cycle after `now`. -/
def Cmp.wake (c : Cmp) (now : Nat) : Cmp := { c with since := now + 1 }

/-- Shadows move into empty active halves (R61 to R63, R75): each slot for itself in OUT_EDGE and IN_GATE_COUNT, the pair as
one in OUT_PULSE, a train's start once no train runs. -/
def Track.promote (x : Track) (m now : Nat) : Track :=
  if m = mdPulse then
    if x.aAct = none ∧ x.bAct = none then
      { x with aAct := x.aShd.map (fun c => c.wake now), bAct := x.bShd.map (fun c => c.wake now), aShd := none, bShd := none }
    else x
  else if m = mdTrain ∧ x.train.isSome then x
  else
    let x := if x.aAct = none ∧ x.aShd.isSome then
      { x with aAct := x.aShd.map (fun c => c.wake now), aShd := none } else x
    if x.bAct = none ∧ x.bShd.isSome then
      { x with bAct := x.bShd.map (fun c => c.wake now), bShd := none } else x

def State.promote (s : State) (t : Nat) : State := s.setTrack t ((s.track t).promote (s.tmode t) s.raw)

/-- A refused load (R67). -/
def State.loadRej (s : State) (t : Nat) : State :=
  (s.tirq t TRK.IRQ_RAW.LOAD_REJ).bump TRK.CNT_EVT.HI 1 (trkAt t)

/-- A load of slot A's or B's shadow in OUT_EDGE; nothing where both are full (R61). -/
def Track.loadEdge (x : Track) (c : Cmp) : Option Track :=
  if x.aShd = none then some { x with aShd := some c }
  else if x.bShd = none then some { x with bShd := some c } else none

/-- A load of the pair in OUT_PULSE (R62), and of a gate's opening and close (R75). -/
def Track.loadPair (x : Track) (a b : Cmp) : Option Track :=
  if x.aShd = none ∧ x.bShd = none then some { x with aShd := some a, bShd := some b } else none

/-- A load of the one shadow that a train or an arming uses (R63, R69). -/
def Track.loadA (x : Track) (a : Cmp) : Option Track :=
  if x.aShd = none then some { x with aShd := some a } else none

/-- A track's load accepted (its shadows promoted), or refused. -/
def State.putLoad (s : State) (t : Nat) (x : Option Track) : State × Bool :=
  match x with
  | none => (s.loadRej t, false)
  | some x => ((s.setTrack t x).promote t, true)

/-- The stop comparator loaded (R66): an earlier load is replaced, and its entry discarded. -/
def State.loadStop (s : State) (t time : Nat) (src : LoadSrc) : State :=
  let x := s.track t
  let s := match x.stop with
    | some (_, old) => s.acted old outDiscarded
    | none => s
  s.setTrack t { s.track t with stop := some (time, src) }

/-- What a track does with an entry the dispatcher delivers (R77): action code, DUE, ARG, the entry, its late mark. The
second component tells whether it took the load. DESIGN CHOICE (entry 39): a track holds any number of STAMP_MARKs. -/
def State.deliver (s : State) (t act due arg : Nat) (src : LoadSrc) (late : Bool) : State × Bool :=
  let x := s.track t
  let m := s.tmode t
  let h := s.holderAt (TRK.OWN.HOLDER.off + trkAt t)
  let c (a : CmpAct) (n : Nat) : Cmp := { time := due, act := a, arg := n, src := src, late := late }
  if h = Requester.tbu.id ∨ h = Requester.twn.id then ((s.tirq t TRK.IRQ_RAW.OWNER_REJ).loadRej t, false)
  else if act = 1 ∧ m = mdEdge then s.putLoad t (x.loadEdge (c .set 0))
  else if act = 2 ∧ m = mdEdge then s.putLoad t (x.loadEdge (c .clear 0))
  else if act = 3 ∧ m = mdEdge then s.putLoad t (x.loadEdge (c .toggle 0))
  else if act = 4 ∧ m = mdPulse then
    let b : Cmp := { time := (due + width30 arg) % 2 ^ 64, act := .trail, src := src, late := late }
    s.putLoad t (x.loadPair (c .lead 0) b)
  else if act = 14 ∧ m = mdTrain then s.putLoad t (x.loadA (c .train (width30 arg)))
  else if act = 5 ∧ m = mdGate then
    let b : Cmp := { time := (due + width30 arg) % 2 ^ 64, act := .close, src := src, late := late }
    s.putLoad t (x.loadPair (c .gate (width30 arg)) b)
  else if act = 5 ∧ inMode m then s.putLoad t (x.loadA (c .arm (arg % 2 ^ 16)))
  else if act = 6 ∧ m ≠ mdOff then (s.loadStop t due src, true)
  else if act = 12 ∧ producing m then (s.setTrack t { x with marks := x.marks ++ [c .set arg] }, true)
  else (s.loadRej t, false)

/-! ### Placing an edge (R64, R65, R86) -/

/-- When an active compare fires, in raw units, and whether late (R65) and moved by R64: at its time, from the second
cycle of its activity on; at least two cycles after it became active where its time was past by then; not before the
floor that a re-prediction sets (R133). -/
def State.fireTime (s : State) (c : Cmp) (lastEdge : Option Nat) : Nat × Bool × Bool :=
  let u := s.rawOf c.time
  let missed := decide (u < c.since * 64 ∨ u < c.floor)
  let base := if u < c.since * 64 then max ((c.since + 2) * 64) c.floor else max (max u ((c.since + 1) * 64)) c.floor
  match lastEdge with
  | none => (base, missed, false)
  | some e => (max base (e + 128), missed, decide (base < e + 128))

/-- A track's edge placed at raw unit `u`: the level, the clock, the flags of R64, R65 and R86. `since` is the cycle in
which its compare became active, 0 for an edge that no compare of its own orders. -/
def State.placeEdge (s : State) (t u : Nat) (lvl missed clamp : Bool) (since : Nat) : State :=
  let early := s.trimEarly (0x100 + t) u since
  let s := s.advance (u / 64)
  let s := s.setTrack t { s.track t with lvl := lvl, edgeAt := some u }
  let s := (s.lineEdge (0x100 + t) u lvl since).noteEdge (0x100 + t) u lvl
  let s := if missed || early then s.tirq t TRK.IRQ_RAW.MISSED else s
  if clamp then s.tirq t TRK.IRQ_RAW.CLAMP else s

/-- The level that an OUT_EDGE action leaves. -/
def edgeLevel (a : CmpAct) (lvl : Bool) : Bool :=
  match a with
  | .set => true
  | .clear => false
  | _ => !lvl

/-- The instant of an active compare: a train that waited in the shadow for the end of the one before it starts 128 units
after that train's last edge, late (R63); any other as R65 states. -/
def State.fireOf (s : State) (x : Track) (c : Cmp) : Nat × Bool × Bool :=
  match x.edgeAt with
  | some e =>
    if c.act = .train && c.since = e / 64 + 1 && decide (s.rawOf c.time < e) then (e + 128, true, false)
    else s.fireTime c x.edgeAt
  | none => s.fireTime c none

/-- The stop comparator matches at or before raw unit `u` (R66). -/
def State.barred (s : State) (x : Track) (u : Nat) : Bool :=
  match x.stop with
  | none => false
  | some (t, _) => decide (s.rawOf t ≤ u)

/-- Slot `d` (with instant `v`) fires before slot `c` (with instant `u`); `first`: it is A (R61). -/
def goesFirst (d c : Cmp) (v u : Nat) (first : Bool) : Bool :=
  decide (v < u) || (v = u && decide (0 < vtDiff c.time d.time ∨ (c.time = d.time ∧ first)))

/-- A train's width and period, both limits of R64 kept; the second component tells that the width was changed. -/
def trainShape (w per : Nat) : Nat × Bool :=
  let w' := min (max w 128) (per - 128)
  (w', w' ≠ w)

/-- The edges that a track has still to place, in order, as things stand: raw unit, level, the cycle in which the compare
became active (0 where no compare of its own orders it). A line with a negative trim shows them before their DUE (R86). -/
def State.trackSoon (s : State) (t : Nat) : List (Nat × Bool × Nat) :=
  let x := s.track t
  let lead (u : Nat) (es : List (Nat × Bool × Nat)) : List (Nat × Bool × Nat) := if s.barred x u then [] else es
  let pair (c d : Cmp) (v : Nat) : List (Nat × Bool × Nat) :=
    let l := edgeLevel c.act x.lvl
    let w := if c.time = d.time ∨ l = x.lvl then v else (s.fireTime d (some (s.fireOf x c).1)).1
    if d.time = c.time ∧ v = (s.fireOf x c).1 then lead v [(v, edgeLevel d.act l, max c.since d.since)]
    else lead (s.fireOf x c).1 (((s.fireOf x c).1, l, c.since) :: lead w [(w, edgeLevel d.act l, d.since)])
  match x.train with
  | some r =>
    match r.trail with
    | some e => (e, false, 0) :: (if r.left = some 0 then [] else lead r.next [(r.next, true, 0)])
    | none => lead r.next [(r.next, true, 0), (r.next + r.width, false, 0)]
  | none =>
    match x.aAct, x.bAct with
    | some c, some d =>
      let u := (s.fireOf x c).1
      let v := (s.fireOf x d).1
      if c.act = .lead then lead u [(u, true, c.since), ((s.fireTime d (some u)).1, false, d.since)]
      else if c.act = .gate then []
      else if goesFirst d c v u false then pair d c u else pair c d v
    | some c, none =>
      let u := (s.fireOf x c).1
      if c.act = .train then lead u [(u, true, c.since), (u + (trainShape c.arg (s.f TRK.TPER.V (trkAt t))).1, false, 0)]
      else if c.act = .arm ∨ c.act = .gate then []
      else lead u [(u, edgeLevel c.act x.lvl, c.since)]
    | none, some d =>
      let v := (s.fireOf x d).1
      if d.act = .trail then [(v, false, d.since)]
      else if d.act = .close then []
      else lead v [(v, edgeLevel d.act x.lvl, d.since)]
    | none, none =>
      x.owed.filterMap (fun e => if !e.trail && s.barred x e.time then none
        else some (match x.edgeAt with | none => e.time | some k => max e.time (k + 128), e.lvl, 0))

/-! ### Records (R72, R74) -/

/-- A record formed: the sequence number increases, and the stamp is on its way to the FIFO (R72). -/
def State.formStamp (s : State) (t : Nat) (x : Stamp) : State :=
  let n := (s.track t).seq
  let y := s.track t
  s.setTrack t { y with seq := (n + 1) % 65536, formed := y.formed ++ [{ x with seq := n }] }

/-- The 128 bits of a stamp record (R74), with its context. -/
def Stamp.encode (x : Stamp) (t ctx : Nat) : Nat :=
  let b (v : Bool) (k : Nat) : Nat := if v then 2 ^ k else 0
  x.time % 2 ^ 64 + t % 256 * 2 ^ 64
    + (b x.rising 7 + b x.interp 6 + x.epoch % 16 * 4 + b x.ovf 1 + b x.late 0) * 2 ^ 72
    + x.seq % 65536 * 2 ^ 80 + ctx % 2 ^ 32 * 2 ^ 96

/-- A stamp placed in the FIFO with its context, or lost where eight records are held (R72, R81). -/
def State.pushStamp (s : State) (t : Nat) (x : Stamp) (ctx : Nat) : State :=
  let y := s.track t
  if 8 ≤ y.fifo.length then
    let s := s.setTrack t { y with ovf := true }
    (s.bump TRK.CNT_EVT.LO 1 (trkAt t)).tirq t TRK.IRQ_RAW.OVERFLOW
  else
    let s := s.setTrack t { y with fifo := y.fifo ++ [{ x with ovf := y.ovf, ctx := some ctx }], ovf := false }
    if s.f TRK.CTL.FTHR (trkAt t) ≤ y.fifo.length + 1 then s.tirq t TRK.IRQ_RAW.FIFO_THR else s

/-! ### Arming, gates and measurements (R69, R70, R75) -/

/-- The vernier of a track has a table in force for an edge in raw cycle `c` (R57). -/
def State.tabled (s : State) (t c : Nat) : Bool := s.tapsAt t c ≠ []

/-- A result written to TRK.MEAS (R75). -/
def State.measure (s : State) (t n : Nat) : State :=
  let s := s.setF TRK.MEAS.V (min n 0xFFFFFFFF) (trkAt t)
  if 0xFFFFFFFF < n then s.tirq t TRK.IRQ_RAW.MEAS_OVF else s

/-- One selected edge counted toward the limit (R69): the track disarms itself after the last. -/
def State.countEdge (s : State) (t : Nat) : State :=
  let x := s.track t
  match x.left with
  | none => s
  | some n =>
    if n ≤ 1 then (s.setTrack t { x with left := none, armed := false }).tirq t TRK.IRQ_RAW.DONE
    else s.setTrack t { x with left := some (n - 1) }

/-- A gate closes at raw unit `u` (R75): its count goes to MEAS, and a gate record is formed. -/
def State.closeGate (s : State) (t u : Nat) : State :=
  let x := s.track t
  match x.gate with
  | none => s
  | some g =>
    let s := (s.setTrack t { x with gate := none, bAct := if g.close.isSome then none else x.bAct }).promote t
    let s := (s.setF TRK.MEAS.V g.count (trkAt t)).tirq t TRK.IRQ_RAW.DONE
    s.formStamp t { time := s.stampVt u, rising := false, interp := false, epoch := s.epochAt (u / 64), late := g.late,
                    seq := 0, ctx := some g.count, enter := u / 64 + 12 }

/-! ### Flush, stop and abort (R60, R66, R82) -/

/-- The second half of a pair: a pulse's trailing edge, a gate's close. -/
def CmpAct.second (a : CmpAct) : Bool := a = .trail || a = .close

/-- The sources of every load a track holds and has not fired. A pair counts once, with its first half. -/
def Track.loads (x : Track) : List LoadSrc :=
  let c (o : Option Cmp) : List LoadSrc := match o with | some c => if c.act.second then [] else [c.src] | none => []
  c x.aAct ++ c x.aShd ++ c x.bAct ++ c x.bShd ++ x.marks.map Cmp.src

/-- The entries of a list of loads discarded with outcome `out`. -/
def State.dropLoads (s : State) (xs : List LoadSrc) (out : Nat) : State := xs.foldl (fun s x => s.acted x out) s

/-- The raw unit at which a track returns its line to idle (R64): now, or 128 units after the leading edge of a pulse in
progress. -/
def State.idleAt (s : State) (x : Track) : Nat :=
  match x.edgeAt with
  | some e => if x.lvl then max (s.raw * 64) (e + 128) else s.raw * 64
  | none => s.raw * 64

/-- The end of a pulse that a flush or an abort has cut lies in a later cycle (R64): the line is still active. -/
def Track.ending (x : Track) (now : Nat) : Bool :=
  match x.edgeAt with
  | some e => decide (now < e / 64)
  | none => false

/-- Every load discarded with outcome `out`, arming, gate, train and following ended, the line at idle (R60, R82), at the
earliest where R64 lets a pulse in progress end. -/
def State.clearTrack (s : State) (t out : Nat) : State :=
  let x := s.track t
  let stop := match x.stop with | some (_, src) => [src] | none => []
  let open_ := match x.train with | some r => [r.src] | none => []
  let s := s.dropLoads (x.loads ++ stop ++ open_) out
  let u := s.idleAt x
  let s := s.setTrack t { s.track t with
    aAct := none, aShd := none, bAct := none, bShd := none, stop := none, marks := [], train := none
    armed := false, left := none, gate := none, prevSel := none, openEdge := none, following := false, owed := []
    edgeAt := if x.lvl then some u else x.edgeAt, lvl := false }
  if x.lvl then s.lineEdge (0x100 + t) u false 0 else s

/-- Loads that a flush counts in REJECTED (R60). -/
def Track.flushCount (x : Track) : Nat := x.loads.length + (if x.stop.isSome then 1 else 0)

/-- The flush of R60. -/
def State.flushTrack (s : State) (t : Nat) : State :=
  let n := (s.track t).flushCount
  (s.clearTrack t outDiscarded).bump TRK.CNT_EVT.HI n (trkAt t)

/-- The effect of an abort of a track (R82). -/
def State.trkAbort (s : State) (t : Nat) : State :=
  let s := s.clearTrack t outAborted
  let s := s.setF TRK.MODE.CODE mdOff (trkAt t)
  s.setHolder (TRK.OWN.HOLDER.off + trkAt t) 0 0

/-- What a mode brings as it takes effect (R69, R75, R76, R85). -/
def State.modeBegins (s : State) (t : Nat) : State :=
  let m := s.tmode t
  let auto := s.on TRK.MODE.AUTOARM (trkAt t)
  let x := s.track t
  let x := { x with lvl := false, following := m = mdLinked, owed := [], prevSel := none, openEdge := none, left := none
                    armed := auto && inMode m && m ≠ mdGate, armLate := false }
  let x := { x with gate := if auto && m = mdGate then some { count := 0, close := none } else none }
  s.setTrack t x

/-- A track that R60 protects from a mode write: loaded, armed, or driving its line active. -/
def Track.busy (x : Track) (m : Nat) : Bool :=
  x.aAct.isSome || x.aShd.isSome || x.bAct.isSome || x.bShd.isSome || x.stop.isSome || x.armed || x.gate.isSome
    || x.train.isSome || (producing m && x.lvl)

/-- A train cut: it ends after the trailing edge of the pulse in progress, between two pulses at once (R66, R138). -/
def Train.cut (r : Train) : Option Train := if r.trail = none then none else some { r with left := some 0 }

/-- The stop time is reached (R66, R69, R75). DESIGN CHOICE (entry 44): a LINKED track whose ruling unit has risen before the
stop time and falls after it reproduces no fall: its level stays high. -/
def State.stopNow (s : State) (t time : Nat) (src : LoadSrc) : State :=
  let m := s.tmode t
  let s := s.advance (s.rawOf time / 64)
  let s := s.setTrack t { s.track t with stop := none }
  let s := s.acted src outActed
  let x := s.track t
  if inMode m then
    if m = mdGate then s.closeGate t (s.rawOf time)
    else s.setTrack t { x with armed := false, left := none }
  else
    -- marks at or after the stop time, and every load that has not fired
    let late (c : Cmp) : Bool := decide (0 ≤ vtDiff c.time time)
    let gone := ({ x with marks := x.marks.filter late }).loads
    let s := s.dropLoads gone outDiscarded
    -- the trailing edge of a pulse whose leading edge has fired stays
    let trail := x.aAct = none ∧ x.bAct.map Cmp.act = some .trail
    let owed := x.owed.filter (fun e => e.trail || decide (e.time < s.rawOf time))
    let train := match x.train with
      | none => none
      | some r => r.cut
    let s := s.setTrack t { s.track t with
      aAct := none, aShd := none, bShd := none, bAct := if trail then x.bAct else none
      marks := x.marks.filter (fun c => !late c), following := false, owed := owed, train := train }
    if x.train.isSome && train = none then s.tirq t TRK.IRQ_RAW.DONE else s

/-! ### Following a source (R76) -/

/-- The LINKED tracks that follow source code `c`. -/
def State.followers (s : State) (c : Nat) : List Nat :=
  (s.trk.filter (fun e => e.2.following && s.f TRK.LINK.SRC (trkAt e.1) = c)).map (fun e => e.1)

/-- LINKDLY of a track, at least `low` (R76); a smaller one sets CLAMP. -/
def State.linkDelay (s : State) (t low : Nat) : State × Nat :=
  let d := s.f TRK.LINKDLY.V (trkAt t)
  if d < low then (s.tirq t TRK.IRQ_RAW.CLAMP, low) else (s, d)

/-- A ruling unit's edge at raw unit `u` reproduced by the tracks that follow it (R76); a fall ends the pulse that the rise
before it began. -/
def State.linkEdge (s : State) (c u : Nat) (lvl : Bool) : State :=
  (s.followers c).foldl (fun s t =>
    let (s, d) := s.linkDelay t 512
    let x := s.track t
    s.setTrack t { x with owed := x.owed ++ [{ time := u + d, lvl := lvl, trail := !lvl }] }) s

/-- A tooth's ball time at raw unit `u` starts a pulse of TRK.WIDTH on the tracks that follow it (R76); the limit of R64
binds where its edges are placed. -/
def State.linkTooth (s : State) (c u : Nat) : State :=
  (s.followers c).foldl (fun s t =>
    let (s, d) := s.linkDelay t 1024
    let w := s.f TRK.WIDTH.V (trkAt t)
    let x := s.track t
    s.setTrack t { x with owed := x.owed ++
      [{ time := u + d, lvl := true }, { time := u + d + w, lvl := false, trail := true }] }) s

/-! ### A step of vehicle time (R90) -/

/-- A load from the timetable shifted by `d` units where `shift` or of an angle entry (R140), a direct one unchanged. -/
def Cmp.stepped (c : Cmp) (shift : Bool) (d : Int) : Cmp :=
  if (shift ∨ c.turn.isSome) ∧ c.src ≠ .direct then { c with time := bitsOfInt 64 (c.time + d) } else c

def Track.stepped (x : Track) (shift : Bool) (d : Int) : Track :=
  let g (o : Option Cmp) : Option Cmp := o.map (fun c => c.stepped shift d)
  let trail := match x.bAct with
    | some c =>
      -- the trailing half of a pulse whose leading edge has fired, and the close of an open gate, keep the width
      if (c.act = .trail ∧ x.aAct = none) ∨ (c.act = .close ∧ (x.gate.bind Gate.close).isSome) then
        some { c with time := bitsOfInt 64 (c.time + d) }
      else some (c.stepped shift d)
    | none => none
  { x with
    aAct := g x.aAct, aShd := g x.aShd, bAct := trail, bShd := g x.bShd
    stop := x.stop.map (fun p => if shift ∧ p.2 ≠ .direct then (bitsOfInt 64 (p.1 + d), p.2) else p)
    marks := x.marks.map (fun c => c.stepped shift d) }

/-- The effect of a step of `d` units on every track (R90). -/
def State.stepTracks (s : State) (shift : Bool) (d : Int) : State :=
  { s with trk := s.trk.map (fun e => (e.1, e.2.stepped shift d)) }

/-! ### Registers that read the state -/

/-- The words of a track that follow its state. DESIGN CHOICE (entry 39): a compare register whose active half is empty
reads 0, its reset value. -/
def State.liveTrk (s : State) (t k o : Nat) (w : Word) : Word :=
  let x := s.track t
  let b (v : Bool) (n : Nat) : Nat := if v then 2 ^ n else 0
  let m := s.tmode t
  let active (c : Option Cmp) (hi : Bool) : Word := match c with
    | none => 0
    | some c => word (if hi then c.time / 2 ^ 32 else c.time)
  if o = 0x0C then
    word (b x.train.isSome 7 + b ((producing m && x.lvl) || x.ending s.raw) 6 + b (x.armed || x.gate.isSome) 5 + b x.stop.isSome 4
      + b x.bShd.isSome 3 + b x.bAct.isSome 2 + b x.aShd.isSome 1 + b x.aAct.isSome 0)
  else if o = 0x50 then active x.aAct false
  else if o = 0x54 then active x.aAct true
  else if o = 0x58 then active x.bAct false
  else if o = 0x5C then active x.bAct true
  else if o = 0x74 then word (x.seq * 2 ^ 16 + x.fifo.length)
  else if o = 0x90 then word (if x.armed then x.left.getD 0 else 0)
  else if 0x84 ≤ o ∧ o ≤ 0x8C then word (SMap.get (fun _ => 0) x.pops k / 2 ^ (8 * (o - 0x80)))
  else w

end Sys2Proof.Machine
end

