-- ==== Sys2Proof/Machine/RulOps.lean ====
section
/-! DEFINITION. Ruling units (file 08: R192 to R215, R421): reference pulses, dead time, filtering, reloads, starts, stops. -/

namespace Sys2Proof.Machine

def State.ruler (s : State) (u : Nat) : Ruler := SMap.get (fun _ => {}) s.rul u

def State.setRuler (s : State) (u : Nat) (x : Ruler) : State := { s with rul := SMap.put (fun _ => {}) s.rul u x }

/-- A field of unit `u`. -/
def State.ruF (s : State) (u : Nat) (g : Fld) : Nat := s.f g (pgAt u)
def State.ruOn (s : State) (u : Nat) (g : Fld) : Bool := s.on g (pgAt u)
def State.ruIrq (s : State) (u : Nat) (g : Fld) : State := s.set1 g (pgAt u)

/-- The dead times applied (R195). -/
def State.ruDtr (s : State) (u : Nat) : Nat := max (s.ruF u RUL.DTR.V) (s.ruF u RUL.LIM.MINDT)
def State.ruDtf (s : State) (u : Nat) : Nat := max (s.ruF u RUL.DTF.V) (s.ruF u RUL.LIM.MINDT)

/-- Modes of a unit (R194). -/
abbrev ruOff : Nat := 0
abbrev ruEdgeMode : Nat := 1
abbrev ruCentre : Nat := 2
abbrev ruBurst : Nat := 3
abbrev ruOneshot : Nat := 4

def State.ruMode (s : State) (u : Nat) : Nat := s.ruF u RUL.MODE.CODE
/-- The unit aligns its pulses to the centre of the period (R193, R194). -/
def State.ruCentred (s : State) (u : Nat) : Bool :=
  s.ruMode u = ruCentre || (ruBurst ≤ s.ruMode u && s.ruOn u RUL.MODE.ALIGN)

/-- A filtered interval (R198). -/
def State.ruFiltered (s : State) (u : Nat) : State := (s.ruIrq u RUL.IRQ_RAW.FILTER).bump RUL.CNT_EVT.LO 1 (pgAt u)

/-! ### Outputs -/

/-- An edge entered in order of time, a fall before a rise of one instant. -/
def insEdge (e : RuEdge) : List RuEdge → List RuEdge
  | [] => [e]
  | x :: xs => if x.time < e.time ∨ (x.time = e.time ∧ (!x.up || e.up)) then x :: insEdge e xs else e :: x :: xs

def RuOut.plan (o : RuOut) (e : RuEdge) : RuOut := { o with edges := insEdge e o.edges }
def RuOut.nextRise (o : RuOut) : Option RuEdge := o.edges.find? (fun e => e.up)
def RuOut.nextFall (o : RuOut) : Option RuEdge := o.edges.find? (fun e => !e.up)
def RuOut.drop (o : RuOut) (e : RuEdge) : RuOut := { o with edges := o.edges.erase e }

/-- A rise moved to `t`. -/
def RuEdge.moveTo (e : RuEdge) (t : Nat) : RuEdge :=
  { e with time := t, moved := true, orig := if e.moved then e.orig else e.time }

/-- Edge `e` of a list replaced by `g`, where the list has it. -/
def swapEdge (e g : RuEdge) (es : List RuEdge) : List RuEdge := if es.contains e then insEdge g (es.erase e) else es

/-- The first rise at or after `f` moved later by `d` (R198). -/
def delayRise (f d : Nat) (es : List RuEdge) : List RuEdge :=
  match es.find? (fun e => e.up && decide (f ≤ e.time)) with
  | some e => insEdge (e.moveTo (e.time + d)) (es.erase e)
  | none => es

/-- The first fall after `t` put off to `v` at least; one placed there if there is none (R198). -/
def putOff (t v : Nat) (es : List RuEdge) : List RuEdge :=
  match es.find? (fun g => !g.up && decide (t < g.time)) with
  | some g => if g.time < v then insEdge { g with time := v } (es.erase g) else es
  | none => insEdge { time := v, up := false } es

/-- The first edge of one sense taken out. -/
def cutFirst (up : Bool) (es : List RuEdge) : List RuEdge :=
  match es.find? (fun e => e.up = up) with
  | some e => es.erase e
  | none => es

def Ruler.out (x : Ruler) (hi : Bool) : RuOut := if hi then x.hi else x.lo
def Ruler.setOut (x : Ruler) (hi : Bool) (o : RuOut) : Ruler := if hi then { x with hi := o } else { x with lo := o }

/-- What a stop restores of an output's edges changed as the edges themselves are (R204). -/
def Ruler.undoing (x : Ruler) (hi : Bool) (f : List RuEdge → List RuEdge) : Ruler :=
  { x with undo := x.undo.map (fun p => if hi then (f p.1, p.2) else (p.1, f p.2)) }

/-- An output's edges changed, in what a stop restores too. -/
def Ruler.onEdges (x : Ruler) (hi : Bool) (f : List RuEdge → List RuEdge) : Ruler :=
  (x.setOut hi { x.out hi with edges := f (x.out hi).edges }).undoing hi f

/-- The unit holds its outputs away from IDLE (R85, R194). -/
def Ruler.produces (x : Ruler) : Bool := x.run.isSome || x.hi.lvl || x.lo.lvl

/-- The unit's edges are masked: FORCE was cleared, or the fault input released, and no period start at least four cycles
later has come (R208, R209). -/
def State.ruMasked (s : State) (u : Nat) : Bool :=
  let x := s.ruler u
  x.mask.isSome && (match x.resume with | some c => decide (s.raw * 64 < c) | none => true)

/-- An output after SWAP, INV and FORCE (R208), before the fault force: low while the edges are masked. -/
def State.ruOutput (s : State) (u : Nat) (hi : Bool) : Bool :=
  let x := s.ruler u
  if s.ruOn u RUL.OVR.FORCE then (if hi then s.ruOn u RUL.OVR.FHI else s.ruOn u RUL.OVR.FLO)
  else if s.ruMasked u then false
  else
    let v := if s.ruOn u RUL.OVR.SWAP then (x.out !hi).shown else (x.out hi).shown
    v != (if hi then s.ruOn u RUL.OVR.INV_HI else s.ruOn u RUL.OVR.INV_LO)

/-- Source code of an output. -/
def ruCode (u : Nat) (hi : Bool) : Nat := if hi then 0x200 + u else 0x220 + u

/-- A change `t` of unit `u` made from `s` at raw unit `at_`: the lines, the channels that check against its outputs and the
tracks that follow them see it. -/
def State.ruShow (s t : State) (u at_ : Nat) : State :=
  let one (t : State) (hi : Bool) : State :=
    let v := t.ruOutput u hi
    if v = s.ruOutput u hi then t
    else ((t.lineEdge (ruCode u hi) at_ v 0).noteEdge (ruCode u hi) at_ v).linkEdge (ruCode u hi - 0x200) at_ v
  one (one t true) false

/-! ### The reference pulse (R193) -/

/-- The reference pulse of the period that starts at `t`. -/
def State.ruRef (s : State) (u t : Nat) : Option (Nat × Nat) :=
  let per := s.ruF u RUL.PER.V
  let duty := s.ruF u RUL.DUTY.V
  if duty = 0 then none
  else if per ≤ duty then some (t, t + per)
  else
    let rr := t + (if s.ruCentred u then (per - duty) / 2 else 0) + s.ruF u RUL.PHASE.V % per
    some (rr, rr + duty)

/-! ### Forming the edges of a period (R195, R421) -/

/-- LO's fall at `t`, not before the cycle `now`: a rise of LO at or after it does not occur. -/
def Ruler.loFall (x : Ruler) (t now : Nat) (early : Bool) : Ruler :=
  let q := x.lo.edges.filter (fun e => !(e.up && t ≤ e.time))
  { x with lo := { x.lo with edges := insEdge { time := max t (now * 64), up := false, early := early } q } }

/-- The early fall of LO (R421) that has not happened. -/
def Ruler.earlyFall (x : Ruler) : Option RuEdge := x.lo.edges.find? (fun e => e.early)
def Ruler.dropEarly (x : Ruler) : Ruler := { x with lo := { x.lo with edges := x.lo.edges.filter (fun e => !e.early) } }

/-- The edges of the pulse [`rr`, `rf`) alone: HI's interval and LO's rise. -/
def State.ruPulse (s : State) (u rr rf : Nat) (x : Ruler) : Ruler :=
  let d1 := s.ruOn u RUL.MODE.DTREF
  let hr := if d1 then rr + s.ruDtr u else rr
  let hf := if d1 then rf - s.ruDtf u else rf
  let lr := if d1 then rf else rf + s.ruDtf u
  let x := if hr < hf then { x with hi := (x.hi.plan { time := hr, up := true }).plan { time := hf, up := false } } else x
  { x with lo := x.lo.plan { time := lr, up := true } }

/-- The last pulse [`a`, `e`) and one that overlaps it are one pulse [`rr`, `rf`) (R193): what has not happened of the last
pulse gives way to it, but for MAXON's cut and LO's rise after a cut (R197). -/
def State.ruMerge (s : State) (u a e rr rf now : Nat) (x : Ruler) : Ruler :=
  let d1 := s.ruOn u RUL.MODE.DTREF
  let back := if d1 then 0 else s.ruDtr u
  let hr := if d1 then rr + s.ruDtr u else rr
  let hf := if d1 then rf - s.ruDtf u else rf
  let lr := if d1 then rf else rf + s.ruDtf u
  let risen : Bool := match x.hi.rise with | some r => decide (a ≤ r) | none => false
  let x := x.dropEarly
  let x := { x with
    hi := { x.hi with edges := x.hi.edges.filter (fun g => g.cut || decide (g.time < a)) }
    lo := { x.lo with edges := x.lo.edges.filter (fun g => !(g.up && !g.cut && decide (e ≤ g.time))) } }
  let x := if !risen && rr < a then x.loFall (max (rr - back) ((now + 1) * 64)) now false else x
  let x := if !risen && hr < hf then { x with hi := x.hi.plan { time := max hr (now * 64), up := true } } else x
  let x := if hr < hf then { x with hi := x.hi.plan { time := hf, up := false } } else x
  { x with lo := x.lo.plan { time := lr, up := true } }

/-- A period without a reference pulse (R193): LO has no gap in it. Where LO has already fallen for the pulse that does not
come (R421), it rises again as the period starts (DEDUCED, entry 41). -/
def Ruler.noGap (x : Ruler) (t : Nat) : Ruler :=
  let fallen : Bool := match x.ref, x.lo.fall with | some (_, e), some f => decide (e ≤ f) | _, _ => false
  if !x.lo.lvl && fallen && x.lo.nextRise.isNone then { x with lo := x.lo.plan { time := t, up := true } } else x

/-- The edges of the period that starts at `t`, formed in cycle `now`. -/
def State.ruForm (s : State) (u t now : Nat) (x : Ruler) : Ruler :=
  match s.ruRef u t with
  | none => x.dropEarly.noGap t
  | some (rr, rf) =>
    let back := if s.ruOn u RUL.MODE.DTREF then 0 else s.ruDtr u
    let alone (x : Ruler) : Ruler :=
      let x := if x.earlyFall.isSome then x.dropEarly.loFall (max (rr - back) ((now + 1) * 64)) now false
        else x.loFall (rr - back) now false
      { s.ruPulse u rr rf x with ref := some (rr, rf) }
    match x.ref with
    | none => alone x
    | some (a, e) =>
      if e < rr then alone x
      else if rf < a then
        -- a pulse wholly before one that an earlier period formed
        ((s.ruPulse u rr rf (x.dropEarly.loFall (rr - back) now false)).loFall (a - back) now false)
      else { s.ruMerge u a e (min a rr) (max e rf) now x with ref := some (min a rr, max e rf) }

/-- The fall of LO that precedes the next period's pulse, placed at this reload (R421). -/
def State.ruAhead (s : State) (u t now : Nat) (x : Ruler) : Ruler :=
  if s.ruOn u RUL.MODE.DTREF then x
  else
    match s.ruRef u t with
    | none => x
    | some (rr, _) =>
      match x.ref with
      | some (_, e) => if rr ≤ e then x else x.loFall (rr - s.ruDtr u) now true
      | none => x.loFall (rr - s.ruDtr u) now true

/-- An output low from `t` on: an interval in progress lasts MINP at least. -/
def RuOut.endBy (o : RuOut) (t : Nat) : RuOut :=
  let t := if o.lvl then max t o.least else t
  let kept := o.edges.filter (fun e => decide (e.time < t))
  let high := match kept.getLast? with | some e => e.up | none => o.lvl
  { o with edges := if high then insEdge { time := t, up := false } kept else kept }

/-- How far before a rise of HI, or before T_N, LO falls (R195, R196). -/
def State.ruBack (s : State) (u : Nat) : Nat := if s.ruOn u RUL.MODE.DTREF then 0 else s.ruDtr u

/-- The end of a run at `tn` (R194, R196): LO falls as before a pulse, HI is low from `tn`. -/
def State.ruPlanEnd (s : State) (u tn now : Nat) (x : Ruler) : Ruler :=
  let x := x.dropEarly.loFall (tn - s.ruBack u) now false
  let x := { x with hi := x.hi.endBy tn }
  { x with ref := none, lo := { x.lo with edges := x.lo.edges.filter (fun e => decide (e.time ≤ tn)) } }

/-! ### Reload (R199 to R201) -/

/-- A shadow transferred at the reload of cycle `rc`. -/
def State.ruMove1 (s : State) (u rc : Nat) (g : Fld) (v : Option (Nat × Nat)) : State × Bool :=
  match v with
  | some (n, c) => if c < rc then (s.setF g n (pgAt u), true) else (s, false)
  | none => (s, false)

/-- Every shadow written before cycle `rc` transferred (R199, R200); `k` is the period's number in its run. -/
def State.ruTransfer (s : State) (u rc k : Nat) : State :=
  let x := s.ruler u
  if s.ruOn u RUL.CTL.UPD_HOLD ∨ rc ≤ x.freed then
    s.setRuler u (if k = 0 then { x with perK := 0, dutyK := 0 } else x)
  else
    let (s, a) := s.ruMove1 u rc RUL.PER.V x.per
    let (s, b) := s.ruMove1 u rc RUL.DUTY.V x.duty
    let (s, c) := s.ruMove1 u rc RUL.PHASE.V x.phase
    let (s, d) := s.ruMove1 u rc RUL.DTR.V x.dtr
    let (s, e) := s.ruMove1 u rc RUL.DTF.V x.dtf
    let (s, f) := match x.ovr with
      | some (n, w) =>
        if w < rc then
          (s.setReg (RUL.OVR.SWAP.off + pgAt u) (word (putBits (s.reg (RUL.OVR.SWAP.off + pgAt u)).toNat 0 3 n)), true)
        else (s, false)
      | none => (s, false)
    s.setRuler u { x with
      per := if a then none else x.per, duty := if b then none else x.duty, phase := if c then none else x.phase
      dtr := if d then none else x.dtr, dtf := if e then none else x.dtf, ovr := if f then none else x.ovr
      perK := if a ∨ k = 0 then k else x.perK, dutyK := if b ∨ k = 0 then k else x.dutyK }

/-- A sync carrying `t` reaches unit `n` (R207). -/
def State.ruSyncTo (s : State) (n t : Nat) : State :=
  if s.ruOn n RUL.CHAIN.SYNC_EN then
    let x := s.ruler n
    s.setRuler n { x with syncs := x.syncs ++ [t + s.ruF n RUL.CHAIN.OFS] }
  else s

/-- The sync that unit `u` sends at a reload. -/
def State.ruSync (s : State) (u t : Nat) : State :=
  if u < 31 then s.ruSyncTo (u + 1) t else if s.ruOn 31 RUL.CHAIN.WRAP then s.ruSyncTo 0 t else s

/-- The intervals of full duty cut at `t`: no period at 100 % lasts longer (R201). -/
def Ruler.fullTo (x : Ruler) (t : Nat) : Ruler :=
  { x with full := (x.full.filter (fun p => decide (p.1 < t))).map (fun p => (p.1, min p.2 t)) }

/-- Output `hi` keeps a high interval that begins between `a`, the other output's fall, and `b`: one that its filter does
not drop (R198). -/
def State.ruHighIn (s : State) (u : Nat) (x : Ruler) (hi : Bool) (a b : Nat) : Bool :=
  let o := x.out hi
  let d := if hi then s.ruDtr u else s.ruDtf u
  let keeps (e : RuEdge) : Bool :=
    let t := max e.time (a + d)
    match o.edges.find? (fun f => !f.up && decide (e.time < f.time)) with
    | none => true
    | some f => decide (t + s.ruF u RUL.MINP.V ≤ f.time) || (s.ruOn u RUL.MODE.MINPOL && !e.moved && t = e.time)
  o.lvl || o.edges.any (fun e => e.up && decide (a ≤ e.time) && decide (e.time < b) && keeps e)

/-- Gaps closed against edges that were only predicted, once the period is formed (R198, R421). DESIGN CHOICE (entry 41): an
output whose predicted rise does not come in time falls in the cycle after the reload. -/
def State.ruReopen (s : State) (u now : Nat) (x : Ruler) : Ruler :=
  let minp := s.ruF u RUL.MINP.V
  let hi := match x.hi.shut with
    | none => x.hi
    | some f =>
      let gone : Bool := match x.hi.edges.find? (fun e => !e.cut) with
        | some e => e.up && decide (f + minp ≤ e.time)
        | none => true
      { x.hi with
        shut := none
        edges := if x.hi.lvl && gone then insEdge { time := (now + 1) * 64, up := false } x.hi.edges else x.hi.edges }
  let lo := match x.lo.shut with
    | none => x.lo
    | some f =>
      let still : Option RuEdge := match x.lo.nextFall, x.lo.nextRise with
        | some g, some r => if r.time < f + minp ∧ !s.ruHighIn u x true g.time r.time then some g else none
        | _, _ => none
      { x.lo with shut := none, edges := match still with | some g => x.lo.edges.erase g | none => x.lo.edges }
  { x with hi := hi, lo := lo }

/-- The mask of the edges ends as the period that starts at `t` begins (R208, R209): an inverted output, low until then,
shows the level of an output that is low, unless it rises at that instant. -/
def State.ruUnmask (s : State) (u t : Nat) : State :=
  let x := s.ruler u
  let one (s : State) (hi : Bool) : State :=
    let inv := if hi then s.ruOn u RUL.OVR.INV_HI else s.ruOn u RUL.OVR.INV_LO
    let o := x.out (hi != s.ruOn u RUL.OVR.SWAP)
    if s.ruOn u RUL.OVR.FORCE || !inv || o.edges.any (fun e => e.up && decide (e.time = t)) then s
    else ((s.lineEdge (ruCode u hi) t true 0).noteEdge (ruCode u hi) t true).linkEdge (ruCode u hi - 0x200) t true
  one (one s true) false

/-- The period that starts at `t` formed in cycle `rc` as number `k` of its run: shadows, edges, flags (R199, R201). -/
def State.ruPeriod (s : State) (u t rc k : Nat) : State :=
  let s := s.ruShow (s.ruTransfer u rc k) u (rc * 64)
  let x := s.ruler u
  let per := s.ruF u RUL.PER.V
  let whole := decide (per ≤ s.ruF u RUL.DUTY.V)
  let s := if whole && x.perK != x.dutyK then s.ruIrq u RUL.IRQ_RAW.PER_DUTY_MISMATCH else s
  let x := { x with
    undo := some (x.hi.edges, x.lo.edges)
    full := (x.full.filter (fun p => decide (rc * 64 < p.2))) ++ (if whole then [(t, t + per)] else [])
    count := k + 1
    resume := match x.mask with | some c => if c * 64 ≤ t ∧ x.resume = none then some t else x.resume | none => none }
  let formed := s.ruReopen u rc (s.ruForm u t rc x)
  let ends : Bool := x.resume = some t && (s.ruler u).resume.isNone
  let s := (s.setRuler u formed).ruSync u t
  if ends then s.ruUnmask u t else s

/-- After the forming of a period of run `r`: the run's end is planned, or the next pulse's early fall. -/
def State.ruAfter (s : State) (u rc : Nat) (r : RuRun) : State × RuRun :=
  let x := s.ruler u
  if r.left = some 0 then (s.setRuler u (s.ruPlanEnd u r.stop rc x), { r with fin := some r.stop })
  else (s.setRuler u (s.ruAhead u r.stop rc x), r)

/-- The instant from which a pending start can begin (R203): nothing while the end of the run in progress is not known. -/
def State.ruFree (s : State) (x : Ruler) (st : RuStart) : Option Nat :=
  let i := s.rawOf st.time
  let b := if (st.loaded + 4) * 64 ≤ i then i else (st.loaded + 4) * 64
  match x.run with
  | none => some b
  | some r => r.fin.map (fun f => max b f)

/-- The begin of a pending start (R203): nothing while a follower has had no sync. -/
def State.ruBegin (s : State) (u : Nat) (x : Ruler) (st : RuStart) : Option Nat :=
  match s.ruFree x st with
  | none => none
  | some b => if s.ruOn u RUL.CHAIN.SYNC_EN then x.syncs.find? (fun t => decide (b ≤ t)) else some b

/-- Raw unit at which a pending stop acts (R204, R211). -/
def State.ruStopTime (s : State) (p : RuStop) : Nat := max (s.rawOf p.time) p.floor

/-- A stop is pending at or before raw unit `t`. -/
def State.ruStopBy (s : State) (x : Ruler) (t : Nat) : Bool :=
  match x.stop with
  | some p => decide (s.ruStopTime p ≤ t)
  | none => false

/-- A follower's period in progress cut at the new period start `t` (R207). -/
def Ruler.cutAt (x : Ruler) (t : Nat) : Ruler :=
  { x.fullTo t with
    hi := x.hi.endBy t
    lo := { x.lo with edges := x.lo.edges.filter (fun e => !(e.up && t ≤ e.time)) }
    ref := x.ref.map (fun p => (p.1, min p.2 t)) }

/-- The reload of the next period of the run in progress (R199). -/
def State.ruReloadRun (s : State) (u : Nat) (r : RuRun) : State :=
  let x := s.ruler u
  let follow := s.ruOn u RUL.CHAIN.SYNC_EN
  match (if follow then x.syncs.find? (fun t => decide (r.t < t)) else some r.stop) with
  | none => s
  | some t =>
    let rc := t / 64 - 3
    let s := s.advance rc
    let short := follow && decide (t < r.stop)
    let s := if short then s.ruIrq u RUL.IRQ_RAW.SYNC_EARLY else s
    let x := { x with syncs := x.syncs.filter (fun n => decide (t < n)) }
    let x := if short then x.cutAt t else if r.stop < t then { x.cutAt r.stop with ref := none } else x
    if s.ruStopBy x t then
      -- no period whose start lies at or after T_s begins (R204)
      if s.ruOn u RUL.MODE.STOPMODE then s.setRuler u x
      else s.setRuler u { s.ruPlanEnd u (min t r.stop) rc x with run := some { r with fin := some (min t r.stop) } }
    else
      let s := (s.setRuler u x).ruPeriod u t rc r.k
      let r := { r with t := t, stop := t + s.ruF u RUL.PER.V, k := r.k + 1, left := r.left.map (fun n => n - 1) }
      let (s, r) := s.ruAfter u rc r
      s.setRuler u { s.ruler u with run := some r }

/-- The reload of the first period of a pending start (R199, R203). -/
def State.ruReloadFirst (s : State) (u : Nat) (st : RuStart) (b : Nat) : State :=
  let x := s.ruler u
  if s.ruStopBy x b then s
  else
    let rc := b / 64 - 3
    let s := (s.advance rc).setRuler u { x with counted := x.count, ref := none, syncs := x.syncs.filter (fun n => decide (b < n)) }
    let s := s.ruPeriod u b rc 0
    let missed := decide (s.ruFree x st ≠ some (s.rawOf st.time))
    let r : RuRun := {
      t := b, stop := b + s.ruF u RUL.PER.V, k := 1, left := st.n.map (fun n => n - 1), angle := st.angle, missed := missed }
    let (s, r) := s.ruAfter u rc r
    s.setRuler u { s.ruler u with next := some r }

/-- The next reload of unit `u` (R199). -/
def State.ruReload (s : State) (u : Nat) : State :=
  let x := s.ruler u
  if x.st = .halted then s
  else
    let first : State :=
      match x.start, x.next with
      | some st, none => match s.ruBegin u x st with | some b => s.ruReloadFirst u st b | none => s
      | _, _ => s
    match x.run with
    | some r => if r.fin = none then s.ruReloadRun u r else first
    | none => first

/-! ### Placing an edge (R195, R197, R198, R421) -/

/-- A follower's period in progress whose next sync is not known (R207). -/
def State.ruUnsynced (s : State) (u : Nat) (x : Ruler) (r : RuRun) : Bool :=
  s.ruOn u RUL.CHAIN.SYNC_EN && r.fin.isNone && !(x.syncs.any (fun t => decide (r.t < t) && decide (t ≤ r.stop)))

/-- The instant before which LO falls for a pending stop that acts at `t` (R196, R204): the stop's own under STOPMODE 1, the
end T_N that it gives the run under STOPMODE 0 where that is known. -/
def State.ruStopEnd (s : State) (u t : Nat) (r : RuRun) : Option Nat :=
  if s.ruOn u RUL.MODE.STOPMODE then some t
  else if r.fin.isSome then none
  else if t ≤ r.t then some r.t
  else if t ≤ r.stop then some r.stop else none

/-- The edges that the unit works from: those formed; a follower's period without a sync ends as R196 has it (R207); LO
falls before the end that a pending stop brings (R196, R204). -/
def State.ruView (s : State) (u : Nat) (x : Ruler) : Ruler :=
  match x.run with
  | none => x
  | some r =>
    let x := if s.ruUnsynced u x r then { x with hi := x.hi.endBy r.stop, lo := x.lo.endBy (r.stop - s.ruBack u) } else x
    match x.stop.bind (fun p => s.ruStopEnd u (s.ruStopTime p) r) with
    | some t => { x with lo := x.lo.endBy (max (t - s.ruBack u) (s.raw * 64)) }
    | none => x

/-- Those edges with the edges of the next period, as the values in force form them (R421). -/
def State.ruSeen (s : State) (u : Nat) (x : Ruler) : Ruler :=
  let v := s.ruView u x
  match x.run with
  | none => v
  | some r => if r.fin.isSome ∨ s.ruUnsynced u x r ∨ s.ruStopBy x r.stop then v else s.ruForm u r.stop 0 v

/-- Time of the next rise, or fall, of an output, formed or predicted. -/
def State.ruNext (s : State) (u : Nat) (x : Ruler) (hi up : Bool) : Option Nat :=
  let o := (s.ruSeen u x).out hi
  (if up then o.nextRise else o.nextFall).map RuEdge.time

/-- What becomes of the head edge of an output. -/
inductive RuFate where
  /-- The level changes. -/
  | place
  /-- Nothing changes. -/
  | skip
  /-- The fall of an interval whose rise has been moved past it: the interval is dropped. -/
  | orphan (r : RuEdge)
  /-- The edge comes later. -/
  | later (t : Nat)
  /-- The interval that the rise begins is dropped. -/
  | drop
  /-- The interval that the rise begins is stretched to end at `t`. -/
  | stretch (t : Nat)
  /-- The low interval that the fall begins is closed. -/
  | close
  deriving DecidableEq, Repr

/-- The fate of a fall. -/
def State.ruFall (s : State) (u : Nat) (x : Ruler) (hi : Bool) (e : RuEdge) : RuFate :=
  let o := x.out hi
  if !o.lvl then
    match o.edges.find? (fun r => r.up && r.moved && decide (r.orig < e.time)) with
    | some r => .orphan r
    | none => .skip
  else if e.cut then .place
  else if e.time < o.least then .later o.least
  else
    match s.ruNext u x hi true with
    | some r =>
      if r < e.time + s.ruF u RUL.MINP.V ∧ !s.ruHighIn u (s.ruSeen u x) (!hi) e.time r then .close else .place
    | none => .place

/-- The fate of a rise. -/
def State.ruRise (s : State) (u : Nat) (x : Ruler) (hi : Bool) (e : RuEdge) : RuFate :=
  let o := x.out hi
  let p := (s.ruView u x).out !hi
  let d := if hi then s.ruDtr u else s.ruDtf u
  let minp := s.ruF u RUL.MINP.V
  if o.lvl then .skip
  else if p.lvl then
    match p.nextFall with
    | some f => .later (max e.time (f.time + d))
    | none => .skip
  else
    let floor := match p.fall with | some f => f + d | none => 0
    if e.time < floor then .later floor
    else
      match s.ruNext u x hi false with
      | some f =>
        if f < e.time + minp then
          if s.ruOn u RUL.MODE.MINPOL ∧ !e.moved then .stretch (e.time + minp) else .drop
        else .place
      | none => .place

/-- The level of an output changed at `t`; edges before a masked unit's resumption do not show (R208, R209). -/
def Ruler.setLevel (x : Ruler) (hi up : Bool) (t : Nat) : Ruler :=
  let x := match x.resume with
    | some c => if c ≤ t then { x with mask := none, resume := none } else x
    | none => x
  let o := x.out hi
  x.setOut hi { o with
    lvl := up, shown := up && x.mask.isNone
    rise := if up then some t else o.rise, fall := if up then o.fall else some t }

/-- HI's fall after MAXON, at its rise (R197). -/
def State.ruLimit (s : State) (u t : Nat) (hi : Bool) (x : Ruler) : Ruler :=
  let m := s.ruF u RUL.MAXON.V
  if hi ∧ m ≠ 0 then
    x.onEdges true (insEdge { time := t + max m (s.ruF u RUL.MINP.V), up := false, cut := true })
  else x

/-- The edge `e` placed. -/
def State.ruPlace (s : State) (u : Nat) (x : Ruler) (hi : Bool) (e : RuEdge) : State :=
  -- the outputs as they were before the edge: a mask that has ended is gone
  let s0 := match (s.ruler u).resume with
    | some c => if c < e.time then s.setRuler u { s.ruler u with mask := none, resume := none } else s
    | none => s
  let s := s.advance (e.time / 64)
  let x := x.setLevel hi e.up e.time
  if e.up then
    let o := x.out hi
    let x := x.setOut hi { o with least := e.time + s.ruF u RUL.MINP.V }
    s0.ruShow (s.setRuler u (s.ruLimit u e.time hi x)) u e.time
  else
    let x := if hi then x.onEdges true (fun es => es.filter (fun e => !e.cut)) else x
    let s := if e.cut then s.ruIrq u RUL.IRQ_RAW.LIMIT else s
    -- LO follows the barrier from a cut (R197)
    let x := if e.cut then x.onEdges false (insEdge { time := e.time + s.ruDtf u, up := true, cut := true }) else x
    s0.ruShow (s.setRuler u x) u e.time

/-- The head edge of an output is judged and placed, moved or dropped (R195 to R198, R421). -/
def State.ruEdge (s : State) (u : Nat) (hi : Bool) : State :=
  let x := s.ruler u
  let v := s.ruView u x
  match (v.out hi).edges with
  | [] => s
  | e :: _ =>
    -- edges of the unit are taken in order of time
    let behind : Bool := match (v.out !hi).edges with
      | g :: _ => decide (g.time < e.time) || (decide (g.time = e.time) && !g.up && e.up)
      | [] => false
    if x.frozen.isSome ∨ behind then s
    else
      let y := x.onEdges hi (fun es => es.erase e)
      match (if e.up then s.ruRise u y hi e else s.ruFall u y hi e) with
      | .place => s.ruPlace u y hi e
      | .skip => s.setRuler u y
      | .orphan r => (s.ruFiltered u).setRuler u (y.onEdges hi (fun es => es.erase r))
      | .later t =>
        let g := if e.up then e.moveTo t else { e with time := t }
        s.setRuler u ((x.undoing hi (swapEdge e g)).setOut hi ((y.out hi).plan g))
      | .drop => (s.ruFiltered u).setRuler u (y.onEdges hi (cutFirst false))
      | .stretch t =>
        let old := match ((s.ruView u y).out hi).nextFall with | some f => f.time | none => t
        (s.ruFiltered u).ruPlace u ((y.onEdges hi (putOff e.time t)).onEdges (!hi) (delayRise old (t - old))) hi e
      | .close =>
        let z := y.onEdges hi (cutFirst true)
        (s.ruFiltered u).setRuler u (if (y.out hi).nextRise.isSome then z
          else z.setOut hi { z.out hi with shut := some e.time })

/-! ### Starts and stops (R202 to R206) -/

/-- A delivery or a direct load meets the owner rule of R205. -/
def State.ruOwned (s : State) (u : Nat) : Bool :=
  s.holderAt (RUL.OWN.HOLDER.off + pgAt u) ≠ 0 && !s.ruOn u RUL.OWN.TTACC

/-- A start is refused (R205). -/
def State.ruNoStart (s : State) (u : Nat) : Bool :=
  let x := s.ruler u
  x.st = .off || x.st = .faulted || x.st = .halted || x.start.isSome
    || (x.st = .running && (s.ruMode u = ruEdgeMode || s.ruMode u = ruCentre)) || s.ruOwned u

/-- A stop is refused (R205). -/
def State.ruNoStop (s : State) (u : Nat) : Bool := (s.ruler u).st = .off || s.ruOwned u

/-- The flags of a refusal (R205). -/
def State.ruRefused (s : State) (u : Nat) : State :=
  let s' := s.ruIrq u RUL.IRQ_RAW.LOAD_REJ
  if s.ruOwned u then s'.ruIrq u RUL.IRQ_RAW.OWNER_REJ else s'

/-- The number of periods of a run (R194). -/
def State.ruCount (s : State) (u arg : Nat) : Option Nat :=
  if s.ruMode u = ruBurst then some (if arg % 2 ^ 24 = 0 then s.ruF u RUL.BCNT.V else arg % 2 ^ 24)
  else if s.ruMode u = ruOneshot then some 1 else none

/-- A start loaded (R202, R203). -/
def State.ruLoadStart (s : State) (u : Nat) (st : RuStart) : State :=
  let x := s.ruler u
  s.setRuler u { x with start := some st, st := if x.st = .idle then .armed else x.st }

/-- A stop loaded: it replaces a pending one, whose entry is discarded (R204). -/
def State.ruLoadStop (s : State) (u : Nat) (p : RuStop) : State :=
  let s := match (s.ruler u).stop with | some q => s.acted q.src outDiscarded | none => s
  s.setRuler u { s.ruler u with stop := some p }

/-- What a unit does with a delivered entry: action 7 RU_START, 8 RU_STOP. -/
def State.ruDeliver (s : State) (u act due arg : Nat) (src : LoadSrc) (late : Bool) (angle : Option Nat) : State × Bool :=
  if act = 7 then
    if s.ruNoStart u then (s.ruRefused u, false)
    else (s.ruLoadStart u { time := due, n := s.ruCount u arg, src := src, late := late, angle := angle, loaded := s.raw }, true)
  else if s.ruNoStop u then (s.ruRefused u, false)
  else
    let floor := if late then (s.raw + 2) * 64 else 0
    (s.ruLoadStop u { time := due, src := src, floor := floor, angle := angle.isSome }, true)

/-- A unit whose pending start has its first period formed, without that period (R204, R205, R211). -/
def Ruler.unformed (x : Ruler) : Ruler :=
  match x.next with
  | some r =>
    let keep (o : RuOut) : RuOut := { o with edges := o.edges.filter (fun e => decide (e.time < r.t)) }
    { x.fullTo r.t with hi := keep x.hi, lo := keep x.lo, next := none, count := x.counted }
  | none => x

/-- The pending start discarded with outcome `out`. -/
def State.ruDropStart (s : State) (u out : Nat) : State :=
  let x := s.ruler u
  match x.start with
  | none => s
  | some st =>
    (s.acted st.src out).setRuler u { x.unformed with
      start := none, st := if x.st = .armed then .idle else x.st, prior := if x.prior = .armed then .idle else x.prior }

/-- The pending stop discarded with outcome `out`. -/
def State.ruDropStop (s : State) (u out : Nat) : State :=
  let x := s.ruler u
  match x.stop with
  | none => s
  | some p => (s.acted p.src out).setRuler u { x with stop := none }

/-- An output's edges at a stop at once at `t` (R204, STOPMODE 1): a high interval ends at the later of `t` and its rise +
MINP. -/
def RuOut.stopAt (o : RuOut) (t minp : Nat) : RuOut :=
  let e := match o.rise with | some r => max t (r + minp) | none => t
  { o with edges := if o.lvl then [{ time := e, up := false }] else [] }

/-- A run stopped at once at raw unit `t` (R204, STOPMODE 1): it is over, and its outputs finish what they began. -/
def State.ruStopHard (s : State) (u t : Nat) : State :=
  let x := s.ruler u
  match x.run with
  | none => s
  | some r =>
    let minp := s.ruF u RUL.MINP.V
    (s.ruIrq u RUL.IRQ_RAW.DONE).setRuler u { x.fullTo t with
      hi := x.hi.stopAt t minp, lo := x.lo.stopAt t minp, ref := none, undo := none, run := none
      count := if t ≤ r.t then r.k - 1 else r.k
      st := if x.st = .running ∨ x.st = .stopping then .idle else x.st }

/-- A run stopped at raw unit `t` with the period in progress completed (R204, STOPMODE 0). -/
def State.ruStopSoft (s : State) (u t : Nat) : State :=
  let x := s.ruler u
  match x.run with
  | none => s
  | some r =>
    let x := { x with st := if x.st = .running then .stopping else x.st }
    if (match r.fin with | some f => decide (f ≤ r.t) | none => false) then s.setRuler u x
    else if t ≤ r.t then
      -- the period formed last does not begin: its edges are discarded
      let x := x.fullTo r.t
      let (h, l) := x.undo.getD ([], [])
      let keep (es : List RuEdge) : List RuEdge := es.filter (fun e => decide (t ≤ e.time))
      let x := { x with hi := { x.hi with edges := keep h }, lo := { x.lo with edges := keep l }, count := r.k - 1 }
      s.setRuler u { s.ruPlanEnd u r.t s.raw x with run := some { r with fin := some r.t } }
    else if r.fin.isSome then s.setRuler u x
    else s.setRuler u { s.ruPlanEnd u r.stop s.raw x with run := some { r with fin := some r.stop } }

/-- A stop at raw unit `t` under the unit's STOPMODE. -/
def State.ruStopAt (s : State) (u t : Nat) : State :=
  if s.ruOn u RUL.MODE.STOPMODE then s.ruStopHard u t else s.ruStopSoft u t

/-- The pending start has not begun by raw unit `t` (R204). -/
def State.ruNotBegun (s : State) (u t : Nat) : Bool :=
  let x := s.ruler u
  match x.start with
  | none => false
  | some st =>
    match x.next with
    | some r => decide (t ≤ r.t)
    | none => match s.ruBegin u x st with | some b => decide (t ≤ b) | none => true

/-- A stop acts at raw unit `t`: a pending start that has not begun is discarded, and the run ends under STOPMODE (R204). -/
def State.ruStopped (s : State) (u t : Nat) : State :=
  (if s.ruNotBegun u t then s.ruDropStart u outDiscarded else s).ruStopAt u t

/-- The stop instant (R204). -/
def State.ruStopInstant (s : State) (u : Nat) : State :=
  let x := s.ruler u
  match x.stop with
  | none => s
  | some p =>
    if x.st = .halted then s
    else
      let t := s.ruStopTime p
      let s := s.advance (t / 64)
      ((s.setRuler u { x with stop := none }).ruStopped u t).acted p.src outActed

/-- The start instant T_0 (R203): the entry acts, and the run is in progress. -/
def State.ruStartInstant (s : State) (u : Nat) : State :=
  let x := s.ruler u
  match x.start, x.next with
  | some st, some r =>
    if x.run.isSome ∨ x.st = .halted then s
    else
      let s := s.advance (r.t / 64)
      let s := if r.missed then s.ruIrq u RUL.IRQ_RAW.MISSED else s
      let s := s.setRuler u { s.ruler u with start := none, next := none, run := some r, st := .running }
      s.acted st.src outActed
  | _, _ => s

/-- Outputs low and idle at the end of a run at `t`; edges of the next run stay. -/
def RuOut.ended (o : RuOut) (t : Nat) : RuOut :=
  { o with
    edges := o.edges.filter (fun e => decide (t < e.time) || (decide (e.time = t) && e.up))
    lvl := false, shown := false, fall := if o.lvl then some t else o.fall }

/-- The end T_N of the run (R194). -/
def State.ruRunEnd (s : State) (u : Nat) : State :=
  let x := s.ruler u
  match x.run with
  | none => s
  | some r =>
    match r.fin with
    | none => s
    | some t =>
      if x.st = .halted then s
      else
        let s0 := s
        let s := (s.advance (t / 64)).ruIrq u RUL.IRQ_RAW.DONE
        let hi := x.hi.ended t
        let lo := x.lo.ended t
        let clean (o : RuOut) : RuOut := if x.next.isSome then o else { o with edges := [] }
        s0.ruShow (s.setRuler u { x with
          hi := clean hi, lo := clean lo, run := none, ref := if x.next.isSome then x.ref else none
          st := if x.start.isSome then .armed else .idle }) u t

/-! ### Fault input, abort, Debug-halt, steps -/

/-- A unit brought to rest at raw unit `t`: no run, no edges, outputs low. -/
def Ruler.rest (x : Ruler) (t : Nat) : Ruler :=
  let off (o : RuOut) : RuOut := { o with edges := [], lvl := false, shown := false, shut := none }
  { x.fullTo t with run := none, next := none, ref := none, undo := none, hi := off x.hi, lo := off x.lo }

/-- A unit with an active fault input becomes FAULTED where the fault latches (R202, R209); one in Debug-halt is FAULTED
when it leaves it. -/
def State.ruLatch (s : State) (u : Nat) : State :=
  let x := s.ruler u
  let able (t : RulSt) : Bool := t = .idle || t = .armed || t = .running || t = .stopping
  if x.fltIn ∧ s.ruOn u RUL.FLT.LATCH ∧ able (if x.st = .halted then x.prior else x.st) then
    let t := (s.ruDropStart u outDiscarded).ruDropStop u outDiscarded
    let y := (t.ruler u).rest (s.raw * 64)
    s.ruShow (t.setRuler u (if x.st = .halted then { y with prior := .faulted } else { y with st := .faulted })) u (s.raw * 64)
  else s

/-- The fault input goes active (R209). -/
def State.ruFault (s : State) (u : Nat) : State :=
  (((s.ruIrq u RUL.IRQ_RAW.FAULT).bump RUL.CNT_EVT.HI 1 (pgAt u)).setRuler u { s.ruler u with fltIn := true }).ruLatch u

/-- The outputs low until the first period start at least four cycles from now (R208, R209). -/
def State.ruMask (s : State) (u : Nat) : State :=
  let x := s.ruler u
  s.ruShow (s.setRuler u { x with
    mask := some (s.raw + 4), resume := none
    hi := { x.hi with shown := false }, lo := { x.lo with shown := false } }) u (s.raw * 64)

/-- The fault input returns inactive (R209). -/
def State.ruFaultEnd (s : State) (u : Nat) : State :=
  let s := s.setRuler u { s.ruler u with fltIn := false }
  if s.ruOn u RUL.FLT.LATCH then s else s.ruMask u

/-- A unit stopped at once in this cycle, its outputs finishing no more than MINP (R210, R213). -/
def State.ruHalt (s : State) (u : Nat) : State :=
  (s.setRuler u (s.ruler u).unformed).ruStopHard u (s.raw * 64)

/-- The effect of an abort of a unit (R213). -/
def State.rulAbort (s : State) (u : Nat) : State :=
  let s := (s.ruDropStart u outAborted).ruDropStop u outAborted
  let s := s.ruHalt u
  let x := s.ruler u
  let faulted := x.st = .faulted ∨ (x.st = .halted ∧ x.prior = .faulted)
  let s := s.setRuler u { x with st := if x.st = .off then .off else if faulted then .faulted else .idle, frozen := none }
  ((s.setHolder (RUL.OWN.HOLDER.off + pgAt u) 0 0).setF RUL.OWN.TTACC 0 (pgAt u)).ruLatch u

/-- Debug-halt entered (R210). -/
def State.rulFreeze (s : State) (u : Nat) : State :=
  let x := s.ruler u
  if x.st = .off then s
  else if s.ruOn u RUL.CTL.HALTPOL then
    let s := s.ruHalt u
    s.setRuler u { s.ruler u with st := .halted, prior := if x.st = .faulted then .faulted else .idle, frozen := none }
  else s.setRuler u { x.unformed with st := .halted, prior := x.st, frozen := some s.raw }

def RuEdge.later (e : RuEdge) (d : Nat) : RuEdge := { e with time := e.time + d }

def RuOut.later (o : RuOut) (d : Nat) : RuOut :=
  { o with
    edges := o.edges.map (RuEdge.later · d), shut := o.shut.map (· + d)
    rise := o.rise.map (· + d), fall := o.fall.map (· + d), least := o.least + d }

def RuRun.later (r : RuRun) (d : Nat) : RuRun :=
  { r with t := r.t + d, stop := r.stop + d, fin := r.fin.map (· + d) }

/-- Every later edge of a run moved by the `d` units spent halted (R211). -/
def Ruler.later (x : Ruler) (d : Nat) : Ruler :=
  { x with
    run := x.run.map (fun r => r.later d), next := x.next.map (fun r => r.later d), hi := x.hi.later d, lo := x.lo.later d
    ref := x.ref.map (fun p => (p.1 + d, p.2 + d)), full := x.full.map (fun p => (p.1 + d, p.2 + d)), resume := x.resume.map (· + d)
    undo := x.undo.map (fun p => (p.1.map (RuEdge.later · d), p.2.map (RuEdge.later · d))), syncs := x.syncs.map (· + d) }

/-- Pending loads whose instant has passed act from this cycle on (R206, R211); a start only where it passed not before raw
unit `since`: one that waits behind a run begins as it would have. -/
def State.ruPassed (s : State) (u : Nat) (since : RuStart → Bool) : State :=
  let x := s.ruler u
  let start := x.start.map (fun st =>
    if s.rawOf st.time < s.raw * 64 ∧ x.next = none ∧ since st then { st with loaded := s.raw } else st)
  let stop := x.stop.map (fun p => if s.rawOf p.time < s.raw * 64 then { p with floor := max p.floor (s.raw * 64) } else p)
  s.setRuler u { x with start := start, stop := stop }

/-- Debug-halt left (R211). -/
def State.rulThaw (s : State) (u : Nat) : State :=
  let x := s.ruler u
  if x.st ≠ .halted then s
  else
    let x := match x.frozen with | some c => x.later ((s.raw - c) * 64) | none => x
    ((s.setRuler u { x with st := x.prior, frozen := none }).ruPassed u
      (fun st => decide (s.pwr.haltAt * 64 ≤ s.rawOf st.time))).ruLatch u

/-- Units that are not at rest. -/
def State.rulers (s : State) : List Nat := s.rul.map (fun e => e.1)

/-- A step of vehicle time by `d` units (R206). A start that keeps its vehicle time and whose first period is formed is at
another raw instant now: that period is formed anew. -/
def State.stepRulers (s : State) (shift : Bool) (d : Int) : State :=
  s.rulers.foldl (fun s u =>
    let x := s.ruler u
    let kept (st : RuStart) : Bool := st.src = .direct || !(shift || st.angle.isSome)
    let x := if (x.start.map kept).getD false then x.unformed else x
    let start := x.start.map (fun st =>
      if st.src ≠ .direct ∧ (shift ∨ st.angle.isSome) then { st with time := bitsOfInt 64 (st.time + d) } else st)
    let stop := x.stop.map (fun p =>
      if p.src ≠ .direct ∧ (shift ∨ p.angle) then { p with time := bitsOfInt 64 (p.time + d) } else p)
    (s.setRuler u { x with start := start, stop := stop }).ruPassed u
      (fun st => kept st && decide ((s.raw * 64 : Nat) ≤ (s.rawOf st.time : Int) + d))) s

/-! ### Registers that read the state -/

def RulSt.code : RulSt → Nat
  | .off => 0
  | .idle => 1
  | .armed => 2
  | .running => 3
  | .stopping => 4
  | .faulted => 5
  | .halted => 6

/-- The fault force holds the unit's lines (R209), in Debug-halt too. -/
def Ruler.forced (x : Ruler) : Bool := x.fltIn || x.st = .faulted || (x.st = .halted && x.prior = .faulted)

def State.liveRul (s : State) (u o : Nat) (w : Word) : Word :=
  let x := s.ruler u
  let b (v : Bool) (n : Nat) : Nat := if v then 2 ^ n else 0
  -- a frozen grid stands at its entry to Debug-halt (R210)
  let now := (x.frozen.getD s.raw) * 64
  let begun (r : Option RuRun) : Nat := match r with
    | some r => if now < r.t then 1 else 0
    | none => 0
  if o = 0x0C then
    word (b x.fltIn 15 + b (x.forced || s.ruOn u RUL.OVR.FORCE) 14
      + b (s.ruF u RUL.DTR.V < s.ruF u RUL.LIM.MINDT || s.ruF u RUL.DTF.V < s.ruF u RUL.LIM.MINDT) 13
      + b (x.full.any (fun p => decide (p.1 ≤ now) && decide (now < p.2))) 12
      + b x.ovr.isSome 11 + b x.dtf.isSome 10 + b x.dtr.isSome 9 + b x.phase.isSome 8 + b x.duty.isSome 7 + b x.per.isSome 6
      + b x.stop.isSome 5 + b x.start.isSome 4 + x.st.code)
  else if o = 0x74 then (match x.start with | some st => word st.time | none => 0)
  else if o = 0x78 then (match x.start with | some st => word (st.time / 2 ^ 32) | none => 0)
  else if o = 0x88 then
    -- the first period of the next run does not count before it begins
    if x.next.isSome then word (match x.run with | some r => r.k | none => x.counted)
    else word (min (x.count - begun x.run) (2 ^ 32 - 1))
  else if o = 0x8C then
    (match x.run with
    | some r => (match r.left with
      | some n => if s.ruMode u = ruBurst then word (n + 1 + begun x.run) else 0
      | none => 0)
    | none => 0)
  else w

end Sys2Proof.Machine
end

