-- ==== Sys2Proof/Machine/AdcOps.lean ====
section
/-! DEFINITION. The proof ADC (file 09: R216 to R240): correction, filtering, steps and frames, triggers, windows, optical
stamps. Streams and sequencers are numbered 0 A, 1 B, 2 AB; instants are counted in native periods, times `…5` in fifths
of a unit, the unit in which 0.5 ns is a whole number. -/

namespace Sys2Proof.Machine

def State.stream (s : State) (q : Nat) : AdcStream := SMap.get (fun _ => {}) s.adc.streams q
def State.setStream (s : State) (q : Nat) (x : AdcStream) : State :=
  { s with adc := { s.adc with streams := SMap.put (fun _ => {}) s.adc.streams q x } }
def State.sqr (s : State) (q : Nat) : Sequencer := SMap.get (fun _ => {}) s.adc.seqs q
def State.setSqr (s : State) (q : Nat) (x : Sequencer) : State :=
  { s with adc := { s.adc with seqs := SMap.put (fun _ => {}) s.adc.seqs q x } }
def State.win (s : State) (w : Nat) : Window := SMap.get (fun _ => {}) s.adc.wins w
def State.setWin (s : State) (w : Nat) (x : Window) : State :=
  { s with adc := { s.adc with wins := SMap.put (fun _ => {}) s.adc.wins w x } }

/-- Fifths of a unit in a native period (R216). -/
def nat5 (q : Nat) : Nat := if q = 2 then 64 else 128
/-- Slices of a stream (R216). -/
def slices (q : Nat) : Nat := if q = 2 then 8 else 4
/-- The first instant at or after a time in fifths. -/
def instantAt (q t5 : Nat) : Nat := (t5 + nat5 q - 1) / nat5 q
/-- The raw cycle that contains an instant. -/
def instantCycle (q i : Nat) : Nat := i * nat5 q / 320

/-- Sequencer `q` exists under PAIR and its converters are enabled (R225). -/
def State.sqReady (s : State) (q : Nat) : Bool :=
  if s.on ADC.CTL.PAIR then q = 2 && s.on ADC.CTL.EN_A && s.on ADC.CTL.EN_B
  else (q = 0 && s.on ADC.CTL.EN_A) || (q = 1 && s.on ADC.CTL.EN_B)

/-- Modes in which sequences run (table of blocks by mode). -/
def Mode.sequences : Mode → Bool
  | .run => true
  | .holdover => true
  | .standby => true
  | .halt => true
  | .factory => true
  | _ => false

/-! ### Mismatch correction (R221, R222) -/

/-- The stream whose epoch and flag a sequencer uses: AB uses A's. -/
def epochOf (q : Nat) : Nat := if q = 1 then 1 else 0

/-- The estimates of slice `i`. -/
def sliceAt (m : SMap Slice) (i : Nat) : Slice := SMap.get (fun _ => {}) m i

/-- One sample of a block, with the samples before and after it (R221). -/
def mmcAdd (m : SMap MmcSum) (i : Nat) (a x b : Int) : SMap MmcSum :=
  let y := SMap.get (fun _ => {}) m i
  SMap.put (fun _ => {}) m i { m := y.m + x, p := y.p + (x * x).toNat, r := y.r + x * (b - a), c := y.c + 1 }

/-- The common mean and mean square of a block (R221). -/
def mmcMean (m : SMap MmcSum) (n : Nat) : F64 × F64 :=
  let at_ (i : Nat) : MmcSum := SMap.get (fun _ => {}) m i
  let ks := List.range n
  let avg (i : Nat) : F64 := (F64.ofInt (at_ i).m).div (F64.ofInt (at_ i).c)
  let mall := ks.foldl (fun a i => a.add ((avg i).div (F64.ofInt n))) ({} : F64)
  let pall := ks.foldl (fun a i =>
    a.add ((((F64.ofInt (at_ i).p).div (F64.ofInt (at_ i).c)).sub (mall.mul mall)).div (F64.ofInt n))) ({} : F64)
  (mall, pall)

/-- The greatest skew, 0.05 native periods (R221). -/
def skewMax : F64 := F64.ofRatio 1 20

/-- A slice's estimates after a block (R221); the flag tells that the skew was clamped. -/
def mmcSlice (e : Slice) (y : MmcSum) (mall pall mu slope : F64) : Slice × Bool :=
  let c := F64.ofInt y.c
  let mi := (F64.ofInt y.m).div c
  let pi := ((F64.ofInt y.p).div c).sub (mi.mul mi)
  let off := e.off.add (mu.mul (mi.sub mall))
  let one := F64.ofInt 1
  let gain := e.gain.mul (one.sub (mu.mul (((pi.div pall).sqrt).sub one)))
  let ri := (F64.ofInt y.r).scalb (-1)
  let skew := e.skew.add (((mu.mul ri).div c).div (slope.add (F64.ofRatio 1 1000000000)))
  if skewMax.lt skew.abs then ({ off := off, gain := gain, skew := skewMax.copysign skew }, true)
  else ({ off := off, gain := gain, skew := skew }, false)

/-- The estimates of stream `q` updated from a whole block, or frozen (R221). -/
def State.mmcBlock (s : State) (q : Nat) : State :=
  let x := s.stream q
  match x.ready with
  | none => s
  | some (m, slope4) =>
    let s := s.setStream q { x with ready := none }
    let n := slices q
    let (mall, pall) := mmcMean m n
    let e := epochOf q
    let was := (s.stream e).frozen
    if pall.sqrt.lt (F64.ofInt (s.f ADC.MMC.ACT)) then
      let s := s.setStream e { s.stream e with frozen := true }
      if was then s else s.set1 ADC.IRQ_RAW.MMC_FROZEN
    else
      let mu := (F64.ofInt 1).scalb (-(s.f ADC.MMC.MU : Int))
      let slope := ((F64.ofInt slope4).scalb (-2)).div (F64.ofInt (4096 * n - 2))
      let upd := (List.range n).map (fun i => (i, mmcSlice (sliceAt x.est i) (SMap.get (fun _ => {}) m i) mall pall mu slope))
      let s := s.setStream q { s.stream q with
        est := upd.foldl (fun a p => SMap.put (fun _ => {}) a p.1 p.2.1) x.est }
      let s := s.setStream e { s.stream e with frozen := false }
      if upd.any (fun p => p.2.2) then s.set1 ADC.IRQ_RAW.MMC_RANGE else s

/-- The estimates come into force at the first sample of a sequence; a difference advances the epoch; with MMC_EN = 0 those
in force stay (R222). -/
def State.mmcForce (s : State) (q : Nat) : State :=
  let x := s.stream q
  if !s.on ADC.CTL.MMC_EN ∨ x.est = x.force then s
  else
    let s := s.setStream q { x with force := x.est }
    let e := epochOf q
    s.setStream e { s.stream e with epoch := ((s.stream e).epoch + 1) % 16 }

/-! ### Optical stamps (R233 to R237) -/

/-- A signed 12-bit threshold. -/
def State.thr (s : State) (c : Nat) : Int := signedOf 12 (s.f ADC.OCFG.THR (32 * c))

/-- The reference of a crossing (R237): the latest edge of its direction at or before it, no more than WIN before. -/
def State.refEdge (s : State) (c : Nat) (x : Crossing) : Option Nat :=
  let y := s.chan c
  ((if x.rising then y.rises else y.falls).filter (fun u =>
    decide (u ≤ x.time) && decide (x.time ≤ u + s.f ADC.OCHK.WIN (32 * c)))).foldl
      (fun a u => some (match a with | none => u | some v => max u v)) none

/-- The check of a crossing: delay, check code, NOREF (R237). -/
def State.optCheck (s : State) (c : Nat) (x : Crossing) : Int × Nat × Bool :=
  if !s.on ADC.OCHK.CHK_EN (32 * c) then (0, 0, false)
  else
    match s.refEdge c x with
    | none => (0, 2, true)
    | some u =>
      let d : Int := (x.time : Int) - u
      let e : Int := if x.rising then s.f ADC.OEXPR.EXP_R (32 * c) else s.f ADC.OEXPF.EXP_F (32 * c)
      let t : Int := if x.rising then s.f ADC.OEXPR.TOL_R (32 * c) else s.f ADC.OEXPF.TOL_F (32 * c)
      (d, if d < e - t then 2 else if e + t < d then 3 else 1, false)

/-- A crossing recorded (R236, R237): its record is on its way to the channel's FIFO, its check is counted. -/
def State.optRecord (s : State) (c : Nat) (x : Crossing) (unconf : Bool) : State :=
  let y := s.chan c
  let (d, chk, noref) := s.optCheck c x
  let b (v : Bool) (n : Nat) : Nat := if v then 2 ^ n else 0
  let bits := s.stampVt x.time % 2 ^ 64 + (c + x.step * 16) * 2 ^ 64
    + (b x.rising 7 + b x.interp 6 + x.epoch % 16 * 4 + b (s.on ADC.OCFG.MODE (32 * c)) 0) * 2 ^ 72
    + y.seq % 2 ^ 16 * 2 ^ 80 + bitsOfInt 16 (max (-32767) (min 32767 d)) * 2 ^ 96
    + (chk + b noref 2 + b unconf 3) * 2 ^ 112 + x.seq % 256 * 2 ^ 120
  let s := s.setChan c { y with seq := (y.seq + 1) % 65536, formed := y.formed ++ [{ bits := bits }] }
  if chk = 0 then s
  else if chk = 1 then s.bump ADC.OCNT.PASS 1 (32 * c)
  else ((s.bump ADC.OCNT.FAIL 1 (32 * c)).set1 ADC.IRQ_RAW.OS_FAIL).fault 0x05

/-- Bits that an overflow mark adds to a record. -/
def OptRec.encode (r : OptRec) : Nat := r.bits + (if r.ovf then 2 ^ 73 else 0)

/-- The oldest record formed enters the channel's FIFO, or is lost where eight are held; the event signals (R236). -/
def State.optEnter (s : State) (c : Nat) : State :=
  let y := s.chan c
  match y.formed with
  | [] => s
  | r :: rest =>
    let s :=
      if 8 ≤ y.fifo.length then
        ((s.setChan c { y with formed := rest, ovf := true }).bump ADC.OLOST.V 1 (32 * c)).set1 ADC.IRQ_RAW.OS_LOST
      else s.setChan c { y with formed := rest, fifo := y.fifo ++ [{ r with ovf := y.ovf }], ovf := false }
    if 8 ≤ y.fifo.length then s
    else s.signal 4 c ({ r with ovf := y.ovf }.encode / 2 ^ 64 % 2 ^ 32) (r.bits % 2 ^ 64)

/-- The crossing of threshold `thr` between two samples (R234): raw units, less the input's delay (R218). -/
def crossTime (t0 t1 : Nat) (x0 x1 thr : Int) (dly : Int) : Nat :=
  let num := (thr - x0).natAbs * (t1 - t0)
  let den := (x1 - x0).natAbs
  let u := (2 * (t0 * den + num) + 5 * den) / (10 * den)
  ((u : Int) - dly).toNat

/-- What a sample does in a channel (R233, R235): the channel after it, a crossing recorded, whether the sample is marked. -/
structure OptStep where
  chan : OptChan
  record : Option Crossing := none
  mark : Bool := false
  deriving DecidableEq, Repr

/-- A sample that a channel does not take: it breaks adjacency (R233). -/
def OptChan.broken (y : OptChan) : OptChan := { y with last := none, lows := 0 }

/-- A valid sample `v` at `t5` reaches a channel. -/
def State.optSample (s : State) (c : Nat) (v : Int) (bad : Bool) (t5 : Nat) (st : StepRun) : OptStep :=
  let y := s.chan c
  let thr := s.thr c
  let f := thr - s.f ADC.OCFG.HYS (32 * c)
  let edges := s.f ADC.OCFG.EDGES (32 * c)
  let env := s.on ADC.OCFG.MODE (32 * c)
  let quiet := s.f ADC.OQUIET.V (32 * c)
  let dly := signedOf 10 (s.f ADC.INDLY.V (4 * st.input))
  let next : Option (Int × Nat × Bool) := some (v, t5, bad)
  let cross (rising : Bool) (x0 : Int) (t0 : Nat) (b0 : Bool) : Crossing :=
    { time := crossTime t0 t5 x0 v (if rising then thr else f) dly, rising := rising, interp := !(b0 || bad)
      step := st.k, seq := st.seq, epoch := st.epoch }
  let settleLow (y : OptChan) : OptStep :=
    let y := { y with lows := y.lows + 1 }
    -- the most recent fall is recorded once QUIET low samples have followed it
    match y.fall with
    | some x => if y.lows = quiet then { chan := { y with fall := none }, record := some x } else { chan := y }
    | none => { chan := y }
  match y.high with
  | none =>
    if thr ≤ v then { chan := { y with high := some true, last := next, lows := 0 } }
    else settleLow { y with high := some false, last := next }
  | some hi =>
    match y.last with
    | none => if hi then { chan := { y with last := next, lows := 0 } } else settleLow { y with last := next }
    | some (x0, t0, b0) =>
      let y' := { y with last := next }
      if !hi ∧ x0 < thr ∧ thr ≤ v then
        let take : Bool := edges % 2 = 1 && (!env || quiet ≤ y.lows)
        { chan := { y' with high := some true, lows := 0, fall := none }
          record := if take then some (cross true x0 t0 b0) else none, mark := take }
      else if hi ∧ f ≤ x0 ∧ v < f then
        let sel : Bool := 2 ≤ edges
        let y' := { y' with high := some false, lows := 0 }
        if !sel then settleLow y'
        else if env then { settleLow { y' with fall := some (cross false x0 t0 b0) } with mark := true }
        else { settleLow y' with record := some (cross false x0 t0 b0), mark := true }
      else if hi then { chan := { y' with lows := 0 } }
      else settleLow y'

/-! ### Samples of a step (R219, R220, R223, R224) -/

/-- Instants from an output sample's own to the last that its filter uses: the centre is the middle tap. -/
def State.filtAfter (s : State) (f : Nat) : Nat :=
  if f = 0 then 0 else ((SMap.get (fun _ => {}) s.stores.filt f).coef.length - 1) / 2

/-- A raw code corrected (R221), with those after and before it: `y = gain (x - off) - skew (b - a) / 2`; and its rail mark. -/
def correct (e : Slice) (b x : Int) (a : Option Int) : F64 × Bool :=
  let v := e.gain.mul ((F64.ofInt x).sub e.off)
  let v := match a with
    | some a => v.sub ((e.skew.mul (F64.ofInt (b - a))).scalb (-1))
    | none => v
  (v, decide (x ≤ -2048) || decide (2047 ≤ x))

/-- The corrected samples of `n` instants back from `i`, newest first: `raws` begins with the code after instant `i`. -/
def corrected (force : SMap Slice) (m : Nat) : Nat → Nat → List Int → List (F64 × Bool)
  | n + 1, i, b :: x :: rest => correct (sliceAt force (i % m)) b x rest.head? :: corrected force m n (i - 1) (x :: rest)
  | _, _, _ => []

/-- The value that filter `f` makes at an instant, and its rail mark: every input sample is corrected with the estimates of
the step's own sequence (R222). -/
def State.filtered (s : State) (q : Nat) (x : StepRun) (j : Nat) : F64 × Bool :=
  let st := s.stream q
  let last := j + s.filtAfter x.filt
  let raws := st.raws.drop (st.idx - 2 - last)
  if x.filt = 0 then (corrected x.force (slices q) 1 last raws).headD ({}, false)
  else
    let coef := (SMap.get (fun _ => ({} : Filter)) s.stores.filt x.filt).coef
    let span := corrected x.force (slices q) coef.length last raws
    ((((coef.zip span).foldl (fun a p => a.add ((F64.ofInt p.1).mul p.2.1)) ({} : F64)).scalb (-17)), span.any (fun p => p.2))

/-- A value rounded to a code (R219): to one of its neighbours where it is no whole number, which the manual leaves open
(a free value), then clamped. -/
def State.toCode (s : State) (y : F64) : State × Int × Bool :=
  let lo := y.floor
  let whole := (F64.ofInt lo).sub y = {}
  let r : Int := if whole then lo else lo + ((s.drawn % 2 : Nat) : Int)
  let s := if whole then s else s.draw
  (s, max (-2048) (min 2047 r), decide (r < -2048) || decide (2047 < r))

/-- One output sample of step `x`, whose value is `v`. -/
def State.sample (s : State) (q : Nat) (x : StepRun) (v : Int) (ovr clamped : Bool) : State × StepRun :=
  let t5 := (x.first + x.made * x.dec) * nat5 q
  let valid := decide (x.settle ≤ x.made)
  let (s, crossed) : State × Bool :=
    match x.chan with
    | none => (s, false)
    | some c =>
      if !s.on ADC.OCFG.EN (32 * c) then (s.setChan c (s.chan c).broken, false)
      else if valid then
        let o := s.optSample c v (ovr || clamped) t5 x
        let s := s.setChan c o.chan
        match o.record with
        | some r => (s.optRecord c r false, o.mark)
        | none => (s, o.mark)
      else (s.setChan c (s.chan c).broken, false)
  let mark := if x.made = x.settle ∧ x.settle ≠ 0 then 1 else if crossed then 3
    else if x.made = 0 ∧ x.settle = 0 then 2 else 0
  let w := bitsOfInt 12 v * 16 + (if ovr then 8 else 0) + (if valid then 4 else 0) + mark
  let s := if ovr then s.set1 ADC.IRQ_RAW.OVR else s
  let y := { x with made := x.made + 1, ovr := x.ovr || ovr, words := if x.win.isSome then w :: x.words else [] }
  if valid then
    let top : Int := 2 ^ 31 - 1
    (s, { y with
      min := some (match x.min with | some m => min m v | none => v)
      max := some (match x.max with | some m => max m v | none => v)
      sum := max (-top - 1) (min top (x.sum + v)) })
  else (s, y)

/-- The samples of a step whose instants the stream has reached; at most `n` are made. -/
def State.makeSamples (s : State) (q : Nat) : Nat → StepRun → State × StepRun
  | 0, x => (s, x)
  | n + 1, x =>
    let st := s.stream q
    let j := x.first + x.made * x.dec
    -- the newest corrected instant is two before the next raw one
    if x.made < x.len ∧ j + s.filtAfter x.filt + 2 ≤ st.idx then
      let (y, ovr) := s.filtered q x j
      let (s, v, cl) := s.toCode y
      let (s, x) := s.sample q x v ovr cl
      s.makeSamples q n x
    else (s, x)

/-! ### Frames (R230) -/

/-- Words of a number of 32-bit words, low first. -/
def wordsOf : Nat → Nat → List Word
  | 0, _ => []
  | n + 1, v => word v :: wordsOf n (v / 2 ^ 32)

/-- Sample words paired into 32-bit words. -/
def pairUp : List Nat → List Word
  | [] => []
  | [a] => [word a]
  | a :: b :: xs => word (a + b * 2 ^ 16) :: pairUp xs

def StepRun.header (x : StepRun) (q : Nat) : Nat :=
  let b (v : Bool) (n : Nat) : Nat := if v then 2 ^ n else 0
  let n := x.made
  x.g % 2 ^ 64 + x.seq % 2 ^ 32 * 2 ^ 64
    + (x.k + q * 16 + b x.trunc 6 + b x.before 7) * 2 ^ 96
    + (x.input + x.gain * 8 + b x.late 5 + b x.trig 6 + b x.ovr 7) * 2 ^ 104
    + (x.epoch + x.filt * 16) * 2 ^ 112 + (x.sub + x.dec.log2 * 16) * 2 ^ 120
    + n % 2 ^ 24 * 2 ^ 128 + x.num % 256 * 2 ^ 152 + x.tag % 2 ^ 22 * 2 ^ 160
    + bitsOfInt 16 (x.min.getD 0) * 2 ^ 192 + bitsOfInt 16 (x.max.getD 0) * 2 ^ 208 + bitsOfInt 32 x.sum * 2 ^ 224

/-- A word of the ADC buffer written. -/
def State.adcPut (s : State) (i : Nat) (v : Word) : State :=
  ({ s with mem := { s.mem with adcBuf := SMap.put (fun _ => 0) s.mem.adcBuf i v } }.touch stAdc).setEcc stAdc i 0

/-- Words written into a window's ring from unit `u` on. -/
def State.winPut (s : State) (x : Window) (u : Nat) (ws : List Word) : State :=
  (ws.zipIdx).foldl (fun s p => s.adcPut (x.base * 256 + (u * 8 + p.2) % (x.size * 256)) p.1) s

/-- A step's frame closed: its header is written, and WP advances past it. -/
def State.closeFrame (s : State) (q : Nat) (x : StepRun) : State :=
  match x.win with
  | none => s
  | some w =>
    let y := s.win w
    let units := (32 + 2 * x.made + 31) / 32
    let body := pairUp x.words.reverse
    let pad := List.replicate (units * 8 - 8 - body.length) (0 : Word)
    let s := s.winPut y y.wp (wordsOf 8 (x.header q) ++ body ++ pad)
    let s := s.setWin w { y with wp := (y.wp + units) % (y.size * 32), held := y.held - x.units }
    { s with adc := { s.adc with frames := s.adc.frames ++ [(w, y.wp, units)] } }

/-! ### Running a sequence (R223, R227, R228) -/

/-- Byte distance of step `n`'s registers. -/
abbrev stepAt (n : Nat) : Nat := 8 * n

/-- DELAY of step `k` of a sequence. -/
def State.delayOf (s : State) (n : Nat) : Nat := s.f ADC.STEP0.DELAY (stepAt (n % 64))

/-- Samples with VALID = 0 at the head of a step with these settings (R220). -/
def State.settleOf (s : State) (q input gain filt : Nat) : Nat :=
  let flen := (SMap.get (fun _ => ({} : Filter)) s.stores.filt filt).flen + 8
  match (s.stream q).last with
  | none => max 64 flen
  | some (i, g, f) => max (if i ≠ input then 32 else 0) (max (if g ≠ gain then 64 else 0) (if f ≠ filt then flen else 0))

/-- A frame admitted to window `w`, or lost (R230). -/
def State.grantWindow (s : State) (x : StepRun) (w : Nat) : State × StepRun :=
  let y := s.win w
  let units := (32 + 2 * x.len + 31) / 32
  let ring := y.size * 32
  let used := (y.wp + ring - y.rp) % ring + y.held
  if y.alloc ∧ y.moving = none ∧ used + units + 1 ≤ ring then
    (s.setWin w { y with num := y.num + 1, ovf := false, held := y.held + units }
      , { x with win := some w, units := units, num := y.num, before := y.ovf })
  else
    let s := s.setWin w { y with num := y.num + 1, ovf := true }
    ((s.bump ADC.CNT_EVT.HI).set1 ADC.IRQ_RAW.FRAME_LOST, x)

/-- The step that comes next begins at its instant: its fields are latched, its frame opens (R223, R230). -/
def State.stepBegin (s : State) (q : Nat) (r : SeqRun) : State :=
  let s := s.advance (instantCycle q r.start)
  let s := if r.k = 0 then s.mmcForce q else s
  let n := stepAt ((r.first + r.k) % 64)
  let input := s.f ADC.STEP0.INPUT n
  let gain := s.f ADC.STEP0.GAIN n
  let filt := s.f ADC.STEP0.FILT n
  let flt := SMap.get (fun _ => ({} : Filter)) s.stores.filt filt
  let dec := if filt = 0 then 2 ^ s.f ADC.STEP0.DEC n else 2 ^ flt.logd
  let chan := if s.on ADC.STEP0.OS_EN n then some (s.f ADC.STEP0.OSCH n) else none
  let grid := r.start * nat5 q / 640 * 128
  -- a frame begun at or after the last step uses the new scale (R238)
  let old : Bool := match s.tbu.lastStep with | some k => decide (r.start * nat5 q < k * 5) | none => true
  let gvt := if old then s.stampVt grid else s.vtAt grid
  let x : StepRun := {
    k := r.k, first := r.start, dec := dec, len := s.f ADC.STEP1.LEN n, settle := s.settleOf q input gain filt
    filt := filt, chan := chan, force := (s.stream q).force, win := none, input := input, gain := gain
    g := bitsOfInt 64 ((gvt : Int) - signedOf 10 (s.f ADC.INDLY.V (4 * input)))
    sub := r.start % (if q = 2 then 10 else 5), late := r.late, trig := r.trig, tag := r.tag
    epoch := (s.stream (epochOf q)).epoch, seq := r.num }
  let (s, x) := if s.on ADC.STEP0.WIN_EN n then s.grantWindow x (s.f ADC.STEP0.WIN n) else (s, x)
  let s := match chan with
    | some c =>
      -- a sequence whose last samples are to come ends its channels after them
      if r.k ≠ 0 ∧ r.prevChan = some c ∨ (s.sqr q).tails.any (fun t => t.chans.contains c) then s
      else s.setChan c { s.chan c with high := none, last := none, lows := 0, fall := none }
    | none => s
  let st := s.stream q
  -- the samples of the step are the stream's from its begin on
  let st := if st.idx < r.start then { st with idx := r.start, raws := [], n := 0, sums := [], slope := 0 } else st
  let s := s.setStream q { st with last := some (input, gain, filt) }
  let (s, x) := if (s.sqr q).tails = [] then s.makeSamples q 300 x else (s, x)
  s.setSqr q { s.sqr q with run := some { r with
    step := some x, chans := (match chan with | some c => c :: r.chans | none => r.chans), prevChan := chan } }

/-- The unconfirmed falls of a sequence's channels recorded, the channels reset (R233, R235). -/
def State.endChans (s : State) (cs : List Nat) (records : Bool) : State :=
  cs.eraseDups.foldl (fun s c =>
    let s := match (s.chan c).fall with
      | some x => if records then s.optRecord c x true else s
      | none => s
    s.setChan c { s.chan c with high := none, last := none, lows := 0, fall := none }) s

/-- Sequence `n` started on sequencer `q` by trigger `t`, its step 0 counted from `base5` (R223, R226, R228). -/
def State.seqStart (s : State) (q : Nat) (t : AdcTrig) (base5 : Nat) (late : Bool) : State :=
  let first := s.f ADC.SEQDEF.FIRST (4 * t.seq)
  let i := instantAt q (base5 + s.delayOf first * nat5 q)
  let soon := (t.known + 4) * 320
  let tooSoon := t.input.isSome && decide (i * nat5 q < soon)
  let x := s.sqr q
  let num := (x.num + 1) % 2 ^ 32
  s.setSqr q { x with num := num, run := some {
    first := first, count := s.f ADC.SEQDEF.COUNT (4 * t.seq) + 1
    start := if tooSoon then instantAt q soon else i
    tag := t.tag, trig := t.input.isSome, late := late || tooSoon, num := num } }

/-- The next queued trigger begins at the later of its own time and the end `end5` of the sequence before it (R227). -/
def State.seqNext (s : State) (q end5 : Nat) : State :=
  let x := s.sqr q
  match x.queue with
  | [] => s
  | t :: rest =>
    let missed := decide (t.time * 5 < end5)
    let s := s.setSqr q { x with queue := rest }
    let s := if missed then s.set1 ADC.IRQ_RAW.MISSED else s
    s.seqStart q t (max (t.time * 5) end5) missed

/-- The end of a sequence at `end5` (R148, R228). DESIGN CHOICE (entry 42): the time signalled is the nearest unit. -/
def State.seqEnd (s : State) (q : Nat) (r : SeqRun) (end5 : Nat) : State :=
  let s := (s.set1 ADC.IRQ_RAW.SEQ_END).setSqr q { s.sqr q with run := none }
  s.signal 5 q r.num (s.stampVt ((2 * end5 + 5) / 10))

/-- The sequence is running (R227): its step 0 has begun. -/
def SeqRun.begun (r : SeqRun) : Bool := r.k ≠ 0 || r.step.isSome

def Sequencer.running (x : Sequencer) : Bool := match x.run with | some r => r.begun | none => false

/-- A step ends at the instant after its last sample (R223): its frame is closed, the next step or sequence comes. -/
def State.stepEnd (s : State) (q : Nat) : State :=
  let x := s.sqr q
  match x.run with
  | none => s
  | some r =>
    match r.step with
    | none => s
    | some st =>
      if st.made < st.len then s
      else
        let fin := st.first + st.len * st.dec
        let s := (s.advance (instantCycle q fin)).closeFrame q st
        if r.k + 1 < r.count then
          s.setSqr q { s.sqr q with run := some { r with
            k := r.k + 1, step := none, start := fin + s.delayOf (r.first + r.k + 1) } }
        else ((s.endChans r.chans true).seqEnd q r (fin * nat5 q)).seqNext q (fin * nat5 q)

/-! ### Triggers (R225 to R227) -/

/-- A trigger that a sequencer may accept next: a load or a trigger presented, with its time and its rank (R227). -/
def State.nextTrig (s : State) (q : Nat) : Option (AdcTrig × Option AdcLoad) :=
  let x := s.sqr q
  let loads : List (AdcTrig × Option AdcLoad) :=
    x.loads.map (fun l => ({ time := max (s.rawOf l.time) l.floor, seq := l.seq, tag := l.tag }, some l))
  let rank (t : AdcTrig) : Nat := match t.input with | none => 0 | some n => n + 1
  let before (a b : AdcTrig) : Bool := decide (a.time < b.time) || (decide (a.time = b.time) && decide (rank a < rank b))
  (loads ++ x.given.map (fun t => (t, none))).foldl (fun (a : Option (AdcTrig × Option AdcLoad)) p =>
    match a with
    | none => some p
    | some m => if before p.1 m.1 then some p else some m) none

/-- SQPOL of a sequencer. -/
def State.sqpol (s : State) (q : Nat) : Nat :=
  if q = 0 then s.f ADC.SQPOL.A else if q = 1 then s.f ADC.SQPOL.B else s.f ADC.SQPOL.AB

/-- The running sequence is known to have ended by raw unit `t` (R227). -/
def SeqRun.over (r : SeqRun) (q t : Nat) : Bool :=
  match r.step with
  | some x => decide (r.k + 1 = r.count) && decide ((x.first + x.len * x.dec) * nat5 q ≤ t * 5)
  | none => false

/-- The step in progress cut at raw unit `t` (R227): the samples before it are kept, and its frame carries TRUNC. -/
def StepRun.cut (x : StepRun) (q t : Nat) : StepRun :=
  let n := (t * 5 - x.first * nat5 q + x.dec * nat5 q - 1) / (x.dec * nat5 q)
  { x with len := Nat.min x.len n, trunc := true }

/-- A step without the samples made beyond its length: the features are those of the samples kept (R227, R230). -/
def StepRun.kept (x : StepRun) : StepRun :=
  if x.made ≤ x.len then x
  else
    let ws := x.words.drop (x.made - x.len)
    let codes := (ws.reverse.filter (fun w => bitsAt w 2 1 = 1)).map (fun w => signedOf 12 (w / 16))
    let top : Int := 2 ^ 31 - 1
    { x with
      made := x.len, words := ws, ovr := ws.any (fun w => bitsAt w 3 1 = 1)
      min := codes.foldl (fun m v => some (match m with | some m => Min.min m v | none => v)) none
      max := codes.foldl (fun m v => some (match m with | some m => Max.max m v | none => v)) none
      sum := codes.foldl (fun a v => Max.max (-top - 1) (Min.min top (a + v))) 0 }

/-- The last step of an ended sequence whose samples are made is closed, and the sequence's channels end (R233, R235). -/
def State.closeTail (s : State) (q : Nat) (t : Tail) : State := (s.closeFrame q t.step.kept).endChans t.chans true

/-- The last step of an ended sequence: closed where its samples are made, else one of the sequencer's tails. -/
def State.keepTail (s : State) (q : Nat) (t : Tail) : State :=
  if t.step.len ≤ t.step.made then s.closeTail q t
  else s.setSqr q { s.sqr q with tails := (s.sqr q).tails ++ [t] }

/-- Samples of up to `n` tails made, oldest first; those whose samples are all made close. -/
def State.tailSamples (q : Nat) : Nat → State → State
  | 0, s => s
  | n + 1, s =>
    match (s.sqr q).tails with
    | [] => s
    | t :: rest =>
      let (s, x) := s.makeSamples q 300 t.step
      let t := { t with step := x }
      if x.len ≤ x.made then ((s.setSqr q { s.sqr q with tails := rest }).closeTail q t).tailSamples q n
      else s.setSqr q { s.sqr q with tails := t :: rest }

/-- A trigger meets a running sequence (R227). -/
def State.meet (s : State) (q : Nat) (t : AdcTrig) (r : SeqRun) : State :=
  let x := s.sqr q
  let dropped (s : State) : State := (s.bump ADC.CNT_EVT.LO).set1 ADC.IRQ_RAW.DROPPED
  if s.sqpol q = 1 then dropped s
  else if s.sqpol q = 2 then
    let s := match r.step with
      | some y => s.keepTail q { step := y.cut q t.time, chans := r.chans }
      | none => s.endChans r.chans true
    (s.seqEnd q r (t.time * 5)).seqStart q t (t.time * 5) false
  else if 4 ≤ x.queue.length then (dropped s).set1 ADC.IRQ_RAW.QOVF
  else s.setSqr q { x with queue := x.queue ++ [t] }

/-- The running sequence has ended by a trigger's time: its last step leaves its samples to come, and the queue goes on
(R227). -/
def State.seqOver (s : State) (q : Nat) (r : SeqRun) : State :=
  match r.step with
  | none => s
  | some x =>
    let end5 := (x.first + x.len * x.dec) * nat5 q
    ((s.keepTail q { step := x, chans := r.chans }).seqEnd q r end5).seqNext q end5

/-- A sequencer accepts its next trigger (R225 to R227); an entry acts then. -/
def State.adcAccept (s : State) (q : Nat) : State :=
  match s.nextTrig q with
  | none => s
  | some (t, l) =>
    let s := s.advance (match l with | some _ => t.time / 64 | none => t.known)
    let x := s.sqr q
    let s := match l with
      | some l => (s.setSqr q { x with loads := x.loads.erase l }).acted l.src outActed
      | none => s.setSqr q { x with given := x.given.erase t }
    let t := { t with known := s.raw }
    if !s.on ADC.SEQDEF.VALID (4 * t.seq) ∨ !s.sqReady q then s
    else
      let s := match (s.sqr q).run with
        | some r => if r.over q t.time then s.seqOver q r else s
        | none => s
      match (s.sqr q).run with
      | none => s.seqStart q t (t.time * 5) false
      | some r => s.meet q t r

/-- A load entered in order of start. -/
def insLoad (l : AdcLoad) : List AdcLoad → List AdcLoad
  | [] => [l]
  | x :: xs => if 0 ≤ vtDiff l.time x.time then x :: insLoad l xs else l :: x :: xs

/-- What the ADC does with a delivered ADC_SEQ entry (R225). -/
def State.adcDeliver (s : State) (q due arg : Nat) (src : LoadSrc) (late angle : Bool) : State × Bool :=
  let x := s.sqr q
  if !s.sqReady q ∨ !s.on ADC.SEQDEF.VALID (4 * (arg % 16)) ∨ arg / 16 % 16 ≠ 0 ∨ 8 ≤ x.loads.length then
    (s.set1 ADC.IRQ_RAW.LOAD_REJ, false)
  else
    let l : AdcLoad := {
      time := due, seq := arg % 16, tag := arg / 256 % 2 ^ 22, src := src, angle := angle
      floor := if late then (s.raw + 2) * 64 else 0 }
    (s.setSqr q { x with loads := insLoad l x.loads }, true)

/-- A trigger of input `n` at raw unit `t` presented to its sequencer, which knows it in raw cycle `known` (R226). -/
def State.adcPresent (s : State) (n t known : Nat) : State :=
  let o := 4 * n
  let q := s.f ADC.TG.SQ o
  let x := s.sqr q
  if s.mode.sequences then
    s.setSqr q { x with given := x.given ++ [{ time := t, seq := s.f ADC.TG.SEQ o, tag := n, input := some n, known := known }] }
  else s

/-! ### A converter's sample (R216, R219, R221) -/

/-- A raw sample enters the estimator's block (R221): `a`, `x` the two samples before `b`, `n` the number of `x`'s place. -/
def AdcStream.learn (y : AdcStream) (q : Nat) (b : Int) : AdcStream :=
  let len := 4096 * slices q
  let y :=
    match y.raws with
    | x :: a :: _ =>
      if 2 ≤ y.n then
        let i := (y.idx - 1) % slices q
        { y with sums := mmcAdd y.sums i a x b, slope := y.slope + ((b - a) * (b - a)).toNat }
      else y
    | _ => y
  if y.n + 1 = len then { y with n := 0, ready := some (y.sums, y.slope), sums := [], slope := 0 }
  else { y with n := y.n + 1 }

/-- A converter's next sample `code` (R216): stream `q` moves on by one instant. -/
def State.adcSample (s : State) (q : Nat) (code : Int) : State :=
  let y := s.stream q
  let r := s.sqr q
  -- with nothing to sample for, the stream follows the clock
  let now := instantAt q (s.raw * 320)
  let y := if r.run = none ∧ r.tails = [] ∧ y.idx < now then { y with idx := now, raws := [], n := 0, sums := [], slope := 0 } else y
  let s := s.advance (instantCycle q y.idx)
  let y := if s.on ADC.CTL.MMC_EN then y.learn q code else y
  let s := s.setStream q { y with idx := y.idx + 1, raws := (code :: y.raws).take 1200 }
  let s := s.tailSamples q (r.tails.length + 1)
  match (s.sqr q).run with
  | none => s
  | some r =>
    match r.step with
    | none => s
    | some x =>
      -- samples are made in the order of their instants
      let (s, x) := if (s.sqr q).tails = [] then s.makeSamples q 300 x else (s, x)
      s.setSqr q { s.sqr q with run := some { r with step := some x } }

/-! ### Windows (R229 to R232) -/

/-- Byte distance of window `w`'s registers. -/
abbrev winAt (w : Nat) : Nat := 16 * w

/-- A block lies in some window. -/
def State.blockUsed (s : State) (b : Nat) : Bool :=
  s.adc.wins.any (fun e => (e.2.alloc || e.2.moving.isSome) && decide (e.2.base ≤ b) && decide (b < e.2.base + e.2.size))

/-- The lowest base at which `n` contiguous free blocks fit. -/
def State.fitAt (s : State) (n : Nat) : Option Nat :=
  (List.range (257 - n)).find? (fun b => (List.range n).all (fun k => !s.blockUsed (b + k)))

/-- A step that writes window `w` runs. -/
def State.writing (s : State) (w : Nat) : Bool :=
  s.adc.seqs.any (fun e =>
    (match e.2.run with | some r => (match r.step with | some x => x.win = some w | none => false) | none => false)
      || e.2.tails.any (fun t => t.step.win = some w))

/-- ALLOC of window `w` with `n` blocks (R229). -/
def State.winAlloc (s : State) (w n : Nat) : State :=
  let x := s.win w
  match s.fitAt n with
  | some b => s.setWin w { x with
      alloc := true, base := b, size := n, moving := some (true, s.raw), nospace := false, wp := 0, rp := 0, held := 0 }
  | none => (s.setWin w { x with nospace := true }).set1 ADC.IRQ_RAW.ALLOC_FAIL

/-- FREE of window `w` (R229): its undelivered frames count as lost. -/
def State.winFree (s : State) (w : Nat) : State :=
  let x := s.win w
  if x.alloc then
    let n := (s.adc.frames.filter (fun f => f.1 = w)).length
    let s := s.setWin w { x with alloc := false, moving := some (false, s.raw), wp := 0, rp := 0, held := 0 }
    let s := { s with adc := { s.adc with frames := s.adc.frames.filter (fun f => f.1 ≠ w) } }
    if n = 0 then s else (s.bump ADC.CNT_EVT.HI n).set1 ADC.IRQ_RAW.FRAME_LOST
  else s

/-- RP of window `w` moved by a reader (R231): frames it has passed leave. -/
def State.winRp (s : State) (w rp : Nat) : State :=
  let x := s.win w
  let ring := x.size * 32
  let left (u : Nat) : Bool := decide ((u + ring - rp) % ring < (x.wp + ring - rp) % ring)
  let s := s.setWin w { x with rp := rp }
  { s with adc := { s.adc with frames := s.adc.frames.filter (fun f => f.1 ≠ w || left f.2.1) } }

/-- The last block of an allocation or a release has moved (R229). -/
def State.winMoved (s : State) (w : Nat) : State :=
  let x := s.win w
  match x.moving with
  | none => s
  | some (up, c) =>
    let s := s.advance (c + x.size)
    s.setWin w (if up then { x with moving := none } else { x with moving := none, base := 0, size := 0 })

/-- The books of the buffer: TRANSIT, FREE, USED (R229). -/
def State.bufBooks (s : State) : Nat × Nat × Nat :=
  let count (x : Window) : Nat × Nat :=
    match x.moving with
    | some (up, c) =>
      let moved := min x.size (s.raw - c)
      (x.size - moved, if up then moved else 0)
    | none => (0, if x.alloc then x.size else 0)
  let tr := (s.adc.wins.map (fun e => (count e.2).1)).sum
  let us := (s.adc.wins.map (fun e => (count e.2).2)).sum
  (tr, 256 - tr - us, us)

/-! ### Abort, enables, steps -/

/-- A sequencer is running, holds a load or has a queued trigger (R240). -/
def State.adcWorks (s : State) : Bool :=
  s.adc.seqs.any (fun e => e.2.running || !e.2.loads.isEmpty || !e.2.queue.isEmpty)

/-- The loads of a sequencer discarded with outcome `out`. -/
def State.adcDropLoads (s : State) (q out : Nat) : State :=
  let x := s.sqr q
  let s := s.dropLoads (x.loads.map (fun l => l.src)) out
  s.setSqr q { x with loads := [] }

/-- A sequencer's part of an abort (R239). -/
def State.sqAbort (s : State) (q : Nat) : State :=
  let s := s.adcDropLoads q outAborted
  let x := s.sqr q
  let s := x.tails.foldl (fun s t => (s.closeFrame q { t.step with trunc := true }).endChans t.chans false) s
  let s := match x.run with
    | some r =>
      let s := match r.step with | some y => s.closeFrame q { y with trunc := true } | none => s
      s.endChans r.chans false
    | none => s
  s.setSqr q { s.sqr q with run := none, tails := [], queue := [], given := [] }

/-- The effect of an abort of the ADC (R239). -/
def State.adcAbort (s : State) : State :=
  let s := ((s.sqAbort 0).sqAbort 1).sqAbort 2
  let s := s.endChans (s.adc.chans.map (fun e => e.1)) false
  (List.range 32).foldl (fun s w => s.setHolder (ADC.WOWN.HOLDER.off + winAt w) 0 0) s

/-- A step of vehicle time (R238): pending loads from entries. -/
def State.stepAdc (s : State) (shift : Bool) (d : Int) : State :=
  { s with adc := { s.adc with seqs := s.adc.seqs.map (fun e => (e.1, { e.2 with
      loads := e.2.loads.map (fun l => if shift ∨ l.angle then { l with time := bitsOfInt 64 (l.time + d) } else l) })) } }

/-! ### Registers that read the state -/

def State.liveAdc (s : State) (k o : Nat) (w : Word) : Word :=
  let b (v : Bool) (n : Nat) : Nat := if v then 2 ^ n else 0
  if o = 0x0C then
    word (b (s.sqr 0).running 0 + b (s.sqr 1).running 1 + b (s.sqr 2).running 2
      + b (s.stream 0).frozen 3 + b (s.stream 1).frozen 4
      + (s.stream 0).epoch * 2 ^ 8 + (s.stream 1).epoch * 2 ^ 12)
  else if 0x48 ≤ o ∧ o ≤ 0x50 then
    let x := s.sqr ((o - 0x48) / 4)
    word (x.num % 65536 * 2 ^ 16 + (match x.run with | some r => r.k | none => 0) * 2 ^ 10 + b x.running 9
      + x.loads.length * 2 ^ 5 + x.queue.length)
  else if o = 0x54 then let (t, f, u) := s.bufBooks; word (t * 2 ^ 20 + f * 2 ^ 10 + u)
  else if 0x60 ≤ o ∧ o ≤ 0x7C then
    let x := SMap.get (fun _ => ({} : Filter)) s.stores.filt ((o - 0x60) / 4 + 1)
    let bad : Bool := match s.sec.held with | some i => i.badFlt.contains ((o - 0x60) / 4 + 1) | none => false
    word (x.logd % 16 * 2 ^ 8 + if bad then 0 else x.flen % 256)
  else if 0x400 ≤ o ∧ o < 0x600 then
    let x := s.win ((o - 0x400) / 16)
    if o % 16 = 4 then
      word (b x.alloc 31 + b x.moving.isSome 30 + b x.nospace 29 + x.base * 2 ^ 18 + x.size)
    else if o % 16 = 8 then word (x.rp * 2 ^ 16 + x.wp)
    else w
  else if 0x600 ≤ o ∧ o < 0x800 then
    let x := s.chan ((o - 0x600) / 32)
    if o % 32 = 0x18 then word (x.seq * 2 ^ 16 + x.fifo.length) else w
  else if 0x800 ≤ o ∧ o < 0x900 then
    let x := s.chan ((o - 0x800) / 16)
    if o % 16 = 0 then w else word (SMap.get (fun _ => 0) x.pops k / 2 ^ (32 * (o % 16 / 4)))
  else w

/-- A write of a step word is refused with RANGE (R224): an unloaded filter, or a filter with DEC. -/
def State.stepBad (s : State) (v : Nat) : Bool :=
  let f := bitsAt v 17 4
  f ≠ 0 && (8 < f || (SMap.get (fun _ => ({} : Filter)) s.stores.filt f).coef.isEmpty || bitsAt v 14 3 ≠ 0)

end Sys2Proof.Machine
end

