-- ==== Sys2Proof/Machine/ShnOps.lean ====
section
/-! DEFINITION. Shunters (file 10: R241 to R261), and the level of a line as its sources, its mode and its pull make it (file 03:
R83 to R85, file 16: lines by mode). -/

namespace Sys2Proof.Machine

def State.shunter (s : State) (n : Nat) : Shunter := SMap.get (fun _ => {}) s.shn n

def State.setShunter (s : State) (n : Nat) (x : Shunter) : State := { s with shn := SMap.put (fun _ => {}) s.shn n x }

def State.shF (s : State) (n : Nat) (g : Fld) : Nat := s.f g (pgAt n)
def State.shOn (s : State) (n : Nat) (g : Fld) : Bool := s.on g (pgAt n)
def State.shIrq (s : State) (n : Nat) (g : Fld) : State := s.set1 g (pgAt n)

/-! ### The level of a line -/

/-- Output levels and drive mask of a shunter at a ball in raw cycle `c`, on a line with a trim of `trim` units (R247, R86). -/
def Shunter.atBall (x : Shunter) (c : Nat) (trim : Int := 0) : Nat × Nat :=
  (x.pipe.filter (fun p => decide (((p.1 * 64 : Nat) : Int) + trim < ((c + 1) * 64 : Nat)))).foldl (fun _ p => p.2) (0, 0)

/-- What the source of code `c` drives on a line with a trim of `trim` units: nothing where it does not produce (R85). -/
def State.sourceLevel (s : State) (c : Nat) (trim : Int := 0) : Option Bool :=
  if 0x100 ≤ c ∧ c < 0x200 then
    let t := c - 0x100
    if producing (s.tmode t) then some (s.track t).lvl else none
  else if 0x200 ≤ c ∧ c < 0x240 then
    let u := (c - 0x200) % 32
    let hi : Bool := c < 0x220
    if (s.ruler u).produces || s.ruOn u RUL.OVR.FORCE then some (s.ruOutput u hi) else none
  else if 0x240 ≤ c ∧ c < 0x2C0 then
    let n := (c - 0x240) / 8
    let (lv, drv) := (s.shunter n).atBall s.raw trim
    if bitsAt drv ((c - 0x240) % 8) 1 = 1 ∧ (s.shunter n).st ≠ .halted then some (bitsAt lv ((c - 0x240) % 8) 1 = 1)
    else none
  else none

/-- The fault force on a line whose source is a ruling unit's output (R209). -/
def State.forcedLevel (s : State) (c : Nat) : Option Level :=
  if 0x200 ≤ c ∧ c < 0x240 then
    let u := (c - 0x200) % 32
    if (s.ruler u).forced then
      some (levelOf (if c < 0x220 then s.ruF u RUL.LIM.SAFE_HI else s.ruF u RUL.LIM.SAFE_LO))
    else none
  else none

/-- Line `n`'s handover bit is BOTH (R357). -/
def State.handover (s : State) (n : Nat) : Bool := bitsAt (s.reg (TWN.HOV.V.off + n / 32 * 4)).toNat (n % 32) 1 = 1

/-- The old PRIMARY of a commanded switchover has released its lines (R360). -/
def State.yielded (s : State) : Bool :=
  s.twn.released || (match s.twn.yieldAt with | some w => decide (w + 9 ≤ s.cyc) | none => false)

/-- The edges of an output of unit `u` up to raw unit `t`, as the unit places them one after another. -/
def State.rulerSoon (s : State) (u : Nat) (hi : Bool) (t : Nat) : Nat → List (Nat × Bool × Nat)
  | 0 => []
  | n + 1 =>
    let head (o : Bool) : Option Nat := ((s.ruView u (s.ruler u)).out o).edges.head?.map RuEdge.time
    let next (o : Bool) : List (Nat × Bool × Nat) :=
      let v := s.ruEdge u o
      let rest := State.rulerSoon v u hi t n
      if v.ruOutput u hi != s.ruOutput u hi then ((head o).getD 0, v.ruOutput u hi, 0) :: rest else rest
    match head true, head false with
    | some a, some b => if min a b ≤ t then next (decide (a < b)) else []
    | some a, none => if a ≤ t then next true else []
    | none, some b => if b ≤ t then next false else []
    | none, none => []

/-- The edges that the source of line `x` has still to place and that a negative trim brings to the ball before their order
is due: ball time and level (R86). -/
def State.soonAt (s : State) (x : Line) : List (Nat × Bool) :=
  if 0 ≤ x.trimU then []
  else
    let es := if 0x100 ≤ x.src ∧ x.src < 0x200 then s.trackSoon (x.src - 0x100)
      else if 0x200 ≤ x.src ∧ x.src < 0x240 then
        s.rulerSoon ((x.src - 0x200) % 32) (decide (x.src < 0x220)) (s.raw * 64 + 640) 8
      else []
    es.map (fun e => ((x.ballTime e.1 e.2.2).1, e.2.1))

/-- The level of a line's source at the ball: while an edge is on its way, the level before it (R24); the level of an edge
that is at the ball before its order is due (R86). -/
def State.ballLevel (s : State) (x : Line) : Option Bool :=
  match x.due.find? (fun e => decide (s.raw < e.1 / 64)) with
  | some e => some (!e.2)
  | none =>
    match s.sourceLevel x.src x.trimU, ((s.soonAt x).filter (fun e => decide (e.1 / 64 ≤ s.raw))).getLast? with
    | some _, some e => some e.2
    | v, _ => v

/-- What the device would drive on line `n` (table of lines by mode, R83 to R85, R209, R358), before open drain. -/
def State.ordered (s : State) (n : Nat) : Level :=
  let x := s.line n
  if !s.bankOk (n / 16) || s.twn.killIn then .hiz
  else if x.src = 0 then .hiz
  else
    match s.forcedLevel x.src with
    | some l => l
    | none =>
      if s.yielded then .hiz
      else if s.mode = .safe then levelOf x.safe
      else if s.mode = .configure then levelOf x.idle
      else if s.mode = .standby ∧ s.handover n then levelOf x.idle
      else if s.mode.sources ∨ (s.mode = .standby ∧ (s.twn.sw.map Switch.driven) = some true) then
        match s.ballLevel x with
        | some v => if v != x.inv then .high else .low
        | none => levelOf x.idle
      else .hiz

/-- The complement of a level. -/
def flipLevel : Level → Level
  | .high => .low
  | .low => .high
  | .hiz => .hiz

/-- What the device drives on line `n`: an open-drain line releases level 1 (R85); the odd line of a pair drives the complement
of the even one (R84). -/
def State.driven (s : State) (n : Nat) : Level :=
  if s.oddOfPair n then flipLevel ((s.line (n - 1)).drain (s.ordered (n - 1))) else (s.line n).drain (s.ordered n)

/-- The level that the device or something outside puts on the pad of line `n` (R85). -/
def State.putLevel (s : State) (n : Nat) : Option Bool :=
  match s.driven n, (s.line n).ext with
  | .high, _ => some true
  | .low, _ => some false
  | .hiz, .high => some true
  | .hiz, .low => some false
  | .hiz, .hiz => none

/-- The level that the pull of a line gives a pad that nothing drives (R85). In Boot no pull holds the pad before the clear
of the stores is done (table of lines by mode, R374). -/
def State.pulled (s : State) (x : Line) : Option Bool :=
  if s.mode = .boot ∧ s.sec.boot = 0 then none
  else if x.pull = 1 then some false else if x.pull = 2 then some true else if x.pull = 3 then some x.keep else none

/-- The level at the pad of line `n` and so at its consumers (R85); nothing where the manual defines none. -/
def State.padLevel (s : State) (n : Nat) : Option Bool :=
  if !s.bankOk (n / 16) then some false
  else
    match s.putLevel n with
    | some v => some v
    | none => s.pulled (s.line n)

/-- An edge or a level that a command reports at the input of line `n` says what is on the pad from outside, where the device
does not drive it. -/
def State.outside (s : State) (n : Nat) (v : Bool) : State :=
  let x := s.line n
  let l : Level := if v then .high else .low
  if s.driven n = .hiz ∧ x.ext ≠ l then
    s.setLine n { x with ext := l, was := (s.raw, x.ext) :: x.was.filter (fun p => decide (s.raw < p.1 + 4)) }
  else s

/-- A pin of some shunter reads line `n` (R248). -/
def State.pinned (s : State) (n : Nat) : Bool :=
  s.regs.any (fun e =>
    match pageOf e.1 with
    | some (p, b) => p.code = 0x15 && (e.1 - b = 0x50 || e.1 - b = 0x54)
      && [0, 8, 16, 24].any (fun k => bitsAt e.2.toNat (k + 7) 1 = 1 && bitsAt e.2.toNat k 7 = n)
    | none => false)

/-- The raw cycles from now on in which the level that line `x` is driven with may change by itself: edges on their way, edges
that a negative trim brings forward, levels that a shunter has written (R86, R247). -/
def State.changesAt (s : State) (x : Line) : List Nat :=
  let pipe : List Nat := if 0x240 ≤ x.src ∧ x.src < 0x2C0 then
      (s.shunter ((x.src - 0x240) / 8)).pipe.map (fun p => (((p.1 * 64 : Nat) : Int) + x.trimU).toNat / 64) else []
  (x.due ++ s.soonAt x).map (fun e => e.1 / 64) ++ pipe

/-- A number entered in a rising list. -/
def insUp (n : Nat) : List Nat → List Nat
  | [] => [n]
  | m :: ms => if n < m then n :: m :: ms else if n = m then m :: ms else m :: insUp n ms

/-- What the device drives on line `n`, as pins see it: the levels of the last cycles kept, those that were foretold for
later cycles told anew (R248). -/
def State.showLine (s : State) (n : Nat) (x : Line) : List (Nat × Level) :=
  if !s.pinned n then []
  else
    let old := x.shown.filter (fun p => decide (p.1 ≤ s.raw))
    let now := s.driven n
    let kept := if (old.getLast?.map (fun p => p.2)) = some now then old else old ++ [(s.raw, now)]
    -- of the cycles that no pin can still see, the last stays
    let gone := kept.filter (fun p => decide (p.1 + 4 ≤ s.raw))
    let seen := kept.filter (fun p => decide (s.raw < p.1 + 4))
    let soon := ((s.changesAt x).filter (fun c => decide (s.raw < c))).foldr insUp []
    gone.getLast?.toList ++ seen ++ soon.map (fun c => (c, ({ s with raw := c } : State).driven n))

/-- A line at the end of a command: its edges that have reached the ball are gone, a keeper holds the last level present
at the pad (R85), and the levels that pins see are noted. -/
def State.keepLine (s : State) (n : Nat) (x : Line) : Line :=
  let past := x.due.filter (fun e => decide (e.1 / 64 ≤ s.raw))
  let y := { x with due := x.due.filter (fun e => decide (s.raw < e.1 / 64)), shown := s.showLine n x }
  if x.pull ≠ 3 ∨ !s.bankOk (n / 16) then y
  else
    match s.putLevel n, past.getLast? with
    | some v, _ => { y with keep := v }
    | none, some e => { y with keep := e.2 != x.inv }
    | none, none => y

/-- Every line at the end of a command. -/
def State.keepAll (s : State) : State := { s with lines := s.lines.map (fun e => (e.1, s.keepLine e.1 e.2)) }

/-- A level read at line `n`: a free value where the manual defines none (R85). -/
def State.readPad (s : State) (n : Nat) : State × Bool :=
  match s.padLevel n with
  | some v => (s, v)
  | none => (s.draw, s.drawn % 2 = 1)

/-! ### Pins (R247, R248) -/

/-- The line that pin `p` reads, if its input is selected. -/
def State.pinLine (s : State) (n p : Nat) : Option Nat :=
  let w := (s.reg (SHN.INSEL.LINE0.off + pgAt n + p / 4 * 4)).toNat
  let b := bitsAt w (p % 4 * 8) 8
  if 128 ≤ b then some (b % 128) else none

/-- What the device drove on line `l` in raw cycle `c`, a few cycles ago: as noted, or as it drives it now where nothing was
noted so early. -/
def State.droveAt (s : State) (l c : Nat) : Level :=
  let xs := (s.line l).shown
  match (xs.filter (fun p => decide (p.1 ≤ c))).getLast?, xs.head? with
  | some p, _ => p.2
  | none, some p => p.2
  | none, none => ({ s with raw := c } : State).driven l

/-- The level from outside at line `l` in raw cycle `c`, a few cycles ago. -/
def State.extAt (s : State) (l c : Nat) : Level :=
  let x := s.line l
  ((x.was.filter (fun p => decide (c < p.1))).getLast?.map (fun p => p.2)).getD x.ext

/-- The level that pin `p` of shunter `n` shows to cycle `c`: its own output's, or the level that its line had at the ball
three cycles earlier: what the device drove, else `ext`, the level there from outside (R248). -/
def State.pinSeen (s : State) (n p c : Nat) (ext : Bool) : Bool :=
  match s.pinLine n p with
  | none => bitsAt (s.shunter n).pins p 1 = 1
  | some l =>
    if !s.bankOk (l / 16) then false
    else
      match s.droveAt l (c - 3) with
      | .high => true
      | .low => false
      | .hiz => ext

/-- The levels that all eight pins show to cycle `c`; bit p of `ext` is the level from outside at the line of pin p. -/
def State.pinsSeen (s : State) (n c ext : Nat) : Nat :=
  ((List.range 8).map (fun p => if s.pinSeen n p c (bitsAt ext p 1 = 1) then 2 ^ p else 0)).sum

/-- The levels from outside at the lines of the pins, reported by a command, are on the pads that the device leaves free. -/
def State.pinsOutside (s : State) (n ext : Nat) : State :=
  (List.range 8).foldl (fun s p => match s.pinLine n p with
    | some l => s.outside l (bitsAt ext p 1 = 1)
    | none => s) s

/-- The level that pin `p` shows to cycle `c`, with the outside level last reported; nothing where the manual defines none. -/
def State.pinThen (s : State) (n p c : Nat) : Option Bool :=
  match s.pinLine n p with
  | none => some (bitsAt (s.shunter n).pins p 1 = 1)
  | some l =>
    if !s.bankOk (l / 16) then some false
    else
      match s.droveAt l (c - 3), s.extAt l (c - 3) with
      | .high, _ => some true
      | .low, _ => some false
      | .hiz, .high => some true
      | .hiz, .low => some false
      | .hiz, .hiz => s.pulled (s.line l)

/-- Pin levels and drive mask written in raw cycle `c`: they reach the ball eight cycles later (R247). -/
def Shunter.put (x : Shunter) (c pins drv : Nat) : Shunter :=
  -- a trim of up to eight cycles still shows the levels before
  let old := x.pipe.filter (fun p => decide (c < p.1 + 8))
  let now := (x.pipe.filter (fun p => decide (p.1 + 8 ≤ c))).getLast?
  { x with pins := pins, drv := drv, pipe := now.toList ++ old ++ [(c + 8, pins, drv)] }

/-- `old` with the bits of `mask` taken from `v`. -/
def maskIn (old v mask : Nat) : Nat := (old &&& (255 - mask)) ||| (v &&& mask)

/-- Levels written by SEND: bit j to pin (base + j) mod 8, for `n` bits (R247). -/
def sendPins (old v base : Nat) : Nat → Nat
  | 0 => old
  | n + 1 => putBits (sendPins old v base n) ((base + n) % 8) 1 (bitsAt v n 1)

/-! ### Instructions (R243) -/

inductive ShOp where
  | br | loop | at_ | wait | send | take | load | store | copy | ldi | add | sig | lcnt | halt | reserved
  deriving DecidableEq, Repr

/-- The operation of an instruction word: reserved opcodes, codes and non-zero fields marked 0 are `reserved`. -/
def shOp (w : Nat) : ShOp :=
  let b (lo n : Nat) : Nat := bitsAt w lo n
  let ok (c : Bool) (o : ShOp) : ShOp := if c then o else .reserved
  match b 12 4 with
  | 0 => .br
  | 1 => ok (b 8 3 = 0) .loop
  | 2 => ok (b 0 12 = 0) .at_
  | 3 => ok (b 0 7 = 0) .wait
  | 4 => ok (b 0 4 = 0 && b 9 3 ≠ 7) .send
  | 5 => ok (b 0 4 = 0 && b 9 3 < 5) .take
  | 6 => ok (b 1 11 = 0) .load
  | 7 => ok (b 1 11 = 0) .store
  | 8 => ok (b 4 2 = 0 && b 8 4 < 9 && b 0 4 < 11) .copy
  | 9 => ok (b 8 2 = 0) .ldi
  | 10 => ok (b 10 2 ≠ 3) .add
  | 11 => ok (b 8 4 = 0) .sig
  | 12 => .lcnt
  | 13 => ok (b 0 12 = 0) .halt
  | _ => .reserved

/-- The instruction at the shunter's PC (R242). -/
def State.shFetch (s : State) (n : Nat) : Nat :=
  let pc := (s.shunter n).pc
  bitsAt (SMap.get (fun _ => 0) s.stores.prog (n * 128 + pc / 2) : Word).toNat (pc % 2 * 16) 16

/-- DIV in 1/256 cycle (R244). -/
def State.shDiv (s : State) (n : Nat) : Nat := s.shF n SHN.DIV.INT * 256 + s.shF n SHN.DIV.FRAC

/-- The cycle of the shunter's next tick. -/
def Shunter.cycle (x : Shunter) : Nat := x.tick / 256

/-- The first tick at or after cycle `c`, the phase kept (R244). -/
def Shunter.tickFrom (x : Shunter) (div c : Nat) : Shunter :=
  if c * 256 ≤ x.tick then x else { x with tick := x.tick + (c * 256 - x.tick + div - 1) / div * div }

/-- The vehicle-time cycle count of raw cycle `c`. -/
def State.cycAt (s : State) (c : Nat) : Nat := s.vtAt (c * 64) / 64

/-- T extended to the nearest cycle count (R245). -/
def extendT (t : Word) (now : Nat) : Nat :=
  let d := signedOf 32 (t.toNat + (2 ^ 32 - now % 2 ^ 32))
  ((now : Int) + d).toNat

/-- The shunter halted with a reason (R257). -/
def State.shHalt (s : State) (n rsn : Nat) : State :=
  let x := s.shunter n
  s.setShunter n { x with st := .halted, rsn := rsn, target := none, wait := none }

/-- The next instruction comes at the next tick, at `pc`. -/
def State.shNext (s : State) (n pc : Nat) (x : Shunter) : State :=
  s.setShunter n { x with pc := pc % 256, tick := x.tick + s.shDiv n }

/-- The following instruction. -/
def State.shStep (s : State) (n : Nat) (x : Shunter) : State := s.shNext n (x.pc + 1) x

/-- The instruction of kind `op` that stands at PC executes at the next tick of a running shunter; nothing else happens. -/
def State.shExec (s : State) (n : Nat) (op : ShOp) (k : State → Shunter → Nat → State) : State :=
  let x := s.shunter n
  if x.st = .running ∧ s.mode ≠ .halt ∧ shOp (s.shFetch n) = op then
    k (((s.advance x.cycle).touch stShn).checked stShn (n * 128 + x.pc / 2)) x (s.shFetch n)
  else s

/-- BR's condition (table of operand codes). -/
def State.shCond (s : State) (n : Nat) (x : Shunter) (c ext : Nat) : Bool :=
  let rlen := let r := s.shF n SHN.SHCFG.RLEN; if r = 0 then 32 else r
  let j := s.shF n SHN.PINCFG.JPIN
  let jpin := s.pinSeen n j x.cycle (bitsAt ext j 1 = 1)
  match c with
  | 0 => true
  | 1 => x.a = 0
  | 2 => x.a ≠ 0
  | 3 => x.b = 0
  | 4 => x.b ≠ 0
  | 5 => x.a = x.b
  | 6 => x.a.toNat < x.b.toNat
  | 7 => jpin
  | 8 => !jpin
  | 9 => x.sf = 0
  | 10 => rlen ≤ x.rf
  | 11 => x.tx.isEmpty
  | 12 => 8 ≤ x.rx.length
  | 13 => x.tmo
  | 14 => x.late
  | _ => x.nodata

/-! #### Wagons and FIFOs (R249, R250) -/

/-- A length field, where 0 means 32. -/
def len32 (n : Nat) : Nat := if n = 0 then 32 else n

/-- Bit `j` of the result is bit `n - 1 - j` of `v`. -/
def revBits (v : Nat) : Nat → Nat
  | 0 => 0
  | n + 1 => revBits (v / 2) n + v % 2 * 2 ^ n

/-- LOAD from a FIFO that holds a word. -/
def Shunter.doLoad (x : Shunter) (slen : Nat) : Shunter :=
  match x.tx with
  | w :: rest => { x with sw := w, sf := slen, nodata := false, tx := rest }
  | [] => x

/-- STORE into a FIFO that has room. -/
def Shunter.doStore (x : Shunter) : Shunter := { x with rx := x.rx ++ [x.rw], rw := 0, rf := 0 }

/-- The value that a SEND of `n` bits forms (R249), and the count left. -/
def Shunter.sendValue (x : Shunter) (n slen : Nat) (smsb : Bool) : Nat × Nat :=
  let m := min n x.sf
  let v := if smsb then revBits (bitsAt x.sw.toNat (x.sf - m) m) m else bitsAt x.sw.toNat (slen - x.sf) m
  (v, x.sf - m)

/-- A TAKE of `n` bits `v` into the receive wagon (R249). -/
def Shunter.gather (x : Shunter) (v n : Nat) (rmsb : Bool) : Shunter :=
  let w := if rmsb then x.rw.toNat * 2 ^ n + revBits v n
    else putBits x.rw.toNat x.rf n v
  { x with rw := word w, rf := min 32 (x.rf + n) }

/-- SHCFG and PINCFG of a shunter. -/
def State.shCfg (s : State) (n : Nat) : Word × Word :=
  (s.reg (SHN.SHCFG.SLEN.off + pgAt n), s.reg (SHN.PINCFG.SBASE.off + pgAt n))

def State.setShCfg (s : State) (n : Nat) (c : Word × Word) : State :=
  (s.setReg (SHN.SHCFG.SLEN.off + pgAt n) c.1).setReg (SHN.PINCFG.SBASE.off + pgAt n) c.2

/-- An instruction that a stall has held goes on with the SHCFG and PINCFG it found: a change of them is for the next one
(R260). -/
def State.shUnder (s : State) (n : Nat) (f : State → State) : State :=
  (f (s.setShCfg n (s.shunter n).cfg)).setShCfg n (s.shCfg n)

/-- A stall entered (R250). -/
def State.shStall (s : State) (n : Nat) (st : ShnSt) (x : Shunter) : State :=
  (s.bump SHN.CNT_EVT.HI 1 (pgAt n)).setShunter n { x with st := st, cfg := s.shCfg n }

/-- A value written to a SEND destination. -/
def State.shSendTo (s : State) (n d v bits : Nat) (x : Shunter) : Shunter :=
  match d with
  | 0 => x.put x.cycle (sendPins x.pins v (s.shF n SHN.PINCFG.SBASE) (min bits 8)) x.drv
  | 1 => { x with a := word v }
  | 2 => { x with b := word v }
  | 3 => { x with t := word v }
  | 5 => { x with l0 := v % 65536 }
  | 6 => { x with l1 := v % 65536 }
  | _ => x

def State.slen (s : State) (n : Nat) : Nat := len32 (s.shF n SHN.SHCFG.SLEN)

/-- SEND executed (R249), with its LOAD first where AUTOLOAD asks for one. -/
def State.shSend (s : State) (n w : Nat) (x : Shunter) : State :=
  let bits := len32 (bitsAt w 4 5)
  if s.shOn n SHN.SHCFG.AUTOLOAD ∧ x.sf = 0 ∧ x.tx = [] then s.shStall n .loadStall x
  else
    let x := if s.shOn n SHN.SHCFG.AUTOLOAD ∧ x.sf = 0 then x.doLoad (s.slen n) else x
    let (v, left) := x.sendValue bits (s.slen n) (s.shOn n SHN.SHCFG.SMSB)
    let x := s.shSendTo n (bitsAt w 9 3) v bits { x with sf := left }
    s.shStep n x

/-- The level of pin (base + j) mod 8 as bit j (R248). -/
def takePins (lv base : Nat) : Nat → Nat
  | 0 => 0
  | n + 1 => takePins lv base n + bitsAt lv ((base + n) % 8) 1 * 2 ^ n

/-- STORE executed after a TAKE or by itself: the FIFO takes the wagon, or the shunter stalls. -/
def State.shStoreNow (s : State) (n : Nat) (x : Shunter) : State :=
  if 8 ≤ x.rx.length then s.shStall n .storeStall x else s.shStep n x.doStore

/-- TAKE executed (R249); `lv` the levels at the pins. -/
def State.shTake (s : State) (n w lv : Nat) (x : Shunter) : State :=
  let bits := len32 (bitsAt w 4 5)
  let v := match bitsAt w 9 3 with
    | 0 => takePins lv (s.shF n SHN.PINCFG.TBASE) 8
    | 1 => x.a.toNat
    | 2 => x.b.toNat
    | 3 => 0
    | _ => 2 ^ 32 - 1
  let x := x.gather (v % 2 ^ bits) bits (s.shOn n SHN.SHCFG.RMSB)
  if s.shOn n SHN.SHCFG.AUTOSTORE ∧ len32 (s.shF n SHN.SHCFG.RLEN) ≤ x.rf then s.shStoreNow n x
  else s.shStep n x

/-- LOAD executed (R250). -/
def State.shLoad (s : State) (n w : Nat) (x : Shunter) : State :=
  if x.tx ≠ [] then s.shStep n (x.doLoad (s.slen n))
  else if w % 2 = 1 then s.shStep n { x with nodata := true }
  else s.shStall n .loadStall x

/-- STORE executed (R250). -/
def State.shStore (s : State) (n w : Nat) (x : Shunter) : State :=
  if x.rx.length < 8 then s.shStep n x.doStore
  else if w % 2 = 1 then
    ((s.shIrq n SHN.IRQ_RAW.RX_DROP).bump SHN.CNT_EVT.LO 1 (pgAt n)).shStep n { x with rw := 0, rf := 0 }
  else s.shStall n .storeStall x

/-- The bytes of a word in reverse order. -/
def swapBytes (v : Nat) : Nat :=
  bitsAt v 0 8 * 2 ^ 24 + bitsAt v 8 8 * 2 ^ 16 + bitsAt v 16 8 * 2 ^ 8 + bitsAt v 24 8

/-- A COPY source (table of operand codes). -/
def State.shSource (s : State) (n c ext : Nat) (x : Shunter) : Nat :=
  match c with
  | 0 => x.a.toNat
  | 1 => x.b.toNat
  | 2 => x.t.toNat
  | 3 => x.sw.toNat
  | 4 => x.rw.toNat
  | 5 => s.pinsSeen n x.cycle ext
  | 6 => s.cycAt x.cycle % 2 ^ 32
  | 7 => (s.f TBU.NEXTSEC_LO.NEXTSEC + s.f TBU.NEXTSEC_HI.NEXTSEC * 2 ^ 32) / 64 % 2 ^ 32
  | 9 => x.l0
  | 10 => x.l1
  | _ => 0

/-- COPY's OP. -/
def copyOp (o v : Nat) : Nat :=
  match o with
  | 0 => v
  | 1 => 2 ^ 32 - 1 - v
  | 2 => swapBytes v
  | _ => (2 ^ 32 - v) % 2 ^ 32

/-- COPY executed (R243). -/
def State.shCopy (s : State) (n w ext : Nat) (x : Shunter) : State :=
  let v := copyOp (bitsAt w 6 2) (s.shSource n (bitsAt w 0 4) ext x)
  match bitsAt w 8 4 with
  | 0 => s.shStep n { x with a := word v }
  | 1 => s.shStep n { x with b := word v }
  | 2 => s.shStep n { x with t := word v }
  | 3 => s.shStep n { x with sw := word v, sf := s.slen n }
  | 4 => s.shStep n { x with rw := word v, rf := 0 }
  | 5 => s.shStep n (x.put x.cycle (maskIn x.pins v (s.shF n SHN.PINCFG.PUTMASK)) x.drv)
  | 6 => s.shNext n v x
  | 7 => s.shStep n { x with l0 := v % 65536 }
  | _ => s.shStep n { x with l1 := v % 65536 }

/-- LDI executed (R243). -/
def State.shLdi (s : State) (n w : Nat) (x : Shunter) : State :=
  let v := bitsAt w 0 8
  match bitsAt w 10 2 with
  | 0 => s.shStep n (x.put x.cycle (maskIn x.pins v (s.shF n SHN.PINCFG.PUTMASK)) x.drv)
  | 1 => s.shStep n { x with a := word v }
  | 2 => s.shStep n { x with b := word v }
  | _ => s.shStep n (x.put x.cycle x.pins v)

/-- ADD executed (R243). -/
def State.shAdd (s : State) (n w : Nat) (x : Shunter) : State :=
  let v : Word := match bitsAt w 8 2 with
    | 0 => x.a
    | 1 => x.b
    | 2 => x.sw
    | _ => word (bitsAt w 0 8)
  match bitsAt w 10 2 with
  | 0 => s.shStep n { x with a := x.a + v }
  | 1 => s.shStep n { x with b := x.b + v }
  | _ => s.shStep n { x with t := x.t + v }

/-- SIG executed (R254). -/
def State.shSig (s : State) (n w : Nat) (x : Shunter) : State :=
  let v := bitsAt w 0 8 * 2 ^ 24 + x.a.toNat % 2 ^ 24
  let s := (s.setF SHN.SIGWORD.V v (pgAt n)).shIrq n SHN.IRQ_RAW.SIG
  (s.signal 8 n v (s.vtAt (x.cycle * 64))).shStep n x

/-- The next instruction executes in raw cycle `c`, where the divider is restarted (R244). -/
def Shunter.resumeAt (x : Shunter) (c : Nat) : Shunter := { x with st := .running, tick := c * 256, target := none, wait := none }

/-- AT executed (R245). -/
def State.shAt (s : State) (n : Nat) (x : Shunter) : State :=
  let a := s.cycAt x.cycle
  let t := extendT x.t a
  let x := { x with pc := (x.pc + 1) % 256 }
  if a + 9 ≤ t then s.setShunter n { x with st := .atWait, target := some t, late := false }
  else (s.shIrq n SHN.IRQ_RAW.LATE).setShunter n { x.resumeAt (x.cycle + 1) with late := true }

/-- The raw cycle in which vehicle time reaches cycle count `t`. -/
def State.rawCycleOf (s : State) (t : Nat) : Nat := (s.rawOf (t * 64) + 63) / 64

/-- AT's target less eight cycles is reached (R245, R258). -/
def State.shAtResolve (s : State) (n : Nat) : State :=
  let x := s.shunter n
  match x.target with
  | none => s
  | some t =>
    if x.st = .atWait ∧ s.mode ≠ .halt then
      let c := s.rawCycleOf (t - 8)
      let late := decide (c < s.raw)
      let s := s.advance c
      let s := if late then s.shIrq n SHN.IRQ_RAW.LATE else s
      s.setShunter n { x.resumeAt s.raw with late := late }
    else s

/-- WAIT executed (R246); `ext` gives the levels from outside that cycle a + 1 sees at the lines of the pins. -/
def State.shWait (s : State) (n w ext : Nat) (x : Shunter) : State :=
  let pin := bitsAt w 8 3
  let pol : Bool := bitsAt w 11 1 = 1
  let dl : Option Nat := if bitsAt w 7 1 = 1 then some (extendT x.t (s.cycAt x.cycle)) else none
  let x' := { x with pc := (x.pc + 1) % 256 }
  let race : Bool := (dl.map (fun d => decide (s.rawCycleOf d ≤ x.cycle + 1))).getD false
  if s.pinSeen n pin (x.cycle + 1) (bitsAt ext pin 1 = 1) = pol then
    -- the condition holds in cycle a + 1, and wins a tie with the deadline
    let s := if race then s.shIrq n SHN.IRQ_RAW.TIMEOUT_RACE else s
    s.setShunter n { x'.resumeAt (x.cycle + 2) with tmo := false }
  else s.setShunter n { x' with st := .pinWait, wait := some { pin := pin, pol := pol, dl := dl, since := x.cycle } }

/-- The raw cycle of a wait's deadline. -/
def State.shDeadline (s : State) (w : ShnWait) : Option Nat := w.dl.map (fun d => max (w.since + 1) (s.rawCycleOf d))

/-- A wait resolved by its pin in this cycle, where the pin reads the level waited for (R246): the command says what is on a
line from outside. -/
def State.shWaitPin (s : State) (n : Nat) : State :=
  let x := s.shunter n
  match x.wait with
  | none => s
  | some w =>
    if s.mode = .halt then s
    else
      let r := max s.raw (w.since + 1)
      let s := s.advance r
      if s.pinSeen n w.pin r w.pol ≠ w.pol then s else
      let s := match s.pinLine n w.pin with | some l => s.outside l w.pol | none => s
      match s.shDeadline w with
      | some d =>
        if d < r then s.setShunter n { x.resumeAt (d + 1) with tmo := true }
        else
          let s := if d = r then s.shIrq n SHN.IRQ_RAW.TIMEOUT_RACE else s
          s.setShunter n { x.resumeAt (r + 1) with tmo := false }
      | none => s.setShunter n { x.resumeAt (r + 1) with tmo := false }

/-- A wait resolved by its deadline (R246); the condition wins where the pin already reads the level. -/
def State.shWaitDeadline (s : State) (n : Nat) : State :=
  let x := s.shunter n
  match x.wait with
  | none => s
  | some w =>
    match s.shDeadline w with
    | none => s
    | some d =>
      if s.mode = .halt then s
      else
        let s := s.advance d
        let r := max d s.raw
        if s.pinThen n w.pin r = some w.pol then
          (s.shIrq n SHN.IRQ_RAW.TIMEOUT_RACE).setShunter n { x.resumeAt (r + 1) with tmo := false }
        else s.setShunter n { x.resumeAt (r + 1) with tmo := true }

/-- A stall ends in the cycle after its FIFO changed: the instruction completes at the first tick from that cycle on (R244,
R251). -/
def State.shStallEnd (s : State) (n : Nat) (st : ShnSt) : State :=
  let x := s.shunter n
  let w := if st = .loadStall then x.fed else x.freed
  if x.st = st ∧ s.mode ≠ .halt ∧ (if st = .loadStall then !x.tx.isEmpty else decide (x.rx.length < 8)) then
    let x := { x.tickFrom (s.shDiv n) (w + 1) with st := .running }
    let s := s.advance x.cycle
    let w := s.shFetch n
    s.shUnder n fun s =>
      match shOp w with
      | .send => s.shSend n w x
      | .load => s.shLoad n w x
      | _ => s.shStoreNow n x
  else s

/-- An illegal instruction (R243). -/
def State.shIllegal (s : State) (n : Nat) : State :=
  ((s.shIrq n SHN.IRQ_RAW.ILLEGAL).shIrq n SHN.IRQ_RAW.HALTED).shHalt n 2

/-! ### Starts (R255, R256) -/

/-- The shunter started at `addr`, its first tick in raw cycle `c`. -/
def State.shStart (s : State) (n addr c : Nat) : State :=
  let x := s.shunter n
  let keep := s.shOn n SHN.CTL.KEEP_SHIFT
  let x := { x with prior := some {
    pc := x.pc, tmo := x.tmo, late := x.late, nodata := x.nodata, tick := x.tick, drv := x.drv, pipe := x.pipe
    sw := x.sw, rw := x.rw, sf := x.sf, rf := x.rf } }
  let x := x.put c x.pins (s.shF n SHN.PINCFG.DRV0)
  s.setShunter n { x with
    st := .running, pc := addr % 256, tmo := false, late := false, nodata := false, tick := c * 256, began := some c
    sw := if keep then x.sw else 0, sf := if keep then x.sf else 0
    rw := if keep then x.rw else 0, rf := if keep then x.rf else 0 }

/-- A start not taken. -/
def State.shReject (s : State) (n : Nat) : State := s.shIrq n SHN.IRQ_RAW.START_REJ

/-- A start can take effect in cycle `c`: the shunter is HALTED, and no write of HALT takes effect in that cycle (R255). -/
def Shunter.startable (x : Shunter) (c : Nat) : Bool := x.st = .halted && x.haltAt ≠ some c

/-- One shunter started where it can be; START_REJ otherwise. -/
def State.shStartOne (s : State) (n addr c : Nat) : State :=
  if (s.shunter n).startable c then s.shStart n addr c else s.shReject n

/-- A shunter without the start that a HALT of the same cycle discards (R255). -/
def Shunter.unstarted (x : Shunter) : Shunter :=
  match x.prior with
  | none => x
  | some y => { x with
    pc := y.pc, tmo := y.tmo, late := y.late, nodata := y.nodata, tick := y.tick, drv := y.drv, pipe := y.pipe
    sw := y.sw, rw := y.rw, sf := y.sf, rf := y.rf, began := none, prior := none }

/-- A write of HALT, which takes effect in the cycle after it; it wins over a start that takes effect in that cycle (R255,
R257). -/
def State.shHaltWrite (s : State) (n : Nat) : State :=
  let x := s.shunter n
  let s := if x.began = some (s.raw + 1) then (s.setShunter n x.unstarted).shReject n else s
  let s := s.shHalt n 0
  s.setShunter n { s.shunter n with haltAt := some (s.raw + 1) }

/-- The members of a group: `n` and those of its GRP. -/
def State.shGroup (s : State) (n : Nat) : List Nat :=
  (List.range 16).filter (fun k => k = n || bitsAt (s.shF n SHN.GRP.V) k 1 = 1)

/-- A group start of `n` at `addr`. -/
def State.shStartGroup (s : State) (n addr c : Nat) : State :=
  (s.shGroup n).foldl (fun s k => s.shStartOne k (if k = n then addr else s.shF k SHN.START.ADDR) c) s

/-- What a shunter does with a delivered SHN_START (R255). -/
def State.shDeliver (s : State) (n due arg : Nat) (src : LoadSrc) (late angle : Bool) : State × Bool :=
  let x := s.shunter n
  if x.start.isSome ∨ x.st ≠ .halted then (s, false)
  else (s.setShunter n { x with start := some {
    time := due, addr := arg % 256, grp := bitsAt arg 8 1 = 1, src := src, angle := angle
    floor := if late then s.raw + 2 else 0 } }, true)

/-- The start in the start shadow acts in the cycle that contains its instant (R255). -/
def State.shStartEntry (s : State) (n : Nat) : State :=
  let x := s.shunter n
  match x.start with
  | none => s
  | some e =>
    let s := s.advance (max (s.rawOf e.time / 64) e.floor)
    let s := s.setShunter n { x with start := none }
    if !x.startable s.raw then (s.shReject n).acted e.src outDiscarded
    else
      let s := if e.grp then s.shStartGroup n e.addr s.raw else s.shStart n e.addr s.raw
      s.acted e.src outActed

/-- A start in a start shadow takes effect for shunter `n` in this cycle (R242, R255). -/
def State.shStarts (s : State) (n : Nat) : Bool :=
  s.shn.any fun e => match e.2.start with
    | some x =>
      (e.1 = n || (x.grp && (s.shGroup e.1).contains n)) && max (s.rawOf x.time / 64) x.floor = s.raw && s.mode ≠ .halt
    | none => false

/-- A write of DIV takes effect at the next tick (R260): the ticks of a stalled shunter up to it have come under the divider
before. -/
def State.shDivNoted (s : State) (n : Nat) : State :=
  let x := s.shunter n
  if x.st = .loadStall ∨ x.st = .storeStall then s.setShunter n (x.tickFrom (s.shDiv n) (s.raw + 1)) else s

/-- The dividers of a group restarted in cycle `c` (R255). -/
def State.shClkrst (s : State) (n c : Nat) : State :=
  (s.shGroup n).foldl (fun s k => s.setShunter k { s.shunter k with tick := c * 256 }) s

/-- The pending start discarded with outcome `out`. -/
def State.shDropStart (s : State) (n out : Nat) : State :=
  let x := s.shunter n
  match x.start with
  | none => s
  | some e => (s.acted e.src out).setShunter n { x with start := none }

/-- The effect of an abort of a shunter (R259). -/
def State.shnAbort (s : State) (n : Nat) : State :=
  let s := (s.shHalt n 0).shDropStart n outAborted
  (s.clr SHN.TXDMA_LEN.EN (pgAt n)).clr SHN.RXDMA_CFG.EN (pgAt n)

/-! ### FIFOs and DMA (R250 to R253) -/

/-- Free slots of the TX FIFO. -/
def Shunter.txFree (x : Shunter) : Nat := 8 - x.tx.length - x.flight.length

/-- A word at the tail of the TX FIFO in raw cycle `c`. -/
def Shunter.feed (x : Shunter) (w : Word) (c : Nat) : Shunter :=
  { x with tx := x.tx ++ [w], fed := if x.tx.isEmpty then c else x.fed }

/-- The head of the RX FIFO removed in raw cycle `c`. -/
def Shunter.popRx (x : Shunter) (c : Nat) : Shunter :=
  { x with rx := x.rx.tail, freed := if 8 ≤ x.rx.length then c else x.freed }

/-- A write of TXF (R250). -/
def State.txf (s : State) (r : Requester) (n : Nat) (v : Word) : State :=
  let x := s.shunter n
  let a := SHN.TXF.V.off + pgAt n
  if s.shOn n SHN.TXDMA_LEN.EN then s.discard a r .mode
  else if x.txFree = 0 then (s.shIrq n SHN.IRQ_RAW.TX_OVF).discard a r .busy
  else s.setShunter n (x.feed v s.raw)

/-- A read of RXF (R250): the state after it, and the word. -/
def State.rxf (s : State) (r : Requester) (n : Nat) : State × Word :=
  let x := s.shunter n
  if s.shOn n SHN.RXDMA_CFG.EN then (s.discard (SHN.RXF.V.off + pgAt n) r .mode, 0)
  else
    match x.rx with
    | [] => (s, 0)
    | w :: _ => (s.setShunter n (x.popRx s.raw), w)

/-- Word of the log store that a shunter's DMA reaches. -/
def State.txWord (s : State) (n k : Nat) : Nat := s.shF n SHN.TXDMA_BASE.V + k
def State.rxWord (s : State) (n k : Nat) : Nat := s.shF n SHN.RXDMA_BASE.V + k

/-- TX DMA issues a read, reserving a slot (R252). -/
def State.txIssue (s : State) (n : Nat) : State :=
  let x := s.shunter n
  let len := s.shF n SHN.TXDMA_LEN.LEN
  let more := x.issued < len || s.shOn n SHN.TXDMA_LEN.LOOP
  if s.shOn n SHN.TXDMA_LEN.EN ∧ 0 < x.txFree ∧ x.flight.length < 2 ∧ more = true ∧ 0 < len then
    let k := x.issued % len
    let i := s.txWord n k % (2 ^ 19)
    s.dma (i / 32768) (9 + n) (fun s =>
      (s.logRead i).setShunter n { x with flight := x.flight ++ [(s.logPeek i, true)], issued := k + 1 })
  else s

/-- A read of TX DMA completes into its slot; the pass ends or loops after LEN words (R252). -/
def State.txStore (s : State) (n : Nat) : State :=
  let x := s.shunter n
  match x.flight with
  | [] => s
  | (w, mine) :: rest =>
    let x := { x.feed w s.raw with flight := rest }
    let len := s.shF n SHN.TXDMA_LEN.LEN
    if !mine then s.setShunter n x
    else if x.pos + 1 < len then s.setShunter n { x with pos := x.pos + 1 }
    else if s.shOn n SHN.TXDMA_LEN.LOOP then
      s.setShunter n { x with pos := 0, passes := (x.passes + 1) % 65536 }
    else
      let s := s.setShunter n { x with pos := x.pos + 1 }
      if s.shOn n SHN.TXDMA_LEN.EN then (s.clr SHN.TXDMA_LEN.EN (pgAt n)).shIrq n SHN.IRQ_RAW.TXDMA_DONE else s

/-- RX DMA moves the head word of the RX FIFO into its ring (R253). -/
def State.rxMove (s : State) (n : Nat) : State :=
  let x := s.shunter n
  let size := s.shF n SHN.RXDMA_CFG.SIZE
  if !s.shOn n SHN.RXDMA_CFG.EN ∨ size = 0 then s
  else
    let full (x : Shunter) : Bool := (x.wp + 1) % size = x.rp
    if full x then s.shIrq n SHN.IRQ_RAW.RXDMA_FULL
    else
      match x.rx with
      | [] => s
      | w :: _ =>
        let i := s.rxWord n x.wp % (2 ^ 19)
        s.dma (i / 32768) (25 + n) (fun s =>
          let y := { x.popRx s.raw with wp := (x.wp + 1) % size }
          let s := (s.logWrite i w).setShunter n y
          if full y then s.shIrq n SHN.IRQ_RAW.RXDMA_FULL else s)

/-! ### Debug-halt and steps -/

/-- Debug-halt left after `d` cycles (R373): every shunter resumes at its tick phase. -/
def State.shnThaw (s : State) (d : Nat) : State :=
  { s with shn := s.shn.map (fun e => (e.1, { e.2 with tick := e.2.tick + d * 256 })) }

/-- A step of vehicle time by `d` units (R258). -/
def State.stepShunters (s : State) (shift : Bool) (d : Int) : State :=
  (s.shn.map (fun e => e.1)).foldl (fun s n =>
    let x := s.shunter n
    let start := x.start.map (fun e => if shift ∨ e.angle then { e with time := bitsOfInt 64 (e.time + d) } else e)
    let s := s.setShunter n { x with start := start }
    let passed (t : Nat) : Bool := s.rawOf (t * 64) ≤ s.raw * 64
    let s := match x.target with
      | some t => if 8 ≤ t ∧ passed (t - 8) then s.shAtResolve n else s
      | none => s
    match x.wait with
    | some w => (match w.dl with | some t => if passed t then s.shWaitDeadline n else s | none => s)
    | none => s) s

/-! ### Registers that read the state -/

def ShnSt.code : ShnSt → Nat
  | .halted => 0
  | .running => 1
  | .atWait => 2
  | .pinWait => 3
  | .loadStall => 4
  | .storeStall => 5

/-- The state that STS reads: a stall ends in the cycle after its FIFO changed, though its instruction completes at a tick (R241,
R251). -/
def State.shnSt (s : State) (n : Nat) : ShnSt :=
  let x := s.shunter n
  let ended : Bool := (x.st = .loadStall && !x.tx.isEmpty && decide (x.fed < s.raw))
    || (x.st = .storeStall && decide (x.rx.length < 8) && decide (x.freed < s.raw))
  if ended && s.mode ≠ .halt then .running else x.st

def State.liveShn (s : State) (n o : Nat) (w : Word) : Word :=
  let x := s.shunter n
  let b (v : Bool) (k : Nat) : Nat := if v then 2 ^ k else 0
  if o = 0x0C then
    word (x.pc * 2 ^ 24 + x.pins * 2 ^ 16 + x.drv * 2 ^ 8 + b x.reject 7 + b x.tmo 6 + b x.late 5 + x.rsn * 8 + (s.shnSt n).code)
  else if o = 0x5C then x.a
  else if o = 0x60 then x.b
  else if o = 0x64 then x.t
  else if o = 0x68 then x.sw
  else if o = 0x6C then x.rw
  else if o = 0x70 then word (b x.nodata 31 + x.rf * 2 ^ 8 + x.sf)
  else if o = 0x7C then
    word (x.tx.length + x.txFree * 16 + x.flight.length * 2 ^ 8 + x.rx.length * 2 ^ 16 + (8 - x.rx.length) * 2 ^ 20)
  else if o = 0x88 then word (x.passes * 2 ^ 16 + x.pos)
  else if o = 0x94 then word x.wp
  else if o = 0x98 then word x.rp
  else if o = 0xA0 then word (x.l1 * 2 ^ 16 + x.l0)
  else w

end Sys2Proof.Machine
end

