-- ==== Sys2Proof/Machine/CnsOps.lean ====
section
/-! DEFINITION. Consist slots (file 13: R304 to R313): their outcomes and their boundaries. -/

namespace Sys2Proof.Machine

def State.consist (s : State) (k : Nat) : Consist := SMap.get (fun _ => {}) s.cons k

def State.setConsist (s : State) (k : Nat) (x : Consist) : State := { s with cons := SMap.put (fun _ => {}) s.cons k x }

/-- Outcome codes of a consist (table of CNS registers). -/
abbrev coCommitted : Nat := 1
abbrev coRolledBack : Nat := 2
abbrev coOverflow : Nat := 3
abbrev coCheckFailed : Nat := 4
abbrev coEntryLost : Nat := 5
abbrev coMissed : Nat := 6
abbrev coAborted : Nat := 7
abbrev coParity : Nat := 8

/-- CMD.WHEN codes. -/
abbrev whNext : Nat := 0
abbrev whDep : Nat := 1
abbrev whEntry : Nat := 2

/-- The consist that a requester identity holds (R304). -/
def State.consistOf (s : State) (id : Nat) : Option Nat :=
  (List.range 4).find? (fun k => (s.consist k).st ≠ .free && (s.consist k).owner = id)

/-- Free staging places (R304). -/
def State.freePlaces (s : State) : Nat := 512 - (s.cons.map (fun e => e.2.places.length)).sum

/-- An outcome recorded for a consist's owner and counted (R305). -/
def State.noteOutcome (s : State) (owner out : Nat) : State :=
  let s := s.setPreg owner CNS.MYSTS.LAST.off (word (out * 2 ^ 12))
  if out = coCommitted then (s.set1 CNS.IRQ_RAW.COMMITTED).bump CNS.CNT_EVT.LO
  else if out = coRolledBack then s
  else
    let s := (s.set1 CNS.IRQ_RAW.FAILED).bump CNS.CNT_EVT.HI
    if out = coParity then s.fault 0xB else s

/-- A consist ends with an outcome (R305): its slot is FREE and its places return to the pool; a mirrored one that does
not commit ends on the peer too (R355). The ACTIVE entry that ordered it has acted, or is discarded. -/
def State.consistEnd (s : State) (k out : Nat) : State :=
  let x := s.consist k
  let y := { x with st := .free, places := [], dep := none, passed := false, byp := false }
  if out = coRolledBack ∧ x.st = .broken then s.setConsist k y
  else
    let s := if x.st = .closed ∧ out ≠ coCommitted then s.mirror (.consEnd k out) else s
    let s : State := if s.twn.st = .primary then
        { s with twn := { s.twn with cons := s.twn.cons.filter (fun m => m.slot ≠ k) } }
      else s
    let s := if x.st = .closed ∧ x.whn = whEntry then
        s.acted (.slot x.entry)
          (if out = coCommitted then outActed else if out = coAborted then outAborted else outDiscarded)
      else s
    (s.setConsist k { y with last := out }).noteOutcome x.owner out

/-- A consist breaks (R308). -/
def State.consistBreak (s : State) (k : Nat) : State :=
  let x := s.consist k
  ((s.setConsist k { x with st := .broken, last := coOverflow, places := [] }).set1 CNS.IRQ_RAW.OVERFLOW).noteOutcome
    x.owner coOverflow

/-- The CLOSED consist that names entry `i` (R94). -/
def State.consistFor (s : State) (i : Nat) : Option Nat :=
  (List.range 4).find? (fun k => (s.consist k).st = .closed && (s.consist k).whn = whEntry && (s.consist k).entry = i)

/-- Entry `i` leaves the timetable without acting (R311). -/
def State.entryLost (s : State) (i : Nat) : State :=
  match s.consistFor i with
  | none => s
  | some k => s.consistEnd k coEntryLost

/-- The first departure whose cycle c lies at least `n` cycles after now. -/
def State.boundaryAfter (s : State) (n : Nat) : Nat := (s.cyc + n + s.dsp.period - 1) / s.dsp.period

/-- The commit boundary of an entry (R94): the first whose cycle c is at or after its DUE. -/
def State.commitBoundary (s : State) (due : Nat) : Nat := (due + 64 * s.dsp.period - 1) / (64 * s.dsp.period)

/-- Cycle c of a consist's boundary lies less than `n` cycles ahead (R309, R313). -/
def State.tooNear (s : State) (d n : Nat) : Bool := decide (d * s.dsp.period < s.cyc + n)

/-- A CLOSED consist whose boundary's cycle c lies less than 2 cycles ahead: neither a ROLLBACK nor an abort reaches it
any more (R313, R318). -/
def State.committing (s : State) (k : Nat) : Bool :=
  let x := s.consist k
  x.st = .closed && (match x.dep with | some d => s.tooNear d 2 | none => false)

/-- The CLOSED consists whose cycle c came in a mode without commits that the device now leaves (R312): MISSED. -/
def State.missPassed (s : State) : State :=
  (List.range 4).foldl (fun s k =>
    let x := s.consist k
    match x.dep with
    | some d => if x.st = .closed && decide (d ≤ s.dep) then s.consistEnd k coMissed else s
    | none => s) s

/-- Every consist ends with outcome ABORTED (R316), but for those about to commit (R318). -/
def State.cnsAbort (s : State) : State :=
  (List.range 4).foldl (fun s k =>
    if (s.consist k).st = .free || s.committing k then s else s.consistEnd k coAborted) s

/-- State codes of a consist. -/
def ConsistSt.code : ConsistSt → Nat
  | .free => 0
  | .opened => 1
  | .closed => 2
  | .broken => 3

/-- The consist at `k` as KSTS reads it. -/
def Consist.status (x : Consist) : Nat :=
  x.st.code * 2 ^ 29 + x.whn * 2 ^ 27 + (if x.byp then 2 ^ 26 else 0) + x.places.length * 2 ^ 16 + x.owner * 2 ^ 8
    + x.last * 2 ^ 4

/-- The CNS words that follow state. -/
def State.liveCns (s : State) (r : Requester) (o : Nat) (w : Word) : Word :=
  let bitsOf (p : Consist → Bool) : Nat := ((List.range 4).map (fun k => if p (s.consist k) then 2 ^ k else 0)).sum
  if o = 0x0C then
    word (bitsOf (fun x => x.st = .opened) * 2 ^ 28 + bitsOf (fun x => x.st = .closed) * 2 ^ 24
      + (if bitsOf (fun x => x.st = .opened && x.byp) ≠ 0 then 2 ^ 16 else 0) + s.freePlaces)
  else if o = 0x4C then
    let last := s.preg r.id CNS.MYSTS.LAST.off
    match s.consistOf r.id with
    | none => last
    | some k =>
      let x := s.consist k
      word (2 ^ 31 + x.st.code * 2 ^ 28 + k * 2 ^ 26 + x.places.length * 2 ^ 16 + last.toNat)
  else if 0x50 ≤ o ∧ o < 0x60 then word (s.consist ((o - 0x50) / 4)).status
  else if 0x60 ≤ o ∧ o < 0x70 then
    let x := s.consist ((o - 0x60) / 4)
    word (if x.whn = whEntry then x.entry else x.dep.getD 0)
  else w

/-! ### Consists on the peer (R355) -/

/-- A change of the twin's own state. -/
def State.onTwn (s : State) (f : Twn → Twn) : State := { s with twn := f s.twn }

/-- A CONS_AT record: the boundary of a WHEN = ENTRY commit. -/
def consAt (k dep seq : Nat) (cs : List MirCns) : List MirCns :=
  cs.map (fun m => if m.slot = k && m.whn = whEntry then { m with dep := some dep, seq := seq, acked := none } else m)

/-- The boundary of a WHEN = ENTRY commit mirrored as its entry is moved (R355). -/
def State.mirrorConsAt (s : State) (k dep : Nat) : State :=
  if !s.mirrors then s
  else
    let s := s.mirror (.consAt k dep)
    let n := s.twn.enq
    s.onTwn fun x => { x with cons := consAt k dep n x.cons }

end Sys2Proof.Machine
end

