-- ==== Sys2Proof/Machine/Invoc.lean ====
section
/-! DEFINITION. The engines' banks, levels and pending invocations (file 06: R146 to R153). -/

namespace Sys2Proof.Machine

def State.engine (s : State) (e : Nat) : Engine := SMap.get (fun _ => {}) s.eng e

def State.setEngine (s : State) (e : Nat) (x : Engine) : State := { s with eng := SMap.put (fun _ => {}) s.eng e x }

def State.enF (s : State) (e : Nat) (g : Fld) : Nat := s.f g (pgAt e)
def State.enOn (s : State) (e : Nat) (g : Fld) : Bool := s.on g (pgAt e)
def State.enIrq (s : State) (e : Nat) (g : Fld) : State := s.set1 g (pgAt e)

def Engine.bank (x : Engine) (l : Nat) : Bank := SMap.get (fun _ => {}) x.banks l
def Engine.setBank (x : Engine) (l : Nat) (b : Bank) : Engine := { x with banks := SMap.put (fun _ => {}) x.banks l b }

/-- The routine that occupies level `l`. -/
def Engine.at_ (x : Engine) (l : Nat) : Option Routine := SMap.get (fun _ => none) x.routines l
def Engine.setAt (x : Engine) (l : Nat) (r : Option Routine) : Engine :=
  { x with routines := SMap.put (fun _ => none) x.routines l r }

def Engine.ev (x : Engine) (v : Nat) : Option VecPend := SMap.get (fun _ => none) x.evs v
def Engine.setEv (x : Engine) (v : Nat) (p : Option VecPend) : Engine := { x with evs := SMap.put (fun _ => none) x.evs v p }
def Engine.db (x : Engine) (v : Nat) : Option VecPend := SMap.get (fun _ => none) x.dbs v
def Engine.setDb (x : Engine) (v : Nat) (p : Option VecPend) : Engine := { x with dbs := SMap.put (fun _ => none) x.dbs v p }

def Bank.gr (b : Bank) (i : Nat) : Word := SMap.get (fun _ => 0) b.g i
def Bank.setG (b : Bank) (i : Nat) (v : Word) : Bank := { b with g := SMap.put (fun _ => 0) b.g i v }
def Bank.sr (b : Bank) (i : Nat) : Nat := SMap.get (fun _ => 0) b.st i
def Bank.setS (b : Bank) (i v : Nat) : Bank := { b with st := SMap.put (fun _ => 0) b.st i (v % 2 ^ 64) }

/-- A bank register written, by its destination code (R181): whole stamp registers where `wide`. -/
def Bank.put (b : Bank) (dst v : Nat) (wide : Bool) : Bank :=
  if dst < 0x10 then b.setG dst (word v)
  else if dst < 0x14 then
    let i := dst - 0x10
    b.setS i (if wide then v else b.sr i / 2 ^ 32 * 2 ^ 32 + v % 2 ^ 32)
  else if dst < 0x18 then
    let i := dst - 0x14
    b.setS i (v % 2 ^ 32 * 2 ^ 32 + b.sr i % 2 ^ 32)
  else b

/-- An engine that takes no invocation: HELD or FAULTED (R147 to R150). -/
def Engine.closed (x : Engine) : Bool := x.st = .held || x.st = .faulted

/-! ### Pending invocations (R147 to R152) -/

/-- A pending invocation: its level, address, class, number (slot or vector), pending cycle. -/
structure Inv where
  cls : InvClass
  num : Nat
  lvl : Nat
  addr : Nat
  since : Nat
  dep : Option Nat := none
  deriving DecidableEq, Repr

def Call.inv (c : Call) : Option Inv :=
  c.pend.map (fun p => {
    cls := if c.late then .late else .call, num := c.slot, lvl := p.1, addr := c.addr, since := p.2.1
    dep := if c.late then none else some p.2.2 })

def vecInv (cls : InvClass) (e : Nat × Option VecPend) : Option Inv :=
  e.2.map (fun p => { cls := cls, num := e.1, lvl := p.lvl, addr := p.addr, since := p.since })

/-- Every pending invocation of an engine. -/
def Engine.pendings (x : Engine) : List Inv :=
  x.calls.filterMap Call.inv ++ x.evs.filterMap (vecInv .event) ++ x.dbs.filterMap (vecInv .doorbell)

/-- The order of classes that become pending in one cycle (R152). -/
def InvClass.rank : InvClass → Nat
  | .late => 0
  | .call => 1
  | .event => 2
  | .doorbell => 3

/-- `a` starts before `b` at one level (R152). -/
def Inv.before (a b : Inv) : Bool :=
  a.since < b.since || (a.since = b.since && (a.cls.rank < b.cls.rank || (a.cls.rank = b.cls.rank && a.num ≤ b.num)))

/-- The first of the invocations pending at level `l`. -/
def Engine.firstAt (x : Engine) (l : Nat) : Option Inv :=
  (x.pendings.filter (fun i => i.lvl = l)).foldl
    (fun o i => match o with | none => some i | some j => if j.before i then some j else some i) none

/-- Levels that a routine occupies; levels whose routine is ready. -/
def Engine.present (x : Engine) : List Nat := (List.range 8).filter (fun l => (x.at_ l).isSome)
def Engine.readyAt (x : Engine) (l : Nat) : Bool := match x.at_ l with | some r => r.wait.isNone | none => false
def Engine.ready (x : Engine) : List Nat := (List.range 8).filter x.readyAt

/-- The highest ready level. -/
def Engine.top (x : Engine) : Option Nat := x.ready.reverse.head?

/-- The invocation that starts next (R152): the highest level with one pending, free and above every ready routine; none
while a section is open (R161) or in HALTED. -/
def Engine.startable (x : Engine) : Option Inv :=
  if x.sect.isSome ∨ x.closed ∨ x.st = .halted then none
  else
    ((List.range 8).reverse.find? (fun l =>
      (x.at_ l).isNone && (x.firstAt l).isSome && x.ready.all (fun k => k < l))).bind x.firstAt

/-- STATE after a change of what is present (R146). -/
def Engine.settled (x : Engine) : Engine :=
  if x.st = .held ∨ x.st = .faulted ∨ x.st = .halted then x
  else if x.present = [] then
    { x with st := if x.pendings ≠ [] ∧ (x.st = .running ∨ x.st = .waiting) then x.st else .idle }
  else { x with st := if x.ready = [] then .waiting else .running }

/-- The level whose word executes next: the level of the open section, else the highest ready one (R152, R161). -/
def Engine.runs (x : Engine) : Option Nat :=
  match x.sect with
  | some c => some c.lvl
  | none => x.top

end Sys2Proof.Machine
end

