-- ==== Sys2Proof/Machine/SlotOps.lean ====
section
/-! DEFINITION. Timetable slots (file 04: R91 to R108): entry fields, the free list, waiting places, retirement, chains,
and the loads of entries inside their targets. -/

namespace Sys2Proof.Machine

/-! ### Entry fields (R91) -/

def eTarget (b : Nat) : Nat := bitsAt b 120 8
def eAction (b : Nat) : Nat := bitsAt b 116 4
def eAngle (b : Nat) : Bool := bitsAt b 115 1 = 1
def eLate (b : Nat) : Nat := bitsAt b 113 2
def eCenter (b : Nat) : Bool := bitsAt b 112 1 = 1
def ePrio (b : Nat) : Nat := bitsAt b 110 2
def eProv (b : Nat) : Bool := bitsAt b 109 1 = 1
def eLinked (b : Nat) : Bool := bitsAt b 108 1 = 1
def eLink (b : Nat) : Nat := bitsAt b 94 14
def eArg (b : Nat) : Nat := bitsAt b 64 30
def eDue (b : Nat) : Nat := bitsAt b 0 64
/-- Turntable, revolution and angle of an angle-domain DUE. -/
def eTurn (b : Nat) : Nat := bitsAt b 53 3
def eRev (b : Nat) : Nat := bitsAt b 24 29
def eAng (b : Nat) : Nat := bitsAt b 0 24

/-- Action codes (R93). -/
abbrev acNop : Nat := 0
abbrev acPulse : Nat := 4
abbrev acRuStart : Nat := 7
abbrev acRuStop : Nat := 8
abbrev acAdcSeq : Nat := 9
abbrev acShnStart : Nat := 10
abbrev acMeCall : Nat := 11
abbrev acCommit : Nat := 13

/-- The action's target is a track (R93). -/
def trackAction (a : Nat) : Bool := (1 ≤ a && a ≤ 6) || a = 12 || a = 14

/-- The effective start of a time-domain entry (R105). -/
def startOf (b : Nat) : Nat :=
  if eAction b = acPulse ∧ eCenter b then (eDue b + 2 ^ 64 - eArg b / 2) % 2 ^ 64 else eDue b

/-- dep(start) (R10). -/
def State.depOf (s : State) (t : Nat) : Nat := t / 64 / s.dsp.period

/-! ### Insertion checks (R93, R97) -/

def targetOk (b : Nat) : Bool :=
  let t := eTarget b
  let a := eAction b
  if trackAction a then true
  else if a = acRuStart ∨ a = acRuStop then t < 32
  else if a = acAdcSeq then t < 3
  else if a = acShnStart then t < 16
  else if a = acMeCall then t < 8
  else t = 0

def argOk (b : Nat) : Bool :=
  let a := eAction b
  if a = acRuStart then eArg b / 2 ^ 24 = 0
  else if a = acShnStart then eArg b / 2 ^ 9 = 0
  else if a = acCommit then eArg b = 0
  else true

/-- The entries of checked insertions whose sections have not committed (R164). -/
def State.heldBits (s : State) : List Nat :=
  s.eng.flatMap (fun e => match e.2.sect with
    | none => []
    | some x => x.writes.filterMap (fun w => match w with | .ins _ _ b => some b | _ => none))

/-- An entry that is in use names slot `l` as its successor (R97). -/
def State.named (s : State) (l : Nat) : Bool :=
  s.slots.any (fun e => eLinked e.2.bits && eLink e.2.bits = l && e.2.place ≠ .reserved
    && (e.2.st = .queued || e.2.st = .active || (e.2.st = .retiring && e.2.chain)))
  || s.heldBits.any (fun b => eLinked b && eLink b = l)

/-- The head of the free list (R97). -/
def State.freeHead (s : State) : Option Nat :=
  match s.dsp.front with
  | i :: _ => some i
  | [] => if s.dsp.fresh < 16384 then some s.dsp.fresh else s.dsp.freed.head?

/-- The free list without its head. -/
def State.freeTail (s : State) : State :=
  match s.dsp.front with
  | _ :: f => { s with dsp := { s.dsp with front := f } }
  | [] =>
    if s.dsp.fresh < 16384 then { s with dsp := { s.dsp with fresh := s.dsp.fresh + 1 } }
    else { s with dsp := { s.dsp with freed := s.dsp.freed.tail } }

/-- The result of the checks of R97, coded as the table of insertion results. -/
def State.insertCode (s : State) (b : Nat) (park : Bool) : Nat :=
  let ttOff := !s.on TTN.CTL.EN (pgAt (eTurn b))
  if s.mode = .standby then 8
  else if eAction b = 15 then 2
  else if !targetOk b then 3
  else if eAngle b ∧ park ∧ ttOff then 9
  else if eAngle b ∧ (eAction b = acCommit ∨ eDue b / 2 ^ 56 ≠ 0 ∨ ttOff) then 4
  else if eCenter b ∧ eAction b ≠ acPulse then 5
  else if eLinked b ∧ (!(s.slot (eLink b)).st = .queued ∨ (s.slot (eLink b)).place ≠ .parked ∨ s.named (eLink b)) then 6
  else if !argOk b then 7
  else if s.freeHead = none then 1
  else 0

/-- The ERR_CAP reason of a refused insertion. -/
def insReason (c : Nat) : Reason := if c = 1 then .busy else if c = 8 then .mode else .range

/-! ### Placing -/

/-- A QUEUED entry hung in place `p`, at the end of its list. DESIGN CHOICE (entry 39): insertion order inside a list is
the order in which entries join it. -/
def State.hang (s : State) (i : Nat) (p : Place) (start bkt : Nat) : State :=
  let s := s.setSlot i { s.slot i with place := p, start := start, bkt := bkt, ord := s.dsp.ord }
  { s with dsp := { s.dsp with ord := s.dsp.ord + 1 } }

/-- A time-domain entry placed by dep(start) (table of waiting places). -/
def State.placeTime (s : State) (i start : Nat) : State :=
  let d := s.depOf start
  if s.dep + 4096 ≤ d then s.hang i .far start d
  else if s.dep + 2 ≤ d then s.hang i .rota start d
  else s.hang i .imm start d

/-- An entry placed when it is inserted or unparked. -/
def State.placeEntry (s : State) (i : Nat) : State :=
  let b := (s.slot i).bits
  if eAngle b then s.hang i .wheel 0 0 else s.placeTime i (startOf b)

/-- The four words of a slot written, with fresh check bits (R91, R264). -/
def State.writeSlot (s : State) (i : Nat) (x : Slot) : State :=
  (List.range 4).foldl (fun s j => s.setEcc stTt (4 * i + j) 0) ((s.setSlot i x).touch stTt)

/-- The free list's head taken for an entry: QUEUED, not yet placed. -/
def State.takeSlot (s : State) (b : Nat) : State × Nat :=
  match s.freeHead with
  | none => (s, 0)
  | some i => (s.freeTail.writeSlot i { bits := b, st := .queued }, i)

/-- The free list's head taken by a checked insertion of a section (R164): it counts as QUEUED, and its words are written
when the section commits; the slot keeps its last outcome, which a discarded section leaves it (R165). -/
def State.reserveSlot (s : State) : State × Nat :=
  match s.freeHead with
  | none => (s, 0)
  | some i => (s.freeTail.setSlot i { bits := (s.slot i).bits, out := (s.slot i).out, st := .queued, place := .reserved }, i)

/-- A taken entry parked or placed. -/
def State.seat (s : State) (i : Nat) (park : Bool) : State :=
  if park then s.hang i .parked 0 0 else s.placeEntry i

/-! ### Leaving the timetable -/

/-- A slot made FREE with an outcome (R100). -/
def State.freeSlot (s : State) (i out : Nat) : State :=
  let x := s.slot i
  let s := if x.st = .queued ∨ x.st = .active then s.entryLost i else s
  let s := s.setSlot i { bits := x.bits, out := out }
  { s with dsp := { s.dsp with freed := s.dsp.freed ++ [i] } }

/-- An entry becomes RETIRING with an outcome (R100); its successor is treated in the next cycle (R107); the retirement is
mirrored (R352); a consist that waits for an entry that has not acted is lost (R311). -/
def State.retire (s : State) (i out : Nat) (held : Bool := false) : State :=
  let x := s.slot i
  let s := if out = outActed ∨ out = outActedLate then s else s.entryLost i
  let s := s.setSlot i { x with
    st := .retiring, place := .nowhere, out := out, acted := none, held := held, chain := eLinked x.bits }
  s.mirror (.ret i out)

/-- Parked entries reachable from `i` through LINK, at most `n`. -/
def State.chainFrom (s : State) : Nat → Nat → List Nat
  | 0, _ => []
  | n + 1, i =>
    let x := s.slot i
    if x.st = .queued ∧ x.place = .parked then i :: (if eLinked x.bits then s.chainFrom n (eLink x.bits) else [])
    else []

/-- Entries of a list freed with an outcome. -/
def State.freeAll (s : State) (is : List Nat) (out : Nat) : State := is.foldl (fun s i => s.freeSlot i out) s

/-- What an outcome brings the successor: it is unparked, or cut (R107). -/
def chains (out : Nat) : Bool :=
  out = outActed || out = outActedLate || out = outSkipped || out = outLateCalled

/-- The successor of a RETIRING entry treated (R107). -/
def State.successor (s : State) (i : Nat) : State :=
  let x := s.slot i
  let l := eLink x.bits
  let y := s.slot l
  let s := s.setSlot i { x with chain := false }
  if y.st ≠ .queued ∨ y.place ≠ .parked then s.set1 DSP.IRQ_RAW.LINK_ERR
  else if !chains x.out ∧ s.on DSP.CTL.CHAINBRK then s.freeAll (s.chainFrom 16384 l) outChainCut
  else s.placeEntry l

/-- The four counts of the entry books (R103). -/
def State.countBooks (s : State) : Nat × Nat × Nat × Nat :=
  let n (st : SlotSt) : Nat := (s.slots.filter (fun e => e.2.st = st)).length
  let q := n .queued
  let a := n .active
  let r := n .retiring
  (16384 - q - a - r, q, a, r)

/-! ### Loads inside their targets (R108, R122, R133) -/

/-- A compare is the load of entry `i`. -/
def Cmp.of (c : Option Cmp) (i : Nat) : Bool := c.map Cmp.src = some (.slot i)

/-- A track's load of entry `i` removed. -/
def State.trkDrop (s : State) (t i : Nat) : State :=
  let x := s.track t
  let d (c : Option Cmp) : Option Cmp := if Cmp.of c i then none else c
  let y := { x with
    aAct := d x.aAct, aShd := d x.aShd, bAct := d x.bAct, bShd := d x.bShd
    marks := x.marks.filter (fun c => c.src ≠ .slot i)
    stop := match x.stop with | some (u, src) => if src = .slot i then none else some (u, src) | none => none }
  (s.setTrack t y).promote t

/-- An engine without the call of entry `i`, nor a routine of it that has not executed its first word (R147). -/
def Engine.dropCall (e : Engine) (i : Nat) : Engine :=
  let keep (r : Option Routine) : Option Routine :=
    match r with
    | some x => if x.cls = .call ∧ x.slot = i ∧ x.first then none else some x
    | none => none
  { e with
    calls := e.calls.filter (fun c => c.late || c.slot ≠ i)
    routines := (e.routines.map (fun p => (p.1, keep p.2))).filter (fun p => p.2 ≠ none) }

/-- The load of an ACTIVE entry taken out of its target, which discards it with outcome `out`. -/
def State.withdraw (s : State) (i out : Nat) : State :=
  let b := (s.slot i).bits
  let a := eAction b
  let t := eTarget b
  let src := LoadSrc.slot i
  let s := s.acted src out
  if trackAction a then s.trkDrop t i
  else if a = acRuStart then if (s.ruler t).start.map RuStart.src = some src then s.ruDropStart t out else s
  else if a = acRuStop then if (s.ruler t).stop.map RuStop.src = some src then s.ruDropStop t out else s
  else if a = acAdcSeq then
    let x := s.sqr t
    s.setSqr t { x with loads := x.loads.filter (fun l => l.src ≠ src) }
  else if a = acShnStart then if (s.shunter t).start.map ShnStart.src = some src then s.shDropStart t out else s
  else if a = acMeCall then
    let e := SMap.get (fun _ => ({} : Engine)) s.eng t
    { s with eng := SMap.put (fun _ => {}) s.eng t (e.dropCall i).settled }
  else s

/-- A compare of entry `i` moved to a new time, with the raw unit before which it does not act (R133). -/
def Cmp.retimed (c : Option Cmp) (i time floor : Nat) : Option Cmp :=
  c.map (fun c => if c.src = .slot i then { c with time := time, floor := floor } else c)

/-- The later of a start and the second cycle after now: when a late load of no track acts (R104, R133). -/
def State.laterStart (s : State) (start : Nat) : Nat :=
  let e := s.vtAt ((s.raw + 2) * 64)
  if vtDiff start e < 0 then e else start

/-- The call of entry `i` re-predicted (R133, R147): it leaves what is pending, and the level it started on where its first
word has not executed, and becomes pending at its new start. DEDUCED (entry 40): the queue holds it again until then. -/
def Engine.recall (e : Engine) (i : Nat) (c : Call) : Engine :=
  let started : Bool := e.routines.any (fun p => match p.2 with
    | some r => decide (r.cls = .call ∧ r.slot = i ∧ r.first) | none => false)
  if started ∨ e.calls.any (fun d => !d.late && d.slot = i) then
    let d := e.dropCall i
    ({ d with calls := d.calls ++ [c] } : Engine).settled
  else e

/-- The start of an ACTIVE angle entry rewritten in its target until the target acts (R133): a PULSE keeps its width; a
start earlier than two cycles from now does not act before then. -/
def State.retime (s : State) (i start : Nat) : State :=
  if (s.slot i).acted.isSome then s else
  let b := (s.slot i).bits
  let a := eAction b
  let t := eTarget b
  let src := LoadSrc.slot i
  let early := decide (vtDiff start (s.vtAt ((s.raw + 2) * 64)) < 0)
  let floor := if early then (s.raw + 2) * 64 else 0
  let s := s.setSlot i { s.slot i with start := start }
  if trackAction a then
    let x := s.track t
    let stop := (start + width30 (eArg b)) % 2 ^ 64
    let g (c : Option Cmp) : Option Cmp := Cmp.retimed c i start floor
    let h (c : Option Cmp) : Option Cmp :=
      if (c.map (fun c => c.act.second)).getD false then Cmp.retimed c i stop 0 else g c
    s.setTrack t { x with
      aAct := g x.aAct, aShd := g x.aShd, bAct := h x.bAct, bShd := h x.bShd
      marks := x.marks.map (fun c => if c.src = src then { c with time := s.laterStart start } else c)
      stop := match x.stop with | some (u, r) => some (if r = src then s.laterStart start else u, r) | none => none }
  else if a = acRuStart then
    let x := s.ruler t
    match x.start with
    | some st =>
      -- a start within four cycles begins under the second case of R203 (R205)
      let near := decide (vtDiff start (s.vtAt ((s.raw + 4) * 64)) < 0)
      if st.src = src then
        s.setRuler t { x.unformed with
          start := some { st with time := start, late := near, loaded := if near then s.raw else st.loaded } }
      else s
    | none => s
  else if a = acRuStop then
    let x := s.ruler t
    match x.stop with
    | some p => if p.src = src then s.setRuler t { x with stop := some { p with time := start, floor := floor } } else s
    | none => s
  else if a = acAdcSeq then
    let x := s.sqr t
    match x.loads.find? (fun l => l.src = src) with
    | some l => s.setSqr t { x with loads := insLoad { l with time := start, floor := floor } (x.loads.erase l) }
    | none => s
  else if a = acShnStart then
    let x := s.shunter t
    match x.start with
    | some e => if e.src = src then s.setShunter t { x with start := some { e with time := start, floor := floor / 64 } } else s
    | none => s
  else if a = acMeCall then
    let e := SMap.get (fun _ => ({} : Engine)) s.eng t
    let c : Call := {
      slot := i, addr := eArg b % 2 ^ 13, param := eArg b / 2 ^ 13, prio := ePrio b, start := start, angle := eAngle b
      floor := floor / 64 }
    { s with eng := SMap.put (fun _ => {}) s.eng t (e.recall i c) }
  else s

end Sys2Proof.Machine
end

