-- ==== Sys2Proof/Machine/EngOps.lean ====
section
/-! DEFINITION. The engines apart from their words (file 06: R144 to R174): banks, invocations, sections discarded, faults,
abort. -/

namespace Sys2Proof.Machine

/-! ### Calls (R147, R150) -/

/-- An ME_CALL move is refused (R147). -/
def State.callRefused (s : State) (e : Nat) : Bool :=
  8 ≤ (s.engine e).calls.length || (s.engine e).closed || !s.enOn e MEN.CTL.EN

/-- An ME_CALL delivered to an engine (R147). -/
def State.engCall (s : State) (e due arg prio slot : Nat) (late angle : Bool) : State × Bool :=
  if s.callRefused e then ((s.enIrq e MEN.IRQ_RAW.CALL_REF).bump MEN.CALLQ.REFUSED 1 (pgAt e), false)
  else
    let c : Call := {
      slot := slot, addr := arg % 2 ^ 13, param := arg / 2 ^ 13, prio := prio, start := due, angle := angle
      floor := if late then s.raw + 2 else 0 }
    let x := s.engine e
    (s.setEngine e { x with calls := x.calls ++ [c] }, true)

/-- A late call (R150); the second component tells whether it was made. -/
def State.lateCall (s : State) (slot arg prio start : Nat) : State × Bool :=
  let e := s.f DSP.LATEVEC.ENG
  let x := s.engine e
  if 8 ≤ x.calls.length ∨ x.closed then (s.enIrq e MEN.IRQ_RAW.LATE_OVR, false)
  else
    let c : Call := {
      slot := slot, addr := s.f DSP.LATEVEC.ADDR, param := arg, prio := prio, start := start, late := true
      pend := some (s.enF e MEN.CALLMAP.LATE, s.raw, s.dep) }
    (s.setEngine e { x with calls := x.calls ++ [c] }, true)

/-- The raw cycle in which a queued call becomes pending (R147). -/
def State.callDue (s : State) (c : Call) : Nat := max ((s.rawOf c.start + 63) / 64) c.floor

/-- The queued call that becomes pending first, not yet pending. -/
def State.nextCall (s : State) (x : Engine) : Option Call :=
  (x.calls.filter (fun c => c.pend = none)).foldl
    (fun o c => match o with
      | none => some c
      | some d => if s.callDue d < s.callDue c ∨ (s.callDue d = s.callDue c ∧ d.slot ≤ c.slot) then some d else some c) none

/-- The level of calls of a priority (R147). -/
def State.callLevel (s : State) (e prio : Nat) : Nat := bitsAt (s.reg (MEN.CALLMAP.P0.off + pgAt e)).toNat (3 * prio) 3

/-- The next queued call becomes pending (R147). -/
def State.callPends (s : State) (e : Nat) : State :=
  match s.nextCall (s.engine e) with
  | none => s
  | some c =>
    let s := s.advance (s.callDue c)
    let x := s.engine e
    let p := (s.callLevel e c.prio, s.raw, s.dep)
    s.setEngine e { x with calls := x.calls.map (fun d => if d = c then { d with pend := some p } else d) }

/-! ### Events (R148) -/

/-- Vector `v` of engine `e` names a signal's source. -/
def State.names (s : State) (e v : Nat) (g : Signal) : Bool :=
  let a := pgAt e + 4 * v
  s.on MEN.EV.EN a && s.f MEN.EV.KIND a = g.kind && s.f MEN.EV.INDEX a = g.idx

/-- A signal reaches vector `v` of engine `e`. -/
def State.raiseEv (s : State) (e v : Nat) (g : Signal) : State :=
  let x := s.engine e
  if !s.names e v g ∨ s.raw < SMap.get (fun _ => 0) x.evOn v then s
  else
    match x.ev v with
    | some p =>
      let s := s.setEngine e (x.setEv v (some { p with count := min 15 (p.count + 1) }))
      let s := (s.bump MEN.EVOVR.COALESCED 1 (pgAt e)).setF MEN.EVOVR.VEC v (pgAt e)
      s.enIrq e MEN.IRQ_RAW.EV_OVR
    | none =>
      let a := pgAt e + 4 * v
      s.setEngine e (x.setEv v (some {
        lvl := s.f MEN.EV.LEVEL a, addr := s.f MEN.EV.ADDR a, idx := g.idx, g1 := g.g1, s0 := g.s0, since := s.raw }))

/-- Kinds that an engine accepts in the mode (R357). -/
def State.hears (s : State) (k : Nat) : Bool := s.mode ≠ .standby || k = 6 || k = 7

/-- A signal reaches an engine: ignored in HELD and FAULTED, with EN = 0 and, but for kinds 6 and 7, in Twin-standby. -/
def State.raise1 (s : State) (g : Signal) (e : Nat) : State :=
  if (s.engine e).closed ∨ !s.enOn e MEN.CTL.EN ∨ !s.hears g.kind then s
  else (List.range 8).foldl (fun s v => s.raiseEv e v g) s

/-- The oldest signal reaches the engines, in the cycle after its event. -/
def State.eventSignal (s : State) : State :=
  match s.signals with
  | [] => s
  | g :: gs => (List.range 8).foldl (fun s e => s.raise1 g e) (({ s with signals := gs } : State).advance (g.since + 1))

/-! ### Sections and routines discarded (R154, R165, R171) -/

/-- The slots of a section's checked insertions, in the order taken. -/
def SealSect.taken (x : SealSect) : List Nat :=
  x.writes.filterMap (fun w => match w with | .ins i _ _ => some i | _ => none)

/-- TTR after a discarded section (R189): by its last timetable access, a refused insertion among them. -/
def SealSect.ttr (x : SealSect) (old : Word) : Word :=
  match x.last with
  | none => old
  | some can => if can then 0xB0000000 else 0x80000000

/-- An open section discarded (R165). -/
def State.dropSection (s : State) (e : Nat) : State :=
  let x := s.engine e
  match x.sect with
  | none => s
  | some c =>
    let b := x.bank c.lvl
    let s := c.taken.foldl (fun s i => s.setSlot i { s.slot i with st := .free, place := .nowhere }) s
    let s := { s with dsp := { s.dsp with front := c.taken ++ s.dsp.front } }
    let tt : Option TtWait := match x.tt with
      | some w => if w.lvl = c.lvl ∧ c.last.isSome then none else some w
      | none => none
    s.setEngine e ({ x with sect := none, tt := tt }.setBank c.lvl { b with ttr := c.ttr b.ttr })

/-- The section that an abort finds (R165): discarded where the abort reaches the engine by the cycle of the UNSEAL; later
the commit stands. -/
def State.cutSection (s : State) (e : Nat) : State :=
  match ((s.engine e).sect).bind SealSect.done with
  | some u => if u < s.raw then s else s.dropSection e
  | none => s.dropSection e

/-- The slot that a late call holds released (R104, R150). -/
def State.unhold (s : State) (i : Nat) : State :=
  let x := s.slot i
  if x.st = .retiring ∧ x.held then s.setSlot i { x with held := false } else s

/-- A routine ends (R154); a call that ends without its first word is discarded with outcome `out`. -/
def State.routineEnd (s : State) (e l out : Nat) : State :=
  let x := s.engine e
  match x.at_ l with
  | none => s
  | some r =>
    let s := s.setEngine e (x.setAt l none).settled
    if r.cls = .late then s.unhold r.slot
    else if r.cls = .call ∧ r.first then s.acted (.slot r.slot) out
    else s

def State.routinesEnd (s : State) (e out : Nat) : State :=
  (List.range 8).foldl (fun s l => s.routineEnd e l out) s

/-- An engine becomes FAULTED (R171, R388). -/
def State.engStop (s : State) (e : Nat) : State :=
  let s := s.routinesEnd e outDiscarded
  let x := s.engine e
  (s.setEngine e { x with st := .faulted, evs := [], dbs := [] }).fault 3

/-- Fault reasons (table of fault reasons). -/
abbrev efStack : Nat := 1
abbrev efWrap : Nat := 2
abbrev efNest : Nat := 3
abbrev efOpen : Nat := 4
abbrev efWait : Nat := 5
abbrev efLong : Nat := 6
abbrev efEnd : Nat := 7
abbrev efReserved : Nat := 8
abbrev efMicro : Nat := 9
abbrev efNano : Nat := 10

/-- A fault of the routine at level `l`, whose word stands at `pc` (R171). -/
def State.engFault (s : State) (e l pc reason : Nat) : State :=
  let s := s.setReg (MEN.FAULT.REASON.off + pgAt e) (word (reason * 2 ^ 28 + l * 2 ^ 24 + pc))
  let s := (s.bump MEN.CNT_EVT.LO 1 (pgAt e)).enIrq e MEN.IRQ_RAW.FAULT
  let s := s.dropSection e
  if efMicro ≤ reason ∨ s.enOn e MEN.CTL.FAULTPOL then s.engStop e
  else s.routineEnd e l outDiscarded

/-! ### Holding, halting, abort (R80, R146, R174) -/

/-- The address of a holder register (R78): a track's, a ruling unit's, a window's. -/
def holderReg (a : Nat) : Bool :=
  (0x100000 ≤ a && a < 0x110000 && a % 0x100 = 0x48) || (0x140000 ≤ a && a < 0x160000 && a % 0x1000 = 0x84)
    || (0x16040C ≤ a && a < 0x16060C && a % 16 = 12)

/-- Every claim of a requester identity released (R80). -/
def State.releaseAll (s : State) (id : Nat) : State :=
  s.regs.foldl (fun s e =>
    if holderReg e.1 ∧ s.holderAt e.1 = id then
      let s := s.setHolder e.1 0 0
      if 0x140000 ≤ e.1 ∧ e.1 < 0x160000 then s.setReg e.1 (word (putBits (s.reg e.1).toNat RUL.OWN.TTACC.lo 1 0)) else s
    else s) s

/-- The calls of an engine's queue discarded with outcome `out`; late calls release their slots. -/
def State.dropCalls (s : State) (e out : Nat) : State :=
  let s := (s.engine e).calls.foldl (fun s c => if c.late then s.unhold c.slot else s.acted (.slot c.slot) out) s
  s.setEngine e { s.engine e with calls := [] }

/-- The effect of an abort of an engine (R174). -/
def State.menAbort (s : State) (e : Nat) : State :=
  let s := ((s.cutSection e).routinesEnd e outAborted).dropCalls e outAborted
  let x := s.engine e
  let st : EngSt := if x.st = .held then .held else if x.st = .halted then .halted else .idle
  (s.setEngine e { x with st := st, prior := if x.prior = .held then .held else .idle, evs := [], dbs := [] }).releaseAll
    (0x10 + e)

def engines : List Nat := List.range 8

/-- Every engine HELD: Boot or an image load begins (R146). -/
def State.engHoldAll (s : State) : State :=
  engines.foldl (fun s e =>
    let s := s.menAbort e
    let x := s.engine e
    let banks := x.banks.map (fun p => (p.1, { p.2 with ttr := 0x80000000 }))
    s.setEngine e { x with st := .held, banks := banks, tt := none, mul := none }) s

/-- The gate has passed: every engine IDLE (R146). -/
def State.engIdleAll (s : State) : State :=
  engines.foldl (fun s e => s.setEngine e { s.engine e with st := .idle }) s

/-- Debug-halt entered and left (R146). -/
def State.engHaltAll (s : State) : State :=
  engines.foldl (fun s e =>
    let x := s.engine e
    if x.st = .held then s else s.setEngine e { x with st := .halted, prior := x.st }) s

def State.engResumeAll (s : State) : State :=
  engines.foldl (fun s e =>
    let x := s.engine e
    if x.st = .halted then s.setEngine e ({ x with st := x.prior, next := max x.next (s.raw + 1) }.settled) else s) s

/-- MEN.CTL.RESUME (R171). -/
def State.engResume (s : State) (e : Nat) : State :=
  let x := s.engine e
  if x.st = .faulted then s.setEngine e ({ x with st := .idle }.settled) else s

/-! ### A step of vehicle time (R160, R169) -/

/-- A step of `d` units: queued calls shift, time-domain ones under SHIFT only; every routine's STEPPED is set. -/
def State.stepEngines (s : State) (shift : Bool) (d : Int) : State :=
  engines.foldl (fun s e =>
    let x := s.engine e
    let calls := x.calls.map (fun c =>
      if !c.late ∧ (c.angle ∨ shift) then { c with start := bitsOfInt 64 (c.start + d) } else c)
    s.setEngine e (x.present.foldl (fun x l => x.setBank l { x.bank l with stepped := true }) { x with calls := calls })) s

/-! ### What a read shows -/

def EngSt.code : EngSt → Nat
  | .held => 0
  | .idle => 1
  | .running => 2
  | .waiting => 3
  | .faulted => 4
  | .halted => 5

def bitSet (ls : List Nat) : Nat := (ls.eraseDups.map (fun l => 2 ^ l)).sum

/-- The level of the routine executing, with its PC. -/
def Engine.current (x : Engine) : Nat × Nat :=
  match x.runs with
  | some l => (l, ((x.at_ l).map Routine.pc).getD 0)
  | none => (0, 0)

/-- The MEN words that follow state. -/
def State.liveMen (s : State) (e o : Nat) (w : Word) : Word :=
  let x := s.engine e
  let lv := if x.st = .running then x.current.1 else 0
  if o = 0x0C then
    word (bitSet (x.pendings.map Inv.lvl) * 2 ^ 24 + bitSet x.present * 2 ^ 16 + lv * 2 ^ 13
      + (if x.sect.isSome then 2 ^ 12 else 0) + x.st.code)
  else if o = 0x48 then word (putBits w.toNat 0 4 x.calls.length)
  else if o = 0x58 then
    word (bitSet x.present * 2 ^ 24 + bitSet (x.present.filter (fun l => !x.readyAt l)) * 2 ^ 16 + lv * 2 ^ 13
      + (if x.st = .running then x.current.2 else 0))
  else if o = 0x90 then word (bitSet ((x.dbs.filter (fun p => p.2.isSome)).map (fun p => p.1)))
  else if o = 0xA0 then (match s.sec.image with | none => 0 | some i => word i.ver0)
  else if o = 0xA4 then (match s.sec.image with | none => 0 | some i => word i.ver1)
  else if o = 0xA8 then (match s.sec.image with | none => 0 | some i => word i.ver2)
  else w

end Sys2Proof.Machine
end

