-- ==== Sys2Proof/Machine/DspOps.lean ====
section
/-! DEFINITION. The dispatcher (file 04: R95 to R113; file 01: R13, R18 to R23): the insertion port, moves, lateness,
cancellation, catch-up, housekeeping, overrun. -/

namespace Sys2Proof.Machine

/-! ### Modes -/

/-- Modes in which a departure is judged for overrun: those in which blocks act (R372), but for Debug-halt (R373). -/
def Mode.judged (m : Mode) : Bool :=
  m = .configure || m = .run || m = .holdover || m = .standby || m = .safe || m = .factory

/-- Modes that an overrun takes to Safe-state (R369, R374). -/
def Mode.escalates (m : Mode) : Bool := m = .configure || m = .run || m = .holdover || m = .factory

/-- Modes in which the dispatcher moves (R98, R374). -/
def Mode.moves : Mode → Bool
  | .run => true
  | .holdover => true
  | .factory => true
  | _ => false

/-- The dispatcher is moving entries (DSP.STS.MOVING). -/
def State.moving (s : State) : Bool :=
  s.mode.moves && s.on DSP.CTL.RUN && !s.dsp.replacing && !s.aborting 0x8000

/-! ### The insertion port (R97) -/

/-- Order of requesters (R78). -/
def rankOf : Requester → Nat
  | .tbu => 0
  | .twn => 1
  | .engine e => 2 + e.val
  | .pcie => 10
  | .spi => 11
  | .jtag => 12

/-- The result word of an insertion (DSP.INSRES). -/
def insWord (code i : Nat) : Word :=
  word (2 ^ 31 + (if code = 0 then 2 ^ 30 else 0) + code * 2 ^ 24 + (if code = 0 then i else 0))

/-- The result word of a cancellation (DSP.CANRES). -/
def canWord (res i : Nat) : Word := word (2 ^ 31 + res * 2 ^ 28 + i)

/-- An engine's timetable result on its way to TTR (R189). -/
def State.ttResult (s : State) (e : Nat) (v : Word) (t : Nat) : State :=
  let x := s.engine e
  match x.tt with
  | none => s
  | some w => s.setEngine e { x with tt := some { w with res := some (v, t) } }

/-- A result reported to its requester: in its INSRES or CANRES, or, for an engine's timetable operation (`lvl` its level),
to the engine's TTR at raw cycle `t` (R97, R189). -/
def State.report (s : State) (r : Requester) (lvl : Option Nat) (a : Nat) (v : Word) (t : Nat) : State :=
  match r, lvl with
  | .engine e, some _ => s.ttResult e.val v t
  | r, _ => s.setPreg r.id a v

/-- The result register of a requester; its reset value where nothing has been written. DESIGN CHOICE (entry 44): while a result
is pending, INSRES reads 0 in OK, REASON and INDEX too, and a pending CANRES reads RESULT 3 with the new INDEX. -/
def State.resultOf (s : State) (r : Requester) (a : Nat) : Word :=
  if a = DSP.INSRES.DONE.off ∧ s.dsp.port.any (fun p => p.req = r && p.lvl.isNone) then 0
  else if s.preg r.id a = 0 then (if a = DSP.INSRES.DONE.off then 0x80000000 else 0xB0000000)
  else s.preg r.id a

/-- The requester's previous insertion waits at the port (R97), its previous cancellation for its withdrawal (R108). -/
def State.insPends (s : State) (r : Requester) : Bool := s.dsp.port.any (fun p => p.req = r)
def State.canPends (s : State) (r : Requester) : Bool := s.dsp.cancels.any (fun q => q.req = r)

/-- A refused insertion (R97). -/
def State.insRefused (s : State) (r : Requester) (code : Nat) : State :=
  (s.set1 DSP.IRQ_RAW.INS_REJ).capture 0x8000 0x064 r (insReason code)

/-- A mirrored insertion or cancellation noted for its requester (R353). -/
def State.noteMine (s : State) (r : Requester) : State :=
  if s.mirrors then { s with twn := { s.twn with mine := SMap.put (fun _ => 0) s.twn.mine r.id s.twn.enq } } else s

/-- An insertion checked and, where it passes, seated (R97): the state, the code, the slot. -/
def State.insert (s : State) (r : Requester) (b : Nat) (park : Bool) : State × Nat × Nat :=
  let c := s.insertCode b park
  if c ≠ 0 then (s.insRefused r c, c, 0)
  else
    let (s, i) := s.takeSlot b
    let s := s.seat i park
    (((s.mirror (.ins i park r.id b)).noteMine r), 0, i)

/-- The waiting insertion that the port serves next: round-robin after the requester served last. -/
def pickPort (last : Nat) (ps : List PortReq) : Option PortReq :=
  let key (p : PortReq) : Nat := ((rankOf p.req) + 13 - (last + 1)) % 13
  ps.foldl (fun o p => match o with | none => some p | some q => if key p < key q then some p else some q) none

/-- The port serves one insertion. -/
def State.insertServe (s : State) : State :=
  match pickPort s.dsp.portLast s.dsp.port with
  | none => s
  | some p =>
    let s := s.advance (s.raw + 2)
    let s := { s with dsp := { s.dsp with port := s.dsp.port.erase p, portLast := (rankOf p.req) } }
    let (s, c, i) := s.insert p.req p.bits p.park
    s.report p.req p.lvl DSP.INSRES.DONE.off (insWord c i) (s.raw + 6)

/-! ### Late entries, refusals and moves (R98, R102, R104) -/

/-- LASTEVT takes an entry and its outcome. -/
def State.lastEvt (s : State) (i out : Nat) : State := s.setReg DSP.LASTEVT.INDEX.off (word (out * 2 ^ 28 + i))

/-- A refused move (R102). -/
def State.moveRefused (s : State) (i : Nat) : State :=
  let s := s.acted (.slot i) outRefused
  ((s.bump DSP.EVTCNT.REFUSED).lastEvt i outRefused).set1 DSP.IRQ_RAW.REFUSED

/-- A late entry that fires is counted, and flagged under LATE = 0b10 (R104). -/
def State.firedLate (s : State) (i : Nat) : State :=
  let x := s.slot i
  let s := (s.setSlot i { x with late := true }).bump DSP.LATECNT.FIRED_LATE
  if eLate x.bits = 2 then (s.lastEvt i outActedLate).set1 DSP.IRQ_RAW.LATE else s

/-- A late entry skipped (R104). -/
def State.skipLate (s : State) (i : Nat) : State := (s.retire i outSkipped).bump DSP.LATECNT.SKIPPED

/-- A late entry whose microroutine is called (R104, R150). -/
def State.callLate (s : State) (i start : Nat) : State :=
  let b := (s.slot i).bits
  let (s, ok) := s.lateCall i (eArg b) (ePrio b) start
  if ok then (s.retire i outLateCalled true).bump DSP.EVTCNT.LATE_CALLS else s.skipLate i

/-- The page of an entry's target (R315). -/
def targetPage (b : Nat) : Nat :=
  let a := eAction b
  let t := eTarget b
  if trackAction a then 0x100000 + 0x100 * t
  else if a = acRuStart ∨ a = acRuStop then 0x140000 + 0x1000 * t
  else if a = acAdcSeq then 0x160000
  else if a = acShnStart then 0x170000 + 0x1000 * t
  else if a = acMeCall then 0x180000 + 0x1000 * t
  else 0x6000

/-- A consist's commit entry delivered (R94, R311): a late one commits at the first boundary at least 2 cycles after the move. -/
def State.commitDeliver (s : State) (i due : Nat) (late : Bool) : State × Bool :=
  match s.consistFor i with
  | none => (s, false)
  | some k =>
    let d := if late then s.boundaryAfter 2 else s.commitBoundary due
    ((s.setConsist k { s.consist k with dep := some d }).mirrorConsAt k d, true)

/-- The loads of entry `i` named an angle entry's. -/
def Track.mark (x : Track) (i : Nat) (turn : Option Nat) : Track :=
  let g (c : Cmp) : Cmp := if c.src = .slot i then { c with turn := turn } else c
  { x with
    aAct := x.aAct.map g, aShd := x.aShd.map g, bAct := x.bAct.map g, bShd := x.bShd.map g, marks := x.marks.map g }

/-- An ACTIVE entry loaded into its target; the second component tells whether the target took it. -/
def State.load (s : State) (i start : Nat) (late : Bool) : State × Bool :=
  let x := s.slot i
  let b := x.bits
  let a := eAction b
  let t := eTarget b
  let src := LoadSrc.slot i
  let turn : Option Nat := if eAngle b then some (eTurn b) else none
  if s.aborting (targetPage b) then (s, false)
  else if trackAction a then
    let (s, ok) := s.deliver t a start (eArg b) src x.defer
    (s.setTrack t ((s.track t).mark i turn), ok)
  else if a = acRuStart ∨ a = acRuStop then s.ruDeliver t a start (eArg b) src late turn
  else if a = acAdcSeq then s.adcDeliver t start (eArg b) src late (eAngle b)
  else if a = acShnStart then s.shDeliver t start (eArg b) src late (eAngle b)
  else if a = acMeCall then s.engCall t start (eArg b) (ePrio b) i late (eAngle b)
  else s.commitDeliver i start late

/-- An entry is late if it is moved now (less than 100 ns before its start). -/
def State.isLate (s : State) (start : Nat) : Bool := decide (vtDiff start s.vt < 2560)

/-- A QUEUED entry moved (R98, R104). -/
def State.move (s : State) (i : Nat) : State :=
  let s := (List.range 4).foldl (fun s j => s.checked stTt (4 * i + j)) (s.touch stTt)
  let x := s.slot i
  let b := x.bits
  let start := if eAngle b then x.start else startOf b
  let late := s.isLate start
  let s := if x.defer then s.bump DSP.OVRCNT.DEFERRED else s
  if late ∧ eLate b = 1 then s.skipLate i
  else if late ∧ eLate b = 3 then s.callLate i start
  else
    let s := if late then s.firedLate i else s
    let y := s.slot i
    if eAction b = acNop then
      s.setSlot i { y with place := .nowhere, start := if late then s.laterStart start else start }
    else
      let s := s.setSlot i { y with st := .active, place := .nowhere, start := start }
      let (s, ok) := s.load i start late
      if ok then s else s.moveRefused i

/-- The departure of an entry's start is not later than `work`: no entry of a repeated departure moves early (R110). -/
def Slot.ripe (x : Slot) (work period : Nat) : Bool := x.start / 64 / period ≤ work

/-- The lane an entry waits in, in the order of R98, with its order there: the start on the catch-up list (R110), the
order of placement elsewhere; nothing where it cannot be moved now. A step under SHIFT may leave an entry in a bucket
before the one worked (R111). -/
def Slot.lane (x : Slot) (work period : Nat) : Option (Nat × Nat) :=
  if x.st ≠ .queued then none
  else
    match x.place with
    | .catchup => if x.ripe work period then some (0, x.start * 2 ^ 64 + x.ord) else none
    | .deferred => if eAngle x.bits || x.ripe work period then some (1, x.ord) else none
    | .lane => some (2, x.ord)
    | .imm => if x.ripe work period then some (3, x.ord) else none
    | .rota => if x.bkt ≤ work then some (7 - ePrio x.bits, x.ord) else none
    | _ => none

/-- The order of the lanes. -/
def laneBefore (a b : Nat × Nat) : Bool := a.1 < b.1 || (a.1 = b.1 && a.2 < b.2)

/-- The first entry available (R98). -/
def State.nextMove (s : State) : Option Nat :=
  let best := s.slots.foldl (fun (o : Option ((Nat × Nat) × Nat)) e =>
    match e.2.lane (s.dep + 2) s.dsp.period with
    | none => o
    | some k => match o with | none => some (k, e.1) | some j => if laneBefore k j.1 then some (k, e.1) else some j) none
  best.map (fun p => p.2)

/-- The raw cycle of the next move: one a cycle, from c+16 of the departure. -/
def State.moveCycle (s : State) : Nat := max s.raw (s.dsp.lastMove + 1)

/-- A move cycle (R98): the first entry available is moved, while the departure lasts. DESIGN CHOICE (entry 39): nothing
moves until a flush in progress is complete, even where RUN has been set meanwhile. -/
def State.dispatch (s : State) : State :=
  let t := s.advance s.moveCycle
  if !s.moving ∨ t.dsp.hk ∨ t.dep ≠ t.dsp.bdep ∨ s.dsp.flushing then s
  else
    match t.nextMove with
    | none => s
    | some i => ({ t with dsp := { t.dsp with lastMove := t.raw } } : State).move i

/-! ### Cancellation (R108) -/

/-- Every parked entry reachable from an entry through its LINK, whatever the entry's own state (R108). -/
def State.chainOf (s : State) (i : Nat) : List Nat :=
  let x := s.slot i
  if eLinked x.bits then s.chainFrom 16384 (eLink x.bits) else []

/-- An accepted cancellation mirrored, one record with its CHAIN bit (R352, R353). -/
def State.mirrorCan (s : State) (r : Requester) (i : Nat) (chain : Bool) : State := (s.mirror (.can i chain r.id)).noteMine r

/-- An entry cancelled (R108), QUEUED at once, ACTIVE when the withdrawal arrives; `lvl` the level of an engine's own
timetable operation. DESIGN CHOICE (entry 44): a slot taken by a section not yet committed answers NOT_IN_USE. -/
def State.cancel (s : State) (r : Requester) (lvl : Option Nat) (i : Nat) (chain : Bool) : State :=
  let x := s.slot i
  let rest := if chain then s.chainOf i else []
  let t := s.freeAll rest outCancelled
  let told (t : State) : State := if rest = [] then t else t.mirrorCan r i chain
  let done (t : State) (res : Nat) : State := t.report r lvl DSP.CANRES.DONE.off (canWord res i) (s.raw + 8)
  if x.st = .queued ∧ x.place ≠ .reserved then
    done ((t.freeSlot i outCancelled).mirrorCan r i chain) 0
  else if x.st = .active then
    -- the record goes at once where the chain is cancelled with it, and with the withdrawal otherwise
    let t := told t
    let q : CancelReq := { req := r, slot := i, chain := chain, time := s.raw, lvl := lvl, told := rest ≠ [] }
    let t := { t with dsp := { t.dsp with cancels := t.dsp.cancels ++ [q] } }
    if lvl.isSome then t else t.setPreg r.id DSP.CANRES.DONE.off (word (0x30000000 + i))
  else if x.st = .retiring then done (told t) 2
  else done (told t) 3

/-- The oldest withdrawal reaches its target (R108). -/
def State.cancelResolve (s : State) : State :=
  match s.dsp.cancels with
  | [] => s
  | q :: qs =>
    let s := ({ s with dsp := { s.dsp with cancels := qs } } : State).advance (q.time + 2)
    let x := s.slot q.slot
    let done (t : State) (res : Nat) : State := t.report q.req q.lvl DSP.CANRES.DONE.off (canWord res q.slot) (q.time + 8)
    if x.st = .active ∧ x.acted = none then
      let s := (s.withdraw q.slot outCancelled).freeSlot q.slot outCancelled
      done (if q.told then s else s.mirrorCan q.req q.slot q.chain) 1
    else done s 2

/-! ### Catch-up, re-placement, flush (R13, R110 to R113) -/

/-- Insertion into a list in order of a key, after equal keys. -/
def insBy (key : Nat → Nat) (i : Nat) : List Nat → List Nat
  | [] => [i]
  | j :: js => if key i < key j then i :: j :: js else j :: insBy key i js

/-- A list in order of a key. -/
def sortBy (key : Nat → Nat) (is : List Nat) : List Nat := is.foldl (fun o i => insBy key i o) []

/-- QUEUED entries that a predicate selects. -/
def State.queuedSlots (s : State) (p : Slot → Bool) : List Nat :=
  (s.slots.filter (fun e => e.2.st = .queued && p e.2)).map (fun e => e.1)

/-- Entries of a list hung in a place in that order, keeping start and bucket. -/
def State.hangAll (s : State) (is : List Nat) (p : Place) : State :=
  is.foldl (fun s i => s.hang i p (s.slot i).start (s.slot i).bkt) s

/-- Far-list entries swept onto the rota (R95). DESIGN CHOICE (entry 39): one whose departure a step or a halt has passed
joins the immediate list. -/
def State.sweep (s : State) (is : List Nat) : State :=
  is.foldl (fun s i =>
    let x := s.slot i
    if s.depOf x.start < s.dep + 4096 then s.placeTime i x.start else s) s

/-- The catch-up list filled by the rule of R110, the far list swept once in full. DESIGN CHOICE (entry 44): the full sweep
hangs the entries of the far list in the order of their slot numbers. -/
def State.catchUp (s : State) : State :=
  let due (x : Slot) : Bool := (x.place = .rota || x.place = .imm) && s.depOf x.start ≤ s.dep + 1
  let s' := s.hangAll (sortBy (fun i => (s.slot i).start) (s.queuedSlots due)) .catchup
  s'.sweep (s'.queuedSlots (fun x => x.place = .far))

/-- The raw cycle before which nothing moves in the departure now: cycle c+15 (R18). -/
def State.moveFloor (s : State) : Nat := s.rawOf (s.boundary s.dep) / 64 + 15

/-- The dispatcher resumes moving (R112); a boundary of this departure that was left out still has its housekeeping. -/
def State.resumeMoves (s : State) : State :=
  let s := s.catchUp
  if s.dsp.bdep = s.dep then s
  else { s with dsp := { s.dsp with bdep := s.dep, hk := true, lastMove := max s.raw s.moveFloor, overMove := [] } }

/-- An entry taken off the rota or the far list until it is re-placed (R13). -/
def Slot.unhung (x : Slot) : Slot :=
  if x.st = .queued ∧ (x.place = .rota ∨ x.place = .far) then { x with place := .unplaced } else x

/-- A new PERIOD comes into force (R13): DEP is recomputed, the rota and the far list are emptied, and every QUEUED
time-domain entry that is not parked is to be re-placed. -/
def State.newPeriod (s : State) (p : Nat) : State :=
  if p = s.dsp.period then s
  else
    let s : State := { s with
      dsp := { s.dsp with period := p, replacing := true }, slots := s.slots.map (fun e => (e.1, e.2.unhung)) }
    { s with dsp := { s.dsp with bdep := s.dep, hk := false, overMove := [], lastMove := max s.dsp.lastMove s.moveFloor } }

/-- The last entry is re-placed (R13). -/
def State.replaced (s : State) : State :=
  let open_ (x : Slot) : Bool := !eAngle x.bits && x.place ≠ .parked && x.place ≠ .reserved && x.place ≠ .nowhere
  let s := (s.queuedSlots open_).foldl (fun s i => s.placeTime i (startOf (s.slot i).bits)) s
  ({ s with dsp := { s.dsp with replacing := false } } : State).catchUp

/-- The flush of R113 done: every QUEUED entry freed. DESIGN CHOICE (entry 44): a slot taken by a section not yet committed stays,
and an entry inserted between the FLUSH write and its completion is freed too. -/
def State.flushed (s : State) : State :=
  let s := s.freeAll (s.queuedSlots (fun x => x.place ≠ .reserved)) outCancelled
  { s with dsp := { s.dsp with flushing := false } }

/-- The effect of an abort of the dispatcher (R113). -/
def State.dspAbort (s : State) : State := s.clr DSP.CTL.RUN

/-! ### Boundary and housekeeping (R15, R20 to R22, R95, R101, R103) -/

/-- Entries that cause MOVE for the departure that ends, whose work was departure `w` (R20, R99, R112). -/
def State.unmoved (s : State) (w : Nat) : List Nat :=
  s.queuedSlots (fun x =>
    match x.place with
    | .rota => s.depOf x.start ≤ w
    | .imm => s.depOf x.start ≤ w
    | .lane => true
    | .deferred => eAngle x.bits || s.depOf x.start ≤ w
    | .catchup => s.depOf x.start ≤ w
    | _ => false)

/-- A routine or pending call of an engine that R19 assigns to the departures from `a` to `n`: its level, PC, slot. -/
def Engine.unfinished (x : Engine) (a n : Nat) : Option (Nat × Nat × Nat) :=
  let mine (d : Nat) : Bool := a ≤ d && d ≤ n
  let run := (List.range 8).reverse.filterMap (fun l =>
    match x.at_ l with
    | some r => if r.cls = .call ∧ (r.dep.map mine).getD false then some (l, r.pc, r.slot) else none
    | none => none)
  let wait := x.calls.filterMap (fun c =>
    match c.pend with
    | some p => if !c.late ∧ mine p.2.2 then some (p.1, c.addr, c.slot) else none
    | none => none)
  (run ++ wait).head?

/-- An engine that causes ME (R170). -/
def State.engOverrun (s : State) (e : Nat) (u : Nat × Nat × Nat) : State :=
  let s := s.enIrq e MEN.IRQ_RAW.OVERRUN
  if s.enOn e MEN.OVRCAP.VALID then s
  else s.setReg (MEN.OVRCAP.VALID.off + pgAt e) (word (2 ^ 31 + u.1 * 2 ^ 28 + u.2.1 * 2 ^ 15 + u.2.2))

/-- What departure `n` leaves unmoved for the deferred list (R22, R99): each entry with its order of placement, in the
order of the lanes. -/
def State.leftOver (s : State) (n : Nat) : List (Nat × Nat) :=
  let us := (s.unmoved (n + 2)).filter (fun i => (s.slot i).place ≠ .catchup)
  let key (i : Nat) : Nat :=
    match (s.slot i).lane (n + 2) s.dsp.period with
    | some (a, b) => a * 2 ^ 128 + b
    | none => 0
  (sortBy key us).map (fun i => (i, (s.slot i).ord))

/-- The overrun verdict of the departure that ends (R20 to R23); the second component tells that Safe-state is due. Only
re-placement (R13) and Debug-halt (R373) suspend it: a dispatcher that moves nothing leaves what is due unmoved. -/
def State.judge (s : State) (n : Nat) : State × Bool :=
  if !s.mode.judged ∨ s.dsp.replacing then (s, false)
  else
    let causeMove := s.unmoved (n + 2) ≠ []
    let late := engines.filterMap (fun e => ((s.engine e).unfinished s.dsp.bdep n).map (fun u => (e, u)))
    let causeMe := late ≠ []
    if !causeMove && !causeMe then (s.setF DSP.OVRSTS.RUN_LEN 0, false)
    else
      let s := late.foldl (fun s p => s.engOverrun p.1 p.2) s
      let s := (s.bump DSP.OVRCNT.OVERRUNS).bump DSP.OVRSTS.RUN_LEN
      let s := s.setF DSP.OVRSTS.CAUSE_MOVE (if causeMove then 1 else 0)
      let s := (s.setF DSP.OVRSTS.CAUSE_ME (if causeMe then 1 else 0)).set1 DSP.IRQ_RAW.TICK_OVERRUN
      let esc := s.f DSP.OVRCTL.ESC
      let safe := s.mode.escalates && (s.on DSP.OVRCTL.POLICY || (esc ≠ 0 && esc ≤ s.f DSP.OVRSTS.RUN_LEN))
      if safe then (s.set1 DSP.IRQ_RAW.OVR_ESC, true)
      else
        ({ s with dsp := { s.dsp with overMove := if causeMove then s.leftOver n else [] } }, false)

/-- The deferred list formed of what the departure that ended left unmoved (R22, R99): the entries noted at its end that
still wait where they did. -/
def State.defer (s : State) : State :=
  s.dsp.overMove.foldl (fun s p =>
    let x := s.slot p.1
    if x.st = .queued ∧ x.ord = p.2 then
      let s := s.hang p.1 .deferred x.start x.bkt
      s.setSlot p.1 { s.slot p.1 with defer := true }
    else s) s

/-- The snapshot of the entry books (R103). -/
def State.snapshot (s : State) : State :=
  let b := s.countBooks
  let low := decide (b.1 < s.f DSP.LOWFREE.V)
  let s := if low && s.dsp.lowArmed then s.set1 DSP.IRQ_RAW.LOW_FREE else s
  { s with dsp := { s.dsp with books := b, booksDep := s.dsp.bdep, lowArmed := !low } }

/-- The far list in order of placement. -/
def State.farList (s : State) : List Nat :=
  sortBy (fun i => (s.slot i).ord) (s.queuedSlots (fun x => x.place = .far))

/-- The next 14 entries of the far list examined, in rotation (R95): `farPos` is the order of placement from which the
rotation goes on. -/
def State.farSweep (s : State) : State :=
  let fs := s.farList
  let ahead (i : Nat) : Bool := s.dsp.farPos ≤ (s.slot i).ord
  let look := (fs.filter ahead ++ fs.filter (fun i => !ahead i)).take 14
  match look.getLast? with
  | none => s
  | some i =>
    let t := s.sweep look
    { t with dsp := { t.dsp with farPos := (s.slot i).ord + 1 } }

/-- Every RETIRING entry that is not held joins the free list (R101), after its successor has been treated. -/
def State.freeRetiring (s : State) : State :=
  let rs := (s.slots.filter (fun e => e.2.st = .retiring)).map (fun e => e.1)
  let s := rs.foldl (fun s i => if (s.slot i).chain then s.successor i else s) s
  rs.foldl (fun s i =>
    let x := s.slot i
    if x.st = .retiring ∧ !x.held then s.freeSlot i x.out else s) s

/-- Housekeeping (R15): the deferred list, the snapshot, the far sweep, RETIRING entries freed. -/
def State.housekeeping (s : State) : State :=
  if !s.dsp.hk then s
  else
    let s := (s.advance s.dsp.lastMove).defer
    let s := ((s.snapshot).farSweep).freeRetiring
    { s with dsp := { s.dsp with hk := false, overMove := [] } }

/-! ### A step of vehicle time (R109 to R111, R311, R312) -/

/-- A time-domain DUE moved by `d` units (R111). -/
def Slot.shifted (x : Slot) (d : Int) (q : Int) : Slot :=
  if eAngle x.bits ∨ (x.st ≠ .queued ∧ x.st ≠ .active) ∨ x.place = .reserved then x
  else
    let b := putBits x.bits 0 64 (bitsOfInt 64 ((eDue x.bits : Int) + d))
    { x with bits := b, start := startOf b, bkt := if x.place = .rota then ((x.bkt : Int) + q).toNat else x.bkt }

/-- A checked insertion that a section holds, moved by `d` units (R111, R164). -/
def SealWrite.shifted (w : SealWrite) (d : Int) : SealWrite :=
  match w with
  | .ins i p b => .ins i p (if eAngle b then b else putBits b 0 64 (bitsOfInt 64 ((eDue b : Int) + d)))
  | w => w

/-- An engine whose open section's insertions are moved by `d` units. -/
def Engine.insShifted (e : Engine) (d : Int) : Engine :=
  { e with sect := e.sect.map (fun x => { x with writes := x.writes.map (fun w => w.shifted d) }) }

/-- Consists whose boundary a step passes end MISSED; those of moved entries follow their entry (R311, R312). -/
def State.stepConsists (s : State) (was : Nat) : State :=
  (List.range 4).foldl (fun s k =>
    let x := s.consist k
    match x.dep with
    | none => s
    | some d =>
      if x.st ≠ .closed then s
      else if x.whn = whEntry then
        let e := max (s.commitBoundary (startOf (s.slot x.entry).bits)) (s.boundaryAfter 2)
        s.setConsist k { x with dep := some e, passed := false }
      else if was < d ∧ d ≤ s.dep then s.consistEnd k coMissed
      else s) s

/-- The effect of a step of `d` units on the timetable; `was` is DEP before it. -/
def State.stepDispatcher (s : State) (shift : Bool) (d : Int) (was : Nat) : State :=
  let q := Int.fdiv d ((s.dsp.period * 64 : Nat) : Int)
  let s : State := if shift then { s with
      slots := s.slots.map (fun e => (e.1, e.2.shifted d q)), eng := s.eng.map (fun e => (e.1, e.2.insShifted d)) } else s
  let s := { s with dsp := { s.dsp with bdep := s.dep, lastMove := s.raw + 14 } }
  let s := if !shift ∧ 0 < d then s.catchUp else s
  s.stepConsists was

/-! ### What a read shows -/

def SlotSt.code : SlotSt → Nat
  | .free => 0
  | .queued => 1
  | .active => 2
  | .retiring => 3

/-- DSP.BKTQ: the departure named, nearest the current one, and how many entries still hang for it. -/
def State.bktCount (s : State) (w : Nat) : Nat :=
  let d : Int := (s.dep : Int) + signedOf 32 (w + (2 ^ 32 - s.dep % 2 ^ 32))
  if (s.dep : Int) + 4096 ≤ d then 0x7FFF
  else
    (s.queuedSlots (fun x =>
      (x.place = .rota || x.place = .imm || x.place = .catchup) && ((s.depOf x.start : Nat) : Int) = d)).length

/-- The DSP words that follow state. -/
def State.liveDsp (s : State) (r : Requester) (o : Nat) (w : Word) : Word :=
  let b (v : Bool) (k : Nat) : Nat := if v then 2 ^ k else 0
  if o = 0x0C then
    word (b s.dsp.replacing 3 + b s.dsp.flushing 2 + b (s.queuedSlots (fun x => x.place = .catchup) ≠ []) 1 + b s.moving 0)
  else if o = 0x44 then word s.dep
  else if 0x58 ≤ o ∧ o ≤ 0x68 then s.preg r.id (0x8000 + o)
  else if o = 0x48 ∨ o = 0x80 then s.preg r.id (0x8000 + o)
  else if o = 0x6C ∨ o = 0x74 then s.resultOf r (0x8000 + o)
  else if o = 0x7C then word (s.dsp.books.2.1 * 2 ^ 16 + s.dsp.books.1)
  else if o = 0x90 then word (s.bktCount w.toNat)
  else if o = 0x94 then
    let i := w.toNat % 2 ^ 14
    let x := s.slot i
    word (x.st.code * 2 ^ 30 + b (x.st = .queued && x.place = .parked) 29
      + (if x.place = .reserved then 0 else x.out) * 2 ^ 25 + i)
  else w

end Sys2Proof.Machine
end

