-- ==== Sys2Proof/Machine/TtnOps.lean ====
section
/-! DEFINITION. Turntables (file 05: R115 to R143): geometry, marks, the tooth, the fit, the angle, prediction, announcement,
surge, stall, reversal. -/

namespace Sys2Proof.Machine

def State.turn (s : State) (n : Nat) : Turntable := SMap.get (fun _ => {}) s.ttn n

def State.setTurn (s : State) (n : Nat) (x : Turntable) : State := { s with ttn := SMap.put (fun _ => {}) s.ttn n x }

def State.ttF (s : State) (n : Nat) (g : Fld) : Nat := s.f g (pgAt n)
def State.ttOn (s : State) (n : Nat) (g : Fld) : Bool := s.on g (pgAt n)

/-- Codes of TTN.STS.STATE (R121). -/
abbrev ttUnsync : Nat := 0
abbrev ttHunting : Nat := 1
abbrev ttProvisional : Nat := 2
abbrev ttSynced : Nat := 3
abbrev ttStalled : Nat := 4
abbrev ttLost : Nat := 5

/-- A field of TTN.PRED as the last accepted tooth found it (R118). -/
def State.ttPred (s : State) (n : Nat) (g : Fld) : Nat := bitsAt (s.turn n).pred.toNat g.lo g.wid

def State.ttState (s : State) (n : Nat) : Nat := s.ttF n TTN.STS.STATE
def State.setTtState (s : State) (n st : Nat) : State := s.setF TTN.STS.STATE st (pgAt n)

/-- A state in which the tooth index is known. -/
def ttKnown (st : Nat) : Bool := st = ttProvisional || st = ttSynced

/-- Event bits set in one cycle, which signal kind 0x3 (R143, R148). -/
def State.ttRaise (s : State) (n bits : Nat) : State :=
  if bits = 0 then s
  else
    let a := TTN.IRQ_RAW.SYNCED.off + pgAt n
    (s.setReg a (word ((s.reg a).toNat ||| bits))).signal 3 n bits s.vt

def irqBit (g : Fld) : Nat := 2 ^ g.lo

/-! ### Geometry (R117, R120) -/

/-- One revolution in counts. -/
abbrev full24 : Nat := 2 ^ 24

/-- The angle of tooth `j` (R117). -/
def thetaOf (nt j : Nat) : Nat := (j * full24 + nt / 2) / nt

def State.ttTeeth (s : State) (n : Nat) : Nat := s.ttF n TTN.TEETH.NT

/-- The declared gaps: POS and LEN. -/
def State.ttGaps (s : State) (n : Nat) : List (Nat × Nat) :=
  (List.range 3).filterMap (fun g =>
    let a := pgAt n + 4 * g
    if s.on TTN.GAP.EN a then some (s.f TTN.GAP.POS a, s.f TTN.GAP.LEN a) else none)

/-- A missing tooth. -/
def missing (gs : List (Nat × Nat)) (j : Nat) : Bool := gs.any (fun g => g.1 ≤ j && j < g.1 + g.2)

/-- One tooth further in the direction of motion. -/
def stepTooth (nt : Nat) (rvs : Bool) (j : Nat) : Nat := if rvs then (j + nt - 1) % nt else (j + 1) % nt

/-- The next tooth present after `j` and the missing teeth passed, at most `fuel`. -/
def nextTooth (nt : Nat) (gs : List (Nat × Nat)) (rvs : Bool) : Nat → Nat → Nat × Nat
  | 0, j => (stepTooth nt rvs j, 0)
  | fuel + 1, j =>
    let k := stepTooth nt rvs j
    if missing gs k then
      let (l, m) := nextTooth nt gs rvs fuel k
      (l, m + 1)
    else (k, 0)

def State.ttNext (s : State) (n j : Nat) (rvs : Bool) : Nat × Nat := nextTooth (s.ttTeeth n) (s.ttGaps n) rvs 12 j

/-- Counts from tooth `j` to tooth `k` in the direction of motion. -/
def spanOf (nt : Nat) (rvs : Bool) (j k : Nat) : Nat :=
  let d := if rvs then (thetaOf nt j + full24 - thetaOf nt k) % full24 else (thetaOf nt k + full24 - thetaOf nt j) % full24
  if d = 0 then full24 else d

/-- Two gaps overlap or touch. -/
def gapsMeet (a b : Nat × Nat) : Bool := a.1 ≤ b.1 + b.2 && b.1 ≤ a.1 + a.2

def meetAny : List (Nat × Nat) → Bool
  | [] => false
  | g :: gs => gs.any (gapsMeet g) || meetAny gs

/-- The triples (first LEN, teeth between, second LEN) of consecutive gaps met in the direction of motion, each with the
tooth that follows the second (R120). -/
def gapTriples (nt : Nat) (gs : List (Nat × Nat)) (rvs : Bool) : List ((Nat × Nat × Nat) × Nat) :=
  let sorted := sortBy (fun i => ((gs[i]?).getD (0, 0)).1) (List.range gs.length)
  let order := (if rvs then sorted.reverse else sorted).map (fun i => (gs[i]?).getD (0, 0))
  match order with
  | [] => []
  | g :: rest =>
    (List.zip order (rest ++ [g])).map (fun p =>
      let (a, b) := p
      if rvs then ((a.2, (a.1 + nt - (b.1 + b.2)) % nt, b.2), (b.1 + nt - 1) % nt)
      else ((a.2, (b.1 + nt - (a.1 + a.2)) % nt, b.2), (b.1 + b.2) % nt))

/-- The tooth that ends a detected gap of `m` missing teeth, where no other gap shares its LEN (R120). -/
def gapAlone (nt : Nat) (gs : List (Nat × Nat)) (rvs : Bool) (m : Nat) : Option Nat :=
  match gs.filter (fun g => g.2 = m) with
  | [g] => some (if rvs then (g.1 + nt - 1) % nt else (g.1 + g.2) % nt)
  | _ => none

/-- The tooth that a detected gap identifies (R120): `last` is the gap before it with the teeth accepted since. -/
def identify (nt : Nat) (gs : List (Nat × Nat)) (rvs : Bool) (last : Option (Nat × Nat)) (m : Nat) : Option Nat :=
  match gapAlone nt gs rvs m with
  | some j => some j
  | none =>
    match last with
    | none => none
    | some (l, k) =>
      match (gapTriples nt gs rvs).filter (fun t => t.1 = (l, k, m)) with
      | [t] => some t.2
      | _ => none

/-- The pattern has an identifying mark (R120). -/
def State.ttMarked (s : State) (n : Nat) : Bool :=
  let gs := s.ttGaps n
  let nt := s.ttTeeth n
  let src := s.ttF n TTN.INCFG.SYNCSRC
  if src = 0 then s.ttOn n TTN.INSEL.IDX_EN
  else if src = 2 then s.ttOn n TTN.INSEL.GAP_EN && s.ttOn n TTN.GAP.EN
  else
    let ts := (gapTriples nt gs false).map (fun t => t.1)
    gs.any (fun g => (gs.filter (fun h => h.2 = g.2)).length = 1) || ts.any (fun t => (ts.filter (fun u => u = t)).length = 1)

/-- The geometry fails the check of R117. -/
def State.ttBad (s : State) (n : Nat) : Bool :=
  let gs := s.ttGaps n
  let nt := s.ttTeeth n
  meetAny gs || gs.any (fun g => g.2 = 0 || g.1 = 0 || nt < g.1 + g.2)
    || (s.ttF n TTN.INCFG.SYNCSRC = 0 && missing gs (s.ttF n TTN.TEETH.IDXT)) || !s.ttMarked n

/-! ### The angle (R127 to R130) -/

/-- The interpolated angle at raw unit `u` under a model (R128). -/
def AngleModel.angle (x : AngleModel) (u : Nat) : Nat :=
  if !x.ok then x.theta
  else
    let tau := F64.ofInt ((u : Int) - x.time)
    let peak := x.w.neg.div x.a
    let tau := if x.a.m < 0 ∧ peak.lt tau then peak else tau
    let th := (x.w.mul tau).add (((F64.ofRatio 1 2).mul x.a).mul tau |>.mul tau)
    let top := F64.ofInt ((x.span : Int) - 1)
    let k := (if top.lt th then top else th).floor
    bitsOfInt 24 (if x.rvs then (x.theta : Int) - k else x.theta + k)

/-- TTN.ANGLE at raw unit `u` (R129); frozen in STALLED and before the first tooth of a quick start. -/
def State.ttAngle (s : State) (n u : Nat) : Nat :=
  let x := s.turn n
  match x.frozen with
  | some a => a
  | none => x.now.angle u

/-- The context word of a record at raw unit `u` (R74, R129): the angle, and the low byte of the revolution, under the model
of the last tooth at or before it. -/
def State.ttContext (s : State) (n u : Nat) : Nat :=
  let x := s.turn n
  match x.frozen with
  | some (a : Nat) => a + x.rev % 256 * full24
  | none =>
    let m := if u < x.now.time then x.prev.getD x.now else x.now
    m.angle u + m.rev % 256 * full24

/-- The position of the last tooth (R130). -/
def Turntable.pos (x : Turntable) : Int := (x.now.rev : Int) * full24 + x.now.theta

/-- The position of an entry's angle, its revolution extended to the nearest (R130). -/
def Turntable.entryPos (x : Turntable) (b : Nat) : Int :=
  let d : Nat := (eRev b + 2 ^ 29 - x.rev % 2 ^ 29) % 2 ^ 29
  let r : Int := if d < 2 ^ 28 then (x.rev : Int) + (d : Int) else (x.rev : Int) + (d : Int) - ((2 ^ 29 : Nat) : Int)
  r * (full24 : Int) + (eAng b : Int)

/-- The sign of the direction of motion. -/
def AngleModel.dir (x : AngleModel) : Int := if x.rvs then -1 else 1

/-- The centering offset of a pulse (R132). -/
def AngleModel.centre (x : AngleModel) (width : Nat) : Int :=
  (((x.w.mul (F64.ofInt width)).div (F64.ofInt 2))).round

/-- The start position of an entry (R131). -/
def Turntable.startPos (x : Turntable) (b : Nat) : Int :=
  if eCenter b then x.entryPos b - x.now.dir * x.now.centre (eArg b) else x.entryPos b

/-- The time a model takes over `rel` counts (R132), in units; nothing where it never gets there. -/
def AngleModel.reach (x : AngleModel) (rel : F64) : Option F64 :=
  let disc := (x.w.mul x.w).add (((F64.ofInt 2).mul x.a).mul rel)
  if disc.m ≤ 0 then none else some (((F64.ofInt 2).mul rel).div (x.w.add disc.sqrt))

/-- The predicted start of an entry (R132) as a vehicle time. -/
def State.ttPredict (s : State) (n b : Nat) : Option Nat :=
  let x := s.turn n
  let tk := s.vtAt x.now.time
  let rel := x.now.dir * (x.startPos b - x.pos)
  if rel ≤ 0 then some tk
  else (x.now.reach (F64.ofInt rel)).map (fun d => bitsOfInt 64 ((F64.ofInt tk).add d).round)

/-! ### Entries of a turntable (R122, R131, R134) -/

/-- An angle entry of turntable `n`. -/
def Slot.turns (x : Slot) (n : Nat) : Bool := eAngle x.bits && eTurn x.bits = n

/-- Announced and not moved. -/
def Slot.announced (x : Slot) : Bool := x.st = .queued && (x.place = .lane || x.place = .deferred || x.place = .catchup)

/-- Moved and not acted; a NOP that has been worked counts. -/
def Slot.moved (x : Slot) : Bool :=
  (x.st = .active && x.acted = none) || (x.st = .queued && x.place = .nowhere && eAction x.bits = acNop)

/-- Slots that a predicate selects. -/
def State.slotsBy (s : State) (p : Slot → Bool) : List Nat := (s.slots.filter (fun e => p e.2)).map (fun e => e.1)

/-- The prediction set (R134). -/
def State.predSet (s : State) (n : Nat) : List Nat := s.slotsBy (fun x => x.turns n && (x.announced || x.moved))

/-- A moved entry withdrawn from its target with outcome `out` (R122). A NOP, which no target holds, stays QUEUED and
returns to the wheel: R100 gives it no row for a discarded load (DESIGN CHOICE, entry 44). -/
def State.ttWithdraw (s : State) (i out : Nat) : State :=
  if (s.slot i).st = .active then s.withdraw i out else s.hang i .wheel 0 0

/-- An overtaken entry skipped (R136): an ACTIVE one through the row of R100 for a discarded load, a NOP as one moved
late. -/
def State.ttSkip (s : State) (i : Nat) : State :=
  if (s.slot i).st = .active then s.withdraw i outSkipped else s.retire i outSkipped

/-- Moved entries withdrawn with outcome `out`; announced ones return to the wheel (R122). -/
def State.ttDrop (s : State) (n out : Nat) : State :=
  let moved := s.slotsBy (fun x => x.turns n && x.moved)
  let back := s.slotsBy (fun x => x.turns n && x.announced)
  let s := moved.foldl (fun s i => s.ttWithdraw i out) s
  let s := back.foldl (fun s i => s.hang i .wheel 0 0) s
  s.setTurn n { s.turn n with behind := [], repred := [], ann := [] }

/-! ### Sync errors and marks (R119, R121) -/

/-- A sync error (R119, R121): the state and the event bits it sets. -/
def State.syncError (s : State) (n : Nat) : State × Nat :=
  let st := s.ttState n
  let s := (s.bump TTN.CNT_EVT.HI 1 (pgAt n)).clr TTN.KS_ANGLE.STOP_CLEAN (pgAt n)
  let e := irqBit TTN.IRQ_RAW.SYNC_ERR
  if st = ttProvisional then
    let q := if s.ttOn n TTN.STS.QS then irqBit TTN.IRQ_RAW.QS_FAIL else 0
    let s := (s.setTtState n ttHunting).clr TTN.STS.QS (pgAt n)
    let s := s.setTurn n { s.turn n with gap := none }
    (s.ttDrop n outDiscarded, e + q)
  else if st = ttSynced then
    let s := s.setTurn n { s.turn n with gap := none }
    ((s.setTtState n ttLost).ttDrop n outDiscarded, e + irqBit TTN.IRQ_RAW.LOST)
  else (s, e)

/-- The single predicted interval (R119) for an interval of `m` missing teeth, as a ratio. -/
def State.ttSingle (s : State) (n st m : Nat) : Option (Nat × Nat) :=
  let x := s.turn n
  if st = ttHunting then
    match x.singles with
    | a :: b :: _ => some (a + b, 2)
    | _ => none
  else if ttKnown st then x.pper.map (fun p => (p, m + 1))
  else none

/-- Missing teeth of an interval `iv` (R119). -/
def missedTeeth (iv : Nat) (single : Nat × Nat) : Nat := (2 * iv * single.2 + single.1) / (2 * single.1) - 1

/-- The half interval of a mark has not ended at `t`. -/
def inHalf (mark t : Nat) (single : Nat × Nat) : Bool := 2 * (t - mark) * single.2 ≤ single.1

/-- The tooth that the mark inputs identify. -/
def State.markTooth (s : State) (n : Nat) : Nat :=
  if s.ttF n TTN.INCFG.SYNCSRC = 2 then (s.ttF n TTN.GAP.POS + s.ttF n TTN.GAP.LEN) % s.ttTeeth n
  else s.ttF n TTN.TEETH.IDXT

/-- The single predicted interval for the interval in progress (R119). -/
def State.ttSingleNow (s : State) (n : Nat) : Option (Nat × Nat) :=
  let x := s.turn n
  let st := s.ttState n
  s.ttSingle n st (if ttKnown st then (s.ttNext n x.tooth x.now.rvs).2 else 0)

/-- An index or gap-line edge (R119): an earlier one that no stamped tooth follows is replaced. While no single predicted
interval exists the edge is ignored. -/
def State.markEdge (s : State) (n u : Nat) : State :=
  let x := s.turn n
  let keep := x.marks.filter (fun m => x.edges.any (fun e => m ≤ e.1 && e.1 < u))
  let s := s.advance (u / 64)
  if (s.ttSingleNow n).isNone then s else s.setTurn n { x with marks := keep ++ [u] }

/-- A half interval ends with no tooth accepted (R119): a sync error, unless no single predicted interval exists. -/
def State.markExpire (s : State) (n : Nat) : State :=
  let x := s.turn n
  match x.marks, s.ttSingleNow n with
  | [u], some p =>
    let stop := u + p.1 / (2 * p.2)
    if x.edges.any (fun e => u ≤ e.1 && e.1 ≤ stop) then s
    else
      let s := (s.advance (stop / 64 + 12)).setTurn n { x with marks := [] }
      let (s, bits) := s.syncError n
      s.ttRaise n bits
  | _, _ => s

/-! ### The stall (R123, R137, R138) -/

/-- Outputs that an angle entry of turntable `n` has started, ended at a stall (R138): pulses two cycles on, trains after
the pulse in progress, or at once between two pulses, bursts as RU_STOP. -/
def State.cutStarted (s : State) (n : Nat) : State :=
  let now := s.raw * 64
  let one (s : State) (t : Nat) : State :=
    let x := s.track t
    let x := match x.bAct with
      | some c =>
        if c.turn = some n ∧ c.act = CmpAct.trail ∧ x.aAct = none ∧ now + 128 < s.rawOf c.time then
          { x with bAct := some { c with time := s.vtAt (now + 128), since := min c.since s.raw } }
        else x
      | none => x
    match x.train with
    | some r =>
      if r.turn = some n then
        let s := s.setTrack t { x with train := r.cut }
        if r.cut.isNone then (s.tirq t TRK.IRQ_RAW.DONE).promote t else s
      else s.setTrack t x
    | none => s.setTrack t x
  let s := (s.trk.map (fun e => e.1)).foldl one s
  s.rulers.foldl (fun s u =>
    match (s.ruler u).run with
    | some r => if r.angle = some n then s.ruStopped u now else s
    | none => s) s

/-- The keepsakes of a clean stop (R123). -/
def State.keepStop (s : State) (n a : Nat) : State :=
  let x := s.turn n
  let d := if x.now.rvs then 2 ^ 30 else 0
  let s := s.setReg (TTN.KS_ANGLE.ANGLE.off + pgAt n) (word (2 ^ 31 + d + a))
  let s := s.setReg (TTN.KS_TOOTH.NT.off + pgAt n) (word (s.ttTeeth n * 2 ^ 16 + x.tooth))
  s.setReg (TTN.KS_REV.V.off + pgAt n) (word x.rev)

/-- A model without a fit: the angle stays at the tooth's (R127). -/
def AngleModel.unfit (x : AngleModel) : AngleModel := { x with ok := false, w := {}, a := {} }

/-- A stall declared in the cycle now (R138). -/
def State.stallNow (s : State) (n : Nat) : State :=
  let st := s.ttState n
  let a := s.ttAngle n (s.raw * 64)
  let s := if st = ttSynced then s.keepStop n a else s
  let x := s.turn n
  let s := s.setTurn n { x with
    frozen := some a, before := st, deadline := none, hist := [], singles := [], linked := false, pper := none
    now := x.now.unfit }
  let s := ((s.setTtState n ttStalled).clr TTN.STS.PRED_OK (pgAt n)).bump TTN.EVTCNT.STALLS 1 (pgAt n)
  let s := s.ttDrop n outDiscarded
  let s := if s.ttPred n TTN.PRED.CANCEL_ON_STALL = 1 then s.cutStarted n else s
  s.ttRaise n (irqBit TTN.IRQ_RAW.STALL)

/-- The states that a stall leaves (R121). -/
def ttRuns (st : Nat) : Bool := st = ttHunting || ttKnown st

/-- The stall deadline's cycle + 12 with no tooth up to the deadline's cycle (R121, R137). -/
def State.stall (s : State) (n : Nat) : State :=
  let x := s.turn n
  match x.deadline with
  | none => s
  | some d =>
    if !ttRuns (s.ttState n) || x.edges.any (fun e => e.1 / 64 ≤ d / 64) then s
    else (s.advance (d / 64 + 12)).stallNow n

/-! ### A tooth (R116, R126) -/

/-- What a tooth's processing finds: the interval it ends, the missing teeth classified, those expected, the tooth
expected, the direction. -/
structure ToothView where
  t : Nat
  iv : Option Nat
  m : Option Nat
  exp : Nat
  j : Nat
  rvs : Bool
  change : Bool
  known : Bool
  deriving DecidableEq, Repr

/-- The word of the period ring (R142). -/
def State.ringPut (s : State) (n iv : Nat) (gap : Bool) : State :=
  if s.ttOn n TTN.CTL.RINGFRZ then s
  else
    let x := s.turn n
    let wp := s.ttF n TTN.RINGPOS.WP
    let w := word (min (iv / 64) 0x7FFFFFFF + (if gap then 2 ^ 31 else 0))
    let s := ((s.setTurn n { x with ring := SMap.put (fun _ => 0) x.ring wp w }).touch stRing).setEcc stRing (n * 1024 + wp) 0
    let s := if wp = 1023 then s.incr TTN.RINGPOS.WRAPS (pgAt n) else s
    s.setF TTN.RINGPOS.WP (wp + 1) (pgAt n)

/-- The mark that a tooth brings (R119): the tooth identified, and whether a mark's half interval had ended. Edges at or
before the tooth are judged and dropped. -/
def State.takeMarks (s : State) (n t : Nat) (single : Option (Nat × Nat)) : State × Option Nat × Bool :=
  let x := s.turn n
  let mine := x.marks.filter (fun m => m ≤ t)
  let s := s.setTurn n { x with marks := x.marks.filter (fun m => t < m) }
  match mine.getLast?, single with
  | some m, some p => if inHalf m t p then (s, some (s.markTooth n), false) else (s, none, true)
  | _, _ => (s, none, false)

/-- The revolution after tooth `j` is accepted from tooth `i` (R130). -/
def nextRev (rev i j : Nat) (rvs : Bool) : Nat :=
  if rvs then (if i < j then (rev + 2 ^ 32 - 1) % 2 ^ 32 else rev) else (if j ≤ i then (rev + 1) % 2 ^ 32 else rev)

/-- The model of tooth `j` accepted at `t`, before its fit: the angle re-anchored, the interpolation of the last fit. -/
def State.anchor (s : State) (n t j rev : Nat) (rvs : Bool) (old : AngleModel) : AngleModel :=
  let nt := s.ttTeeth n
  let ofs : Int := if rvs then signedOf 16 (s.ttF n TTN.REVOFS.V) else 0
  { old with
    time := t, theta := bitsOfInt 24 ((thetaOf nt j : Nat) + ofs), span := spanOf nt rvs j (s.ttNext n j rvs).1
    rev := rev, rvs := rvs }

/-- Overtaken entries (R136): moved, at or behind the new anchor. -/
def State.overtakenNow (s : State) (n : Nat) : List Nat :=
  let x := s.turn n
  let is := s.slotsBy (fun y => y.turns n && y.moved && x.now.dir * (x.startPos y.bits - x.pos) ≤ 0)
  sortBy (fun i => (s.slot i).start) is

/-- A tooth accepted (R116 to R142), stamped at `v.t`, the cycle now. -/
def State.acceptTooth (s : State) (n : Nat) (v : ToothView) (single : Option (Nat × Nat)) (race : Nat) : State :=
  let x := s.turn n
  let st := s.ttState n
  let nt := s.ttTeeth n
  let gs := s.ttGaps n
  let src := s.ttF n TTN.INCFG.SYNCSRC
  let hears := st = ttHunting || v.known
  let (s, mark, late) := if hears then s.takeMarks n v.t single else (s.setTurn n { x with marks := [] }, none, false)
  -- identification and the checks of R119
  let gapMark := if st = ttHunting ∧ src = 1 ∧ !late then (v.m.bind (fun m => if 0 < m then identify nt gs v.rvs x.gap m else none)) else none
  let mark := if mark.isSome then mark else gapMark
  let wrong := v.known && ((v.m.isSome && v.m ≠ some v.exp) || (mark.isSome && mark ≠ some v.j))
  let err := late || wrong
  let agree := v.known && !err && (mark.isSome || (src = 1 && (v.m.getD 0) ≠ 0))
  -- index, revolution, angle
  let found := st = ttHunting && !err && mark.isSome
  let j := if v.known then v.j else if found then mark.getD 0 else x.tooth
  let rev :=
    if v.change then x.rev
    else if v.known then nextRev x.rev x.tooth v.j v.rvs
    else if found ∧ !v.rvs ∧ j = 0 then (x.rev + 1) % 2 ^ 32
    else if found ∧ v.rvs ∧ j = nt - 1 then (x.rev + 2 ^ 32 - 1) % 2 ^ 32
    else x.rev
  let span := if v.known then spanOf nt v.rvs x.tooth v.j else divNear (full24 * (v.m.getD 0 + 1)) nt
  let located := v.known || found
  let now := if located then s.anchor n v.t j rev v.rvs x.now else { x.now with time := v.t, rev := rev, rvs := v.rvs }
  let now := if v.change then now.unfit else now
  let y := s.turn n
  let gap : Option (Nat × Nat) :=
    if st ≠ ttHunting ∨ err then none
    else
      match v.m with
      | some (m + 1) => some (m + 1, 1)
      | _ => y.gap.map (fun g => (g.1, g.2 + 1))
  let singles := match v.iv with
    | some iv =>
      -- under SYNCSRC = 1 intervals classified with m = 0, and the first two before any has been classified (R119)
      if src ≠ 1 ∨ v.m = some 0 ∨ (v.m = none ∧ y.singles.length < 2) then (iv :: y.singles).take 2 else y.singles
    | none => y.singles
  let hist := match v.iv with | some iv => ((iv, span) :: y.hist).take 8 | none => if v.change then [] else y.hist
  let left := s.ttF n TTN.STS.SURGE_LEFT
  let pred := s.reg (TTN.PRED.N.off + pgAt n)
  let surge : Bool := match v.iv, x.pper with
    | some iv, some p => decide (p * bitsAt pred.toNat TTN.PRED.SURGE_TOL.lo TTN.PRED.SURGE_TOL.wid < 16 * (p - iv)) && decide (iv < p)
    | _, _ => false
  let s := s.setTurn n { y with
    last := some v.t, tooth := j, rev := rev, now := now, prev := some x.now, hist := hist, singles := singles, gap := gap
    deadline := none, fitDue := true, short := surge || left ≠ 0, frozen := none, fresh := false, linked := true
    behind := [], repred := [], ann := [], pred := pred, pper := if v.change then none else y.pper }
  let s := s.setF TTN.STS.DIR (if v.rvs then 1 else 0) (pgAt n)
  let s := if v.change then s.clr TTN.STS.PRED_OK (pgAt n) else s
  let s := s.clr TTN.KS_ANGLE.STOP_CLEAN (pgAt n)
  let s := match v.iv with
    | some iv => s.ringPut n iv (if v.known then v.exp ≠ 0 else v.m.getD 0 ≠ 0)
    | none => s
  let s := s.setF TTN.STS.SURGE_LEFT (if surge then 4 else left - 1) (pgAt n)
  let s := if surge then s.bump TTN.EVTCNT.SURGES 1 (pgAt n) else s
  let s := if v.change then s.ttDrop n outDiscarded else s
  -- the sync state
  let (s, e) : State × Nat :=
    if err then s.syncError n
    else if agree ∧ st = ttProvisional then
      ((s.setTtState n ttSynced).clr TTN.STS.QS (pgAt n), irqBit TTN.IRQ_RAW.SYNCED)
    else if found then (s.setTtState n ttProvisional, 0)
    else (s, 0)
  let passed := if surge ∧ ttKnown (s.ttState n) then s.overtakenNow n else []
  let s := s.setTurn n { s.turn n with behind := passed }
  let bits := e + race + (if surge then irqBit TTN.IRQ_RAW.ANGLE_SURGE else 0)
    + (if v.change then irqBit TTN.IRQ_RAW.REVERSE else 0) + (if passed = [] then 0 else irqBit TTN.IRQ_RAW.OVERTAKEN)
  let s := s.ttRaise n bits
  let s := s.signal 2 n (j + (if v.rvs then 2 ^ 12 else 0) + s.ttState n * 2 ^ 16) (s.vtAt v.t)
  s.linkTooth (0x40 + n) v.t

/-- The state that a tooth is processed under (R121, R137): STALLED and LOST left. -/
def State.toothState (s : State) (n : Nat) : Nat :=
  let st := s.ttState n
  if st = ttStalled then
    if s.ttOn n TTN.INSEL.DIR_EN then (s.turn n).before
    else if ttKnown (s.turn n).before then ttProvisional else ttHunting
  else if st = ttLost ∧ s.ttOn n TTN.CTL.AUTORS then ttHunting
  else st

/-- The oldest stamped tooth edge processed at b+12 (R126). -/
def State.toothProcess (s : State) (n : Nat) : State :=
  let x := s.turn n
  match x.edges with
  | [] => s
  | (t, level) :: rest =>
    let s := (s.advance (t / 64 + 12)).setTurn n { x with edges := rest }
    let near : Bool := match x.last with
      | some l => decide (t < l + s.ttF n TTN.NOISE.MINP * 64)
      | none => false
    if !s.ttOn n TTN.CTL.EN then s
    else if near then s.bump TTN.CNT_EVT.LO 1 (pgAt n)
    else
      -- a stall deadline in a cycle before the tooth's comes first (R121, R137)
      let past : Bool := ttRuns (s.ttState n) && (match x.deadline with | some d => decide (d / 64 < t / 64) | none => false)
      let s := if past then s.stallNow n else s
      let race := if !past ∧ x.deadline.map (fun d => d / 64) = some (t / 64) then irqBit TTN.IRQ_RAW.TIMEOUT_RACE else 0
      let st := s.toothState n
      let s := s.setTtState n st
      let y := s.turn n
      let dirEn := s.ttOn n TTN.INSEL.DIR_EN
      let cur := s.ttOn n TTN.STS.DIR
      let rvs := if dirEn then level != s.ttOn n TTN.INCFG.DPOL else (y.fresh && cur)
      let change := dirEn && rvs != cur
      let known := ttKnown st
      let (j, exp) := if change then (y.tooth, 0) else s.ttNext n y.tooth rvs
      let iv : Option Nat := if y.linked ∧ !change then y.last.map (fun l => t - l) else none
      -- the interval that a direction change ends was expected in the direction before it
      let due := if change then (s.ttNext n y.tooth cur).2 else exp
      let single := s.ttSingle n st (if known then due else 0)
      let m := match iv, single with | some iv, some p => some (missedTeeth iv p) | _, _ => none
      s.acceptTooth n { t := t, iv := iv, m := m, exp := exp, j := j, rvs := rvs, change := change, known := known } single race

/-! ### The fit (R127) -/

/-- Sums of the fit over intervals newest first; `t` is the stamp that ends the interval, `tk` tooth k's. -/
def fitSums (tk : Nat) : Nat → List (Nat × Nat) → F64 × F64 × F64 × F64 → F64 × F64 × F64 × F64
  | _, [], acc => acc
  | t, (p, d) :: rest, (sx, sv, sxx, sxv) =>
    let pd := F64.ofInt p
    let x := ((F64.ofInt t).sub (pd.div (F64.ofInt 2))).sub (F64.ofInt tk)
    let v := (F64.ofInt d).div pd
    fitSums tk (t - p) rest (sx.add x, sv.add v, sxx.add (x.mul x), sxv.add (x.mul v))

/-- The fit of R127: speed and acceleration. -/
def fitOf (tk : Nat) (ivs : List (Nat × Nat)) : F64 × F64 :=
  let m := F64.ofInt ivs.length
  let (sx, sv, sxx, sxv) := fitSums tk tk ivs ({}, {}, {}, {})
  let a := ((m.mul sxv).sub (sx.mul sv)).div ((m.mul sxx).sub (sx.mul sx))
  ((sv.sub (a.mul sx)).div m, a)

/-- An integer held to `n` signed bits. -/
def clampSigned (n : Nat) (x : Int) : Int := max (-(2 ^ (n - 1) : Nat)) (min ((2 ^ (n - 1) : Nat) - 1) x)

/-- The turntable announces (R96, R98, R131). -/
def State.announces (s : State) : Bool := s.mode.moves && s.on DSP.CTL.RUN

/-- The position of the tooth that bounds announcement (R131): 2 + ADV teeth present beyond tooth k. -/
def horizon (s : State) (n : Nat) (rvs : Bool) : Nat → Nat → Int → Int
  | 0, _, p => p
  | k + 1, j, p =>
    let l := (s.ttNext n j rvs).1
    let d : Int := spanOf (s.ttTeeth n) rvs j l
    horizon s n rvs k l (if rvs then p - d else p + d)

/-- An entry may be announced in the sync state (R96). -/
def mayAnnounce (st b : Nat) : Bool := st = ttSynced || (st = ttProvisional && eProv b)

/-- Wheel entries to announce at this tooth (R131, R134, R139): refused ones first, then in order of start position. -/
def State.announceList (s : State) (n : Nat) : List Nat :=
  let x := s.turn n
  let st := s.ttState n
  if !s.announces ∨ (x.now.rvs ∧ s.ttPred n TTN.PRED.BIDIR = 0) then []
  else
    let bound := horizon s n x.now.rvs (2 + s.ttPred n TTN.PRED.ADV) x.tooth x.pos
    let is := s.slotsBy (fun y => y.turns n && y.st = .queued && y.place = .wheel && mayAnnounce st y.bits
      && x.now.dir * (x.startPos y.bits - bound) < 0)
    let key (i : Nat) : Nat := (x.now.dir * (x.startPos (s.slot i).bits - x.pos) + (2 ^ 60 : Nat)).toNat
    let (old, new) := is.partition (fun i => x.refused.contains i)
    sortBy key old ++ sortBy key new

/-- The fit completes at b+20 (R126, R127, R137). -/
def State.toothFit (s : State) (n : Nat) : State :=
  let x := s.turn n
  if !x.fitDue then s
  else
    let b := x.now.time / 64
    let s := s.advance (b + 20)
    let m := min (s.ttPred n TTN.PRED.N) x.hist.length
    let m := if x.short then min m 2 else m
    let (w, a) := fitOf (s.vtAt x.now.time) (x.hist.take m)
    let ok := 2 ≤ m && decide (0 < w.m)
    let model := { x.now with ok := ok, w := if ok then w else {}, a := if ok then a else {} }
    -- while the tooth is not known, the next interval is taken as one spacing
    let span := if ttKnown (s.ttState n) then model.span else divNear full24 (s.ttTeeth n)
    let time : Option Nat := if ok then (model.reach (F64.ofInt span)).map (fun d => d.round.toNat) else none
    let s := s.setF TTN.STS.PRED_OK (if ok then 1 else 0) (pgAt n)
    let shown := min (time.getD 0xFFFFFFFF) 0xFFFFFFFF
    let s := if ok then
        let s := s.setReg (TTN.OMEGA.V.off + pgAt n) (word (min (w.scalb 22).round.toNat 0xFFFFFFFF))
        let s := s.setReg (TTN.ACCEL.V.off + pgAt n) (word (bitsOfInt 32 (clampSigned 32 (a.scalb 52).round)))
        s.setReg (TTN.PPER.V.off + pgAt n) (word shown)
      else s
    let st := s.ttState n
    let ks := s.ttPred n TTN.PRED.STALLK + 1
    let base : Option Nat := if ok then some shown else x.hist.head?.map (fun h => h.1)
    let deadline : Option Nat := base.map (fun p => x.now.time + ks * p)
    let s := s.setTurn n { x with now := model, pper := if ok then some shown else none, fitDue := false, deadline := deadline, act := b + 24 }
    if ok ∧ ttKnown st then
      let live := (s.predSet n).filter (fun i => !x.behind.contains i)
      s.setTurn n { s.turn n with repred := sortBy (fun i => (s.slot i).start) live, ann := s.announceList n }
    else s

/-! ### Actions from b+24 (R131 to R136) -/

/-- The clock at the turntable's next action; the one after follows a cycle later. -/
def State.ttAct (s : State) (n : Nat) : State :=
  let s := s.advance (s.turn n).act
  s.setTurn n { s.turn n with act := s.raw + 1 }

/-- The first overtaken entry treated by its LATE field (R136). -/
def State.overtake (s : State) (n i : Nat) : State :=
  let x := s.turn n
  match x.behind with
  | [] => s
  | h :: rest =>
    if h ≠ i then s
    else
      let s := (s.setTurn n { x with behind := rest }).ttAct n
      let y := s.slot i
      if !y.moved ∨ !y.turns n then s
      else if eLate y.bits = 1 then (s.ttSkip i).bump DSP.LATECNT.SKIPPED
      else if eLate y.bits = 3 then ((if y.st = .active then s.withdraw i outDiscarded else s) : State).callLate i y.start
      else (s.firedLate i).retime i s.vt

/-- The first entry to re-predict (R133); a NONE keeps the start it has. -/
def State.repredict (s : State) (n i : Nat) : State :=
  let x := s.turn n
  match x.behind, x.repred with
  | [], h :: rest =>
    if h ≠ i then s
    else
      let s := (s.setTurn n { x with repred := rest }).ttAct n
      let y := s.slot i
      if !y.turns n ∨ !(y.announced ∨ y.moved) then s
      else
        match s.ttPredict n y.bits with
        | none => s
        | some start => if y.st = .active then s.retime i start else s.setSlot i { y with start := start }
  | _, _ => s

/-- The first entry to announce (R131, R134). -/
def State.announce (s : State) (n i : Nat) : State :=
  let x := s.turn n
  match x.behind, x.repred, x.ann with
  | [], [], h :: rest =>
    if h ≠ i then s
    else
      let s := (s.setTurn n { x with ann := rest }).ttAct n
      let y := s.slot i
      if !y.turns n ∨ y.st ≠ .queued ∨ y.place ≠ .wheel then s
      else if 64 ≤ (s.predSet n).length then
        let s := s.setTurn n { s.turn n with refused := if x.refused.contains i then x.refused else x.refused ++ [i] }
        (s.bump TTN.PSET.FULLCNT 1 (pgAt n)).ttRaise n (irqBit TTN.IRQ_RAW.PSET_FULL)
      else
        match s.ttPredict n y.bits with
        | none => s
        | some start =>
          (s.setTurn n { s.turn n with refused := x.refused.erase i }).hang i .lane start 0
  | _, _, _ => s

/-! ### Enable, disable, abort (R121 to R125, R141) -/

/-- A turntable as it is at a start. -/
def Turntable.started (x : Turntable) (tooth rev : Nat) (now : AngleModel) : Turntable :=
  { x with
    edges := [], marks := [], last := none, tooth := tooth, rev := rev, now := now, prev := none, hist := [], singles := []
    pper := none, deadline := none, fitDue := false, short := false, frozen := none, fresh := false, linked := false
    gap := none, behind := [], repred := [], ann := [], refused := [] }

/-- EN set (R117, R121, R124, R125), the checks passed. -/
def State.ttStart (s : State) (n : Nat) : State :=
  let nt := s.ttTeeth n
  let x := s.turn n
  let s := (s.clr TTN.STS.SURGE_LEFT (pgAt n)).clr TTN.STS.PRED_OK (pgAt n)
  let kept := s.ttOn n TTN.CTL.QSEN && s.ttOn n TTN.KS_ANGLE.STOP_CLEAN && s.ttF n TTN.KS_TOOTH.NT = nt
  let begin_ (s : State) (j rev a : Nat) (rvs : Bool) : State :=
    let m : AngleModel := { theta := a, span := spanOf nt rvs j (s.ttNext n j rvs).1, rev := rev, rvs := rvs }
    let y := x.started j rev m
    let s := s.setTurn n { y with frozen := some a, fresh := true }
    ((s.setTtState n ttProvisional).set1 TTN.STS.QS (pgAt n)).setF TTN.STS.DIR (if rvs then 1 else 0) (pgAt n)
  if s.ttOn n TTN.RESTORE.VALID then
    let j := s.ttF n TTN.RESTORE.TOOTH
    (begin_ s j (s.ttF n TTN.RESTREV.V) (thetaOf nt j) false).clr TTN.RESTORE.VALID (pgAt n)
  else if kept then
    let s := s.clr TTN.KS_ANGLE.STOP_CLEAN (pgAt n)
    begin_ s (s.ttF n TTN.KS_TOOTH.TOOTH) (s.ttF n TTN.KS_REV.V) (s.ttF n TTN.KS_ANGLE.ANGLE) (s.ttOn n TTN.KS_ANGLE.DIR)
  else
    let s := s.setTurn n (x.started 0 x.rev { rev := x.rev })
    ((s.setTtState n ttHunting).clr TTN.STS.QS (pgAt n)).clr TTN.STS.DIR (pgAt n)

/-- EN cleared by a write or an abort (R121, R122, R141): STOP_CLEAN is kept only from STALLED. -/
def State.ttStop (s : State) (n out : Nat) : State :=
  let st := s.ttState n
  let s := if st = ttStalled then s else s.clr TTN.KS_ANGLE.STOP_CLEAN (pgAt n)
  let s := s.ttDrop n out
  let s := ((s.clr TTN.CTL.EN (pgAt n)).setTtState n ttUnsync).clr TTN.STS.QS (pgAt n)
  let x := s.turn n
  s.setTurn n { x with edges := [], marks := [], deadline := none, fitDue := false, refused := [] }

/-- RESYNC: LOST becomes HUNTING (R121). A stall deadline that has passed in LOST, where no stall is declared, is over. -/
def State.ttResync (s : State) (n : Nat) : State :=
  if s.ttState n = ttLost then
    let x := s.turn n
    (s.setTurn n { x with deadline := x.deadline.filter (fun d => decide (s.raw ≤ d / 64 + 12)) }).setTtState n ttHunting
  else s

/-- A step of `d` units (R140): predicted starts move with the tooth stamps; the stop loads of angle entries too, where
KEEP leaves them. -/
def State.stepTurns (s : State) (shift : Bool) (d : Int) : State :=
  let mine (x : Slot) : Bool := eAngle x.bits && (x.announced || x.moved)
  (s.slotsBy mine).foldl (fun s i =>
    let x := s.slot i
    let s := s.setSlot i { x with start := bitsOfInt 64 (x.start + d) }
    if x.st = .active ∧ eAction x.bits = 6 ∧ !shift then
      let t := eTarget x.bits
      let y := s.track t
      s.setTrack t { y with
        stop := y.stop.map (fun p => if p.2 = .slot i then (bitsOfInt 64 (p.1 + d), p.2) else p) }
    else s) s

/-! ### What a read shows -/

/-- The TTN words that follow state; ANGLE is the angle of the cycle now. -/
def State.liveTtn (s : State) (r : Requester) (n o : Nat) (w : Word) : Word :=
  let x := s.turn n
  if o = 0x64 then word (s.ttAngle n (s.raw * 64))
  else if o = 0x68 ∨ o = 0x6C ∨ o = 0x74 then s.preg r.id (0x130000 + pgAt n + o)
  else if o = 0x70 then (match x.last with | some t => word (s.vtAt t) | none => 0)
  else if o = 0x90 then word (putBits w.toNat 0 7 (s.predSet n).length)
  else w

/-- The words that a read of TTN.ANGLE copies: TTN.REV and TTN.TOOTH (R129). -/
def State.angleCopies (s : State) (n : Nat) : Word × Word :=
  let x := s.turn n
  (word x.rev, word (x.tooth + (if s.ttOn n TTN.STS.DIR then 2 ^ 12 else 0)))

end Sys2Proof.Machine
end

