-- ==== Sys2Proof/Machine/HstOps.lean ====
section
/-! DEFINITION. Host streams (file 12: R290 to R302): sources, slots, reports, credits, link loss and abort. -/

namespace Sys2Proof.Machine

def State.hstream (s : State) (n : Nat) : Stream := SMap.get (fun _ => {}) s.hst.streams n

def State.setHstream (s : State) (n : Nat) (x : Stream) : State :=
  { s with hst := { s.hst with streams := SMap.put (fun _ => {}) s.hst.streams n x } }

/-- Byte distance of stream `n`'s registers. -/
abbrev stAt (n : Nat) : Nat := 0x40 * n

def State.stF (s : State) (n : Nat) (g : Fld) : Nat := s.f g (stAt n)
def State.stOn (s : State) (n : Nat) (g : Fld) : Bool := s.on g (stAt n)

/-! ### Sources (R290) -/

/-- The log ring of stream 0 or 2: base and size in bytes. -/
def State.logRing (s : State) (n : Nat) : Nat × Nat := (s.stF n HST.SSRC.BASE * 4096, s.stF n HST.SSRC.SIZE * 4096)

/-- Word of the log store at byte position `p` of a log ring. -/
def State.ringWord (s : State) (n p : Nat) : Nat :=
  let (b, z) := s.logRing n
  (b + p % z) / 4 % 2 ^ 19

/-- Written and taken positions of a log ring. -/
def State.ringPos (s : State) (n : Nat) : Nat × Nat :=
  if n = 0 then (s.hst.stampWp, s.hst.stampRp) else (s.hst.optWp, s.hst.optRp)

/-- A log ring has room for a record. -/
def State.ringRoom (s : State) (n : Nat) : Bool :=
  let p := s.ringPos n
  p.1 - p.2 + 16 ≤ (s.logRing n).2

/-- The record that the writer of log 0 or 2 holds. -/
def State.writerOf (s : State) (n : Nat) : Option Writer := if n = 0 then s.hst.stampOut else s.hst.optOut

def State.setWriter (s : State) (n : Nat) (w : Option Writer) : State :=
  if n = 0 then { s with hst := { s.hst with stampOut := w } } else { s with hst := { s.hst with optOut := w } }

/-- A log ring holds one record more. -/
def State.ringAdvance (s : State) (n : Nat) : State :=
  if n = 0 then { s with hst := { s.hst with stampWp := s.hst.stampWp + 16 } }
  else { s with hst := { s.hst with optWp := s.hst.optWp + 16 } }

/-- The DMA tag of the record writer of log 0 or 2, and of the reader of a stream. -/
def tagWriter (n : Nat) : Nat := if n = 0 then 0 else 42
abbrev tagStream (n : Nat) : Nat := 44 + n

/-- The writer of a log writes the words of its record, one in each cycle that the siding gives it, at most `k` (R266). -/
def State.writeOn (s : State) (n : Nat) : Nat → State
  | 0 => s
  | k + 1 =>
    match s.writerOf n with
    | none => s
    | some w =>
      let i := s.ringWord n ((s.ringPos n).1 + 4 * w.done)
      match s.dmaWord (i / 32768) (tagWriter n) w.since with
      | (t, none) => t
      | (t, some g) =>
        let t := t.logWrite i (word (w.bits / 2 ^ (32 * w.done)))
        if w.done = 3 then (t.setWriter n none).ringAdvance n
        else (t.setWriter n (some { w with done := w.done + 1, since := g + 1 })).writeOn n k

/-- The DMA tag of the mirror queue's writes. -/
abbrev tagRing : Nat := 43

/-- The mirror queue writes its words into its siding, one in each cycle that the siding gives it, at most `k` (R346). -/
def State.queueOn (s : State) : Nat → State
  | 0 => s
  | k + 1 =>
    match s.twn.toRing with
    | [] => s
    | (i, v) :: rest =>
      match s.dmaWord (s.f TWN.MQ.SIDING) tagRing s.twn.ringSince with
      | (t, none) => t
      | (t, some g) =>
        ({ t with twn := { t.twn with toRing := rest, ringSince := g + 1 } }.logWrite (s.f TWN.MQ.SIDING * 32768 + i) v).queueOn k

/-- The writers of records and of the mirror queue go on. -/
def State.writeAll (s : State) : State := ((s.writeOn 0 4).writeOn 2 4).queueOn 16

/-- The writer of a log is free and the log has room (R290). -/
def State.writerFree (s : State) (n : Nat) : Bool := (s.writerOf n).isNone && s.ringRoom n

/-- A record taken by the writer of a log. -/
def State.ringPush (s : State) (n bits : Nat) : State := s.setWriter n (some { bits := bits, since := s.raw })

/-- The reader of stream `n` reads words of the log store, one in each cycle that their siding gives it (R266): the state, and
whether it has read them all. -/
def State.readPart (s : State) (n : Nat) : List Nat → State × Bool
  | [] => (s, true)
  | i :: is =>
    let x := s.hstream n
    match s.dmaWord (i / 32768) (tagStream n) x.readAt with
    | (t, none) => (t, false)
    | (t, some g) =>
      let b := leBytes 4 (t.logPeek i).toNat
      (((t.logRead i).setHstream n { x with part := x.part ++ b, readAt := g + 1 }).readPart n is)

/-- The bytes of a unit read in full, which the reader gives up. -/
def State.partTaken (s : State) (n : Nat) : State × List Byte :=
  let x := s.hstream n
  (s.setHstream n { x with part := [] }, x.part)

/-- Shunters that serve stream `n` (R253). -/
def State.shnFeeds (s : State) (n k : Nat) : Bool :=
  let x := s.shunter k
  s.shF k SHN.RXDMA_CFG.STRM = n - 2 && x.wp ≠ x.rp

/-- The shunter that the next slot of stream `n` serves, in cyclic order after `last`. -/
def State.nextFeed (s : State) (n last : Nat) : Option Nat :=
  ((List.range 16).map (fun j => (last + 1 + j) % 16)).find? (s.shnFeeds n)

/-- The first frame that leaves through stream 1: a complete frame of a window with DEST = 0. -/
def State.nextFrame (s : State) : Option (Nat × Nat × Nat) :=
  s.adc.frames.find? (fun f => !s.on ADC.WCFG.DEST (winAt f.1))

/-- A stream's source holds payload. -/
def State.hasPayload (s : State) (n : Nat) : Bool :=
  let x := s.hstream n
  x.rest ≠ [] ||
    (if n = 0 ∨ n = 2 then decide ((s.ringPos n).2 < (s.ringPos n).1)
     else if n = 1 then s.nextFrame.isSome
     else if n ≤ 5 then (s.nextFeed n 15).isSome
     else if n = 6 then decide (s.hst.logTaken < s.f SEC.LOGPOS.V)
     else s.hst.digest)

/-- The reader of a stream has nothing to read now: it wants its next word from this cycle on. -/
def State.readIdle (s : State) (n : Nat) : State := s.setHstream n { s.hstream n with readAt := s.raw }

/-- Words of a store read by a stream, all in the cycle now, as bytes. -/
def State.storeBytes (s : State) (k : Nat) (is : List Nat) (m : SMap Word) : State × List Byte :=
  (is.foldl (fun s i => s.checked k i) (s.touch k), is.flatMap (fun i => leBytes 4 (SMap.get (fun _ => 0) m i).toNat))

/-- The next payload unit of stream `n` taken from its source: its bytes, and the frame it is; nothing while it has not been
read in full. A record unit must fit the room; other units may be written in pieces (R292). -/
def State.takeUnit (s : State) (n shn room : Nat) : State × Option (List Byte × Option (Nat × Nat)) :=
  if n = 0 ∨ n = 2 then
    let p := s.ringPos n
    if room < 16 ∨ p.1 ≤ p.2 then (s.readIdle n, none)
    else
      match s.readPart n (((List.range 4).map (fun j => s.ringWord n (p.2 + 4 * j))).drop ((s.hstream n).part.length / 4)) with
      | (t, false) => (t, none)
      | (t, true) =>
        let (t, b) := t.partTaken n
        let h := if n = 0 then { t.hst with stampRp := p.2 + 16 } else { t.hst with optRp := p.2 + 16 }
        ({ t with hst := h }, some (b, none))
  else if n = 1 then
    match s.nextFrame with
    | none => (s, none)
    | some f =>
      let (w, u, k) := f
      let y := s.win w
      let (s, b) := s.storeBytes stAdc ((List.range (8 * k)).map (fun j => y.base * 256 + (u * 8 + j) % (y.size * 256))) s.mem.adcBuf
      let s := { s with adc := { s.adc with frames := s.adc.frames.erase f } }
      (s.setWin w { s.win w with sending := true }, some (b, some (w, k)))
  else if n ≤ 5 then
    let x := s.shunter shn
    if room < 4 ∨ !s.shnFeeds n shn then (s.readIdle n, none)
    else
      match s.readPart n [s.rxWord shn x.rp % 2 ^ 19] with
      | (t, false) => (t, none)
      | (t, true) =>
        let (t, b) := t.partTaken n
        (t.setShunter shn { t.shunter shn with rp := (x.rp + 1) % t.shF shn SHN.RXDMA_CFG.SIZE }, some (b, none))
  else if n = 6 then
    let t := s.hst.logTaken
    if s.f SEC.LOGPOS.V ≤ t then (s, none)
    else
      let (s, b) := s.storeBytes stBook ((List.range 8).map (fun j => t % 1024 * 8 + j)) s.mem.book
      ({ s with hst := { s.hst with logTaken := t + 1 } }, some (b, none))
  else if s.hst.digest then
    let (s, b) := s.storeBytes stBook ((List.range 1536).map (fun j => 8192 + j)) s.mem.book
    ({ s with hst := { s.hst with digest := false } }, some (b, none))
  else (s, none)

/-! ### Slots (R291, R292, R298) -/

/-- Slot size in bytes; a poll-mode slot fits the poll buffer. -/
def State.slotSize (s : State) (n : Nat) : Nat :=
  let z := 64 * 2 ^ s.stF n HST.SCFG.SLOTSZ
  if s.stOn n HST.SCFG.POLL then min z 256 else z

/-- The open slot filled from the source, at most `k` pieces. -/
def State.fillSlot (s : State) (n : Nat) : Nat → State
  | 0 => s
  | k + 1 =>
    let x := s.hstream n
    match x.slot with
    | none => s
    | some p =>
      let room := p.size - 16 - p.payload.length
      if room = 0 then s
      else if x.rest ≠ [] then
        let left := x.rest.drop room
        let p := { p with
          payload := p.payload ++ x.rest.take room, cont := left ≠ []
          ends := if left = [] then p.ends ++ x.restEnd.toList else p.ends }
        (s.setHstream n { x with
          slot := some p, rest := left, restEnd := if left = [] then none else x.restEnd }).fillSlot n k
      else
        match s.takeUnit n p.shn room with
        | (t, none) => t
        | (t, some (b, e)) => (t.setHstream n { t.hstream n with rest := b, restEnd := e }).fillSlot n k

/-- Every open slot takes what its source holds. -/
def State.fillAll (s : State) : State :=
  if s.hst.streams.any (fun e => e.2.slot.isSome) then
    (List.range 8).foldl (fun s n => if s.stOn n HST.SCFG.EN then s.fillSlot n 40000 else s) s
  else s

/-- A stream may open a slot: enabled, with payload, and in ring mode with the link up and a credit (R292, R298). -/
def State.mayOpen (s : State) (n : Nat) : Bool :=
  let x := s.hstream n
  s.stOn n HST.SCFG.EN && x.slot.isNone && s.hasPayload n
    && (if s.stOn n HST.SCFG.POLL then true else s.on HST.LINK.UP && x.g ≠ x.c)

/-- A slot opened (R292). DESIGN CHOICE (entry 44): one of poll mode is its own credit and its own report, so G and R move with
C and the books of R295 stand. -/
def State.slotOpen (s : State) (n : Nat) : State :=
  if !s.mayOpen n then s
  else
    let x := s.hstream n
    let k := if 3 ≤ n ∧ n ≤ 5 then (s.nextFeed n x.rr).getD 0 else 0
    let poll := s.stOn n HST.SCFG.POLL
    let p : OpenSlot :=
      { idx := x.c, payload := [], opened := s.raw, shn := k, polled := poll, size := s.slotSize n }
    let up (v : Nat) : Nat := (v + 1) % 2 ^ 32
    let x := if poll then { x with g := up x.g, r := up x.r } else x
    (s.setHstream n { x with
      slot := some p, c := up x.c, rr := if 3 ≤ n ∧ n ≤ 5 then k else x.rr, readAt := s.raw }).fillSlot n 40000

/-- The 16 bytes of a slot's descriptor (table of the slot descriptor). -/
def slotHead (n : Nat) (p : OpenSlot) (tmo loss abrt : Bool) (vt : Nat) : List Byte :=
  let b (v : Bool) (k : Nat) : Nat := if v then 2 ^ k else 0
  leBytes 4 p.idx ++ leBytes 2 p.payload.length ++ [byte (n + b tmo 3 + b p.cont 4 + b loss 5 + b abrt 6), byte (p.shn * 16)]
    ++ leBytes 8 vt

/-- A write to host memory cut into posted writes of at most 256 bytes (R282), `k` at most. -/
def piecesOf (a : Nat) (b : List Byte) : Nat → List (Nat × List Byte)
  | 0 => []
  | k + 1 => if b = [] then [] else (a, b.take 256) :: piecesOf (a + 256) (b.drop 256) k

/-- A write to host memory as posted writes, in the order in which they are issued. -/
def writesOf (a : Nat) (b : List Byte) : List (Nat × List Byte) := piecesOf a b (b.length / 256 + 1)

/-- The first of the writes `q` that a deficit of `d` bytes covers, what remains of the deficit, and the rest. -/
def turnOf (d : Nat) : List (Nat × List Byte) → List (Nat × List Byte) × Nat × List (Nat × List Byte)
  | [] => ([], 0, [])
  | w :: q =>
    if w.2.length ≤ d then
      let (a, e, r) := turnOf (d - w.2.length) q
      (w :: a, e, r)
    else ([], d, w :: q)

/-- Weighted deficit round-robin (R296) over the streams that have writes, in the order of their turns: each turn adds a quantum
of WGT × 256 bytes to the stream's deficit. The writes in their order, and the stream that had the last turn. -/
def shareTurns (wgt : Nat → Nat) (last : Nat) :
    Nat → List (Nat × Nat × List (Nat × List Byte)) → List (Nat × List Byte) × Nat
  | 0, _ => ([], last)
  | _, [] => ([], last)
  | k + 1, (n, d, q) :: rest =>
    let (a, e, r) := turnOf (d + wgt n * 256) q
    let (b, l) := shareTurns wgt n k (if r = [] then rest else rest ++ [(n, e, r)])
    (a ++ b, l)

/-- The writes of several streams issued as they share the link (R296). -/
def State.share (s : State) (qs : List (Nat × List (Nat × List Byte))) : State :=
  let order := (List.range 8).map (fun j => (s.hst.turn + 1 + j) % 8)
  let qs := order.flatMap (fun n => qs.filter (fun q => q.1 = n && q.2 ≠ []))
  let (ws, l) := shareTurns (fun n => s.stF n HST.SCFG.WGT) s.hst.turn
    (qs.foldl (fun k q => k + q.2.length + 1) 0) (qs.map (fun q => (q.1, 0, q.2)))
  { s with hst := { s.hst with outbox := ws.reverse ++ s.hst.outbox, turn := l } }

/-- The space of frames whose completion write has been issued is freed (R231). -/
def State.freeFrames (s : State) (es : List (Nat × Nat)) (left : Option (Nat × Nat)) : State :=
  es.foldl (fun s e =>
    let y := s.win e.1
    s.setWin e.1 { y with
      rp := if y.size = 0 then 0 else (y.rp + e.2) % (y.size * 32), sending := left.map (fun p => p.1) = some e.1 }) s

/-- The 64-bit value of a LO and HI pair of a stream. -/
def State.stPair (s : State) (n lo hi : Nat) : Nat := (s.reg (lo + stAt n)).toNat + (s.reg (hi + stAt n)).toNat * 2 ^ 32

/-- A closed slot in poll mode: in the poll buffer, or behind the slots that wait for it (R298). -/
def Stream.polls (x : Stream) (ws : List Word) : Stream :=
  if x.poll = [] then { x with poll := ws } else { x with pollNext := x.pollNext ++ [ws] }

/-- An open slot closed: the state, and the writes of its payload and then of its descriptor (R292, R298). -/
def State.closeSlotW (s : State) (n : Nat) (tmo abrt : Bool) : State × List (Nat × List Byte) :=
  let x := s.hstream n
  match x.slot with
  | none => (s, [])
  | some p =>
    let head := slotHead n p tmo x.loss abrt s.vt
    let y := { x with slot := none, loss := false }
    let s := s.freeFrames p.ends x.restEnd
    if p.polled then (s.setHstream n (y.polls (toWords (head ++ p.payload))), [])
    else
      let a := s.stPair n HST.SRING_LO.V.off HST.SRING_HI.V.off + p.idx % 2 ^ s.stF n HST.SCFG.LOGN * p.size
      (s.setHstream n { y with unrep := x.unrep + 1, tmo := x.tmo || tmo }, writesOf (a + 16) p.payload ++ [(a, head)])

/-- An open slot closed and written. -/
def State.closeSlot (s : State) (n : Nat) (tmo abrt : Bool) : State :=
  let (t, ws) := s.closeSlotW n tmo abrt
  t.share [(n, ws)]

/-- The poll buffer can take the open slot, or it goes to a ring. -/
def State.pollReady (s : State) (n : Nat) : Bool :=
  match (s.hstream n).slot with
  | none => true
  | some p => !p.polled || (s.hstream n).poll = []

/-- A slot must close: full, source empty with COAL = 0, or the stream stopped (R292). -/
def State.mustClose (s : State) (n : Nat) : Bool :=
  let x := s.hstream n
  match x.slot with
  | none => false
  | some p =>
    let room := p.size - 16 - p.payload.length
    let unit := if n = 0 ∨ n = 2 then 16 else if 3 ≤ n ∧ n ≤ 5 then 4 else 1
    let empty := if 3 ≤ n ∧ n ≤ 5 then !s.shnFeeds n p.shn else !s.hasPayload n
    room < unit || !s.stOn n HST.SCFG.EN || (s.stF n HST.SCFG.COAL = 0 && empty)

/-- The open slot closes where R292 asks for it. -/
def State.slotClose (s : State) (n : Nat) : State :=
  if s.mustClose n && s.pollReady n then s.closeSlot n false false else s

/-- COAL × 10 µs after its opening a slot closes with TIMEOUT. -/
def State.slotTimeout (s : State) (n : Nat) : State :=
  let coal := s.stF n HST.SCFG.COAL
  match (s.hstream n).slot with
  | none => s
  | some p =>
    if coal = 0 ∨ !s.pollReady n ∨ s.mustClose n then s
    else ((s.advance (p.opened + coal * 4000)).fillSlot n 40000).closeSlot n true false

/-! ### Credits and reports (R293 to R295) -/

/-- A report for the slots closed since the last (R294, R300): the state, and its write; none in poll mode (R298). -/
def State.reportW (s : State) (n : Nat) : State × List (Nat × List Byte) :=
  let x := s.hstream n
  if x.unrep = 0 || x.restart || s.stOn n HST.SCFG.POLL then (s, [])
  else
    let r := (x.r + x.unrep) % 2 ^ 32
    let a := s.stPair n HST.SREP_LO.V.off HST.SREP_HI.V.off
    let ws := [(a, leBytes 4 r ++ leBytes 4 s.dep)]
    let raise := x.tmo || s.stF n HST.SCFG.ICNT ≤ (r + 2 ^ 32 - x.base) % 2 ^ 32
    let s := s.setHstream n { x with r := r, unrep := 0, tmo := false }
    let s := if raise then { s.setF HST.IRQ_RAW.REP (s.f HST.IRQ_RAW.REP ||| 2 ^ n) with
      seenNow := s.seenNow.noted s.raw HST.IRQ_RAW.REP.off (2 ^ (HST.IRQ_RAW.REP.lo + n)) } else s
    (s, ws)

/-- A report issued. -/
def State.streamReport (s : State) (n : Nat) : State :=
  let (t, ws) := s.reportW n
  t.share [(n, ws)]

/-- A write of SnDB (R293, R298). -/
def State.doorbellTo (s : State) (r : Requester) (n : Nat) (v : Word) : State :=
  let x := s.hstream n
  let g := v.toNat
  let a := HST.SDB.V.off + stAt n
  if s.stOn n HST.SCFG.POLL then s.discard a r .mode
  else if 2 ^ s.stF n HST.SCFG.LOGN < (g + 2 ^ 32 - x.r) % 2 ^ 32 ∨ 2 ^ 31 ≤ (g + 2 ^ 32 - x.g) % 2 ^ 32 then
    (s.set1 HST.IRQ_RAW.DB_ERR).discard a r .range
  else s.setHstream n { x with g := g }

/-- REP bits cleared by a host: the count of R300 starts anew. -/
def State.repCleared (s : State) (bits : Nat) : State :=
  (List.range 8).foldl (fun s n =>
    if bitsAt bits n 1 = 1 then s.setHstream n { s.hstream n with base := (s.hstream n).r } else s) s

/-- A write of SnCFG.EN: at 0 to 1 the counts restart where R301 asks for it. -/
def State.streamEnable (s : State) (n : Nat) : State :=
  let x := s.hstream n
  if x.restart then s.setHstream n { x with restart := false, g := 0, c := 0, r := 0, base := 0, unrep := 0, tmo := false } else s

/-! ### Link loss and abort (R301, R302) -/

/-- A stream stopped by the loss of the link. -/
def State.streamLost (s : State) (n : Nat) : State :=
  let x := s.hstream n
  let lost := match x.slot with | some p => p.payload.length | none => 0
  let s := match x.slot with | some p => s.freeFrames p.ends x.restEnd | none => s
  let s := if lost = 0 then s else s.bump HST.SLOST.V lost (stAt n)
  let s := s.setHstream n { x with slot := none, restart := true, loss := x.loss || lost ≠ 0 }
  s.clr HST.SCFG.EN (stAt n)

/-- Link loss, hot reset or function-level reset. -/
def State.linkDown (s : State) : State :=
  let s := (List.range 8).foldl State.streamLost s
  let s := s.setReg HST.LINK.UP.off (word (s.f HST.LINK.LINKSEL * 2 ^ 9))
  let s := (s.set1 HST.IRQ_RAW.LINKDOWN).endSession .pcie 5
  { s with hst := { s.hst with unmasked := [], pba := [], msix := [] } }

/-- A stream stopped by an abort: its open slot is closed with ABORTED and reported. -/
def State.streamAbort (p : State × List (Nat × List (Nat × List Byte))) (n : Nat) :
    State × List (Nat × List (Nat × List Byte)) :=
  let (s, ws) := p.1.closeSlotW n false true
  let (s, rs) := s.reportW n
  (s.clr HST.SCFG.EN (stAt n), p.2 ++ [(n, ws ++ rs)])

/-- The effect of an abort of HST: every stream aborted, and the claims of the host over PCIe and SPI released (R80). -/
def State.hstAbort (s : State) : State :=
  let (s, qs) := (List.range 8).foldl State.streamAbort (s, [])
  ((s.share qs).releaseAll Requester.pcie.id).releaseAll Requester.spi.id

/-! ### What a read shows -/

/-- Bytes waiting in a stream's source (SRCLVL). -/
def State.sourceLevelOf (s : State) (n : Nat) : Nat :=
  if n = 0 ∨ n = 2 then (s.ringPos n).1 - (s.ringPos n).2
  else if n = 1 then ((s.adc.frames.filter (fun f => !s.on ADC.WCFG.DEST (winAt f.1))).map (fun f => f.2.2 * 32)).sum
  else if n ≤ 5 then
    (((List.range 16).filter (s.shnFeeds n)).map (fun k =>
      let z := s.shF k SHN.RXDMA_CFG.SIZE
      ((s.shunter k).wp + z - (s.shunter k).rp) % z * 4)).sum
  else if n = 6 then (s.f SEC.LOGPOS.V - s.hst.logTaken) * 32
  else if s.hst.digest then 6144 else 0

def State.liveHst (s : State) (o : Nat) (w : Word) : Word :=
  if 0x50 ≤ o ∧ o < 0x80 then s.summary o
  else if 0x100 ≤ o ∧ o < 0x300 then
    let n := (o - 0x100) / 0x40
    let x := s.hstream n
    let k := (o - 0x100) % 0x40
    if k = 0x18 then word x.g
    else if k = 0x1C then word x.c
    else if k = 0x20 then word x.r
    else if k = 0x24 then
      if s.stOn n HST.SCFG.POLL then 0
      else word (x.unrep * 2 ^ 18 + (if x.slot.isSome then 2 ^ 17 else 0) + (x.g + 2 ^ 32 - x.c) % 2 ^ 17)
    else if k = 0x2C then word (s.sourceLevelOf n)
    else if k = 0x30 then 0
    else if k = 0x34 then word x.poll.length
    else w
  else w

end Sys2Proof.Machine
end

