-- ==== Sys2Proof/Machine/ModeOps.lean ====
section
/-! DEFINITION. The operating modes (file 16: R368 to R374): their codes and what a change of mode brings each block. -/

namespace Sys2Proof.Machine

/-- The codes of the modes (R368). -/
def Mode.code : Mode → Nat
  | .off => 0
  | .hibernate => 1
  | .keeptime => 2
  | .boot => 3
  | .provision => 4
  | .configure => 5
  | .run => 6
  | .holdover => 7
  | .standby => 8
  | .halt => 9
  | .safe => 10
  | .factory => 11

/-- The mode that a code names, as PREV and LASTMODE hold it. -/
def modeOf (n : Nat) : Mode :=
  if n = 0 then .off else if n = 1 then .hibernate else if n = 2 then .keeptime else if n = 3 then .boot
  else if n = 4 then .provision else if n = 5 then .configure else if n = 6 then .run else if n = 7 then .holdover
  else if n = 8 then .standby else if n = 9 then .halt else if n = 10 then .safe else .factory

/-- Run or Holdover. -/
def Mode.running : Mode → Bool
  | .run => true
  | .holdover => true
  | _ => false

/-- A mode in which the watchdog counts (R379). -/
def Mode.watched : Mode → Bool
  | .configure => true
  | .run => true
  | .holdover => true
  | .safe => true
  | _ => false

/-- A mode from Configure on: in Boot and Provision every block holds its reset state (R372). -/
def Mode.alive : Mode → Bool
  | .off => false
  | .hibernate => false
  | .keeptime => false
  | .boot => false
  | .provision => false
  | _ => true

/-- A powered mode from Boot on (R380). -/
def Mode.powered : Mode → Bool
  | .off => false
  | .hibernate => false
  | .keeptime => false
  | _ => true

/-- The mode a running device takes from its servo (R40). -/
def State.runMode (s : State) : Mode :=
  if !s.srvOn || s.srv = srvAcquire || s.srv = srvLocked then .run else .holdover

/-- The TBU holds the claim of R51. -/
def State.ppsHeld (s : State) : Bool :=
  s.tbu.ppsClaim && s.holderAt (TRK.OWN.HOLDER.off + trkAt (s.f TBU.PPSOUT.TRACK)) = Requester.tbu.id

/-- A track without the pulses it holds that have not begun. -/
def Track.unbegun (x : Track) : Track :=
  let y := { x with aAct := none, aShd := none, bShd := none }
  if x.aAct.isSome then { y with bAct := none } else y

/-- Second pulses stop at an entry to Holdover with HOLD_EN = 0 (R51): one that is loaded and has not begun is not made. -/
def State.ppsHalt (s : State) : State :=
  let t := s.f TBU.PPSOUT.TRACK
  if s.ppsHeld && !s.on TBU.PPSOUT.HOLD_EN && s.srvOn then s.setTrack t (s.track t).unbegun else s

/-- What leaving Configure brings (R13): a new departure length, and the consists that it overtakes. -/
def State.leaveConfigure (s : State) : State :=
  let p := s.f DSP.TICK.PERIOD
  if p = s.dsp.period then s else (s.newPeriod p).stepConsists 0

/-- What leaving Debug-halt brings (R146, R211, R373): everything held goes on, and the catch-up list is filled. -/
def State.leaveHalt (s : State) : State :=
  let s := (s.engResumeAll.shnThaw (s.raw - s.pwr.haltAt)).memThaw (s.raw - s.pwr.haltAt)
  let s := s.rulers.foldl (fun s u => s.rulThaw u) s
  if s.dsp.replacing then s else if s.mode.moves then s.resumeMoves else s.catchUp

/-- What entering Debug-halt brings (R146, R210, R373). -/
def State.enterHalt (s : State) : State :=
  let s := s.engHaltAll
  let s := s.rulers.foldl (fun s u => s.rulFreeze u) s
  { s with pwr := { s.pwr with haltAt := s.raw } }

/-- The dispatcher starts with Run, Holdover or Factory-test (R112, R370). -/
def State.startMoves (s : State) : State :=
  let s := if s.mode.running then s.set1 DSP.CTL.RUN else s
  if s.dsp.replacing then s else s.resumeMoves

/-- What entering Twin-standby brings the engines (R357): queued calls, doorbells and events of kinds other than 6 and 7 that
have not started are dropped. DESIGN CHOICE (entry 44): routines in progress go on. -/
def State.engDeaf (s : State) (e : Nat) : State :=
  let x := s.engine e
  let keep (v : Nat) : Bool := let k := s.f MEN.EV.KIND (pgAt e + 4 * v); k = 6 || k = 7
  let y := { x with calls := [], dbs := [], evs := x.evs.filter (fun p => keep p.1) }
  x.calls.foldl (fun s c => if c.late then s.unhold c.slot else s.acted (.slot c.slot) outDiscarded) (s.setEngine e y.settled)

/-- A change of mode: `MODE_CHG` and what the change brings the blocks; the same mode changes nothing. -/
def State.toMode (s : State) (m : Mode) : State :=
  if s.mode = m then s
  else
    let old := s.mode
    let s := ({ s with mode := m } : State).set1 PWR.IRQ_RAW.MODE_CHG
    let s := if old = .halt || old = .safe || old = .standby then s.missPassed else s
    let s := if m.watched then { s with pwr := { s.pwr with kick := s.raw } } else s
    let s := if old = .configure then s.leaveConfigure else s
    let s := if (old = .configure || old = .safe) && m.moves then s.startMoves else s
    let since : Option Nat := if m = .holdover then some s.raw else none
    let s := if m = .holdover || old = .holdover then { s with tbu := { s.tbu with holdSince := since, holdTold := false, ppsStop := m = .holdover || s.tbu.ppsStop } } else s
    let s := if m = .holdover then s.ppsHalt else s
    let s := if old = .halt then s.leaveHalt else s
    let s := if m = .standby then s.eng.foldl (fun s e => s.engDeaf e.1) s else s
    if m = .halt then s.enterHalt else s

/-- A PWR.CMD in progress dropped (R371). -/
def State.preempt (s : State) : State :=
  if s.pwr.cmd.isSome then { s.setF PWR.CMDSTS.RESULT 2 with pwr := { s.pwr with cmd := none } } else s

/-- A command that has taken the device out of Run or Holdover in this very cycle is dropped where the automatic move becomes due
in it (R371). DESIGN CHOICE (entry 44): Hibernate and Keep-time, which lose the core, are not undone. -/
def State.undoCmd (s : State) : State :=
  match s.pwr.taken with
  | none => s
  | some (c, m) =>
    if c = s.raw && s.mode = .configure && s.runMode ≠ m then
      ({ s with mode := m, pwr := { s.pwr with taken := none } } : State).setF PWR.CMDSTS.RESULT 2
    else s

/-- The automatic move between Run and Holdover (R40, R369). -/
def State.autoMove (s : State) : State := if s.mode.running then s.toMode s.runMode else s

def State.autoMode (s : State) : State := s.undoCmd.autoMove

/-- The PWR words that follow state: STS and CMDSTS. -/
def State.livePwr (s : State) (o : Nat) (w : Word) : Word :=
  if o = 0x0C then
    word ((if s.pwr.xtalOk then 2 ^ 11 else 0) + (if s.pwr.coreOk then 2 ^ 9 else 0) + s.pwr.prev * 16 + s.mode.code)
  else if o = 0x44 then word (putBits w.toNat 31 1 (if s.pwr.cmd.isSome then 1 else 0))
  else w

end Sys2Proof.Machine
end

