-- ==== Sys2Proof/Machine/TwnOps.lean ====
section
/-! DEFINITION. The twin pair (file 15): states and frames, heartbeats and FOLLOW, mirroring, switchover. Frames sent are
held in `Twn.out`, newest first. -/

namespace Sys2Proof.Machine

/-- The codes of the twin states (TWN.STS.STATE). -/
def TwnSt.code : TwnSt → Nat
  | .solo => 0
  | .primary => 1
  | .joining => 2
  | .ready => 3
  | .notReady => 4

/-- The twin state that a code of a HELLO frame names. -/
def twnStOf (n : Nat) : TwnSt :=
  if n = 1 then .primary else if n = 2 then .joining else if n = 3 then .ready else if n = 4 then .notReady else .solo

/-- A STANDBY in any of its states. -/
def TwnSt.standby : TwnSt → Bool
  | .joining => true
  | .ready => true
  | .notReady => true
  | _ => false

/-- Frames are exchanged: twin operation is enabled and both lanes are trained (R347). -/
def State.linked (s : State) : Bool := s.on TWN.CTL.EN && s.twn.linkUp

/-- A frame sent. -/
def State.send (s : State) (f : Frame) : State := s.onTwn fun x => { x with out := f :: x.out }

/-! ### Pairing (R347, R348) -/

/-- The device's own HELLO (table of frame types). -/
def State.hello (s : State) : Hello :=
  let i := s.sec.image
  { serial := s.sec.otp.serial
    mcver0 := match i with | some i => word i.ver0 | none => 0
    mcver1 := match i with | some i => word i.ver1 | none => 0
    mcver2 := match i with | some i => word i.ver2 | none => 0
    shnver := match i with | some i => word i.shnVer | none => 0
    fltver := match i with | some i => word i.fltVer | none => 0
    period := s.f DSP.TICK.PERIOD
    stepping := s.f GLB.CHIPID.STEP
    pref := s.on TWN.CTL.PREF
    state := s.twn.st.code }

/-- A HELLO sent: its state field tells the peer of a change of state. -/
def State.sendHello (s : State) : State := if s.linked then s.send (.hello s.hello) else s

/-- The first field in which two HELLO frames differ, coded 1 to 7; 0 where they agree (R347). -/
def helloDiff (a b : Hello) : Nat :=
  if a.mcver0 ≠ b.mcver0 then 1 else if a.mcver1 ≠ b.mcver1 then 2 else if a.mcver2 ≠ b.mcver2 then 3
  else if a.shnver ≠ b.shnver then 4 else if a.fltver ≠ b.fltver then 5 else if a.period ≠ b.period then 6
  else if a.stepping ≠ b.stepping then 7 else 0

/-- The device is PRIMARY of the pair that its HELLO `a` and its peer's `b` form (R347). -/
def helloPrimary (a b : Hello) : Bool :=
  if b.state = 1 then false else if a.pref ≠ b.pref then a.pref else decide (a.serial < b.serial)

/-- The timetable emptied before a copy: loads of ACTIVE entries are withdrawn, every slot is free. -/
def State.emptySlots (s : State) : State :=
  let act := (s.slots.filter (fun e => e.2.st = .active)).map (fun e => e.1)
  let s := act.foldl (fun s i => s.withdraw i outCancelled) s
  { s with slots := [], dsp := { s.dsp with front := [], fresh := 0, freed := [], port := [], cancels := [], farPos := 0 } }

/-- The servo in FOLLOW (R350), its frequency kept. -/
def State.enterFollow (s : State) : State :=
  let s := s.setSrv srvFollow
  s.onTwn fun x => { x with integ := s.freqNow.neg, lockCnt := 0, lock := false }

/-- The heartbeat books of a pair that begins anew. -/
def Twn.freshHb (x : Twn) : Twn :=
  { x with
    missed := 0, expect := [], early := [], rxAt := none, txAt := none, sent := [], trip := none }

/-- JOINING entered (R347, R364). The joiner awaits record 1. -/
def State.enterJoining (s : State) : State :=
  let s := s.toMode .standby
  let s := s.emptySlots.enterFollow
  let s := s.onTwn fun x => { x with
    st := .joining, aligned := false, copied := false, check := [], differ := 0, agree := 0, cv := 0, rxSeq := 0
    cons := [], sw := none, yieldAt := none, released := false }
  s.sendHello

/-- A JOINING or READY STANDBY becomes NOT_READY (R348). -/
def State.notReady (s : State) : State :=
  if s.twn.st = .joining ∨ s.twn.st = .ready then
    ((s.onTwn fun x => { x with st := .notReady, sw := none }).set1 TWN.IRQ_RAW.NOT_READY).sendHello
  else s

/-- The peer is lost, or a STANDBY that is not READY is asked to take over (R348, R359). -/
def State.peerLost (s : State) : State := (s.set1 TWN.IRQ_RAW.PEER_LOST).fault 0x0A

/-- A PRIMARY's mirror books emptied: nobody receives its records. -/
def State.dropMirror (s : State) : State := s.onTwn fun x => { x with queue := [], unacked := [], toRing := [], cons := [] }

/-- The peer of a PRIMARY has entered JOINING: KILL is released, and the peer is owed the copy (R358, R364). DESIGN CHOICE
(entry 44): the SEQ of mirror records starts at 1 with each join. -/
def State.peerJoins (s : State) : State :=
  (s.dropMirror).onTwn fun x => { x with killOut := false, owesCopy := true, enq := 0, mirSeq := 0, mirAck := 0, mine := [] }

/-- The peer's state as its HELLO names it. -/
def State.notePeer (s : State) (st : TwnSt) : State :=
  let old := s.twn.peerSt
  let s := s.onTwn fun x => { x with peerSt := st }
  if s.twn.st = .primary ∧ st = .joining ∧ old ≠ .joining then s.peerJoins else s

/-- A mode in which a device pairs as PRIMARY (R347, R364); as STANDBY it pairs in Configure (R369). -/
def State.mayPair (s : State) (primary : Bool) : Bool :=
  s.mode = .configure || (primary && s.mode.running)

/-- A HELLO received (R347). -/
def State.rxHello (s : State) (h : Hello) : State :=
  if !s.linked then s
  else
    let s := (s.setF TWN.PEERSER_LO.V h.serial).setF TWN.PEERSER_HI.V (h.serial / 2 ^ 32)
    let d := helloDiff s.hello h
    if d ≠ 0 then s.onTwn fun x => { x with pairErr := d }
    else if s.twn.st = .solo then
      let p := helloPrimary s.hello h
      if !s.mayPair p then s
      else
        let s := (s.onTwn fun x => { x.freshHb with pairErr := 0 }).set1 TWN.IRQ_RAW.PAIRED
        if p then
          let s := s.onTwn fun x => { x with st := .primary }
          (s.notePeer .joining).sendHello
        else (s.onTwn fun x => { x with peerSt := .primary }).enterJoining
    else
      let s := s.onTwn fun x => { x with pairErr := 0 }
      -- a peer in SOLO has begun anew
      if h.state = 0 then (s.onTwn Twn.freshHb).sendHello else s.notePeer (twnStOf h.state)

/-- Twin operation ends: EN written 0 (R348). The kill input and the link's counters stay. -/
def State.twnOff (s : State) : State :=
  let s := { s with twn := { killIn := s.twn.killIn, txSeq := s.twn.txSeq, enq := s.twn.enq, mirSeq := s.twn.mirSeq,
                             mirAck := s.twn.mirAck, theta := s.twn.theta, out := s.twn.out } }
  let s : State := if s.srv = srvFollow then
      let s := s.setSrv srvFree
      { s with tbu := { s.tbu with integ := s.freqNow.neg } }
    else s
  if s.mode = .standby then s.toMode .configure else s

/-! ### Heartbeats (R349 to R351, R354) -/

/-- The FAULT flags that a device sends (TWN.FLTSEL). -/
def State.faultFlags (s : State) : Nat :=
  let bit (n : Nat) (b : Bool) : Nat := if b then 2 ^ n else 0
  let flags := bit 0 (s.mode = .safe || s.twn.safeFlag) + bit 1 (s.on TBU.IRQ_RAW.PLL_UNLOCK)
    + bit 2 (engines.any (fun e => (s.engine e).st = .faulted)) + bit 3 (s.on MEM.IRQ_RAW.UNCORR)
    + bit 4 (s.on DSP.IRQ_RAW.OVR_ESC) + bit 5 (s.on TBU.IRQ_RAW.CAL_FAIL)
  flags &&& s.f TWN.FLTSEL.V

/-- Live entries: QUEUED and ACTIVE. -/
def State.liveCount (s : State) : Nat := let (_, q, a, _) := s.countBooks; q + a

/-- An RSEQ that no device meets (R365). -/
abbrev rseqNever : Nat := 2 ^ 32 - 1

/-- A heartbeat of this cycle. -/
def State.hbNow (s : State) (seq rseq : Nat) : Heartbeat :=
  { seq := seq, dep := s.dep, t1 := s.twn.txAt.getD 0, t4 := s.twn.rxAt.getD 0, live := s.liveCount, rseq := rseq, faults := s.faultFlags }

/-- The heartbeat that the peer launches with an own one expected by raw cycle `d`, unless it has come already (R351). -/
def Twn.expects (x : Twn) (d : Nat) : Twn :=
  { x with
    expect := if x.early.contains x.expSeq then x.expect else x.expect ++ [(x.expSeq, d)]
    early := x.early.erase x.expSeq, expSeq := x.expSeq + 1 }

/-- A heartbeat launched. -/
def State.launchHb (s : State) : State :=
  (s.send (.heartbeat (s.hbNow (s.twn.txSeq + 1) s.twn.enq))).onTwn fun x => { x.expects (s.raw + s.f TWN.HBWIN.V) with
    txSeq := x.txSeq + 1, txAt := some s.vt, sent := (s.vt :: x.sent).take 8, safeFlag := false }

/-- The final heartbeat, whose RSEQ cannot be met (R356, R365). DESIGN CHOICE (entry 44): it repeats the SEQ of the last
heartbeat, so that the launches at boundaries and the deadlines go on as they were. -/
def State.finalHb (s : State) : State :=
  (s.send (.heartbeat (s.hbNow s.twn.txSeq rseqNever))).onTwn fun x => { x with safeFlag := false }

/-- `HEARTBEAT_LAUNCH` (R351): at cycle c of a boundary at least 400 cycles after the previous heartbeat. -/
def State.heartbeat (s : State) : State :=
  let due : Bool := match s.twn.txAt with | none => true | some t => decide (400 * 64 ≤ vtDiff s.vt t)
  if s.linked && s.twn.st ≠ .solo && due then s.launchHb else s

/-- Bandwidth of TWN.FOLLOW.BW in Hz. -/
def followHz (bw : Nat) : Nat := if bw = 0 then 100 else if bw = 1 then 1000 else 10000

/-- FOLLOW steered by a phase error of `e` VTS64 units after `dt` units (R38, R350). -/
def State.follow (s : State) (e dt : Int) : State :=
  let sec (n : Int) : F64 := F64.ofRatio (n * 5) 128000000000
  let hz := followHz (s.f TWN.FOLLOW.BW)
  let kp := F64.ofRatio ((4317 * hz : Nat) : Int) 1000
  let ki := F64.ofRatio ((9321 * hz * hz : Nat) : Int) 1000
  let p := kp.mul (sec e)
  let slew := ppm 50
  let sat := slew.lt p.abs
  let p := if sat then slew.copysign p else p
  let integ := if sat then s.twn.integ else s.twn.integ.add ((ki.mul (sec dt)).mul (sec e))
  let integ := integ.clamp (ppm (-200)) (ppm 200)
  let s := s.putFreq (((integ.add p).neg).clamp (ppm (-200)) (ppm 200))
  let good := decide (e.natAbs ≤ s.f TWN.FOLLOW.LOCK_THR)
  let n := if good then s.twn.lockCnt + 1 else 0
  s.onTwn fun x => { x with integ := integ, lockCnt := n, lock := if good then x.lock || decide (64 ≤ n) else false }

/-- The round trip of an exchange that began at `t3`, in VTS64 units: the two delays of the link. -/
def tripOf (t1 t2 t3 t4 : Nat) : Int := vtDiff t2 t1 + vtDiff t4 t3

/-- The launch t3 that a t4 answers (R349). DESIGN CHOICE (entry 44): of the launches whose round trip two delays of R346 allow,
the one whose round trip is nearest to that of the last exchange, and the oldest one in the first exchange. -/
def Twn.answered (x : Twn) (t1 t2 t4 : Nat) : Option Nat :=
  let ts := x.sent.filter (fun t3 => 0 ≤ tripOf t1 t2 t3 t4 && tripOf t1 t2 t3 t4 ≤ 51200)
  match x.trip with
  | none => ts.getLast?
  | some r =>
    let far (t3 : Nat) : Nat := (tripOf t1 t2 t3 t4 - r).natAbs
    ts.foldl (fun o t => match o with | none => some t | some u => if far t < far u then some t else some u) none

/-- The exchange that a heartbeat completes (R349): θ from t1 of the peer's previous heartbeat, t2 of its receipt here, t4
of the peer's receipt of a heartbeat of this device, and t3 of the launch of that one; with the round trip. -/
def State.thetaOf (s : State) (h : Heartbeat) : Option (Int × Int) :=
  match s.twn.rxAt with
  | none => none
  | some t2 =>
    if h.t1 = 0 ∨ h.t4 = 0 then none
    else
      (s.twn.answered h.t1 t2 h.t4).map fun t3 =>
        ((vtDiff t2 h.t1 - vtDiff h.t4 t3) / 2 - signedOf 16 (s.f TWN.ASYM.V), tripOf h.t1 t2 t3 h.t4)

/-- The STANDBY steers by a heartbeat received at `t2` (R349, R350, R364); the joiner's alignment step keeps the starts of the
entries that the copy has brought. -/
def State.steer (s : State) (h : Heartbeat) (t2 : Nat) : State :=
  match s.thetaOf h with
  | none => s
  | some (e, r) =>
    let s := s.onTwn fun x => { x with theta := e, trip := some r }
    if s.twn.st = .joining ∧ !s.twn.aligned then (s.alignStep e false).onTwn fun x => { x with aligned := true }
    else s.follow e (vtDiff t2 (s.twn.rxAt.getD t2))

/-- DIVERGE, and the STANDBY NOT_READY (R354, R355). -/
def State.diverge (s : State) : State := ((s.set1 TWN.IRQ_RAW.DIVERGE).fault 9).notReady

/-- READY where a join is complete (R364). -/
def State.joinDone (s : State) : State :=
  let x := s.twn
  if x.st = .joining ∧ x.copied ∧ x.lock ∧ 2 ≤ x.agree then
    ((s.onTwn fun x => { x with st := .ready }).set1 TWN.IRQ_RAW.READY).sendHello
  else s

/-- Mirrored consists whose verdict the verified heartbeat settles (R355): the PRIMARY has sent no CONS_END for them, so
it has committed them. -/
def State.settleCons (s : State) : State :=
  let past (m : MirCns) : Bool :=
    match m.dep, m.verdict with | some d, some _ => decide (d * s.dsp.period ≤ s.twn.cv) | _, _ => false
  let bad := s.twn.cons.any (fun m => past m && m.verdict = some false)
  let s := s.onTwn fun x => { x with cons := x.cons.filter (fun m => !past m) }
  if bad then s.diverge else s

/-- A heartbeat launched at cycle `c` is verified (R354): LIVE is compared, consists whose verdict it settles are settled. A
commanded switchover on its way takes the cycle until its trigger (R360). -/
def State.verified (s : State) (c live : Nat) : State :=
  let (_, q, _, _) := s.countBooks
  let same := decide (q = live)
  let now := s.cyc
  let s := s.onTwn fun x => { x with
    cv := c, differ := if same then 0 else x.differ + 1, agree := if same then x.agree + 1 else 0
    sw := x.sw.map fun w => if now < w.w then { w with cv := c } else w }
  let s := s.settleCons
  let s := if s.twn.differ = 2 then s.diverge else s
  s.joinDone

/-- The heartbeats that wait, each with launch cycle, RSEQ and LIVE: of these, those behind the last one whose RSEQ `n` meets. -/
def stillWaiting (n : Nat) (hs : List (Nat × Nat × Nat)) : List (Nat × Nat × Nat) :=
  (hs.reverse.takeWhile (fun h => n < h.2.1)).reverse

/-- Each heartbeat is verified once every record up to its RSEQ is applied (R354). -/
def State.verify (s : State) : State :=
  let n := s.twn.rxSeq
  let met := if s.twn.copied then s.twn.check.filter (fun h => h.2.1 ≤ n) else []
  if met = [] then s
  else met.foldl (fun s h => s.verified h.1 h.2.2) (s.onTwn fun x => { x with check := stillWaiting n x.check })

/-- A heartbeat joins those that wait; one launched before the copy of a join, whose RSEQ is 0, is not compared. -/
def State.awaitCheck (s : State) (h : Nat × Nat × Nat) : State :=
  if h.2.1 = 0 && !s.twn.copied then s else s.onTwn fun x => { x with check := x.check ++ [h] }

/-! ### Switchover (R359 to R363) -/

/-- A switchover begins at trigger cycle `w` (R359, R360); a STANDBY that is not READY sets PEER_LOST instead. A commanded one
records its trigger at `w`, which lies ahead; until then the loss or a fault of the peer goes before it. -/
def State.trigger (s : State) (trig w : Nat) : State :=
  if s.twn.st = .ready then
    let begun := match s.twn.sw with | none => false | some x => trig = 3 || x.trig ≠ 3 || decide (x.w ≤ s.cyc)
    if begun then s
    else
      let s := s.onTwn fun x => { x with sw := some { trig := trig, w := w, cv := x.cv } }
      if trig = 3 then s else s.setF TWN.LASTSW.TRIGGER trig
  else if s.twn.st.standby then s.peerLost
  else s

/-- The books with heartbeat `k` received at vehicle time `t2` (R351). DESIGN CHOICE (entry 44): the first one, and one that comes
after its deadline, answers the own launch of the `win` cycles before it, and otherwise the next own launch. -/
def Twn.received (x : Twn) (k t2 win : Nat) : Twn :=
  let answers := match x.txAt with | some t => decide (vtDiff t2 t ≤ (win * 64 : Nat)) | none => false
  let y : Twn := if x.rxAt.isNone || (k < x.expSeq && !x.expect.any (fun e => e.1 = k)) then
      { x with expect := [], early := if answers then [] else [k], expSeq := if answers then k + 1 else k }
    else { x with expect := x.expect.filter (fun e => e.1 ≠ k), early := if x.expSeq ≤ k then x.early ++ [k] else x.early }
  { y with rxNext := k + 1, missed := 0, rxAt := some t2 }

/-- A heartbeat received at raw unit `u` (R349 to R351, R354, R359); one that repeats a SEQ brings no stamp. -/
def State.rxHeartbeat (s : State) (h : Heartbeat) (u : Nat) : State :=
  if !s.linked || s.twn.st = .solo then s
  else
    let s := s.advanceU u
    let t2 := s.vtAt u
    let x := s.twn
    let again := h.seq < x.rxNext && x.rxAt.isSome
    let s := if x.st.standby && h.seq = x.rxNext && x.rxAt.isSome then s.steer h t2 else s
    let s := if again then s else s.onTwn fun x => x.received h.seq t2 (s.f TWN.HBWIN.V)
    let s := s.signal 6 0 h.seq t2
    let s := if h.faults &&& s.f TWN.FLTSEL.V = 0 then s
      else (s.set1 TWN.IRQ_RAW.PEER_FAULT).trigger 2 s.cyc
    if !s.twn.st.standby then s
    else if h.rseq = rseqNever then s.notReady
    else
      (s.awaitCheck (h.dep * s.dsp.period, h.rseq, h.live)).verify.joinDone

/-- The oldest deadline passes without a heartbeat (R351, R348, R359). -/
def State.missHb (s : State) : State :=
  match s.twn.expect with
  | [] => s
  | (_, d) :: ds =>
    let s := s.advance d
    let s := s.onTwn fun x => { x with expect := ds, missed := x.missed + 1 }
    let n := s.twn.missed
    let s := (s.signal 7 0 n (s.vtAt (d * 64))).bump TWN.CNT_EVT.LO
    let s := s.set1 TWN.IRQ_RAW.HB_MISS
    if n ≠ 3 then s
    else if s.twn.st = .primary then s.peerLost
    else s.trigger 1 s.cyc

/-- The ambiguous window of a switchover, as vehicle-time units (R360); empty for a commanded one. -/
def Switch.window (x : Switch) : Nat × Nat := if x.trig = 3 then (0, 0) else ((x.cv - 1) * 64, (x.w + 10) * 64)

/-- A live entry of the new PRIMARY treated at c′ (R361), where its start asks for it: an announced angle entry by its predicted
start. One on its wheel has no start yet, and a parked one waits for its chain. -/
def State.takeEntry (s : State) (w : Switch) (i : Nat) : State :=
  let x := s.slot i
  let t := if eAngle x.bits then x.start else startOf x.bits
  let early := decide (t < (w.cv - 1) * 64)
  if x.place = .parked || (eAngle x.bits && x.place ≠ .lane) then s
  else if early || (w.window.1 ≤ t && t < w.window.2) then
    let s := if early then (s.set1 TWN.IRQ_RAW.DIVERGE).fault 9 else s
    let s := s.bump TWN.COUNT.AMBIG
    if s.on TWN.CTL.AMBIG then s.hang i .catchup t (s.depOf t) else s.retire i outAborted
  else if eAngle x.bits then s
  else s.placeTime i t

/-- A mirrored consist that was acknowledged takes its CNS slot on the new PRIMARY, and stays under the rule of R355 there
(R362). -/
def State.takeConsist (s : State) (m : MirCns) : State :=
  let free := if (s.consist m.slot).st = .free then some m.slot
    else (List.range 4).find? (fun k => (s.consist k).st = .free)
  match free with
  | none => s
  | some k =>
    if m.complete && m.acked.isSome && m.verdict.isNone then
      let places : List Staged := m.vals.map (fun p => { addr := p.1, val := p.2, role := .none })
      let x : Consist := { st := .closed, owner := m.owner, whn := m.whn, dep := m.dep, entry := m.entry, order := s.consOrd,
                           last := (s.consist k).last, places := places }
      ({ s with consOrd := s.consOrd + 1 }.setConsist k x).onTwn fun t => { t with cons := t.cons ++ [{ m with slot := k }] }
    else s

/-- PRIMARY_ONLY lines driven at w + 10 (R360). -/
def State.switchDrive (s : State) : State :=
  match s.twn.sw with
  | none => s
  | some w =>
    if w.driven then s
    else
      ((s.advanceVt ((w.w + 10) * 64)).setF TWN.LASTSW.TRIGGER w.trig).onTwn fun x =>
        { x with sw := some { w with driven := true }, killOut := true }

/-- The takeover at c′ (R360 to R362, R366). -/
def State.takeover (s : State) : State :=
  match s.twn.sw with
  | none => s
  | some w =>
    let d := (w.w + 200 + s.dsp.period - 1) / s.dsp.period
    let s := s.advanceVt (s.boundary d)
    let peer := s.f TWN.PEERSER_LO.V + s.f TWN.PEERSER_HI.V * 2 ^ 32
    let cons := s.twn.cons
    let s := s.onTwn fun x => { x with
      st := .primary, sw := none, killOut := true, peerSt := .solo, queue := [], unacked := [], toRing := [], cons := [], expect := [], early := []
      missed := 0, check := [], owesCopy := false }
    let s := s.set1 DSP.CTL.RUN
    let qual := s.on TBU.STS.REF_QUAL && s.srvOn
    let f := s.freqNow
    let s : State := if qual then
        let t := s.setSrv srvAcquire
        { t with tbu := { t.tbu with integ := f.neg, lockCnt := 0, overCnt := 0 } }
      else if s.srvOn then
        let t := s.setSrv srvHoldover
        let t := { t with tbu := { t.tbu with avg := [f] } }
        t.copyFreqHold
      else s.setSrv srvFree
    let s := s.toMode s.runMode
    let s := (s.set1 TWN.IRQ_RAW.TAKEOVER).bump TWN.COUNT.SWITCHES
    let s := (s.setF TWN.LASTSW.TRIGGER w.trig).setF TWN.LASTSW.DEP s.dep
    let s := s.log 9 .none 0x21 w.trig s.dep peer s.sec.otp.serial
    let s := s.signal 7 0 0 s.vt
    let s := (s.queuedSlots (fun _ => true)).foldl (fun s i => s.takeEntry w i) s
    let s := s.catchUp
    let s := { s with dsp := { s.dsp with lastMove := s.raw + 15 } }
    cons.foldl (fun s m => s.takeConsist m) s

/-- An ACTIVE entry withdrawn under R108 and mirrored as a retirement (R360). -/
def State.yieldEntry (s : State) (i : Nat) : State :=
  ((s.withdraw i outCancelled).freeSlot i outCancelled).mirror (.ret i outCancelled)

/-- The old PRIMARY's part of a commanded switchover (R360), in cycle w − 1 where boundary `d` begins at w: ACTIVE entries are
withdrawn and mirrored, the dispatcher stops. -/
def State.yieldNow (s : State) (d : Nat) : State :=
  match s.twn.yieldAt with
  | none => s
  | some w =>
    if d * s.dsp.period < w || s.twn.st ≠ .primary || !s.mode.running then s
    else
      let s := s.advanceVt (s.boundary d - 64)
      let act := (s.slots.filter (fun e => e.2.st = .active && e.2.acted = none)).map (fun e => e.1)
      (act.foldl State.yieldEntry s).clr DSP.CTL.RUN

/-! ### Mirror records on the STANDBY (R352, R355) -/

/-- A slot taken out of the free list, wherever it stands there. -/
def State.claimSlot (s : State) (i : Nat) : State :=
  let x := s.dsp
  if x.front.contains i then { s with dsp := { x with front := x.front.erase i } }
  else if x.freed.contains i then { s with dsp := { x with freed := x.freed.erase i } }
  else if x.fresh ≤ i then
    { s with dsp := { x with front := x.front ++ (List.range (i - x.fresh)).map (· + x.fresh), fresh := i + 1 } }
  else s

/-- An entry put into the slot that its record names. -/
def State.putEntryAt (s : State) (i bits : Nat) (park retiring : Bool) : State :=
  let s := s.claimSlot i
  let s := s.writeSlot i { bits := bits, st := if retiring then .retiring else .queued }
  if retiring then s else s.seat i park

/-- A mirrored cancellation (R108). -/
def State.applyCan (s : State) (i : Nat) (chain : Bool) : State :=
  let s := s.freeAll (if chain then s.chainOf i else []) outCancelled
  if (s.slot i).st = .queued then s.freeSlot i outCancelled else s

/-- A commanded switchover is on its way: its withdrawals leave the STANDBY's copies QUEUED (R360). -/
def State.commanded (s : State) : Bool := match s.twn.sw with | some w => w.trig = 3 | none => false

/-- A mirrored retirement with its outcome (R101, R107). -/
def State.applyRet (s : State) (i out : Nat) : State :=
  if out = outCancelled && s.commanded then s
  else if (s.slot i).st = .queued then s.retire i out else s

/-- The consist books with a CONS record: the first of a consist makes its entry, the others add to it. -/
def addCons (k owner whn bound seq : Nat) (last : Bool) (vals : List (Nat × Word)) (cs : List MirCns) : List MirCns :=
  if cs.any (fun m => m.slot = k && !m.complete) then
    cs.map (fun m => if m.slot = k && !m.complete then { m with vals := m.vals ++ vals, complete := last, seq := seq } else m)
  else
    cs ++ [{ slot := k, owner := owner, whn := whn, dep := if whn = whEntry then none else some bound,
             entry := if whn = whEntry then bound else 0, vals := vals, complete := last, seq := seq }]

/-- A CONS_END record (R355): an own verdict to commit differs from it. That the entry of a consist is lost in the withdrawals of
a commanded switchover leaves the STANDBY's copy (R360). -/
def State.applyConsEnd (s : State) (k out : Nat) : State :=
  if out = coEntryLost && s.commanded then s
  else
  let bad := s.twn.cons.any (fun m => m.slot = k && m.verdict = some true)
  let s := s.onTwn fun x => { x with cons := x.cons.filter (fun m => m.slot ≠ k) }
  if bad then s.diverge else s

/-- One mirror record applied, its SEQ `n`. -/
def State.applyRec (s : State) (n : Nat) (r : Mirror) : State :=
  match r with
  | .ins i park _ bits => s.putEntryAt i bits park false
  | .can i chain _ => s.applyCan i chain
  | .ret i out => s.applyRet i out
  | .cons k owner whn b last vals => s.onTwn fun x => { x with cons := addCons k owner whn b n last vals x.cons }
  | .consAt k d => s.onTwn fun x => { x with cons := consAt k d n x.cons }
  | .consEnd k out => s.applyConsEnd k out
  | .map vt tai => { s with tbu := { s.tbu with mapVt := vt, mapTai := tai } }.nextSec
  | .bulk rs last =>
    let s := rs.foldl (fun s r => s.putEntryAt r.slot r.bits r.park (r.state = 3)) s
    s.onTwn fun x => { x with copied := x.copied || last }

/-- Records whose acknowledgement is launched now (R355). -/
def ackCons (seq cyc : Nat) (cs : List MirCns) : List MirCns :=
  cs.map (fun m => if m.acked = none && m.seq ≤ seq && (m.complete || m.vals = []) then { m with acked := some cyc } else m)

/-- A mirror frame received (R345): its records in order from `seq`; those already received are dropped, a gap discards
the frame; the highest SEQ in order is acknowledged. -/
def State.rxMirror (s : State) (seq : Nat) (rs : List Mirror) : State :=
  if !s.linked || !s.twn.st.standby then s
  else
    let next := s.twn.rxSeq + 1
    let s := if next < seq then s
      else
        let new := (rs.zipIdx seq).filter (fun p => next ≤ p.2)
        new.foldl (fun s p => ((s.applyRec p.2 p.1).onTwn fun x => { x with rxSeq := p.2 }).verify) s
    let s := s.send (.ack s.twn.rxSeq s.vt)
    let c := s.cyc
    (s.onTwn fun x => { x with cons := ackCons x.rxSeq c x.cons }).verify

/-! ### Mirror records on the PRIMARY (R345, R352, R355, R364) -/

/-- The join copy queued ahead of the mirror records (R364): every non-FREE slot, twelve to a frame. -/
def chunks (n : Nat) : Nat → List BulkRec → List (List BulkRec)
  | 0, _ => []
  | k + 1, rs => if rs.length ≤ n then [rs] else rs.take n :: chunks n k (rs.drop n)

/-- A slot as the copy carries it. -/
def bulkOf (e : Nat × Slot) : BulkRec :=
  { slot := e.1, state := match e.2.st with | .free => 0 | .queued => 1 | .active => 2 | .retiring => 3
    park := e.2.place = .parked, bits := e.2.bits }

/-- The copy made at the first boundary after the peer's JOINING. -/
def State.copyOut (s : State) : State :=
  if s.twn.owesCopy && s.twn.st = .primary && s.linked then
    let fs := chunks 12 1366 ((s.slots.filter (fun e => e.2.st ≠ .free && e.2.place ≠ .reserved)).map bulkOf)
    let s := s.onTwn fun x => { x with owesCopy := false }
    let s := fs.zipIdx.foldl (fun s p => s.mirror (.bulk p.1 (p.2 + 1 = fs.length))) s
    s.mirror (.map s.tbu.mapVt s.tbu.mapTai)
  else s

/-- Free bytes of the non-reserved part of the mirror queue, 64 KiB in all (R346). -/
def Twn.room (x : Twn) : Nat := 65536 - ((x.queue ++ x.unacked).map (fun p => p.2.bytes)).sum

/-- A launch at the insertion port is held back by the mirror queue (R352). -/
def State.mqFull (s : State) : Bool := s.mirrors && s.twn.room < 1024

/-- Records of one frame at the head of the queue (R346): up to 10 insertions, up to 64 retirements, one of the others. -/
def batch : List (Nat × Mirror) → Nat
  | [] => 0
  | (_, .ins _ _ _ _) :: rs =>
    1 + ((rs.takeWhile (fun p => match p.2 with | .ins _ _ _ _ => true | _ => false)).take 9).length
  | (_, .ret _ _) :: rs => 1 + ((rs.takeWhile (fun p => match p.2 with | .ret _ _ => true | _ => false)).take 63).length
  | _ :: _ => 1

/-- A frame of queued records is sent, or the first unacknowledged ones again where nothing is queued (R345). -/
def State.mirrorSend (s : State) : State :=
  if !s.linked || s.twn.st ≠ .primary then s
  else
    let x := s.twn
    let again := x.queue = []
    let q := if again then x.unacked else x.queue
    match q with
    | [] => s
    | (n, _) :: _ =>
      let b := batch q
      let rs := q.take b
      let s := s.send (.mirror n (rs.map (fun p => p.2)))
      if again then s
      else s.onTwn fun x => { x with
        queue := x.queue.drop b, unacked := x.unacked ++ rs, mirSeq := max x.mirSeq (n + rs.length - 1) }

/-- The books after an ACK (R345): one that acknowledges nothing new sends the sender back to the first record that was not
acknowledged. -/
def Twn.acked (x : Twn) (seq : Nat) : Twn :=
  if seq = x.mirAck then { x with queue := x.unacked ++ x.queue, unacked := [] }
  else
    { x with
      mirAck := max x.mirAck seq, unacked := x.unacked.filter (fun p => seq < p.1), queue := x.queue.filter (fun p => seq < p.1) }

/-- An ACK received (R345, R355); one of a record not yet sent is of an earlier join. -/
def State.rxAck (s : State) (seq launch : Nat) : State :=
  if !s.linked || s.twn.st ≠ .primary || s.twn.mirSeq < seq then s
  else s.onTwn fun x => { x.acked seq with cons := ackCons seq (launch / 64) x.cons }

/-- A CLOSED consist mirrored at its COMMIT (R352, R355): frames of up to 31 pairs. -/
def consFrames (n : Nat) : Nat → List (Nat × Word) → List (List (Nat × Word))
  | 0, _ => []
  | k + 1, vs => if vs.length ≤ n then [vs] else vs.take n :: consFrames n k (vs.drop n)

def State.mirrorConsist (s : State) (k : Nat) : State :=
  if !s.mirrors then s
  else
    let x := s.consist k
    let b := if x.whn = whEntry then x.entry else x.dep.getD 0
    let fs := consFrames 31 17 (x.places.map (fun p => (p.addr, p.val)))
    let s := fs.zipIdx.foldl (fun s p => s.mirror (.cons k x.owner x.whn b (p.2 + 1 = fs.length) p.1)) s
    let m : MirCns := { slot := k, owner := x.owner, whn := x.whn, dep := x.dep, entry := x.entry, complete := true, seq := s.twn.enq }
    s.onTwn fun t => { t with cons := t.cons.filter (fun c => c.slot ≠ k) ++ [m] }

/-- The PRIMARY's rule for a mirrored consist at the boundary of cycle `c` (R355): acknowledged by an ACK launched not
later than c − 401; a consist that is not mirrored passes. -/
def Twn.inTime (x : Twn) (k c : Nat) : Bool :=
  match x.cons.find? (fun m => m.slot = k) with
  | none => true
  | some m => match m.acked with | some a => decide (a + 401 ≤ c) | none => false

/-- A step of vehicle time by `d` units (R356): the launches of the pair move with the scale; on the PRIMARY the final
heartbeat makes the STANDBY NOT_READY. DESIGN CHOICE (entry 44): the next heartbeat received counts as the first. -/
def State.stepTwin (s : State) (d : Int) : State :=
  let mv (t : Nat) : Nat := bitsOfInt 64 ((t : Int) + d)
  let s := if s.linked && s.twn.st = .primary && (s.twn.peerSt = .joining || s.twn.peerSt = .ready) then s.finalHb else s
  s.onTwn fun x => { x with txAt := x.txAt.map mv, sent := x.sent.map mv, rxAt := none, expect := [], early := [] }

/-- The effect of an abort of TWN (R365). -/
def State.twnAbort (s : State) : State :=
  let s := s.releaseAll Requester.twn.id
  if s.twn.st = .primary then
    let s := s.onTwn fun x => { x with queue := [], unacked := [], toRing := [] }
    if s.linked then s.finalHb else s
  else s.notReady

/-- IZ_KILL_OUT_N is driven (R358, R360): from w + 1 of a takeover until the peer joins. -/
def State.killing (s : State) : Bool :=
  s.twn.killOut || (match s.twn.sw with | some t => decide (t.w + 1 ≤ s.cyc) | none => false)

/-- The TWN words that follow state. -/
def State.liveTwn (s : State) (r : Requester) (o : Nat) (w : Word) : Word :=
  let x := s.twn
  let bit (n : Nat) (b : Bool) : Nat := if b then 2 ^ n else 0
  if o = 0x0C then
    word (x.pairErr * 2 ^ 12 + bit 8 s.killing + bit 7 x.killIn + bit 6 x.lock + bit 5 x.linkUp + x.st.code)
  else if o = 0x50 then word (bitsOfInt 32 x.theta)
  else if o = 0x5C then word (putBits w.toNat 16 16 (x.room / 1024))
  else if o = 0x60 then word x.mirSeq
  else if o = 0x64 then word x.mirAck
  else if o = 0x84 then
    match x.sw with
    | some t => if t.w ≤ s.cyc then word (putBits w.toNat 28 4 t.trig) else w
    | none => w
  else if o = 0x68 then
    let n := SMap.get (fun _ => 0) x.mine r.id
    word (bit 31 (n ≠ 0 && decide (n ≤ x.mirAck)) + n % 2 ^ 24)
  else w

end Sys2Proof.Machine
end

