-- ==== Sys2Proof/Machine/PwrOps.lean ====
section
/-! DEFINITION. Aborts of the blocks (R315 to R317), Safe-state (R375), resets (R380), low-power modes (R376), and the
reactions to coded faults (R384 to R387). -/

namespace Sys2Proof.Machine

/-! ### Aborts -/

/-- The effect of an abort of JNC (R316): every claim held through JNC.RELEASE kinds is released; sources, trims and the
conflict capture stay. -/
def State.jncAbort (s : State) : State :=
  s.regs.foldl (fun s e =>
    if holderReg e.1 then
      let s := s.setHolder e.1 0 0
      if 0x140000 ≤ e.1 ∧ e.1 < 0x160000 then s.setReg e.1 (word (putBits (s.reg e.1).toNat RUL.OWN.TTACC.lo 1 0)) else s
    else s) s

/-- The effect of an abort of TBU (R58): a step not yet at its cycle, or waiting, is cancelled, the PPSOUT claim is released. -/
def State.tbuAbort (s : State) : State :=
  let s : State := if s.tbu.step.isSome then { s.clr TBU.STS.STEP_BUSY with tbu := { s.tbu with step := none } } else s
  let s : State := { s with tbu := { s.tbu with align := none } }
  if s.tbu.ppsClaim then
    let s := { s with tbu := { s.tbu with ppsClaim := false, ppsSec := none } }
    s.releaseAll 0x20
  else s

/-- The effect of an abort of PWR (R316): a requested mode change not yet made is cancelled. -/
def State.pwrAbort (s : State) : State := { s with pwr := { s.pwr with cmd := none } }

/-- The effect of the abort of one block, by page code and instance (R316). -/
def State.blockEffect (s : State) (code n : Nat) : State :=
  if code = 0x02 then s.pwrAbort
  else if code = 0x03 then s.secAbort
  else if code = 0x04 then s.hstAbort
  else if code = 0x05 then s.tbuAbort
  else if code = 0x06 then s.twnAbort
  else if code = 0x07 then s.cnsAbort
  else if code = 0x08 then s.dspAbort
  else if code = 0x10 then s.trkAbort n
  else if code = 0x11 then s.jncAbort
  else if code = 0x12 then s.ttStop n outAborted
  else if code = 0x13 then s.rulAbort n
  else if code = 0x14 then s.adcAbort
  else if code = 0x15 then s.shnAbort n
  else if code = 0x16 then s.menAbort n
  else if code = 0x17 then s.memAbort
  else s

/-- The effect of an abort of the page at `b`. -/
def State.abortEffect (s : State) (b : Nat) : State :=
  match pageOf b with
  | none => s
  | some (p, base) => s.blockEffect p.code ((base - p.base) / p.stride)

/-- The pages of one kind. -/
def Page.bases (p : Page) : List Nat := (List.range p.cnt).map (fun n => p.base + n * p.stride)

/-- The pages that GLB.ABORT reaches (R317): every block but PWR and SEC. -/
def glbPages : List Nat :=
  (pages.filter (fun p => p.code ≠ 0x01 && p.code ≠ 0x02 && p.code ≠ 0x03)).flatMap Page.bases

/-- Pages whose abort is in progress; a page whose ABORT_STS is at its reset value has none. -/
def State.abortingPages (s : State) : List Nat :=
  s.regs.filterMap (fun e =>
    match pageOf e.1 with
    | none => none
    | some (_, b) => if e.1 - b = 0x24 && s.aborting b then some b else none)

/-- GLB.ABORT delivered to every block in one cycle (R317); consists end with the write (R318). -/
def State.abortAll (s : State) : State := ((GLB.page.base :: glbPages).foldl (fun s b => s.abortBegin b) s).cnsAbort

/-- An abort begun: a page's own, or GLB's to every block; absorbed into one in progress (R315). -/
def State.abortGo (s : State) (b : Nat) : State :=
  if s.aborting b then s
  else if b = GLB.page.base then s.abortAll
  else if b = CNS.page.base then (s.abortBegin b).cnsAbort
  else s.abortBegin b

/-- Every shunter halted (R334). -/
def State.shnHaltAll (s : State) : State :=
  s.shn.foldl (fun s e => if e.2.st = .halted then s else s.shHalt e.1 0) s

/-! ### Resets and low-power modes (R376, R380) -/

/-- The keepsake registers of TBU, TTN and PWR. -/
def keepsake (a : Nat) : Bool :=
  (0x10E0 ≤ a && a ≤ 0x10F0) || (0x1100 ≤ a && a < 0x1120) || (0x40E0 ≤ a && a ≤ 0x40F8)
    || (0x130000 ≤ a && a < 0x138000 && 0xF0 ≤ a % 0x1000 && a % 0x1000 ≤ 0xF8)

/-- What the core loses with its supplies or a reset: everything but keepsakes, OTP, the flash, what drives the balls from
outside, and the device's record of what it has sent. -/
def State.coreLost (s : State) (m : Mode) : State :=
  let ext : SMap Line := (s.lines.map (fun e => (e.1, ({ ext := e.2.ext } : Line)))).filter (fun e => e.2 ≠ {})
  { raw := s.raw, vtOff := s.vtOff, mode := m, regs := s.regs.filter (fun e => keepsake e.1)
    lines := ext, banks := s.banks
    hst := { outbox := s.hst.outbox, msgs := s.hst.msgs, replies := s.hst.replies }
    sec := { otp := s.sec.otp, flash := s.sec.flash }
    pwr := { coreOk := s.pwr.coreOk, xtalOk := s.pwr.xtalOk, pmicEn := s.pwr.pmicEn, pinLow := s.pwr.pinLow }
    twn := { killIn := s.twn.killIn, out := s.twn.out }
    free := s.free, pending := s.pending }

/-- Entry to Boot by cause `cause` (R380); `hold` a reset source that still holds the device. Vehicle time starts at 0
unless the device comes from Keep-time; the exit from Off or Hibernate clears VT_VALID (R49, R50). -/
def State.toBoot (s : State) (cause : Nat) (hold : Option Nat) : State :=
  let left := s.mode.code
  let s := s.coreLost .boot
  let s := (s.setF PWR.KS_CAUSE.LASTMODE left).setF PWR.KS_CAUSE.CAUSE cause
  let s := { s with pwr := { s.pwr with held := hold, pmicEn := true } }
  let s := if left < 2 then s.setF TBU.KS_FLAGS.V (s.f TBU.KS_FLAGS.V &&& 6) else s
  if left = 2 then s else s.setVt 0

/-- A warm restart for fault `code` (R385). -/
def State.warmRestart (s : State) (code : Nat) : State :=
  ((s.setF PWR.KS_FAULT.LAST code).bump PWR.KS_FAULT.COUNT).toBoot 4 none

/-- The core isolated and PMIC_EN low, unless a wake has raised it (R376, R377). -/
def State.toLow (s : State) (m : Mode) : State :=
  let w := s.pwr.waking
  let s := s.coreLost m
  { s with pwr := { s.pwr with pmicEn := w.isSome, waking := w } }

/-! ### Safe-state (R375) -/

/-- The blocks that entry to Safe-state aborts. -/
def safePages : List Nat :=
  (pages.filter (fun p => p.code = 0x10 || p.code = 0x08 || p.code = 0x13 || p.code = 0x14 || p.code = 0x15 || p.code = 0x16)).flatMap
    Page.bases

/-- Entry to Safe-state with a cause, and the code of the fault that asked for it (R375). Safe-state itself keeps its cause
(R386). DEDUCED (entry 30): from Debug-halt, PREV keeps the mode held before the halt, and FAULT the held fault's code. -/
def State.enterSafe (s : State) (cause fault : Nat) : State :=
  if s.mode = .safe then s
  else
    let prev := if s.mode = .halt then s.pwr.prev else s.mode.code
    let s := s.preempt.toMode .safe
    let s := { s with pwr := { s.pwr with prev := prev } }
    let s := (s.setF PWR.SAFECAUSE.CAUSE cause).setF PWR.SAFECAUSE.FAULT fault
    let s := ((s.set1 PWR.IRQ_RAW.SAFE).bump PWR.CNT_EVT.LO).onTwn fun x => { x with safeFlag := true }
    safePages.foldl (fun s b => (s.abortBegin b).abortEffect b) s

/-! ### Fault reactions (R384 to R387) -/

/-- The reaction of a fault: 0 flag, 1 Safe-state, 2 warm restart (table of coded faults). -/
def State.reaction (s : State) (code : Nat) : Nat :=
  if code = 0x01 then 2
  else if code = 0x02 then s.f PWR.FLTACT.UNCORR
  else if code = 0x03 then s.f PWR.FLTACT.ENG
  else if code = 0x04 then s.f PWR.FLTACT.BANK
  else if code = 0x05 then s.f PWR.FLTACT.OSCHK
  else if code = 0x06 then s.f PWR.FLTACT.HOLD
  else if code = 0x0A then s.f PWR.FLTACT.PEER
  else 0

/-- The lowest of some codes. -/
def lowest : List Nat → Option Nat
  | [] => none
  | c :: cs => match lowest cs with | none => some c | some d => some (min c d)

/-- The most severe reaction among faults detected together, with its lowest code (R386). -/
def State.worst (s : State) (cs : List Nat) : Option (Nat × Nat) :=
  match lowest (cs.filter (fun c => s.reaction c = 2)) with
  | some c => some (2, c)
  | none => (lowest (cs.filter (fun c => s.reaction c = 1))).map (fun c => (1, c))

/-- A reaction held (R371, R387): the more severe stays, of equals the lower code. -/
def holdFault (old : Option (Nat × Nat)) (new : Nat × Nat) : Option (Nat × Nat) :=
  match old with
  | none => some new
  | some o => if o.1 < new.1 ∨ (o.1 = new.1 ∧ new.2 < o.2) then some new else some o

/-- A reaction acts. -/
def State.act (s : State) (p : Nat × Nat) (cause : Nat) : State :=
  if p.1 = 2 then s.warmRestart p.2 else s.enterSafe cause p.2

/-- The faults detected since the last command take their reaction (R384 to R387). -/
def State.react (s : State) : State :=
  match s.pwr.faults with
  | [] => s
  | cs =>
    let w := s.worst cs
    let s := { s with pwr := { s.pwr with faults := [] } }
    match w with
    | none => s
    | some p =>
      if !s.mode.powered ∨ s.mode = .boot ∨ s.mode = .provision then s
      else if s.mode = .halt then { s with pwr := { s.pwr with haltFault := holdFault s.pwr.haltFault p } }
      else if s.mode = .standby ∧ p.1 = 1 then
        { s with pwr := { s.pwr with heldFault := holdFault s.pwr.heldFault p } }
      else s.act p 4

/-- A reaction held in Twin-standby acts in the first cycle of Run or Holdover (R387). DEDUCED (entry 30): where the
standby is left without a takeover, that first cycle is the one of the next entry. -/
def State.actHeld (s : State) : State :=
  match s.pwr.heldFault with
  | none => s
  | some p => if s.mode.running then { s with pwr := { s.pwr with heldFault := none } }.act p 4 else s

/-! ### Debug-halt left, and the kill input (R371, R387, R358) -/

/-- Debug-halt left: the reaction held in it acts, otherwise the device goes on with `k`. -/
def State.leaveBy (s : State) (k : State → State) : State :=
  match s.pwr.haltFault with
  | some p => { s with pwr := { s.pwr with haltFault := none } }.act p 5
  | none => k s

/-- A deposed PRIMARY in Twin-standby; from Debug-halt a reaction held there goes before the mode. -/
def State.depose (s : State) : State :=
  let go (s : State) : State := (s.preempt.toMode .standby).enterFollow
  let s := if s.mode = .halt then s.leaveBy go else go s
  if s.mode = .boot then s
  else
  let s := (s.dropMirror.onTwn fun x => { x with
    st := .notReady, yieldAt := none, released := false, peerSt := .primary, copied := false, check := [] }).set1 TWN.IRQ_RAW.DEPOSED
  s.sendHello

/-- IZ_KILL_IN_N goes low (R358, R348). DEDUCED (entry 31): a PWR.CMD in progress on a deposed PRIMARY ends PREEMPTED. -/
def State.kill (s : State) : State :=
  let s := (s.onTwn fun x => { x with killIn := true }).clr DSP.CTL.RUN
  if s.twn.st = .primary then s.depose else s

/-! ### Completions -/

/-- A PWR.CMD's transition made (R369, R370): its mode, and DONE. Keep-time isolates the core once its keepsake registers are
written, at the first crystal edge (R376). -/
def State.finishCmd (s : State) (op : Nat) : State :=
  let s := { s with pwr := { s.pwr with cmd := none } }
  let s := s.setF PWR.CMDSTS.RESULT 1
  if op = 1 then
    let t := s.toMode .configure
    if s.mode.running then { t with pwr := { t.pwr with taken := some (s.raw, s.mode) } } else t
  else if op = 2 then s.toMode s.runMode
  else if op = 4 then s.toLow .hibernate
  else if op = 5 then s.toMode .keeptime
  else s.toMode .factory

/-- An abort of one page completes (R315). -/
def State.abortDone (s : State) (b : Nat) : State := if s.aborting b then (s.abortEffect b).abortEnd b else s

/-- An abort completes (R315, R317): GLB's with the last of its blocks, and the mode change that waits for it. -/
def State.abortComplete (s : State) (b : Nat) : State :=
  if !s.aborting b then s
  else if b ≠ GLB.page.base then s.abortDone b
  else
    let s := glbPages.foldl (fun s b => s.abortDone b) s
    let s := (s.abortEnd b).set1 GLB.IRQ_RAW.ABORT_DONE
    -- a load in Configure waits for the abort, and then holds the engines and halts the shunters (R334)
    let s := if (s.sec.load.map LoadJob.replace) = some true then s.engHoldAll.shnHaltAll else s
    -- the mode changes in the cycle after (R370)
    match s.pwr.cmd with
    | none => s
    | some op => (s.advance (s.raw + 1)).finishCmd op

end Sys2Proof.Machine
end

