-- ==== Sys2Proof/Machine/Settle.lean ====
section
/-! DEFINITION. What follows every command in the same cycle: fault reactions, the automatic move between Run and
Holdover, the filling of open slots, interrupt messages. -/

namespace Sys2Proof.Machine

/-- The consequences of a command: faults detected take their reaction (R384), the mode follows the servo (R40), the copy
register and the record writers write what they hold (R275, R266), open slots take what their sources hold (R292), vectors
that have become asserted send their messages (R300), keepers hold the levels at their pads (R85). -/
def settle (s : State) : State := s.react.autoMode.actHeld.copyTick.writeAll.fillAll.notify.keepAll

/-- A command's outcome: its effect, settled. -/
def done (s : State) : Out := .next (settle s)

/-- A cycle in which no command comes: the raw counter counts where CLK400 runs (R28, entry 2). -/
def State.idle (s : State) : State := if s.mode.powered then s.advance (s.raw + 1) else s

/-- A requester reaches the register pages: from Provision on, JTAG also in Boot (R324, R368); nobody while a reset is
held, and not PCIe where the straps hold it in reset (R286). -/
def State.reachable (s : State) (r : Requester) : Bool :=
  s.mode.powered && s.pwr.held = none && (s.mode ≠ .boot || r = .jtag) && !(r = .pcie && s.on HST.LINK.LINKSEL)

/-- A register access: its effect where the requester reaches the page, after the accesses that the requester has waiting
(R284); none otherwise. -/
def access (s : State) (r : Requester) (k : State → State) : Out := done (if s.reachable r then k (s.afterOwn r) else s)

end Sys2Proof.Machine
end

