-- ==== Sys2Proof/Machine/GateOps.lean ====
section
/-! DEFINITION. What every register write meets before its own rules: an abort of the page (R315), the owner rule (R79,
R212, R232), the mark of a write that an open consist does not stage (R307). -/

namespace Sys2Proof.Machine

/-- The owner register that guards a register, and the page's OWNER_REJ flag (R79, R212, R232). -/
def guardOf (p : Page) (b a : Nat) : Option (Nat × Fld × Nat) :=
  let o := a - b
  if p.code = 0x10 then some (b + 0x48, TRK.IRQ_RAW.OWNER_REJ, b - p.base)
  else if p.code = 0x13 then some (b + 0x84, RUL.IRQ_RAW.OWNER_REJ, b - p.base)
  else if p.code = 0x14 ∧ 0x400 ≤ o ∧ o < 0x600 ∧ o % 16 ≠ 4 then
    some (b + o / 16 * 16 + 0xC, ADC.IRQ_RAW.OWNER_REJ, 0)
  else none

/-- A write by `r` to the address `a` turned away by the owner rule (R79): OWNER_REJ, and reason OWNER. -/
def State.ownerCaught (s : State) (r : Requester) (a : Nat) : State :=
  match pageOf a with
  | none => s
  | some (p, b) =>
    match guardOf p b a with
    | none => s
    | some (_, g, i) => (s.set1 g i).capture b (a - b) r .owner

/-- A write by `r` to the address `a` is turned away by the owner rule: the address of the OWN register is left to the rules
of claims. The state is the one after the refusal. -/
def State.ownerRefusal (s : State) (r : Requester) (a : Nat) : Option State :=
  match pageOf a with
  | none => none
  | some (p, b) =>
    match guardOf p b a with
    | none => none
    | some (own, _, _) => if own ≠ a && s.foreign r own then some (s.ownerCaught r a) else none

/-- A write by the owner of an OPEN consist to a register that is not consistable (R307). -/
def State.bypass (s : State) (r : Requester) : State :=
  match s.consistOf r.id with
  | none => s
  | some k =>
    let x := s.consist k
    if x.st = .opened then (s.setConsist k { x with byp := true }).set1 CNS.IRQ_RAW.BYPASS else s

/-- A write to a register that is not consistable reaches its own rules `k`. -/
def State.direct (s : State) (r : Requester) (a : Nat) (k : State → State) : State :=
  match pageOf a with
  | none => s
  | some (_, b) =>
    if s.abortBlocks b (a - b) then s.capture b (a - b) r .busy
    else
      match s.ownerRefusal r a with
      | some t => t
      | none => k (s.bypass r)

/-- A write from a page register's command, for a requester that reaches the pages. -/
def write (s : State) (r : Requester) (a : Nat) (k : State → State) : Out := access s r (fun s => s.direct r a k)

/-- A read from a page register's command: the word that `k` returns is answered. -/
def readAt (s : State) (r : Requester) (a : Nat) (k : State → State × Word) : Out :=
  access s r fun s => (k s).1.answer r a (k s).2

end Sys2Proof.Machine
end

