-- ==== Sys2Proof/Machine/Tracks.lean ====
section
/-! DEFINITION. The commands of tracks (file 03): modes, compares, trains, capture, measurement, records, followers, claims. -/

namespace Sys2Proof.Machine

abbrev trkReg (g : Fld) (t : TrackId) : Nat := g.off + trkAt t.val

/-! ### Modes (R59, R60) -/

/-- Mode codes, and EDGE codes of a mode, that TRK.MODE discards with RANGE (R59). -/
def edgeBad (v : Nat) : Bool :=
  let m := bitsAt v 0 4
  let e := bitsAt v 4 2
  mdLinked < m || e = 0 || (e = 3 && (m = mdPeriod || m = mdWidth))

/-- A write of TRK.MODE; at a consist's swap the track is flushed first. -/
def State.trkMode (s : State) (r : Requester) (t : Nat) (v : Word) (swap : Bool) : State :=
  let a := TRK.MODE.CODE.off + trkAt t
  let x := s.track t
  if rangeBad (fieldsAt a) v.toNat || edgeBad v.toNat then s.discard a r .range
  else if swap then ((s.flushTrack t).storeReg r a v).modeBegins t
  else if x.busy (s.tmode t) || x.ending s.raw || !x.marks.isEmpty then s.discard a r .busy
  else (s.storeReg r a v).modeBegins t

/-! ### Output edges (R61 to R67) -/

/-- An OUT_EDGE action at raw unit `u`, or the two of one instant: one edge at most, with the net level. -/
def State.fireEdge (s : State) (t u : Nat) (cs : List Cmp) (missed clamp : Bool) : State :=
  let lvl := (s.track t).lvl
  let net := cs.foldl (fun l c => edgeLevel c.act l) lvl
  let s : State := if net ≠ lvl then s.placeEdge t u net missed clamp ((cs.map Cmp.since).foldl max 0)
    else
      let s := s.advance (u / 64)
      if missed then s.tirq t TRK.IRQ_RAW.MISSED else s
  s.dropLoads (cs.map Cmp.src) outActed

/-- A train starts: its first leading edge at raw unit `u` (R63, R64). -/
def State.startTrain (s : State) (t u : Nat) (c : Cmp) (missed clamp : Bool) : State :=
  let per := s.f TRK.TPER.V (trkAt t)
  let (w, cut) := trainShape c.arg per
  let n := s.f TRK.TCNT.V (trkAt t)
  let s := s.placeEdge t u true missed (clamp || cut) c.since
  let left : Option Nat := if n = 0 then none else some (n - 1)
  let tr : Train := { next := u + per, trail := some (u + w), left := left, width := w, per := per, src := c.src,
                      late := c.late, turn := c.turn }
  (s.setTrack t { s.track t with aAct := none, train := some tr }).acted c.src outActed

/-- `COMPARE_MATCH`: the active compare of slot A or B fires, if nothing of the track comes before it. -/
def State.compareMatch (s : State) (t : Nat) (b : Bool) : State :=
  let x := s.track t
  match (if b then x.bAct else x.aAct) with
  | none => s
  | some c =>
    let (u, missed, clamp) := s.fireOf x c
    match c.act with
    | .lead =>
      if s.barred x u then s
      else ((s.placeEdge t u true missed clamp c.since).setTrack t
        { (s.placeEdge t u true missed clamp c.since).track t with aAct := none }).acted c.src outActed
    | .trail =>
      if x.aAct.isSome then s
      else
        let s := s.placeEdge t u false missed clamp c.since
        ((s.setTrack t { s.track t with bAct := none }).tirq t TRK.IRQ_RAW.DONE).promote t
    | .train => if s.barred x u || x.train.isSome then s else s.startTrain t u c missed clamp
    | .arm => s
    | .gate => s
    | .close => s
    | _ =>
      let other := if b then x.aAct else x.bAct
      let drop (s : State) (both : Bool) : State :=
        let y := s.track t
        (s.setTrack t (if both then { y with aAct := none, bAct := none }
          else if b then { y with bAct := none } else { y with aAct := none })).promote t
      match other with
      | none => if s.barred x u then s else drop (s.fireEdge t u [c] missed clamp) false
      | some d =>
        let (v, _, _) := s.fireOf x d
        if s.barred x u then s
        else if d.time = c.time && v = u then drop (s.fireEdge t u (if b then [d, c] else [c, d]) missed clamp) true
        else if goesFirst d c v u b then s
        else drop (s.fireEdge t u [c] missed clamp) false

/-- `COMPARE_MATCH` (R61). -/
def execCompareMatch (t : TrackId) (b : Bool) (s : State) : Out := done (s.compareMatch t.val b)

/-- The next edge of a running train: the trailing edge of the pulse in progress, after the last of which the train has
ended, or the next leading edge. -/
def State.trainPulse (s : State) (t : Nat) : State :=
  let x := s.track t
  match x.train with
  | none => s
  | some r =>
    match r.trail with
    | some e =>
      let s := s.placeEdge t e false false false 0
      if r.left = some 0 then
        ((s.setTrack t { s.track t with train := none }).tirq t TRK.IRQ_RAW.DONE).promote t
      else s.setTrack t { s.track t with train := some { r with trail := none } }
    | none =>
      if s.barred x r.next then s
      else
        let s := s.placeEdge t r.next true false false 0
        let r' : Train := { r with next := r.next + r.per, trail := some (r.next + r.width), left := r.left.map (· - 1) }
        s.setTrack t { s.track t with train := some r' }

/-- `TRAIN_PULSE` (R63). -/
def execTrainPulse (t : TrackId) (s : State) : Out := done (s.trainPulse t.val)

/-- Something of a track lies before raw unit `u`: an active compare, an edge of a train, a mark, an edge owed. -/
def State.trackBefore (s : State) (x : Track) (u : Nat) : Bool :=
  let c (o : Option Cmp) : Bool := match o with
    | none => false
    | some c => decide ((s.fireOf x c).1 < u)
  c x.aAct || c x.bAct || x.marks.any (fun m => decide (s.rawOf m.time < u)) || x.owed.any (fun e => decide (e.time < u))
    || (match x.train with | none => false | some r => decide (r.trail.getD r.next < u))

/-- `STOP_MATCH` (R66, R69, R75): the stop comparator matches, after everything of the track that comes before it. -/
def State.stopMatch (s : State) (t : Nat) : State :=
  let x := s.track t
  match x.stop with
  | none => s
  | some (time, src) => if s.trackBefore x (s.rawOf time) then s else s.stopNow t time src

def execStopMatch (t : TrackId) (s : State) : Out := done (s.stopMatch t.val)

/-! ### Direct compare writes (R68, R372) -/

/-- A compare word is written: held, or arming, by the track's mode. -/
def State.cmpWrite (s : State) (r : Requester) (t : Nat) (b hi : Bool) (v : Word) : State :=
  let a := TRK.CMPA_LO.V.off + trkAt t + (if b then 8 else 0) + (if hi then 4 else 0)
  let x := s.track t
  let m := s.tmode t
  let n := v.toNat * 2 ^ 32
  let arm (y : Option Track) : State :=
    let p := s.putLoad t y
    if p.2 then p.1 else p.1.discard a r .busy
  if s.mode = .configure || s.mode = .safe then s.discard a r .mode
  else if m ≠ mdEdge && m ≠ mdPulse && m ≠ mdTrain then s.discard a r .mode
  else if m = mdTrain && b then s.discard a r .mode
  else if !hi then s.setTrack t (if b then { x with holdBLo := v } else { x with holdALo := v })
  else if m = mdEdge then
    let c : Cmp := { time := n + (if b then x.holdBLo else x.holdALo).toNat, act := .toggle }
    if b then arm (if x.bShd = none then some { x with bShd := some c } else none)
    else arm (if x.aShd = none then some { x with aShd := some c } else none)
  else if m = mdTrain then
    arm (x.loadA { time := n + x.holdALo.toNat, act := .train, arg := s.f TRK.WIDTH.V (trkAt t) })
  else if b then
    arm (x.loadPair { time := x.holdAHi.toNat * 2 ^ 32 + x.holdALo.toNat, act := .lead }
      { time := n + x.holdBLo.toNat, act := .trail })
  else s.setTrack t { x with holdAHi := v }

def cmpReg (t : TrackId) (b hi : Bool) : Nat :=
  TRK.CMPA_LO.V.off + trkAt t.val + (if b then 8 else 0) + (if hi then 4 else 0)

/-- `CMP_HOLD_WRITE` (R68). -/
def execCmpHoldWrite (r : Requester) (t : TrackId) (b hi : Bool) (v : Word) (s : State) : Out :=
  write s r (cmpReg t b hi) fun s => s.cmpWrite r t.val b hi v

/-- `CMP_ARM_WRITE` (R68): the HI word of a compare. -/
def execCmpArmWrite (r : Requester) (t : TrackId) (b : Bool) (v : Word) (s : State) : Out :=
  write s r (cmpReg t b true) fun s => s.cmpWrite r t.val b true v

/-! ### Arming, gates and edges (R69 to R75) -/

/-- An active arming takes effect (R69). -/
def State.armNow (s : State) (t : Nat) (c : Cmp) : State :=
  let (u, missed, _) := s.fireTime c none
  let s := s.advance (u / 64)
  let s := if missed then s.tirq t TRK.IRQ_RAW.MISSED else s
  let x := s.track t
  let left : Option Nat := if c.arg = 0 then none else some c.arg
  let x := if x.armed then x else { x with prevSel := none, openEdge := none }
  ((s.setTrack t { x with aAct := none, armed := true, left := left, armLate := c.late }).promote t).acted c.src outActed

/-- An active gate opens (R75); it closes at DUE + ARG, at once where that is past. -/
def State.openNow (s : State) (t : Nat) (c : Cmp) : State :=
  let (u, missed, _) := s.fireTime c none
  let s := s.advance (u / 64)
  let s := if missed then s.tirq t TRK.IRQ_RAW.MISSED else s
  let g : Gate := { count := 0, close := some (max u (s.rawOf c.time + c.arg)), src := c.src, late := c.late }
  ((s.setTrack t { s.track t with aAct := none, gate := some g }).promote t).acted c.src outActed

/-- What an input track has to do next, and when: 0 stop, 1 arm, 2 open, 3 close. DESIGN CHOICE (entry 44): a gate whose DUE
falls inside one still open opens when that one has closed, and counts no edge before. -/
def State.inputNext (s : State) (x : Track) : Option (Nat × Nat) :=
  let stop : List (Nat × Nat) := match x.stop with | some (t, _) => [(s.rawOf t, 0)] | none => []
  let act : List (Nat × Nat) := match x.aAct with
    | some c =>
      if c.act = .arm then [((s.fireTime c none).1, 1)]
      else if c.act = .gate && x.gate = none then [((s.fireTime c none).1, 2)] else []
    | none => []
  let close : List (Nat × Nat) := match x.gate with
    | some g => (match g.close with | some e => [(e, 3)] | none => [])
    | none => []
  (close ++ stop ++ act).foldl (fun (b : Option (Nat × Nat)) p =>
    match b with
    | none => some p
    | some q => if p.1 < q.1 then some p else b) none

/-- One of the actions of `inputNext` done. -/
def State.inputDo (s : State) (t : Nat) (k : Nat) : State :=
  let x := s.track t
  if k = 0 then (match x.stop with | some (time, src) => s.stopNow t time src | none => s)
  else if k = 3 then
    match x.gate with
    | some g => (match g.close with | some e => (s.advance (e / 64)).closeGate t e | none => s)
    | none => s
  else
    match x.aAct with
    | some c => if k = 1 then s.armNow t c else s.openNow t c
    | none => s

/-- What an input track has to do at or before raw unit `u` is done before an edge at `u` is judged (R69, R75). -/
def State.inputDue (s : State) (t u : Nat) : Nat → State
  | 0 => s
  | n + 1 =>
    match s.inputNext (s.track t) with
    | none => s
    | some (e, k) => if e ≤ u then (s.inputDo t k).inputDue t u n else s

/-- Action `k` of an input track, if it is the next one. -/
def State.inputEvent (s : State) (t k : Nat) : State :=
  match s.inputNext (s.track t) with
  | none => s
  | some (_, j) => if j = k then s.inputDo t k else s

/-- `CAPTURE_ARM` (R69). -/
def execCaptureArm (t : TrackId) (s : State) : Out := done (s.inputEvent t.val 1)

/-- `GATE_OPEN` (R75). -/
def execGateOpen (t : TrackId) (s : State) : Out := done (s.inputEvent t.val 2)

/-- `GATE_CLOSE` (R75): the gate's own close, or the stop time of a DISARM. -/
def execGateClose (t : TrackId) (s : State) : Out :=
  match s.inputNext (s.track t.val) with
  | none => done s
  | some (_, k) =>
    if k = 3 || (k = 0 && s.tmode t.val = mdGate && (s.track t.val).gate.isSome) then done (s.inputDo t.val k) else done s

/-- Raw units of 4 ns, rounded up (R70). -/
abbrev fullSpacing : Nat := 103

/-- A stamp of an edge in raw cycle `cyc`. -/
def State.edgeStamp (s : State) (t u cyc : Nat) (rising interp : Bool) : State :=
  let x := s.track t
  s.formStamp t { time := s.stampVt u, rising := rising, interp := interp, epoch := s.epochAt cyc
                  late := x.armLate, seq := 0, ctx := none, enter := cyc + 12 }

/-- A selected edge of an armed track, stamped at raw unit `u` (R69, R75). -/
def State.selected (s : State) (t u cyc : Nat) (rising interp : Bool) : State :=
  let x := s.track t
  let m := s.tmode t
  let recd := s.on TRK.MODE.REC (trkAt t)
  if m = mdCapture then (s.edgeStamp t u cyc rising interp).countEdge t
  else if m = mdPeriod then
    let s := match x.prevSel with
      | none => s
      | some p =>
        let s := s.measure t (u - p)
        if recd then s.edgeStamp t u cyc rising interp else s
    (s.setTrack t { s.track t with prevSel := some u }).countEdge t
  else if m = mdWidth then
    if rising = decide (s.f TRK.MODE.EDGE (trkAt t) = 1) then s.setTrack t { x with openEdge := some u }
    else
      match x.openEdge with
      | none => s
      | some p =>
        let s := s.measure t (u - p)
        let s := if recd then s.edgeStamp t u cyc rising interp else s
        (s.setTrack t { s.track t with openEdge := none }).countEdge t
  else s

/-- An edge counted by an open gate (R75). -/
def Track.countGate (x : Track) : Track :=
  match x.gate with
  | none => x
  | some g => { x with gate := some { g with count := satAdd 0xFFFFFFFF g.count 1 } }

/-- A selected edge of this sense would form a record (R69, R72, R75). -/
def State.wouldRecord (s : State) (t : Nat) (rising : Bool) : Bool :=
  let x := s.track t
  let m := s.tmode t
  let closes := rising != decide (s.f TRK.MODE.EDGE (trkAt t) = 1)
  m = mdCapture || (s.on TRK.MODE.REC (trkAt t)
    && ((m = mdPeriod && x.prevSel.isSome) || (m = mdWidth && closes && x.openEdge.isSome)))

/-- A further selected edge of its sense in one cycle is lost (R70, R72); a record that it would have formed takes its
sequence number. -/
def State.edgeLost (s : State) (t : Nat) (rising : Bool) : State :=
  let x := s.track t
  let s := s.setTrack t { x with seq := if s.wouldRecord t rising then (x.seq + 1) % 65536 else x.seq, ovf := true }
  (s.bump TRK.CNT_EVT.LO 1 (trkAt t)).tirq t TRK.IRQ_RAW.OVERFLOW

/-- A transition reaches the capture path in raw cycle `cyc` with raw code `code` (R69 to R71, R75). -/
def State.captureEdge (s : State) (t cyc code : Nat) (rising : Bool) : State :=
  let fine := s.edgeU t cyc code
  let s := (s.advance cyc).inputDue t fine 8
  let s := s.hit t code cyc
  let x := s.track t
  let m := s.tmode t
  let near := match x.prevAny with | none => false | some p => decide (fine < p + fullSpacing)
  let again := if rising then x.riseCyc = some cyc else x.fallCyc = some cyc
  let interp := s.tabled t cyc && !near
  let u := if near then cyc * 64 else fine
  let x := if rising then { x with prevAny := some fine, riseCyc := some cyc } else { x with prevAny := some fine, fallCyc := some cyc }
  let s := s.setTrack t x
  let e := s.f TRK.MODE.EDGE (trkAt t)
  let mine := if m = mdWidth then true else if rising then e % 2 = 1 else 2 ≤ e
  if !inMode m || !mine then s
  else if (if m = mdGate then x.gate.isNone else !x.armed) then s
  else if again then s.edgeLost t rising
  else if m = mdGate then s.setTrack t x.countGate
  else s.selected t u cyc rising interp

/-- `CAPTURE_EDGE` (R70): a transition of the line that INSEL connects; from it the line's level is known (R85). -/
def execCaptureEdge (t : TrackId) (cyc : Nat) (code : Fin 128) (rising : Bool) (s : State) : Out :=
  done (if s.mode.alive && s.on TRK.INSEL.EN (trkAt t.val) then
      (s.captureEdge t.val cyc code.val rising).outside (s.f TRK.INSEL.LINE (trkAt t.val)) rising
    else s)

/-! ### Records (R72 to R74, R77) -/

/-- The context of a record at vehicle time `v` under CFG.CTX (R74). -/
def State.recordCtx (s : State) (t v : Nat) : Nat :=
  if s.f TRK.CFG.CTX (trkAt t) = 1 then
    let n := s.f TRK.CFG.CTX_TT (trkAt t)
    if s.ttState n = ttProvisional || s.ttState n = ttSynced then
      let c := s.ttContext n (s.rawOf v)
      if c % full24 = full24 - 1 then c - 1 else c
    else 0xFFFFFFFF
  else s.f TRK.TAG.V (trkAt t)

/-- The oldest record formed enters the FIFO, or is lost; its event signals (R72, R148). -/
def State.stampEnter (s : State) (t : Nat) : State :=
  let x := s.track t
  match x.formed with
  | [] => s
  | y :: ys =>
    let s := (s.advance y.enter).setTrack t { x with formed := ys }
    let ctx := match y.ctx with | some c => c | none => s.recordCtx t y.time
    let s' := s.pushStamp t y ctx
    if (s'.track t).fifo.length = x.fifo.length then s'
    else s'.signal 1 t (({ y with ovf := x.ovf } : Stamp).encode t ctx / 2 ^ 64 % 2 ^ 32) y.time

/-- `STAMP_FIFO_ENTRY` (R72). -/
def execStampFifoEntry (t : TrackId) (s : State) : Out := done (s.stampEnter t.val)

/-- The track that the record writer drains next: round-robin among those with DEST = 0 and a record (R73). -/
def State.drainNext (s : State) : Option Nat :=
  let ready := (s.trk.filter (fun e => !e.2.fifo.isEmpty && !s.on TRK.CFG.DEST (trkAt e.1))).map (fun e => e.1)
  match ready.find? (fun t => s.hst.trkLast < t) with
  | some t => some t
  | none => ready.head?

/-- The record writer's cycle: the head record of the next track goes on its way to the stamp log, if the writer is free and
there is room (R73, R25). DEDUCED (entry 23): the writer holds one record, whose four words take four cycles of the siding
(R266). -/
def State.drainTrack (s : State) : State :=
  let s := s.writeOn 0 4
  match s.drainNext with
  | none => s
  | some t =>
    let x := s.track t
    match x.fifo with
    | [] => s
    | y :: ys =>
      if !s.writerFree 0 then s
      else
          let s := (s.setTrack t { x with fifo := ys }).ringPush 0 (y.encode t (y.ctx.getD 0))
          { s with hst := { s.hst with trkLast := t } }

/-- `RECORD_WRITER_DRAIN` (R73): one cycle. -/
def execRecordWriterDrain (s : State) : Out := done (s.advance (s.raw + 1)).drainTrack

/-- A read of POP0 (R73, R79): the head record moves into the requester's latch. -/
def State.trkPop (s : State) (r : Requester) (t : Nat) : State × Word :=
  let a := TRK.POP.V.off + trkAt t
  if s.foreign r (TRK.OWN.HOLDER.off + trkAt t) then ((s.tirq t TRK.IRQ_RAW.OWNER_REJ).discard a r .owner, 0)
  else
    let x := s.track t
    let latch (n : Nat) (fifo : List Stamp) : Track :=
      { x with fifo := fifo, pops := SMap.put (fun _ => 0) x.pops r.id n }
    match x.fifo with
    | [] => (s.setTrack t (latch 0 []), 0)
    | y :: ys =>
      let n := y.encode t (y.ctx.getD 0)
      (s.setTrack t (latch n ys), word n)

/-- `TRK_POP0_READ` (R73). -/
def execTrkPop0Read (r : Requester) (t : TrackId) (s : State) : Out :=
  readAt s r (trkReg TRK.POP.V t) fun s => s.trkPop r t.val

/-- The pending mark of the earliest time. -/
def Track.firstMark (x : Track) : Option Cmp :=
  x.marks.foldl (fun (b : Option Cmp) c =>
    match b with
    | none => some c
    | some d => if vtDiff c.time d.time < 0 then some c else b) none

/-- A mark's DUE (R77): a record of the ordered time, with ARG as its context. -/
def State.markDue (s : State) (t : Nat) : State :=
  let x := s.track t
  match x.firstMark with
  | none => s
  | some c =>
    let u := s.rawOf c.time
    if s.barred x u then s
    else
      let s := s.advance (u / 64)
      let s := s.setTrack t { x with marks := x.marks.erase c }
      let s := s.formStamp t { time := c.time, rising := false, interp := true, epoch := s.epochAt (u / 64), late := c.late
                               seq := 0, ctx := some c.arg, enter := u / 64 + 12 }
      s.acted c.src outActed

/-- `STAMP_MARK` (R77). -/
def execStampMark (t : TrackId) (s : State) : Out := done (s.markDue t.val)

/-! ### Followers (R76) -/

/-- The edge owed of the earliest time. -/
def Track.firstOwed (x : Track) : Option Follow :=
  x.owed.foldl (fun (b : Option Follow) c =>
    match b with
    | none => some c
    | some d => if c.time < d.time then some c else b) none

/-- A LINKED track places its next reproduced edge, under the limit of R64; with REC = 1 it forms a record. DESIGN CHOICE
(entry 44): the record of an edge that R64 has moved carries the moved time as its ordered time. In a mode without output
sources (R372) the edge's time passes and nothing comes of it. -/
def State.linkedEdge (s : State) (t : Nat) : State :=
  let x := s.track t
  match x.firstOwed with
  | none => s
  | some e =>
    if !e.trail && s.barred x e.time then s
    else
      let s := s.setTrack t { x with owed := x.owed.erase e }
      if e.lvl = x.lvl || !s.mode.sources then s.advance (e.time / 64)
      else
        let u := match x.edgeAt with | none => e.time | some k => max e.time (k + 128)
        let s := s.placeEdge t u e.lvl false (u ≠ e.time) 0
        if s.on TRK.MODE.REC (trkAt t) then
          s.formStamp t { time := s.stampVt u, rising := e.lvl, interp := true, epoch := s.epochAt (u / 64)
                          seq := 0, ctx := none, enter := u / 64 + 12 }
        else s

/-- `LINKED_EDGE` (R76). -/
def execLinkedEdge (t : TrackId) (s : State) : Out := done (s.linkedEdge t.val)

/-! ### Claims (R78, R79, R82) -/

/-- A write of an OWN register: CLAIM and RELEASE, both together ignored (R78); with neither, one of another requester than
the holder is turned away (R79). -/
def State.ownWrite (s : State) (r : Requester) (a kind idx : Nat) (v : Word) : State :=
  let c := bitsAt v.toNat 31 1 = 1
  let d := bitsAt v.toNat 30 1 = 1
  if c && !d then s.claim r a kind idx else if d && !c then s.release r a kind idx
  else if !c && !d && s.foreign r a then s.ownerCaught r a else s

/-- `TRK_CLAIM` (R78). -/
def execTrkClaim (r : Requester) (t : TrackId) (s : State) : Out :=
  write s r (trkReg TRK.OWN.HOLDER t) fun s => s.claim r (trkReg TRK.OWN.HOLDER t) kindTrack t.val

/-- `TRK_RELEASE` (R78). -/
def execTrkRelease (r : Requester) (t : TrackId) (s : State) : Out :=
  write s r (trkReg TRK.OWN.HOLDER t) fun s => s.release r (trkReg TRK.OWN.HOLDER t) kindTrack t.val

/-- `TRK_ABORT` (R82): the effect of an abort of a track in progress. -/
def execTrkAbort (t : TrackId) (s : State) : Out :=
  done (if s.aborting (TRK.page.base + trkAt t.val) then s.trkAbort t.val else s)

/-- A write to a track's subpage. -/
def State.trkPut (s : State) (r : Requester) (t o : Nat) (v : Word) (swap : Bool) : State :=
  let a := TRK.page.base + trkAt t + o
  if o = 0x40 then s.trkMode r t v swap
  else if o = 0x48 then s.ownWrite r a kindTrack t v
  else if o = 0x4C then s.select (s.storeReg r a v) r a
  else if 0x50 ≤ o && o ≤ 0x5C then s.cmpWrite r t (decide (0x58 ≤ o)) (o % 8 = 4) v
  else s.storeReg r a v

end Sys2Proof.Machine
end

