-- ==== Sys2Proof/Machine/Adc.lean ====
section
/-! DEFINITION. The commands of the proof ADC (file 09): samples, sequences, windows, optical stamps, the ADC page. -/

namespace Sys2Proof.Machine

/-! ### Samples and optical stamps (R219 to R222, R233 to R237) -/

/-- `ADC_SAMPLE` (R219): converter A, or B, makes its next raw code. With PAIR = 1 both feed one stream. -/
def execAdcSample (b : Bool) (code : BitVec 12) (s : State) : Out :=
  let q := if s.on ADC.CTL.PAIR then 2 else if b then 1 else 0
  done (if s.mode.alive && s.sqReady q then s.adcSample q code.toInt else s)

/-- `MMC_BLOCK` (R221): the block gathered last updates the estimates of converter A, or B. -/
def execMmcBlock (b : Bool) (s : State) : Out :=
  done (s.mmcBlock (if s.on ADC.CTL.PAIR then 2 else if b then 1 else 0))

/-- `OPTICAL_RECORD_ENTRY` (R236). -/
def execOpticalRecordEntry (c : ChannelId) (s : State) : Out := done (s.optEnter c.val)

/-- The channel drained next: round-robin among those with DEST = 0 and a record (R73, R236). -/
def State.optNext (s : State) : Option Nat :=
  let ready := (s.adc.chans.filter (fun e => !e.2.fifo.isEmpty && !s.on ADC.OCFG.DEST (32 * e.1))).map (fun e => e.1)
  match ready.find? (fun c => s.hst.chLast < c) with
  | some c => some c
  | none => ready.head?

/-- One cycle of the optical writer: a head record goes on its way to the optical log, if the writer is free and there is
room (R290). -/
def State.optDrain (s : State) : State :=
  let s := s.writeOn 2 4
  match s.optNext with
  | none => s
  | some c =>
    let y := s.chan c
    match y.fifo with
    | [] => s
    | x :: xs =>
      if !s.writerFree 2 then s
      else
          let s := (s.setChan c { y with fifo := xs }).ringPush 2 x.encode
          { s with hst := { s.hst with chLast := c } }

/-- `OPTICAL_DRAIN` (R290): one cycle. -/
def execOpticalDrain (s : State) : Out := done (s.advance (s.raw + 1)).optDrain

/-- A read of POP0 of a channel moves the head record into the requester's latch (R73, R236). -/
def State.optPop (s : State) (r : Requester) (c : Nat) : State × Word :=
  let y := s.chan c
  let n := match y.fifo with
    | [] => 0
    | x :: _ => x.encode
  (s.setChan c { y with fifo := y.fifo.tail, pops := SMap.put (fun _ => 0) y.pops r.id n }, word n)

/-- `OPTICAL_POP0_READ` (R236). -/
def execOpticalPop0Read (r : Requester) (c : ChannelId) (s : State) : Out :=
  readAt s r (ADC.OPOP0.V.off + 16 * c.val) fun s => s.optPop r c.val

/-! ### Sequences (R223 to R228) -/

/-- An edge on the line of trigger input `n`, in raw cycle `c` with raw code `code` of the input's vernier (R226). -/
def State.trigLine (s : State) (n c code : Nat) (rising : Bool) : State :=
  let o := 4 * n
  let s := s.advance c
  let u := s.edgeU (vernTrig n) c code
  let s := (s.hit (vernTrig n) code c).outside (s.f ADC.TG.SRC o % 128) rising
  if (rising != s.on ADC.TG.POL o) = true then s.adcPresent n u (c + 12) else s

/-- The oldest selected edge of the internal source of trigger input `n` (R226). -/
def State.trigSource (s : State) (n : Nat) : State :=
  match SMap.get (fun _ => []) s.adc.srcEdges n with
  | [] => s
  | u :: rest =>
    let s := ({ s with adc := { s.adc with srcEdges := SMap.put (fun _ => []) s.adc.srcEdges n rest } } : State).advance (u / 64)
    s.adcPresent n u (u / 64)

/-- An edge of trigger input `n` (R226): of its line under KIND 0, of its internal source under KIND 1. -/
def State.adcTrigger (s : State) (n c code : Nat) (rising : Bool) : State :=
  let o := 4 * n
  if !s.on ADC.TG.EN o then s
  else if s.on ADC.TG.KIND o then s.trigSource n
  else s.trigLine n c code rising

/-- `ADC_TRIGGER_INPUT` (R226): an edge on the line of TGn in raw cycle `cyc` with raw code `code`, or the oldest selected
edge of its internal source. -/
def execAdcTriggerInput (n : Fin 4) (cyc : Nat) (code : Fin 128) (rising : Bool) (s : State) : Out :=
  done (if s.mode.alive then s.adcTrigger n.val cyc code.val rising else s)

/-- `ADC_TRIGGER_ACCEPT` (R227). -/
def execAdcTriggerAccept (q : Fin 3) (s : State) : Out := done (if s.mode.sequences then s.adcAccept q.val else s)

/-- `ADC_STEP_BEGIN` (R223): the step that comes next, if none runs. -/
def execAdcStepBegin (q : Fin 3) (s : State) : Out :=
  done (match (s.sqr q.val).run with
    | some r => if r.step = none then s.stepBegin q.val r else s
    | none => s)

/-- `ADC_STEP_END` (R230). -/
def execAdcStepEnd (q : Fin 3) (s : State) : Out := done (s.stepEnd q.val)

/-! ### Windows (R229 to R232) -/

abbrev winReg (g : Fld) (w : Nat) : Nat := g.off + winAt w

/-- A write of WCFG (R229): ALLOC and FREE written together have no effect of their own. -/
def State.wcfgPut (s : State) (r : Requester) (w : Nat) (v : Word) : State :=
  let a := winReg ADC.WCFG.SIZE w
  let x := s.win w
  let alloc := bitsAt v.toNat 30 2 = 2
  let free := bitsAt v.toNat 30 2 = 1
  if rangeBad (fieldsAt a) v.toNat then s.discard a r .range
  else if alloc && (x.alloc || x.moving.isSome) then s.discard a r .busy
  else if free && (x.moving.isSome || x.sending || s.writing w) then s.discard a r .busy
  else
    let s := s.storeReg r a v
    if alloc then s.winAlloc w (bitsAt v.toNat 0 9) else if free then s.winFree w else s

/-- `WINDOW_ALLOC` (R229): the word written, with ALLOC = 1 and FREE = 0. -/
def execWindowAlloc (r : Requester) (w : WindowId) (v : Word) (s : State) : Out :=
  write s r (winReg ADC.WCFG.SIZE w.val) fun s => s.wcfgPut r w.val (word (putBits v.toNat 30 2 2))

/-- `WINDOW_FREE` (R229): the word written, with FREE = 1 and ALLOC = 0. -/
def execWindowFree (r : Requester) (w : WindowId) (v : Word) (s : State) : Out :=
  write s r (winReg ADC.WCFG.SIZE w.val) fun s => s.wcfgPut r w.val (word (putBits v.toNat 30 2 1))

/-- `WINDOW_TRANSFER_COMPLETE` (R229). -/
def execWindowTransferComplete (w : WindowId) (s : State) : Out := done (s.winMoved w.val)

/-- A write of WPTR (R231): RP moves with DEST = 1, up to WP. -/
def State.wptrPut (s : State) (r : Requester) (w : Nat) (v : Word) : State :=
  let a := winReg ADC.WPTR.RP w
  let x := s.win w
  let rp := bitsAt v.toNat 16 13
  let ring := x.size * 32
  if !s.on ADC.WCFG.DEST (winAt w) then s
  else if !x.alloc || ring ≤ rp || (x.wp + ring - x.rp) % ring < (rp + ring - x.rp) % ring then s.discard a r .range
  else s.winRp w rp

/-- `WINDOW_RP_WRITE` (R231). -/
def execWindowRpWrite (r : Requester) (w : WindowId) (v : Word) (s : State) : Out :=
  write s r (winReg ADC.WPTR.RP w.val) fun s => s.wptrPut r w.val v

/-- A write of WOWN (R232): another requester's than the holder's is discarded with reason OWNER, and a claim or release in
it is refused as R78 has it. -/
def State.winOwn (s : State) (r : Requester) (w : Nat) (v : Word) : State :=
  let a := winReg ADC.WOWN.HOLDER w
  (if s.foreign r a then s.ownerCaught r a else s).ownWrite r a kindWindow w v

/-- `WINDOW_CLAIM` (R232). -/
def execWindowClaim (r : Requester) (w : WindowId) (s : State) : Out :=
  write s r (winReg ADC.WOWN.HOLDER w.val) fun s => s.winOwn r w.val (word (2 ^ 31))

/-- `WINDOW_RELEASE` (R232). -/
def execWindowRelease (r : Requester) (w : WindowId) (s : State) : Out :=
  write s r (winReg ADC.WOWN.HOLDER w.val) fun s => s.winOwn r w.val (word (2 ^ 30))

/-! ### Control (R220, R239, R240) -/

/-- Settings that a change of EN or PAIR makes count as changed (R220). -/
def State.unsettle (s : State) (q : Nat) : State := s.setStream q { s.stream q with last := none }

/-- What a change of EN_A, EN_B or PAIR unsettles (R220): every stream at a change of PAIR, else those of a converter
enabled. -/
def State.unsettled (s : State) (old new : Nat) : State :=
  if bitsAt old 2 1 ≠ bitsAt new 2 1 then ((s.unsettle 0).unsettle 1).unsettle 2
  else
    let up (k : Nat) : Bool := bitsAt old k 1 = 0 && bitsAt new k 1 = 1
    let s := if up 0 then s.unsettle 0 else s
    let s := if up 1 then s.unsettle 1 else s
    if up 0 || up 1 then s.unsettle 2 else s

/-- A write of ADC.CTL (R240): a change of EN_A, EN_B or PAIR is turned away while a sequencer works; MMC_EN is stored. -/
def State.adcCtl (s : State) (r : Requester) (v : Word) : State :=
  let a := ADC.CTL.EN_A.off
  let w := (s.reg a).toNat
  let old := bitsAt w 0 3
  let new := bitsAt v.toNat 0 3
  if old ≠ new && s.adcWorks then (s.storeReg r a (word (putBits v.toNat 0 3 old))).discard a r .busy
  else
    (s.storeReg r a v).unsettled old new

/-- `ADC_CTL_WRITE` (R240). -/
def execAdcCtlWrite (r : Requester) (v : Word) (s : State) : Out :=
  write s r ADC.CTL.EN_A.off fun s => s.adcCtl r v

/-- `ADC_ABORT` (R239): the effect of an abort of the ADC in progress. -/
def execAdcAbort (s : State) : Out := done (if s.aborting ADC.page.base then s.adcAbort else s)

/-! ### The page -/

/-- A write to an ADC register. -/
def State.adcRegPut (s : State) (r : Requester) (o : Nat) (v : Word) : State :=
  let a := ADC.page.base + o
  if o = 0x08 then s.adcCtl r v
  else if 0x80 ≤ o && o < 0xC0 && 63 < bitsAt v.toNat 0 6 + bitsAt v.toNat 8 4 then s.discard a r .range
  else if 0x100 ≤ o && o < 0x300 && o % 8 = 0 && s.stepBad v.toNat then s.discard a r .range
  else if 0x320 ≤ o && o < 0x330 then s.select (s.storeReg r a v) r a
  else if 0x400 ≤ o && o < 0x600 then
    let w := (o - 0x400) / 16
    if o % 16 = 0 then s.wcfgPut r w v
    else if o % 16 = 8 then s.wptrPut r w v
    else if o % 16 = 12 then s.winOwn r w v
    else s
  else if 0x600 ≤ o && o < 0x800 && o % 32 = 8 then (s.storeReg r a v).checkAgain ((o - 0x600) / 32) (s.reg a).toNat
  else s.storeReg r a v

/-- A read of an ADC register with an effect of its own. -/
def State.adcRead (s : State) (r : Requester) (o : Nat) (w : Word) : State × Word :=
  if 0x800 ≤ o && o < 0x900 && o % 16 = 0 then s.optPop r ((o - 0x800) / 16)
  else (s, s.liveAdc r.id o w)

end Sys2Proof.Machine
end

