-- ==== Sys2Proof/Machine/Consists.lean ====
section
/-! DEFINITION. The commands of consists, aborts and roll calls (file 13), but for the check at a boundary and the digest. -/

namespace Sys2Proof.Machine

/-! ### CNS.CMD (R305, R309, R313) -/

/-- A write that controls the requester's own consist: no bypass write (R307). -/
def State.control (s : State) (r : Requester) (k : State → State) : Out :=
  access s r fun s => s.unlessAborting r CNS.CMD.OP.off k

/-- OP = BEGIN. -/
def State.consBegin (s : State) (r : Requester) : State :=
  let a := CNS.CMD.OP.off
  if s.mode = .standby then s.discard a r .mode
  else if (s.consistOf r.id).isSome then s.discard a r .busy
  else
    match (List.range 4).find? (fun k => (s.consist k).st = .free) with
    | none => s.discard a r .busy
    | some k =>
      s.setConsist k { st := .opened, owner := r.id, role := s.role r, last := (s.consist k).last }

/-- `CONSIST_BEGIN` (R305). -/
def execConsistBegin (r : Requester) (s : State) : Out := s.control r fun s => s.consBegin r

/-- D of a COMMIT with WHEN = DEP. -/
def State.commitDep (s : State) (r : Requester) : Nat :=
  (s.preg r.id CNS.CDEP_HI.V.off).toNat * 2 ^ 32 + (s.preg r.id CNS.CDEP_LO.V.off).toNat

/-- The boundary that a COMMIT names (R309), nothing yet for WHEN = ENTRY; no answer where it is out of range. -/
def State.commitWhen (s : State) (r : Requester) (whn entry : Nat) : Option (Option Nat) :=
  if whn = whNext then some (some (s.boundaryAfter 2))
  else if whn = whDep then
    (if s.tooNear (s.commitDep r) 2 then none else some (some (s.commitDep r)))
  else if whn = whEntry then
    let x := s.slot entry
    if x.st = .queued && x.place ≠ .reserved && eAction x.bits = acCommit && (s.consistFor entry).isNone then some none else none
  else none

/-- OP = COMMIT. -/
def State.consCommit (s : State) (r : Requester) (v : Word) : State :=
  let a := CNS.CMD.OP.off
  let whn := bitsAt v.toNat 28 2
  let entry := bitsAt v.toNat 0 14
  if whn = 3 then s.discard a r .range
  else
    match s.consistOf r.id with
    | none => s.discard a r .mode
    | some k =>
      let x := s.consist k
      if x.st = .broken then s.discard a r .busy
      else if x.st ≠ .opened then s.discard a r .mode
      else
        match s.commitWhen r whn entry with
        | none => s.discard a r .range
        | some d =>
          let y : Consist := { x with
            st := .closed, whn := whn, dep := d, entry := if whn = whEntry then entry else 0, order := s.consOrd }
          ({ s.setConsist k y with consOrd := s.consOrd + 1 } : State).mirrorConsist k

/-- `CONSIST_COMMIT` (R309). -/
def execConsistCommit (r : Requester) (v : Word) (s : State) : Out := s.control r fun s => s.consCommit r v

/-- OP = ROLLBACK. -/
def State.consRollback (s : State) (r : Requester) : State :=
  let a := CNS.CMD.OP.off
  match s.consistOf r.id with
  | none => s.discard a r .mode
  | some k => if s.committing k then s.discard a r .busy else s.consistEnd k coRolledBack

/-- `CONSIST_ROLLBACK` (R313). -/
def execConsistRollback (r : Requester) (s : State) : Out := s.control r fun s => s.consRollback r

/-- `CNS_ABORT` (R316): the effect of an abort of CNS in progress. -/
def execCnsAbort (s : State) : Out := done (if s.aborting CNS.page.base then s.cnsAbort else s)

/-- A write to a CNS register. -/
def State.cnsPut (s : State) (r : Requester) (o : Nat) (v : Word) : State :=
  if o = 0x40 then
    let op := bitsAt v.toNat 30 2
    if op = 1 then s.consBegin r
    else if op = 2 then s.consCommit r v
    else if op = 3 then s.consRollback r
    else s
  else if o = 0x44 || o = 0x48 then s.setPreg r.id (CNS.page.base + o) v
  else s.storeReg r (CNS.page.base + o) v

/-! ### Aborts (R315, R317) -/

/-- `BLOCK_ABORT` (R315): GO written in the page of address `a`. -/
def execBlockAbort (r : Requester) (a : Nat) (s : State) : Out :=
  match pageOf a with
  | none => done s
  | some (_, b) => write s r (b + 0x20) fun s => s.abortGo b

/-- `GLB_ABORT` (R317). -/
def execGlbAbort (r : Requester) (s : State) : Out :=
  write s r (GLB.page.base + 0x20) fun s => s.abortGo GLB.page.base

/-- `ABORT_COMPLETE` (R315): the abort of the page of address `a`. -/
def execAbortComplete (a : Nat) (s : State) : Out :=
  match pageOf a with
  | none => done s
  | some (_, b) => done (s.abortComplete b)

/-! ### Roll calls (R319, R323) -/

/-- Bytes of a digest. -/
abbrev digestSize : Nat := 6144

/-- A digest fits the interchange bank at an offset of 64-byte units. -/
def digestFits (ofs : Nat) : Bool := ofs * 64 + digestSize ≤ 65536

/-- A request that is accepted. -/
def State.rollGo (s : State) (req : Nat) (auto : Bool) : State :=
  let rc : RollCall :=
    { req := req, auto := auto, dest := s.on GLB.ROLLCALL.DEST, ofs := s.f GLB.ROLLCALL.OFS, asked := s.raw }
  { s with glb := { s.glb with rc := some rc } }

/-- A write of GLB.ROLLCALL. -/
def State.rollPut (s : State) (r : Requester) (v : Word) : State :=
  let a := GLB.ROLLCALL.GO.off
  if bitsAt v.toNat 31 1 = 0 then s.storeReg r a v
  else if s.glb.rc.isSome then s.discard a r .busy
  else if !digestFits (bitsAt v.toNat 6 10) then s.discard a r .range
  else (s.storeReg r a v).rollGo r.id false

/-- `ROLLCALL_REQUEST` (R319): a write of GLB.ROLLCALL with GO = 1. -/
def execRollcallRequest (r : Requester) (v : Word) (s : State) : Out :=
  write s r GLB.ROLLCALL.GO.off fun s => s.rollPut r (v ||| 0x80000000)

/-- The digest stored: in the interchange bank through port B, or in the digest space. -/
def State.digestStore (s : State) (rc : RollCall) (b : List Byte) : State :=
  if rc.dest then
    let s := (toWords b).zipIdx.foldl (fun s p => s.bookPut (8192 + p.2) p.1) s
    { s with hst := { s.hst with digest := true } }
  else (toWords b).zipIdx.foldl (fun s p => s.icbInternal (rc.ofs * 16 + p.2) p.1) s

/-- `ROLLCALL_COMPLETE` (R319). -/
def execRollcallComplete (s : State) : Out :=
  done (match s.glb.rc with
    | none => s
    | some rc =>
      match rc.bytes with
      | none => s
      | some b =>
        let s := s.digestStore rc b
        let s := { s with glb := { s.glb with rc := none, gen := (s.glb.gen + 1) % 2 ^ 32 } }
        (s.bump GLB.CNT_EVT.LO).set1 GLB.IRQ_RAW.RC_DONE)

/-- PERIOD of GLB.RCAUTO in VTS64 units, 10 ms each. -/
def State.rcPeriod (s : State) : Nat := s.f GLB.RCAUTO.PERIOD * 256000000

/-- A write of GLB.RCAUTO: the first automatic request comes a period later. -/
def State.rcAutoPut (s : State) (r : Requester) (v : Word) : State :=
  let s := s.storeReg r GLB.RCAUTO.PERIOD.off v
  let t : Option Nat := if s.f GLB.RCAUTO.PERIOD = 0 then none else some (s.vt + s.rcPeriod)
  { s with glb := { s.glb with autoAt := t } }

/-- An automatic request falls due. -/
def State.rollAuto (s : State) (t : Nat) : State :=
  let s := s.advanceVt t
  let s := { s with glb := { s.glb with autoAt := some (t + s.rcPeriod) } }
  if s.glb.rc.isSome then (s.bump GLB.CNT_EVT.HI).set1 GLB.IRQ_RAW.RC_SKIP
  else if digestFits (s.f GLB.ROLLCALL.OFS) then s.rollGo 0 true
  else s

/-- `ROLLCALL_AUTO` (R323). -/
def execRollcallAuto (s : State) : Out :=
  done (match s.glb.autoAt with
    | none => s
    | some t => if s.mode.powered then s.rollAuto t else s)

/-! ### The GLB page -/

/-- A write to a GLB register. -/
def State.glbPut (s : State) (r : Requester) (o : Nat) (v : Word) : State :=
  if o = 0x50 then s.rollPut r v
  else if o = 0x54 then s.rcAutoPut r v
  else s.storeReg r (GLB.page.base + o) v

/-- The GLB words that follow state. -/
def State.liveGlb (s : State) (o : Nat) (w : Word) : Word :=
  if o = 0x44 then word s.sec.otp.serial
  else if o = 0x48 then word (s.sec.otp.serial / 2 ^ 32)
  else if o = 0x58 then (if s.glb.rc.isSome then 0x80000000 else 0)
  else if o = 0x5C then word s.glb.gen
  else if o = 0x60 then word s.glb.nonce
  else w

end Sys2Proof.Machine
end

