-- ==== Sys2Proof/Machine/Timebase.lean ====
section
/-! DEFINITION. The commands of the timebase (file 02): vehicle time reads, the mapping, the reference, the servo, steps,
Keep-time, the second pulse, vernier calibration. -/

namespace Sys2Proof.Machine

/-! ### Reads (R27, R52) -/

/-- A read of VT_LO: bits 31:0 of vehicle time with fraction 0, bits 63:32 copied for the requester. -/
def State.vtLo (s : State) (r : Requester) : State × Word :=
  (s.setPreg r.id TBU.VT_HI.V.off (word (s.vt / 2 ^ 32)), word (s.cyc * 64))

/-- `VT_LO_READ` (R27). -/
def execVtLoRead (r : Requester) (s : State) : Out := readAt s r TBU.VT_LO.V.off fun s => s.vtLo r

/-- A read of NEXTSEC_LO copies the HI word for the requester. -/
def State.nextsecLo (s : State) (r : Requester) : State × Word :=
  (s.setPreg r.id TBU.NEXTSEC_HI.NEXTSEC.off (s.reg TBU.NEXTSEC_HI.NEXTSEC.off), s.reg TBU.NEXTSEC_LO.NEXTSEC.off)

/-- `NEXTSEC_LO_READ` (R52). -/
def execNextsecLoRead (r : Requester) (s : State) : Out :=
  readAt s r TBU.NEXTSEC_LO.NEXTSEC.off fun s => s.nextsecLo r

/-- `NEXTSEC_UPDATE` (R52): the TAI second that NEXTSEC names begins. -/
def execNextsecUpdate (s : State) : Out := done (if s.mode.alive then s.nextSec else s)

/-! ### The mapping (R30) -/

abbrev mapVtHi : Nat := TBU.MAP_VT_HI.MAP_VT.off
abbrev mapTaiHi : Nat := TBU.MAP_TAI_HI.MAP_SEC.off

/-- A write of a HI word of the mapping, in Configure: from the installer the 64-bit value takes effect. -/
def State.mapHi (s : State) (r : Requester) (tai : Bool) (v : Word) : State :=
  let a := if tai then mapTaiHi else mapVtHi
  if s.mode ≠ .configure then s.discard a r .mode
  else
    let t := s.storeReg r a v
    if s.allows r TBU.page.base TBU.MAP_VT_HI.MAP_VT then
      let x := (t.reg a).toNat * 2 ^ 32 + (t.reg (a - 4)).toNat
      let t : State := if tai then { t with tbu := { t.tbu with mapTai := x } } else { t with tbu := { t.tbu with mapVt := x } }
      t.nextSec.mirror (.map t.tbu.mapVt t.tbu.mapTai)
    else t

/-- `MAP_HI_WRITE` (R30). -/
def execMapHiWrite (r : Requester) (tai : Bool) (v : Word) (s : State) : Out :=
  write s r (if tai then mapTaiHi else mapVtHi) fun s => s.mapHi r tai v

/-! ### The reference (R32 to R37, R420) -/

/-- `PLL_UNLOCK` (R32): the lock detector reports loss of lock; its coded fault has its reaction. -/
def execPllUnlock (s : State) : Out :=
  done (if s.mode.powered then ((s.clr TBU.STS.PLL_LOCK).set1 TBU.IRQ_RAW.PLL_UNLOCK).fault 0x01 else s)

/-- `PPS_EDGE` (R33): an active edge in raw cycle `cyc` with raw code `code`. -/
def execPpsEdge (cyc : Nat) (code : Fin 128) (s : State) : Out :=
  if s.mode.alive then
    let s := s.advance cyc
    let u := s.edgeU vernRef cyc code.val
    let s := (s.lossBy u).hit vernRef code.val cyc
    done (s.pulse { edge := u, stamp := s.refStamp u })
  else done s

/-- `TOD_MESSAGE` (R34, R420): a complete message whose first byte started in raw cycle `started`. DESIGN CHOICE (entry 39):
a sentence with a good checksum that is neither ZDA nor RMC with status A is a rejected message. -/
def execTodMessage (bytes : List Byte) (started : Nat) (s : State) : Out :=
  if s.mode.alive then
    match s.decodeTod bytes with
    | none => done s.rejectMessage
    | some m =>
      let s := match m.utc with
        | some n => s.setF TBU.STS.TAI_UTC_SRC n
        | none => s
      done (s.message1 m.sec m.refOk m.next1 started s.raw)
  else done s

/-- `PULSE_WINDOW_CLOSE` (R420): the window of the oldest pulse that no message has named closes. -/
def execPulseWindowClose (s : State) : Out :=
  match s.tbu.pulses with
  | [] => done s
  | p :: ps => done (({ s with tbu := { s.tbu with pulses := ps } } : State).advanceU (p.edge + s.windowU)).rejectPulse

/-- `REF_LOSS` (R37): the loss deadline passes. -/
def execRefLoss (s : State) : Out :=
  match s.lossAt with
  | none => done s
  | some d => done (s.advanceU (d + 1)).lossDue

/-! ### The servo and Holdover (R40 to R43) -/

/-- `KS_FREQ_COPY` (R41): 64 s of LOCKED have passed since the last copy. -/
def execKsFreqCopy (s : State) : Out := done (if s.srv = srvLocked then s.copyFreqHold else s)

/-- `HOLD_LONG` (R43): Holdover has lasted TMAX seconds. -/
def execHoldLong (s : State) : Out :=
  match s.tbu.holdSince with
  | none => done s
  | some t =>
    let n := s.f TBU.HOLD.TMAX
    if s.mode ≠ .holdover || s.tbu.holdTold || n = 0 then done s
    else
      let s := s.advance (t + n * 400000000)
      let s := { s with tbu := { s.tbu with holdTold := true } }
      done ((s.set1 TBU.IRQ_RAW.HOLD_LONG).fault 0x06)

/-- A write of TBU.CTL (R40): a change of SRV_EN turns the servo off to FREE_RUN, FOLLOW excepted, or starts it in FREE_RUN
with integ preset from FREQ. -/
def State.tbuCtl (s : State) (r : Requester) (v : Word) : State :=
  let was := s.srvOn
  let s := s.storeReg r TBU.CTL.SRV_EN.off v
  if was = s.srvOn || s.srv = srvFollow then s
  else if was then s.setSrv srvFree
  else { s.setSrv srvFree with tbu := { s.tbu with integ := s.freqNow.neg } }

/-- `SRV_EN_WRITE` (R40). -/
def execSrvEnWrite (r : Requester) (v : Word) (s : State) : Out :=
  write s r TBU.CTL.SRV_EN.off fun s => s.tbuCtl r v

/-! ### Steps (R44 to R47) -/

abbrev stepHi : Nat := TBU.STEP_HI.CYCLES.off

/-- A write of STEP_HI (R44): the launch of a step. -/
def State.stepLaunch (s : State) (r : Requester) (v : Word) : State :=
  if s.mode ≠ .configure && !s.mode.running then s.discard stepHi r .mode
  else if !s.hasRole r (if s.mode = .configure then .operator else .installer) then s.discard stepHi r .role
  else if s.on TBU.STS.STEP_BUSY then s.discard stepHi r .busy
  else
    let s := (s.storeReg r stepHi v).set1 TBU.STS.STEP_BUSY
    let n := signedOf 48 (s.f TBU.STEP_HI.CYCLES * 2 ^ 32 + s.f TBU.STEP_LO.CYCLES)
    let q : StepReq := { cycles := n, shift := s.on TBU.STEP_HI.DUEMODE, req := r.id, role := s.role r, dep := s.dep }
    { s with tbu := { s.tbu with step := some q } }

/-- `STEP_LAUNCH` (R44). -/
def execStepLaunch (r : Requester) (v : Word) (s : State) : Out := write s r stepHi fun s => s.stepLaunch r v

/-- What a step of `d` units does to the blocks (table of effects of a step); `was` is DEP before it. -/
def State.stepBlocks (s : State) (shift : Bool) (d : Int) (was : Nat) : State :=
  let s := ((s.stepTracks shift d).stepRulers shift d).stepAdc shift d
  let s := ((s.stepShunters shift d).stepEngines shift d).stepTurns shift d
  ((s.stepDispatcher shift d was).stepTwin d).nextSec

/-- A step is due: a boundary after its launch has been processed. -/
def State.stepIsDue (s : State) : Bool :=
  match s.tbu.step with
  | none => false
  | some q => s.dsp.hk && decide (q.dep < s.dsp.bdep)

/-- Step `q` takes effect now (R46). -/
def State.takeStep (s : State) (q : StepReq) : State :=
  let d := q.cycles * 64
  let was := s.dep
  let old := s.vt
  let s := { s with
    vtOff := s.vtOff + d
    tbu := { s.tbu with step := none, stepDue := true, lastStep := some (s.raw * 64), offBefore := s.vtOff } }
  let n := bitsOfInt 48 q.cycles
  let s := ((s.setF TBU.STEPLOG_LO.S n).setF TBU.STEPLOG_HI.S (n / 2 ^ 32)).bump TBU.STEPLOG_HI.COUNT
  let s := (s.clr TBU.STS.COARSE).log 2 q.role q.req 0 0 old s.vt
  s.stepBlocks q.shift d was

/-- `STEP_TAKE_EFFECT` (R46): the step cycle s, cycle c+1 of the first boundary after the launch. -/
def execStepTakeEffect (s : State) : Out :=
  match s.tbu.step with
  | none => done s
  | some q => if s.stepIsDue then done ((s.advanceVt (s.boundary s.dsp.bdep + 64)).takeStep q) else done s

/-- `STEP_DONE` (R46): cycle s+15; an alignment step that waits is launched (R47). -/
def execStepDone (s : State) : Out :=
  match s.tbu.lastStep with
  | none => done s
  | some u =>
    if s.tbu.stepDue then
      let s := s.advance (u / 64 + 15)
      let q := s.tbu.align.map (fun q => { q with dep := s.dep })
      let s := { s with tbu := { s.tbu with stepDue := false, align := none, step := q } }
      done ((s.setF TBU.STS.STEP_BUSY (if q.isSome then 1 else 0)).set1 TBU.IRQ_RAW.STEP_DONE)
    else done s

/-! ### Keep-time (R48, R49) -/

/-- KS_FLAGS.VT_VALID. -/
def State.vtValid (s : State) : Bool := bitsAt (s.f TBU.KS_FLAGS.V) 0 1 = 1

/-- The count in KS_TICKS. -/
def State.ksTicks (s : State) : Nat := s.f TBU.KS_TICKS_HI.V * 2 ^ 32 + s.f TBU.KS_TICKS_LO.V

def State.putTicks (s : State) (n : Nat) : State :=
  (s.setF TBU.KS_TICKS_LO.V n).setF TBU.KS_TICKS_HI.V (n / 2 ^ 32)

/-- `KEEPTIME_LATCH` (R48): the first crystal edge in Keep-time, `delay` units of vehicle time after the entry; with the keepsake
registers written, the core is isolated and PMIC_EN goes low (R376). -/
def execKeeptimeLatch (delay : Nat) (s : State) : Out :=
  if s.mode = .keeptime && !s.tbu.latched then
    let v := (s.vt + delay) % 2 ^ 64
    let s := ((s.setF TBU.KS_VT_LO.V v).setF TBU.KS_VT_HI.V (v / 2 ^ 32)).putTicks 0
    let s := (s.setF TBU.KS_FLAGS.V (s.f TBU.KS_FLAGS.V ||| 1)).toLow .keeptime
    done { s with tbu := { s.tbu with latched := true } }
  else done s

/-- `KS_TICK` (R48). -/
def execKsTick (s : State) : Out :=
  done (if s.mode = .keeptime && s.tbu.latched then s.putTicks (s.ksTicks + 1) else s)

/-- `K32_MEASURE` (R48): a window of 2^18 crystal periods in LOCKED has taken `cycles` cycles. -/
def execK32Measure (cycles : Nat) (s : State) : Out :=
  if s.srv = srvLocked && s.pwr.xtalOk then
    let s := (s.setF TBU.K32.V cycles).setF TBU.KS_K32.V cycles
    done (s.setF TBU.KS_FLAGS.V (s.f TBU.KS_FLAGS.V ||| 4))
  else done s

/-- Vehicle time as Keep-time resumes it (R49). -/
def State.resumed (s : State) : Nat :=
  let k := if bitsAt (s.f TBU.KS_FLAGS.V) 2 1 = 1 then s.f TBU.KS_K32.V else 0xBEBC2000
  s.f TBU.KS_VT_HI.V * 2 ^ 32 + s.f TBU.KS_VT_LO.V + (s.ksTicks * k + 2048) / 4096

/-- `KEEPTIME_RESUME` (R49): the next crystal edge after lock, on return from Keep-time. -/
def execKeeptimeResume (s : State) : Out :=
  if s.mode.powered && s.f PWR.KS_CAUSE.LASTMODE = 2 && s.on TBU.STS.PLL_LOCK && s.vtValid then
    let nom := bitsAt (s.f TBU.KS_FLAGS.V) 2 1 = 0
    let s := s.setVt s.resumed
    let s := (s.setF TBU.KS_FLAGS.V (s.f TBU.KS_FLAGS.V &&& 6)).set1 TBU.STS.COARSE
    let s := if nom then s.set1 TBU.STS.K32_NOM else s
    let s := { s with dsp := { s.dsp with bdep := s.dep } }
    done s.nextSec
  else done s

/-! ### The second pulse (R51) -/

/-- A write of PPSOUT: EN = 1 claims the track named, another track or EN = 0 gives the claim up. -/
def State.ppsout (s : State) (r : Requester) (v : Word) : State :=
  let old := s.f TBU.PPSOUT.TRACK
  let s := s.storeReg r TBU.PPSOUT.EN.off v
  let t := s.f TBU.PPSOUT.TRACK
  let s := if s.tbu.ppsClaim && !(s.on TBU.PPSOUT.EN && t = old) then
      { s.releaseAll Requester.tbu.id with tbu := { s.tbu with ppsClaim := false, ppsSec := none } }
    else s
  if s.on TBU.PPSOUT.EN && !s.ppsHeld then
    let a := TRK.OWN.HOLDER.off + trkAt t
    let s := s.claim .tbu a kindTrack t
    if s.holderAt a = Requester.tbu.id then
      { s.clr TBU.STS.PPSOUT_REFUSED with tbu := { s.tbu with ppsClaim := true, ppsSec := none } }
    else (s.clr TBU.PPSOUT.EN).set1 TBU.STS.PPSOUT_REFUSED
  else s

/-- `PPSOUT_ENABLE` (R51). -/
def execPpsoutEnable (r : Requester) (v : Word) (s : State) : Out :=
  write s r TBU.PPSOUT.EN.off fun s => s.ppsout r v

/-- Second pulses are made now (R51): while the claim is held, in Holdover only with HOLD_EN, and after it from LOCKED on. -/
def State.ppsRuns (s : State) : Bool :=
  s.ppsHeld && s.on TBU.PPSOUT.EN && s.mode.sources
    && (s.on TBU.PPSOUT.HOLD_EN || !s.srvOn || (s.mode ≠ .holdover && !s.tbu.ppsStop))

/-- The instant of the pulse of TAI second `n` (R51). -/
def State.ppsDue (s : State) (n : Nat) : Nat := s.vtOf n (signedOf 16 (s.f TBU.PPSOUT.OFS))

/-- The second whose pulse is loaded next: the first that begins at least 100 ms from now, and after the last one loaded. -/
def State.ppsNext (s : State) : Nat :=
  let c := s.taiSec s.vt + 1
  let c := if 100 * msU ≤ vtDiff (s.ppsDue c) s.vt then c else c + 1
  match s.tbu.ppsSec with
  | none => c
  | some k => max c (k + 1)

/-- `PPSOUT_LOAD` (R51). -/
def execPpsoutLoad (s : State) : Out :=
  let t := s.f TBU.PPSOUT.TRACK
  if s.ppsRuns && s.tmode t = mdPulse then
    let n := s.ppsNext
    let w := s.f TBU.PPSWID.WIDTH * 25600
    let a : Cmp := { time := s.ppsDue n, act := .lead }
    let b : Cmp := { time := (s.ppsDue n + w) % 2 ^ 64, act := .trail }
    let (s, _) := s.putLoad t ((s.track t).loadPair a b)
    done { s with tbu := { s.tbu with ppsSec := some n } }
  else done s

/-! ### Vernier calibration (R53 to R57) -/

/-- The raw codes that the bank units have stamped enter their histograms (R53, R54). -/
def State.calHits (s : State) (cal : List CalHits) : State :=
  cal.foldl (fun s h => s.setVernier (vernCal h.bank.val) ((s.vernier (vernCal h.bank.val)).count h.code.val h.count)) s

/-- `CAL_BUILD` (R56): INTERVAL ms of vehicle time after the last build; `obs` the bank units' observations since then, `cal`
their raw codes. -/
def execCalBuild (obs : List VernierObs) (cal : List CalHits) (s : State) : Out :=
  if s.mode.alive && s.on TBU.CAL.CAL_EN then
    let t := s.tbu.lastBuild + s.f TBU.CAL.INTERVAL * msU
    let s := if s.vt < t then s.advanceVt t else s
    let s := s.calHits cal
    let s := s.tbu.verniers.foldl State.buildOne s
    let s := (obs.foldl State.buildOut s).keepOuts
    done { s with tbu := { s.tbu with built := true, lastBuild := s.vt } }
  else done s

/-- `CAL_FILL_EDGE` (R55): a fill edge enters the histogram of capture vernier `v` only; it is dropped where a live edge has
taken the vernier in the same cycle. -/
def execCalFillEdge (v : Fin 301) (code : Fin 128) (s : State) : Out :=
  done (if s.mode.alive && s.on TBU.CAL.FILL then s.fillHit v.val code.val else s)

/-- `TBU_ABORT` (R58): the effect of an abort of the TBU in progress. -/
def execTbuAbort (s : State) : Out := done (if s.aborting TBU.page.base then s.tbuAbort else s)

/-! ### Registers that read the state -/

/-- The capture verniers in use: those of tracks in a capture mode. -/
def State.capturers (s : State) : List Nat := (List.range 256).filter (fun t => inMode (s.tmode t))

/-- The banks with a routed line. -/
def State.routed (s : State) : List Nat :=
  (List.range 8).filter (fun b => s.lines.any (fun e => e.1 / 16 = b && e.2.src ≠ 0))

/-- Verniers in use without a built table (TBU.CALSTS.UNCAL, R57). -/
def State.uncal (s : State) : Nat :=
  (s.capturers.filter (fun t => (s.vernier t).tap = [])).length
    + (s.routed.filter (fun b => SMap.get (fun _ => []) s.tbu.outTabs b = [])).length

/-- The TBU words that follow state: VT_HI and NEXTSEC_HI are the requester's copies, CAL_OK (from
the first epoch on) and UNCAL the verniers'. -/
def State.liveTbu (s : State) (r : Requester) (o : Nat) (w : Word) : Word :=
  if o = 0x44 || o = 0x84 then s.preg r.id (0x4000 + o)
  else if o = 0x0C then word (putBits w.toNat 6 1 (if s.uncal = 0 && 0 < s.tbu.swapAt then 1 else 0))
  else if o = 0x8C then word (putBits w.toNat 9 11 s.uncal)
  else w

/-- A write of TBU.REF: a selection of the reference pulse's line (R87); a change of RATE ends the count of tenths (R35). -/
def State.refPut (s : State) (r : Requester) (v : Word) : State :=
  let a := TBU.REF.RATE.off
  let t := s.select (s.storeReg r a v) r a
  if t.on TBU.REF.RATE = s.on TBU.REF.RATE then t else { t with tbu := { t.tbu with tenths := none } }

/-- A write to a TBU register. A BW code needs a pulse rate of at least ten times its bandwidth (R39). -/
def State.tbuPut (s : State) (r : Requester) (o : Nat) (v : Word) : State :=
  let a := TBU.page.base + o
  if o = 0x08 then s.tbuCtl r v
  else if o = 0x48 || o = 0x50 then (if s.mode = .configure then s.storeReg r a v else s.discard a r .mode)
  else if o = 0x4C then s.mapHi r false v
  else if o = 0x54 then s.mapHi r true v
  else if o = 0x5C then s.refPut r v
  else if o = 0x64 && (bitsAt v.toNat 0 3 = 7 || (3 < bitsAt v.toNat 0 3 && s.f TBU.REF.RATE ≠ 1)) then s.discard a r .range
  else if o = 0x6C then
    if s.srvOn then s.discard a r .mode
    else s.storeReg r a (word (bitsOfInt 32 (clampCorr (signedOf 32 v.toNat))))
  else if o = 0x78 then s.stepLaunch r v
  else if o = 0x7C then s.ppsout r v
  else s.storeReg r a v

end Sys2Proof.Machine
end

