-- ==== Sys2Proof/Machine/Dispatcher.lean ====
section
/-! DEFINITION. The commands of the dispatcher (file 04, and R12 to R15 of file 01): the port, cancellation, moves,
retirement, flush, housekeeping, the DSP page. The boundary itself stands with the consists that swap at it. -/

namespace Sys2Proof.Machine

/-! ### DEP, the books, the period -/

/-- A read of DEP_LO copies DEP bits 63:32 for the requester (R14). -/
def State.depLo (s : State) (r : Requester) : State × Word :=
  (s.setPreg r.id DSP.DEP_HI.V.off (word (s.dep / 2 ^ 32)), word s.dep)

/-- `DEP_LO_READ` (R14). -/
def execDepLoRead (r : Requester) (s : State) : Out := readAt s r DSP.DEP_LO.V.off fun s => s.depLo r

/-- A read of BOOKS0 copies ACTIVE and RETIRING of the snapshot for the requester (R103). -/
def State.books0 (s : State) (r : Requester) : State × Word :=
  let b := s.dsp.books
  (s.setPreg r.id DSP.BOOKS1.ACTIVE.off (word (b.2.2.2 * 2 ^ 16 + b.2.2.1)), word (b.2.1 * 2 ^ 16 + b.1))

/-- `BOOKS0_READ` (R103). -/
def execBooks0Read (r : Requester) (s : State) : Out := readAt s r DSP.BOOKS0.FREE.off fun s => s.books0 r

/-- A write of DSP.TICK (R12). -/
def State.tick (s : State) (r : Requester) (v : Word) : State :=
  if s.mode ≠ .configure then s.discard DSP.TICK.PERIOD.off r .mode else s.storeReg r DSP.TICK.PERIOD.off v

/-- `TICK_WRITE` (R12). -/
def execTickWrite (r : Requester) (v : Word) (s : State) : Out :=
  write s r DSP.TICK.PERIOD.off fun s => s.tick r v

/-- `REPLACE_COMPLETE` (R13). -/
def execReplaceComplete (s : State) : Out := done (if s.dsp.replacing then s.replaced else s)

/-! ### Insertion and cancellation (R97, R108) -/

abbrev ins0 : Nat := DSP.INS.V.off
abbrev ins3 : Nat := DSP.INS.V.off + 12

/-- The entry that a requester's INS registers hold. -/
def State.insBits (s : State) (r : Requester) : Nat :=
  let w (j : Nat) : Nat := (s.preg r.id (ins0 + 4 * j)).toNat
  w 0 + w 1 * 2 ^ 32 + w 2 * 2 ^ 64 + w 3 * 2 ^ 96

/-- An insertion at the port. -/
def State.enterPort (s : State) (p : PortReq) : State := { s with dsp := { s.dsp with port := s.dsp.port ++ [p] } }

/-- A write of INS3 launches an insertion, unless the requester's previous one is pending, or the mirror queue is full
(R352). -/
def State.insLaunch (s : State) (r : Requester) (v : Word) : State :=
  if s.insPends r then s.discard ins3 r .busy
  else if s.mqFull then (s.discard ins3 r .busy).set1 TWN.IRQ_RAW.MQ_FULL
  else
    let s := s.setPreg r.id ins3 v
    let park := bitsAt (s.preg r.id DSP.INSCTL.PARK.off).toNat 0 1 = 1
    s.enterPort { req := r, bits := s.insBits r, park := park }

/-- `INSERTION_LAUNCH` (R97). -/
def execInsertionLaunch (r : Requester) (v : Word) (s : State) : Out := write s r ins3 fun s => s.insLaunch r v

/-- `INSERTION_SERVE` (R97): the port takes the next waiting insertion. -/
def execInsertionServe (s : State) : Out := done (if s.mode.alive then s.insertServe else s)

/-- A write of CANCEL (R108). -/
def State.cancelPut (s : State) (r : Requester) (v : Word) : State :=
  let a := DSP.CANCEL.INDEX.off
  if s.canPends r then s.discard a r .busy
  else s.cancel r none (bitsAt v.toNat 0 14) (bitsAt v.toNat 31 1 = 1)

/-- `CANCEL_WRITE` (R108). -/
def execCancelWrite (r : Requester) (v : Word) (s : State) : Out :=
  write s r DSP.CANCEL.INDEX.off fun s => s.cancelPut r v

/-- `CANCEL_RESOLVE` (R108): the withdrawal reaches the target. -/
def execCancelResolve (s : State) : Out := done s.cancelResolve

/-! ### Moves and the life of an entry (R98, R100, R107) -/

/-- `DISPATCH_MOVE` (R98). -/
def execDispatchMove (s : State) : Out := done s.dispatch

/-- `HOUSEKEEPING` (R15), after a step that takes effect at the same boundary. -/
def execHousekeeping (s : State) : Out := done (if s.stepIsDue then s else s.housekeeping)

/-- `NOP_DUE` (R100): a NOP that its move has left QUEUED reaches its DUE. -/
def execNopDue (i : SlotId) (s : State) : Out :=
  let x := s.slot i.val
  done (if x.st = .queued && x.place = .nowhere && eAction x.bits = acNop && s.mode.moves then
      (s.advanceVt x.start).retire i.val outActed
    else s)

/-- `ENTRY_RETIRE` (R100): the cycle after the target acted, refused or discarded. -/
def execEntryRetire (i : SlotId) (s : State) : Out :=
  let x := s.slot i.val
  done (match x.acted with
    | some out => if x.st = .active then s.retire i.val out else s
    | none => s)

/-- `CHAIN_UNPARK` (R107): the successor of a RETIRING entry is treated. -/
def execChainUnpark (i : SlotId) (s : State) : Out :=
  let x := s.slot i.val
  done (if x.st = .retiring && x.chain then s.successor i.val else s)

/-! ### RUN, abort, flush (R112, R113) -/

/-- A write of DSP.CTL: RUN set after 0 resumes moving (R112). -/
def State.dspCtl (s : State) (r : Requester) (v : Word) : State :=
  let was := s.on DSP.CTL.RUN
  let s := s.storeReg r DSP.CTL.RUN.off v
  if !was && s.on DSP.CTL.RUN && s.mode.moves && !s.dsp.replacing then s.resumeMoves else s

/-- `DSP_ABORT` (R113): the effect of an abort of the dispatcher in progress. -/
def execDspAbort (s : State) : Out := done (if s.aborting DSP.page.base then s.dspAbort else s)

/-- A write of DSP.CMD.FLUSH (R113). -/
def State.flushGo (s : State) (r : Requester) : State :=
  if s.on DSP.CTL.RUN then s.discard DSP.CMD.FLUSH.off r .mode
  else { s with dsp := { s.dsp with flushing := true } }

/-- `DSP_FLUSH` (R113). -/
def execDspFlush (r : Requester) (s : State) : Out := write s r DSP.CMD.FLUSH.off fun s => s.flushGo r

/-- `FLUSH_COMPLETE` (R113). -/
def execFlushComplete (s : State) : Out := done (if s.dsp.flushing then s.flushed else s)

/-! ### The page -/

/-- A write to a DSP register. -/
def State.dspPut (s : State) (r : Requester) (o : Nat) (v : Word) : State :=
  let a := DSP.page.base + o
  if o = 0x08 then s.dspCtl r v
  else if o = 0x40 then s.tick r v
  else if o = 0x64 then s.insLaunch r v
  else if 0x58 ≤ o && o < 0x64 then s.setPreg r.id a v
  else if o = 0x68 then s.setPreg r.id a (word (bitsAt v.toNat 0 1))
  else if o = 0x70 then s.cancelPut r v
  else if o = 0x98 then { s.storeReg r a v with dsp := { s.dsp with lowArmed := true } }
  else if o = 0x9C then (if bitsAt v.toNat 0 1 = 1 then s.flushGo r else s)
  else s.storeReg r a v

/-- A read of a DSP register with an effect of its own. -/
def State.dspRead (s : State) (r : Requester) (o : Nat) (w : Word) : State × Word :=
  if o = 0x44 then s.depLo r
  else if o = 0x7C then s.books0 r
  else (s, s.liveDsp r o w)

end Sys2Proof.Machine
end

