-- ==== Sys2Proof/Machine/Host.lean ====
section
/-! DEFINITION. The commands of the host streams and messages (file 12: R282, R290 to R303) and the HST page. -/

namespace Sys2Proof.Machine

/-- The address of a register of stream `n`. -/
abbrev stReg (g : Fld) (n : Nat) : Nat := g.off + stAt n

/-! ### Slots and reports (R292, R294) -/

/-- `SLOT_OPEN` (R292). -/
def execSlotOpen (n : StreamId) (s : State) : Out := done (s.slotOpen n.val)

/-- `SLOT_CLOSE` (R292). -/
def execSlotClose (n : StreamId) (s : State) : Out := done (s.slotClose n.val)

/-- `SLOT_TIMEOUT` (R292). -/
def execSlotTimeout (n : StreamId) (s : State) : Out := done (s.slotTimeout n.val)

/-- `STREAM_REPORT` (R294). -/
def execStreamReport (n : StreamId) (s : State) : Out := done (s.streamReport n.val)

/-- `STREAM_DOORBELL` (R293). -/
def execStreamDoorbell (r : Requester) (n : StreamId) (v : Word) (s : State) : Out :=
  write s r (stReg HST.SDB.V n.val) fun s => s.doorbellTo r n.val v

/-- A read of SnPOLL takes the next word of the poll buffer (R298). -/
def State.pollRead (s : State) (n : Nat) : State × Word :=
  let x := s.hstream n
  match x.poll, x.pollNext with
  | [], _ => (s, 0)
  | [w], q :: qs => (s.setHstream n { x with poll := q, pollNext := qs }, w)
  | w :: ws, _ => (s.setHstream n { x with poll := ws }, w)

/-- `STREAM_POLL_READ` (R298). -/
def execStreamPollRead (r : Requester) (n : StreamId) (s : State) : Out :=
  readAt s r (stReg HST.SPOLL.V n.val) fun s => s.pollRead n.val

/-! ### Vectors (R300) -/

/-- A write of VACK: the vector's message again, if it is still asserted. -/
def State.vack (s : State) (v : Nat) : State := if s.vectors.contains v then s.message v else s

/-- `VACK_WRITE` (R300). -/
def execVackWrite (r : Requester) (v : Word) (s : State) : Out :=
  write s r HST.VACK.V.off fun s => s.vack (bitsAt v.toNat 0 5)

/-- A vector unmasked: its withheld message is sent if the vector is asserted. -/
def State.unmask (s : State) (v : Nat) : State :=
  let was := s.hst.pba.contains v
  let h := { s.hst with
    unmasked := if s.hst.unmasked.contains v then s.hst.unmasked else v :: s.hst.unmasked
    pba := s.hst.pba.filter (fun w => w ≠ v) }
  let s := { s with hst := h }
  if was && s.vectors.contains v then s.message v else s

/-- `MSIX_UNMASK` (R300): the host unmasks a vector. -/
def execMsixUnmask (v : Fin 32) (s : State) : Out := done (if s.on HST.LINK.UP then s.unmask v.val else s)

/-! ### BAR2 and the configuration header (R282, R283) -/

/-- The word at offset `o` of BAR2: the MSI-X table, four words to a vector with its mask in bit 0 of the fourth, and the
pending bit array. PRESUMED (entry 45): the layout of an entry and of the array is that of PCI. -/
def State.bar2Read (s : State) (o : Nat) : Word :=
  if o < 0x200 then
    if o / 4 % 4 = 3 then (if s.hst.unmasked.contains (o / 16) then 0 else 1) else s.msixWord (o / 16) (o / 4 % 4)
  else if o / 4 = 0x400 then word ((s.hst.pba.map (fun v => 2 ^ v)).sum)
  else 0

/-- A write of BAR2 with the lanes `be`: a table entry's address and data, or its mask. -/
def State.bar2Write (s : State) (o : Nat) (v : Word) (be : Nat) : State :=
  if 0x200 ≤ o then s
  else if o / 4 % 4 = 3 then
    if bitsAt be 0 1 = 0 then s
    else if bitsAt v.toNat 0 1 = 0 then s.unmask (o / 16)
    else { s with hst := { s.hst with unmasked := s.hst.unmasked.filter (fun w => w ≠ o / 16) } }
  else
    let i := o / 4
    { s with hst := { s.hst with msix := SMap.put (fun _ => 0) s.hst.msix i (mergeBe (SMap.get (fun _ => 0) s.hst.msix i) v be) } }

/-- Word `i` of the configuration header (R282): the identifiers of device and vendor, class code and revision, header type 0,
the two 64-bit non-prefetchable memory BARs. PRESUMED (entry 45): the places are those of PCI; the words that R282 does not
speak of read 0. -/
def State.cfgWord (s : State) (i : Nat) : Word :=
  if i = 0 then word (0x8256 * 2 ^ 16 + s.sec.otp.vendor % 2 ^ 16)
  else if i = 2 then 0x118000A1
  else if i = 4 ∨ i = 6 then 4
  else 0

/-! ### The link (R282, R301, R302) -/

/-- `PCIE_LINK_UP` (R282): training ends with `width` lanes at `speed`. -/
def execPcieLinkUp (width speed : Nat) (s : State) : Out :=
  let fits := (width = 1 || width = 2) && 1 ≤ speed && speed ≤ 3
  done (if fits && s.mode.powered && s.mode ≠ .boot && s.pwr.held = none && !s.on HST.LINK.LINKSEL then
      ((s.set1 HST.LINK.UP).setF HST.LINK.WIDTH width).setF HST.LINK.SPEED speed
    else s)

/-- `LINK_DOWN` (R301). -/
def execLinkDown (s : State) : Out := done (if s.on HST.LINK.UP then s.linkDown else s)

/-- `HST_ABORT` (R302): the effect of an abort of HST in progress. -/
def execHstAbort (s : State) : Out := done (if s.aborting HST.page.base then s.hstAbort else s)

/-! ### The page -/

/-- The highest rate of a stream (table of host streams). -/
def capMax (n : Nat) : Nat := if n = 0 then 640 else if n = 1 then 800 else 1500

/-- A write of SnCFG: SLOTSZ, LOGN and POLL hold while EN = 1, and a change of them is captured (R303); EN set restarts the
counts where R301 asks for it. -/
def State.streamCfg (s : State) (r : Requester) (n : Nat) (v : Word) : State :=
  let a := stReg HST.SCFG.EN n
  let w := (s.reg a).toNat
  let was := s.stOn n HST.SCFG.EN
  let x := v.toNat
  let kept := putBits (putBits x 30 1 (bitsAt w 30 1)) 15 9 (bitsAt w 15 9)
  if rangeBad (fieldsAt a) x then s.discard a r .range
  else
    let t := s.storeReg r a (if was then word kept else v)
    let t := if was && kept ≠ x then t.discard a r .busy else t
    if !was && t.stOn n HST.SCFG.EN then t.streamEnable n else t

/-- A write of SnSRC moves the log ring of stream 0 or 2, which begins empty; a record that the writer holds goes to the new
ring. -/
def State.streamSrc (s : State) (r : Requester) (n : Nat) (v : Word) : State :=
  let a := stReg HST.SSRC.BASE n
  if n ≠ 0 && n ≠ 2 then s
  else
    let t := s.storeReg r a v
    if t.reg a = s.reg a then t
    else
      let t := t.setWriter n ((t.writerOf n).map (fun w => { w with done := 0 }))
      if n = 0 then { t with hst := { t.hst with stampWp := 0, stampRp := 0 } }
      else { t with hst := { t.hst with optWp := 0, optRp := 0 } }

/-- A write to a HST register. -/
def State.hstPut (s : State) (r : Requester) (o : Nat) (v : Word) : State :=
  let a := HST.page.base + o
  let n := (o - 0x100) / 0x40
  let k := (o - 0x100) % 0x40
  if o = 0x10 then (s.storeReg r a v).repCleared (bitsAt v.toNat 0 8)
  else if o = 0x48 then s.vack (bitsAt v.toNat 0 5)
  else if o < 0x100 then s.storeReg r a v
  else if k = 0 then s.streamCfg r n v
  else if k = 4 then (if capMax n < bitsAt v.toNat 0 11 then s.discard a r .range else s.storeReg r a v)
  else if k = 0x18 then s.doorbellTo r n v
  else if (8 ≤ k && k ≤ 0x14) || k = 0x28 then
    if s.stOn n HST.SCFG.EN then s.discard a r .busy
    else if k = 0x28 then s.streamSrc r n v
    else s.storeReg r a v
  else s.storeReg r a v

/-- A read of a HST register with an effect of its own. -/
def State.hstRead (s : State) (o : Nat) (w : Word) : State × Word :=
  if 0x100 ≤ o && o < 0x300 && o % 0x40 = 0x30 then s.pollRead ((o - 0x100) / 0x40) else (s, s.liveHst o w)

end Sys2Proof.Machine
end

