-- ==== Sys2Proof/Machine/Lines.lean ====
section
/-! DEFINITION. The commands of the junction matrix (file 03): line configuration, releases by the installer, bank
supplies. -/

namespace Sys2Proof.Machine

/-- The address of a line's LN_CFG, or its LN_TRIM. -/
def lnReg (n : Nat) (trim : Bool) : Nat := (if trim then JNC.LN_TRIM.TRIM.off else JNC.LN_CFG.SRC.off) + lnAt n

/-- A write of LN_CFG or LN_TRIM (R84, R87, R88): accepted for the next boundary. A consist's swap passes the role held at
staging, and the value comes into force at once. -/
def State.lnWrite (s : State) (r : Requester) (n : Nat) (trim : Bool) (v : Word) (swap : Option Role) : State :=
  let a := lnReg n trim
  let w := (s.reg a).toNat
  let old := bitsAt w 16 10
  let new := bitsAt v.toNat 16 10
  if s.oddOfPair n then s.discard a r .mode
  else if rangeBad (fieldsAt a) v.toNat || (!trim && !srcOk new) then s.discard a r .range
  else if swap = none && !s.allows r JNC.page.base JNC.LN_CFG.SRC then s.storeReg r a v
  else if !trim && old ≠ 0 && new ≠ 0 && old ≠ new then
    s.refuseClaim r a kindLine n (s.line n).claimant (s.line n).src new
  else
    let role := swap.getD (s.role r)
    let w' := (fieldsAt a).foldl (fun w g => putBits w g.lo g.wid (bitsAt v.toNat g.lo g.wid)) w
    -- every swapped value is logged, a direct write where it changes the register (R310, R341)
    let s := if w' = w && swap.isNone then s else (s.setReg a (word w')).log 1 role r.id 0 a w w'
    let s := if !trim && old ≠ new then s.claimLine n r.id role.code else s
    if swap = none then s else s.lineApply n

/-- `JNC_RELEASE` (R80): the installer frees a track, ruling unit, window or line. A write that would not act has no effect,
whoever makes it (R8). -/
def State.jncFree (s : State) (r : Requester) (v : Word) : State :=
  let a := JNC.RELEASE.KIND.off
  let kind := bitsAt v.toNat 28 4
  let n := bitsAt v.toNat 18 10
  let need : Role := if s.sealed JNC.page.base then .maker else .installer
  let top := if kind = kindLine then 128 else if kind = kindTrack then 256 else 32
  if kind = kindFanout || 4 < kind || top ≤ n then s.discard a r .range
  else if kind = kindLine then
    let a := lnReg n false
    let w := (s.reg a).toNat
    -- the odd line of a pair reads SRC = 0 (R84)
    if s.oddOfPair n || bitsAt w 16 10 = 0 then s
    else if !s.hasRole r need then s.discard JNC.RELEASE.KIND.off r .role
    else
      let w' := putBits w 16 10 0
      ((s.setReg a (word w')).claimLine n r.id (s.role r).code).log 1 (s.role r) r.id 0 a w w'
  else
    let a := if kind = kindTrack then TRK.OWN.HOLDER.off + trkAt n
      else if kind = kindRuler then RUL.OWN.HOLDER.off + pgAt n else ADC.WOWN.HOLDER.off + 16 * n
    if s.holderAt a = 0 then s
    else if !s.hasRole r need then s.discard JNC.RELEASE.KIND.off r .role
    else
      let w := (s.reg a).toNat
      let s := s.setHolder a 0 0
      let s := if kind = kindRuler then s.clr RUL.OWN.TTACC (pgAt n) else s
      s.log 1 (s.role r) r.id 0 a w (s.reg a).toNat

def execJncRelease (r : Requester) (v : Word) (s : State) : Out :=
  write s r JNC.RELEASE.KIND.off fun s => s.jncFree r v

/-- `JNC_ABORT` (R316): the effect of an abort of JNC in progress. -/
def execJncAbort (s : State) : Out := done (if s.aborting JNC.page.base then s.jncAbort else s)

/-- A bank whose supply disagrees with VSEL, where it did not before (R83). -/
def State.bankFault (s s0 : State) (b : Nat) : State :=
  if s.mode.powered && s0.bankOk b && !s.bankOk b then (s.set1 JNC.IRQ_RAW.BANK_FAULT).fault 0x04 else s

/-- `BANK_SUPPLY_CHANGE` (R83): the monitor of a bank measures `v`; a level that disagrees with VSEL raises BANK_FAULT. -/
def execBankSupplyChange (b : BankId) (v : Supply) (s : State) : Out :=
  let t := { s with banks := SMap.put (fun _ => Supply.absent) s.banks b.val v }
  done (if t.mode.powered && !t.bankOk b.val then (t.set1 JNC.IRQ_RAW.BANK_FAULT).fault 0x04 else t)

/-- A write of JNC.BANKn, in Configure only (R83, R84). -/
def State.bankWrite (s : State) (r : Requester) (b : Nat) (v : Word) : State :=
  let a := JNC.BANK.VSEL.off + 4 * b
  if s.mode ≠ .configure then s.discard a r .mode
  else if b < 6 && bitsAt v.toNat 2 1 = 1 then s.discard a r .range
  else (s.storeReg r a v).bankFault s b

/-- A write to the JNC page. -/
def State.jncPut (s : State) (r : Requester) (o : Nat) (v : Word) (swap : Option Role) : State :=
  let a := JNC.page.base + o
  if 0x40 ≤ o && o ≤ 0x5C then s.bankWrite r ((o - 0x40) / 4) v
  else if o = 0x7C then s.jncFree r v
  else if 0x800 ≤ o && o < 0x1000 then
    let n := (o - 0x800) / 16
    if o % 16 = 0 then s.lnWrite r n false v swap
    else if o % 16 = 4 then s.lnWrite r n true v swap
    else if s.oddOfPair n then s.discard a r .mode else s
  else s.storeReg r a v

/-- LN_STS of a line, read in state `s`: the level at its input buffer may be a free value (R85). -/
def State.lineSts (s : State) (n : Nat) : State × Word :=
  let x := s.line n
  let (t, lvl) := s.readPad n
  let b (v : Bool) (k : Nat) : Nat := if v then 2 ^ k else 0
  (t, word (x.claimant * 2 ^ 24 + x.crole * 2 ^ 22 + min (s.consumers n) 4 * 2 ^ 16 + b (s.bankOk (n / 16)) 2
    + b (s.driven n ≠ .hiz) 1 + b lvl 0))

/-- A read of the JNC page: the words that follow state; an odd line of a pair reads 0 (R84). -/
def State.jncRead (s : State) (o : Nat) (w : Word) : State × Word :=
  let oks (p : Nat → Bool) : Nat := ((List.range 8).map (fun b => if p b then 2 ^ b else 0)).sum
  if o = 0x0C then (s, word (oks s.bankOk))
  else if o = 0x60 then (s, word (oks s.bankOk + oks (fun b => s.supply b = .v33) * 2 ^ 8))
  else if 0x800 ≤ o && s.oddOfPair ((o - 0x800) / 16) then (s, 0)
  else if 0x800 ≤ o && o % 16 = 8 then s.lineSts ((o - 0x800) / 16)
  else (s, w)

end Sys2Proof.Machine
end

