-- ==== Sys2Proof/Machine/Memory.lean ====
section
/-! DEFINITION. The memory commands (file 11): grants, check-bit rewrites, scrubbing, the background test, the abort of MEM. -/

namespace Sys2Proof.Machine

/-- `SIDING_GRANT` (R266): the next free cycle of siding `d`; its one access goes to the first waiting requester. -/
def execSidingGrant (d : SidingId) (s : State) : Out := done (s.grant d.val)

/-- The bank that holds the word of a check-bit key. -/
def State.bankOf (s : State) (key : Nat) : Nat :=
  let k := key / 2 ^ 20
  if k = stLog then key % 2 ^ 20 / 32768 else if k = stRelief then s.mem.retired.getD s.mem.bgtSid
  else if k = stIcb then 16 else 32 + k

/-- Nothing waits for the bank of a stored word. -/
def State.bankIdle (s : State) (key : Nat) : Bool :=
  let k := key / 2 ^ 20
  let i := key % 2 ^ 20
  if k = stLog then !(s.mem.waits.any (fun w => w.sid = i / 32768))
  else if k = stRelief then !(s.mem.waits.any (fun w => s.mem.onRelief w.sid))
  else if k = stIcb then s.mem.portA.isEmpty && s.mem.portB.isEmpty
  else true

/-- The effect of a rewrite: the first corrected word whose bank is idle gets fresh check bits in that bank's next free
cycle, and is counted. -/
def State.rewrite (s : State) : State :=
  match s.mem.rewrites.find? s.bankIdle with
  | none => s
  | some key =>
    let b := s.bankOf key
    let s := (s.advance (s.bankFree b)).useBank b
    let s := { s with mem := { s.mem with rewrites := s.mem.rewrites.erase key } }
    let s := (s.bump MEM.ECCCNT.CORR).set1 MEM.IRQ_RAW.CORR
    if s.ecc (key / 2 ^ 20) (key % 2 ^ 20) = 1 then s.setEcc (key / 2 ^ 20) (key % 2 ^ 20) 0 else s

/-- `ECC_REWRITE` (R263): a corrected word is rewritten in the next cycle in which its bank is idle. -/
def execEccRewrite (s : State) : Out := done s.rewrite

/-- The DMA-class access of siding `d` that has waited longest and is not yet counted. -/
def State.starving (s : State) (d : Nat) : Option Wait :=
  s.mem.waits.find? (fun w => w.sid = d && w.kind.isDma && !w.counted)

/-- `DMA_STARVE` (R268): a DMA-class access of siding `d` has waited STARVE_THR cycles. The clock moves to that cycle. -/
def execDmaStarve (d : SidingId) (s : State) : Out :=
  match s.starving d.val with
  | none => done s
  | some w =>
    let s := s.advance (w.since + s.f MEM.ARB.STARVE_THR)
    let s := { s with mem := { s.mem with waits := s.mem.waits.map (fun x => if x = w then { x with counted := true } else x) } }
    let s := (s.bump MEM.CNT_EVT.HI).setF MEM.STARVE.SIDING d.val
    done ((s.set1 MEM.IRQ_RAW.DMA_STARVE).noteWait (s.raw - w.since))

/-- `ICB_ACCESS` (R269): the next free cycle of the interchange bank, one access on each port. -/
def execIcbAccess (s : State) : Out := done s.icbCycle

/-- A store that R262 marks "Scrubber". -/
def scrubbed (k : Nat) : Bool := 2 ≤ k

/-- Nothing waits for the bank of a scrubbed store. -/
def State.scrubFree (s : State) (k : Nat) : Bool :=
  if k = stIcb then s.mem.portA.isEmpty && s.mem.portB.isEmpty else true

/-- `SCRUB_READ` (R265): the scrubber of a store reads and checks its next word, SCRUB_INT cycles after the last, or in the
cycle in which the bank is next free. -/
def execScrubRead (store : Fin 8) (s : State) : Out :=
  let k := store.val
  if s.on MEM.CTL.SCRUB_EN && scrubbed k && s.scrubFree k then
    let i := SMap.get (fun _ => 0) s.mem.scrubAt k
    let b := if k = stIcb then 16 else 32 + k
    let s := s.advance (max (SMap.get (fun _ => 0) s.mem.scrubDue k) (s.bankFree b))
    let s := (s.useBank b).checked k i
    done { s with mem := { s.mem with
      scrubAt := SMap.put (fun _ => 0) s.mem.scrubAt k ((i + 1) % storeWords k)
      scrubDue := SMap.put (fun _ => 0) s.mem.scrubDue k (s.raw + s.f MEM.CTL.SCRUB_INT) } }
  else done s

/-- The copy of the borrowed siding has read its last word, in phase `p`. -/
def State.copyOver (s : State) (p : Nat) : Bool := s.mem.bgtPhase = p && s.mem.bgtPtr = 32768 && s.mode ≠ .halt

/-- The last word of the copy register written, and the clock in the cycle after. -/
def State.copyDone (s : State) : State :=
  let s := if s.mem.copyReg.isSome then (s.advance (s.mem.copyAt + 1)).copyFlush else s
  s.advance (s.mem.copyAt + 1)

/-- `BGT_COPY_END` (R274): the last word has been written to the relief, and service switches to it in the next cycle. -/
def execBgtCopyEnd (s : State) : Out :=
  if s.copyOver 0 then
    let s := s.copyDone
    done { s with mem := { s.mem with bgtPhase := 1, bgtPtr := 0, testEnds := s.raw + 327680 } }
  else done s

/-- `BGT_TEST_END` (R276, R277): the march test of the home bank ends, 327,680 cycles after it began; a siding that fails
is retired, and the relief is its home. -/
def execBgtTestEnd (passed : Bool) (s : State) : Out :=
  if s.mem.bgtPhase = 1 && s.mode ≠ .halt then
    let d := s.mem.bgtSid
    let s := (s.advance s.mem.testEnds).zeroHome d
    if passed then done { s with mem := { s.mem with bgtPhase := 2, bgtPtr := 0, copyReg := none, copyAt := s.raw - 1 } }
    else
      let s := { s with mem := { s.mem with bgtPhase := 3, retired := some d } }
      let s := ((s.set1 MEM.IRQ_RAW.BGT_FAIL).set1 MEM.STS.RETIRED).setF MEM.BGT_STS.RSIDING d
      done (s.fault 0x08)
  else done s

/-- `BGT_RESTORE_END` (R274, R278): service returns to the home bank in the cycle after the last word; the next siding's COPY
begins one cycle later, or the test stops. -/
def execBgtRestoreEnd (s : State) : Out :=
  if s.copyOver 2 then
    let s := s.copyDone
    let s := if s.mem.bgtSid = 15 then (s.incr MEM.BGT_ROT.V).set1 MEM.IRQ_RAW.ROTATION else s
    if s.on MEM.BGT.EN then done s.bgtNext
    else done { s with mem := { s.mem with bgtPhase := 3, bgtPtr := 0 } }
  else done s

/-- The effect of `execBgtEnWrite`. -/
def State.bgtEn (s : State) (r : Requester) (v : Word) : State :=
  let a := MEM.BGT.EN.off
  if bitsAt v.toNat 31 1 = s.f MEM.BGT.EN then s
  else if s.hasRole r .maker then
    let old := (s.reg a).toNat
    let s := s.setF MEM.BGT.EN (bitsAt v.toNat 31 1)
    let s := s.log 1 (s.role r) r.id 0 a old (s.reg a).toNat
    if s.on MEM.BGT.EN && s.mem.bgtPhase = 3 && !s.on MEM.STS.RETIRED then s.bgtNext else s
  else (s.discard a r .role)

/-- `BGT_EN_WRITE` (R278): EN is RWL for the maker; EN = 1 starts COPY of the next siding where the test has stopped and
no siding is retired. -/
def execBgtEnWrite (r : Requester) (v : Word) (s : State) : Out :=
  write s r MEM.BGT.EN.off fun s => s.bgtEn r v

/-- `MEM_ABORT` (R280): the effect of an abort of MEM in progress. -/
def execMemAbort (s : State) : Out := done (if s.aborting MEM.page.base then s.memAbort else s)

end Sys2Proof.Machine
end

