-- ==== Sys2Proof/Machine/Engines.lean ====
section
/-! DEFINITION. The commands of the engines but for their words (file 06): pending calls, signals, doorbells, starts,
data and results that arrive, waits, scrubbing, resume, abort, the MEN pages. -/

namespace Sys2Proof.Machine

abbrev menReg (g : Fld) (e : Nat) : Nat := g.off + pgAt e

/-! ### What becomes pending (R147 to R149) -/

/-- `CALL_PENDING` (R147). -/
def execCallPending (e : EngineId) (s : State) : Out := done (if s.mode.alive then s.callPends e.val else s)

/-- `EVENT_SIGNAL` (R148). -/
def execEventSignal (s : State) : Out := done s.eventSignal

/-- A write of MEN.DB (R149). -/
def State.ring (s : State) (r : Requester) (e : Nat) (v : Word) : State :=
  let a := menReg MEN.DB.VEC e
  let k := bitsAt v.toNat 30 2
  let q := menReg MEN.DBV.EN e + 4 * k
  let x := s.engine e
  let w := (s.reg q).toNat
  if bitsAt w 31 1 = 0 ∨ !s.enOn e MEN.CTL.EN ∨ x.closed ∨ s.mode = .standby then s.discard a r .mode
  else if (x.db k).isSome then s.discard a r .busy
  else
    s.setEngine e (x.setDb k (some {
      lvl := bitsAt w 16 3, addr := bitsAt w 0 13, g1 := bitsAt v.toNat 0 24, s0 := s.vt, since := s.raw }))

/-- `DOORBELL` (R149). -/
def execDoorbell (r : Requester) (e : EngineId) (v : Word) (s : State) : Out :=
  write s r (menReg MEN.DB.VEC e.val) fun s => s.ring r e.val v

/-! ### The start of a routine (R151 to R153) -/

/-- The invocation word (R151). -/
def g0Word (cls : InvClass) (lvl prio count src idx : Nat) : Word :=
  let c : Nat := match cls with | .call => 0 | .late => 1 | .event => 2 | .doorbell => 3
  word (c * 2 ^ 30 + lvl * 2 ^ 27 + prio * 2 ^ 25 + count * 2 ^ 21 + src * 2 ^ 14 + idx)

/-- What an invocation brings its bank: g0, g1, s0. -/
def Engine.given (x : Engine) (i : Inv) : Word × Nat × Nat :=
  match i.cls with
  | .event =>
    match x.ev i.num with
    | some p => (g0Word .event i.lvl 0 p.count i.num p.idx, p.g1, p.s0)
    | none => (0, 0, 0)
  | .doorbell =>
    match x.db i.num with
    | some p => (g0Word .doorbell i.lvl 0 1 i.num 0, p.g1, p.s0)
    | none => (0, 0, 0)
  | c =>
    match x.calls.find? (fun d => d.slot = i.num && d.inv = some i) with
    | some d => (g0Word c i.lvl d.prio 1 0 d.slot, d.param, d.start)
    | none => (0, 0, 0)

/-- The pending place that an invocation leaves. -/
def Engine.without (x : Engine) (i : Inv) : Engine :=
  match i.cls with
  | .event => x.setEv i.num none
  | .doorbell => x.setDb i.num none
  | _ => { x with calls := x.calls.filter (fun d => !(d.slot = i.num && d.inv = some i)) }

/-- A routine's bank at its start (R151): the registers kept but for g0, g1 and s0, the stack empty, the flags cleared. -/
def Bank.begin_ (b : Bank) (addr : Nat) (g : Word × Nat × Nat) : Bank :=
  let k : Bank := { g := b.g, st := b.st, page := addr / 512, ttr := b.ttr }
  ((k.setG 0 g.1).setG 1 (word g.2.1)).setS 0 g.2.2

/-- The invocation that starts next starts in its idle cycle; its first word executes in the next one (R153). -/
def State.startRoutine (s : State) (e : Nat) : State :=
  match (s.engine e).startable with
  | none => s
  | some i =>
    let s := s.advance (max (i.since + 1) (s.engine e).next)
    let x := s.engine e
    let rt : Routine := {
      cls := i.cls, slot := i.num, pc := i.addr
      dep := i.dep }
    let b := (x.bank i.lvl).begin_ i.addr (x.given i)
    let x := ((x.without i).setBank i.lvl b).setAt i.lvl (some rt)
    s.setEngine e { x with cur := i.lvl, next := s.raw + 1, st := .running }

/-- `ROUTINE_START` (R151, R152). -/
def execRoutineStart (e : EngineId) (s : State) : Out := done (if s.mode.alive then s.startRoutine e.val else s)

/-! ### Data and results (R168, R189, R190) -/

/-- The read data of engine `e` that arrives first. -/
def State.firstArrival (s : State) (e : Nat) : Option Arrival :=
  (s.mem.arrivals.filter (fun a => a.eng = e)).foldl
    (fun o a => match o with
      | none => some a
      | some b => if a.time < b.time then some a else some b) none

/-- Read data lands in the bank of the routine that issued it (R190). -/
def State.arrive (s : State) (e : Nat) : State :=
  match s.firstArrival e with
  | none => s
  | some a =>
    let s := s.advance a.time
    let x := s.engine e
    let s := s.setEngine e (x.setBank a.lvl ((x.bank a.lvl).put a.dst a.val a.wide))
    { s with mem := { s.mem with arrivals := s.mem.arrivals.erase a } }

/-- `READ_DATA_ARRIVAL` (R168). -/
def execReadDataArrival (e : EngineId) (s : State) : Out := done (s.arrive e.val)

/-- A timetable result reaches TTR (R189). -/
def State.ttrArrive (s : State) (e : Nat) : State :=
  let x := s.engine e
  match x.tt with
  | none => s
  | some w =>
    match w.res with
    | none => s
    | some (v, t) =>
      let s := s.advance t
      s.setEngine e ({ x with tt := none }.setBank w.lvl { x.bank w.lvl with ttr := v })

/-- `TTR_RESULT` (R189). -/
def execTtrResult (e : EngineId) (s : State) : Out := done (s.ttrArrive e.val)

/-! ### Waits (R159, R160, R186) -/

/-- Cycles left of the departure: P − o (R170). -/
def State.budgetLeft (s : State) : Nat := s.dsp.period - s.cyc % s.dsp.period

/-- A read of the bank of level `l` of engine `e` is outstanding (R185). -/
def State.readsOut (s : State) (e l : Nat) : Bool :=
  let mine (w : Wait) : Bool := match w.kind with | .engRead k _ _ => k = l && w.req.id = 0x10 + e | _ => false
  s.mem.arrivals.any (fun a => a.eng = e && a.lvl = l && s.raw < a.time) || s.mem.waits.any mine || s.mem.portA.any mine

/-- A condition source (R185) of level `l` of engine `e`; `w` gives codes 0x10 to 0x1F. -/
def State.condSrc (s : State) (e l c : Nat) (w : Word) : Bool :=
  let b := (s.engine e).bank l
  if 0x10 ≤ c then bitsAt w.toNat (c - 0x10) 1 = 1
  else
    match c with
    | 0x0 => true
    | 0x1 => b.z
    | 0x2 => b.n
    | 0x3 => b.c
    | 0x4 => b.v
    | 0x5 => b.sat
    | 0x6 => b.tmo
    | 0x7 => b.acc
    | 0x8 => b.stepped
    | 0x9 => decide (s.budgetLeft ≤ s.enF e MEN.BUDGET.LOW)
    | 0xA => bitsAt b.ttr.toNat 31 1 = 1
    | 0xB => bitsAt b.ttr.toNat 30 1 = 1
    | 0xC => b.f0
    | 0xD => b.f1
    | 0xE => b.f2
    | _ => s.readsOut e l

/-- The condition of a wait holds now; a watch comparator sees a write in the cycle after its store (R186). -/
def State.waitHolds (s : State) (e l : Nat) (w : EngWait) : Bool := s.condSrc e l w.cond (s.icbSeen w.watch) != w.pol

/-- The raw cycle in which BUDGET_LOW next changes: it becomes true late in the departure, false at the boundary. -/
def State.budgetTurn (s : State) (e : Nat) : Nat :=
  let k := s.enF e MEN.BUDGET.LOW
  if s.budgetLeft ≤ k then s.raw + s.budgetLeft else s.raw + (s.budgetLeft - k)

/-- The first raw cycle from now on in which the condition of a wait holds, with what is known now. -/
def State.condAt (s : State) (e l : Nat) (w : EngWait) : Option Nat :=
  let t := s.advance (w.since + 1)
  if t.waitHolds e l w then some t.raw
  else if w.cond = 9 then
    let u := t.advance (t.budgetTurn e)
    if u.waitHolds e l w then some u.raw else none
  else
    let u := t.advance (t.raw + 1)
    if 0x10 ≤ w.cond ∧ u.waitHolds e l w then some u.raw else none

/-- The first raw cycle at or after a wait's deadline, the value of its stamp register as it stands (R159). -/
def State.deadlineAt (s : State) (e l : Nat) (w : EngWait) : Option Nat :=
  w.dl.map (fun k => max (max (w.since + 1) s.raw) ((s.rawOf (((s.engine e).bank l).sr k) + 63) / 64))

/-- A wait resolves in raw cycle `r` (R159, R160). -/
def State.resolve (s : State) (e l r : Nat) (timeout race : Bool) : State :=
  let s := s.advance r
  let x := s.engine e
  match x.at_ l with
  | none => s
  | some rt =>
    let x := (x.setBank l { x.bank l with tmo := timeout }).setAt l (some { rt with wait := none, pc := rt.pc + 1, woke := r })
    let s := s.setEngine e x.settled
    if race then (s.enIrq e MEN.IRQ_RAW.TIMEOUT_RACE).bump MEN.CNT_EVT.HI 1 (pgAt e) else s

/-- The wait of level `l` of an engine whose waits are watched: a halted engine's are not. -/
def State.waitOf (s : State) (e l : Nat) : Option EngWait :=
  let x := s.engine e
  if x.st = .halted then none else (x.at_ l).bind Routine.wait

/-- The condition holds, no later than the deadline. -/
def State.waitCond (s : State) (e l : Nat) : State :=
  match s.waitOf e l with
  | none => s
  | some w =>
    match s.condAt e l w, s.deadlineAt e l w with
    | none, _ => s
    | some c, none => s.resolve e l c false false
    | some c, some d => if c < d then s.resolve e l c false false else if c = d then s.resolve e l c false true else s

/-- The deadline arrives, no later than the condition. -/
def State.waitDead (s : State) (e l : Nat) : State :=
  match s.waitOf e l with
  | none => s
  | some w =>
    match s.deadlineAt e l w, s.condAt e l w with
    | none, _ => s
    | some d, none => s.resolve e l d true false
    | some d, some c => if d < c then s.resolve e l d true false else if c = d then s.resolve e l c false true else s

/-- `WAIT_CONDITION` (R159). -/
def execWaitCondition (e : EngineId) (l : Fin 8) (s : State) : Out := done (s.waitCond e.val l.val)

/-- `WAIT_DEADLINE` (R159). -/
def execWaitDeadline (e : EngineId) (l : Fin 8) (s : State) : Out := done (s.waitDead e.val l.val)

/-! ### Scrubbing, resume, abort (R171, R172, R174) -/

def State.micMark (s : State) (k : Nat) : Nat := SMap.get (fun _ => 0) s.stores.micEcc k
def State.setMicMark (s : State) (k m : Nat) : State :=
  { s with stores := { s.stores with micEcc := SMap.put (fun _ => 0) s.stores.micEcc k m } }
def State.nanMark (s : State) (k : Nat) : Nat := SMap.get (fun _ => 0) s.stores.nanEcc k
def State.setNanMark (s : State) (k m : Nat) : State :=
  { s with stores := { s.stores with nanEcc := SMap.put (fun _ => 0) s.stores.nanEcc k m } }

/-- A corrected microword is counted and rewritten (R172). -/
def State.micFix (s : State) (e k : Nat) : State :=
  if s.micMark k = 1 then
    ((s.setMicMark k 0).bump MEN.ECC0.MICRO_CORR 1 (pgAt e)).enIrq e MEN.IRQ_RAW.ECC_CORR
  else s

/-- A corrected nanoword of copy `p` is counted, on both pages of its pair, and rewritten. -/
def State.nanFix (s : State) (e k : Nat) : State :=
  if s.nanMark k = 1 then
    let p := e / 2 * 2
    (((s.setNanMark k 0).bump MEN.ECC0.NANO_CORR 1 (pgAt p)).bump MEN.ECC0.NANO_CORR 1 (pgAt (p + 1))).enIrq e
      MEN.IRQ_RAW.ECC_CORR
  else s

/-- The scrubber of engine `e` reads one microword, and one nanoword of the pair's copy where `e` is the engine of the
pair that scrubs it: the even one, or the odd one alone. -/
def State.scrubStores (s : State) (e : Nat) : State :=
  let x := s.engine e
  let s := s.micFix e (e * 8192 + x.micAt)
  let s := if x.micAt = 8191 then s.incr MEN.ECC1.PASSES (pgAt e) else s
  let nano := e % 2 = 0 ∨ !s.enOn (e - 1) MEN.CTL.SCRUB
  let s := if nano then s.nanFix e (e / 2 * 2048 + x.nanAt) else s
  s.setEngine e { x with
    micAt := (x.micAt + 1) % 8192
    nanAt := if nano then (x.nanAt + 1) % 2048 else x.nanAt }

/-- `MICROSTORE_SCRUB` (R172). -/
def execMicrostoreScrub (e : EngineId) (s : State) : Out :=
  done (if s.mode.powered && s.enOn e.val MEN.CTL.SCRUB then s.scrubStores e.val else s)

/-- A write of MEN.CTL. -/
def State.menCtl (s : State) (r : Requester) (e : Nat) (v : Word) : State :=
  let s := s.storeReg r (menReg MEN.CTL.EN e) v
  if bitsAt v.toNat 3 1 = 1 then s.engResume e else s

/-- `MEN_RESUME` (R171): a write of CTL that keeps its fields and sets RESUME. -/
def execMenResume (r : Requester) (e : EngineId) (s : State) : Out :=
  let a := menReg MEN.CTL.EN e.val
  write s r a fun s => s.menCtl r e.val (s.reg a ||| 8)

/-- `MEN_ABORT` (R174): the effect of an abort of the engine in progress. -/
def execMenAbort (e : EngineId) (s : State) : Out :=
  done (if s.aborting (MEN.page.base + pgAt e.val) then s.menAbort e.val else s)

/-! ### The page -/

/-- Source kinds with the number of their indices (table of event sources). -/
def evRange (kind : Nat) : Nat :=
  match kind with
  | 0 => 256
  | 1 => 256
  | 2 => 8
  | 3 => 8
  | 4 => 16
  | 5 => 3
  | 6 => 1
  | 7 => 1
  | 8 => 16
  | _ => 0

/-- A write of an event vector (R148). -/
def State.evPut (s : State) (r : Requester) (e k : Nat) (v : Word) : State :=
  let a := menReg MEN.EV.EN e + 4 * k
  if evRange (bitsAt v.toNat 27 4) ≤ bitsAt v.toNat 19 8 then s.discard a r .range
  else
    let was := s.reg a
    let s := s.storeReg r a v
    if bitsAt was.toNat 31 1 = 0 ∧ bitsAt v.toNat 31 1 = 1 then
      let x := s.engine e
      s.setEngine e { x with evOn := SMap.put (fun _ => 0) x.evOn k (s.raw + 1) }
    else s

/-- A write to a MEN register. -/
def State.menPut (s : State) (r : Requester) (e o : Nat) (v : Word) : State :=
  if o = 0x08 then s.menCtl r e v
  else if 0x60 ≤ o && o < 0x80 then s.evPut r e ((o - 0x60) / 4) v
  else if o = 0x90 then s.ring r e v
  else s.storeReg r (MEN.page.base + pgAt e + o) v

end Sys2Proof.Machine
end

