-- ==== Sys2Proof/Machine/Power.lean ====
section
/-! DEFINITION. The commands of modes, power and reset (file 16). -/

namespace Sys2Proof.Machine

/-! ### PWR.CMD (R369, R370) -/

/-- OP codes of PWR.CMD. -/
abbrev opConfigure : Nat := 1
abbrev opRun : Nat := 2
abbrev opSafe : Nat := 3
abbrev opHibernate : Nat := 4
abbrev opKeeptime : Nat := 5
abbrev opReset : Nat := 6
abbrev opFactory : Nat := 7

/-- The role that the table of mode transitions asks for an OP in the present mode; nothing where the mode does not allow
it. -/
def State.cmdRole (s : State) (op : Nat) : Option Role :=
  let m := s.mode
  if op = opReset then some .installer
  else if op = opConfigure then
    (if m.running then some .operator else if m = .safe then some .installer else none)
  else if op = opRun then
    (if m = .configure then some .operator else if m = .safe then some .installer else none)
  else if op = opSafe then (if m = .configure || m.running then some .operator else none)
  else if op = opFactory then (if m = .configure then some .maker else none)
  else if op = opKeeptime && !s.pwr.xtalOk then none
  else if m = .configure || m.running || m = .safe then some .operator
  else none

/-- A move that begins with GLB.ABORT (R370). -/
def State.cmdAborts (s : State) (op : Nat) : Bool :=
  (s.mode.running && (op = opConfigure || op = opHibernate || op = opKeeptime))
    || (s.mode = .safe && (op = opHibernate || op = opKeeptime))

/-- An accepted PWR.CMD; Safe-state and Boot are entered in the cycle after the write (R375, R380). -/
def State.cmdGo (s : State) (op : Nat) : State :=
  if op = opReset then (s.advance (s.raw + 1)).toBoot 4 none
  else if op = opSafe then ((s.advance (s.raw + 1)).enterSafe 2 0).setF PWR.CMDSTS.RESULT 1
  else if s.cmdAborts op then
    ({ s with pwr := { s.pwr with cmd := some op } }.setF PWR.CMDSTS.RESULT 0).abortAll
  else s.finishCmd op

/-- A write of PWR.CMD. -/
def State.pwrCmd (s : State) (r : Requester) (op : Nat) : State :=
  let a := PWR.CMD.OP.off
  if op = 0 ∨ 7 < op then s.discard a r .range
  else
    match s.cmdRole op with
    | none => s.discard a r .mode
    | some need =>
      if !s.hasRole r need then s.discard a r .role
      else if s.pwr.cmd.isSome then s.discard a r .busy
      else s.cmdGo op

/-- A PWR.CMD row of the table: a write of PWR.CMD with its OP. -/
def pwrRow (r : Requester) (op : Nat) (s : State) : Out := write s r PWR.CMD.OP.off fun s => s.pwrCmd r op

/-- `PWR_CONFIGURE` (R369). -/
def execPwrConfigure (r : Requester) (s : State) : Out := pwrRow r opConfigure s

/-- `PWR_RUN` (R369). -/
def execPwrRun (r : Requester) (s : State) : Out := pwrRow r opRun s

/-- `PWR_SAFE` (R375). -/
def execPwrSafe (r : Requester) (s : State) : Out := pwrRow r opSafe s

/-- `PWR_HIBERNATE` (R376). -/
def execPwrHibernate (r : Requester) (s : State) : Out := pwrRow r opHibernate s

/-- `PWR_KEEPTIME` (R376). -/
def execPwrKeeptime (r : Requester) (s : State) : Out := pwrRow r opKeeptime s

/-- `PWR_RESET` (R380). -/
def execPwrReset (r : Requester) (s : State) : Out := pwrRow r opReset s

/-- `PWR_FACTORY` (R374). -/
def execPwrFactory (r : Requester) (s : State) : Out := pwrRow r opFactory s

/-- `PWR_ABORT` (R316): the effect of an abort of PWR in progress. -/
def execPwrAbort (s : State) : Out := done (if s.aborting PWR.page.base then s.pwrAbort else s)

/-! ### Supplies and low-power modes (R369, R376 to R378) -/

/-- `VDD_AO_POWER_ON` (R369): PMIC_EN is driven high until Boot while NOAUTO = 0 (R404). -/
def execVddAoPowerOn (s : State) : Out :=
  done (if s.mode = .off then
      { s with mode := .hibernate, pwr := { s.pwr with pmicEn := !s.on PWR.KS_WAKECFG.NOAUTO } }
    else s)

/-- VDD_AO lost: Off, with every keepsake register at 0 but WEN (R380). What stands outside the core's supplies stays. -/
def State.powerOff (s : State) : State :=
  let s := { s.coreLost .off with regs := [] }
  let s := { s with pwr := { s.pwr with coreOk := false, xtalOk := false, pmicEn := false } }
  s.set1 PWR.KS_WAKECFG.WEN

/-- `POR_AO` (R380). -/
def execPorAo (s : State) : Out := done s.powerOff

/-- A core-group or analog supply out of range: from Boot on the device is held in reset. -/
def State.coreFails (s : State) : State :=
  let s := { s with pwr := { s.pwr with coreOk := false } }
  if s.mode.powered then s.toBoot 2 (some 2) else s

/-- `BROWNOUT` (R380). -/
def execBrownout (s : State) : Out := done s.coreFails

/-- `RESET_PIN_ASSERT` (R380): no effect before Boot. -/
def execResetPinAssert (s : State) : Out :=
  let s := { s with pwr := { s.pwr with pinLow := true } }
  done (if s.mode.powered then s.toBoot 3 (some 3) else s)

/-- `RESET_PIN_RELEASE` (R380): the device goes on, unless its supplies still hold it. -/
def execResetPinRelease (s : State) : Out :=
  let s := { s with pwr := { s.pwr with pinLow := false } }
  done (if s.pwr.held = some 3 then
      { s with pwr := { s.pwr with held := if s.pwr.coreOk then none else some 2 } }
    else s)

/-- A wake raises PMIC_EN (R377). -/
def State.wakes (s : State) : State := { s with pwr := { s.pwr with pmicEn := true, waking := some 1 } }

/-- `WAKE` (R377): WAKE at its level for 10 µs, with WEN = 1. -/
def execWake (s : State) : Out :=
  done (if (s.mode = .hibernate || s.mode = .keeptime) && s.on PWR.KS_WAKECFG.WEN then s.wakes else s)

/-- The alarm value. -/
def State.alarm (s : State) : Nat := s.f PWR.KS_ALARM_HI.V * 2 ^ 32 + s.f PWR.KS_ALARM_LO.V

/-- `KEEPTIME_ALARM` (R377): KS_TICKS has reached the alarm value, with AEN = 1. -/
def execKeeptimeAlarm (s : State) : Out :=
  done (if s.mode = .keeptime && s.on PWR.KS_WAKECFG.AEN && s.ksTicks = s.alarm then s.wakes else s)

/-- `WAKE_FAIL` (R377): the supplies are not in range 50 ms after a wake. -/
def execWakeFail (s : State) : Out :=
  done (if s.pwr.waking.isSome && !s.pwr.coreOk then
      ({ s with pwr := { s.pwr with pmicEn := false, waking := none } }).setF PWR.KS_CAUSE.CAUSE 6
    else s)

/-- RESET_N low at an entry to Boot is a reset source from there on (R380). -/
def State.pinHolds (s : State) : State := if s.pwr.pinLow then s.toBoot 3 (some 3) else s

/-- The core supplies are in range: a waking device boots, Hibernate with NOAUTO = 0 too; a device held by them goes
on. DEDUCED (entry 30): CAUSE reads 0 where Hibernate ends without a wake. -/
def State.coreGood (s : State) : State :=
  let s := { s with pwr := { s.pwr with coreOk := true } }
  match s.pwr.waking with
  | some c => (s.toBoot c none).pinHolds
  | none =>
    if s.mode = .hibernate && !s.on PWR.KS_WAKECFG.NOAUTO then (s.toBoot 0 none).pinHolds
    else if s.pwr.held = some 2 then ({ s with pwr := { s.pwr with held := none } } : State).pinHolds
    else s

/-- `CORE_SUPPLY_GOOD` (R378). -/
def execCoreSupplyGood (s : State) : Out := done (if s.mode = .off then s else s.coreGood)

/-- `XTAL32_FAIL` (R376): XTAL32_OK falls. -/
def execXtal32Fail (s : State) : Out :=
  let t := { s with pwr := { s.pwr with xtalOk := false } }
  done (if s.pwr.xtalOk && s.mode.powered then t.set1 PWR.IRQ_RAW.XTAL32_FAIL else t)

/-- `XTAL32_OK` (R369): the crystal runs within its limits. -/
def execXtal32Ok (s : State) : Out :=
  done (if s.mode = .off then s else { s with pwr := { s.pwr with xtalOk := true } })

/-! ### Debug-halt (R371, R373) -/

/-- A mode that a JTAG halt request leaves. -/
def Mode.haltable (m : Mode) : Bool := m = .configure || m.running || m = .standby || m = .safe

/-- `JTAG_HALT` (R373): an installer session on JTAG. -/
def execJtagHalt (s : State) : Out :=
  done (if s.mode.haltable && s.hasRole .jtag .installer && s.pwr.held = none then
      let prev := s.mode.code
      let s := s.preempt
      ({ s with pwr := { s.pwr with prev := prev } } : State).toMode .halt
    else s)

/-- Debug-halt left: a reaction held in it acts, otherwise the mode held before returns (R371). -/
def State.resumeMode (s : State) : State := s.leaveBy fun s => s.toMode (modeOf s.pwr.prev)

/-- `JTAG_RESUME` (R373). -/
def execJtagResume (s : State) : Out := done (if s.mode = .halt && s.hasRole .jtag .installer then s.resumeMode else s)

/-! ### The watchdog (R379) -/

/-- A write of PWR.KICK. -/
def State.kickPut (s : State) (r : Requester) (v : Word) : State :=
  if v ≠ 0x4B1C then s.discard PWR.KICK.V.off r .range else { s with pwr := { s.pwr with kick := s.raw } }

/-- `WDOG_KICK` (R379). -/
def execWdogKick (r : Requester) (v : Word) (s : State) : Out := write s r PWR.KICK.V.off fun s => s.kickPut r v

/-- Raw cycles in a millisecond. -/
abbrev msCycles : Nat := 400000

/-- A period passes without a kick. -/
def State.wdogMissed (s : State) : State :=
  let s := s.advance (s.pwr.kick + s.f PWR.WDOG.PERIOD * msCycles)
  let s := { s with pwr := { s.pwr with kick := s.raw } }
  let s := (s.set1 PWR.IRQ_RAW.WDOG).bump PWR.CNT_EVT.HI
  if s.on PWR.WDOG.ACTION then s.toBoot 5 none else s.enterSafe 3 0

/-- `WDOG_EXPIRY` (R379). -/
def execWdogExpiry (s : State) : Out := done (if s.on PWR.WDOG.EN && s.mode.watched then s.wdogMissed else s)

/-- A write of PWR.WDOG: the period starts when the watchdog is enabled. -/
def State.wdogPut (s : State) (r : Requester) (v : Word) : State :=
  let was := s.on PWR.WDOG.EN
  let s := s.storeReg r PWR.WDOG.EN.off v
  if !was && s.on PWR.WDOG.EN then { s with pwr := { s.pwr with kick := s.raw } } else s

/-! ### The page -/

/-- A write to a PWR register. -/
def State.pwrPut (s : State) (r : Requester) (o : Nat) (v : Word) : State :=
  if o = 0x40 then s.pwrCmd r (bitsAt v.toNat 0 4)
  else if o = 0x48 then s.wdogPut r v
  else if o = 0x4C then s.kickPut r v
  else s.storeReg r (PWR.page.base + o) v

end Sys2Proof.Machine
end

