-- ==== Sys2Proof/Machine/Security.lean ====
section
/-! DEFINITION. The commands of boot, images, keys and sessions (file 14). -/

namespace Sys2Proof.Machine

/-! ### Boot (R324 to R326) -/

/-- The PLL ratio of a REFSEL code (R31), as a fraction; a code that fails parity selects 25 MHz (R331). -/
def Otp.ratio (o : Otp) : Nat × Nat :=
  let c := if o.refParity then o.refsel % 4 else 0
  if c = 0 then (16, 1) else if c = 1 then (125, 6) else if c = 2 then (200, 13) else (10, 1)

/-- The supply monitors at Boot, where VSEL is at its reset value: a bank whose supply disagrees or is absent (R83). -/
def State.banksAtBoot (s : State) : State :=
  if (List.range 8).all s.bankOk then s else (s.set1 JNC.IRQ_RAW.BANK_FAULT).fault 0x04

/-- The clear of R279 with its length in CLRTIME: a free value, at least the 1,024 row cycles and at most 25 µs of CLK400. -/
def State.clearTimed (s : State) : State := (s.clearStores.setF MEM.CLRTIME.V (1024 + s.drawn % 8977)).draw

/-- Steps 1 to 3 of Boot: stores cleared, OTP read, BOOTNONCE drawn, the PLL programmed. -/
def State.bootSteps (s : State) : State :=
  let s := s.clearTimed
  let s := { s with glb := { s.glb with nonce := s.drawn % 2 ^ 32 } }.draw
  let s := if s.sec.otp.bad then (s.set1 SEC.OTPSTS.OTP_ERR).fault 0x0C else s
  let s := { s with sec := { s.sec with boot := 1, tries := 1 }, tbu := { s.tbu with ratio := s.sec.otp.ratio } }
  s.tbuBoot.banksAtBoot

/-- `BOOT_ENTRY` (R324): Umaust boot starts at step 1; a clear that fails stops it in Boot with reason CLEAR. -/
def execBootEntry (clearOk : Bool) (s : State) : Out :=
  if s.mode = .boot && s.sec.boot = 0 && s.pwr.held = none then
    if clearOk then done s.bootSteps
    else done ({ s.clearTimed with sec := { s.sec with boot := 2 } }.setF SEC.LOADSTS.REASON 0x0E)
  else done s

/-- `PLL_RELOCK_RETRY` (R391): the PLL has not locked within the bound; it is reprogrammed and tried again. -/
def execPllRelockRetry (s : State) : Out :=
  if s.mode = .boot && s.sec.boot = 1 then done { s with sec := { s.sec with tries := s.sec.tries + 1 } } else done s

/-- Steps 4 to 6 of Boot: the relief's march, the straps, Provision, and the flash load where MODE0 = 0. -/
def State.bootProvision (s : State) (marchOk : Bool) (straps : Nat) : State :=
  let s := if marchOk then s
    else
      let s := ((s.set1 MEM.STS.RETIRED).setF MEM.BGT_STS.RSIDING 0xF).set1 MEM.IRQ_RAW.BGT_FAIL
      { s with mem := { s.mem with bgtPhase := 3 } }.fault 0x08
  let s := s.setF HST.LINK.LINKSEL (bitsAt straps 1 1)
  let s := { s with sec := { s.sec with boot := 3, straps := straps } }
  let s := s.toMode .provision
  if bitsAt straps 0 1 = 0 then
    { s with sec := { s.sec with load := some { src := 1, replace := false, role := .none, req := 0 } } }
  else s

/-- `PLL_LOCK` (R324): the lock detector reports lock; Boot goes on to Provision. -/
def execPllLock (marchOk : Bool) (straps : BitVec 2) (s : State) : Out :=
  let s := s.set1 TBU.STS.PLL_LOCK
  if s.mode = .boot && s.sec.boot = 1 then done (s.bootProvision marchOk straps.toNat) else done s

/-! ### Images (R326 to R334) -/

/-- The effect of `execSecLoad`. -/
def State.secLoad (s : State) (r : Requester) (v : Word) : State :=
  let a := SEC.CMD.OP.off
  if bitsAt v.toNat 28 4 ≠ 1 then (s.discard a r .range)
  else if s.sec.load.isSome || s.sec.otpJob.isSome then (s.discard a r .busy)
  else
    let job (rep : Bool) : Option LoadJob := some { src := 3, replace := rep, role := s.role r, req := r.id }
    if s.mode = .provision then { s with sec := { s.sec with load := job false } }
    else if s.mode = .configure then
      if s.hasRole r .maker then
        { s with sec := { s.sec with load := job true } }.abortAll
      else (s.discard a r .role)
    else (s.discard a r .mode)

/-- `SEC_LOAD` (R327, R334): a load from the log store, in Provision by any role, in Configure from a maker session. -/
def execSecLoad (r : Requester) (v : Word) (s : State) : Out :=
  write s r SEC.CMD.OP.off fun s => s.secLoad r v

/-- Step 7 of Boot: engines IDLE and entry to Configure. -/
def State.gatePassed (s : State) : State := s.engIdleAll.toMode .configure

/-- What the end of a load does to the mode: Configure on a pass, Provision otherwise. -/
def State.loadMode (s : State) (reason : Nat) : State :=
  if reason = 0 then s.gatePassed else if s.mode = .provision then s else s.toMode .provision

/-- `LOAD_COMPLETE` (R328): the load in progress ends: a flash load with the primary copy, or the alternate where the
primary fails; a log store load with its image, once the abort of R334 has completed. -/
def execLoadComplete (s : State) : Out :=
  match s.sec.load with
  | none => done s
  | some job =>
    if job.replace && s.aborting GLB.page.base then done s
    else if job.src = 3 then
      let v := s.tryImage 3
      done ((s.loadEnd job 3 0 v).loadMode v.reason)
    else
      let p := s.tryImage 1
      if p.reason = 0 then done ((s.loadEnd job 1 0 p).loadMode 0)
      else
        let v := s.tryImage 2
        done ((s.loadEnd job 2 p.reason v).loadMode v.reason)

/-- The effect of `execSecOverride`. -/
def State.secOverride (s : State) (r : Requester) : State :=
  let a := SEC.CMD.OP.off
  if s.sec.otpJob.isSome then (s.discard a r .busy)
  else if !s.hasRole r .maker then (s.discard a r .role)
  else if s.mode ≠ .provision || !s.on SEC.LOADSTS.GATED || !gateReason (s.f SEC.LOADSTS.REASON) then
    (s.discard a r .mode)
  else
    let why := s.f SEC.LOADSTS.REASON
    let s := { s with sec := { s.sec with image := s.sec.held, held := none } }
    let s := (s.clr SEC.LOADSTS.GATED).set1 SEC.LOADSTS.OVERRIDDEN
    let s := s.log 7 (s.role r) r.id why 0 0 (verPair s.sec.image)
    s.gatePassed

/-- `OVERRIDE` (R333): a maker session passes the gate for the image held. -/
def execSecOverride (r : Requester) (s : State) : Out :=
  write s r SEC.CMD.OP.off fun s => s.secOverride r

/-! ### OTP (R335) -/

/-- `KEY_PROG` (R335). -/
def execKeyProg (r : Requester) (s : State) : Out := write s r SEC.CMD.OP.off fun s => s.otpStart r 5
/-- `KEY_REVOKE` (R335). -/
def execKeyRevoke (r : Requester) (s : State) : Out := write s r SEC.CMD.OP.off fun s => s.otpStart r 6
/-- `ARB_ADVANCE` (R335). -/
def execArbAdvance (r : Requester) (s : State) : Out := write s r SEC.CMD.OP.off fun s => s.otpStart r 7
/-- `REFSEL_PROG` (R335). -/
def execRefselProg (r : Requester) (s : State) : Out := write s r SEC.CMD.OP.off fun s => s.otpStart r 8

/-- `OTP_DONE` (R335): the operation ends, and the logbook records the OTP word before and after. -/
def execOtpDone (s : State) : Out :=
  match s.sec.otpJob with
  | none => done s
  | some j =>
    let old := s.sec.otp.status
    let s := { s with sec := { s.sec with otp := s.otpApply j, otpJob := none } }
    let s := s.set1 SEC.IRQ_RAW.OTP_DONE
    done (s.log 8 .maker j.req j.op j.op old s.sec.otp.status)

/-! ### Sessions (R337 to R339) -/

/-- A read of NONCE_LO: a fresh nonce of the requester. -/
def State.nonceLo (s : State) (r : Requester) : State × Word :=
  let n := s.drawn % 2 ^ 64
  let s := s.draw
  let s := s.setSession r { s.session r with nonce := some (n, s.raw) }
  (s.setPreg r.id SEC.NONCE_HI.V.off (word (n / 2 ^ 32)), word n)

/-- `NONCE_LO_READ` (R337): a fresh nonce for the requester; its high word is copied to the requester's NONCE_HI. -/
def execNonceLoRead (r : Requester) (s : State) : Out :=
  readAt s r SEC.NONCE_LO.V.off fun s => s.nonceLo r

/-- The effect of `execSessionOpen`. -/
def State.sessOpen (s : State) (r : Requester) : State :=
  let a := SEC.SESS.OP.off
  let x := s.session r
  let x := if (x.lockout.map (fun t => decide (t ≤ s.raw))) = some true then { x with lockout := none, fails := 0 } else x
  if !hasSession r then (s.discard a r .role)
  else if s.lockedOut r then ((s.setSession r { x with result := 8 }).discard a r .busy)
  else if x.verify.isSome then (s.discard a r .busy)
  else
    let n := x.nonce.filter (fun n => s.raw < n.2 + minuteCycles)
    (s.setSession r { x with verify := some (s.tokenOf r, n), nonce := none })

/-- `SESSION_OPEN` (R337, R338): the token the requester has written goes to verification. -/
def execSessionOpen (r : Requester) (s : State) : Out :=
  write s r SEC.SESS.OP.off fun s => s.sessOpen r

/-- `SESSION_VERIFY_COMPLETE` (R338): the role is raised, or the failure recorded. -/
def execSessionVerifyComplete (r : Requester) (s : State) : Out :=
  match (s.session r).verify with
  | none => done s
  | some (b, n) =>
    let res := s.tokenResult b n
    if res = 0 then done (s.openSession r b) else done (s.failSession r b res)

/-- `SESSION_CLOSE` (R339). -/
def execSessionClose (r : Requester) (s : State) : Out :=
  write s r SEC.SESS.OP.off fun s => s.endSession r 1

/-- `SESSION_EXPIRY` (R339): the lifetime ends on the raw counter; the clock moves there. -/
def execSessionExpiry (r : Requester) (s : State) : Out :=
  match (s.session r).stop with
  | none => done s
  | some t => done ((s.advance t).endSession r 2)

/-- `SESSION_LOCKOUT_END` (R338): sixty seconds after the lockout began the requester may open again. -/
def execSessionLockoutEnd (r : Requester) (s : State) : Out :=
  match (s.session r).lockout with
  | none => done s
  | some t =>
    let s := s.advance t
    done (s.setSession r { s.session r with lockout := none, fails := 0 })

/-- `SEC_ABORT` (R316): the effect of an abort of SEC in progress. -/
def execSecAbort (s : State) : Out := done (if s.aborting SEC.page.base then s.secAbort else s)

end Sys2Proof.Machine
end

