-- ==== Sys2Proof/Machine/Rulers.lean ====
section
/-! DEFINITION. The commands of the ruling units (file 08): reloads, edges, starts, stops, faults, claims, the RUL pages.
-/

namespace Sys2Proof.Machine

/-- The address of a register of unit `u`. -/
abbrev rulReg (g : Fld) (u : Nat) : Nat := g.off + pgAt u

/-! ### Periods and edges (R194 to R204) -/

/-- `RU_RELOAD` (R199). -/
def execRuReload (u : RulerId) (s : State) : Out := done (s.ruReload u.val)

/-- `RU_OUTPUT_EDGE` (R195 to R198). -/
def execRuOutputEdge (u : RulerId) (hi : Bool) (s : State) : Out := done (s.ruEdge u.val hi)

/-- `RU_START_INSTANT` (R203). -/
def execRuStartInstant (u : RulerId) (s : State) : Out := done (s.ruStartInstant u.val)

/-- `RU_STOP_INSTANT` (R204). -/
def execRuStopInstant (u : RulerId) (s : State) : Out := done (s.ruStopInstant u.val)

/-- `RU_RUN_END` (R194). -/
def execRuRunEnd (u : RulerId) (s : State) : Out := done (s.ruRunEnd u.val)

/-! ### Direct starts and stops (R203, R204) -/

/-- A mode in which writes that would start an output are discarded (R372). -/
def Mode.quiet : Mode → Bool
  | .configure => true
  | .safe => true
  | _ => false

/-- A 64-bit time in a LO register below its HI word `v`. -/
def State.pairTime (s : State) (lo : Nat) (v : Word) : Nat := v.toNat * 2 ^ 32 + (s.reg lo).toNat

/-- A write of RUL.ST_HI loads a direct start (R203). -/
def State.ruDirectStart (s : State) (r : Requester) (u : Nat) (v : Word) : State :=
  let a := rulReg RUL.ST_HI.V u
  if s.mode.quiet then s.discard a r .mode
  else if s.ruNoStart u then (s.ruRefused u).discard a r .busy
  else
    let s := s.storeReg r a v
    s.ruLoadStart u { time := s.pairTime (a - 4) v, n := s.ruCount u 0, loaded := s.raw }

/-- `RU_ST_HI_WRITE` (R203). -/
def execRuStHiWrite (r : Requester) (u : RulerId) (v : Word) (s : State) : Out :=
  write s r (rulReg RUL.ST_HI.V u.val) fun s => s.ruDirectStart r u.val v

/-- A write of RUL.SP_HI loads a direct stop (R204). -/
def State.ruDirectStop (s : State) (r : Requester) (u : Nat) (v : Word) : State :=
  let a := rulReg RUL.SP_HI.V u
  if s.ruNoStop u then (s.ruRefused u).discard a r .busy
  else
    let s := s.storeReg r a v
    s.ruLoadStop u { time := s.pairTime (a - 4) v }

/-- `RU_SP_HI_WRITE` (R204). -/
def execRuSpHiWrite (r : Requester) (u : RulerId) (v : Word) (s : State) : Out :=
  write s r (rulReg RUL.SP_HI.V u.val) fun s => s.ruDirectStop r u.val v

/-! ### MODE, CTL, OVR (R200, R202, R208, R214) -/

/-- A write of RUL.MODE: while the unit is OFF or IDLE with nothing pending (R214). -/
def State.ruModePut (s : State) (r : Requester) (u : Nat) (v : Word) : State :=
  let a := rulReg RUL.MODE.CODE u
  let x := s.ruler u
  if (x.st ≠ .off && x.st ≠ .idle) || x.start.isSome || x.stop.isSome then s.discard a r .busy
  else if rangeBad (fieldsAt a) v.toNat then s.discard a r .range
  else
    let s := s.storeReg r a v
    (s.setRuler u { x with st := if s.ruMode u = ruOff then .off else .idle }).ruLatch u

/-- `RUL_MODE_WRITE` (R214). -/
def execRulModeWrite (r : Requester) (u : RulerId) (v : Word) (s : State) : Out :=
  write s r (rulReg RUL.MODE.CODE u.val) fun s => s.ruModePut r u.val v

/-- A write of RUL.CTL: a release of UPD_HOLD counts from this cycle (R200); CLRFLT ends FAULTED, and is turned away while
the fault input is active (R202). -/
def State.ruCtlPut (s : State) (r : Requester) (u : Nat) (v : Word) : State :=
  let a := rulReg RUL.CTL.UPD_HOLD u
  let x := s.ruler u
  let clear : Bool := bitsAt v.toNat 2 1 = 1 && x.st = .faulted
  if clear && x.fltIn then s.discard a r .busy
  else
    let held := s.ruOn u RUL.CTL.UPD_HOLD
    let s := s.storeReg r a v
    s.setRuler u { x with
      st := if clear then .idle else x.st
      freed := if held && !s.ruOn u RUL.CTL.UPD_HOLD then s.raw else x.freed }

/-- `UPD_HOLD_WRITE` (R200). -/
def execUpdHoldWrite (r : Requester) (u : RulerId) (v : Word) (s : State) : Out :=
  write s r (rulReg RUL.CTL.UPD_HOLD u.val) fun s => s.ruCtlPut r u.val v

/-- `RU_CLRFLT` (R202): a write of CTL with CLRFLT = 1 that keeps the other fields. -/
def execRuClrFlt (r : Requester) (u : RulerId) (s : State) : Out :=
  let a := rulReg RUL.CTL.UPD_HOLD u.val
  write s r a fun s => s.ruCtlPut r u.val (s.reg a ||| 4)

/-- A write of RUL.OVR: FORCE acts at once, the other fields through the shadow (R199, R208). -/
def State.ruOvrPut (s : State) (r : Requester) (u : Nat) (v : Word) : State :=
  let a := rulReg RUL.OVR.SWAP u
  let n := v.toNat
  let force := bitsAt n 4 1 = 1
  let both := bitsAt n 5 2
  if force && both = 3 && !s.ruOn u RUL.LIM.BOTHON then s.discard a r .range
  else if force && both ≠ 0 && s.mode.quiet then s.discard a r .mode
  else
    let was := s.ruOn u RUL.OVR.FORCE
    let x := { s.ruler u with ovr := some (bitsAt n 0 3, s.raw) }
    let y : Ruler :=
      if was && !force then
        { x with mask := some (s.raw + 4), resume := none, hi := { x.hi with shown := false }, lo := { x.lo with shown := false } }
      else x
    let t := s.setReg a (word (putBits (s.reg a).toNat 4 3 (bitsAt n 4 3)))
    s.ruShow (t.setRuler u y) u (s.raw * 64)

/-! ### The fault input (R209) -/

/-- What the fault line of unit `u` carries at level `active` of its input. -/
def State.ruFaultLine (s : State) (u : Nat) (active : Bool) : State :=
  s.outside (s.ruF u RUL.FLT.LINE) (active != s.ruOn u RUL.FLT.POL)

/-- `RU_FAULT_INPUT` (R209). -/
def execRuFaultInput (u : RulerId) (s : State) : Out :=
  done (if s.mode.alive && s.ruOn u.val RUL.FLT.EN && !(s.ruler u.val).fltIn then (s.ruFaultLine u.val true).ruFault u.val else s)

/-- `RU_FAULT_RELEASE` (R209). -/
def execRuFaultRelease (u : RulerId) (s : State) : Out :=
  done (if (s.ruler u.val).fltIn then (s.ruFaultLine u.val false).ruFaultEnd u.val else s)

/-- A write of RUL.FLT: the line becomes or ceases to be watched (R87, R209). -/
def State.ruFltPut (s : State) (r : Requester) (u : Nat) (v : Word) : State :=
  let a := rulReg RUL.FLT.EN u
  let t := s.select (s.storeReg r a v) r a
  if (t.ruler u).fltIn && !t.ruOn u RUL.FLT.EN then t.ruFaultEnd u else t.ruLatch u

/-! ### Claims (R212, R213) -/

/-- A write of RUL.OWN: CLAIM, RELEASE and TTACC, which the owner may write and which clears with a change of holder. -/
def State.ruOwnPut (s : State) (r : Requester) (u : Nat) (v : Word) : State :=
  let a := rulReg RUL.OWN.HOLDER u
  let h := s.holderAt a
  let s := s.ownWrite r a kindRuler u v
  let s := if s.holderAt a = h then s else s.clr RUL.OWN.TTACC (pgAt u)
  if s.holderAt a = r.id && bitsAt v.toNat 30 2 ≠ 3 then s.setF RUL.OWN.TTACC (bitsAt v.toNat 29 1) (pgAt u)
  else if bitsAt v.toNat 30 2 = 0 then s.ownerCaught r a
  else s

/-- `RU_CLAIM` (R212). -/
def execRuClaim (r : Requester) (u : RulerId) (s : State) : Out :=
  let a := rulReg RUL.OWN.HOLDER u.val
  write s r a fun s => s.ruOwnPut r u.val (word (2 ^ 31 + s.ruF u.val RUL.OWN.TTACC * 2 ^ 29))

/-- `RU_RELEASE` (R212). -/
def execRuRelease (r : Requester) (u : RulerId) (s : State) : Out :=
  write s r (rulReg RUL.OWN.HOLDER u.val) fun s => s.ruOwnPut r u.val (word (2 ^ 30))

/-- `RUL_ABORT` (R213): the effect of an abort of the unit in progress. -/
def execRulAbort (u : RulerId) (s : State) : Out :=
  done (if s.aborting (RUL.page.base + pgAt u.val) then s.rulAbort u.val else s)

/-! ### The pages -/

/-- A write of a shadowed register: the value waits for a reload (R199). -/
def State.ruShadow (s : State) (r : Requester) (u o : Nat) (v : Word) : State :=
  let a := RUL.page.base + pgAt u + o
  if rangeBad (fieldsAt a) v.toNat then s.discard a r .range
  else
    let x := s.ruler u
    let w (n : Nat) : Option (Nat × Nat) := some (bitsAt v.toNat 0 n, s.raw)
    s.setRuler u
      (if o = 0x44 then { x with per := w 30 }
      else if o = 0x48 then { x with duty := w 30 }
      else if o = 0x4C then { x with phase := w 30 }
      else if o = 0x50 then { x with dtr := w 18 }
      else { x with dtf := w 18 })

/-- A write to a RUL register; `o` is its offset in the page of unit `u`. -/
def State.rulPut (s : State) (r : Requester) (u o : Nat) (v : Word) : State :=
  let a := RUL.page.base + pgAt u + o
  if o = 0x08 then s.ruCtlPut r u v
  else if o = 0x40 then s.ruModePut r u v
  else if 0x44 ≤ o && o ≤ 0x54 then s.ruShadow r u o v
  else if o = 0x60 && u ≠ 31 then s.storeReg r a (word (putBits v.toNat 30 1 0))
  else if o = 0x64 then s.ruOvrPut r u v
  else if o = 0x68 then s.ruFltPut r u v
  else if o = 0x78 then s.ruDirectStart r u v
  else if o = 0x80 then s.ruDirectStop r u v
  else if o = 0x84 then s.ruOwnPut r u v
  else s.storeReg r a v

end Sys2Proof.Machine
end

