-- ==== Sys2Proof/Machine/Shunters.lean ====
section
/-! DEFINITION. The commands of the shunters (file 10): instructions, waits, FIFOs and DMA, starts, the SHN pages and
the program stores. -/

namespace Sys2Proof.Machine

/-! ### Instructions (R243, R245, R246, R249, R250, R254) -/

/-- `BR`: one tick whether or not it branches; `pins` the levels from outside at the lines that the pins read (R248). -/
def execShBr (n : ShunterId) (pins : Byte) (s : State) : Out :=
  done (s.shExec n.val .br fun s x w =>
    let c := s.shCond n.val x (bitsAt w 8 4) pins.toNat
    (s.pinsOutside n.val pins.toNat).shNext n.val (if c then bitsAt w 0 8 else x.pc + 1) x)

/-- `LOOP`. -/
def execShLoop (n : ShunterId) (s : State) : Out :=
  done (s.shExec n.val .loop fun s x w =>
    let a := bitsAt w 0 8
    if bitsAt w 11 1 = 0 then
      (if x.l0 ≠ 0 then s.shNext n.val a { x with l0 := x.l0 - 1 } else s.shStep n.val x)
    else if x.l1 ≠ 0 then s.shNext n.val a { x with l1 := x.l1 - 1 } else s.shStep n.val x)

/-- `AT` (R245). -/
def execShAt (n : ShunterId) (s : State) : Out := done (s.shExec n.val .at_ fun s x _ => s.shAt n.val x)

/-- `SHN_WAIT` (R246). -/
def execShWait (n : ShunterId) (pins : Byte) (s : State) : Out :=
  done (s.shExec n.val .wait fun s x w => (s.shWait n.val w pins.toNat x).pinsOutside n.val pins.toNat)

/-- `SEND` (R249). -/
def execShSend (n : ShunterId) (s : State) : Out := done (s.shExec n.val .send fun s x w => s.shSend n.val w x)

/-- `TAKE` (R249); `pins` the levels from outside at the lines that the pins read (R248). -/
def execShTake (n : ShunterId) (pins : Byte) (s : State) : Out :=
  done (s.shExec n.val .take fun s x w =>
    (s.shTake n.val w (s.pinsSeen n.val x.cycle pins.toNat) x).pinsOutside n.val pins.toNat)

/-- `LOAD` (R250). -/
def execShLoad (n : ShunterId) (s : State) : Out := done (s.shExec n.val .load fun s x w => s.shLoad n.val w x)

/-- `STORE` (R250). -/
def execShStore (n : ShunterId) (s : State) : Out := done (s.shExec n.val .store fun s x w => s.shStore n.val w x)

/-- `COPY`; `pins` the levels from outside at the lines that the pins read (R248). -/
def execShCopy (n : ShunterId) (pins : Byte) (s : State) : Out :=
  done (s.shExec n.val .copy fun s x w => (s.shCopy n.val w pins.toNat x).pinsOutside n.val pins.toNat)

/-- `LDI`. -/
def execShLdi (n : ShunterId) (s : State) : Out := done (s.shExec n.val .ldi fun s x w => s.shLdi n.val w x)

/-- `ADD`. -/
def execShAdd (n : ShunterId) (s : State) : Out := done (s.shExec n.val .add fun s x w => s.shAdd n.val w x)

/-- `SIG` (R254). -/
def execShSig (n : ShunterId) (s : State) : Out := done (s.shExec n.val .sig fun s x w => s.shSig n.val w x)

/-- `LCNT`. -/
def execShLcnt (n : ShunterId) (s : State) : Out :=
  done (s.shExec n.val .lcnt fun s x w =>
    let v := bitsAt w 0 11
    s.shStep n.val (if bitsAt w 11 1 = 0 then { x with l0 := v } else { x with l1 := v }))

/-- `HALT` (R257). -/
def execShHalt (n : ShunterId) (s : State) : Out :=
  done (s.shExec n.val .halt fun s x _ =>
    ((s.shIrq n.val SHN.IRQ_RAW.HALTED).setShunter n.val { x with pc := (x.pc + 1) % 256 }).shHalt n.val 1)

/-- `RESERVED_INSTRUCTION` (R243). -/
def execShReserved (n : ShunterId) (s : State) : Out :=
  done (s.shExec n.val .reserved fun s _ _ => s.shIllegal n.val)

/-! ### Waits and stalls (R245, R246, R251) -/

/-- `AT_RESOLVE` (R245). -/
def execShAtResolve (n : ShunterId) (s : State) : Out := done (s.shAtResolve n.val)

/-- `SHN_WAIT_PIN` (R246): the watched pin reads the level waited for. -/
def execShWaitPin (n : ShunterId) (s : State) : Out := done (s.shWaitPin n.val)

/-- `SHN_WAIT_DEADLINE` (R246). -/
def execShWaitDeadline (n : ShunterId) (s : State) : Out := done (s.shWaitDeadline n.val)

/-- `LOAD_STALL_END` (R251). -/
def execShLoadStallEnd (n : ShunterId) (s : State) : Out := done (s.shStallEnd n.val .loadStall)

/-- `STORE_STALL_END` (R251). -/
def execShStoreStallEnd (n : ShunterId) (s : State) : Out := done (s.shStallEnd n.val .storeStall)

/-! ### FIFOs and DMA (R250 to R253) -/

abbrev shnReg (g : Fld) (n : Nat) : Nat := g.off + pgAt n

/-- `TXF_WRITE` (R250). -/
def execTxfWrite (r : Requester) (n : ShunterId) (v : Word) (s : State) : Out :=
  write s r (shnReg SHN.TXF.V n.val) fun s => s.txf r n.val v

/-- `RXF_READ` (R250). -/
def execRxfRead (r : Requester) (n : ShunterId) (s : State) : Out :=
  readAt s r (shnReg SHN.RXF.V n.val) fun s => s.rxf r n.val

/-- `TXDMA_READ` (R252). -/
def execTxdmaRead (n : ShunterId) (s : State) : Out := done (s.txIssue n.val)

/-- `TXDMA_STORE` (R252). -/
def execTxdmaStore (n : ShunterId) (s : State) : Out := done (s.txStore n.val)

/-- `RXDMA_MOVE` (R253). -/
def execRxdmaMove (n : ShunterId) (s : State) : Out := done (s.rxMove n.val)

/-! ### Starts and CTL (R255 to R257, R259) -/

/-- `SHN_START_ENTRY` (R255); in Debug-halt the shunter is frozen in place. -/
def execShnStartEntry (n : ShunterId) (s : State) : Out := done (if s.mode = .halt then s else s.shStartEntry n.val)

/-- Both FIFOs emptied, in a halted shunter with DMA disabled. -/
def State.shClear (s : State) (r : Requester) (n : Nat) : State :=
  let x := s.shunter n
  if x.st = .halted && !s.shOn n SHN.TXDMA_LEN.EN && !s.shOn n SHN.RXDMA_CFG.EN then
    s.setShunter n { x with tx := [], rx := [] }
  else s.discard (shnReg SHN.CTL.START n) r .busy

/-- A write of SHN.CTL; a halt wins over a start in the same write (R255). -/
def State.shnCtl (s : State) (r : Requester) (n : Nat) (v : Word) : State :=
  let a := shnReg SHN.CTL.START n
  let b (k : Nat) : Bool := bitsAt v.toNat k 1 = 1
  let addr := s.shF n SHN.START.ADDR
  -- before an image is loaded and passed a shunter stays HALTED (R329, R332)
  if (b 0 || b 1) && (s.mode.quiet || s.mode = .provision) then s.discard a r .mode
  else
    let s := s.storeReg r a v
    let s := if b 4 then s.shClear r n else s
    let s := if b 2 then s.shHaltWrite n else s
    let s :=
      if !b 0 && !b 1 then s
      else if b 2 then s.shReject n
      else if b 1 then s.shStartGroup n addr (s.raw + 1)
      else s.shStartOne n addr (s.raw + 1)
    if b 3 then s.shClkrst n (s.raw + 1) else s

/-- A write of CTL that sets the bits `m` and keeps KEEP_SHIFT. -/
def State.shnCtlBit (s : State) (r : Requester) (n m : Nat) : State :=
  s.shnCtl r n (word (m + s.shF n SHN.CTL.KEEP_SHIFT * 32))

/-- `SHN_START_WRITE` (R255). -/
def execShnStartWrite (r : Requester) (n : ShunterId) (s : State) : Out :=
  write s r (shnReg SHN.CTL.START n.val) fun s => s.shnCtlBit r n.val 1

/-- `SHN_GSTART_WRITE` (R255). -/
def execShnGstartWrite (r : Requester) (n : ShunterId) (s : State) : Out :=
  write s r (shnReg SHN.CTL.START n.val) fun s => s.shnCtlBit r n.val 2

/-- `SHN_HALT_WRITE` (R257). -/
def execShnHaltWrite (r : Requester) (n : ShunterId) (s : State) : Out :=
  write s r (shnReg SHN.CTL.START n.val) fun s => s.shnCtlBit r n.val 4

/-- `SHN_CLKRST_WRITE` (R255). -/
def execShnClkrstWrite (r : Requester) (n : ShunterId) (s : State) : Out :=
  write s r (shnReg SHN.CTL.START n.val) fun s => s.shnCtlBit r n.val 8

/-- `SHN_CLRFIFO_WRITE` (R261). -/
def execShnClrfifoWrite (r : Requester) (n : ShunterId) (s : State) : Out :=
  write s r (shnReg SHN.CTL.START n.val) fun s => s.shnCtlBit r n.val 16

/-- `SHN_ABORT` (R259): the effect of an abort of the shunter in progress. -/
def execShnAbort (n : ShunterId) (s : State) : Out :=
  done (if s.aborting (SHN.page.base + pgAt n.val) then s.shnAbort n.val else s)

/-! ### The program stores (R242) -/

/-- A program store takes a write in this cycle (R242). -/
def State.progOpen (s : State) (n : Nat) : Bool := (s.shunter n).st = .halted && !s.shStarts n

/-- A write of word `i` of a program store: accepted while the shunter is HALTED, but for the cycle in which a start takes
effect (R242). -/
def State.progWrite (s : State) (r : Requester) (n i : Nat) (v : Word) : State :=
  let x := s.shunter n
  if s.progOpen n then
    let s := ((s.setShunter n { x with reject := false }).touch stShn).setEcc stShn (n * 128 + i) 0
    { s with stores := { s.stores with prog := SMap.put (fun _ => 0) s.stores.prog (n * 128 + i) v } }
  else
    let s := (s.setShunter n { x with reject := true }).shIrq n SHN.IRQ_RAW.PGM_REJ
    s.capture (SHN.page.base + pgAt n) (0x200 * n + 4 * i) r .busy

/-- `PROGRAM_STORE_WRITE` (R242). -/
def execProgramStoreWrite (r : Requester) (n : ShunterId) (i : Fin 128) (v : Word) (s : State) : Out :=
  access s r fun s => s.progWrite r n.val i.val v

/-! ### The pages -/

/-- A write of TXDMA_LEN (R252): a region that passes the end of the log store is refused; EN set begins a pass. -/
def State.txLenPut (s : State) (r : Requester) (n : Nat) (v : Word) : State :=
  let a := shnReg SHN.TXDMA_LEN.LEN n
  let on := bitsAt v.toNat 31 1 = 1
  if rangeBad (fieldsAt a) v.toNat || (on && 2 ^ 19 < s.shF n SHN.TXDMA_BASE.V + bitsAt v.toNat 0 16) then
    s.discard a r .range
  else
    let was := s.shOn n SHN.TXDMA_LEN.EN
    let s := s.storeReg r a v
    let x := s.shunter n
    -- words that an earlier pass has in flight are stored, and not counted
    if on && !was then s.setShunter n { x with issued := 0, pos := 0, flight := x.flight.map (fun p => (p.1, false)) } else s

/-- A write of RXDMA_RP (R253): with STRM = 0, up to WP. -/
def State.rxRpPut (s : State) (r : Requester) (n : Nat) (v : Word) : State :=
  let x := s.shunter n
  let z := s.shF n SHN.RXDMA_CFG.SIZE
  let rp := bitsAt v.toNat 0 16
  if s.shF n SHN.RXDMA_CFG.STRM ≠ 0 then s
  else if z ≤ rp || (x.wp + z - x.rp) % z < (rp + z - x.rp) % z then s.discard (SHN.page.base + pgAt n + 0x98) r .range
  else s.setShunter n { x with rp := rp }

/-- A write to a SHN register; `o` is its offset in the page of shunter `n`. -/
def State.shnPut (s : State) (r : Requester) (n o : Nat) (v : Word) : State :=
  let a := SHN.page.base + pgAt n + o
  let x := s.shunter n
  if o = 0x08 then s.shnCtl r n v
  else if o = 0x44 then (s.shDivNoted n).storeReg r a v
  else if o = 0x50 || o = 0x54 then s.select (s.storeReg r a v) r a
  else if o = 0x5C || o = 0x60 || o = 0x64 || o = 0xA0 then
    if x.st ≠ .halted then s.discard a r .busy
    else
      s.setShunter n
        (if o = 0x5C then { x with a := v }
        else if o = 0x60 then { x with b := v }
        else if o = 0x64 then { x with t := v }
        else { x with l0 := bitsAt v.toNat 0 16, l1 := bitsAt v.toNat 16 16 })
  else if o = 0x74 then s.txf r n v
  else if o = 0x84 then s.txLenPut r n v
  else if o = 0x98 then s.rxRpPut r n v
  else s.storeReg r a v

/-- A read of a SHN register with an effect of its own. -/
def State.shnRead (s : State) (r : Requester) (n o : Nat) (w : Word) : State × Word :=
  if o = 0x78 then s.rxf r n else (s, s.liveShn n o w)

end Sys2Proof.Machine
end

