-- ==== Sys2Proof/Machine/Turntables.lean ====
section
/-! DEFINITION. The commands of the turntables (file 05): edges, the processing of a tooth, stalls, control, the TTN
pages. -/

namespace Sys2Proof.Machine

/-- Turntable `n` is in use. -/
def State.ttActive (s : State) (n : Nat) : Bool := s.mode.alive && s.ttOn n TTN.CTL.EN

/-! ### Edges (R116, R119) -/

/-- The level of the direction line at raw unit `u` (R115, R139): `dir`, the level it has taken since with an edge in the raw
cycle and with the raw code of `turned`, which its own vernier captures; `dir` all along where no edge is reported. -/
def State.dirAt (s : State) (n u : Nat) (dir : Bool) (turned : Option (Nat × Fin 128)) : State × Bool :=
  match turned with
  | none => (s, dir)
  | some (c, k) => (s.hit (vernDir n) k.val c, if s.edgeU (vernDir n) c k.val ≤ u then dir else !dir)

/-- `TOOTH_EDGE` (R116): an edge of the tooth line in raw cycle `cyc` with raw code `code`; `dir` is the level of the
direction line, `turned` the edge that brought it, where one came since the tooth edge before (entry 40). -/
def execToothEdge (n : TurnId) (cyc : Nat) (code : Fin 128) (dir : Bool) (turned : Option (Nat × Fin 128)) (s : State) : Out :=
  if s.ttActive n.val then
    let s := s.advance cyc
    let u := s.edgeU (vernTooth n.val) cyc code.val
    let s := s.hit (vernTooth n.val) code.val cyc
    let used := s.ttOn n.val TTN.INSEL.DIR_EN
    let (s, level) := if used then s.dirAt n.val u dir turned else (s, dir)
    let x := s.turn n.val
    let s := s.setTurn n.val { x with edges := x.edges ++ [(u, level)] }
    done (if used then s.outside (s.ttF n.val TTN.INSEL.DIR_LINE) dir else s)
  else done s

/-- `TOOTH_PROCESS` (R126). -/
def execToothProcess (n : TurnId) (s : State) : Out := done (s.toothProcess n.val)

/-- `TOOTH_FIT` (R127). -/
def execToothFit (n : TurnId) (s : State) : Out := done (s.toothFit n.val)

/-- `INDEX_EDGE` (R115, R119): an active edge of the index line in raw cycle `cyc` with raw code `code`; a track linked to it
repeats it (R76). -/
def execIndexEdge (n : TurnId) (cyc : Nat) (code : Fin 128) (s : State) : Out :=
  if s.ttActive n.val && s.ttOn n.val TTN.INSEL.IDX_EN then
    let s := s.advance cyc
    let u := s.edgeU (vernIndex n.val) cyc code.val
    let s := (s.hit (vernIndex n.val) code.val cyc).linkTooth (0x48 + n.val) u
    done (if s.ttF n.val TTN.INCFG.SYNCSRC = 0 then s.markEdge n.val u else s)
  else done s

/-- `GAP_LINE_EDGE` (R115, R119): an active edge of the gap line in raw cycle `cyc` with raw code `code`. -/
def execGapLineEdge (n : TurnId) (cyc : Nat) (code : Fin 128) (s : State) : Out :=
  if s.ttActive n.val && s.ttOn n.val TTN.INSEL.GAP_EN then
    let s := s.advance cyc
    let u := s.edgeU (vernGap n.val) cyc code.val
    let s := s.hit (vernGap n.val) code.val cyc
    done (if s.ttF n.val TTN.INCFG.SYNCSRC = 2 then s.markEdge n.val u else s)
  else done s

/-- `MARK_WINDOW_EXPIRY` (R119). -/
def execMarkWindowExpiry (n : TurnId) (s : State) : Out := done (s.markExpire n.val)

/-- `STALL` (R137). -/
def execStall (n : TurnId) (s : State) : Out := done (s.stall n.val)

/-! ### Entries (R131 to R136) -/

/-- `OVERTAKEN` (R136). -/
def execOvertaken (n : TurnId) (i : SlotId) (s : State) : Out := done (s.overtake n.val i.val)

/-- `REPREDICTION` (R133). -/
def execReprediction (n : TurnId) (i : SlotId) (s : State) : Out := done (s.repredict n.val i.val)

/-- `ANNOUNCEMENT` (R131). -/
def execAnnouncement (n : TurnId) (i : SlotId) (s : State) : Out := done (s.announce n.val i.val)

/-! ### Control (R117, R121, R124, R141) -/

/-- The address of a turntable's CTL. -/
def ttnCtlAt (n : Nat) : Nat := TTN.CTL.EN.off + pgAt n

/-- A write of TTN.CTL: EN set starts the turntable where the checks of R117 pass, EN cleared stops it, RESYNC leaves
LOST. -/
def State.ttnCtl (s : State) (r : Requester) (n : Nat) (v : Word) : State :=
  let a := ttnCtlAt n
  let was := s.ttOn n TTN.CTL.EN
  let on := bitsAt v.toNat 0 1 = 1
  if !was && on then
    if s.ttBad n then s.discard a r .range
    else
      let t := s.select (s.storeReg r a v) r a
      if t.ttOn n TTN.CTL.EN then t.ttStart n else t
  else
    let s := s.storeReg r a v
    if was && !on then s.ttStop n outDiscarded
    else if bitsAt v.toNat 4 1 = 1 then s.ttResync n
    else s

/-- `TTN_ENABLE` (R117). -/
def execTtnEnable (r : Requester) (n : TurnId) (v : Word) (s : State) : Out :=
  write s r (ttnCtlAt n.val) fun s => s.ttnCtl r n.val v

/-- `TTN_DISABLE` (R141). -/
def execTtnDisable (r : Requester) (n : TurnId) (v : Word) (s : State) : Out :=
  write s r (ttnCtlAt n.val) fun s => s.ttnCtl r n.val v

/-- `TTN_RESYNC` (R121): a write of CTL with RESYNC = 1 that keeps the other fields. -/
def execTtnResync (r : Requester) (n : TurnId) (s : State) : Out :=
  write s r (ttnCtlAt n.val) fun s => s.ttnCtl r n.val (s.reg (ttnCtlAt n.val) ||| 16)

/-- `TTN_ABORT` (R141): the effect of an abort of the turntable in progress. -/
def execTtnAbort (n : TurnId) (s : State) : Out :=
  done (if s.aborting (TTN.page.base + pgAt n.val) then s.ttStop n.val outAborted else s)

/-! ### Reads (R129) -/

/-- A read of TTN.ANGLE copies REV and TOOTH for the requester. -/
def State.angleRead (s : State) (r : Requester) (n : Nat) : State × Word :=
  let c := s.angleCopies n
  let s := (s.setPreg r.id (TTN.page.base + pgAt n + 0x68) c.1).setPreg r.id (TTN.page.base + pgAt n + 0x6C) c.2
  (s, word (s.ttAngle n (s.raw * 64)))

/-- `TTN_ANGLE_READ` (R129). -/
def execTtnAngleRead (r : Requester) (n : TurnId) (s : State) : Out :=
  readAt s r (TTN.page.base + pgAt n.val + 0x64) fun s => s.angleRead r n.val

/-- A read of TTN.TSTAMP_LO copies bits 63:32 of the stamp for the requester. -/
def State.tstampRead (s : State) (r : Requester) (n : Nat) : State × Word :=
  let t := match (s.turn n).last with
    | some u => s.vtAt u
    | none => 0
  (s.setPreg r.id (TTN.page.base + pgAt n + 0x74) (word (t / 2 ^ 32)), word t)

/-- `TTN_TSTAMP_LO_READ` (R129). -/
def execTtnTstampLoRead (r : Requester) (n : TurnId) (s : State) : Out :=
  readAt s r (TTN.page.base + pgAt n.val + 0x70) fun s => s.tstampRead r n.val

/-! ### The pages -/

/-- Registers that are written only while EN = 0 (R118). -/
def ttnFixed (o : Nat) : Bool := (0x40 ≤ o && o ≤ 0x54) || o = 0x5C || o = 0x60 || o = 0x84 || o = 0x88

/-- A write to a TTN register; `o` is its offset in the page of turntable `n`. -/
def State.ttnPut (s : State) (r : Requester) (n o : Nat) (v : Word) : State :=
  let a := TTN.page.base + pgAt n + o
  if o = 0x08 then s.ttnCtl r n v
  else if ttnFixed o && s.ttOn n TTN.CTL.EN then s.discard a r .busy
  else if o = 0x48 && bitsAt v.toNat 0 13 ≤ bitsAt v.toNat 16 12 then s.discard a r .range
  else if o = 0x84 && bitsAt v.toNat 31 1 = 1 && s.ttTeeth n ≤ bitsAt v.toNat 0 12 then s.discard a r .range
  else s.storeReg r a v

/-- A read of a TTN register with an effect of its own. -/
def State.ttnRead (s : State) (r : Requester) (n o : Nat) (w : Word) : State × Word :=
  if o = 0x64 then s.angleRead r n
  else if o = 0x70 then s.tstampRead r n
  else (s, s.liveTtn r n o w)

end Sys2Proof.Machine
end

