-- ==== Sys2Proof/Machine/Twin.lean ====
section
/-! DEFINITION. The commands of the twin pair (file 15): frames received, heartbeats missed, switchover, the kill path, the
TWN page. -/

namespace Sys2Proof.Machine

/-- The pair acts from Configure on. -/
def State.twin (s : State) (k : State → State) : Out := done (if s.mode.alive then k s else s)

/-! ### The link and pairing (R345, R347, R348) -/

/-- A write of TWN.CTL: EN is written in Configure, and cleared in Twin-standby too, which returns to Configure. -/
def State.twnCtl (s : State) (r : Requester) (v : Word) : State :=
  let a := TWN.CTL.EN.off
  let was := s.on TWN.CTL.EN
  let en := bitsAt v.toNat 0 1 = 1
  if en ≠ was ∧ !(s.mode = .configure ∨ (s.mode = .standby ∧ was)) then s.discard a r .mode
  else
    let s := s.storeReg r a v
    if s.on TWN.CTL.EN = was then s else if was then s.twnOff else s.sendHello

/-- `TWN_ENABLE` (R347). -/
def execTwnEnable (r : Requester) (v : Word) (s : State) : Out := write s r TWN.CTL.EN.off fun s => s.twnCtl r v

/-- `IZLAR_LINK_UP` (R347): both lanes of an enabled link are trained, and HELLO frames are exchanged. -/
def execIzlarLinkUp (s : State) : Out :=
  s.twin fun s => if s.on TWN.CTL.EN then (s.onTwn fun x => { x with linkUp := true }).sendHello else s

/-- `IZLAR_LINK_DOWN` (R348). -/
def execIzlarLinkDown (s : State) : Out :=
  s.twin fun s => if s.twn.linkUp then (s.onTwn fun x => { x with linkUp := false }).notReady else s

/-- `FRAME_CRC_ERR` (R345). -/
def execFrameCrcErr (s : State) : Out :=
  s.twin fun s => if s.linked then (s.bump TWN.CNT_EVT.HI).set1 TWN.IRQ_RAW.CRC_ERR else s

/-- `HELLO_FRAME` (R347). -/
def execHelloFrame (h : Hello) (s : State) : Out := s.twin fun s => s.rxHello h

/-! ### Heartbeats and records (R345, R349 to R355) -/

/-- `HEARTBEAT_FRAME` (R349), received at raw unit `t`. -/
def execHeartbeatFrame (h : Heartbeat) (t : Nat) (s : State) : Out := s.twin fun s => s.rxHeartbeat h t

/-- `HEARTBEAT_MISS` (R351). -/
def execHeartbeatMiss (s : State) : Out := s.twin fun s => if s.linked || s.twn.st ≠ .solo then s.missHb else s

/-- `ACK_FRAME` (R345). -/
def execAckFrame (seq launch : Nat) (s : State) : Out := s.twin fun s => s.rxAck seq launch

/-- `INS_FRAME` (R352). -/
def execInsFrame (seq : Nat) (rs : List InsRec) (s : State) : Out :=
  s.twin fun s => s.rxMirror seq (rs.map (fun r => .ins r.slot r.park r.req r.bits))

/-- `CAN_FRAME` (R352). -/
def execCanFrame (seq slot : Nat) (chain : Bool) (req : Nat) (s : State) : Out :=
  s.twin fun s => s.rxMirror seq [.can slot chain req]

/-- `RET_FRAME` (R352). -/
def execRetFrame (seq : Nat) (rs : List (Nat × Nat)) (s : State) : Out :=
  s.twin fun s => s.rxMirror seq (rs.map (fun p => .ret p.1 p.2))

/-- `CONS_FRAME` (R355). -/
def execConsFrame (seq slot owner whn bound : Nat) (last : Bool) (vals : List (Nat × Word)) (s : State) : Out :=
  s.twin fun s => s.rxMirror seq [.cons slot owner whn bound last vals]

/-- `CONS_AT_FRAME` (R355). -/
def execConsAtFrame (seq slot dep : Nat) (s : State) : Out := s.twin fun s => s.rxMirror seq [.consAt slot dep]

/-- `CONS_END_FRAME` (R355). -/
def execConsEndFrame (seq slot out : Nat) (s : State) : Out := s.twin fun s => s.rxMirror seq [.consEnd slot out]

/-- `MAP_FRAME` (R350). -/
def execMapFrame (seq vt tai : Nat) (s : State) : Out := s.twin fun s => s.rxMirror seq [.map vt tai]

/-- `BULK_FRAME` (R364). -/
def execBulkFrame (seq : Nat) (rs : List BulkRec) (last : Bool) (s : State) : Out :=
  s.twin fun s => s.rxMirror seq [.bulk rs last]

/-- The DMA tag of the mirror queue. -/
abbrev tagMirror : Nat := 41

/-- `MIRROR_SEND` (R345): the queue is read from its siding as a DMA-class requester, once its words stand there. -/
def execMirrorSend (s : State) : Out :=
  s.twin fun s =>
    if s.linked && s.twn.st = .primary && s.twn.toRing = [] && (s.twn.queue ≠ [] || s.twn.unacked ≠ []) then
      s.dma (s.f TWN.MQ.SIDING) tagMirror State.mirrorSend
    else s

/-! ### Switchover and the kill path (R358 to R361) -/

/-- `SWITCH_FRAME` (R359): a commanded switchover at the boundary of cycle `w`. -/
def execSwitchFrame (w : Nat) (s : State) : Out :=
  s.twin fun s => if s.linked && s.twn.st.standby then s.trigger 3 w else s

/-- `SWITCHOVER_DRIVE` (R360). -/
def execSwitchoverDrive (s : State) : Out := s.twin State.switchDrive

/-- `SWITCHOVER_TAKEOVER` (R360): a STANDBY in Twin-standby. -/
def execSwitchoverTakeover (s : State) : Out := s.twin fun s => if s.mode = .standby then s.takeover else s

/-- `KILL_INPUT` (R358). -/
def execKillInput (s : State) : Out :=
  done (if s.mode.alive then s.kill else s.onTwn fun x => { x with killIn := true })

/-- `KILL_INPUT_RELEASE` (R358). -/
def execKillInputRelease (s : State) : Out := done (s.onTwn fun x => { x with killIn := false })

/-- The boundary that a SWITCH names: two boundaries after the write (R359); one already named that lies ahead stays. -/
def State.switchAt (s : State) : Nat :=
  match s.twn.yieldAt with
  | some w => if s.cyc < w then w else (s.dep + 2) * s.dsp.period
  | none => (s.dep + 2) * s.dsp.period

/-- A write of TWN.CMD. -/
def State.twnCmd (s : State) (r : Requester) (op : Nat) : State :=
  let a := TWN.CMD.OP.off
  let sw := op = 1 ∧ s.twn.st = .primary ∧ s.twn.peerSt = .ready
  let rejoin := op = 2 ∧ s.twn.st = .notReady ∧ s.mode = .standby
  if ¬ sw ∧ ¬ rejoin then s.discard a r .mode
  else if !s.hasRole r (if s.sealed TWN.page.base then .maker else .installer) then s.discard a r .role
  else if sw then
    let w := s.switchAt
    (s.send (.switch w)).onTwn fun x => { x with yieldAt := some w, released := s.yielded }
  else s.enterJoining

/-- `TWN_SWITCH_CMD` (R359). -/
def execTwnSwitchCmd (r : Requester) (s : State) : Out := write s r TWN.CMD.OP.off fun s => s.twnCmd r 1

/-- `TWN_REJOIN` (R364). -/
def execTwnRejoin (r : Requester) (s : State) : Out := write s r TWN.CMD.OP.off fun s => s.twnCmd r 2

/-- `TWN_ABORT` (R365): the effect of an abort of TWN in progress. -/
def execTwnAbort (s : State) : Out := done (if s.aborting TWN.page.base then s.twnAbort else s)

/-! ### The page -/

/-- A write to a TWN register: HOV in Configure alone, MQ.SIDING with EN = 0. -/
def State.twnPut (s : State) (r : Requester) (o : Nat) (v : Word) : State :=
  let a := TWN.page.base + o
  if o = 0x08 then s.twnCtl r v
  else if 0x70 ≤ o && o < 0x80 && s.mode ≠ .configure then s.discard a r .mode
  else if o = 0x5C && s.on TWN.CTL.EN then s.discard a r .mode
  else if o = 0x80 then s.twnCmd r (bitsAt v.toNat 30 2)
  else s.storeReg r a v

end Sys2Proof.Machine
end

