-- ==== Sys2Proof/Machine/Bus.lean ====
section
/-! DEFINITION. Accesses to BAR0 (files 00, 12 and 13): the registers of every page, what a consist stages, the windows. -/

namespace Sys2Proof.Machine

/-! ### The common page layout (R287 to R289, R315) -/

/-- The bits of the W1C fields of the register at `a`. -/
def w1cBits (a : Nat) : Word :=
  word (((fieldsAt a).filter (fun g => g.acc = .w1c)).foldl (fun m g => m + (2 ^ g.wid - 1) * 2 ^ g.lo) 0)

/-- A write of IRQ_SET (R287): one that names no bit of IRQ_RAW would not act, and needs no role (R8). -/
def State.irqSet (s : State) (r : Requester) (b : Nat) (v : Word) : State :=
  let a := b + 0x10
  let bits := v &&& w1cBits a
  if bits = 0 then s
  else if !s.hasRole r .maker then s.capture b 0x18 r .role
  else s.setReg a (s.reg a ||| bits)

/-- A write of ERR_CAP (R288): VALID = 1 clears the capture. -/
def State.errClear (s : State) (b : Nat) (v : Word) : State :=
  if bitsAt v.toNat 31 1 = 1 then s.setReg (b + 0x1C) 0 else s

/-- A write of LOCK (R289). -/
def State.seal (s : State) (r : Requester) (b : Nat) (v : Word) : State :=
  let a := b + 0x28
  if bitsAt v.toNat 31 1 = 0 ∨ s.sealed b then s
  else if !s.hasRole r .installer then s.capture b 0x28 r .role
  else
    let w := (s.reg a).toNat
    let w' := putBits w 31 1 1
    (s.setReg a (word w')).log 1 (s.role r) r.id 0 a w w'

/-- A write of ABORT (R315). -/
def State.abortPut (s : State) (r : Requester) (b : Nat) (v : Word) : State :=
  if bitsAt v.toNat 0 1 = 1 then s.abortGo b else if s.aborting b then s.capture b 0x20 r .busy else s

/-! ### The pages without a file of their own for them -/

/-- A write of SEC.CMD. -/
def State.secCmd (s : State) (r : Requester) (v : Word) : State :=
  let op := bitsAt v.toNat 28 4
  if op = 1 then s.secLoad r v
  else if op = 2 then s.secOverride r
  else if 5 ≤ op ∧ op ≤ 8 then s.otpStart r op
  else s.discard SEC.CMD.OP.off r .range

/-- A write to a SEC register. -/
def State.secPut (s : State) (r : Requester) (o : Nat) (v : Word) : State :=
  if o = 0x58 then s.secCmd r v
  else if o = 0x64 then
    let op := bitsAt v.toNat 30 2
    if op = 1 then s.sessOpen r else if op = 2 then s.endSession r 1 else s
  else if 0x100 ≤ o ∧ o < 0x1A0 then s.setPreg r.id (SEC.page.base + o) v
  else s.storeReg r (SEC.page.base + o) v

/-- A write to a MEM register. -/
def State.memPut (s : State) (r : Requester) (o : Nat) (v : Word) : State :=
  if o = 0x58 then s.bgtEn r v else s.storeReg r (MEM.page.base + o) v

/-! ### A register write -/

/-- A write of `v` to the register at `a` by its own rules. `swap` names the role of a consist's swap (R310, R340); a
direct write has none. -/
def State.put (s : State) (r : Requester) (a : Nat) (v : Word) (swap : Option Role) : State :=
  match pageOf a with
  | none => s
  | some (p, b) =>
    let o := a - b
    let n := (b - p.base) / p.stride
    if o = 0x18 then s.irqSet r b v
    else if o = 0x1C then s.errClear b v
    else if o = 0x20 then s.abortPut r b v
    else if o = 0x28 then s.seal r b v
    else if p.code = 0x01 then s.glbPut r o v
    else if p.code = 0x02 then s.pwrPut r o v
    else if p.code = 0x03 then s.secPut r o v
    else if p.code = 0x04 then s.hstPut r o v
    else if p.code = 0x05 then s.tbuPut r o v
    else if p.code = 0x06 then s.twnPut r o v
    else if p.code = 0x07 then s.cnsPut r o v
    else if p.code = 0x08 then s.dspPut r o v
    else if p.code = 0x10 then s.trkPut r n o v swap.isSome
    else if p.code = 0x11 then s.jncPut r o v swap
    else if p.code = 0x12 then s.ttnPut r n o v
    else if p.code = 0x13 then s.rulPut r n o v
    else if p.code = 0x14 then s.adcRegPut r o v
    else if p.code = 0x15 then s.shnPut r n o v
    else if p.code = 0x16 then s.menPut r n o v
    else if p.code = 0x17 then s.memPut r o v
    else s

/-- An access `k` of requester `r` watched: the state after it, and the reason of its discard if it was discarded. -/
def State.probe (s : State) (r : Requester) (k : State → State) : State × Option Nat :=
  let t := k { s with seenNow := { s.seenNow with watch := some r, why := none } }
  ({ t with seenNow := { t.seenNow with watch := none, why := none } }, t.seenNow.why)

/-! ### Staging (R306, R308) -/

/-- The consistable bits of the register at `a` (R314). -/
def consMask (a : Nat) : Nat := match regAt a with | none => 0 | some (g, _) => g.cons

/-- The value that a staged write puts: its consistable fields over what the register holds (R314). -/
def State.stagedVal (s : State) (a : Nat) (v : Word) : Word :=
  let m := word (consMask a)
  (v &&& m) ||| (s.reg a &&& ~~~m)

/-- The state with a consist's earlier staged writes laid over it. -/
def State.overlay (s : State) (r : Requester) (ps : List Staged) : State :=
  ps.foldl (fun s p => (s.probe r fun s => s.put r p.addr (s.stagedVal p.addr p.val) (some p.role)).1) s

/-- The reason that a staged write is discarded for when it completes (R306): ownership, range, role. -/
def State.stageBad (s : State) (r : Requester) (ps : List Staged) (a : Nat) (v : Word) : Option Reason :=
  match pageOf a with
  | none => none
  | some (_, b) =>
    let t := s.overlay r ps
    let w := t.stagedVal a v
    if (t.ownerRefusal r a).isSome then some .owner
    else if rangeBad (fieldsAt a) w.toNat then some .range
    else if t.roleBad r b w.toNat (t.reg a).toNat (fieldsAt a) then some .role
    else if (t.probe r fun t => t.put r a w none).2 = some Reason.range.code then some .range
    else none

/-- A staged write takes its place, or the place of an earlier one to the same address. -/
def stageIn (ps : List Staged) (p : Staged) : List Staged :=
  if ps.any (fun q => q.addr = p.addr) then ps.map (fun q => if q.addr = p.addr then p else q) else ps ++ [p]

/-- A write by the owner of OPEN consist `k` to a consistable register (R306, R308). -/
def State.stage (s : State) (r : Requester) (k a : Nat) (v : Word) : State :=
  let x := s.consist k
  match s.stageBad r x.places a v with
  | some .owner => (s.ownerRefusal r a).getD s
  | some why => s.discard a r why
  | none =>
    let p : Staged := { addr := a, val := v &&& word (consMask a), role := s.role r }
    if s.freePlaces = 0 && !(x.places.any (fun q => q.addr = a)) then (s.consistBreak k).discard a r .busy
    else s.setConsist k { x with places := stageIn x.places p }

/-- A write to a consistable register: staged while the requester's consist is OPEN, discarded while it is BROKEN. -/
def State.gate (s : State) (r : Requester) (a : Nat) (v : Word) : State :=
  match s.consistOf r.id with
  | none => s.direct r a fun s => s.put r a v none
  | some k =>
    let st := (s.consist k).st
    if st = .opened then s.stage r k a v
    else if st = .broken then s.discard a r .busy
    else s.direct r a fun s => s.put r a v none

/-- Registers that control a consist itself (R307). -/
def controls (a : Nat) : Bool := a = CNS.CMD.OP.off || a = CNS.CDEP_LO.V.off || a = CNS.CDEP_HI.V.off

/-- A write of a whole word to a register page; a reserved address ignores it (R7). -/
def State.write (s : State) (r : Requester) (a : Nat) (v : Word) : State :=
  match regAt a with
  | none => s
  | some (g, _) =>
    if g.cons ≠ 0 then s.gate r a v
    else if controls a then s.unlessAborting r a fun s => s.put r a v none
    else s.direct r a fun s => s.put r a v none

/-! ### A register read -/

/-- The word that the register at `a` holds for a requester: its own copy where copies are held (R14). -/
def State.held (s : State) (r : Requester) (a : Nat) : Word :=
  match regAt a with
  | none => 0
  | some (g, _) =>
    if !g.perReq then s.reg a
    else if (pageOf a).map (fun p => p.1.code) = some 0x07 then s.preg r.id a
    else s.preg r.id a

/-- LOCK as a requester reads it (R289). -/
def State.lockWord (s : State) (r : Requester) (a : Nat) : Word :=
  word (putBits (s.reg a).toNat 16 2 (s.role r).code)

/-- A read of a TBU register. -/
def State.tbuRead (s : State) (r : Requester) (o : Nat) (w : Word) : State × Word :=
  if o = 0x40 then s.vtLo r else if o = 0x80 then s.nextsecLo r else (s, s.liveTbu r o w)

/-- A read of a TRK register. -/
def State.trkRead (s : State) (r : Requester) (t o : Nat) (w : Word) : State × Word :=
  if o = 0x80 then s.trkPop r t else (s, s.liveTrk t r.id o w)

/-- A read of a SEC register. -/
def State.secRead (s : State) (r : Requester) (o : Nat) (w : Word) : State × Word :=
  if o = 0x5C then s.nonceLo r else (s, s.liveSec r o w)

/-- A read of the register at `a`, with the effects the register gives a read. -/
def State.getReg (s : State) (r : Requester) (a : Nat) : State × Word :=
  match regAt a, pageOf a with
  | some _, some (p, b) =>
    let o := a - b
    let n := (b - p.base) / p.stride
    let w := s.held r a
    if o = 0x28 then (s, s.lockWord r a)
    else if p.code = 0x01 then (s, s.liveGlb o w)
    else if p.code = 0x02 then (s, s.livePwr o w)
    else if p.code = 0x03 then s.secRead r o w
    else if p.code = 0x04 then s.hstRead o w
    else if p.code = 0x05 then s.tbuRead r o w
    else if p.code = 0x06 then (s, s.liveTwn r o w)
    else if p.code = 0x07 then (s, s.liveCns r o w)
    else if p.code = 0x08 then s.dspRead r o w
    else if p.code = 0x10 then s.trkRead r n o w
    else if p.code = 0x11 then s.jncRead o w
    else if p.code = 0x12 then s.ttnRead r n o w
    else if p.code = 0x13 then (s, s.liveRul n o w)
    else if p.code = 0x14 then s.adcRead r o w
    else if p.code = 0x15 then s.shnRead r n o w
    else if p.code = 0x16 then (s, s.liveMen n o w)
    else if p.code = 0x17 then (s, s.liveMem o w)
    else (s, w)
  | _, _ => (s, 0)

/-- Words that lie among the pages: a turntable's period ring (R142), the ADC buffer aperture (R231), the logbook entry that
SEC.LOGIDX names (R341): store, index, value. -/
def State.pageWindow (s : State) (a : Nat) : Option (Nat × Nat × Word) :=
  if 0x138000 ≤ a ∧ a < 0x140000 then
    let n := (a - 0x138000) / 0x1000
    let i := a % 0x1000 / 4
    some (stRing, n * 1024 + i, SMap.get (fun _ => 0) (s.turn n).ring i)
  else if 0x168000 ≤ a ∧ a < 0x170000 then
    let i := (s.f ADC.APSEL.V * 256 + (a - 0x168000) / 4) % 65536
    some (stAdc, i, SMap.get (fun _ => 0) s.mem.adcBuf i)
  else if 0x2080 ≤ a ∧ a < 0x20A0 then some (stBook, s.f SEC.LOGIDX.V * 8 + (a - 0x2080) / 4, s.logWord ((a - 0x2080) / 4))
  else none

/-- A read of the register space below the timetable window: state, word, whether it is poisoned. -/
def State.read (s : State) (r : Requester) (a : Nat) : State × Word × Bool :=
  match s.pageWindow a with
  | some (k, i, w) => ((s.onStore k 1).checked k i, w, s.ecc k i = 2)
  | none => ((s.getReg r a).1, (s.getReg r a).2, false)

/-! ### The memory windows (R283, R284) -/

/-- Word `i` of the timetable window: word `i mod 4` of the entry of slot `i / 4` (R91). -/
def State.ttWord (s : State) (i : Nat) : Word := word ((s.slot (i / 4)).bits / 2 ^ (32 * (i % 4)))

/-- Word `i` of the shunter program stores. -/
def State.progWord (s : State) (i : Nat) : Word := SMap.get (fun _ => 0) s.stores.prog i

/-- Where the requests of PCIe find BAR2 and the configuration header in the model's numbering of addresses (entry 45). -/
abbrev bar2At : Nat := 0x1000000
abbrev cfgAt : Nat := 0x2000000

/-- A read of BAR0 by a host interface, answered at once or when its memory grants it; PCIe also reads BAR2 and the
configuration header. -/
def State.hostRead (s : State) (r : Requester) (a : Nat) : State :=
  let s := s.afterOwn r
  if a < 0x200000 then
    let (t, w, bad) := s.read r a
    t.answer r a w bad
  else if a < 0x240000 then
    let i := (a - 0x200000) / 4
    ((s.onStore stTt 1).checked stTt i).answer r a (s.ttWord i) (s.ecc stTt i = 2)
  else if 0x400000 ≤ a ∧ a < 0x600000 then s.hostLog r ((a - 0x400000) / 4) .hostRead
  else if 0x600000 ≤ a ∧ a < 0x610000 then
    s.hostIcb { req := some r, idx := (a - 0x600000) / 4, val := 0, be := 0, write := false }
  else if 0x700000 ≤ a ∧ a < 0x702000 then
    let i := (a - 0x700000) / 4
    ((s.onStore stShn 1).checked stShn i).answer r a (s.progWord i) (s.ecc stShn i = 2)
  else if r = .pcie ∧ bar2At ≤ a ∧ a < bar2At + 0x2000 then s.answer r a (s.bar2Read (a - bar2At))
  else if r = .pcie ∧ cfgAt ≤ a ∧ a < cfgAt + 0x40 then s.answer r a (s.cfgWord ((a - cfgAt) / 4))
  else s.answer r a 0

/-- A write of the timetable window: the maker's in Factory-test (R97, R374). -/
def State.ttPut (s : State) (r : Requester) (a : Nat) (v : Word) (be : Nat) : State :=
  let i := (a - 0x200000) / 4
  if s.mode ≠ .factory then s.capture DSP.page.base (a % 4096) r .mode
  else if !s.hasRole r .maker then s.capture DSP.page.base (a % 4096) r .role
  else
    let x := s.slot (i / 4)
    let w := mergeBe (s.ttWord i) v be
    (s.onStore stTt (if be = 15 then 1 else 2)).rmw r stTt i (a % 4096) be fun s =>
      (s.setSlot (i / 4) { x with bits := putBits x.bits (32 * (i % 4)) 32 w.toNat }).setEcc stTt i 0

/-- A write of BAR0 by a host interface with the byte lanes `be`; a register takes whole words alone (R284); the log store takes
the maker's alone in Configure (R334). -/
def State.hostWrite (s : State) (r : Requester) (a : Nat) (v : Word) (be : Nat) : State :=
  let s := s.afterOwn r
  if a < 0x200000 then
    (if be = 15 then s.write r a v else if (regAt a).isSome then s.discard a r .range else s)
  else if a < 0x240000 then s.ttPut r a v be
  else if 0x400000 ≤ a ∧ a < 0x600000 then
    if s.mode = .configure && !s.hasRole r .maker then s.capture MEM.page.base (a % 4096) r .role
    else s.hostLog r ((a - 0x400000) / 4) (.hostWrite v be)
  else if 0x600000 ≤ a ∧ a < 0x610000 then
    s.hostIcb { req := some r, idx := (a - 0x600000) / 4, val := v, be := be, write := true }
  else if 0x700000 ≤ a ∧ a < 0x702000 then
    let i := (a - 0x700000) / 4
    if s.progOpen (i / 128) then
      (s.onStore stShn (if be = 15 then 1 else 2)).rmw r stShn i (a % 4096) be fun s => s.progWrite r (i / 128) (i % 128) (mergeBe (s.progWord i) v be)
    else s.progWrite r (i / 128) (i % 128) v
  else if r = .pcie ∧ bar2At ≤ a ∧ a < bar2At + 0x2000 then s.bar2Write (a - bar2At) v be
  else s

/-! ### Commands: registers without a row of their own -/

/-- A write of a register that may be staged. -/
def busWrite (r : Requester) (a : Nat) (v : Word) (s : State) : Out := access s r fun s => s.write r a v

/-- `REGISTER_WRITE` (R6): any register of the pages. -/
def execRegisterWrite (r : Requester) (a : Nat) (v : Word) (s : State) : Out := busWrite r (a / 4 * 4) v s

/-- `IRQ_SET_WRITE` (R287): IRQ_SET of the page of address `a`. -/
def execIrqSetWrite (r : Requester) (a : Nat) (v : Word) (s : State) : Out :=
  match pageOf a with
  | none => done s
  | some (_, b) => write s r (b + 0x18) fun s => s.irqSet r b v

/-- `LOCK_SEAL` (R289): SEAL of the page of address `a`. -/
def execLockSeal (r : Requester) (a : Nat) (s : State) : Out :=
  match pageOf a with
  | none => done s
  | some (_, b) => write s r (b + 0x28) fun s => s.seal r b 0x80000000

/-- `TRK_MODE_WRITE` (R60). -/
def execTrkModeWrite (r : Requester) (t : TrackId) (v : Word) (s : State) : Out :=
  busWrite r (TRK.page.base + trkAt t.val + 0x40) v s

/-- `LN_CFG_WRITE` (R88): LN_CFG of a line, or LN_TRIM. -/
def execLnCfgWrite (r : Requester) (n : LineId) (trim : Bool) (v : Word) (s : State) : Out :=
  busWrite r (lnReg n.val trim) v s

/-- `DSP_RUN_SET` (R112): a write of DSP.CTL; a consist stages its CHAINBRK. -/
def execDspRunSet (r : Requester) (v : Word) (s : State) : Out := busWrite r DSP.CTL.RUN.off v s

/-- `RU_FORCE_WRITE` (R208): a write of RUL.OVR. -/
def execRuForceWrite (r : Requester) (u : RulerId) (v : Word) (s : State) : Out :=
  busWrite r (RUL.page.base + pgAt u.val + 0x64) v s

/-! ### Commands: requests of the host interfaces (R284, R285) -/

/-- The address of dword `i` of a request. -/
def dword (a i : Nat) : Nat := a / 4 * 4 + 4 * i

/-- `PCIE_READ_REQUEST` (R284): one access per dword, in ascending order. -/
def execPcieReadRequest (a n : Nat) (s : State) : Out :=
  access s .pcie fun s => (List.range n).foldl (fun s i => s.hostRead .pcie (dword a i)) s

/-- `PCIE_WRITE_REQUEST` (R284). -/
def execPcieWriteRequest (a : Nat) (ws : List (Word × BitVec 4)) (s : State) : Out :=
  access s .pcie fun s =>
    ws.zipIdx.foldl (fun s p => s.hostWrite .pcie (dword a p.2) p.1.1 p.1.2.toNat) s

/-- Words of a burst of `n` from `a` that lie below the next 4 KiB boundary. -/
def burstLen (a n : Nat) : Nat := Nat.min n ((4096 - a % 4096) / 4)

/-- A burst that reaches a 4 KiB boundary. -/
def State.burstCut (s : State) (a n : Nat) : State :=
  if burstLen a n = n then s
  else
    let s := (s.capture HST.page.base 0 .spi .range).set1 HST.IRQ_RAW.SPI_ERR
    { s with hst := { s.hst with spiErr := true } }

/-- A transaction's status byte sent: READY, and ERR where an access of the previous transaction was discarded. -/
def State.spiSend (s : State) (ready : Bool) : State :=
  let st := (if ready then 1 else 0) + (if s.hst.spiErr then 2 else 0)
  { s with hst := { s.hst with spiStatus := st, spiErr := false } }

/-- An access of a transaction; a discard makes the next status byte read ERR. -/
def State.spiAccess (s : State) (k : State → State) : State :=
  match s.probe .spi k with
  | (t, none) => t
  | (t, some _) => { t with hst := { t.hst with spiErr := true } }

/-- A transaction that ends without an access (R285). -/
def State.spiBad (s : State) : State := { s with hst := { s.hst with spiErr := false } }.set1 HST.IRQ_RAW.SPI_ERR

/-- A write transaction. -/
def State.spiPut (s : State) (a : Nat) (ws : List Word) : State :=
  if a % 4 ≠ 0 then s.spiBad
  else
    let s := { s with hst := { s.hst with spiErr := false } }
    let s := (ws.take (burstLen a ws.length)).zipIdx.foldl
      (fun s p => s.spiAccess fun s => s.hostWrite .spi (a + 4 * p.2) p.1 15) s
    s.burstCut a ws.length

/-- The memory behind a window has no access for SPI in this cycle. -/
def State.spiWaits (s : State) (a : Nat) : Bool :=
  if 0x400000 ≤ a ∧ a < 0x600000 then
    let d := (a - 0x400000) / 131072
    !(s.admits d { sid := d, idx := (a - 0x400000) / 4, req := .spi, kind := .hostRead, since := s.raw })
      || s.mem.waits.any (fun w => w.req = .spi)
  else if 0x600000 ≤ a ∧ a < 0x610000 then !s.mem.portA.isEmpty || !s.mem.portB.isEmpty || s.raw < s.bankFree 16
  else false

/-- A read transaction whose first word is not ready in time: its data is invalid, and nothing has been read. -/
def State.spiLate (s : State) (a n : Nat) : State :=
  (List.range n).foldl (fun s i => (s.answer .spi (a + 4 * i) (word s.drawn)).draw) (s.spiSend false)

/-- Words of a burst answered as the memory gives them, each in a cycle of its own. -/
def State.spiWord (s : State) (a : Nat) : State :=
  let s := if 0x400000 ≤ a ∧ a < 0x600000 then s.advance (s.bankFree ((a - 0x400000) / 131072))
    else if 0x600000 ≤ a ∧ a < 0x610000 then s.advance (s.bankFree 16) else s
  s.spiAccess fun s => s.hostRead .spi a

/-- A read transaction. -/
def State.spiGet (s : State) (a n : Nat) : State :=
  if a % 4 ≠ 0 then s.spiBad
  else if 0 < n ∧ s.spiWaits a then s.spiLate a n
  else
    let k := burstLen a n
    let s := (List.range k).foldl (fun s i => s.spiWord (a + 4 * i)) (s.spiSend true)
    let s := (List.range (n - k)).foldl (fun s i => s.answer .spi (a + 4 * (k + i)) 0) s
    s.burstCut a n

/-- The SPI target is active (R285). -/
def spi (s : State) (k : State → State) : Out := access s .spi k

/-- `SPI_WRITE` (R285). -/
def execSpiWrite (a : Nat) (ws : List Word) (s : State) : Out := spi s fun s => s.spiPut a ws

/-- `SPI_QWRITE` (R285). -/
def execSpiQwrite (a : Nat) (ws : List Word) (s : State) : Out := spi s fun s => s.spiPut a ws

/-- `SPI_READ` (R285). -/
def execSpiRead (a n : Nat) (s : State) : Out := spi s fun s => s.spiGet a n

/-- `SPI_QREAD` (R285). -/
def execSpiQread (a n : Nat) (s : State) : Out := spi s fun s => s.spiGet a n

/-- `SPI_STATUS` (R285). -/
def execSpiStatus (s : State) : Out := spi s fun s => s.spiSend true

/-- The commands of the SPI target (table of SPI target commands). -/
def spiCodes : List Nat := [0x02, 0x0B, 0x32, 0xEB, 0x05]

/-- `SPI_UNKNOWN_COMMAND` (R285): a code not in the table, or a misaligned address. -/
def execSpiUnknownCommand (code : Byte) (a : Nat) (s : State) : Out :=
  spi s fun s => if spiCodes.contains code.toNat && (code = 0x05 || a % 4 = 0) then s else s.spiBad

end Sys2Proof.Machine
end

