-- ==== Sys2Proof/Machine/Boundary.lean ====
section
/-! DEFINITION. The departure boundary (R10, R15, R20 to R23) and the consists that are checked before it and swap at it
(R310, R312, R355). -/

namespace Sys2Proof.Machine

/-! ### The check of a consist (R310) -/

/-- A staged write laid in by the rules that would hold for it at c: the state with it, or the reason that discards it with
the state its rules leave. -/
def State.layIn (s : State) (r : Requester) (p : Staged) : State × Option Nat :=
  match pageOf p.addr with
  | none => (s, none)
  | some (_, b) =>
    if s.abortBlocks b (p.addr - b) then (s, some Reason.busy.code)
    else
      match s.ownerRefusal r p.addr with
      | some t => (t, some Reason.owner.code)
      | none => s.probe r fun s => s.put r p.addr (s.stagedVal p.addr p.val) (some p.role)

/-- A failed write of a consist: its place, its reason, the state that its rules leave. -/
structure BadWrite where
  place : Staged
  why : Nat
  left : State
  deriving DecidableEq, Repr

/-- The staged writes of a consist laid in one after another, up to the first that fails. -/
def State.layAll (s : State) (r : Requester) : List Staged → State × Option BadWrite
  | [] => (s, none)
  | p :: ps =>
    match s.layIn r p with
    | (t, none) => t.layAll r ps
    | (t, some why) => (s, some { place := p, why := why, left := t })

/-- The requester that owns a consist. -/
def Consist.req (x : Consist) : Requester := (requesterOf x.owner).getD .twn

/-- The verdict on a consist against a state: the state with it laid in, or its outcome with the write that fails. -/
def State.verdict (s : State) (x : Consist) : State × Option (Nat × Option BadWrite) :=
  match x.places.find? (fun p => !p.parity) with
  -- DESIGN CHOICE (entry 44): the reason captured is ECC
  | some p => (s, some (coParity, some { place := p, why := Reason.ecc.code, left := s }))
  | none =>
    match s.layAll x.req x.places with
    | (t, none) => (t, none)
    | (_, some w) => (s, some (coCheckFailed, some w))

/-- The conflict capture that a refused staged claim leaves (R78, R87): the JNC words, with the role held at staging. -/
def State.copyConflict (s t : State) (role : Role) : State :=
  if t.reg JNC.CNT_EVT.LO.off = s.reg JNC.CNT_EVT.LO.off then s
  else
    let words := [JNC.IRQ_RAW.CONFLICT.off, JNC.CNT_EVT.LO.off, JNC.CONFCAP0.KIND.off, JNC.CONFCAP1.HELD_SRC.off, JNC.CONFCAP2.DEP.off,
      JNC.page.base + 0x1C]
    (words.foldl (fun s a => s.setReg a (t.reg a)) s).setF JNC.CONFCAP0.ROLE role.code

/-- A failed consist ends: the failing write's reason is captured in its page. -/
def State.checkFails (s : State) (k out : Nat) (bad : Option BadWrite) : State :=
  match bad with
  | none => s.consistEnd k out
  | some w =>
    let s := s.copyConflict w.left w.place.role
    let s := match pageOf w.place.addr with
      | none => s
      | some (p, b) =>
        let s := match guardOf p b w.place.addr with
          | some (_, g, i) => if w.why = Reason.owner.code then s.set1 g i else s
          | none => s
        if bitsAt (s.reg (b + 0x1C)).toNat 31 1 = 1 then s
        else s.setReg (b + 0x1C)
          (word (2 ^ 31 + w.why * 2 ^ 27 + (s.consist k).owner * 2 ^ 19 + (w.place.addr - b)))
    s.consistEnd k out

/-- CLOSED consists due at departure `d`, in the order of their COMMITs. -/
def State.dueConsists (s : State) (d : Nat) : List Nat :=
  let ks := (List.range 4).filter (fun k =>
    let x := s.consist k
    x.st = .closed && (match x.dep with | some e => decide (e ≤ d) | none => false))
  sortBy (fun k => (s.consist k).order) ks

/-- Each consist checked against a probe in which the earlier ones are laid in. -/
def State.checkAll (s probe : State) : List Nat → State
  | [] => s
  | k :: ks =>
    match probe.verdict (s.consist k) with
    | (t, none) => (s.setConsist k { s.consist k with passed := true, mode := s.mode.code }).checkAll t ks
    | (_, some (out, w)) => (s.checkFails k out w).checkAll probe ks

/-- The next boundary to be processed. DESIGN CHOICE (entry 12): after a backward step the boundaries of the repeated
departures are processed anew. -/
def State.nextBoundary (s : State) : Nat := if s.dsp.bdep + 1 ≤ s.dep then s.dep else s.dsp.bdep + 1

/-- Modes in which a consist commits (R312, R374). -/
def Mode.commits (m : Mode) : Bool := m = .configure || m.running || m = .factory

/-- Consists that no check reaches in cycle c − 1 of a mode without commits: the mode of that cycle is noted (R310). -/
def State.unchecked (s : State) (ks : List Nat) : State :=
  ks.foldl (fun s k => s.setConsist k { s.consist k with passed := true, mode := s.mode.code }) s

/-- The check in cycle c − 1 of the next boundary. -/
def State.consistCheck (s : State) : State :=
  let d := s.nextBoundary
  if d ≤ s.dep then s
  else
    let s := s.advanceVt (s.boundary d - 64)
    if s.mode.commits then s.checkAll s (s.dueConsists d) else s.unchecked (s.dueConsists d)

/-- `CONSIST_CHECK` (R310). -/
def execConsistCheck (s : State) : Out := done (if s.mode.alive then s.consistCheck else s)

/-! ### The swap at cycle c -/

/-- Every staged value of a consist swapped into place, in staging order. -/
def State.swapIn (s : State) (x : Consist) : State :=
  x.places.foldl (fun s p => (s.probe x.req fun s => s.put x.req p.addr (s.stagedVal p.addr p.val) (some p.role)).1) s

/-- A consist commits. -/
def State.commitSwap (s : State) (k : Nat) : State := (s.swapIn (s.consist k)).consistEnd k coCommitted

/-- A consist due at departure `d`: MISSED in a mode without commits, where the mode is not the one of its check, or where
the pair's rule turns it away; otherwise swapped, checked on the spot where its check has not come before. -/
def State.commitOne (s : State) (d k : Nat) : State :=
  let x := s.consist k
  let c := d * s.dsp.period
  if !s.mode.commits || (x.passed && x.mode ≠ s.mode.code) || !s.twn.inTime k c then s.consistEnd k coMissed
  else if x.passed then s.commitSwap k
  else
    match s.verdict x with
    | (_, none) => s.commitSwap k
    | (_, some (out, w)) => s.checkFails k out w

/-- The mirrored consist of CNS slot `k` on a STANDBY, as a consist of its own. -/
def MirCns.asConsist (m : MirCns) : Consist :=
  { st := .closed, owner := m.owner, whn := m.whn, dep := m.dep, entry := m.entry
    places := m.vals.map (fun p => { addr := p.1, val := p.2, role := .none }) }

/-- A mirrored consist due at departure `d` on a STANDBY (R355): applied where it was acknowledged in time and passes the
STANDBY's own check; the verdict is kept. -/
def State.commitMirrored (s : State) (d : Nat) (m : MirCns) : State :=
  let c := d * s.dsp.period
  let inTime : Bool := match m.acked with | some a => decide (a + 401 ≤ c) | none => false
  let x := m.asConsist
  let ok := m.complete && inTime && (s.verdict x).2.isNone
  let s := if ok then s.swapIn x else s
  s.onTwn fun t => { t with cons := t.cons.map (fun n => if n = m then { n with verdict := some ok } else n) }

/-- Mirrored consists due at departure `d`. -/
def State.dueMirrored (s : State) (d : Nat) : List MirCns :=
  s.twn.cons.filter (fun m => m.verdict.isNone && (match m.dep with | some e => decide (e ≤ d) | none => false))

/-! ### The boundary (R15) -/

/-- The commits of departure `d`. -/
def State.commits (s : State) (d : Nat) : State :=
  let s := (s.dueConsists d).foldl (fun s k => s.commitOne d k) s
  if s.mode = .standby then (s.dueMirrored d).foldl (fun s m => s.commitMirrored d m) s else s

/-- Cycle c of the next boundary: the verdict on the departure that ends, the swaps, line settings and the vernier epoch
that come into force, what the pair does at a boundary. -/
def State.departureBoundary (s : State) : State :=
  let d := s.nextBoundary
  let s := (s.yieldNow d).advanceVt (s.boundary d)
  let (s, safe) := ({ s with dsp := { s.dsp with overMove := [] } } : State).judge (d - 1)
  let s := { s with dsp := { s.dsp with bdep := d, hk := true, lastMove := s.raw + 15 } }
  let s := (s.commits d).linesApply.epochSwap
  let s := s.copyOut.heartbeat
  if safe then (s.advance (s.raw + 1)).enterSafe 1 0 else s

/-- `DEPARTURE_BOUNDARY` (R15). -/
def execDepartureBoundary (s : State) : Out := done (if s.mode.alive then s.departureBoundary else s)

end Sys2Proof.Machine
end

