-- ==== Sys2Proof/Machine/Operands.lean ====
section
/-! DEFINITION. The fields of a microword and of a nanoword, and the operand and destination forms of the engines
(file 07: R178 to R181, R187, R188). -/

namespace Sys2Proof.Machine

/-! ### The microword (table of the microword) -/

def mSeq (m : Nat) : Nat := bitsAt m 20 4
def mNp (m : Nat) : Nat := bitsAt m 9 11
def mImm (m : Nat) : Nat := bitsAt m 0 9

/-- SEQ codes (R178). -/
abbrev sqNext : Nat := 0x0
abbrev sqJump : Nat := 0x1
abbrev sqJumpC : Nat := 0x2
abbrev sqCall : Nat := 0x3
abbrev sqRet : Nat := 0x4
abbrev sqEnd : Nat := 0x5
abbrev sqMwb : Nat := 0x6
abbrev sqPage : Nat := 0x7
abbrev sqWait : Nat := 0x8
abbrev sqSeal : Nat := 0x9
abbrev sqUnseal : Nat := 0xA

/-! ### The nanoword (table of the nanoword, R180) -/

def nAlu (w : Nat) : Nat := bitsAt w 122 6
def nSrcA (w : Nat) : Nat := bitsAt w 117 5
def nSrcB (w : Nat) : Nat := bitsAt w 112 5
def nDst (w : Nat) : Nat := bitsAt w 107 5
def nAcc (w : Nat) : Nat := bitsAt w 103 4
def nAbase (w : Nat) : Nat := bitsAt w 99 4
def nAofs (w : Nat) : Nat := bitsAt w 87 12
def nAdat (w : Nat) : Nat := bitsAt w 82 5
def nFlagW (w : Nat) : Nat := bitsAt w 80 2
/-- CSEL and CPOL of condition `i`, 0 to 3. -/
def nCsel (w i : Nat) : Nat := bitsAt w (75 - 6 * i) 5
def nCpol (w i : Nat) : Bool := bitsAt w (74 - 6 * i) 1 = 1
def nNsel (w : Nat) : Nat := bitsAt w 54 2
def nDlen (w : Nat) : Bool := bitsAt w 53 1 = 1
def nDlreg (w : Nat) : Nat := bitsAt w 51 2
def nUfsel (w : Nat) : Nat := bitsAt w 49 2
def nUfop (w : Nat) : Nat := bitsAt w 47 2
def nTreg (w : Nat) : Nat := bitsAt w 43 4
def nAhi (w : Nat) : Nat := bitsAt w 34 9
def nAbs (w : Nat) : Bool := bitsAt w 33 1 = 1
def nReserved (w : Nat) : Bool := bitsAt w 32 1 = 1
def nK32 (w : Nat) : Nat := bitsAt w 0 32

/-! ### Operations and accesses -/

/-- An operation of the stamp ALU (R182). -/
def stampOp (a : Nat) : Bool := 0x20 ≤ a
/-- Reserved ALUOP codes. -/
def aluReserved (a : Nat) : Bool := (0x18 ≤ a && a < 0x20) || 0x28 ≤ a
/-- Operations that ignore SRCB: MOV, CLZ, SMOV, SNAR, SFLR. -/
def aluUnary (a : Nat) : Bool := a = 0x01 || a = 0x15 || a = 0x20 || a = 0x24 || a = 0x27
/-- Operations that write no destination: NOP, CMP, TST, SCMP. -/
def aluSilent (a : Nat) : Bool := a = 0x00 || a = 0x16 || a = 0x17 || a = 0x25
def usesA (w : Nat) : Bool := nAlu w ≠ 0
def usesB (w : Nat) : Bool := nAlu w ≠ 0 && !aluUnary (nAlu w)
def usesDst (w : Nat) : Bool := !aluSilent (nAlu w)

/-- A read access: RD_SID, RD_ICB, RD_REG, RD_TT (R187). -/
def accRead (a : Nat) : Bool := a = 1 || a = 3 || a = 5 || a = 7
/-- A write access: WR_SID, WR_ICB, WR_REG. -/
def accWrite (a : Nat) : Bool := a = 2 || a = 4 || a = 6
/-- An insertion, a cancellation. -/
def accIns (a : Nat) : Bool := a = 8 || a = 9
def accCan (a : Nat) : Bool := a = 10 || a = 11
def accTt (a : Nat) : Bool := accIns a || accCan a

/-- Destination codes that no word may name (R181). -/
def dstReserved (d : Nat) : Bool := 0x18 ≤ d && d < 0x1F

/-- A destination that a stamp operation may not write (R183): SNAR writes 32 bits, every other a whole stamp register. -/
def stampDstBad (a d : Nat) : Bool :=
  if a = 0x24 then dstReserved d else !((0x10 ≤ d && d < 0x14) || d = 0x1F)

/-- A reserved operand code of a stamp operation (R181). -/
def stampSrcBad (c : Nat) : Bool := 0x14 ≤ c && c < 0x18

/-- The ALU fields of a nanoword hold a reserved code (R180 to R183). -/
def aluBad (w : Nat) : Bool :=
  aluReserved (nAlu w)
    || (if stampOp (nAlu w) then
          stampSrcBad (nSrcA w) || (usesB w && stampSrcBad (nSrcB w)) || (usesDst w && stampDstBad (nAlu w) (nDst w))
        else usesDst w && dstReserved (nDst w))

/-- The access fields of a nanoword hold a reserved code or combination (R187, R188). -/
def accBad (w : Nat) : Bool :=
  0xC ≤ nAcc w || (accRead (nAcc w) && dstReserved (nAdat w)) || (accTt (nAcc w) && nAbs w)
    || (accIns (nAcc w) && nAbase w % 4 ≠ 0)

/-- A word that faults with RESERVED_OP (R178 to R180). -/
def wordBad (m w : Nat) : Bool :=
  0xB ≤ mSeq m || (mSeq m = sqPage && bitsAt (mImm m) 4 5 ≠ 0) || nReserved w || aluBad w || accBad w

/-! ### The registers a word reads and writes (R190) -/

/-- The bank registers of an operand code, by destination code: the halves of a stamp register stand apart. -/
def srcRegs (c : Nat) (wide : Bool) : List Nat :=
  if c < 0x10 then [c]
  else if c < 0x14 then (if wide then [c, c + 4] else [c])
  else if c < 0x18 then [c]
  else []

/-- Conditions that a word tests, by number. -/
def condsOf (m w : Nat) : List Nat :=
  if mSeq m = sqJumpC ∨ mSeq m = sqWait then [0] else if mSeq m = sqMwb then List.range (nNsel w + 1) else []

/-- A word forms an address from a general register. -/
def usesBase (m w : Nat) : Bool :=
  !nAbs w && (accRead (nAcc w) || accWrite (nAcc w) || (mSeq m = sqWait && 0x10 ≤ nCsel w 0))

/-- The bank registers that a word reads. -/
def wordReads (m w : Nat) : List Nat :=
  let wide := stampOp (nAlu w)
  (if usesA w then srcRegs (nSrcA w) wide else []) ++ (if usesB w then srcRegs (nSrcB w) wide else [])
    ++ (if accWrite (nAcc w) then srcRegs (nAdat w) false else [])
    ++ (if usesBase m w then [nAbase w] else [])
    ++ (if accIns (nAcc w) then [nAbase w, nAbase w + 1, nAbase w + 2, nAbase w + 3] else [])
    ++ (if accCan (nAcc w) then [nAbase w] else [])
    ++ (if mSeq m ≠ sqWait ∧ (condsOf m w).any (fun i => decide (0x10 ≤ nCsel w i)) then [nTreg w] else [])
    ++ (if mSeq m = sqWait ∧ nDlen w then [0x10 + nDlreg w, 0x14 + nDlreg w] else [])

/-- The bank registers that a word writes: its DST, and the ADAT of its read. -/
def wordWrites (w : Nat) : List Nat :=
  (if usesDst w then srcRegs (nDst w) (stampOp (nAlu w) && nAlu w ≠ 0x24) else [])
    ++ (if accRead (nAcc w) then srcRegs (nAdat w) false else [])

/-- A word reads TTR. -/
def readsTtr (w : Nat) : Bool :=
  (usesA w && nSrcA w = 0x1E) || (usesB w && nSrcB w = 0x1E) || (accWrite (nAcc w) && nAdat w = 0x1E)

/-- An operation that writes Z, N, C and V whatever FLAGW holds: CMP, TST, SCMP (R184). -/
def flagsAlways (op : Nat) : Bool := op = 0x16 || op = 0x17 || op = 0x25

/-- A word writes Z, N, C and V (R184). -/
def writesFlags (w : Nat) : Bool := nAlu w ≠ 0 && (nFlagW w ≠ 0 || flagsAlways (nAlu w))

/-- A word uses Z, N, C or V of the word before it: as a condition, or C loaded by UFOP where it writes no flags. -/
def readsFlags (m w : Nat) : Bool :=
  (condsOf m w).any (fun i => 1 ≤ nCsel w i && nCsel w i ≤ 4) || (nUfop w = 3 && !writesFlags w)

/-- A word tests SAT. -/
def readsSat (m w : Nat) : Bool := (condsOf m w).any (fun i => nCsel w i = 5)

/-! ### Operands (table of operand codes) -/

/-- What a word's operands read: its bank, IMM, K32, and the times of its cycle. -/
structure OpCtx where
  bank : Bank
  imm : Nat
  k32 : Nat
  vt : Nat
  nb : Nat
  dep : Nat
  deriving DecidableEq, Repr

/-- An operand of a 32-bit operation or of a write. -/
def OpCtx.op32 (x : OpCtx) (c : Nat) : Nat :=
  if c < 0x10 then (x.bank.gr c).toNat
  else if c < 0x14 then x.bank.sr (c - 0x10) % 2 ^ 32
  else if c < 0x18 then x.bank.sr (c - 0x14) / 2 ^ 32
  else if c = 0x18 then x.imm
  else if c = 0x19 then bitsOfInt 32 (signedOf 9 x.imm)
  else if c = 0x1A then x.k32
  else if c = 0x1B then x.vt % 2 ^ 32
  else if c = 0x1C then x.nb % 2 ^ 32
  else if c = 0x1D then x.dep % 2 ^ 32
  else if c = 0x1E then x.bank.ttr.toNat
  else 0

/-- An operand of a stamp operation: 64 bits, a 32-bit operand sign-extended (R181). -/
def OpCtx.op64 (x : OpCtx) (c : Nat) : Nat :=
  if 0x10 ≤ c ∧ c < 0x14 then x.bank.sr (c - 0x10)
  else if c = 0x1B then x.vt % 2 ^ 64
  else if c = 0x1C then x.nb % 2 ^ 64
  else bitsOfInt 64 (signedOf 32 (x.op32 c))

/-- The byte address of an access in a space of `size` bytes, bits 1:0 ignored (R188). -/
def accAddr (b : Bank) (w size : Nat) : Nat :=
  ((if nAbs w then nAhi w * 4096 else (b.gr (nAbase w)).toNat) + nAofs w) % size / 4 * 4

end Sys2Proof.Machine
end

