-- ==== Sys2Proof/Machine/Flags.lean ====
section
/-! DEFINITION. The ALU and the stamp ALU of the engines with every flag they compute (file 07: R182 to R184). -/

namespace Sys2Proof.Machine

/-- What an operation gives: its result, C, V, whether it saturated, and the place of its most significant bit. -/
structure AluOut where
  res : Nat
  c : Bool := false
  v : Bool := false
  sat : Bool := false
  top : Nat := 31
  deriving DecidableEq, Repr

def AluOut.z (x : AluOut) : Bool := x.res = 0
def AluOut.n (x : AluOut) : Bool := bitsAt x.res x.top 1 = 1

/-- A signed number clamped to `n` bits, with whether it was clamped. -/
def clampInt (n : Nat) (x : Int) : Nat × Bool :=
  let hi : Int := (2 ^ (n - 1) : Nat) - 1
  let lo : Int := -((2 ^ (n - 1) : Nat) : Int)
  if hi < x then (bitsOfInt n hi, true) else if x < lo then (bitsOfInt n lo, true) else (bitsOfInt n x, false)

/-- A number clamped to 0 … 2^64 − 1. -/
def clampStamp (x : Int) : Nat × Bool :=
  if x < 0 then (0, true) else if (2 ^ 64 : Nat) ≤ x.toNat then (2 ^ 64 - 1, true) else (x.toNat, false)

/-- A signed sum of two 32-bit values leaves the 32-bit range. -/
def overflows (x : Int) : Bool := x < -((2 ^ 31 : Nat) : Int) || ((2 ^ 31 : Nat) : Int) ≤ x

/-- Leading zeros of a 32-bit value. -/
def clz32 (a : Nat) : Nat := if a = 0 then 32 else 31 - a.log2

/-- Operations of the 32-bit ALU (table of ALU operations) on operands below 2^32. -/
def alu32 (op a b : Nat) : AluOut :=
  let sa := signedOf 32 a
  let sb := signedOf 32 b
  let n := b % 32
  let low (x : Nat) : AluOut := { res := x % 2 ^ 32 }
  let sub : AluOut := { res := (a + (2 ^ 32 - b)) % 2 ^ 32, c := a < b, v := overflows (sa - sb) }
  if op = 0x01 then low a
  else if op = 0x02 then { res := (a + b) % 2 ^ 32, c := 2 ^ 32 ≤ a + b, v := overflows (sa + sb) }
  else if op = 0x03 then sub
  else if op = 0x04 then
    let r := clampInt 32 (sa + sb)
    { res := r.1, c := 2 ^ 32 ≤ a + b, v := r.2, sat := r.2 }
  else if op = 0x05 then
    let r := clampInt 32 (sa - sb)
    { res := r.1, c := a < b, v := r.2, sat := r.2 }
  else if op = 0x06 then low (a &&& b)
  else if op = 0x07 then low (a ||| b)
  else if op = 0x08 then low (a ^^^ b)
  else if op = 0x09 then low (a &&& (2 ^ 32 - 1 - b))
  else if op = 0x0A then { res := a * 2 ^ n % 2 ^ 32, c := n ≠ 0 && bitsAt a (32 - n) 1 = 1 }
  else if op = 0x0B then { res := a / 2 ^ n, c := n ≠ 0 && bitsAt a (n - 1) 1 = 1 }
  else if op = 0x0C then { res := bitsOfInt 32 (sa / (2 ^ n : Nat)), c := n ≠ 0 && bitsAt a (n - 1) 1 = 1 }
  else if op = 0x0D then low (a / 2 ^ n + a * 2 ^ (32 - n))
  else if op = 0x0E then low (a * b)
  else if op = 0x0F then low (a * b / 2 ^ 32)
  else if op = 0x10 then low (if sa ≤ sb then a else b)
  else if op = 0x11 then low (if sa ≤ sb then b else a)
  else if op = 0x12 then low (Nat.min a b)
  else if op = 0x13 then low (Nat.max a b)
  else if op = 0x14 then low (a / 2 ^ n % 2 ^ (bitsAt b 5 5 + 1))
  else if op = 0x15 then low (clz32 a)
  else if op = 0x16 then sub
  else if op = 0x17 then low (a &&& b)
  else low 0

/-- Operations of the stamp ALU, on 64-bit operands: exact, then clamped (R183). -/
def alu64 (op a b : Nat) : AluOut :=
  let whole (r : Nat × Bool) : AluOut := { res := r.1, sat := r.2, top := 63 }
  if op = 0x20 then whole (a, false)
  else if op = 0x21 then whole (clampStamp ((a : Int) + signedOf 64 b))
  else if op = 0x22 then whole (clampStamp ((a : Int) - signedOf 64 b))
  else if op = 0x23 then whole (clampInt 64 ((a : Int) - (b : Int)))
  else if op = 0x24 then
    let r := clampInt 32 (signedOf 64 a)
    { res := r.1, sat := r.2, top := 31 }
  else if op = 0x25 then { res := (a + (2 ^ 64 - b)) % 2 ^ 64, c := a < b, top := 63 }
  else if op = 0x26 then whole (bitsOfInt 64 (signedOf 64 a / (2 ^ (b % 64) : Nat)), false)
  else whole (a / 64 * 64, false)

/-- The operation of a nanoword on its operands. -/
def OpCtx.alu (x : OpCtx) (w : Nat) : AluOut :=
  if stampOp (nAlu w) then alu64 (nAlu w) (x.op64 (nSrcA w)) (x.op64 (nSrcB w))
  else alu32 (nAlu w) (x.op32 (nSrcA w)) (x.op32 (nSrcB w))

/-- The flags after the operation of a nanoword (R184). -/
def Bank.flagged (b : Bank) (w : Nat) (o : AluOut) : Bank :=
  let f := nFlagW w
  if nAlu w = 0 then b
  else
    let b := if f ≠ 0 || flagsAlways (nAlu w) then { b with z := o.z, n := o.n, c := o.c, v := o.v } else b
    if f = 2 then { b with sat := o.sat } else if f = 3 then { b with sat := b.sat || o.sat } else b

/-- UFOP, which acts after the operation of its word (R184). -/
def Bank.userFlag (b : Bank) (w : Nat) : Bank :=
  let v := if nUfop w = 1 then true else if nUfop w = 2 then false else b.c
  if nUfop w = 0 then b
  else if nUfsel w = 0 then { b with f0 := v }
  else if nUfsel w = 1 then { b with f1 := v }
  else if nUfsel w = 2 then { b with f2 := v }
  else { b with acc := v }

/-- The result written to DST: a whole stamp register by every stamp operation but SNAR. -/
def Bank.result (b : Bank) (w : Nat) (o : AluOut) : Bank :=
  if usesDst w then b.put (nDst w) o.res (stampOp (nAlu w) && nAlu w ≠ 0x24) else b

end Sys2Proof.Machine
end

