-- ==== Sys2Proof/Machine/EngWords.lean ====
section
/-! DEFINITION. The words of the engines (file 07, and R153 to R172 of file 06): fetch, hazards, accesses, sealed sections,
sequencing. Each command executes the next word of an engine, where that word is the command's. -/

namespace Sys2Proof.Machine

/-! ### The word that executes next -/

/-- The first raw cycle in which that word may execute: after the engine's last word, an idle cycle later on another level,
two cycles after the wait of its routine resolved (R153, R186). -/
def Engine.wordAt (x : Engine) (l : Nat) (rt : Routine) (raw : Nat) : Nat :=
  max raw (max (rt.woke + 2) (if l = x.cur then x.next else x.next + 1))

/-- The section that is open, not the one that commits. -/
def Engine.openSect (x : Engine) : Option SealSect := x.sect.bind (fun c => if c.done.isNone then some c else none)

/-- The stored microword and nanoword of a routine. -/
def State.microAt (s : State) (e pc : Nat) : Nat := SMap.get (fun _ => 0) s.stores.micro (e * 8192 + pc)
def State.nanoAt (s : State) (p i : Nat) : Nat := SMap.get (fun _ => 0) s.stores.nano (p * 2048 + i)

/-! ### Fetch (R172) -/

/-- The first copy after copy `p` whose nanoword `i` checks clean. -/
def State.cleanCopy (s : State) (p i : Nat) : Option Nat :=
  [1, 2, 3].map (fun k => (p + k) % 4) |>.find? (fun q => s.nanMark (q * 2048 + i) ≠ 2)

/-- A nanoword repaired from copy `q`: up to 8 cycles, how many the manual leaves open. -/
def State.nanoRepair (s : State) (e p q i : Nat) : State :=
  let v := s.nanoAt q i
  let s := { s with stores := { s.stores with nano := SMap.put (fun _ => 0) s.stores.nano (p * 2048 + i) v } }
  let s := s.setNanMark (p * 2048 + i) 0
  let s := (s.bump MEN.ECC1.NANO_REPAIR 1 (pgAt (2 * p))).bump MEN.ECC1.NANO_REPAIR 1 (pgAt (2 * p + 1))
  (s.enIrq e MEN.IRQ_RAW.ECC_REPAIR).draw

/-- What a fetch finds: the state after its corrections, the stall cycles they cost, the nanoword; or a fault reason. -/
structure Fetched where
  st : State
  stall : Nat
  nano : Nat
  bad : Option Nat := none
  deriving DecidableEq, Repr

/-- The fetch of the nanoword at `i` for engine `e`, after `k` stall cycles. -/
def State.fetchNano (s : State) (e i k : Nat) : Fetched :=
  let p := e / 2
  let m := s.nanMark (p * 2048 + i)
  if m = 2 then
    match s.cleanCopy p i with
    | none => { st := s, stall := k, nano := 0, bad := some efNano }
    | some q => { st := s.nanoRepair e p q i, stall := k + s.drawn % 9, nano := s.nanoAt q i }
  else { st := s.nanFix e (p * 2048 + i), stall := k + m, nano := s.nanoAt p i }

/-- The fetch of the microword at `pc` and of the nanoword it names. -/
def State.fetch (s : State) (e pc : Nat) : Fetched :=
  let m := s.micMark (e * 8192 + pc)
  if m = 2 then { st := s, stall := 0, nano := 0, bad := some efMicro }
  else (s.micFix e (e * 8192 + pc)).fetchNano e (mNp (s.microAt e pc)) m

/-! ### Hazards (R185, R189, R190) -/

/-- A read of engine `e` whose data has not come. -/
def State.readsOf (s : State) (e : Nat) : List (Nat × Nat) :=
  let one (w : Wait) : Option (Nat × Nat) :=
    match w.kind with
    | .engRead l d _ => if w.req.id = 0x10 + e then some (l, d) else none
    | _ => none
  (s.mem.arrivals.filter (fun a => a.eng = e)).map (fun a => (a.lvl, a.dst))
    ++ s.mem.waits.filterMap one ++ s.mem.portA.filterMap one

/-- A word waits for something that another command brings: a register with a read outstanding, a fifth read, TTR before
its result (a cancellation of the open section excepted, R189), a second timetable access. -/
def State.wordWaits (s : State) (e l m w : Nat) : Bool :=
  let rs := s.readsOf e
  let x := s.engine e
  let mine : Bool := match x.tt with
    | some t => t.lvl = l && !(t.can && ((x.openSect.bind SealSect.last) = some true))
    | none => false
  (wordReads m w ++ wordWrites w).any (fun d => rs.contains (l, d))
    || (accRead (nAcc w) && 4 ≤ rs.length)
    || (readsTtr w && mine && bitsAt (x.bank l).ttr.toNat 31 1 = 0)
    || (accTt (nAcc w) && x.tt.isSome)

/-- The first raw cycle in which the product that a word uses is available. -/
def Engine.mulAt (x : Engine) (l m w : Nat) : Nat :=
  match x.mul with
  | none => 0
  | some (k, d, f, t) =>
    if k = l && ((wordReads m w).contains d || (f ≠ 0 && readsFlags m w) || (2 ≤ f && readsSat m w)) then t else 0

/-! ### Accesses (R162, R168, R187 to R189) -/

/-- The value that the section's buffered writes give an address of one space (R162). -/
def Engine.buffered (x : Engine) (pick : SealWrite → Option Word) : Option Word :=
  match x.openSect with
  | none => none
  | some c => (c.writes.filterMap pick).reverse.head?

def SealWrite.ofSid (i : Nat) : SealWrite → Option Word
  | .sid j v => if j = i then some v else none
  | _ => none

def SealWrite.ofIcb (i : Nat) : SealWrite → Option Word
  | .icb j v => if j = i then some v else none
  | _ => none

def SealWrite.ofReg (a : Nat) : SealWrite → Option Word
  | .reg b v => if b = a then some v else none
  | _ => none

/-- Word `i` of the timetable window in a buffered insertion. -/
def SealWrite.ofTt (i : Nat) : SealWrite → Option Word
  | .ins j _ b => if j = i / 4 then some (word (b / 2 ^ (32 * (i % 4)))) else none
  | _ => none

/-- Read data that comes `k` cycles from now. -/
def State.comesIn (s : State) (e l d k : Nat) (v : Word) : State :=
  { s with mem := { s.mem with arrivals := s.mem.arrivals ++
      [{ eng := e, lvl := l, dst := d, val := v.toNat, time := s.raw + k }] } }

/-- A write of a section put into its buffer. -/
def State.buffer (s : State) (e : Nat) (w : SealWrite) : State :=
  let x := s.engine e
  match x.sect with
  | none => s
  | some c => s.setEngine e { x with sect := some { c with writes := c.writes ++ [w] } }

/-- A log store access of an engine on its way to its siding, an interchange bank access on its way to port A. -/
def State.toSiding (s : State) (r : Requester) (i : Nat) (k : WaitKind) : State :=
  { s with mem := { s.mem with waits := s.mem.waits ++ [{ sid := i / 32768, idx := i, req := r, kind := k, since := s.raw }] } }

def State.toPortA (s : State) (r : Requester) (i : Nat) (k : WaitKind) : State :=
  { s with mem := { s.mem with portA := s.mem.portA ++ [{ sid := 16, idx := i, req := r, kind := k, since := s.raw }] } }

/-- A discarded write of an engine: ACC of the bank, and ACC_ERR (R167). -/
def State.accErr (s : State) (e l : Nat) : State :=
  let x := s.engine e
  (s.setEngine e (x.setBank l { x.bank l with acc := true })).enIrq e MEN.IRQ_RAW.ACC_ERR

/-- A register write of an engine, with what R167 adds where it is discarded. -/
def State.engPut (s : State) (e : EngineId) (l a : Nat) (v : Word) : State :=
  match s.probe (.engine e) fun s => s.write (.engine e) a v with
  | (t, none) => t
  | (t, some _) => t.accErr e.val l

/-- A read access of level `l`. -/
def State.engRead (s : State) (e : EngineId) (l w : Nat) (b : Bank) : State :=
  let x := s.engine e.val
  let r : Requester := .engine e
  let d := nAdat w
  let a := nAcc w
  if a = 1 then
    let i := accAddr b w 0x200000 / 4
    match x.buffered (SealWrite.ofSid i) with
    | some v => s.comesIn e.val l d 2 v
    | none => s.toSiding r i (.engRead l d s.raw)
  else if a = 3 then
    let i := accAddr b w 0x10000 / 4
    match x.buffered (SealWrite.ofIcb i) with
    | some v => s.comesIn e.val l d 2 v
    | none => s.toPortA r i (.engRead l d s.raw)
  else if a = 5 then
    let at_ := accAddr b w 0x200000
    match x.buffered (SealWrite.ofReg at_) with
    | some v => s.comesIn e.val l d 6 v
    | none => (s.read r at_).1.comesIn e.val l d 6 (s.read r at_).2.1
  else
    let i := accAddr b w 0x40000 / 4
    match x.buffered (SealWrite.ofTt i) with
    | some v => s.comesIn e.val l d 4 v
    | none => ((s.touch stTt).checked stTt i).comesIn e.val l d 4 (s.ttWord i)

/-- A write access of level `l`: at once, or into the buffer of its section. -/
def State.engWrite (s : State) (e : EngineId) (l w : Nat) (b : Bank) (v : Word) : State :=
  let x := s.engine e.val
  let r : Requester := .engine e
  let held := x.openSect.isSome
  if nAcc w = 2 then
    let i := accAddr b w 0x200000 / 4
    if held then s.buffer e.val (.sid i v) else s.toSiding r i (.engWrite v)
  else if nAcc w = 4 then
    let i := accAddr b w 0x10000 / 4
    if held then s.buffer e.val (.icb i v) else s.toPortA r i (.engWrite v)
  else
    let a := accAddr b w 0x200000
    if held then s.buffer e.val (.reg a v) else s.engPut e l a v

/-- A timetable access issues: TTR reads DONE = 0 until its result comes (R189). -/
def State.ttIssue (s : State) (e l : Nat) (can : Bool) : State :=
  let x := s.engine e
  let sect := x.sect.map (fun c => { c with last := some can })
  s.setEngine e ({ x with tt := some { lvl := l, can := can }, sect := sect }.setBank l { x.bank l with ttr := 0 })

/-- A timetable access discarded with reason BUSY: the engine's earlier one of that kind is pending (R97, R108), or the
mirror queue is full (R352). Its TTR stays as it is (DESIGN CHOICE, entry 44). -/
def State.ttRefused (s : State) (e : EngineId) (l a : Nat) : State := (s.discard a (.engine e) .busy).accErr e.val l

/-- The entry held in four general registers from ABASE on. -/
def entryIn (b : Bank) (k : Nat) : Nat :=
  (b.gr k).toNat + (b.gr (k + 1)).toNat * 2 ^ 32 + (b.gr (k + 2)).toNat * 2 ^ 64 + (b.gr (k + 3)).toNat * 2 ^ 96

/-- An insertion checked inside a section (R164): its slot taken at once, its result as outside one. -/
def State.insertHeld (s : State) (e : EngineId) (bits : Nat) (park : Bool) : State :=
  let c := s.insertCode bits park
  if c ≠ 0 then (s.insRefused (.engine e) c).ttResult e.val (insWord c 0) (s.raw + 8)
  else
    let (t, i) := s.reserveSlot
    (t.buffer e.val (.ins i park bits)).ttResult e.val (insWord 0 i) (s.raw + 8)

/-- A timetable access of level `l`. -/
def State.engTt (s : State) (e : EngineId) (l w : Nat) (b : Bank) : State :=
  let held := ((s.engine e.val).openSect).isSome
  let r : Requester := .engine e
  if accIns (nAcc w) then
    let bits := entryIn b (nAbase w)
    let park : Bool := nAcc w = 9
    if s.insPends r then s.ttRefused e l (DSP.INS.V.off + 12)
    else if s.mqFull then (s.ttRefused e l (DSP.INS.V.off + 12)).set1 TWN.IRQ_RAW.MQ_FULL
    else
      let s := s.ttIssue e.val l false
      if held then s.insertHeld e bits park
      else { s with dsp := { s.dsp with port := s.dsp.port ++ [{ req := r, bits := bits, park := park, lvl := some l }] } }
  else
    let i := (b.gr (nAbase w)).toNat % 2 ^ 14
    let chain : Bool := nAcc w = 11
    if held then (s.ttIssue e.val l true).buffer e.val (.can i chain)
    else if s.canPends r then s.ttRefused e l DSP.CANCEL.INDEX.off
    else (s.ttIssue e.val l true).cancel r (some l) i chain

/-- The access of a word, with the bank as it stood at the word's start and the value its ADAT operand had. -/
def State.engAccess (s : State) (e : EngineId) (l w : Nat) (b : Bank) (v : Word) : State :=
  if accRead (nAcc w) then s.engRead e l w b
  else if accWrite (nAcc w) then s.engWrite e l w b v
  else if accTt (nAcc w) then s.engTt e l w b
  else s

/-! ### The nanoword -/

/-- The operands of a word of level `l` in this cycle. -/
def State.opCtx (s : State) (e l m w : Nat) : OpCtx := {
  bank := (s.engine e).bank l, imm := mImm m, k32 := nK32 w, vt := s.cyc * 64, nb := s.boundary (s.dep + 1), dep := s.dep }

/-- Condition `i` of a word of level `l`. -/
def State.condOf (s : State) (e l w i : Nat) : Bool :=
  s.condSrc e l (nCsel w i) (((s.engine e).bank l).gr (nTreg w)) != nCpol w i

/-- The operation, the flags, UFOP and the access of a word. -/
def State.actNano (s : State) (e : EngineId) (l m w : Nat) : State :=
  let x := s.engine e.val
  let b := x.bank l
  let c := s.opCtx e.val l m w
  let o := c.alu w
  let b2 := ((b.flagged w o).userFlag w).result w o
  let product : Bool := nAlu w = 0x0E || nAlu w = 0x0F
  let mul : Option (Nat × Nat × Nat × Nat) := if product then some (l, nDst w, nFlagW w, s.raw + 2) else none
  let s := s.setEngine e.val { x.setBank l b2 with mul := mul }
  s.engAccess e l w b (word (c.op32 (nAdat w)))

/-! ### Sequencing (R154, R157 to R163) -/

/-- The routine of level `l` goes on at `pc`. -/
def State.goOn (s : State) (e l pc : Nat) : State :=
  let x := s.engine e
  match x.at_ l with
  | none => s
  | some r => s.setEngine e (x.setAt l (some { r with pc := pc }))

/-- The bank of level `l` changed. -/
def State.onBank (s : State) (e l : Nat) (f : Bank → Bank) : State :=
  let x := s.engine e
  s.setEngine e (x.setBank l (f (x.bank l)))

/-- {PAGE, x} (R157). -/
def paged (b : Bank) (x : Nat) : Nat := b.page * 512 + x

/-- The address that MWB forms: `c` ORed into the low n bits of IMM (R158). -/
def State.mwbTarget (s : State) (e l m w : Nat) : Nat :=
  let n := nNsel w + 1
  let c := ((List.range n).map (fun i => if s.condOf e l w i then 2 ^ i else 0)).sum
  paged ((s.engine e).bank l) (mImm m ||| c)

/-- The wait of a WAIT word, which executes in the cycle now (R159, R186). -/
def State.waitFor (s : State) (b : Bank) (w : Nat) : EngWait := {
  cond := nCsel w 0, pol := nCpol w 0
  dl := if nDlen w then some (nDlreg w) else none
  watch := accAddr b w 0x10000 / 4, since := s.raw }

/-- The address that a sequencing operation goes on at, with its effect on the bank, its wait and its section; nothing
where the routine ends. `s0` is the state at the start of the word, whose conditions and PAGE it tests (R156). -/
def State.sequence (s s0 : State) (e l pc m w : Nat) : State :=
  let b := (s0.engine e).bank l
  let q := mSeq m
  if q = sqJump then s.goOn e l (paged b (mImm m))
  else if q = sqJumpC then s.goOn e l (if s0.condOf e l w 0 then paged b (mImm m) else pc + 1)
  else if q = sqCall then
    (s.onBank e l fun b => { b with stack := (pc + 1, b.page) :: b.stack }).goOn e l (paged b (mImm m))
  else if q = sqRet then
    match b.stack with
    | [] => s.routineEnd e l outActed
    | (a, p) :: st => (s.onBank e l fun b => { b with stack := st, page := p }).goOn e l a
  else if q = sqEnd then s.routineEnd e l outActed
  else if q = sqMwb then s.goOn e l (s0.mwbTarget e l m w)
  else if q = sqPage then (s.onBank e l fun b => { b with page := mImm m % 16 }).goOn e l (pc + 1)
  else if q = sqWait then
    let x := s.engine e
    match x.at_ l with
    | none => s
    | some r => s.setEngine e ((x.setAt l (some { r with wait := some (s.waitFor b w) })).settled)
  else if q = sqUnseal then
    let x := s.engine e
    let sect := x.sect.map (fun c => { c with done := some s.raw })
    (s.setEngine e { x with sect := sect }).goOn e l (pc + 1)
  else s.goOn e l (pc + 1)

/-- The first word of a call has executed: its entry acts (R93, R147). -/
def State.firstWord (s : State) (e l : Nat) : State :=
  let x := s.engine e
  match x.at_ l with
  | none => s
  | some r =>
    if !r.first then s
    else
      let s := s.setEngine e (x.setAt l (some { r with first := false }))
      if r.cls = .call then s.acted (.slot r.slot) outActed else s

/-! ### Faults of a word (R157, R161, R171) -/

/-- The section's cycles or words are used up by raw cycle `c` (R161). -/
def Engine.overlong (x : Engine) (c : Nat) : Bool :=
  match x.openSect with
  | some k => 64 ≤ k.words || k.since + 256 ≤ c
  | none => false

/-- The word's next address, or the return address of its CALL, is PC + 1 (R157). -/
def State.falls (s : State) (e l m w : Nat) : Bool :=
  let q := mSeq m
  q = sqNext || (q = sqJumpC && !s.condOf e l w 0) || q = sqPage || q = sqWait || q = sqSeal || q = sqUnseal || q = sqCall

/-- The fault that the word of level `l` at `pc` raises at its start, in raw cycle `s.raw`. -/
def State.wordFault (s : State) (e l pc m w : Nat) : Option Nat :=
  let x := s.engine e
  let b := x.bank l
  let q := mSeq m
  let held := x.openSect.isSome
  if x.overlong s.raw then some efLong
  else if q = sqSeal && held then some efNest
  else if q = sqUnseal && !held then some efOpen
  else if q = sqWait && held then some efWait
  else if held && (q = sqEnd || (q = sqRet && b.stack.isEmpty)) then some efEnd
  else if q = sqCall && 8 ≤ b.stack.length then some efStack
  else if pc = 0x1FFF && s.falls e l m w then some efWrap
  else none

/-! ### A word (R152, R190) -/

/-- The engine's books after a word of level `l` in the cycle now. -/
def State.wordDone (s : State) (e l : Nat) : State :=
  let x := s.engine e
  let sect := x.sect.map (fun c => { c with words := c.words + 1 })
  s.setEngine e { x with sect := sect, cur := l, next := s.raw + 1 }

/-- The section that SEAL opens, before the word's nanoword acts (R178). -/
def State.openSeal (s : State) (e l m : Nat) : State :=
  if mSeq m = sqSeal then s.setEngine e { s.engine e with sect := some { lvl := l, words := 0, since := s.raw } } else s

/-- The word executes in the cycle now. -/
def State.runWord (s : State) (e : EngineId) (l pc m w : Nat) : State :=
  let t := ((s.firstWord e.val l).openSeal e.val l m).actNano e l m w
  (t.sequence s e.val l pc m w).wordDone e.val l

/-- The offending word's cycle passes, and the fault takes its effect. -/
def State.wordTrap (s : State) (e l pc reason : Nat) : State :=
  let x := s.engine e
  (s.setEngine e { x with cur := l, next := s.raw + 1 }).engFault e l pc reason

/-- A word that waits inside a section: SEAL_LONG once its cycles are used up, or where it waits for its own section's
commit; no effect before. -/
def State.waitsOn (s : State) (e l pc w : Nat) : State :=
  let x := s.engine e
  match x.openSect with
  | none => s
  | some c =>
    let own : Bool := match x.tt with | some t => t.can && t.lvl = l && t.res.isNone && accTt (nAcc w) | none => false
    let buffered := c.writes.any (fun w => match w with | .can _ _ => true | _ => false)
    if c.since + 256 ≤ s.raw ∨ (own ∧ buffered) then (s.advance (c.since + 256)).wordTrap e l pc efLong else s

/-- The next word of engine `e` executes, where the command `is` it. -/
def State.engWord (s : State) (e : EngineId) (is : Nat → Nat → Bool) : State :=
  let x := s.engine e.val
  if x.closed ∨ x.st = .halted ∨ (x.sect.isSome ∧ x.openSect.isNone) then s
  else
    match x.runs with
    | none => s
    | some l =>
      match x.at_ l with
      | none => s
      | some rt =>
        let f := s.fetch e.val rt.pc
        let m := s.microAt e.val rt.pc
        let c := max (x.wordAt l rt s.raw + f.stall) (x.mulAt l m f.nano)
        if (match x.startable with | some i => decide (i.since < c) | none => false) then s
        else if f.bad = some efMicro then (f.st.advance c).wordTrap e.val l rt.pc efMicro
        else if !is m f.nano then s
        else if f.bad.isSome then (f.st.advance c).wordTrap e.val l rt.pc efNano
        else if wordBad m f.nano then (f.st.advance c).wordTrap e.val l rt.pc efReserved
        else if s.wordWaits e.val l m f.nano then s.waitsOn e.val l rt.pc f.nano
        else
          let t := f.st.advance c
          match t.wordFault e.val l rt.pc m f.nano with
          | some r => t.wordTrap e.val l rt.pc r
          | none => t.runWord e l rt.pc m f.nano

/-- A command that executes a word with SEQ code `q`. -/
def seqWord (e : EngineId) (q : Nat) (s : State) : Out :=
  done (if s.mode.alive then s.engWord e (fun m _ => mSeq m = q) else s)

/-- `NEXT` (R157). -/
def execWordNext (e : EngineId) (s : State) : Out := seqWord e sqNext s

/-- `JUMP` (R157). -/
def execWordJump (e : EngineId) (s : State) : Out := seqWord e sqJump s

/-- `JUMPC` (R157). -/
def execWordJumpC (e : EngineId) (s : State) : Out := seqWord e sqJumpC s

/-- `CALL` (R157). -/
def execWordCall (e : EngineId) (s : State) : Out := seqWord e sqCall s

/-- `RET` (R157). -/
def execWordRet (e : EngineId) (s : State) : Out := seqWord e sqRet s

/-- `END` (R154). -/
def execWordEnd (e : EngineId) (s : State) : Out := seqWord e sqEnd s

/-- `MWB` (R158). -/
def execWordMwb (e : EngineId) (s : State) : Out := seqWord e sqMwb s

/-- `PAGE` (R179). -/
def execWordPage (e : EngineId) (s : State) : Out := seqWord e sqPage s

/-- `WAIT` (R159). -/
def execWordWait (e : EngineId) (s : State) : Out := seqWord e sqWait s

/-- `SEAL` (R161). -/
def execWordSeal (e : EngineId) (s : State) : Out := seqWord e sqSeal s

/-- `UNSEAL` (R163). -/
def execWordUnseal (e : EngineId) (s : State) : Out := seqWord e sqUnseal s

/-- `RESERVED_SEQ` (R178): a word with a reserved SEQ code or nanoword encoding. -/
def execWordReserved (e : EngineId) (s : State) : Out :=
  done (if s.mode.alive then s.engWord e wordBad else s)

/-! ### The commit of a section (R163, R166) -/

/-- A buffered write takes effect. A cancellation discarded because the engine's DSP.CANCEL is pending leaves TTR as a
discarded section does (DESIGN CHOICE, entry 44). -/
def State.commitWrite (s : State) (e : EngineId) (l : Nat) (w : SealWrite) : State :=
  let r : Requester := .engine e
  match w with
  | .sid i v => s.toSiding r i (.commit v)
  | .icb i v => s.toPortA r i (.commit v)
  | .reg a v => s.engPut e l a v
  | .ins i park bits =>
    let s := (s.writeSlot i { bits := bits, st := .queued }).seat i park
    (s.mirror (.ins i park r.id bits)).noteMine r
  | .can i chain =>
    if s.canPends r then (s.ttRefused e l DSP.CANCEL.INDEX.off).ttResult e.val (word 0xB0000000) s.raw
    else s.cancel r (some l) i chain

/-- Every buffered write of a section takes effect in the cycle after its UNSEAL, in program order. -/
def State.commitSect (s : State) (e : EngineId) : State :=
  let x := s.engine e.val
  match x.sect with
  | none => s
  | some c =>
    match c.done with
    | none => s
    | some u =>
      let s := (s.advance (u + 1)).setEngine e.val { x with sect := none }
      c.writes.foldl (fun s w => s.commitWrite e c.lvl w) s

/-- `SEAL_COMMIT` (R163). -/
def execSealCommit (e : EngineId) (s : State) : Out := done (if s.mode.alive then s.commitSect e else s)

end Sys2Proof.Machine
end

