-- ==== Sys2Proof/Machine/RollCall.lean ====
section
/-! DEFINITION. The roll call digest (R320 to R322, with the words that R343, R367 and file 16 assign to it). -/

namespace Sys2Proof.Machine

/-- A register as a read in this cycle would return it, without what a read of it does (R321). -/
def State.readAs (s : State) (a : Nat) : List Byte := leBytes 4 (s.getReg .twn a).2.toNat

/-- A byte list followed by zeros up to a size. -/
def padTo (n : Nat) (b : List Byte) : List Byte := b ++ List.replicate (n - b.length) 0

/-- A section of a digest: registers of one page in order, then zeros. -/
def State.section (s : State) (size base : Nat) (os : List Nat) : List Byte :=
  padTo size (os.flatMap (fun o => s.readAs (base + o)))

/-- The header. -/
def State.digestHead (s : State) (rc : RollCall) : List Byte :=
  leBytes 4 0x4C4C4352 ++ leBytes 2 1 ++ leBytes 2 6144 ++ leBytes 4 ((s.glb.gen + 1) % 2 ^ 32) ++ leBytes 4 s.glb.nonce
    ++ leBytes 8 s.vt ++ leBytes 8 s.dep ++ leBytes 8 s.dsp.booksDep ++ leBytes 4 (rc.req + if rc.auto then 256 else 0)
    ++ leBytes 4 0 ++ leBytes 8 s.sec.otp.serial ++ leBytes 8 0

/-- Mode, roles and sessions (R343). -/
def State.digestMode (s : State) : List Byte :=
  padTo 64 (s.section 16 0x1000 [0x0C, 0x50, 0xEC, 0x48] ++ s.section 16 0x2000 [0x68, 0x40, 0x74, 0x6C])

/-- The TBU section: NEXTSEC is that of this cycle, no copy of a requester's; EPOCHLOG is the one of the epoch in force. -/
def State.digestTbu (s : State) : List Byte :=
  padTo 128 (s.section 60 0x4000 [0x0C, 0x68, 0x6C, 0x5C, 0x64, 0x70, 0x88, 0x8C, 0x10, 0x2C, 0x48, 0x4C, 0x50, 0x54, 0x80]
    ++ leBytes 4 (s.reg TBU.NEXTSEC_HI.NEXTSEC.off).toNat
    ++ s.section 16 0x4000 [0x98, 0x9C, 0xA0 + 4 * s.f TBU.STS.EPOCH, 0xF8])

/-- The DSP section: BOOKS0 and BOOKS1 are those of the snapshot in force (R320). -/
def State.digestDsp (s : State) : List Byte :=
  let b := s.dsp.books
  padTo 64 (s.section 16 0x8000 [0x08, 0x0C, 0x10, 0x40] ++ leBytes 4 (b.2.1 * 2 ^ 16 + b.1)
    ++ leBytes 4 (b.2.2.2 * 2 ^ 16 + b.2.2.1) ++ s.section 20 0x8000 [0x54, 0x50, 0x84, 0x88, 0x8C])

/-- The CNS section. -/
def State.digestCns (s : State) : List Byte :=
  s.section 64 0x6000 [0x0C, 0x50, 0x54, 0x58, 0x5C, 0x60, 0x64, 0x68, 0x6C, 0x10, 0x2C]

/-- Streams 0 to 7. -/
def State.digestStreams (s : State) : List Byte :=
  (List.range 8).flatMap (fun n => s.section 32 (0x3100 + 0x40 * n) [0x00, 0x18, 0x1C, 0x20, 0x24, 0x2C, 0x38])

/-- Twin state, the section at 0x280 (R367): CTL, STS, IRQ_RAW, CNT_EVT, THETA, PEERSER_LO, PEERSER_HI, MIRSEQ, MIRACK,
COUNT, LASTSW, HOV0 to HOV3, then zeros to 128 bytes. -/
def State.digestTwin (s : State) : List Byte :=
  s.section 128 0x5000 [0x08, 0x0C, 0x10, 0x2C, 0x50, 0x54, 0x58, 0x60, 0x64, 0x6C, 0x84, 0x70, 0x74, 0x78, 0x7C]

/-- Image versions (R343). -/
def State.digestVersions (s : State) : List Byte :=
  padTo 64 (s.section 12 0x180000 [0xA0, 0xA4, 0xA8] ++ s.section 16 0x2000 [0x44, 0x48, 0x4C, 0x50])

/-- The MEM section. -/
def State.digestMem (s : State) : List Byte :=
  s.section 64 0x190000 [0x0C, 0x10, 0x2C, 0x50, 0x54, 0x5C, 0x60, 0x64, 0x44]

/-- The ADC section. -/
def State.digestAdc (s : State) : List Byte :=
  s.section 128 0x160000 ([0x08, 0x0C, 0x10, 0x2C, 0x48, 0x4C, 0x50, 0x54] ++ (List.range 16).map (fun n => 0x614 + 0x20 * n))

/-- One turntable: its position words are those that the copies of R129 would hold if they were taken now. -/
def State.digestTurn (s : State) (n : Nat) : List Byte :=
  let b := 0x130000 + pgAt n
  let c := s.angleCopies n
  let t : Nat := match (s.turn n).last with | some t => s.vtAt t | none => 0
  padTo 64 (s.section 16 b [0x08, 0x0C, 0x10, 0x64] ++ leBytes 4 c.1.toNat ++ leBytes 4 c.2.toNat ++ leBytes 8 t
    ++ s.section 28 b [0x78, 0x80, 0x90, 0x8C, 0xF0, 0xF4, 0xF8])

/-- The microengines, the shunters and the ruling units. -/
def State.digestUnits (s : State) : List Byte :=
  (List.range 8).flatMap (fun n => s.section 32 (0x180000 + pgAt n) [0x0C, 0x10, 0x48, 0x50, 0x54, 0x58, 0x2C, 0x5C])
    ++ (List.range 16).flatMap (fun n => s.section 16 (0x170000 + pgAt n) [0x0C, 0x10, 0x7C, 0x2C])
    ++ (List.range 32).flatMap (fun n => s.section 16 (0x140000 + pgAt n) [0x0C, 0x10, 0x88, 0x84])

/-- One line: claimant, source as last accepted (R88), validity, drive and level; nothing for the odd line of a pair, whose
registers read 0 (R84). A level the manual does not define is a free value. -/
def State.digestLine (s : State) (n : Nat) : State × List Byte :=
  if s.oddOfPair n then (s, leBytes 4 0)
  else
    let x := s.line n
    let (t, lvl) := s.readPad n
    (t, leBytes 4 (x.claimant * 2 ^ 24 + x.crole * 2 ^ 22 + s.f JNC.LN_CFG.SRC (lnAt n) * 2 ^ 12
      + (if s.bankOk (n / 16) then 4 else 0) + (if s.driven n ≠ .hiz then 2 else 0) + if lvl then 1 else 0))

/-- The lines in order. -/
def State.digestLines (s : State) : List Nat → State × List Byte
  | [] => (s, [])
  | n :: ns =>
    let (s, b) := s.digestLine n
    let (s, bs) := s.digestLines ns
    (s, b ++ bs)

/-- One track. -/
def State.digestTrack (s : State) (t : Nat) : List Byte :=
  let b := 0x100000 + 0x100 * t
  let w (o : Nat) : Nat := (s.getReg .twn (b + o)).2.toNat
  leBytes 1 (w 0x40 % 16) ++ leBytes 1 (w 0x48 / 256) ++ leBytes 1 (w 0x0C) ++ leBytes 1 (w 0x74 % 16)
    ++ leBytes 2 (w 0x74 / 2 ^ 16) ++ leBytes 1 (w 0x10) ++ leBytes 1 (w 0x1C / 2 ^ 31)

/-- ERR_CAP of every page but the track subpages, in address order, and the zeros up to the CRC. -/
def State.digestCaps (s : State) : List Byte :=
  let one (b : Nat) : List Byte := s.readAs (b + 0x1C)
  let run (b n : Nat) : List Byte := (List.range n).flatMap (fun i => one (b + pgAt i))
  padTo 1020 ([0x0, 0x1000, 0x2000, 0x3000, 0x4000, 0x5000, 0x6000, 0x8000, 0x120000].flatMap one ++ run 0x130000 8
    ++ run 0x140000 32 ++ one 0x160000 ++ run 0x170000 16 ++ run 0x180000 8 ++ one 0x190000)

/-- The digest of this instant, with the free values its lines read. -/
def State.digest (s : State) (rc : RollCall) : State × List Byte :=
  let (t, ls) := s.digestLines (List.range 128)
  let b := s.digestHead rc ++ s.digestMode ++ s.digestTbu ++ s.digestDsp ++ s.digestCns ++ s.digestStreams ++ s.digestTwin
    ++ s.digestVersions ++ s.digestMem ++ s.digestAdc ++ (List.range 8).flatMap s.digestTurn ++ s.digestUnits ++ ls
    ++ (List.range 256).flatMap s.digestTrack ++ s.digestCaps
  (t, b ++ leBytes 4 (crc32 b))

/-- The digest of an accepted request is taken in one cycle, the cycle after the request was accepted (R320). -/
def State.rollSnap (s : State) : State :=
  match s.glb.rc with
  | none => s
  | some rc =>
    if rc.bytes.isSome then s
    else
      let (t, b) := (s.advance (rc.asked + 1)).digest rc
      { t with glb := { t.glb with rc := some { rc with bytes := some b } } }

/-- `ROLLCALL_SNAPSHOT` (R320). -/
def execRollcallSnapshot (s : State) : Out := done s.rollSnap

end Sys2Proof.Machine
end

