-- ==== Sys2Proof/Machine/TestAccess.lean ====
section
/-! DEFINITION. The JTAG test access of Factory-test (R374): the microstores, the nanostore, every SRAM store of R262. -/

namespace Sys2Proof.Machine

/-- Store numbers of the test access beyond those of MEM.UECAP.STORE: the microstores, the nanostore. -/
abbrev stMicro : Nat := 8
abbrev stNano : Nat := 9

/-- Instances of a store (sidings, rings, program stores, engines, copies) and the words of each (R144, R262). -/
def storeShape (k : Nat) : Nat × Nat :=
  match k with
  | 0 => (16, 32768)
  | 1 => (1, 32768)
  | 2 => (1, 16384)
  | 3 => (1, 65536)
  | 4 => (1, 65536)
  | 5 => (8, 1024)
  | 6 => (16, 128)
  | 7 => (1, 10240)
  | 8 => (8, 8192)
  | 9 => (4, 2048)
  | _ => (0, 0)

/-- The number of word `a` of instance `inst` in its store; nothing where the store has no such word. -/
def storeIndex (k inst a : Nat) : Option Nat :=
  let d := storeShape k
  if inst < d.1 ∧ a < d.2 then some (inst * d.2 + a) else none

/-- The word `i` of store `k` as it stands. -/
def State.testWord (s : State) (k i : Nat) : Nat :=
  let z (_ : Nat) : Word := 0
  match k with
  | 0 => (SMap.get z s.mem.log i).toNat
  | 1 => (SMap.get z s.mem.relief i).toNat
  | 2 => (SMap.get z s.mem.icb i).toNat
  | 3 => (s.ttWord i).toNat
  | 4 => (SMap.get z s.mem.adcBuf i).toNat
  | 5 => (SMap.get z (s.turn (i / 1024)).ring (i % 1024)).toNat
  | 6 => (s.progWord i).toNat
  | 7 => (SMap.get z s.mem.book i).toNat
  | 8 => SMap.get (fun _ => 0) s.stores.micro i
  | _ => SMap.get (fun _ => 0) s.stores.nano i

/-- Word `i` of store `k` written. -/
def State.testStore (s : State) (k i v : Nat) : State :=
  let z (_ : Nat) : Word := 0
  match k with
  | 0 => s.putHome i (word v)
  | 1 => s.putRelief i (word v)
  | 2 => s.icbPut i (word v) 15
  | 3 =>
    let x := s.slot (i / 4)
    s.setSlot (i / 4) { x with bits := putBits x.bits (32 * (i % 4)) 32 v }
  | 4 => { s with mem := { s.mem with adcBuf := SMap.put z s.mem.adcBuf i (word v) } }
  | 5 =>
    let x := s.turn (i / 1024)
    s.setTurn (i / 1024) { x with ring := SMap.put z x.ring (i % 1024) (word v) }
  | 6 => { s with stores := { s.stores with prog := SMap.put z s.stores.prog i (word v) } }
  | 7 => s.bookPut i (word v)
  | 8 => { s with stores := { s.stores with micro := SMap.put (fun _ => 0) s.stores.micro i (v % 2 ^ 24) } }
  | _ => { s with stores := { s.stores with nano := SMap.put (fun _ => 0) s.stores.nano i (v % 2 ^ 128) } }

/-- Fresh check bits for a word written (R177, R264). -/
def State.testBits (s : State) (k i : Nat) : State :=
  if k = stMicro then s.setMicMark i 0 else if k = stNano then s.setNanMark i 0 else s.setEcc k i 0

/-- The answers of a read: one word, or the four of a nanoword, bits 31:0 first. -/
def State.testAnswer (s : State) (k a v : Nat) : State :=
  if k = stNano then
    (List.range 4).foldl (fun s j => s.answer .jtag (4 * a + j) (word (v / 2 ^ (32 * j)))) s
  else s.answer .jtag a (word v)

/-- A test access: open in Factory-test to JTAG with the maker role. -/
def State.testAccess (s : State) (k inst a : Nat) (write : Bool) (v : Nat) : State :=
  if s.mode ≠ .factory ∨ !s.hasRole .jtag .maker then s
  else
    match storeIndex k inst a with
    | none => s
    | some i => if write then (s.testStore k i v).testBits k i else s.testAnswer k a (s.testWord k i)

/-- `JTAG_TEST_ACCESS` (R374). -/
def execJtagTestAccess (store inst a : Nat) (write : Bool) (v : Nat) (s : State) : Out :=
  access s .jtag fun s => s.testAccess store inst a write v

end Sys2Proof.Machine
end

