-- ==== Sys2Proof/Machine/Dispatch.lean ====
section
/-! DEFINITION. The dispatch: each command to its meaning. -/

namespace Sys2Proof.Machine

def exec (i : Instr) (s : State) : Host.Outcome State Fault Refusal :=
  match i with
  | .departureBoundary => Sys2Proof.Machine.execDepartureBoundary s
  | .housekeeping => Sys2Proof.Machine.execHousekeeping s
  | .dispatchMove => Sys2Proof.Machine.execDispatchMove s
  | .tickWrite r v => Sys2Proof.Machine.execTickWrite r v s
  | .replaceComplete => Sys2Proof.Machine.execReplaceComplete s
  | .depLoRead r => Sys2Proof.Machine.execDepLoRead r s
  | .vtLoRead r => Sys2Proof.Machine.execVtLoRead r s
  | .nextsecLoRead r => Sys2Proof.Machine.execNextsecLoRead r s
  | .mapHiWrite r tai v => Sys2Proof.Machine.execMapHiWrite r tai v s
  | .pllUnlock => Sys2Proof.Machine.execPllUnlock s
  | .ppsEdge cyc code => Sys2Proof.Machine.execPpsEdge cyc code s
  | .todMessage bytes started => Sys2Proof.Machine.execTodMessage bytes started s
  | .pulseWindowClose => Sys2Proof.Machine.execPulseWindowClose s
  | .refLoss => Sys2Proof.Machine.execRefLoss s
  | .ksFreqCopy => Sys2Proof.Machine.execKsFreqCopy s
  | .holdLong => Sys2Proof.Machine.execHoldLong s
  | .srvEnWrite r v => Sys2Proof.Machine.execSrvEnWrite r v s
  | .stepLaunch r v => Sys2Proof.Machine.execStepLaunch r v s
  | .stepTakeEffect => Sys2Proof.Machine.execStepTakeEffect s
  | .stepDone => Sys2Proof.Machine.execStepDone s
  | .keeptimeLatch delay => Sys2Proof.Machine.execKeeptimeLatch delay s
  | .ksTick => Sys2Proof.Machine.execKsTick s
  | .k32Measure cycles => Sys2Proof.Machine.execK32Measure cycles s
  | .keeptimeResume => Sys2Proof.Machine.execKeeptimeResume s
  | .ppsoutEnable r v => Sys2Proof.Machine.execPpsoutEnable r v s
  | .ppsoutLoad => Sys2Proof.Machine.execPpsoutLoad s
  | .nextsecUpdate => Sys2Proof.Machine.execNextsecUpdate s
  | .calBuild obs cal => Sys2Proof.Machine.execCalBuild obs cal s
  | .calFillEdge v code => Sys2Proof.Machine.execCalFillEdge v code s
  | .tbuAbort => Sys2Proof.Machine.execTbuAbort s
  | .trkModeWrite r t v => Sys2Proof.Machine.execTrkModeWrite r t v s
  | .compareMatch t b => Sys2Proof.Machine.execCompareMatch t b s
  | .trainPulse t => Sys2Proof.Machine.execTrainPulse t s
  | .stopMatch t => Sys2Proof.Machine.execStopMatch t s
  | .cmpHoldWrite r t b hi v => Sys2Proof.Machine.execCmpHoldWrite r t b hi v s
  | .cmpArmWrite r t b v => Sys2Proof.Machine.execCmpArmWrite r t b v s
  | .captureArm t => Sys2Proof.Machine.execCaptureArm t s
  | .captureEdge t cyc code rising => Sys2Proof.Machine.execCaptureEdge t cyc code rising s
  | .stampFifoEntry t => Sys2Proof.Machine.execStampFifoEntry t s
  | .recordWriterDrain => Sys2Proof.Machine.execRecordWriterDrain s
  | .trkPop0Read r t => Sys2Proof.Machine.execTrkPop0Read r t s
  | .gateOpen t => Sys2Proof.Machine.execGateOpen t s
  | .gateClose t => Sys2Proof.Machine.execGateClose t s
  | .linkedEdge t => Sys2Proof.Machine.execLinkedEdge t s
  | .stampMark t => Sys2Proof.Machine.execStampMark t s
  | .trkClaim r t => Sys2Proof.Machine.execTrkClaim r t s
  | .trkRelease r t => Sys2Proof.Machine.execTrkRelease r t s
  | .jncRelease r v => Sys2Proof.Machine.execJncRelease r v s
  | .trkAbort t => Sys2Proof.Machine.execTrkAbort t s
  | .jncAbort => Sys2Proof.Machine.execJncAbort s
  | .bankSupplyChange b v => Sys2Proof.Machine.execBankSupplyChange b v s
  | .lnCfgWrite r n trim v => Sys2Proof.Machine.execLnCfgWrite r n trim v s
  | .insertionLaunch r v => Sys2Proof.Machine.execInsertionLaunch r v s
  | .insertionServe => Sys2Proof.Machine.execInsertionServe s
  | .cancelWrite r v => Sys2Proof.Machine.execCancelWrite r v s
  | .cancelResolve => Sys2Proof.Machine.execCancelResolve s
  | .nopDue k => Sys2Proof.Machine.execNopDue k s
  | .entryRetire k => Sys2Proof.Machine.execEntryRetire k s
  | .chainUnpark k => Sys2Proof.Machine.execChainUnpark k s
  | .dspRunSet r v => Sys2Proof.Machine.execDspRunSet r v s
  | .dspAbort => Sys2Proof.Machine.execDspAbort s
  | .dspFlush r => Sys2Proof.Machine.execDspFlush r s
  | .flushComplete => Sys2Proof.Machine.execFlushComplete s
  | .books0Read r => Sys2Proof.Machine.execBooks0Read r s
  | .toothEdge n cyc code dir turned => Sys2Proof.Machine.execToothEdge n cyc code dir turned s
  | .toothProcess n => Sys2Proof.Machine.execToothProcess n s
  | .toothFit n => Sys2Proof.Machine.execToothFit n s
  | .overtaken n k => Sys2Proof.Machine.execOvertaken n k s
  | .reprediction n k => Sys2Proof.Machine.execReprediction n k s
  | .announcement n k => Sys2Proof.Machine.execAnnouncement n k s
  | .indexEdge n cyc code => Sys2Proof.Machine.execIndexEdge n cyc code s
  | .gapLineEdge n cyc code => Sys2Proof.Machine.execGapLineEdge n cyc code s
  | .markWindowExpiry n => Sys2Proof.Machine.execMarkWindowExpiry n s
  | .stall n => Sys2Proof.Machine.execStall n s
  | .ttnEnable r n v => Sys2Proof.Machine.execTtnEnable r n v s
  | .ttnDisable r n v => Sys2Proof.Machine.execTtnDisable r n v s
  | .ttnAbort n => Sys2Proof.Machine.execTtnAbort n s
  | .ttnResync r n => Sys2Proof.Machine.execTtnResync r n s
  | .ttnAngleRead r n => Sys2Proof.Machine.execTtnAngleRead r n s
  | .ttnTstampLoRead r n => Sys2Proof.Machine.execTtnTstampLoRead r n s
  | .callPending e => Sys2Proof.Machine.execCallPending e s
  | .eventSignal => Sys2Proof.Machine.execEventSignal s
  | .doorbell r e v => Sys2Proof.Machine.execDoorbell r e v s
  | .routineStart e => Sys2Proof.Machine.execRoutineStart e s
  | .wordNext e => Sys2Proof.Machine.execWordNext e s
  | .wordJump e => Sys2Proof.Machine.execWordJump e s
  | .wordJumpC e => Sys2Proof.Machine.execWordJumpC e s
  | .wordCall e => Sys2Proof.Machine.execWordCall e s
  | .wordRet e => Sys2Proof.Machine.execWordRet e s
  | .wordEnd e => Sys2Proof.Machine.execWordEnd e s
  | .wordMwb e => Sys2Proof.Machine.execWordMwb e s
  | .wordPage e => Sys2Proof.Machine.execWordPage e s
  | .wordWait e => Sys2Proof.Machine.execWordWait e s
  | .wordSeal e => Sys2Proof.Machine.execWordSeal e s
  | .wordUnseal e => Sys2Proof.Machine.execWordUnseal e s
  | .wordReserved e => Sys2Proof.Machine.execWordReserved e s
  | .readDataArrival e => Sys2Proof.Machine.execReadDataArrival e s
  | .ttrResult e => Sys2Proof.Machine.execTtrResult e s
  | .waitCondition e l => Sys2Proof.Machine.execWaitCondition e l s
  | .waitDeadline e l => Sys2Proof.Machine.execWaitDeadline e l s
  | .sealCommit e => Sys2Proof.Machine.execSealCommit e s
  | .microstoreScrub e => Sys2Proof.Machine.execMicrostoreScrub e s
  | .menResume r e => Sys2Proof.Machine.execMenResume r e s
  | .menAbort e => Sys2Proof.Machine.execMenAbort e s
  | .ruReload u => Sys2Proof.Machine.execRuReload u s
  | .ruOutputEdge u hi => Sys2Proof.Machine.execRuOutputEdge u hi s
  | .ruStHiWrite r u v => Sys2Proof.Machine.execRuStHiWrite r u v s
  | .ruStartInstant u => Sys2Proof.Machine.execRuStartInstant u s
  | .ruSpHiWrite r u v => Sys2Proof.Machine.execRuSpHiWrite r u v s
  | .ruStopInstant u => Sys2Proof.Machine.execRuStopInstant u s
  | .ruRunEnd u => Sys2Proof.Machine.execRuRunEnd u s
  | .rulModeWrite r u v => Sys2Proof.Machine.execRulModeWrite r u v s
  | .updHoldWrite r u v => Sys2Proof.Machine.execUpdHoldWrite r u v s
  | .ruForceWrite r u v => Sys2Proof.Machine.execRuForceWrite r u v s
  | .ruFaultInput u => Sys2Proof.Machine.execRuFaultInput u s
  | .ruFaultRelease u => Sys2Proof.Machine.execRuFaultRelease u s
  | .ruClrFlt r u => Sys2Proof.Machine.execRuClrFlt r u s
  | .ruClaim r u => Sys2Proof.Machine.execRuClaim r u s
  | .ruRelease r u => Sys2Proof.Machine.execRuRelease r u s
  | .rulAbort u => Sys2Proof.Machine.execRulAbort u s
  | .adcSample b code => Sys2Proof.Machine.execAdcSample b code s
  | .opticalRecordEntry c => Sys2Proof.Machine.execOpticalRecordEntry c s
  | .opticalDrain => Sys2Proof.Machine.execOpticalDrain s
  | .opticalPop0Read r c => Sys2Proof.Machine.execOpticalPop0Read r c s
  | .mmcBlock b => Sys2Proof.Machine.execMmcBlock b s
  | .adcTriggerInput n cyc code rising => Sys2Proof.Machine.execAdcTriggerInput n cyc code rising s
  | .adcTriggerAccept q => Sys2Proof.Machine.execAdcTriggerAccept q s
  | .adcStepBegin q => Sys2Proof.Machine.execAdcStepBegin q s
  | .adcStepEnd q => Sys2Proof.Machine.execAdcStepEnd q s
  | .windowAlloc r w v => Sys2Proof.Machine.execWindowAlloc r w v s
  | .windowFree r w v => Sys2Proof.Machine.execWindowFree r w v s
  | .windowTransferComplete w => Sys2Proof.Machine.execWindowTransferComplete w s
  | .windowRpWrite r w v => Sys2Proof.Machine.execWindowRpWrite r w v s
  | .windowClaim r w => Sys2Proof.Machine.execWindowClaim r w s
  | .windowRelease r w => Sys2Proof.Machine.execWindowRelease r w s
  | .adcCtlWrite r v => Sys2Proof.Machine.execAdcCtlWrite r v s
  | .adcAbort => Sys2Proof.Machine.execAdcAbort s
  | .programStoreWrite r n k v => Sys2Proof.Machine.execProgramStoreWrite r n k v s
  | .shBr n pins => Sys2Proof.Machine.execShBr n pins s
  | .shLoop n => Sys2Proof.Machine.execShLoop n s
  | .shAt n => Sys2Proof.Machine.execShAt n s
  | .shWait n pins => Sys2Proof.Machine.execShWait n pins s
  | .shSend n => Sys2Proof.Machine.execShSend n s
  | .shTake n pins => Sys2Proof.Machine.execShTake n pins s
  | .shLoad n => Sys2Proof.Machine.execShLoad n s
  | .shStore n => Sys2Proof.Machine.execShStore n s
  | .shCopy n pins => Sys2Proof.Machine.execShCopy n pins s
  | .shLdi n => Sys2Proof.Machine.execShLdi n s
  | .shAdd n => Sys2Proof.Machine.execShAdd n s
  | .shSig n => Sys2Proof.Machine.execShSig n s
  | .shLcnt n => Sys2Proof.Machine.execShLcnt n s
  | .shHalt n => Sys2Proof.Machine.execShHalt n s
  | .shReserved n => Sys2Proof.Machine.execShReserved n s
  | .shAtResolve n => Sys2Proof.Machine.execShAtResolve n s
  | .shWaitPin n => Sys2Proof.Machine.execShWaitPin n s
  | .shWaitDeadline n => Sys2Proof.Machine.execShWaitDeadline n s
  | .shLoadStallEnd n => Sys2Proof.Machine.execShLoadStallEnd n s
  | .shStoreStallEnd n => Sys2Proof.Machine.execShStoreStallEnd n s
  | .txfWrite r n v => Sys2Proof.Machine.execTxfWrite r n v s
  | .rxfRead r n => Sys2Proof.Machine.execRxfRead r n s
  | .txdmaRead n => Sys2Proof.Machine.execTxdmaRead n s
  | .txdmaStore n => Sys2Proof.Machine.execTxdmaStore n s
  | .rxdmaMove n => Sys2Proof.Machine.execRxdmaMove n s
  | .shnStartEntry n => Sys2Proof.Machine.execShnStartEntry n s
  | .shnStartWrite r n => Sys2Proof.Machine.execShnStartWrite r n s
  | .shnGstartWrite r n => Sys2Proof.Machine.execShnGstartWrite r n s
  | .shnHaltWrite r n => Sys2Proof.Machine.execShnHaltWrite r n s
  | .shnClkrstWrite r n => Sys2Proof.Machine.execShnClkrstWrite r n s
  | .shnClrfifoWrite r n => Sys2Proof.Machine.execShnClrfifoWrite r n s
  | .shnAbort n => Sys2Proof.Machine.execShnAbort n s
  | .sidingGrant d => Sys2Proof.Machine.execSidingGrant d s
  | .eccRewrite => Sys2Proof.Machine.execEccRewrite s
  | .dmaStarve d => Sys2Proof.Machine.execDmaStarve d s
  | .icbAccess => Sys2Proof.Machine.execIcbAccess s
  | .scrubRead store => Sys2Proof.Machine.execScrubRead store s
  | .bgtCopyEnd => Sys2Proof.Machine.execBgtCopyEnd s
  | .bgtTestEnd passed => Sys2Proof.Machine.execBgtTestEnd passed s
  | .bgtRestoreEnd => Sys2Proof.Machine.execBgtRestoreEnd s
  | .bgtEnWrite r v => Sys2Proof.Machine.execBgtEnWrite r v s
  | .memAbort => Sys2Proof.Machine.execMemAbort s
  | .pcieReadRequest a n => Sys2Proof.Machine.execPcieReadRequest a n s
  | .pcieWriteRequest a ws => Sys2Proof.Machine.execPcieWriteRequest a ws s
  | .spiWrite a ws => Sys2Proof.Machine.execSpiWrite a ws s
  | .spiRead a n => Sys2Proof.Machine.execSpiRead a n s
  | .spiQwrite a ws => Sys2Proof.Machine.execSpiQwrite a ws s
  | .spiQread a n => Sys2Proof.Machine.execSpiQread a n s
  | .spiStatus => Sys2Proof.Machine.execSpiStatus s
  | .registerWrite r a v => Sys2Proof.Machine.execRegisterWrite r a v s
  | .irqSetWrite r a v => Sys2Proof.Machine.execIrqSetWrite r a v s
  | .lockSeal r a => Sys2Proof.Machine.execLockSeal r a s
  | .slotOpen n => Sys2Proof.Machine.execSlotOpen n s
  | .slotClose n => Sys2Proof.Machine.execSlotClose n s
  | .slotTimeout n => Sys2Proof.Machine.execSlotTimeout n s
  | .streamReport n => Sys2Proof.Machine.execStreamReport n s
  | .streamDoorbell r n v => Sys2Proof.Machine.execStreamDoorbell r n v s
  | .streamPollRead r n => Sys2Proof.Machine.execStreamPollRead r n s
  | .vackWrite r v => Sys2Proof.Machine.execVackWrite r v s
  | .msixUnmask v => Sys2Proof.Machine.execMsixUnmask v s
  | .linkDown => Sys2Proof.Machine.execLinkDown s
  | .hstAbort => Sys2Proof.Machine.execHstAbort s
  | .consistBegin r => Sys2Proof.Machine.execConsistBegin r s
  | .consistCommit r v => Sys2Proof.Machine.execConsistCommit r v s
  | .consistRollback r => Sys2Proof.Machine.execConsistRollback r s
  | .consistCheck => Sys2Proof.Machine.execConsistCheck s
  | .cnsAbort => Sys2Proof.Machine.execCnsAbort s
  | .blockAbort r a => Sys2Proof.Machine.execBlockAbort r a s
  | .abortComplete a => Sys2Proof.Machine.execAbortComplete a s
  | .glbAbort r => Sys2Proof.Machine.execGlbAbort r s
  | .pwrAbort => Sys2Proof.Machine.execPwrAbort s
  | .secAbort => Sys2Proof.Machine.execSecAbort s
  | .rollcallRequest r v => Sys2Proof.Machine.execRollcallRequest r v s
  | .rollcallSnapshot => Sys2Proof.Machine.execRollcallSnapshot s
  | .rollcallComplete => Sys2Proof.Machine.execRollcallComplete s
  | .rollcallAuto => Sys2Proof.Machine.execRollcallAuto s
  | .bootEntry clearOk => Sys2Proof.Machine.execBootEntry clearOk s
  | .pllRelockRetry => Sys2Proof.Machine.execPllRelockRetry s
  | .secLoad r v => Sys2Proof.Machine.execSecLoad r v s
  | .loadComplete => Sys2Proof.Machine.execLoadComplete s
  | .secOverride r => Sys2Proof.Machine.execSecOverride r s
  | .keyProg r => Sys2Proof.Machine.execKeyProg r s
  | .keyRevoke r => Sys2Proof.Machine.execKeyRevoke r s
  | .arbAdvance r => Sys2Proof.Machine.execArbAdvance r s
  | .refselProg r => Sys2Proof.Machine.execRefselProg r s
  | .otpDone => Sys2Proof.Machine.execOtpDone s
  | .nonceLoRead r => Sys2Proof.Machine.execNonceLoRead r s
  | .sessionOpen r => Sys2Proof.Machine.execSessionOpen r s
  | .sessionVerifyComplete r => Sys2Proof.Machine.execSessionVerifyComplete r s
  | .sessionClose r => Sys2Proof.Machine.execSessionClose r s
  | .sessionExpiry r => Sys2Proof.Machine.execSessionExpiry r s
  | .sessionLockoutEnd r => Sys2Proof.Machine.execSessionLockoutEnd r s
  | .twnEnable r v => Sys2Proof.Machine.execTwnEnable r v s
  | .helloFrame h => Sys2Proof.Machine.execHelloFrame h s
  | .heartbeatFrame h t => Sys2Proof.Machine.execHeartbeatFrame h t s
  | .heartbeatMiss => Sys2Proof.Machine.execHeartbeatMiss s
  | .ackFrame seq launch => Sys2Proof.Machine.execAckFrame seq launch s
  | .insFrame seq rs => Sys2Proof.Machine.execInsFrame seq rs s
  | .canFrame seq slot chain req => Sys2Proof.Machine.execCanFrame seq slot chain req s
  | .retFrame seq rs => Sys2Proof.Machine.execRetFrame seq rs s
  | .consFrame seq slot owner whn bound last vals => Sys2Proof.Machine.execConsFrame seq slot owner whn bound last vals s
  | .consAtFrame seq slot dep => Sys2Proof.Machine.execConsAtFrame seq slot dep s
  | .consEndFrame seq slot out => Sys2Proof.Machine.execConsEndFrame seq slot out s
  | .mapFrame seq vt tai => Sys2Proof.Machine.execMapFrame seq vt tai s
  | .bulkFrame seq rs last => Sys2Proof.Machine.execBulkFrame seq rs last s
  | .switchFrame w => Sys2Proof.Machine.execSwitchFrame w s
  | .mirrorSend => Sys2Proof.Machine.execMirrorSend s
  | .switchoverDrive => Sys2Proof.Machine.execSwitchoverDrive s
  | .switchoverTakeover => Sys2Proof.Machine.execSwitchoverTakeover s
  | .killInput => Sys2Proof.Machine.execKillInput s
  | .twnSwitchCmd r => Sys2Proof.Machine.execTwnSwitchCmd r s
  | .twnRejoin r => Sys2Proof.Machine.execTwnRejoin r s
  | .twnAbort => Sys2Proof.Machine.execTwnAbort s
  | .pwrConfigure r => Sys2Proof.Machine.execPwrConfigure r s
  | .pwrRun r => Sys2Proof.Machine.execPwrRun r s
  | .pwrSafe r => Sys2Proof.Machine.execPwrSafe r s
  | .pwrHibernate r => Sys2Proof.Machine.execPwrHibernate r s
  | .pwrKeeptime r => Sys2Proof.Machine.execPwrKeeptime r s
  | .pwrReset r => Sys2Proof.Machine.execPwrReset r s
  | .pwrFactory r => Sys2Proof.Machine.execPwrFactory r s
  | .vddAoPowerOn => Sys2Proof.Machine.execVddAoPowerOn s
  | .porAo => Sys2Proof.Machine.execPorAo s
  | .brownout => Sys2Proof.Machine.execBrownout s
  | .resetPinAssert => Sys2Proof.Machine.execResetPinAssert s
  | .resetPinRelease => Sys2Proof.Machine.execResetPinRelease s
  | .wake => Sys2Proof.Machine.execWake s
  | .keeptimeAlarm => Sys2Proof.Machine.execKeeptimeAlarm s
  | .wakeFail => Sys2Proof.Machine.execWakeFail s
  | .coreSupplyGood => Sys2Proof.Machine.execCoreSupplyGood s
  | .jtagHalt => Sys2Proof.Machine.execJtagHalt s
  | .jtagResume => Sys2Proof.Machine.execJtagResume s
  | .wdogKick r v => Sys2Proof.Machine.execWdogKick r v s
  | .wdogExpiry => Sys2Proof.Machine.execWdogExpiry s
  | .pllLock marchOk straps => Sys2Proof.Machine.execPllLock marchOk straps s
  | .xtal32Fail => Sys2Proof.Machine.execXtal32Fail s
  | .xtal32Ok => Sys2Proof.Machine.execXtal32Ok s
  | .pcieLinkUp width speed => Sys2Proof.Machine.execPcieLinkUp width speed s
  | .izlarLinkDown => Sys2Proof.Machine.execIzlarLinkDown s
  | .izlarLinkUp => Sys2Proof.Machine.execIzlarLinkUp s
  | .frameCrcErr => Sys2Proof.Machine.execFrameCrcErr s
  | .killInputRelease => Sys2Proof.Machine.execKillInputRelease s
  | .spiUnknownCommand code a => Sys2Proof.Machine.execSpiUnknownCommand code a s
  | .jtagTestAccess store inst a write v => Sys2Proof.Machine.execJtagTestAccess store inst a write v s

end Sys2Proof.Machine
end

