-- ==== Sys2Proof/Machine/Balls.lean ====
section
/-! DEFINITION. The system and control balls (R403): their states derive from the mode and from what the blocks hold. -/

namespace Sys2Proof.Machine

/-- The state of a ball. -/
inductive Ball where
  /-- Its supply is off. -/
  | unpowered
  /-- Not driven, or an open-drain output released. -/
  | hiz
  /-- Not driven, with a 50 kΩ pull-up. -/
  | pulledUp
  /-- Driven by the transfer in progress. -/
  | driven
  | low
  | high
  /-- A serial transmitter without power, and one in electrical idle or sending commas alone. -/
  | off
  | idle
  deriving DecidableEq, Repr

/-- Step 6 of R324 reads the flash (source 1 or 2 of an image load); a load of `SEC_LOAD` reads the log store. -/
def State.flashLoads (s : State) : Bool :=
  match s.sec.load with
  | some j => j.src = 1 || j.src = 2
  | none => false

/-- QSPI_SCK and QSPI_IO0 to QSPI_IO3: driven during a flash load, released when it ends (R405). -/
def State.qspiBall (s : State) : Ball :=
  if s.mode = .off then .unpowered
  else if s.mode.powered && s.flashLoads then .driven
  else .hiz

/-- QSPI_CS_N: from Provision onward its pull-up holds it when no load drives it. -/
def State.qspiCsBall (s : State) : Ball :=
  if s.qspiBall = .hiz && s.mode.powered && s.mode ≠ .boot then .pulledUp else s.qspiBall

/-- PMIC_EN (R376, R377, R404). -/
def State.pmicBall (s : State) : Ball :=
  if s.mode = .off then .low else if s.mode.powered || s.pwr.pmicEn then .high else .low

/-- HOST_IRQ_N, open-drain: low while any vector is asserted, whichever interface is selected (R286). -/
def State.hostIrqBall (s : State) : Ball :=
  if s.mode = .off then .unpowered
  else if s.mode.powered && s.mode ≠ .boot && s.vectors ≠ [] then .low
  else .hiz

/-- XTAL32_IN and XTAL32_OUT: whether the oscillator is powered and not stopped. -/
def State.xtalBall (s : State) : Ball :=
  match s.mode with
  | .off => .unpowered
  | .hibernate => .hiz
  | _ => .driven

/-- IZ_KILL_OUT_N, open-drain: low while this device asserts the kill (R358). -/
def State.killOutBall (s : State) : Ball :=
  if s.mode = .off then .unpowered
  else if s.mode.powered && s.mode ≠ .boot && s.killing then .low
  else .hiz

/-- HSPI_IO0 to HSPI_IO3; `reading`: HSPI_CS_N is low and a read is in its data-out phase. -/
def State.hspiBall (s : State) (reading : Bool) : Ball :=
  if s.mode = .off then .unpowered else if s.mode.powered && s.mode ≠ .boot && reading then .driven else .hiz

/-- TDO; `shifting`: the test access port is in Shift-DR or Shift-IR. -/
def State.tdoBall (s : State) (shifting : Bool) : Ball :=
  if s.mode = .off then .unpowered else if s.mode.powered && shifting then .driven else .hiz

/-- A serial transmitter: off before Boot, idle until `on` from Provision onward. -/
def State.txBall (s : State) (on : Bool) : Ball :=
  if s.mode = .off then .unpowered
  else if !s.mode.powered then .off
  else if s.mode = .boot || !on then .idle
  else .driven

/-- The PCIe transmitters train from Provision on, unless the straps hold PCIe in reset (R286). -/
def State.pcieTxBall (s : State) : Ball := s.txBall (!s.on HST.LINK.LINKSEL)

/-- The Izlar transmitters: their lanes idle until TWN.CTL.EN is 1. -/
def State.izlarTxBall (s : State) : Ball := s.txBall (s.on TWN.CTL.EN)

/-- A flash load that has ended has released its balls (R405). -/
theorem State.qspiBall_released (s : State) (h : s.sec.load = none) (hm : s.mode ≠ .off) : s.qspiBall = .hiz := by
  simp [State.qspiBall, State.flashLoads, h, hm]

end Sys2Proof.Machine
end

