-- ==== Sys2Proof/Safety.lean ====
section
/-! DEFINITION. What the claims speak of: when a register access reaches its rules, what a command leaves as it was, quiet
states, the posted writes of a slot, memories in canonical form. -/

namespace Sys2Proof.Machine

/-- No earlier access of requester `r` waits in the log store or at the interchange bank (R284). -/
def State.ownDone (s : State) (r : Requester) : Bool :=
  !(isHost r && (s.mem.waits.any (fun w => w.req = r) || s.mem.portB.any (fun b => b.req = some r)))

/-- An access of requester `r` reaches the pages in this cycle. -/
def State.reaches (s : State) (r : Requester) : Bool := s.reachable r && s.ownDone r

/-- A write of requester `r` to the register at `a` reaches the register's own rules: the requester reaches the pages, no
abort of the page is in progress, no other requester holds the resource, and the writer holds no consist. -/
def State.opens (s : State) (r : Requester) (a : Nat) : Bool :=
  s.reaches r && (s.consistOf r.id).isNone && (s.ownerRefusal r a).isNone
    && (match pageOf a with | none => false | some (_, b) => !s.abortBlocks b (a - b))

/-- Every register but those at the addresses `as` holds what it held. -/
def RegsBut (s t : State) (as : List Nat) : Prop := ∀ a, a ∉ as → t.reg a = s.reg a

/-- Every per-requester word but those of requester `r` at the addresses `as` holds what it held. -/
def CopiesBut (s t : State) (r : Requester) (as : List Nat) : Prop :=
  ∀ (q : Requester) (a : Nat), a < 2 ^ 28 → q ≠ r ∨ a ∉ as → t.preg q.id a = s.preg q.id a

/-- The address of field `g` in the instance `i` bytes above the first. -/
abbrev adr (g : Fld) (i : Nat := 0) : Nat := g.off + i

/-- A counter field after `n` more, saturating. -/
def counted (s : State) (g : Fld) (n : Nat := 1) (i : Nat := 0) : Nat := min (2 ^ g.wid - 1) (s.f g i + n)

/-- The word with microword `m` and nanoword `w`, at `pc` of level `l`, is the next one that engine `e` executes, in raw cycle
`c`: its mode lets engines work, it is neither HELD, FAULTED, halted nor committing a section, the stored words are good, no
invocation starts before it, and nothing is outstanding that it waits for. -/
def State.fetches (s : State) (e l pc m w c : Nat) : Prop :=
  let x := s.engine e
  s.mode.alive = true ∧ x.closed = false ∧ x.st ≠ .halted ∧ (x.sect = none ∨ x.openSect ≠ none) ∧ x.runs = some l
    ∧ (∃ r, x.at_ l = some r ∧ r.pc = pc ∧ c = max (x.wordAt l r s.raw) (x.mulAt l m w))
    ∧ s.micMark (e * 8192 + pc) = 0 ∧ s.nanMark (e / 2 * 2048 + mNp m) = 0
    ∧ s.microAt e pc = m ∧ s.nanoAt (e / 2) (mNp m) = w ∧ x.startable = none

/-- That word executes: it is no reserved word, waits for nothing and raises no fault. -/
def State.executes (s : State) (e l pc m w c : Nat) : Prop :=
  s.fetches e l pc m w c ∧ wordBad m w = false ∧ s.wordWaits e l m w = false ∧ (s.advance c).wordFault e l pc m w = none

/-- The bank of level `l` as the nanoword `w` of a word executed in raw cycle `c` leaves it: its operation's flags, UFOP, its
result. -/
def State.worked (s : State) (e l m w c : Nat) : Bank :=
  let o := ((s.advance c).opCtx e l m w).alu w
  ((((s.engine e).bank l).flagged w o).userFlag w).result w o

/-- Shunter `n` runs and the instruction `w`, of operation `op`, stands at its PC (R242, R243). -/
def State.shunts (s : State) (n : Nat) (op : ShOp) (w : Nat) : Prop :=
  (s.shunter n).st = .running ∧ s.mode ≠ .halt ∧ s.shFetch n = w ∧ shOp w = op

/-- The state at the next tick of shunter `n`, its instruction read: the clock is there, the store's cycle is used, and a
marked word is counted (R263, R264). -/
def State.shRead (s : State) (n : Nat) : State :=
  ((s.advance (s.shunter n).cycle).touch stShn).checked stShn (n * 128 + (s.shunter n).pc / 2)

/-- Shunter `x` with its PC at `pc` and its next tick one divider period later. -/
def Shunter.ticked (x : Shunter) (div pc : Nat) : Shunter := { x with pc := pc % 256, tick := x.tick + div }

/-- No command of this cycle has left Run or Holdover where the servo has asked for the other of the two since (R371). -/
def State.stays (s : State) : Prop := ∀ c m, s.pwr.taken = some (c, m) → c = s.raw → s.mode = .configure → s.runMode = m

/-- Nothing but interrupt messages follows a command in its cycle: no fault waits for its reaction and none is held, the mode is
the one the servo asks for, the copy register and the writers of records and of the mirror queue are empty, no slot is open,
every line's keeper holds the level at its pad (R384, R387, R40, R371, R275, R266, R292, R85). -/
def State.Quiet (s : State) : Prop :=
  s.pwr.faults = [] ∧ s.pwr.heldFault = none ∧ s.stays ∧ (s.mode.running = true → s.runMode = s.mode)
    ∧ s.mem.copyReg = none ∧ s.hst.stampOut = none ∧ s.hst.optOut = none ∧ s.twn.toRing = []
    ∧ s.hst.streams.any (fun e => e.2.slot.isSome) = false ∧ ∀ e ∈ s.lines, s.keepLine e.1 e.2 = e.2

/-- Nothing follows a command in its cycle: every asserted vector has sent its message too (R300). -/
def State.Calm (s : State) : Prop := s.Quiet ∧ s.hst.asserted = s.vectors

/-- Every vector that is asserted has been told to the host or withheld by its mask, and no other (R299, R300). -/
def State.Told (s : State) : Prop := s.hst.asserted = s.vectors

/-- Width of a word of store `k` of the test access (R374). -/
def storeWidth (k : Nat) : Nat := if k = stMicro then 24 else if k = stNano then 128 else 32

/-- The place in host memory of the open slot `p` of stream `n` (R291). -/
def State.slotPlace (s : State) (n : Nat) (p : OpenSlot) : Nat :=
  s.stPair n HST.SRING_LO.V.off HST.SRING_HI.V.off + p.idx % 2 ^ s.stF n HST.SCFG.LOGN * p.size

/-- The posted writes of a slot that closes, newest first: its payload in pieces of at most 256 bytes, its descriptor `h` after them
(R282, R292, R294). -/
def State.slotWrites (s : State) (n : Nat) (p : OpenSlot) (h : List Byte) : List (Nat × List Byte) :=
  (writesOf (s.slotPlace n p + 16) p.payload ++ [(s.slotPlace n p, h)]).reverse ++ s.hst.outbox

/-- State `t` is `s` with the slot `p` of stream `n` closed at vehicle time `vt`: a slot of ring mode posts its payload and its
descriptor, the stream having its turns on the link (R296), and waits for a report; one of poll mode goes whole into the poll
buffer; the frames that end in it are freed, and nothing else changes (R231, R291, R292, R298). -/
def State.SlotClosed (s t : State) (n : Nat) (p : OpenSlot) (tmo : Bool) (vt : Nat) : Prop :=
  ∀ x, x = s.hstream n → ∀ h, h = slotHead n p tmo x.loss false vt →
    (p.polled = false → s.stF n HST.SCFG.WGT ≠ 0 →
      t.hstream n = { x with slot := none, loss := false, unrep := x.unrep + 1, tmo := x.tmo || tmo }
        ∧ t.hst.outbox = s.slotWrites n p h)
    ∧ (p.polled = true → x.poll = [] →
      t.hstream n = { x with slot := none, loss := false, poll := toWords (h ++ p.payload) } ∧ t.hst.outbox = s.hst.outbox)
    ∧ (∀ j, j ≠ n → t.hstream j = s.hstream j)
    ∧ (p.ends = [] → t.adc = s.adc)
    ∧ (∀ e es, p.ends = e :: es → es = [] → ∀ y, y = s.win e.1 →
      (t.win e.1).rp = (if y.size = 0 then 0 else (y.rp + e.2) % (y.size * 32))
        ∧ { t.win e.1 with rp := y.rp, sending := y.sending } = y ∧ ∀ w, w ≠ e.1 → t.win w = s.win w)
    ∧ { t with adc := s.adc, hst := { t.hst with outbox := s.hst.outbox, streams := s.hst.streams, turn := s.hst.turn } } = s

/-- Of the power block, state `t` differs from `s` at most in faults of code `k` that wait for their reaction. -/
def FaultsBut (s t : State) (k : Nat) : Prop :=
  ∃ n, t.pwr = { s.pwr with faults := s.pwr.faults ++ List.replicate n k }

/-- What an entry to Boot by reset source `cause`, held by `hold`, leaves in `t` of the state `s` (R376, R377, R380). -/
def State.BootedBy (s t : State) (cause : Nat) (hold : Option Nat) : Prop :=
  t.mode = .boot ∧ t.pwr.held = hold ∧ t.f PWR.KS_CAUSE.CAUSE = cause % 16
    ∧ t.f PWR.KS_CAUSE.LASTMODE = s.mode.code ∧ (s.mode ≠ .keeptime → t.vt = 0) ∧ (s.mode = .keeptime → t.vtOff = s.vtOff)
    ∧ t.raw = s.raw ∧ t.slots = [] ∧ t.mem = {} ∧ t.sec.otp = s.sec.otp ∧ t.sec.flash = s.sec.flash ∧ t.pwr.pmicEn = true
    ∧ ∀ a, keepsake a = true → a ≠ PWR.KS_CAUSE.CAUSE.off → t.reg a = s.reg a

/-- The memory of store `k`: home banks of the log store, relief, interchange bank, ADC buffer; the logbook and digest space
otherwise. -/
def Mem.store (m : Mem) (k : Nat) : SMap Word :=
  if k = stLog then m.log else if k = stRelief then m.relief else if k = stIcb then m.icb
  else if k = stAdc then m.adcBuf else m.book

/-- The memories of the block in their canonical form: keys strictly rising, no entry that reads as an unlisted word. -/
def Mem.wf (m : Mem) : Bool :=
  SMap.wf (fun _ => (0 : Word)) m.log && SMap.wf (fun _ => (0 : Word)) m.relief && SMap.wf (fun _ => (0 : Word)) m.icb
    && SMap.wf (fun _ => (0 : Word)) m.adcBuf && SMap.wf (fun _ => (0 : Word)) m.book

/-- Memory `n` is memory `m` with the words of store `k` replaced: as `f` gives them, in canonical form. -/
def Mem.only (m n : Mem) (k : Nat) (f : Nat → Word) : Prop :=
  n.wf = true ∧ (∀ j, SMap.get (fun _ => 0) (n.store k) j = f j)
    ∧ ∀ l ∈ [stLog, stRelief, stIcb, stAdc, stBook], l ≠ k → n.store l = m.store l

/-- No siding but one is served from the relief (R272, R277), and no word of a copy is left once the test has stopped (R275). -/
abbrev Mem.oneOut (m : Mem) : Prop := (m.retired = none ∨ m.bgtPhase = 3) ∧ (m.bgtPhase = 3 → m.copyReg = none)

/-- State `t` is `s` after the record writer of log `n` (0 or 2) has had its cycle, in which it takes no record (R73, R266, R290):
nothing without a record; with the last word of one, the grant of whose siding has come, the word is written and the ring holds a
record more. -/
def State.Wrote (s t : State) (n : Nat) : Prop :=
  (s.writerOf n = none → t = s)
    ∧ ∀ w i, s.writerOf n = some w → w.done = 3 → i = s.ringWord n ((s.ringPos n).1 + 12) →
        s.mem.granted.contains (i / 32768, tagWriter n) = true → s.mem.oneOut →
      t.ringPos n = ((s.ringPos n).1 + 16, (s.ringPos n).2) ∧ t.writerOf n = none
        ∧ (∀ j, t.logPeek j = if j = i then word (w.bits / 2 ^ 96) else s.logPeek j)
        ∧ (∀ k ∈ [stIcb, stAdc, stBook], t.mem.store k = s.mem.store k)
        ∧ { t with
            mem := s.mem, hst := { t.hst with
              stampWp := s.hst.stampWp, optWp := s.hst.optWp, stampOut := s.hst.stampOut, optOut := s.hst.optOut } } = s

/-- What field `g` of a register reads after a write of `v` over the word `w`, where the writer `may` change RWL and W1S fields and
the hardware sets the bits `ev` in the same cycle (R6, R8, R9). -/
def Fld.written (g : Fld) (may : Bool) (v w ev : Word) : Nat :=
  let x := bitsAt v.toNat g.lo g.wid
  let y := bitsAt w.toNat g.lo g.wid
  match g.acc with
  | .rw => x
  | .rwl => if may then x else y
  | .w1c => y - (y &&& bitsAt (v &&& ~~~ev).toNat g.lo g.wid)
  | .w1s => if may then y ||| x else y
  | .ro => y
  | .wo => y

end Sys2Proof.Machine
end

