-- ==== Sys2Proof/Certificates/Slice0/Obligations.lean ====
section
/-! DEFINITION. The statements for the provers. -/

open Sys2Proof Sys2Proof.Machine

/-! ### The machine as a whole -/

/-- A step runs the command at the front of the queue with the queue's rest. On an empty queue the clock counts one cycle
where it runs (the model's choice, entry 2). -/
def Obligations.StepRunsFront : Prop :=
  (∀ (c : Instr) (s : State), step { s with pending := c :: s.pending } = exec c s)
    ∧ ∀ s : State, s.pending = [] →
        step s = .next (if s.mode.powered then { s with raw := s.raw + 1 } else s)

/-- No command stops the machine: every command on every state, and every step, answers a next state. -/
def Obligations.NoCommandStops : Prop :=
  (∀ (c : Instr) (s : State), ∃ t, exec c s = .next t) ∧ ∀ s : State, ∃ t, step s = .next t

/-- What follows a command in its cycle. Nothing, where nothing is owed. A fault that selects warm restart brings Boot with the
lowest such code in KS_FAULT (R384 to R386); otherwise one that selects Safe-state brings it, with cause 4 and the lowest such
code, but is held in Debug-halt and in Twin-standby (R387), and changes nothing in Safe-state (R386); in Boot and Provision no
fault reacts. A reaction held in Twin-standby acts in Run. A running device moves to the mode that the servo asks for (R40), and a
command that has taken it to Configure in this very cycle is dropped for that (R371). Each vector that has become asserted sends
its message, or is withheld in the PBA by its mask or while the link is down (R299, R300).
The model's choices in it: log entries 3, 30, 32 and 44. -/
def Obligations.CalmSettles : Prop :=
  (∀ s : State, s.Calm → settle s = s)
    ∧ (∀ (s : State) (cs : List Nat) (c : Nat), s.pwr.faults = cs → s.mode.powered = true → s.mode ≠ .boot → s.mode ≠ .provision →
        c ∈ cs → s.reaction c = 2 → (∀ d ∈ cs, s.reaction d = 2 → c ≤ d) → c < 256 →
      (s.mode ≠ .halt → (settle s).mode = .boot ∧ (settle s).f PWR.KS_FAULT.LAST = c
          ∧ (settle s).f PWR.KS_FAULT.COUNT = counted s PWR.KS_FAULT.COUNT ∧ (settle s).f PWR.KS_CAUSE.CAUSE = 4)
        ∧ (s.mode = .halt → (settle s).mode = .halt ∧ (settle s).pwr.haltFault = holdFault s.pwr.haltFault (2, c)))
    ∧ (∀ (s : State) (cs : List Nat) (c : Nat), s.pwr.faults = cs → s.mode.powered = true → s.mode ≠ .boot → s.mode ≠ .provision →
        c ∈ cs → s.reaction c = 1 → (∀ d ∈ cs, s.reaction d = 1 → c ≤ d) → (∀ d ∈ cs, s.reaction d ≠ 2) → c < 256 →
      (s.mode ≠ .halt → s.mode ≠ .standby → s.mode ≠ .safe → (settle s).mode = .safe ∧ (settle s).f PWR.SAFECAUSE.CAUSE = 4
          ∧ (settle s).f PWR.SAFECAUSE.FAULT = c ∧ (settle s).on PWR.IRQ_RAW.SAFE = true)
        ∧ (s.mode = .safe → (settle s).mode = .safe ∧ (settle s).f PWR.SAFECAUSE.CAUSE = s.f PWR.SAFECAUSE.CAUSE
          ∧ (settle s).f PWR.SAFECAUSE.FAULT = s.f PWR.SAFECAUSE.FAULT)
        ∧ (s.mode = .halt → (settle s).mode = .halt ∧ (settle s).pwr.haltFault = holdFault s.pwr.haltFault (1, c))
        ∧ (s.mode = .standby → (settle s).mode = .standby ∧ (settle s).pwr.heldFault = holdFault s.pwr.heldFault (1, c)))
    ∧ (∀ s : State, (s.mode = .boot ∨ s.mode = .provision ∨ ∀ c ∈ s.pwr.faults, s.reaction c = 0) →
        { s with pwr := { s.pwr with faults := [] } }.Calm → settle s = { s with pwr := { s.pwr with faults := [] } })
    ∧ (∀ (s : State) (c : Nat), s.pwr.faults = [] → s.pwr.heldFault = some (1, c) → s.mode.running = true → c < 256 →
      (settle s).mode = .safe ∧ (settle s).f PWR.SAFECAUSE.CAUSE = 4 ∧ (settle s).f PWR.SAFECAUSE.FAULT = c)
    ∧ (∀ s : State, s.pwr.faults = [] → s.pwr.heldFault = none → s.mode.running = true → s.runMode ≠ s.mode →
      (settle s).mode = s.runMode ∧ (settle s).on PWR.IRQ_RAW.MODE_CHG = true)
    ∧ (∀ (s : State) (m : Mode), s.pwr.faults = [] → s.pwr.heldFault = none → s.pwr.taken = some (s.raw, m) → s.mode = .configure →
        m.running = true → s.runMode ≠ m → (settle s).mode = s.runMode ∧ (settle s).f PWR.CMDSTS.RESULT = 2)
    ∧ ∀ s : State, s.Quiet →
      { settle s with hst := { (settle s).hst with msgs := s.hst.msgs, pba := s.hst.pba, asserted := s.hst.asserted } } = s
        ∧ (settle s).hst.asserted = s.vectors
        ∧ (∀ v ∈ s.vectors, v ∉ s.hst.asserted → s.on HST.LINK.UP = true → v ∈ s.hst.unmasked →
            { vec := v, addr := (s.msixWord v 0).toNat + (s.msixWord v 1).toNat * 2 ^ 32, data := s.msixWord v 2 } ∈ (settle s).hst.msgs)
        ∧ (∀ v ∈ s.vectors, v ∉ s.hst.asserted → s.on HST.LINK.UP = false ∨ v ∉ s.hst.unmasked → v ∈ (settle s).hst.pba)
        ∧ (settle s).hst.msgs.length = s.hst.msgs.length + (s.vectors.filter (fun v => v ∉ s.hst.asserted
            ∧ s.on HST.LINK.UP = true ∧ v ∈ s.hst.unmasked)).length

/-- R300: after every step, every asserted vector has sent its message or had it withheld, and no other vector is taken for
asserted: a step keeps the books of the asserted vectors.
The model's choices in it: log entry 24. -/
def Obligations.VectorsTold : Prop :=
  ∀ s t : State, s.Told → step s = .next t → t.Told

/-- The books of the asserted vectors at reset.
The model's choices in it: log entries 4 and 24. -/
def Obligations.ResetTold : Prop := State.reset.Told

/-- R263, R264, R274: a write of a stored word leaves every other word of every memory as it was and reads back as written, and
keeps the memories in canonical form: the home banks, the relief, the interchange bank, the ADC buffer, the logbook and digest
space. A write of the log store reads back from the bank that serves the word, whatever phase the background test is in; one of a
part of a word merges its lanes, unless the word is uncorrectable: then nothing is stored.
The model's choices in it: log entry 35. -/
def Obligations.MemoryWrites : Prop :=
  ∀ (s : State) (i : Nat) (v : Word), s.mem.wf = true →
    s.mem.only (s.putHome i v).mem stLog (fun j => if j = i then v else SMap.get (fun _ => 0) s.mem.log j)
      ∧ s.mem.only (s.putRelief i v).mem stRelief (fun j => if j = i then v else SMap.get (fun _ => 0) s.mem.relief j)
      ∧ (∀ be, s.mem.only (s.icbPut i v be).mem stIcb
          (fun j => if j = i then (if be = 15 then v else mergeBe (s.icbPeek i) v be) else s.icbPeek j))
      ∧ s.mem.only (s.adcPut i v).mem stAdc (fun j => if j = i then v else SMap.get (fun _ => 0) s.mem.adcBuf j)
      ∧ s.mem.only (s.bookPut i v).mem stBook (fun j => if j = i then v else SMap.get (fun _ => 0) s.mem.book j)
      ∧ (s.mem.oneOut → (s.logWrite i v).mem.wf = true ∧ (∀ j, (s.logWrite i v).logPeek j = if j = i then v else s.logPeek j)
          ∧ ∀ k ∈ [stIcb, stAdc, stBook], (s.logWrite i v).mem.store k = s.mem.store k)
      ∧ ∀ (r : Requester) (be : Nat), s.mem.oneOut →
          (s.logMerge r i v be).mem.wf = true
            ∧ (∀ k ∈ [stIcb, stAdc, stBook], (s.logMerge r i v be).mem.store k = s.mem.store k)
            ∧ (be ≠ 15 → s.ecc (s.logHome i).1 (s.logHome i).2 = 2 → ∀ j, (s.logMerge r i v be).logPeek j = s.logPeek j)
            ∧ (be = 15 ∨ s.ecc (s.logHome i).1 (s.logHome i).2 ≠ 2 → ∀ j, (s.logMerge r i v be).logPeek j
                = if j = i then (if be = 15 then v else mergeBe (s.logPeek i) v be) else s.logPeek j)

/-- What the device holds right after reset, as the rules give it: Boot (R368), every memory empty and its words 0, every word of every
store with good check bits, vehicle time 0 (R28), no entry in the timetable and every slot FREE (R100), engines HELD (R146), tracks OFF with
both edge senses recorded (R60), no holder of a track (R78), DSP.CTL.RUN = 1, DSP.TICK.PERIOD = 400 (R12), operator on every
host interface (R336).
The model's choices in it: log entries 4 and 35. -/
def Obligations.ResetState : Prop :=
  let s := State.reset
  s.mode = .boot ∧ s.mem.wf = true ∧ (∀ i, s.logPeek i = 0 ∧ s.icbPeek i = 0) ∧ s.vt = 0 ∧ (∀ i, (s.slot i).st = .free)
    ∧ (∀ e, (s.engine e).st = .held) ∧ (∀ t, (s.track t).train = none ∧ (s.track t).fifo = [])
    ∧ (∀ t : TrackId, s.tmode t.val = 0 ∧ s.f TRK.MODE.EDGE (trkAt t.val) = 3 ∧ s.holderAt (trkReg TRK.OWN.HOLDER t) = 0)
    ∧ (∀ k i, s.ecc k i = 0) ∧ (∀ k, s.micMark k = 0 ∧ s.nanMark k = 0)
    ∧ (∀ i, SMap.get (fun _ => 0) s.mem.relief i = 0 ∧ SMap.get (fun _ => 0) s.mem.adcBuf i = 0 ∧ SMap.get (fun _ => 0) s.mem.book i = 0)
    ∧ s.on DSP.CTL.RUN = true ∧ s.f DSP.TICK.PERIOD = 400
    ∧ s.role .pcie = .operator ∧ s.role .spi = .operator ∧ s.role .jtag = .operator ∧ (∀ e, s.role (.engine e) = .operator)
    ∧ s.pending = []

/-! ### The timebase (file 02) -/

/-- R27, R52, R103: a read of the low word of a pair (vehicle time, whose fraction reads 0, NEXTSEC, the entry books) answers it
and copies the other word for the requester, whose reads of the high word bring that copy; nothing else changes, and no other
requester's copy.
The model's choices in it: log entry 11. -/
def Obligations.LowWordReadsCopy : Prop :=
  ∀ (r : Requester) (s : State), s.reaches r = true →
    exec (.vtLoRead r) s = .next (settle ((s.setPreg r.id (adr TBU.VT_HI.V) (word (s.vt / 2 ^ 32))).answer r
        (adr TBU.VT_LO.V) (word (s.vt / 64 * 64))))
      ∧ exec (.nextsecLoRead r) s = .next (settle ((s.setPreg r.id (adr TBU.NEXTSEC_HI.NEXTSEC)
          (s.reg (adr TBU.NEXTSEC_HI.NEXTSEC))).answer r (adr TBU.NEXTSEC_LO.NEXTSEC) (s.reg (adr TBU.NEXTSEC_LO.NEXTSEC))))
      ∧ exec (.books0Read r) s = .next (settle ((s.setPreg r.id (adr DSP.BOOKS1.ACTIVE)
          (word (s.dsp.books.2.2.2 * 2 ^ 16 + s.dsp.books.2.2.1))).answer r (adr DSP.BOOKS0.FREE)
            (word (s.dsp.books.2.1 * 2 ^ 16 + s.dsp.books.1))))
      ∧ ∀ (a : Nat) (v w : Word) (b : Nat), a ∈ [adr TBU.VT_HI.V, adr TBU.NEXTSEC_HI.NEXTSEC, adr DSP.BOOKS1.ACTIVE] →
          ∀ t, t = (s.setPreg r.id a v).answer r b w →
        t.preg r.id a = v ∧ (t.read r a).2.1 = v ∧ CopiesBut s t r [a]
          ∧ t.hst.replies = { req := r, addr := b, data := w, poison := false } :: s.hst.replies
          ∧ { t with preqs := s.preqs, hst := { t.hst with replies := s.hst.replies } } = s

/-- R32 to R40, R420: loss of lock is flagged and detected as coded fault 0x01. A reference pulse enters its vernier's
histogram; one that no message awaits waits for its message with the edge and stamp of its vernier, or is rejected and counted
where messages name the next pulse; one that a message awaits is accepted in its window, and in ACQUIRE and LOCKED the servo
is updated by its phase error (R38 to R40). A message that names the next pulse
awaits it, one that names the last pulse is its second, a bad one and one without a pulse are counted. A pulse that no message has named by the close of its window is rejected and counted; a
reference lost while LOCKED brings HOLDOVER and REF_LOST.
The model's choices in it: log entries 2, 13 and 37. -/
def Obligations.ReferencePulses : Prop :=
  (∀ s : State, s.mode.powered = true →
      ∃ t, exec .pllUnlock s = .next (settle t) ∧ t.on TBU.STS.PLL_LOCK = false ∧ t.on TBU.IRQ_RAW.PLL_UNLOCK = true
        ∧ t.pwr.faults = s.pwr.faults ++ [1] ∧ RegsBut s t [TBU.STS.PLL_LOCK.off, TBU.IRQ_RAW.PLL_UNLOCK.off, adr PWR.FLTSTS.FAULT]
        ∧ { t with seenNow := s.seenNow, regs := s.regs, pwr := s.pwr } = s)
    ∧ (∀ (s : State) (cyc : Nat) (code : Fin 128), s.mode.alive = true → s.lossAt = none → s.tbu.tenths = none →
        s.tbu.await = none →
      ∃ t, exec (.ppsEdge cyc code) s = .next (settle t) ∧ t.raw = max s.raw cyc
        ∧ t.vernier vernRef = { (s.vernier vernRef).count code.val 1 with live := some cyc }
        ∧ (∀ v, v ≠ vernRef → t.vernier v = s.vernier v)
        ∧ ((s.nextNow = false ∨ s.on TBU.REF.RATE = true) → t.regs = s.regs
            ∧ t.tbu.pulses = s.tbu.pulses ++ [{ edge := s.edgeU vernRef cyc code.val, stamp := s.refStamp (s.edgeU vernRef cyc code.val) }])
        ∧ ((s.nextNow = true ∧ s.on TBU.REF.RATE = false) → t.tbu.pulses = s.tbu.pulses
            ∧ t.f TBU.CNT_EVT.LO = counted s TBU.CNT_EVT.LO ∧ t.on TBU.IRQ_RAW.REF_REJ = true)
        ∧ { t with seenNow := s.seenNow, regs := s.regs, raw := s.raw, tbu := { t.tbu with verniers := s.tbu.verniers, pulses := s.tbu.pulses } } = s)
    ∧ (∀ (s : State) (cyc : Nat) (code : Fin 128) (m : TodWait), s.mode.alive = true → s.lossAt = none → s.tbu.tenths = none →
        s.tbu.await = some m → m.refOk = true → s.tbu.lastSec = none → s.srvOn = false → s.on TBU.REF.RATE = false →
        m.done + 10 * msU ≤ s.edgeU vernRef cyc code.val → s.edgeU vernRef cyc code.val ≤ m.done + 990 * msU →
      ∃ t, exec (.ppsEdge cyc code) s = .next (settle t) ∧ t.tbu.await = none ∧ t.tbu.run = s.tbu.run + 1
        ∧ t.tbu.lastSec = some (s.edgeU vernRef cyc code.val, m.sec) ∧ t.tbu.lastPulse = some (s.edgeU vernRef cyc code.val)
        ∧ t.f TBU.PHERR.V = bitsOfInt 32 (max (-(2 ^ 31 - 1)) (min (2 ^ 31 - 1)
            (vtDiff (s.refStamp (s.edgeU vernRef cyc code.val)) (s.vtOf m.sec 0))))
        ∧ (s.f TBU.REF.QUAL_N ≤ s.tbu.run + 1 → t.on TBU.STS.REF_QUAL = true) ∧ t.srv = s.srv
        ∧ { t with regs := s.regs, raw := s.raw, tbu := s.tbu } = s)
    ∧ (∀ (s : State) (bs : List Byte) (b : Nat) (m : Tod), s.mode.alive = true → s.decodeTod bs = some m → m.next1 = true →
        m.utc = none → s.tbu.await = none →
      ∃ t, exec (.todMessage bs b) s = .next (settle t)
        ∧ t.tbu = { s.tbu with next1 := true, await := some { sec := m.sec, refOk := m.refOk, done := s.raw * 64 } }
        ∧ { t with tbu := s.tbu } = s)
    ∧ (∀ (s : State) (cyc : Nat) (code : Fin 128) (m : TodWait), s.mode.alive = true → s.lossAt = none → s.tbu.tenths = none →
        s.tbu.await = some m → m.refOk = true → s.tbu.lastSec = none → s.srvOn = true → s.on TBU.REF.RATE = false →
        s.tbu.lastStep = none → s.srv = srvAcquire ∨ s.srv = srvLocked →
        m.done + 10 * msU ≤ s.edgeU vernRef cyc code.val → s.edgeU vernRef cyc code.val ≤ m.done + 990 * msU →
        ∀ e : Int, e = vtDiff (s.refStamp (s.edgeU vernRef cyc code.val)) (s.vtOf m.sec 0) →
        ∀ es : F64, es = F64.ofRatio (e * 5) 128000000000 → ∀ g, g = gains (s.f TBU.SERVO.BW) →
        ∀ sat : Bool, sat = (ppm (s.f TBU.SERVO.SLEW)).lt (g.1.mul es).abs →
        ∀ p : F64, p = (if sat then (ppm (s.f TBU.SERVO.SLEW)).copysign (g.1.mul es) else g.1.mul es) →
      ∃ t, exec (.ppsEdge cyc code) s = .next (settle t)
        ∧ t.tbu.integ = (if sat then s.tbu.integ else s.tbu.integ.add ((g.2.mul (F64.ofRatio 1 1)).mul es)).clamp (ppm (-200)) (ppm 200)
        ∧ t.f TBU.FREQ.CORR = bitsOfInt 32 (clampCorr ((((t.tbu.integ.add p).neg).clamp (ppm (-200)) (ppm 200)).scalb 40).round)
        ∧ t.on TBU.STS.SLEW_SAT = sat ∧ t.tbu.avg = (t.tbu.integ.neg :: s.tbu.avg).take 2560
        ∧ t.f TBU.PHERR.V = bitsOfInt 32 (max (-(2 ^ 31 - 1)) (min (2 ^ 31 - 1) e))
        ∧ (s.srv = srvAcquire → t.srv = (if e.natAbs * 10 ≤ s.f TBU.SERVO.LOCK_THR * 256 ∧ s.f TBU.SERVO.LOCK_N ≤ s.tbu.lockCnt + 1
            ∨ s.f TBU.SERVO.LOCK_N = 0 then srvLocked else srvAcquire))
        ∧ (s.srv = srvLocked → t.srv = (if 8 * s.f TBU.SERVO.LOCK_THR * 256 < e.natAbs * 10 ∧ 1 ≤ s.tbu.overCnt then srvAcquire
            else srvLocked))
        ∧ { t with seenNow := s.seenNow, regs := s.regs, raw := s.raw, tbu := s.tbu } = s)
    ∧ (∀ (s : State) (bs : List Byte) (b : Nat) (m : Tod), s.mode.alive = true → s.decodeTod bs = some m → m.next1 = false →
        m.utc = none →
      ((s.tbu.pulses.filter (fun p => p.edge < b * 64)) = [] →
        ∃ t, exec (.todMessage bs b) s = .next (settle t) ∧ t.tbu = { s.tbu with next1 := false }
          ∧ t.f TBU.CNT_EVT.HI = counted s TBU.CNT_EVT.HI ∧ t.on TBU.IRQ_RAW.REF_REJ = true
          ∧ { t with seenNow := s.seenNow, regs := s.regs, tbu := s.tbu } = s)
      ∧ ∀ p : Pulse, (s.tbu.pulses.filter (fun p => p.edge < b * 64)).getLast? = some p → m.refOk = true → s.tbu.lastSec = none →
          s.srvOn = false → s.on TBU.REF.RATE = false → p.edge + 10 * msU ≤ s.raw * 64 → s.raw * 64 ≤ p.edge + 990 * msU →
        ∃ t, exec (.todMessage bs b) s = .next (settle t) ∧ t.tbu.pulses = s.tbu.pulses.erase p
          ∧ t.tbu.lastSec = some (p.edge, m.sec) ∧ t.tbu.lastPulse = some p.edge ∧ t.tbu.run = s.tbu.run + 1
          ∧ t.f TBU.PHERR.V = bitsOfInt 32 (max (-(2 ^ 31 - 1)) (min (2 ^ 31 - 1) (vtDiff p.stamp (s.vtOf m.sec 0))))
          ∧ (s.f TBU.REF.QUAL_N ≤ s.tbu.run + 1 → t.on TBU.STS.REF_QUAL = true) ∧ t.srv = s.srv
          ∧ { t with regs := s.regs, tbu := s.tbu } = s)
    ∧ (∀ (s : State) (bs : List Byte) (b : Nat), s.mode.alive = true → s.decodeTod bs = none →
      ∃ t, exec (.todMessage bs b) s = .next (settle t) ∧ t.f TBU.CNT_EVT.HI = counted s TBU.CNT_EVT.HI
        ∧ t.on TBU.IRQ_RAW.REF_REJ = true ∧ { t with seenNow := s.seenNow, regs := s.regs } = s)
    ∧ (∀ (s : State) (p : Pulse) (ps : List Pulse), s.tbu.pulses = p :: ps → s.lossAt = none →
      ∃ t, exec .pulseWindowClose s = .next (settle t) ∧ t.tbu = { s.tbu with pulses := ps }
        ∧ t.raw = max s.raw ((p.edge + s.windowU + 63) / 64) ∧ t.f TBU.CNT_EVT.LO = counted s TBU.CNT_EVT.LO
        ∧ t.on TBU.IRQ_RAW.REF_REJ = true ∧ { t with seenNow := s.seenNow, regs := s.regs, tbu := s.tbu, raw := s.raw } = s)
    ∧ ∀ (s : State) (d : Nat), s.lossAt = some d → s.tbu.pulses = [] → s.srv = srvLocked →
      ∃ t, exec .refLoss s = .next (settle t) ∧ t.srv = srvHoldover ∧ t.on TBU.IRQ_RAW.REF_LOST = true
        ∧ t.on TBU.STS.REF_QUAL = false ∧ t.tbu.lastPulse = none ∧ t.tbu.run = 0 ∧ t.f TBU.FREQ.CORR = t.f TBU.KS_FREQ.V
        ∧ { t with seenNow := s.seenNow, regs := s.regs, tbu := s.tbu, raw := s.raw } = s

/-- R41, R48, R49, R376: FREQ_HOLD is kept in TBU.KS_FREQ once LOCKED has lasted; the Keep-time books: the latch of vehicle time at
the first crystal edge, with which the core is isolated, the tick after it, the measured crystal; vehicle time and COARSE on return.
The model's choices in it: log entries 2, 6 and 13. -/
def Obligations.HoldoverAndKeepTime : Prop :=
  (∀ s : State, s.srv = srvLocked →
      ∃ t, exec .ksFreqCopy s = .next (settle t) ∧ t.f TBU.KS_FREQ.V = bitsOfInt 32 (clampCorr (s.freqHold.scalb 40).round)
        ∧ bitsAt (t.f TBU.KS_FLAGS.V) 1 1 = 1 ∧ { t with regs := s.regs } = s)
    ∧ (∀ (s : State) (delay : Nat), s.mode = .keeptime → s.tbu.latched = false →
      ∃ t, exec (.keeptimeLatch delay) s = .next (settle t) ∧ t.f TBU.KS_VT_LO.V = (s.vt + delay) % 2 ^ 32
        ∧ t.f TBU.KS_VT_HI.V = (s.vt + delay) % 2 ^ 64 / 2 ^ 32 ∧ t.ksTicks = 0 ∧ t.vtValid = true
        ∧ t.tbu = { latched := true } ∧ t.mode = .keeptime ∧ t.raw = s.raw ∧ t.vtOff = s.vtOff ∧ t.slots = [] ∧ t.mem = {}
        ∧ t.pwr.pmicEn = s.pwr.waking.isSome ∧ t.pwr.waking = s.pwr.waking
        ∧ ∀ a, keepsake a = true → a ∉ [adr TBU.KS_VT_LO.V, adr TBU.KS_VT_HI.V, adr TBU.KS_TICKS_LO.V, adr TBU.KS_TICKS_HI.V,
            adr TBU.KS_FLAGS.V] → t.reg a = s.reg a)
    ∧ (∀ s : State, s.mode = .keeptime → s.tbu.latched = true →
      ∃ t, exec .ksTick s = .next (settle t) ∧ t.ksTicks = (s.ksTicks + 1) % 2 ^ (TBU.KS_TICKS_HI.V.wid + 32) ∧ { t with regs := s.regs } = s)
    ∧ (∀ (s : State) (n : Nat), s.srv = srvLocked → s.pwr.xtalOk = true →
      ∃ t, exec (.k32Measure n) s = .next (settle t) ∧ t.f TBU.K32.V = n % 2 ^ 32 ∧ t.f TBU.KS_K32.V = n % 2 ^ 32
        ∧ bitsAt (t.f TBU.KS_FLAGS.V) 2 1 = 1 ∧ { t with regs := s.regs } = s)
    ∧ ∀ s : State, s.mode.powered = true → s.f PWR.KS_CAUSE.LASTMODE = 2 → s.on TBU.STS.PLL_LOCK = true → s.vtValid = true →
      ∃ t, exec .keeptimeResume s = .next (settle t) ∧ t.vt = s.resumed % 2 ^ 64 ∧ t.vtValid = false ∧ t.on TBU.STS.COARSE = true
        ∧ t.dsp.bdep = t.dep ∧ t.raw = s.raw ∧ t.slots = s.slots ∧ t.mem = s.mem

/-- R30, R40, R44, R46: a HI word of the mapping takes effect in Configure from the installer and is discarded with MODE
elsewhere; SRV_EN written 0 turns the servo to FREE_RUN, written 1 it starts there from the frequency in force; a step is
launched with STEP_BUSY, takes effect at the boundary by exactly its cycles before the blocks follow it, and is done fifteen
cycles later.
The model's choices in it: log entries 9, 12 and 13. -/
def Obligations.MappingServoAndSteps : Prop :=
  (∀ (s : State) (r : Requester) (v : Word), s.opens r mapVtHi = true → s.mode = .configure → s.sealed TBU.page.base = false →
        s.hasRole r .installer = true →
      ∃ t u : State, exec (.mapHiWrite r false v) s = .next (settle t) ∧ t = u.nextSec.mirror (.map u.tbu.mapVt u.tbu.mapTai)
        ∧ u.tbu.mapVt = v.toNat * 2 ^ 32 + (s.reg (mapVtHi - 4)).toNat ∧ u.tbu.mapTai = s.tbu.mapTai ∧ u.reg mapVtHi = v)
    ∧ (∀ (s : State) (r : Requester) (v : Word), s.opens r mapTaiHi = true → s.mode = .configure → s.sealed TBU.page.base = false →
        s.hasRole r .installer = true →
      ∃ t u : State, exec (.mapHiWrite r true v) s = .next (settle t) ∧ t = u.nextSec.mirror (.map u.tbu.mapVt u.tbu.mapTai)
        ∧ u.tbu.mapTai = v.toNat * 2 ^ 32 + (s.reg (mapTaiHi - 4)).toNat ∧ u.tbu.mapVt = s.tbu.mapVt ∧ u.reg mapTaiHi = v)
    ∧ (∀ (s : State) (r : Requester) (tai : Bool) (v : Word), s.opens r (if tai then mapTaiHi else mapVtHi) = true →
        s.mode ≠ .configure →
      exec (.mapHiWrite r tai v) s = .next (settle (s.discard (if tai then mapTaiHi else mapVtHi) r .mode)))
    ∧ (∀ (s : State) (r : Requester) (v : Word), s.opens r (adr TBU.CTL.SRV_EN) = true → s.srv ≠ srvFollow →
        s.sealed TBU.page.base = false → s.hasRole r .installer = true →
      ∃ t, exec (.srvEnWrite r v) s = .next (settle t) ∧ t.srvOn = v.getLsbD 0 ∧ t.on TBU.CTL.AUTOSTEP = v.getLsbD 1
        ∧ t.srv = (if s.srvOn = v.getLsbD 0 then s.srv else srvFree)
        ∧ (s.srvOn = false → v.getLsbD 0 = true → t.tbu = { s.tbu with integ := s.freqNow.neg })
        ∧ (s.srvOn = true ∨ v.getLsbD 0 = false → t.tbu = s.tbu) ∧ t.trk = s.trk ∧ t.slots = s.slots)
    ∧ (∀ (s : State) (r : Requester) (v : Word), s.opens r stepHi = true → (s.mode = .configure ∨ s.mode.running = true) →
        s.hasRole r (if s.mode = .configure then .operator else .installer) = true →
        s.on TBU.STS.STEP_BUSY = false → s.sealed TBU.page.base = false →
      ∃ t, exec (.stepLaunch r v) s = .next (settle t) ∧ t.on TBU.STS.STEP_BUSY = true
        ∧ t.tbu = { s.tbu with step := some {
            cycles := signedOf 48 (v.toNat % 2 ^ 16 * 2 ^ 32 + s.f TBU.STEP_LO.CYCLES), shift := decide (v.toNat / 2 ^ 16 % 2 = 1)
            req := r.id, role := s.role r, dep := s.dep } }
        ∧ t.vtOff = s.vtOff ∧ t.slots = s.slots)
    ∧ (∀ (s : State) (q : StepReq), s.tbu.step = some q → s.stepIsDue = true →
      ∃ u : State, exec .stepTakeEffect s = .next (settle (u.stepBlocks q.shift (q.cycles * 64) (s.advanceVt (s.boundary s.dsp.bdep + 64)).dep))
        ∧ u.vtOff = s.vtOff + q.cycles * 64 ∧ u.tbu.step = none ∧ u.tbu.stepDue = true ∧ u.on TBU.STS.COARSE = false
        ∧ u.slots = s.slots ∧ u.trk = s.trk ∧ u.raw = (s.advanceVt (s.boundary s.dsp.bdep + 64)).raw)
    ∧ ∀ (s : State) (u : Nat), s.tbu.lastStep = some u → s.tbu.stepDue = true → s.tbu.align = none →
      ∃ t, exec .stepDone s = .next (settle t) ∧ t.on TBU.STS.STEP_BUSY = false ∧ t.on TBU.IRQ_RAW.STEP_DONE = true
        ∧ t.tbu = { s.tbu with stepDue := false, step := none } ∧ t.raw = max s.raw (u / 64 + 15)
        ∧ { t with seenNow := s.seenNow, regs := s.regs, tbu := s.tbu, raw := s.raw } = s

/-- R51, R52: a write of PPSOUT with EN = 1 claims the free track that it names for the TBU; where another holds it EN is cleared
and PPSOUT_REFUSED set. PPSOUT_LOAD loads the lead of the next second's pulse, shifted by OFS, and its trail WIDTH µs later.
NEXTSEC follows the second. The model's choices in it: log entry 13.
R53 to R56: a build of the vernier tables, INTERVAL ms after the last one: a capture vernier with enough hits gets its table for
the next boundary and an empty histogram, one with a code over four times its width fails and is counted, one with fewer hits
keeps its histogram. A fill edge enters the histogram of its vernier alone, unless a live edge has taken the vernier in the same
cycle. R58: an abort of the TBU cancels a step that has not taken effect and one that waits, and releases the claim of PPSOUT.
The model's choices in it: log entries 13, 26 and 39. -/
def Obligations.SecondPulseAndCalibration : Prop :=
  (∀ (s : State) (r : Requester) (v : Word), s.opens r (adr TBU.PPSOUT.EN) = true → s.tbu.ppsClaim = false →
        bitsAt v.toNat TBU.PPSOUT.EN.lo 1 = 1 →
        s.holderAt (TRK.OWN.HOLDER.off + trkAt (bitsAt v.toNat TBU.PPSOUT.TRACK.lo TBU.PPSOUT.TRACK.wid)) = 0 →
      ∃ t, exec (.ppsoutEnable r v) s = .next (settle t) ∧ t.tbu = { s.tbu with ppsClaim := true, ppsSec := none }
        ∧ t.on TBU.PPSOUT.EN = true ∧ t.on TBU.STS.PPSOUT_REFUSED = false
        ∧ t.f TBU.PPSOUT.TRACK = bitsAt v.toNat TBU.PPSOUT.TRACK.lo TBU.PPSOUT.TRACK.wid
        ∧ t.holderAt (TRK.OWN.HOLDER.off + trkAt (t.f TBU.PPSOUT.TRACK)) = Requester.tbu.id
        ∧ RegsBut s t [adr TBU.PPSOUT.EN, adr TBU.STS.PPSOUT_REFUSED, TRK.OWN.HOLDER.off + trkAt (t.f TBU.PPSOUT.TRACK)]
        ∧ { t with regs := s.regs, tbu := s.tbu } = s)
    ∧ (∀ (s : State) (r : Requester) (v : Word), s.opens r (adr TBU.PPSOUT.EN) = true → s.tbu.ppsClaim = false →
        bitsAt v.toNat TBU.PPSOUT.EN.lo 1 = 1 →
        s.holderAt (TRK.OWN.HOLDER.off + trkAt (bitsAt v.toNat TBU.PPSOUT.TRACK.lo TBU.PPSOUT.TRACK.wid)) ≠ 0 →
        s.holderAt (TRK.OWN.HOLDER.off + trkAt (bitsAt v.toNat TBU.PPSOUT.TRACK.lo TBU.PPSOUT.TRACK.wid)) ≠ Requester.tbu.id →
      ∃ t, exec (.ppsoutEnable r v) s = .next (settle t) ∧ t.on TBU.PPSOUT.EN = false ∧ t.on TBU.STS.PPSOUT_REFUSED = true
        ∧ t.holderAt (TRK.OWN.HOLDER.off + trkAt (t.f TBU.PPSOUT.TRACK)) = s.holderAt (TRK.OWN.HOLDER.off + trkAt (t.f TBU.PPSOUT.TRACK))
        ∧ t.tbu = s.tbu ∧ t.trk = s.trk)
    ∧ (∀ s : State, s.ppsRuns = true → s.tmode (s.f TBU.PPSOUT.TRACK) = mdPulse →
        (s.track (s.f TBU.PPSOUT.TRACK)).aShd = none → (s.track (s.f TBU.PPSOUT.TRACK)).bShd = none →
        (s.track (s.f TBU.PPSOUT.TRACK)).aAct = none → (s.track (s.f TBU.PPSOUT.TRACK)).bAct = none →
      ∃ (t : State) (a b : Cmp), exec .ppsoutLoad s = .next (settle t)
        ∧ (t.track (s.f TBU.PPSOUT.TRACK)).aAct = some a ∧ (t.track (s.f TBU.PPSOUT.TRACK)).bAct = some b
        ∧ a.act = .lead ∧ a.time = s.vtOf s.ppsNext (signedOf 16 (s.f TBU.PPSOUT.OFS)) ∧ s.taiSec s.vt < s.ppsNext
        ∧ b.act = .trail ∧ b.time = (a.time + s.f TBU.PPSWID.WIDTH * 25600) % 2 ^ 64 ∧ a.src = .direct ∧ b.src = .direct
        ∧ t.tbu = { s.tbu with ppsSec := some s.ppsNext } ∧ (∀ k, k ≠ s.f TBU.PPSOUT.TRACK → t.track k = s.track k)
        ∧ { t with tbu := s.tbu, trk := s.trk } = s)
    ∧ (∀ s : State, s.mode.alive = true →
      ∃ t, exec .nextsecUpdate s = .next (settle t)
        ∧ t.f TBU.NEXTSEC_LO.NEXTSEC = s.vtOf (s.taiSec s.vt + 1) 0 % 2 ^ 32
        ∧ t.f TBU.NEXTSEC_HI.NEXTSEC = s.vtOf (s.taiSec s.vt + 1) 0 / 2 ^ 32 % 2 ^ 32
        ∧ RegsBut s t [adr TBU.NEXTSEC_LO.NEXTSEC, adr TBU.NEXTSEC_HI.NEXTSEC] ∧ { t with regs := s.regs } = s)
    ∧ (∀ (s : State) (obs : List VernierObs) (cal : List CalHits), s.mode.alive = true → s.on TBU.CAL.CAL_EN = true →
        SMap.wf (fun _ => {}) s.tbu.verniers = true →
      ∃ t, exec (.calBuild obs cal) s = .next (settle t) ∧ t.tbu.built = true ∧ t.tbu.lastBuild = t.vt
        ∧ (s.vt < s.tbu.lastBuild + s.f TBU.CAL.INTERVAL * msU → t.raw = (s.advanceVt (s.tbu.lastBuild + s.f TBU.CAL.INTERVAL * msU)).raw)
        ∧ (s.tbu.lastBuild + s.f TBU.CAL.INTERVAL * msU ≤ s.vt → t.raw = s.raw)
        ∧ (∀ v, v < vernCal 0 ∨ vernIndex 0 ≤ v →
            (histSum (s.vernier v).hist < 2 ^ s.f TBU.CAL.MIN_HITS → t.vernier v = s.vernier v
              ∧ SMap.get (fun _ => []) t.tbu.newTaps v = SMap.get (fun _ => []) s.tbu.newTaps v)
            ∧ (2 ^ s.f TBU.CAL.MIN_HITS ≤ histSum (s.vernier v).hist → t.vernier v = { s.vernier v with hist := [] }
              ∧ (∀ tap, buildTaps (s.vernier v).hist (histSum (s.vernier v).hist) (s.vernier v).tap = some tap →
                  SMap.get (fun _ => []) t.tbu.newTaps v = tap)
              ∧ (buildTaps (s.vernier v).hist (histSum (s.vernier v).hist) (s.vernier v).tap = none →
                  SMap.get (fun _ => []) t.tbu.newTaps v = SMap.get (fun _ => []) s.tbu.newTaps v
                    ∧ t.on TBU.IRQ_RAW.CAL_FAIL = true)))
        ∧ RegsBut s t [adr TBU.CALSTS.FAILS, adr TBU.IRQ_RAW.CAL_FAIL, adr PWR.FLTSTS.FAULT]
        ∧ { t with seenNow := s.seenNow, regs := s.regs, tbu := s.tbu, raw := s.raw, pwr := s.pwr } = s)
    ∧ (∀ (s : State) (v : Fin 301) (code : Fin 128), s.mode.alive = true → s.on TBU.CAL.FILL = true →
      ∃ t, exec (.calFillEdge v code) s = .next (settle t)
        ∧ t.vernier v.val = (if (s.vernier v.val).live = some s.raw then s.vernier v.val else (s.vernier v.val).count code.val 1)
        ∧ (∀ j, j ≠ v.val → t.vernier j = s.vernier j) ∧ { t with tbu := { t.tbu with verniers := s.tbu.verniers } } = s)
    ∧ ∀ s : State, s.aborting TBU.page.base = true →
      ∃ t, exec .tbuAbort s = .next (settle t) ∧ t.tbu.step = none ∧ t.tbu.align = none ∧ t.tbu.ppsClaim = false
        ∧ (s.tbu.step ≠ none → t.on TBU.STS.STEP_BUSY = false)
        ∧ (s.tbu.ppsClaim = true → ∀ k, k < 256 → s.holderAt (TRK.OWN.HOLDER.off + trkAt k) = Requester.tbu.id →
            t.holderAt (TRK.OWN.HOLDER.off + trkAt k) = 0)
        ∧ t.srv = s.srv ∧ { t with regs := s.regs, tbu := s.tbu } = s

/-! ### Tracks and lines (file 03) -/

/-- R59, R60, R68, R73: a mode write that R60 lets through gives the track its mode, sense, record and auto-arm bits and what the
mode brings; one while the track is loaded or active is discarded with BUSY, a reserved mode or no edge sense with RANGE; a
compare word that does not arm is held; the word that arms loads the shadow, or is refused with BUSY and LOAD_REJ; a read of POP0
takes the head record.
The model's choices in it: log entries 9 and 14. -/
def Obligations.TrackModeAndDirectLoads : Prop :=
  (∀ (s : State) (r : Requester) (t : TrackId) (v : Word), s.opens r (trkReg TRK.MODE.CODE t) = true →
        rangeBad TRK.MODE.fields v.toNat = false → edgeBad v.toNat = false →
        (s.track t.val).busy (s.tmode t.val) = false → (s.track t.val).ending s.raw = false → (s.track t.val).marks = [] →
      ∃ t' : State, exec (.trkModeWrite r t v) s = .next (settle t') ∧ t'.tmode t.val = bitsAt v.toNat 0 4
        ∧ t'.f TRK.MODE.EDGE (trkAt t.val) = bitsAt v.toNat 4 2 ∧ t'.on TRK.MODE.REC (trkAt t.val) = v.getLsbD 6
        ∧ (t'.track t.val).lvl = false ∧ (t'.track t.val).following = decide (bitsAt v.toNat 0 4 = mdLinked)
        ∧ (t'.track t.val).armed = (v.getLsbD 7 && inMode (bitsAt v.toNat 0 4) && bitsAt v.toNat 0 4 ≠ mdGate)
        ∧ (∀ j, j ≠ t.val → t'.track j = s.track j) ∧ RegsBut s t' [trkReg TRK.MODE.CODE t]
        ∧ { t' with regs := s.regs, trk := s.trk } = s)
    ∧ (∀ (s : State) (r : Requester) (t : TrackId) (v : Word), s.opens r (trkReg TRK.MODE.CODE t) = true →
        rangeBad TRK.MODE.fields v.toNat = false → edgeBad v.toNat = false →
        (s.track t.val).busy (s.tmode t.val) = true →
      exec (.trkModeWrite r t v) s = .next (settle (s.discard (trkReg TRK.MODE.CODE t) r .busy)))
    ∧ (∀ (s : State) (r : Requester) (t : TrackId) (v : Word), s.opens r (trkReg TRK.MODE.CODE t) = true →
        mdLinked < bitsAt v.toNat 0 4 ∨ bitsAt v.toNat 4 2 = 0 →
      exec (.trkModeWrite r t v) s = .next (settle (s.discard (trkReg TRK.MODE.CODE t) r .range)))
    ∧ (∀ (s : State) (r : Requester) (t : TrackId) (b : Bool) (v : Word), s.opens r (cmpReg t b false) = true →
        s.mode ≠ .configure → s.mode ≠ .safe →
        s.tmode t.val = mdEdge ∨ s.tmode t.val = mdPulse ∨ (s.tmode t.val = mdTrain ∧ b = false) →
      ∃ t' : State, exec (.cmpHoldWrite r t b false v) s = .next (settle t')
        ∧ t'.track t.val = (if b then { s.track t.val with holdBLo := v } else { s.track t.val with holdALo := v })
        ∧ (∀ j, j ≠ t.val → t'.track j = s.track j) ∧ { t' with trk := s.trk } = s)
    ∧ (∀ (s : State) (r : Requester) (t : TrackId) (v : Word), s.opens r (cmpReg t false true) = true →
        s.mode ≠ .configure → s.mode ≠ .safe → s.tmode t.val = mdPulse →
      ∃ t' : State, exec (.cmpHoldWrite r t false true v) s = .next (settle t')
        ∧ t'.track t.val = { s.track t.val with holdAHi := v }
        ∧ (∀ j, j ≠ t.val → t'.track j = s.track j) ∧ { t' with trk := s.trk } = s)
    ∧ (∀ (s : State) (r : Requester) (t : TrackId) (v : Word), s.opens r (cmpReg t false true) = true →
        s.mode ≠ .configure → s.mode ≠ .safe → s.tmode t.val = mdEdge → (s.track t.val).aShd = none →
      ∃ (t' : State) (c : Cmp), exec (.cmpArmWrite r t false v) s = .next (settle t')
        ∧ c.time = v.toNat * 2 ^ 32 + (s.track t.val).holdALo.toNat ∧ c.act = .toggle ∧ c.src = .direct
        ∧ ((s.track t.val).aAct = none → (t'.track t.val).aAct = some c ∧ c.since = s.raw + 1)
        ∧ ((s.track t.val).aAct ≠ none → (t'.track t.val).aShd = some c ∧ (t'.track t.val).aAct = (s.track t.val).aAct)
        ∧ (∀ j, j ≠ t.val → t'.track j = s.track j) ∧ { t' with trk := s.trk } = s)
    ∧ (∀ (s : State) (r : Requester) (t : TrackId) (v : Word), s.opens r (cmpReg t true true) = true →
        s.mode ≠ .configure → s.mode ≠ .safe → s.tmode t.val = mdEdge → (s.track t.val).bShd = none →
      ∃ (t' : State) (c : Cmp), exec (.cmpArmWrite r t true v) s = .next (settle t')
        ∧ c.time = v.toNat * 2 ^ 32 + (s.track t.val).holdBLo.toNat ∧ c.act = .toggle ∧ c.src = .direct
        ∧ ((s.track t.val).bAct = none → (t'.track t.val).bAct = some c ∧ c.since = s.raw + 1)
        ∧ ((s.track t.val).bAct ≠ none → (t'.track t.val).bShd = some c ∧ (t'.track t.val).bAct = (s.track t.val).bAct)
        ∧ (∀ j, j ≠ t.val → t'.track j = s.track j) ∧ { t' with trk := s.trk } = s)
    ∧ (∀ (s : State) (r : Requester) (t : TrackId) (v : Word), s.opens r (cmpReg t true true) = true →
        s.mode ≠ .configure → s.mode ≠ .safe → s.tmode t.val = mdPulse →
        (s.track t.val).aShd = none → (s.track t.val).bShd = none → (s.track t.val).aAct = none → (s.track t.val).bAct = none →
      ∃ (t' : State) (c d : Cmp), exec (.cmpArmWrite r t true v) s = .next (settle t')
        ∧ (t'.track t.val).aAct = some c ∧ (t'.track t.val).bAct = some d ∧ c.act = .lead ∧ d.act = .trail
        ∧ c.time = (s.track t.val).holdAHi.toNat * 2 ^ 32 + (s.track t.val).holdALo.toNat
        ∧ d.time = v.toNat * 2 ^ 32 + (s.track t.val).holdBLo.toNat ∧ c.since = s.raw + 1 ∧ d.since = s.raw + 1
        ∧ (∀ j, j ≠ t.val → t'.track j = s.track j) ∧ { t' with trk := s.trk } = s)
    ∧ (∀ (s : State) (r : Requester) (t : TrackId) (v : Word), s.opens r (cmpReg t false true) = true →
        s.mode ≠ .configure → s.mode ≠ .safe → s.tmode t.val = mdTrain → (s.track t.val).aShd = none →
        (s.track t.val).aAct = none → (s.track t.val).train = none →
      ∃ (t' : State) (c : Cmp), exec (.cmpArmWrite r t false v) s = .next (settle t')
        ∧ (t'.track t.val).aAct = some c ∧ c.time = v.toNat * 2 ^ 32 + (s.track t.val).holdALo.toNat ∧ c.act = .train
        ∧ c.arg = s.f TRK.WIDTH.V (trkAt t.val) ∧ c.since = s.raw + 1
        ∧ (∀ j, j ≠ t.val → t'.track j = s.track j) ∧ { t' with trk := s.trk } = s)
    ∧ (∀ (s : State) (r : Requester) (t : TrackId) (v : Word), s.opens r (cmpReg t false true) = true →
        s.mode ≠ .configure → s.mode ≠ .safe → s.tmode t.val = mdEdge → (s.track t.val).aShd ≠ none →
      exec (.cmpArmWrite r t false v) s = .next (settle ((s.loadRej t.val).discard (cmpReg t false true) r .busy)))
    ∧ (∀ (s : State) (r : Requester) (t : TrackId) (b : Bool) (v : Word),
        exec (.cmpHoldWrite r t b true v) s = exec (.cmpArmWrite r t b v) s)
    ∧ (∀ (s : State) (r : Requester) (t : TrackId) (y : Stamp) (ys : List Stamp), s.reaches r = true →
        s.foreign r (trkReg TRK.OWN.HOLDER t) = false → (s.track t.val).fifo = y :: ys →
      ∃ t' : State, exec (.trkPop0Read r t) s = .next (settle t') ∧ (t'.track t.val).fifo = ys
        ∧ SMap.get (fun _ => 0) (t'.track t.val).pops r.id = y.encode t.val (y.ctx.getD 0)
        ∧ t'.hst.replies = { req := r, addr := trkReg TRK.POP.V t, data := word (y.encode t.val (y.ctx.getD 0)), poison := false }
            :: s.hst.replies
        ∧ (∀ j, j ≠ t.val → t'.track j = s.track j)
        ∧ { t' with trk := s.trk, hst := { t'.hst with replies := s.hst.replies } } = s)
    ∧ ∀ (s : State) (r : Requester) (t : TrackId), s.reaches r = true →
        s.foreign r (trkReg TRK.OWN.HOLDER t) = false → (s.track t.val).fifo = [] →
      ∃ t' : State, exec (.trkPop0Read r t) s = .next (settle t')
        ∧ t'.hst.replies = { req := r, addr := trkReg TRK.POP.V t, data := 0, poison := false } :: s.hst.replies
        ∧ SMap.get (fun _ => 0) (t'.track t.val).pops r.id = 0

/-- R61 to R66, R76, R77: each way in which a track acts at an instant, where nothing of the track comes before it: an
OUT_EDGE compare, the halves of a pulse, a train's start and its edges, the stop comparator, an edge reproduced, a mark. The
level, the instant of the edge, the clock, what is done with and what is not touched.
The model's choices in it: log entries 2 and 14. -/
def Obligations.TrackActs : Prop :=
  (∀ (s : State) (t : TrackId) (b : Bool) (c : Cmp),
        (if b then (s.track t.val).bAct else (s.track t.val).aAct) = some c → (if b then (s.track t.val).aAct else (s.track t.val).bAct) = none →
        c.act = .set ∨ c.act = .clear ∨ c.act = .toggle → (s.track t.val).stop = none →
      ∃ t' : State, exec (.compareMatch t b) s = .next (settle t') ∧ (t'.track t.val).lvl = edgeLevel c.act (s.track t.val).lvl
        ∧ (edgeLevel c.act (s.track t.val).lvl ≠ (s.track t.val).lvl → (t'.track t.val).edgeAt = some (s.fireOf (s.track t.val) c).1)
        ∧ t'.raw = max s.raw ((s.fireOf (s.track t.val) c).1 / 64) ∧ (∀ j, j ≠ t.val → t'.track j = s.track j)
        ∧ (∀ i, c.src ≠ .slot i → t'.slot i = s.slot i)
        ∧ { t' with raw := s.raw, seenNow := s.seenNow, regs := s.regs, trk := s.trk, lines := s.lines, adc := s.adc, slots := s.slots } = s)
    ∧ (∀ (s : State) (t : TrackId) (c : Cmp), (s.track t.val).aAct = some c → c.act = .lead → (s.track t.val).stop = none →
      ∃ t' : State, exec (.compareMatch t false) s = .next (settle t') ∧ (t'.track t.val).lvl = true
        ∧ (t'.track t.val).edgeAt = some (s.fireOf (s.track t.val) c).1 ∧ (t'.track t.val).aAct = none
        ∧ (t'.track t.val).bAct = (s.track t.val).bAct
        ∧ t'.raw = max s.raw ((s.fireOf (s.track t.val) c).1 / 64) ∧ (∀ j, j ≠ t.val → t'.track j = s.track j)
        ∧ { t' with raw := s.raw, seenNow := s.seenNow, regs := s.regs, trk := s.trk, lines := s.lines, adc := s.adc, slots := s.slots } = s)
    ∧ (∀ (s : State) (t : TrackId) (c : Cmp), (s.track t.val).bAct = some c → c.act = .trail → (s.track t.val).aAct = none →
      ∃ t' : State, exec (.compareMatch t true) s = .next (settle t') ∧ (t'.track t.val).lvl = false
        ∧ (t'.track t.val).edgeAt = some (s.fireOf (s.track t.val) c).1 ∧ t'.on TRK.IRQ_RAW.DONE (trkAt t.val) = true
        ∧ (∀ j, j ≠ t.val → t'.track j = s.track j)
        ∧ { t' with raw := s.raw, seenNow := s.seenNow, regs := s.regs, trk := s.trk, lines := s.lines, adc := s.adc } = s)
    ∧ (∀ (s : State) (t : TrackId) (c : Cmp), (s.track t.val).aAct = some c → c.act = .train → (s.track t.val).stop = none →
        (s.track t.val).train = none →
      ∃ (t' : State) (r : Train), exec (.compareMatch t false) s = .next (settle t') ∧ (t'.track t.val).lvl = true
        ∧ (t'.track t.val).train = some r ∧ r.per = s.f TRK.TPER.V (trkAt t.val)
        ∧ r.next = (s.fireOf (s.track t.val) c).1 + r.per ∧ r.width = (trainShape c.arg r.per).1
        ∧ r.trail = some ((s.fireOf (s.track t.val) c).1 + r.width)
        ∧ r.left = (if s.f TRK.TCNT.V (trkAt t.val) = 0 then none else some (s.f TRK.TCNT.V (trkAt t.val) - 1))
        ∧ (t'.track t.val).aAct = none ∧ (∀ j, j ≠ t.val → t'.track j = s.track j)
        ∧ { t' with raw := s.raw, seenNow := s.seenNow, regs := s.regs, trk := s.trk, lines := s.lines, adc := s.adc, slots := s.slots } = s)
    ∧ (∀ (s : State) (t : TrackId) (r : Train) (e : Nat), (s.track t.val).train = some r → r.trail = some e →
      ∃ t' : State, exec (.trainPulse t) s = .next (settle t') ∧ (t'.track t.val).lvl = false ∧ (t'.track t.val).edgeAt = some e
        ∧ (t'.track t.val).train = (if r.left = some 0 then none else some { r with trail := none })
        ∧ (r.left = some 0 → t'.on TRK.IRQ_RAW.DONE (trkAt t.val) = true) ∧ (∀ j, j ≠ t.val → t'.track j = s.track j)
        ∧ { t' with raw := s.raw, seenNow := s.seenNow, regs := s.regs, trk := s.trk, lines := s.lines, adc := s.adc } = s)
    ∧ (∀ (s : State) (t : TrackId) (r : Train), (s.track t.val).train = some r → r.trail = none → (s.track t.val).stop = none →
      ∃ t' : State, exec (.trainPulse t) s = .next (settle t') ∧ (t'.track t.val).lvl = true
        ∧ (t'.track t.val).edgeAt = some r.next
        ∧ (t'.track t.val).train = some { r with next := r.next + r.per, trail := some (r.next + r.width), left := r.left.map (· - 1) }
        ∧ (∀ j, j ≠ t.val → t'.track j = s.track j)
        ∧ { t' with raw := s.raw, seenNow := s.seenNow, regs := s.regs, trk := s.trk, lines := s.lines, adc := s.adc } = s)
    ∧ (∀ (s : State) (t : TrackId) (time : Nat) (src : LoadSrc), (s.track t.val).stop = some (time, src) →
        s.trackBefore (s.track t.val) (s.rawOf time) = false → inMode (s.tmode t.val) = false →
      ∃ t' : State, exec (.stopMatch t) s = .next (settle t') ∧ (t'.track t.val).stop = none ∧ (t'.track t.val).aAct = none
        ∧ (t'.track t.val).aShd = none ∧ (t'.track t.val).bShd = none ∧ (t'.track t.val).following = false
        ∧ (t'.track t.val).bAct = (if (s.track t.val).aAct = none ∧ (s.track t.val).bAct.map Cmp.act = some .trail
            then (s.track t.val).bAct else none)
        ∧ (t'.track t.val).train = (s.track t.val).train.bind Train.cut
        ∧ (t'.track t.val).lvl = (s.track t.val).lvl ∧ t'.raw = max s.raw (s.rawOf time / 64)
        ∧ (∀ j, j ≠ t.val → t'.track j = s.track j)
        ∧ { t' with raw := s.raw, regs := s.regs, trk := s.trk, slots := s.slots } = s)
    ∧ (∀ (s : State) (t : TrackId) (time : Nat) (src : LoadSrc), (s.track t.val).stop = some (time, src) →
        s.trackBefore (s.track t.val) (s.rawOf time) = false → inMode (s.tmode t.val) = true → s.tmode t.val ≠ mdGate →
      ∃ t' : State, exec (.stopMatch t) s = .next (settle t')
        ∧ t'.track t.val = { s.track t.val with stop := none, armed := false, left := none }
        ∧ (∀ j, j ≠ t.val → t'.track j = s.track j)
        ∧ { t' with raw := s.raw, trk := s.trk, slots := s.slots } = s)
    ∧ (∀ (s : State) (t : TrackId) (e : Follow), (s.track t.val).firstOwed = some e → (s.track t.val).stop = none →
        e.lvl ≠ (s.track t.val).lvl → s.mode.sources = true →
      ∃ t' : State, exec (.linkedEdge t) s = .next (settle t') ∧ (t'.track t.val).lvl = e.lvl
        ∧ (t'.track t.val).owed = (s.track t.val).owed.erase e
        ∧ (t'.track t.val).edgeAt = some (match (s.track t.val).edgeAt with | none => e.time | some k => max e.time (k + 128))
        ∧ (t'.track t.val).formed.length = (s.track t.val).formed.length + (if s.on TRK.MODE.REC (trkAt t.val) then 1 else 0)
        ∧ (∀ j, j ≠ t.val → t'.track j = s.track j)
        ∧ { t' with raw := s.raw, seenNow := s.seenNow, regs := s.regs, trk := s.trk, lines := s.lines, adc := s.adc } = s)
    ∧ ∀ (s : State) (t : TrackId) (c : Cmp), (s.track t.val).firstMark = some c → (s.track t.val).stop = none →
      ∃ (t' : State) (y : Stamp), exec (.stampMark t) s = .next (settle t') ∧ (t'.track t.val).marks = (s.track t.val).marks.erase c
        ∧ (t'.track t.val).formed = (s.track t.val).formed ++ [y] ∧ y.time = c.time ∧ y.ctx = some c.arg ∧ y.rising = false
        ∧ y.interp = true ∧ y.late = c.late ∧ y.seq = (s.track t.val).seq
        ∧ (t'.track t.val).seq = ((s.track t.val).seq + 1) % 65536 ∧ (t'.track t.val).lvl = (s.track t.val).lvl
        ∧ (∀ j, j ≠ t.val → t'.track j = s.track j) ∧ (∀ i, c.src ≠ .slot i → t'.slot i = s.slot i)
        ∧ { t' with raw := s.raw, trk := s.trk, slots := s.slots } = s

/-- R69, R70, R72, R73, R75: arming, a captured edge, a stamp's entry into its FIFO and its loss from a full one, the record
writer, a gate's opening, counting and closing.
The model's choices in it: log entries 2, 14 and 37. -/
def Obligations.TrackCaptures : Prop :=
  (∀ (s : State) (t : TrackId) (u : Nat) (c : Cmp), s.inputNext (s.track t.val) = some (u, 1) → (s.track t.val).aAct = some c →
      ∃ t' : State, exec (.captureArm t) s = .next (settle t') ∧ (t'.track t.val).armed = true
        ∧ (t'.track t.val).left = (if c.arg = 0 then none else some c.arg) ∧ (t'.track t.val).armLate = c.late
        ∧ t'.raw = max s.raw ((s.fireTime c none).1 / 64) ∧ (∀ j, j ≠ t.val → t'.track j = s.track j)
        ∧ (∀ i, c.src ≠ .slot i → t'.slot i = s.slot i)
        ∧ { t' with raw := s.raw, seenNow := s.seenNow, regs := s.regs, trk := s.trk, slots := s.slots } = s)
    ∧ (∀ (s : State) (t : TrackId) (u : Nat) (c : Cmp), s.inputNext (s.track t.val) = some (u, 2) → (s.track t.val).aAct = some c →
      ∃ (t' : State) (g : Gate), exec (.gateOpen t) s = .next (settle t') ∧ (t'.track t.val).gate = some g ∧ g.count = 0
        ∧ g.close = some (max (s.fireTime c none).1 (s.rawOf c.time + c.arg)) ∧ g.late = c.late ∧ (∀ j, j ≠ t.val → t'.track j = s.track j)
        ∧ { t' with raw := s.raw, seenNow := s.seenNow, regs := s.regs, trk := s.trk, slots := s.slots } = s)
    ∧ (∀ (s : State) (t : TrackId) (e : Nat) (g : Gate), s.inputNext (s.track t.val) = some (e, 3) → (s.track t.val).gate = some g →
        g.close = some e →
      ∃ (t' : State) (y : Stamp), exec (.gateClose t) s = .next (settle t') ∧ (t'.track t.val).gate = none
        ∧ t'.f TRK.MEAS.V (trkAt t.val) = g.count % 2 ^ 32 ∧ t'.on TRK.IRQ_RAW.DONE (trkAt t.val) = true
        ∧ (t'.track t.val).formed = (s.track t.val).formed ++ [y] ∧ y.ctx = some g.count ∧ y.seq = (s.track t.val).seq
        ∧ y.late = g.late ∧ (∀ j, j ≠ t.val → t'.track j = s.track j)
        ∧ { t' with raw := s.raw, seenNow := s.seenNow, regs := s.regs, trk := s.trk } = s)
    ∧ (∀ (s : State) (t : TrackId) (cyc : Nat) (code : Fin 128) (rising : Bool), s.mode.alive = true →
        s.on TRK.INSEL.EN (trkAt t.val) = true → s.tmode t.val = mdCapture → (s.track t.val).armed = true →
        s.inputNext (s.track t.val) = none → (s.f TRK.MODE.EDGE (trkAt t.val) = 3) →
        (if rising then (s.track t.val).riseCyc else (s.track t.val).fallCyc) ≠ some cyc →
      ∃ (t' : State) (y : Stamp), exec (.captureEdge t cyc code rising) s = .next (settle t')
        ∧ (t'.track t.val).formed = (s.track t.val).formed ++ [y] ∧ y.rising = rising ∧ y.seq = (s.track t.val).seq
        ∧ y.enter = cyc + 12 ∧ y.late = (s.track t.val).armLate ∧ (t'.track t.val).seq = ((s.track t.val).seq + 1) % 65536
        ∧ ((s.track t.val).left = none → (t'.track t.val).armed = true)
        ∧ ((s.track t.val).left = some 1 → (t'.track t.val).armed = false ∧ t'.on TRK.IRQ_RAW.DONE (trkAt t.val) = true)
        ∧ t'.raw = max s.raw cyc ∧ (∀ j, j ≠ t.val → t'.track j = s.track j)
        ∧ { t' with raw := s.raw, seenNow := s.seenNow, regs := s.regs, trk := s.trk, tbu := s.tbu, lines := s.lines } = s)
    ∧ (∀ (s : State) (t : TrackId) (cyc : Nat) (code : Fin 128) (rising : Bool) (g : Gate), s.mode.alive = true →
        s.on TRK.INSEL.EN (trkAt t.val) = true → s.tmode t.val = mdGate → (s.track t.val).gate = some g →
        s.inputNext (s.track t.val) = none → (s.f TRK.MODE.EDGE (trkAt t.val) = 3) →
        (if rising then (s.track t.val).riseCyc else (s.track t.val).fallCyc) ≠ some cyc →
      ∃ t' : State, exec (.captureEdge t cyc code rising) s = .next (settle t')
        ∧ (t'.track t.val).gate = some { g with count := min 0xFFFFFFFF (g.count + 1) }
        ∧ (t'.track t.val).formed = (s.track t.val).formed ∧ (∀ j, j ≠ t.val → t'.track j = s.track j)
        ∧ { t' with raw := s.raw, trk := s.trk, tbu := s.tbu, lines := s.lines } = s)
    ∧ (∀ (s : State) (t : TrackId) (y : Stamp) (ys : List Stamp), (s.track t.val).formed = y :: ys → (s.track t.val).fifo.length < 8 →
      ∃ (t' : State) (c : Nat), exec (.stampFifoEntry t) s = .next (settle t') ∧ (t'.track t.val).formed = ys
        ∧ (t'.track t.val).fifo = (s.track t.val).fifo ++ [{ y with ovf := (s.track t.val).ovf, ctx := some c }]
        ∧ (∀ n, y.ctx = some n → c = n) ∧ (t'.track t.val).ovf = false ∧ t'.raw = max s.raw y.enter
        ∧ (∃ q, t'.signals = s.signals ++ [q] ∧ q.kind = 1 ∧ q.idx = t.val ∧ q.s0 = y.time)
        ∧ (∀ j, j ≠ t.val → t'.track j = s.track j)
        ∧ { t' with raw := s.raw, seenNow := s.seenNow, regs := s.regs, trk := s.trk, signals := s.signals } = s)
    ∧ (∀ (s : State) (t : TrackId) (y : Stamp) (ys : List Stamp), (s.track t.val).formed = y :: ys → 8 ≤ (s.track t.val).fifo.length →
      ∃ t' : State, exec (.stampFifoEntry t) s = .next (settle t') ∧ (t'.track t.val).formed = ys
        ∧ (t'.track t.val).fifo = (s.track t.val).fifo ∧ (t'.track t.val).ovf = true
        ∧ t'.f TRK.CNT_EVT.LO (trkAt t.val) = counted s TRK.CNT_EVT.LO 1 (trkAt t.val)
        ∧ t'.on TRK.IRQ_RAW.OVERFLOW (trkAt t.val) = true ∧ (∀ j, j ≠ t.val → t'.track j = s.track j)
        ∧ { t' with raw := s.raw, seenNow := s.seenNow, regs := s.regs, trk := s.trk } = s)
    ∧ ∀ s u v : State, u = { s with raw := s.raw + 1 } → v = u.writeOn 0 4 →
      u.Wrote v 0 ∧ (v.drainNext = none ∨ v.writerFree 0 = false → exec .recordWriterDrain s = .next (settle v))
      ∧ ∀ (t : Nat) (y : Stamp) (ys : List Stamp), v.drainNext = some t → (v.track t).fifo = y :: ys → v.writerFree 0 = true →
        ∃ t' : State, exec .recordWriterDrain s = .next (settle t') ∧ t'.track t = { v.track t with fifo := ys }
          ∧ t'.hst.stampOut = some { bits := y.encode t (y.ctx.getD 0), done := 0, since := v.raw }
          ∧ t'.hst.trkLast = t ∧ (∀ j, j ≠ t → t'.track j = v.track j)
          ∧ { t' with trk := v.trk, hst := { t'.hst with stampOut := v.hst.stampOut, trkLast := v.hst.trkLast } } = v

/-- R78, R80, R82, R83, R88, R316: a claim of a free track gives it to its claimant, one of a held track is refused and
recorded; a release frees it; the installer's release; an abort of a track or of the matrix; a bank's supply; a line's
configuration waits for the next boundary.
The model's choices in it: log entries 9, 15 and 26. -/
def Obligations.ClaimsAndLines : Prop :=
  (∀ (s : State) (r : Requester) (t : TrackId), s.opens r (trkReg TRK.OWN.HOLDER t) = true → s.holderAt (trkReg TRK.OWN.HOLDER t) = 0 →
      ∃ t' : State, exec (.trkClaim r t) s = .next (settle t') ∧ t'.holderAt (trkReg TRK.OWN.HOLDER t) = r.id % 256
        ∧ RegsBut s t' [trkReg TRK.OWN.HOLDER t] ∧ { t' with regs := s.regs } = s)
    ∧ (∀ (s : State) (r : Requester) (t : TrackId), s.opens r (trkReg TRK.OWN.HOLDER t) = true →
        s.holderAt (trkReg TRK.OWN.HOLDER t) ≠ 0 → s.holderAt (trkReg TRK.OWN.HOLDER t) ≠ r.id →
      ∃ t' : State, exec (.trkClaim r t) s = .next (settle t') ∧ exec (.trkRelease r t) s = .next (settle t')
        ∧ t'.holderAt (trkReg TRK.OWN.HOLDER t) = s.holderAt (trkReg TRK.OWN.HOLDER t) ∧ t'.on JNC.IRQ_RAW.CONFLICT = true
        ∧ t'.f JNC.CONFCAP0.HOLDER = s.holderAt (trkReg TRK.OWN.HOLDER t) ∧ t'.f JNC.CONFCAP0.CLAIMANT = r.id % 256
        ∧ t'.f JNC.CONFCAP0.KIND = kindTrack ∧ t'.f JNC.CONFCAP0.INDEX = t.val ∧ { t' with seenNow := s.seenNow, regs := s.regs } = s)
    ∧ (∀ (s : State) (r : Requester) (t : TrackId), s.opens r (trkReg TRK.OWN.HOLDER t) = true →
        s.holderAt (trkReg TRK.OWN.HOLDER t) = r.id →
      ∃ t' : State, exec (.trkRelease r t) s = .next (settle t') ∧ t'.holderAt (trkReg TRK.OWN.HOLDER t) = 0
        ∧ exec (.trkClaim r t) s = .next (settle s)
        ∧ RegsBut s t' [trkReg TRK.OWN.HOLDER t] ∧ { t' with regs := s.regs } = s)
    ∧ (∀ (s : State) (r : Requester) (v : Word), s.opens r JNC.RELEASE.KIND.off = true → s.hasRole r .installer = true →
        s.sealed JNC.page.base = false → bitsAt v.toNat 28 4 = kindTrack → bitsAt v.toNat 18 10 < 256 →
      ∃ t' : State, exec (.jncRelease r v) s = .next (settle t')
        ∧ t'.holderAt (TRK.OWN.HOLDER.off + trkAt (bitsAt v.toNat 18 10)) = 0
        ∧ t'.trk = s.trk ∧ t'.slots = s.slots ∧ t'.lines = s.lines)
    ∧ (∀ (s : State) (t : TrackId), s.aborting (TRK.page.base + trkAt t.val) = true →
      ∃ t' : State, exec (.trkAbort t) s = .next (settle t') ∧ t'.tmode t.val = mdOff ∧ t'.holderAt (trkReg TRK.OWN.HOLDER t) = 0
        ∧ (t'.track t.val).aAct = none ∧ (t'.track t.val).aShd = none ∧ (t'.track t.val).bAct = none ∧ (t'.track t.val).bShd = none
        ∧ (t'.track t.val).stop = none ∧ (t'.track t.val).marks = [] ∧ (t'.track t.val).train = none ∧ (t'.track t.val).armed = false
        ∧ (t'.track t.val).gate = none ∧ (t'.track t.val).lvl = false ∧ (t'.track t.val).fifo = (s.track t.val).fifo
        ∧ (∀ j, j ≠ t.val → t'.track j = s.track j)
        ∧ { t' with regs := s.regs, trk := s.trk, slots := s.slots, lines := s.lines } = s)
    ∧ (∀ s : State, s.aborting JNC.page.base = true →
      ∃ t' : State, exec .jncAbort s = .next (settle t') ∧ (∀ i : Fin 256, t'.holderAt (TRK.OWN.HOLDER.off + trkAt i.val) = 0)
        ∧ t'.slots = s.slots ∧ t'.mem = s.mem ∧ t'.raw = s.raw)
    ∧ (∀ (s : State) (b : BankId) (v : Supply), s.mode.powered = true →
      ∃ t' : State, exec (.bankSupplyChange b v) s = .next (settle t') ∧ t'.supply b.val = v
        ∧ (∀ j, j ≠ b.val → t'.supply j = s.supply j)
        ∧ (t'.bankOk b.val = false → t'.on JNC.IRQ_RAW.BANK_FAULT = true ∧ t'.pwr.faults = s.pwr.faults ++ [4])
        ∧ (t'.bankOk b.val = true → { t' with banks := s.banks } = s))
    ∧ ∀ (s : State) (r : Requester) (n : LineId) (v : Word), s.opens r (lnReg n.val false) = true → s.hasRole r .installer = true →
        s.sealed JNC.page.base = false → s.oddOfPair n.val = false → rangeBad JNC.LN_CFG.fields v.toNat = false →
        srcOk (bitsAt v.toNat 16 10) = true → s.f JNC.LN_CFG.SRC (lnAt n.val) = 0 →
      ∃ t' : State, exec (.lnCfgWrite r n false v) s = .next (settle t')
        ∧ t'.f JNC.LN_CFG.SRC (lnAt n.val) = bitsAt v.toNat 16 10 ∧ t'.f JNC.LN_CFG.PULL (lnAt n.val) = bitsAt v.toNat 10 2
        ∧ (t'.line n.val).cfg = (s.line n.val).cfg
        ∧ (bitsAt v.toNat 16 10 ≠ 0 → (t'.line n.val).claimant = r.id) ∧ (∀ j, j ≠ n.val → t'.line j = s.line j)
        ∧ t'.trk = s.trk ∧ t'.slots = s.slots

/-! ### The dispatcher (files 01 and 04) -/

/-- R97, R100, R108, R354: an insertion is launched, or discarded with BUSY while the requester's previous one is pending or
the mirror queue is full; it is served and seated in the first free slot, placed by its departure, or refused by the checks of
R97 with INS_REJ; a cancellation frees a QUEUED entry at once, withdraws an ACTIVE one, reports of what it could not cancel, and
with CHAIN frees the parked entries reachable through LINK.
The model's choices in it: log entry 16. -/
def Obligations.InsertionsAndCancellations : Prop :=
  (∀ (s : State) (r : Requester) (v : Word), s.opens r ins3 = true → s.dsp.port.any (fun p => p.req = r) = false → s.mqFull = false →
      ∃ (t : State) (p : PortReq), exec (.insertionLaunch r v) s = .next (settle t) ∧ t.dsp = { s.dsp with port := s.dsp.port ++ [p] }
        ∧ p.req = r ∧ p.lvl = none ∧ p.bits = (s.preg r.id ins0).toNat + (s.preg r.id (ins0 + 4)).toNat * 2 ^ 32
            + (s.preg r.id (ins0 + 8)).toNat * 2 ^ 64 + v.toNat * 2 ^ 96
        ∧ p.park = decide (bitsAt (s.preg r.id DSP.INSCTL.PARK.off).toNat 0 1 = 1)
        ∧ { t with dsp := s.dsp, preqs := s.preqs } = s)
    ∧ (∀ (s : State) (r : Requester) (v : Word), s.opens r ins3 = true → s.dsp.port.any (fun p => p.req = r) = true →
      exec (.insertionLaunch r v) s = .next (settle (s.discard ins3 r .busy)))
    ∧ (∀ (s : State) (r : Requester) (v : Word), s.opens r ins3 = true → s.dsp.port.any (fun p => p.req = r) = false → s.mqFull = true →
      exec (.insertionLaunch r v) s = .next (settle ((s.discard ins3 r .busy).set1 TWN.IRQ_RAW.MQ_FULL)))
    ∧ (∀ (s : State) (p : PortReq) (i : Nat), s.mode.alive = true → pickPort s.dsp.portLast s.dsp.port = some p →
        s.insertCode p.bits p.park = 0 → s.freeHead = some i →
      ∃ t : State, exec .insertionServe s = .next (settle t) ∧ (t.slot i).st = .queued ∧ (t.slot i).bits = p.bits
        ∧ (p.park = true → (t.slot i).place = .parked) ∧ (p.park = false → eAngle p.bits = true → (t.slot i).place = .wheel)
        ∧ (p.park = false → eAngle p.bits = false → (t.slot i).start = startOf p.bits
          ∧ (t.slot i).place = (if t.dep + 4096 ≤ t.depOf (startOf p.bits) then .far
              else if t.dep + 2 ≤ t.depOf (startOf p.bits) then .rota else .imm))
        ∧ (∀ j, j ≠ i → t.slot j = s.slot j) ∧ t.dsp.port = s.dsp.port.erase p ∧ t.raw = s.raw + 2
        ∧ (p.lvl = none → t.preg p.req.id DSP.INSRES.DONE.off = insWord 0 i))
    ∧ (∀ (s : State) (p : PortReq), s.mode.alive = true → pickPort s.dsp.portLast s.dsp.port = some p →
        s.insertCode p.bits p.park ≠ 0 →
      ∃ t : State, exec .insertionServe s = .next (settle t) ∧ t.slots = s.slots ∧ t.on DSP.IRQ_RAW.INS_REJ = true
        ∧ t.dsp.port = s.dsp.port.erase p ∧ t.raw = s.raw + 2
        ∧ (p.lvl = none → t.preg p.req.id DSP.INSRES.DONE.off = insWord (s.insertCode p.bits p.park) 0))
    ∧ (∀ (s : State) (r : Requester) (v : Word) (i : Nat), s.opens r DSP.CANCEL.INDEX.off = true →
        s.dsp.cancels.any (fun q => q.req = r) = false → s.mqFull = false → i = bitsAt v.toNat 0 14 →
      ((s.slot i).st = .queued → (s.slot i).place ≠ .reserved →
        ∃ t : State, exec (.cancelWrite r v) s = .next (settle t) ∧ (t.slot i).st = .free ∧ (t.slot i).out = outCancelled
          ∧ (∀ j, j ≠ i → (bitsAt v.toNat 31 1 = 1 → j ∉ s.chainOf i) → t.slot j = s.slot j)
          ∧ (bitsAt v.toNat 31 1 = 0 → t.dsp.freed = s.dsp.freed ++ [i])
          ∧ t.preg r.id DSP.CANRES.DONE.off = canWord 0 i)
      ∧ ((s.slot i).st = .active →
        ∃ t : State, exec (.cancelWrite r v) s = .next (settle t)
          ∧ (∀ j, (bitsAt v.toNat 31 1 = 1 → j ∉ s.chainOf i) → t.slot j = s.slot j)
          ∧ t.dsp.cancels = s.dsp.cancels
              ++ [{ req := r, slot := i, chain := decide (bitsAt v.toNat 31 1 = 1), time := s.raw
                    told := decide (bitsAt v.toNat 31 1 = 1 ∧ s.chainOf i ≠ []) }]
          ∧ t.preg r.id DSP.CANRES.DONE.off = word (0x30000000 + i))
      ∧ ((s.slot i).st = .retiring ∨ (s.slot i).st = .free →
        ∃ t : State, exec (.cancelWrite r v) s = .next (settle t)
          ∧ (∀ j, (bitsAt v.toNat 31 1 = 1 → j ∉ s.chainOf i) → t.slot j = s.slot j)
          ∧ t.preg r.id DSP.CANRES.DONE.off = canWord (if (s.slot i).st = .retiring then 2 else 3) i)
      ∧ (bitsAt v.toNat 31 1 = 1 →
        ∃ t : State, exec (.cancelWrite r v) s = .next (settle t)
          ∧ (∀ j, j ∈ s.chainOf i → (t.slot j).st = .free ∧ (t.slot j).out = outCancelled)))
    ∧ (∀ (s : State) (r : Requester) (v : Word), s.opens r DSP.CANCEL.INDEX.off = true →
        s.dsp.cancels.any (fun q => q.req = r) = true →
      exec (.cancelWrite r v) s = .next (settle (s.discard DSP.CANCEL.INDEX.off r .busy)))
    ∧ ∀ (s : State) (q : CancelReq) (qs : List CancelReq), s.dsp.cancels = q :: qs →
      ((s.slot q.slot).st = .active → (s.slot q.slot).acted = none →
        ∃ t : State, exec .cancelResolve s = .next (settle t) ∧ (t.slot q.slot).st = .free ∧ (t.slot q.slot).out = outCancelled
          ∧ t.raw = max s.raw (q.time + 2) ∧ t.dsp.cancels = qs
          ∧ (trackAction (eAction (s.slot q.slot).bits) = true →
              Cmp.of (t.track (eTarget (s.slot q.slot).bits)).aAct q.slot = false
              ∧ Cmp.of (t.track (eTarget (s.slot q.slot).bits)).bAct q.slot = false)
          ∧ (q.lvl = none → t.preg q.req.id DSP.CANRES.DONE.off = canWord 1 q.slot))
      ∧ ((s.slot q.slot).st ≠ .active ∨ (s.slot q.slot).acted ≠ none →
        ∃ t : State, exec .cancelResolve s = .next (settle t) ∧ t.slots = s.slots ∧ t.dsp.cancels = qs ∧ t.trk = s.trk
          ∧ t.raw = max s.raw (q.time + 2)
          ∧ (q.lvl = none → t.preg q.req.id DSP.CANRES.DONE.off = canWord 2 q.slot))

/-- R98, R100, R102, R104, R107: a move loads the entry into its target and makes it ACTIVE, counts one that is late and fires,
skips or calls a late one as its LATE says, leaves a NOP QUEUED until its DUE; what a target has done becomes the outcome of a
RETIRING entry; the successor is unparked, cut or reported.
The model's choices in it: log entries 2, 16 and 39. -/
def Obligations.EntriesMoveAndRetire : Prop :=
  (∀ s t0 : State, t0 = s.advance s.moveCycle → s.moving = true → s.dsp.flushing = false → s.dsp.hk = false →
        t0.dep = s.dsp.bdep → ∀ i : Nat, t0.nextMove = some i → (∀ j : Fin 4, s.ecc stTt (4 * i + j.val) = 0) →
        ∀ start : Nat, start = (if eAngle (s.slot i).bits then (s.slot i).start else startOf (s.slot i).bits) →
      (eAction (s.slot i).bits ≠ acNop → t0.isLate start = false ∨ eLate (s.slot i).bits = 0 ∨ eLate (s.slot i).bits = 2 →
        ∃ t : State, exec .dispatchMove s = .next (settle t) ∧ (t.slot i).st = .active ∧ (t.slot i).place = .nowhere
          ∧ (t.slot i).bits = (s.slot i).bits ∧ (t.slot i).start = start ∧ t.dsp.lastMove = s.moveCycle
          ∧ t.f DSP.LATECNT.FIRED_LATE = (if t0.isLate start then counted s DSP.LATECNT.FIRED_LATE else s.f DSP.LATECNT.FIRED_LATE)
          ∧ (t0.isLate start = true → (t.slot i).late = true)
          ∧ (t0.isLate start = true → eLate (s.slot i).bits = 2 → t.on DSP.IRQ_RAW.LATE = true))
      ∧ (eAction (s.slot i).bits = acPulse → eAngle (s.slot i).bits = false → t0.isLate start = false →
        s.tmode (eTarget (s.slot i).bits) = mdPulse →
        (s.track (eTarget (s.slot i).bits)).aShd = none → (s.track (eTarget (s.slot i).bits)).bShd = none →
        (s.track (eTarget (s.slot i).bits)).aAct = none → (s.track (eTarget (s.slot i).bits)).bAct = none →
        s.holderAt (TRK.OWN.HOLDER.off + trkAt (eTarget (s.slot i).bits)) = 0 →
        s.aborting (TRK.page.base + trkAt (eTarget (s.slot i).bits)) = false →
        ∃ (t : State) (c d : Cmp), exec .dispatchMove s = .next (settle t) ∧ (t.slot i).st = .active
          ∧ (t.slot i).acted = (s.slot i).acted
          ∧ (t.track (eTarget (s.slot i).bits)).aAct = some c ∧ (t.track (eTarget (s.slot i).bits)).bAct = some d
          ∧ c.time = startOf (s.slot i).bits ∧ d.time = (startOf (s.slot i).bits + eArg (s.slot i).bits) % 2 ^ 64
          ∧ c.src = .slot i ∧ d.src = .slot i ∧ c.since = t.raw + 1 ∧ t.raw = s.moveCycle
          ∧ (∀ j, j ≠ i → t.slot j = s.slot j) ∧ (∀ j, j ≠ eTarget (s.slot i).bits → t.track j = s.track j))
      ∧ (trackAction (eAction (s.slot i).bits) = true → t0.isLate start = false →
        s.aborting (TRK.page.base + trkAt (eTarget (s.slot i).bits)) = true →
        ∃ t : State, exec .dispatchMove s = .next (settle t) ∧ (t.slot i).acted = some outRefused ∧ t.trk = s.trk
          ∧ t.f DSP.EVTCNT.REFUSED = counted s DSP.EVTCNT.REFUSED ∧ t.on DSP.IRQ_RAW.REFUSED = true
          ∧ t.f DSP.LASTEVT.INDEX = i % 2 ^ 14 ∧ t.f DSP.LASTEVT.OUTCOME = outRefused)
      ∧ (t0.isLate start = true → eLate (s.slot i).bits = 1 →
        ∃ t : State, exec .dispatchMove s = .next (settle t) ∧ (t.slot i).st = .retiring ∧ (t.slot i).out = outSkipped
          ∧ t.f DSP.LATECNT.SKIPPED = counted s DSP.LATECNT.SKIPPED ∧ t.trk = s.trk ∧ (∀ j, j ≠ i → t.slot j = s.slot j))
      ∧ (t0.isLate start = true → eLate (s.slot i).bits = 3 →
        ∃ t : State, exec .dispatchMove s = .next (settle t) ∧ (t.slot i).st = .retiring ∧ t.trk = s.trk
          ∧ ((t.slot i).out = outLateCalled ∧ (t.slot i).held = true ∧ t.f DSP.EVTCNT.LATE_CALLS = counted s DSP.EVTCNT.LATE_CALLS
            ∨ (t.slot i).out = outSkipped ∧ t.f DSP.LATECNT.SKIPPED = counted s DSP.LATECNT.SKIPPED))
      ∧ (eAction (s.slot i).bits = acNop → t0.isLate start = false →
        ∃ t : State, exec .dispatchMove s = .next (settle t)
          ∧ t.slot i = { s.slot i with place := .nowhere, start := start }
          ∧ (∀ j, j ≠ i → t.slot j = s.slot j)
          ∧ { t with raw := s.raw, regs := s.regs, slots := s.slots, dsp := s.dsp,
                     mem := { t.mem with bankAt := s.mem.bankAt } } = s)
      ∧ (eAction (s.slot i).bits = acNop → t0.isLate start = true → eLate (s.slot i).bits = 0 ∨ eLate (s.slot i).bits = 2 →
        ∃ t : State, exec .dispatchMove s = .next (settle t) ∧ (t.slot i).st = (s.slot i).st ∧ (t.slot i).place = .nowhere
          ∧ t.f DSP.LATECNT.FIRED_LATE = counted s DSP.LATECNT.FIRED_LATE ∧ t.trk = s.trk))
    ∧ (∀ (s : State) (i : SlotId), (s.slot i.val).st = .queued → (s.slot i.val).place = .nowhere → eAction (s.slot i.val).bits = acNop →
        s.mode.moves = true →
      ∃ t : State, exec (.nopDue i) s = .next (settle t) ∧ (t.slot i.val).st = .retiring ∧ (t.slot i.val).out = outActed
        ∧ (t.slot i.val).chain = eLinked (s.slot i.val).bits ∧ (t.slot i.val).bits = (s.slot i.val).bits
        ∧ t.raw = (s.advanceVt (s.slot i.val).start).raw
        ∧ (∀ j, j ≠ i.val → t.slot j = s.slot j) ∧ { t with raw := s.raw, slots := s.slots, twn := s.twn } = s)
    ∧ (∀ (s : State) (i : SlotId) (out : Nat), (s.slot i.val).st = .active → (s.slot i.val).acted = some out →
      ∃ t : State, exec (.entryRetire i) s = .next (settle t) ∧ (t.slot i.val).st = .retiring ∧ (t.slot i.val).out = out
        ∧ (t.slot i.val).acted = none ∧ (t.slot i.val).chain = eLinked (s.slot i.val).bits
        ∧ (∀ j, j ≠ i.val → t.slot j = s.slot j) ∧ t.raw = s.raw ∧ t.trk = s.trk)
    ∧ (∀ (s : State) (i : SlotId) (l : Nat), (s.slot i.val).st = .retiring → (s.slot i.val).chain = true → eLink (s.slot i.val).bits = l →
      ((s.slot l).st = .queued → (s.slot l).place = .parked →
        chains (s.slot i.val).out = true ∨ s.on DSP.CTL.CHAINBRK = false →
        ∃ t : State, exec (.chainUnpark i) s = .next (settle t) ∧ t.slot i.val = { s.slot i.val with chain := false }
          ∧ (t.slot l).st = .queued ∧ (t.slot l).place ≠ .parked ∧ (t.slot l).bits = (s.slot l).bits
          ∧ (eAngle (s.slot l).bits = true → (t.slot l).place = .wheel)
          ∧ (∀ j, j ≠ i.val → j ≠ l → t.slot j = s.slot j) ∧ { t with slots := s.slots, dsp := s.dsp } = s)
      ∧ ((s.slot l).st = .queued → (s.slot l).place = .parked → chains (s.slot i.val).out = false → s.on DSP.CTL.CHAINBRK = true →
        ∃ t : State, exec (.chainUnpark i) s = .next (settle t) ∧ (t.slot l).st = .free ∧ (t.slot l).out = outChainCut
          ∧ (eLinked (s.slot l).bits = true → (s.slot (eLink (s.slot l).bits)).st = .queued →
              (s.slot (eLink (s.slot l).bits)).place = .parked →
              (t.slot (eLink (s.slot l).bits)).st = .free ∧ (t.slot (eLink (s.slot l).bits)).out = outChainCut))
      ∧ ((s.slot l).st ≠ .queued ∨ (s.slot l).place ≠ .parked →
        ∃ t : State, exec (.chainUnpark i) s = .next (settle t) ∧ t.on DSP.IRQ_RAW.LINK_ERR = true
          ∧ t.slot i.val = { s.slot i.val with chain := false } ∧ (∀ j, j ≠ i.val → t.slot j = s.slot j)))

/-- R13, R112, R113: re-placement ends with every time-domain entry in a place; RUN clear stops the moves and touches no
entry, RUN set resumes them with what is due on the catch-up list; an abort clears RUN; a flush needs RUN clear and frees every
QUEUED entry.
The model's choices in it: log entries 12, 16, 26 and 39. -/
def Obligations.DispatcherControl : Prop :=
  (∀ s : State, s.dsp.replacing = true →
      ∃ t : State, exec .replaceComplete s = .next (settle t) ∧ t.dsp.replacing = false ∧ t.dsp.period = s.dsp.period
        ∧ (∀ i, (t.slot i).st = (s.slot i).st ∧ (t.slot i).bits = (s.slot i).bits ∧ (t.slot i).out = (s.slot i).out)
        ∧ (∀ i, (s.slot i).st = .queued → eAngle (s.slot i).bits = false → (t.slot i).place ≠ .unplaced)
        ∧ { t with dsp := s.dsp, slots := s.slots } = s)
    ∧ (∀ (s : State) (r : Requester) (v : Word), s.opens r DSP.CTL.RUN.off = true →
      (v.getLsbD 0 = false →
        ∃ t : State, exec (.dspRunSet r v) s = .next (settle t) ∧ t.on DSP.CTL.RUN = false ∧ t.on DSP.CTL.CHAINBRK = v.getLsbD 1
          ∧ RegsBut s t [DSP.CTL.RUN.off] ∧ { t with regs := s.regs } = s)
      ∧ (v.getLsbD 0 = true → s.on DSP.CTL.RUN = true ∨ s.mode.moves = false ∨ s.dsp.replacing = true →
        ∃ t : State, exec (.dspRunSet r v) s = .next (settle t) ∧ t.on DSP.CTL.RUN = true ∧ t.on DSP.CTL.CHAINBRK = v.getLsbD 1
          ∧ RegsBut s t [DSP.CTL.RUN.off] ∧ { t with regs := s.regs } = s)
      ∧ (v.getLsbD 0 = true → s.on DSP.CTL.RUN = false → s.mode.moves = true → s.dsp.replacing = false →
        ∃ t : State, exec (.dspRunSet r v) s = .next (settle t) ∧ t.on DSP.CTL.RUN = true ∧ t.dsp.bdep = s.dep
          ∧ (s.dsp.bdep ≠ s.dep → t.dsp.hk = true ∧ t.dsp.lastMove = max s.raw s.moveFloor)
          ∧ (∀ i, (t.slot i).st = (s.slot i).st ∧ (t.slot i).bits = (s.slot i).bits)
          ∧ (∀ i, (s.slot i).st = .queued → (s.slot i).place = .rota ∨ (s.slot i).place = .imm →
              (t.slot i).place = (if s.depOf (s.slot i).start ≤ s.dep + 1 then .catchup else (s.slot i).place))
          ∧ { t with regs := s.regs, dsp := s.dsp, slots := s.slots } = s))
    ∧ (∀ s : State, s.aborting DSP.page.base = true →
      ∃ t : State, exec .dspAbort s = .next (settle t) ∧ t.on DSP.CTL.RUN = false ∧ { t with regs := s.regs } = s)
    ∧ (∀ (s : State) (r : Requester), s.opens r DSP.CMD.FLUSH.off = true →
      (s.on DSP.CTL.RUN = false →
        exec (.dspFlush r) s = .next (settle { s with dsp := { s.dsp with flushing := true } }))
      ∧ (s.on DSP.CTL.RUN = true → exec (.dspFlush r) s = .next (settle (s.discard DSP.CMD.FLUSH.off r .mode))))
    ∧ ∀ s : State, s.dsp.flushing = true →
      ∃ t : State, exec .flushComplete s = .next (settle t) ∧ t.dsp.flushing = false
        ∧ (∀ i, (s.slot i).st = .queued → (s.slot i).place ≠ .reserved → (t.slot i).st = .free ∧ (t.slot i).out = outCancelled)
        ∧ (∀ i, (s.slot i).st ≠ .queued → t.slot i = s.slot i)
        ∧ t.trk = s.trk ∧ t.raw = s.raw

/-- R15, R18, R20 to R23, R56, R88, R99, R101, R103, R310, R351, R355, R360: every boundary ends a departure, in every mode in
which boundaries come. With nothing left unmoved and no late engine RUN_LEN is 0; otherwise the overrun is counted and flagged
with its causes, and under POLICY, or once RUN_LEN reaches an ESC that is not 0, the device enters Safe-state one cycle later. The
line settings and a built vernier epoch come into force, a heartbeat that is due is launched. A CLOSED consist due swaps in what it
staged, or is MISSED; a STANDBY applies the mirrored one. The withdrawals of a commanded switchover come before. Housekeeping
follows, which forms the deferred list, takes the entry books and frees what is RETIRING.
The model's choices in it: log entries 12, 13, 16 and 44. -/
def Obligations.BoundaryAndHousekeeping : Prop :=
  (∀ s : State, s.mode.alive = false → exec .departureBoundary s = .next (settle s))
    ∧ (∀ (s u : State) (d : Nat), s.mode.alive = true → d = s.nextBoundary → u = (s.yieldNow d).advanceVt (s.boundary d) →
        u.dueConsists d = [] → (u.mode = .standby → u.dueMirrored d = []) →
      ∀ move me judged late esc : Bool, move = decide (u.unmoved (d - 1 + 2) ≠ []) →
      me = engines.any (fun e => ((u.engine e).unfinished u.dsp.bdep (d - 1)).isSome) →
      judged = (u.mode.judged && !u.dsp.replacing) → late = (judged && (move || me)) →
      esc = (late && u.mode.escalates && (u.on DSP.OVRCTL.POLICY
        || (u.f DSP.OVRCTL.ESC ≠ 0 && u.f DSP.OVRCTL.ESC ≤ counted u DSP.OVRSTS.RUN_LEN))) →
      ∃ t : State, exec .departureBoundary s = .next (settle t)
        ∧ t.dsp.bdep = d ∧ t.dsp.hk = true ∧ t.dsp.lastMove = u.raw + 15 ∧ t.raw = (if esc then u.raw + 1 else u.raw)
        ∧ t.f DSP.OVRCNT.OVERRUNS = (if late then counted u DSP.OVRCNT.OVERRUNS else u.f DSP.OVRCNT.OVERRUNS)
        ∧ t.f DSP.OVRSTS.RUN_LEN = (if late then counted u DSP.OVRSTS.RUN_LEN else if judged then 0 else u.f DSP.OVRSTS.RUN_LEN)
        ∧ (late = true → t.on DSP.OVRSTS.CAUSE_MOVE = move ∧ t.on DSP.OVRSTS.CAUSE_ME = me
          ∧ t.on DSP.IRQ_RAW.TICK_OVERRUN = true)
        ∧ (esc = true → t.mode = .safe ∧ t.f PWR.SAFECAUSE.CAUSE = 1 ∧ t.on DSP.IRQ_RAW.OVR_ESC = true)
        ∧ (esc = false → t.mode = u.mode ∧ t.slots = u.slots ∧ t.trk = u.trk ∧ t.cons = u.cons
          ∧ t.dsp.overMove = (if late && move then u.leftOver (d - 1) else [])
          ∧ ((∀ w, s.twn.yieldAt = some w → d * s.dsp.period < w) → t.slots = s.slots)
          ∧ (∀ n, n < 128 → ∀ a, a = JNC.LN_CFG.SRC.off + lnAt n → ∀ b, b = JNC.LN_TRIM.TRIM.off + lnAt n →
            t.line n = { u.line n with
              cfg := u.reg a, trim := u.reg b, due := if bitsAt (u.reg a).toNat 16 10 = (u.line n).src then (u.line n).due else [] })
          ∧ (u.tbu.built = true → u.on TBU.CAL.CAL_EN = true →
            t.f TBU.STS.EPOCH = (u.f TBU.STS.EPOCH + 1) % 16 ∧ t.on TBU.IRQ_RAW.EPOCH = true ∧ t.tbu.built = false
            ∧ t.f TBU.EPOCHLOG.DEP (4 * ((u.f TBU.STS.EPOCH + 1) % 16)) = u.dep % 2 ^ 32
            ∧ ((u.tbu.newTaps.map (fun e => e.1)).Nodup → ∀ e ∈ u.tbu.newTaps, (t.vernier e.1).tap = e.2)
            ∧ (∀ v, v ∉ u.tbu.newTaps.map (fun e => e.1) → t.vernier v = u.vernier v))
          ∧ (u.tbu.built = false ∨ u.on TBU.CAL.CAL_EN = false →
            t.f TBU.STS.EPOCH = u.f TBU.STS.EPOCH ∧ t.tbu.verniers = u.tbu.verniers ∧ t.tbu.outTabs = u.tbu.outTabs
            ∧ t.tbu.built = false)
          ∧ (u.twn.owesCopy = false → ∀ due : Bool, due = (u.linked && decide (u.twn.st ≠ .solo) && (match u.twn.txAt with
              | none => true
              | some l => decide (400 * 64 ≤ vtDiff u.vt l))) →
            (due = false → t.twn = u.twn)
            ∧ (due = true → t.twn.out = .heartbeat (u.hbNow (u.twn.txSeq + 1) u.twn.enq) :: u.twn.out
              ∧ t.twn.txSeq = u.twn.txSeq + 1 ∧ t.twn.txAt = some u.vt ∧ t.twn.queue = u.twn.queue ∧ t.twn.st = u.twn.st))))
    ∧ (∀ (s u : State) (d w : Nat), s.mode.running = true → d = s.nextBoundary → s.twn.yieldAt = some w → s.twn.st = .primary →
        w ≤ d * s.dsp.period → u = (s.yieldNow d).advanceVt (s.boundary d) → u.dueConsists d = [] →
      ∃ t : State, exec .departureBoundary s = .next (settle t) ∧ t.on DSP.CTL.RUN = false
        ∧ ∀ i, (s.slot i).st = .active → (s.slot i).acted = none → (t.slot i).st = .free)
    ∧ (∀ (s u : State) (d : Nat), s.mode.alive = true → d = s.nextBoundary → u = (s.yieldNow d).advanceVt (s.boundary d) →
      (u.mode.commits = false → (u.mode = .standby → u.dueMirrored d = []) →
        ∃ t : State, exec .departureBoundary s = .next (settle t)
          ∧ (∀ k ∈ u.dueConsists d, (t.consist k).st = .free ∧ (t.consist k).last = coMissed ∧ t.on CNS.IRQ_RAW.FAILED = true)
          ∧ ∀ k, k ∉ u.dueConsists d → t.consist k = u.consist k)
      ∧ (∀ k ks x, u.dueConsists d = k :: ks → ks = [] → x = u.consist k → u.mode.commits = true →
        ((x.passed = true ∧ x.mode ≠ u.mode.code) ∨ u.twn.inTime k (d * s.dsp.period) = false →
          ∃ t : State, exec .departureBoundary s = .next (settle t) ∧ (t.consist k).st = .free ∧ (t.consist k).last = coMissed)
        ∧ (∀ (p : Staged) (n : RulerId), x.passed = true → x.mode = u.mode.code → u.twn.inTime k (d * s.dsp.period) = true →
            x.places = [p] → p.addr = rulReg RUL.BCNT.V n.val → rangeBad RUL.BCNT.fields p.val.toNat = false →
          ∃ t : State, exec .departureBoundary s = .next (settle t) ∧ (t.consist k).st = .free ∧ (t.consist k).last = coCommitted
            ∧ t.on CNS.IRQ_RAW.COMMITTED = true ∧ t.ruF n.val RUL.BCNT.V = bitsAt p.val.toNat 0 RUL.BCNT.V.wid
            ∧ ∀ m, m ≠ n.val → m < 32 → t.ruF m RUL.BCNT.V = u.ruF m RUL.BCNT.V)
        ∧ (∀ p : Staged, x.passed = false → u.twn.inTime k (d * s.dsp.period) = true → x.places = [p] → p.parity = false →
          ∃ t : State, exec .departureBoundary s = .next (settle t) ∧ (t.consist k).st = .free ∧ (t.consist k).last = coParity))
      ∧ (∀ m ms, u.mode = .standby → u.dueConsists d = [] → u.dueMirrored d = m :: ms → ms = [] →
        ∀ inTime : Bool, inTime = (match m.acked with | some a => decide (a + 401 ≤ d * s.dsp.period) | none => false) →
        (m.complete = false ∨ inTime = false →
          ∃ t : State, exec .departureBoundary s = .next (settle t)
            ∧ t.twn.cons = u.twn.cons.map (fun c => if c = m then { c with verdict := some false } else c))
        ∧ (∀ (n : RulerId) (v : Word), m.complete = true → inTime = true → m.vals = [(rulReg RUL.BCNT.V n.val, v)] →
            u.aborting (RUL.page.base + pgAt n.val) = false → u.holderAt (rulReg RUL.OWN.HOLDER n.val) = 0 → rangeBad RUL.BCNT.fields v.toNat = false →
          ∃ t : State, exec .departureBoundary s = .next (settle t) ∧ t.ruF n.val RUL.BCNT.V = bitsAt v.toNat 0 RUL.BCNT.V.wid
            ∧ t.twn.cons = u.twn.cons.map (fun c => if c = m then { c with verdict := some true } else c))))
    ∧ (∀ s : State, s.stepIsDue = true ∨ s.dsp.hk = false → exec .housekeeping s = .next (settle s))
    ∧ ∀ s : State, s.stepIsDue = false → s.dsp.hk = true →
      ∃ t : State, exec .housekeeping s = .next (settle t) ∧ t.dsp.hk = false ∧ t.raw = max s.raw s.dsp.lastMove
        ∧ t.dsp.overMove = []
        ∧ (s.dsp.overMove = [] → t.dsp.books = s.countBooks ∧ t.dsp.booksDep = s.dsp.bdep)
        ∧ (∀ i, (i, (s.slot i).ord) ∈ s.dsp.overMove → (s.slot i).st = .queued →
            (t.slot i).place = .deferred ∧ (t.slot i).defer = true)
        ∧ (∀ i, (s.slot i).st = .retiring → (s.slot i).held = false → (t.slot i).st = .free ∧ (t.slot i).out = (s.slot i).out)
        ∧ (∀ i, (s.slot i).st = .active → (t.slot i).st = .active ∧ (t.slot i).bits = (s.slot i).bits) ∧ t.trk = s.trk
/-! ### Turntables (file 05) -/

/-- R115, R116, R119, R129: an edge of the tooth, index or gap line is stamped through its own vernier, whose histogram counts it,
and so is the edge of the direction line that a tooth's level comes from; an index or gap-line edge becomes the mark that the next
tooth is judged by where SYNCSRC names its line and a single interval is predicted, and is ignored where none is; reads of ANGLE and TSTAMP_LO copy the words that belong to them.
The model's choices in it: log entries 17 and 37. -/
def Obligations.TurntableInputsAndReads : Prop :=
  (∀ (s : State) (n : TurnId) (cyc : Nat) (code : Fin 128) (dir : Bool) (turned : Option (Nat × Fin 128)),
        s.ttActive n.val = true → ∀ u, u = s.edgeU (vernTooth n.val) cyc code.val →
      ∃ t : State, exec (.toothEdge n cyc code dir turned) s = .next (settle t)
        ∧ t.turn n.val = { s.turn n.val with edges := (s.turn n.val).edges ++ [(u,
            if s.ttOn n.val TTN.INSEL.DIR_EN then (s.dirAt n.val u dir turned).2 else dir)] }
        ∧ (s.ttOn n.val TTN.INSEL.DIR_EN = true → ∀ c k, turned = some (c, k) →
          SMap.get (fun _ => 0) (t.vernier (vernDir n.val)).hist k.val
            = SMap.get (fun _ => 0) (s.vernier (vernDir n.val)).hist k.val + 1)
        ∧ (s.ttOn n.val TTN.INSEL.DIR_EN = false → t.vernier (vernDir n.val) = s.vernier (vernDir n.val))
        ∧ SMap.get (fun _ => 0) (t.vernier (vernTooth n.val)).hist code.val
            = SMap.get (fun _ => 0) (s.vernier (vernTooth n.val)).hist code.val + 1
        ∧ t.raw = max s.raw cyc ∧ (∀ j, j ≠ n.val → t.turn j = s.turn j)
        ∧ (s.ttOn n.val TTN.INSEL.DIR_EN = false → t.lines = s.lines)
        ∧ { t with raw := s.raw, ttn := s.ttn, tbu := s.tbu, lines := s.lines } = s)
    ∧ (∀ (s : State) (n : TurnId) (cyc : Nat) (code : Fin 128) (dir : Bool) (turned : Option (Nat × Fin 128)),
        s.ttActive n.val = false → exec (.toothEdge n cyc code dir turned) s = .next (settle s) ∧ exec (.indexEdge n cyc code) s = .next (settle s)
        ∧ exec (.gapLineEdge n cyc code) s = .next (settle s))
    ∧ (∀ (s : State) (n : TurnId) (cyc : Nat) (code : Fin 128), s.ttActive n.val = true → s.ttOn n.val TTN.INSEL.IDX_EN = true →
      ∃ (t : State) (ks : List Nat), exec (.indexEdge n cyc code) s = .next (settle t)
        ∧ (s.ttF n.val TTN.INCFG.SYNCSRC = 0 → s.ttSingleNow n.val ≠ none →
          (t.turn n.val).marks = ks ++ [s.edgeU (vernIndex n.val) cyc code.val] ∧ ∀ m ∈ ks, m ∈ (s.turn n.val).marks)
        ∧ (s.ttF n.val TTN.INCFG.SYNCSRC = 0 → s.ttSingleNow n.val = none → t.ttn = s.ttn)
        ∧ (s.ttF n.val TTN.INCFG.SYNCSRC ≠ 0 → t.ttn = s.ttn)
        ∧ SMap.get (fun _ => 0) (t.vernier (vernIndex n.val)).hist code.val
            = SMap.get (fun _ => 0) (s.vernier (vernIndex n.val)).hist code.val + 1
        ∧ t.raw = max (max s.raw cyc) (s.edgeU (vernIndex n.val) cyc code.val / 64)
        ∧ (t.turn n.val).edges = (s.turn n.val).edges ∧ (∀ j, j ≠ n.val → t.turn j = s.turn j)
        ∧ { t with raw := s.raw, ttn := s.ttn, trk := s.trk, regs := s.regs, tbu := s.tbu } = s)
    ∧ (∀ (s : State) (n : TurnId) (cyc : Nat) (code : Fin 128), s.ttActive n.val = true → s.ttOn n.val TTN.INSEL.GAP_EN = true →
      ∃ (t : State) (ks : List Nat), exec (.gapLineEdge n cyc code) s = .next (settle t)
        ∧ (s.ttF n.val TTN.INCFG.SYNCSRC = 2 → s.ttSingleNow n.val ≠ none →
          (t.turn n.val).marks = ks ++ [s.edgeU (vernGap n.val) cyc code.val] ∧ ∀ m ∈ ks, m ∈ (s.turn n.val).marks)
        ∧ (s.ttF n.val TTN.INCFG.SYNCSRC = 2 → s.ttSingleNow n.val = none → t.ttn = s.ttn)
        ∧ (s.ttF n.val TTN.INCFG.SYNCSRC ≠ 2 → t.ttn = s.ttn)
        ∧ SMap.get (fun _ => 0) (t.vernier (vernGap n.val)).hist code.val
            = SMap.get (fun _ => 0) (s.vernier (vernGap n.val)).hist code.val + 1
        ∧ (∀ j, j ≠ n.val → t.turn j = s.turn j) ∧ { t with raw := s.raw, ttn := s.ttn, tbu := s.tbu } = s)
    ∧ (∀ (s : State) (r : Requester) (n : TurnId), s.reaches r = true →
      ∃ t : State, exec (.ttnAngleRead r n) s = .next (settle t)
        ∧ t.hst.replies = { req := r, addr := TTN.ANGLE.V.off + pgAt n.val, data := word (s.ttAngle n.val (s.raw * 64)), poison := false }
            :: s.hst.replies
        ∧ CopiesBut s t r [TTN.REV.V.off + pgAt n.val, TTN.TOOTH.INDEX.off + pgAt n.val]
        ∧ t.preg r.id (TTN.REV.V.off + pgAt n.val) = word (s.turn n.val).rev
        ∧ t.preg r.id (TTN.TOOTH.INDEX.off + pgAt n.val)
            = word ((s.turn n.val).tooth + (if s.ttOn n.val TTN.STS.DIR then 2 ^ 12 else 0))
        ∧ { t with preqs := s.preqs, hst := { t.hst with replies := s.hst.replies } } = s)
    ∧ ∀ (s : State) (r : Requester) (n : TurnId), s.reaches r = true →
        ∀ k : Nat, k = (match (s.turn n.val).last with | some u => s.vtAt u | none => 0) →
      ∃ t : State, exec (.ttnTstampLoRead r n) s = .next (settle t)
        ∧ t.hst.replies = { req := r, addr := TTN.TSTAMP_LO.V.off + pgAt n.val, data := word k, poison := false } :: s.hst.replies
        ∧ CopiesBut s t r [TTN.TSTAMP_HI.V.off + pgAt n.val]
        ∧ t.preg r.id (TTN.TSTAMP_HI.V.off + pgAt n.val) = word (k / 2 ^ 32)
        ∧ { t with preqs := s.preqs, hst := { t.hst with replies := s.hst.replies } } = s

/-- R116, R119, R121, R126, R127, R137, R138: a stamped edge is processed at b+12, ignored with a count when it comes too soon,
accepted otherwise; the fit follows at b+20; a mark that no tooth follows is a sync error; a stall holds the
angle and ends the prediction.
The model's choices in it: log entries 2 and 17. -/
def Obligations.TeethAndStalls : Prop :=
  (∀ (s : State) (n : TurnId) (u : Nat) (lvl : Bool) (rest : List (Nat × Bool)), (s.turn n.val).edges = (u, lvl) :: rest →
        s.ttOn n.val TTN.CTL.EN = true →
      ((∃ l, (s.turn n.val).last = some l ∧ u < l + s.ttF n.val TTN.NOISE.MINP * 64) →
        ∃ t : State, exec (.toothProcess n) s = .next (settle t) ∧ t.turn n.val = { s.turn n.val with edges := rest }
          ∧ t.f TTN.CNT_EVT.LO (pgAt n.val) = counted s TTN.CNT_EVT.LO 1 (pgAt n.val) ∧ t.raw = max s.raw (u / 64 + 12)
          ∧ { t with raw := s.raw, ttn := s.ttn, regs := s.regs } = s)
      ∧ ((∀ l, (s.turn n.val).last = some l → l + s.ttF n.val TTN.NOISE.MINP * 64 ≤ u) →
        ∃ (t : State) (xs : List Signal) (q : Signal), exec (.toothProcess n) s = .next (settle t) ∧ (t.turn n.val).last = some u
          ∧ (t.turn n.val).edges = rest ∧ (t.turn n.val).fitDue = true ∧ (t.turn n.val).deadline = none
          ∧ (t.turn n.val).frozen = none ∧ t.raw = max s.raw (u / 64 + 12)
          ∧ t.signals = xs ++ [q] ∧ q.kind = 2 ∧ q.idx = n.val ∧ (∀ j, j ≠ n.val → t.turn j = s.turn j)
          ∧ (ttKnown (s.ttState n.val) = true → s.ttOn n.val TTN.INSEL.DIR_EN = false → (s.turn n.val).fresh = false →
              (∀ d, (s.turn n.val).deadline = some d → u / 64 ≤ d / 64) →
            (t.turn n.val).tooth = (s.ttNext n.val (s.turn n.val).tooth false).1
              ∧ (t.turn n.val).rev = nextRev (s.turn n.val).rev (s.turn n.val).tooth (t.turn n.val).tooth false)))
    ∧ (∀ (s : State) (n : TurnId), (s.turn n.val).fitDue = true →
      ∃ t : State, exec (.toothFit n) s = .next (settle t) ∧ (t.turn n.val).fitDue = false
        ∧ (t.turn n.val).act = (s.turn n.val).now.time / 64 + 24 ∧ t.raw = max s.raw ((s.turn n.val).now.time / 64 + 20)
        ∧ t.ttOn n.val TTN.STS.PRED_OK = (t.turn n.val).now.ok ∧ ((s.turn n.val).hist = [] → (t.turn n.val).now.ok = false)
        ∧ (t.turn n.val).last = (s.turn n.val).last ∧ (t.turn n.val).tooth = (s.turn n.val).tooth
        ∧ (∀ j, j ≠ n.val → t.turn j = s.turn j) ∧ { t with raw := s.raw, ttn := s.ttn, regs := s.regs } = s)
    ∧ (∀ (s : State) (n : TurnId) (u : Nat) (p : Nat × Nat), (s.turn n.val).marks = [u] →
        s.ttSingle n.val (s.ttState n.val)
          (if ttKnown (s.ttState n.val) then (s.ttNext n.val (s.turn n.val).tooth (s.turn n.val).now.rvs).2 else 0) = some p →
        (s.turn n.val).edges.any (fun e => u ≤ e.1 && e.1 ≤ u + p.1 / (2 * p.2)) = false →
      ∃ t : State, exec (.markWindowExpiry n) s = .next (settle t) ∧ (t.turn n.val).marks = []
        ∧ t.f TTN.CNT_EVT.HI (pgAt n.val) = counted s TTN.CNT_EVT.HI 1 (pgAt n.val) ∧ t.on TTN.IRQ_RAW.SYNC_ERR (pgAt n.val) = true
        ∧ (s.ttState n.val = ttSynced → t.ttState n.val = ttLost ∧ t.on TTN.IRQ_RAW.LOST (pgAt n.val) = true)
        ∧ (s.ttState n.val = ttProvisional → t.ttState n.val = ttHunting)
        ∧ t.raw = max s.raw ((u + p.1 / (2 * p.2)) / 64 + 12))
    ∧ ∀ (s : State) (n : TurnId) (d : Nat), (s.turn n.val).deadline = some d → ttRuns (s.ttState n.val) = true →
        (s.turn n.val).edges.any (fun e => e.1 / 64 ≤ d / 64) = false →
      ∃ t : State, exec (.stall n) s = .next (settle t) ∧ t.ttState n.val = ttStalled ∧ t.ttOn n.val TTN.STS.PRED_OK = false
        ∧ t.f TTN.EVTCNT.STALLS (pgAt n.val) = counted s TTN.EVTCNT.STALLS 1 (pgAt n.val)
        ∧ t.on TTN.IRQ_RAW.STALL (pgAt n.val) = true ∧ (t.turn n.val).deadline = none
        ∧ (t.turn n.val).frozen = some (s.ttAngle n.val (max s.raw (d / 64 + 12) * 64))
        ∧ (t.turn n.val).before = s.ttState n.val ∧ t.raw = max s.raw (d / 64 + 12)

/-- R131, R133, R134, R136: the first overtaken entry is treated by its LATE field; the first entry to re-predict takes its new
start; the first entry to announce joins the lanes with its start, unless the prediction set is full.
The model's choices in it: log entry 17. -/
def Obligations.AngleEntries : Prop :=
  (∀ (s : State) (n : TurnId) (i : SlotId) (rest : List Nat), (s.turn n.val).behind = i.val :: rest → (s.slot i.val).moved = true →
        (s.slot i.val).turns n.val = true →
      (eLate (s.slot i.val).bits = 1 →
        ∃ t : State, exec (.overtaken n i) s = .next (settle t) ∧ t.f DSP.LATECNT.SKIPPED = counted s DSP.LATECNT.SKIPPED
          ∧ ((s.slot i.val).st = .active → (t.slot i.val).acted = some outSkipped)
          ∧ ((s.slot i.val).st = .queued → (t.slot i.val).st = .retiring ∧ (t.slot i.val).out = outSkipped)
          ∧ (t.turn n.val).behind = rest ∧ t.raw = max s.raw (s.turn n.val).act)
      ∧ (eLate (s.slot i.val).bits = 3 →
        ∃ t : State, exec (.overtaken n i) s = .next (settle t) ∧ (t.slot i.val).st = .retiring
          ∧ ((t.slot i.val).out = outLateCalled ∧ (t.slot i.val).held = true
                ∧ t.f DSP.EVTCNT.LATE_CALLS = counted s DSP.EVTCNT.LATE_CALLS
              ∨ (t.slot i.val).out = outSkipped ∧ t.f DSP.LATECNT.SKIPPED = counted s DSP.LATECNT.SKIPPED)
          ∧ (t.turn n.val).behind = rest ∧ t.raw = max s.raw (s.turn n.val).act)
      ∧ (eLate (s.slot i.val).bits = 0 ∨ eLate (s.slot i.val).bits = 2 →
        ∃ t : State, exec (.overtaken n i) s = .next (settle t) ∧ (t.slot i.val).late = true ∧ (t.slot i.val).start = t.vt
          ∧ (t.slot i.val).bits = (s.slot i.val).bits ∧ (t.slot i.val).st = (s.slot i.val).st
          ∧ t.f DSP.LATECNT.FIRED_LATE = counted s DSP.LATECNT.FIRED_LATE
          ∧ (eLate (s.slot i.val).bits = 2 → t.on DSP.IRQ_RAW.LATE = true)
          ∧ (t.turn n.val).behind = rest ∧ t.raw = max s.raw (s.turn n.val).act ∧ (∀ j, j ≠ i.val → t.slot j = s.slot j)))
    ∧ (∀ (s : State) (n : TurnId) (i : SlotId) (rest : List Nat), (s.turn n.val).behind = [] →
        (s.turn n.val).repred = i.val :: rest → (s.slot i.val).turns n.val = true →
        (s.slot i.val).announced = true ∨ (s.slot i.val).moved = true →
        ∀ start : Nat, start = (s.ttPredict n.val (s.slot i.val).bits).getD (s.slot i.val).start →
      ∃ t : State, exec (.reprediction n i) s = .next (settle t) ∧ (t.slot i.val).start = start
        ∧ (t.slot i.val).bits = (s.slot i.val).bits ∧ (t.slot i.val).st = (s.slot i.val).st ∧ (t.turn n.val).repred = rest
        ∧ t.raw = max s.raw (s.turn n.val).act ∧ (∀ j, j ≠ i.val → t.slot j = s.slot j) ∧ t.regs = s.regs)
    ∧ ∀ (s : State) (n : TurnId) (i : SlotId) (rest : List Nat), (s.turn n.val).behind = [] → (s.turn n.val).repred = [] →
        (s.turn n.val).ann = i.val :: rest → (s.slot i.val).turns n.val = true → (s.slot i.val).st = .queued →
        (s.slot i.val).place = .wheel →
      (∀ start, (s.predSet n.val).length < 64 → s.ttPredict n.val (s.slot i.val).bits = some start →
        ∃ t : State, exec (.announcement n i) s = .next (settle t) ∧ (t.slot i.val).place = .lane ∧ (t.slot i.val).start = start
          ∧ (t.slot i.val).st = .queued ∧ (t.slot i.val).bits = (s.slot i.val).bits ∧ (t.turn n.val).ann = rest
          ∧ (∀ j, j ≠ i.val → t.slot j = s.slot j)
          ∧ { t with raw := s.raw, ttn := s.ttn, slots := s.slots, dsp := s.dsp } = s)
      ∧ ((s.predSet n.val).length < 64 → s.ttPredict n.val (s.slot i.val).bits = none →
        ∃ t : State, exec (.announcement n i) s = .next (settle t) ∧ t.slots = s.slots ∧ (t.turn n.val).ann = rest
          ∧ t.raw = max s.raw (s.turn n.val).act ∧ t.regs = s.regs)
      ∧ (64 ≤ (s.predSet n.val).length →
        ∃ t : State, exec (.announcement n i) s = .next (settle t) ∧ t.slots = s.slots
          ∧ t.f TTN.PSET.FULLCNT (pgAt n.val) = counted s TTN.PSET.FULLCNT 1 (pgAt n.val)
          ∧ t.on TTN.IRQ_RAW.PSET_FULL (pgAt n.val) = true ∧ i.val ∈ (t.turn n.val).refused)

/-- R117, R121, R124, R141: EN set where the checks pass begins at tooth 0 in HUNTING, or from RESTORE in PROVISIONAL; a geometry
that fails them is discarded with RANGE, a selection beyond a line's fan-out with FANOUT; a clean stop is resumed under QSEN; EN cleared and an abort bring UNSYNC; RESYNC leads from LOST to HUNTING.
The model's choices in it: log entries 9, 17 and 26. -/
def Obligations.TurntableControl : Prop :=
  (∀ (s : State) (r : Requester) (n : TurnId) (v : Word), s.opens r (ttnCtlAt n.val) = true → s.ttOn n.val TTN.CTL.EN = false →
        v.getLsbD 0 = true →
      (s.ttBad n.val = true → exec (.ttnEnable r n v) s = .next (settle (s.discard (ttnCtlAt n.val) r .range)))
      ∧ (s.ttBad n.val = false → s.overFanned (s.storeReg r (ttnCtlAt n.val) v) = none →
          s.selectsOdd (s.storeReg r (ttnCtlAt n.val) v) = none → s.ttOn n.val TTN.RESTORE.VALID = false →
          (v.getLsbD TTN.CTL.QSEN.lo = false ∨ s.ttOn n.val TTN.KS_ANGLE.STOP_CLEAN = false
            ∨ s.ttF n.val TTN.KS_TOOTH.NT ≠ s.ttTeeth n.val) →
        ∃ t : State, exec (.ttnEnable r n v) s = .next (settle t) ∧ t.ttOn n.val TTN.CTL.EN = true ∧ t.ttState n.val = ttHunting
          ∧ t.ttOn n.val TTN.STS.QS = false ∧ t.ttOn n.val TTN.STS.DIR = false ∧ (t.turn n.val).tooth = 0
          ∧ (t.turn n.val).rev = (s.turn n.val).rev ∧ (t.turn n.val).edges = [] ∧ (t.turn n.val).frozen = none
          ∧ (∀ j, j ≠ n.val → t.turn j = s.turn j) ∧ { t with regs := s.regs, ttn := s.ttn } = s)
      ∧ (s.ttBad n.val = false → s.overFanned (s.storeReg r (ttnCtlAt n.val) v) = none →
          s.selectsOdd (s.storeReg r (ttnCtlAt n.val) v) = none → s.ttOn n.val TTN.RESTORE.VALID = true →
        ∃ t : State, exec (.ttnEnable r n v) s = .next (settle t) ∧ t.ttOn n.val TTN.CTL.EN = true ∧ t.ttState n.val = ttProvisional
          ∧ t.ttOn n.val TTN.STS.QS = true ∧ t.ttOn n.val TTN.RESTORE.VALID = false
          ∧ (t.turn n.val).tooth = s.ttF n.val TTN.RESTORE.TOOTH ∧ (t.turn n.val).rev = s.ttF n.val TTN.RESTREV.V
          ∧ (t.turn n.val).frozen = some (thetaOf (s.ttTeeth n.val) (s.ttF n.val TTN.RESTORE.TOOTH))
          ∧ (∀ j, j ≠ n.val → t.turn j = s.turn j) ∧ { t with regs := s.regs, ttn := s.ttn } = s))
    ∧ (∀ (s : State) (r : Requester) (n : TurnId) (v : Word), s.opens r (ttnCtlAt n.val) = true → s.ttOn n.val TTN.CTL.EN = false →
        v.getLsbD 0 = true → s.ttBad n.val = false →
      (∀ l, s.overFanned (s.storeReg r (ttnCtlAt n.val) v) = some l →
        exec (.ttnEnable r n v) s = .next (settle (s.refuseFanout r (s.role r) (ttnCtlAt n.val) l)))
      ∧ (s.overFanned (s.storeReg r (ttnCtlAt n.val) v) = none → s.selectsOdd (s.storeReg r (ttnCtlAt n.val) v) = none →
          s.ttOn n.val TTN.RESTORE.VALID = false → v.getLsbD TTN.CTL.QSEN.lo = true →
          s.ttOn n.val TTN.KS_ANGLE.STOP_CLEAN = true → s.ttF n.val TTN.KS_TOOTH.NT = s.ttTeeth n.val →
        ∃ t : State, exec (.ttnEnable r n v) s = .next (settle t) ∧ t.ttOn n.val TTN.CTL.EN = true ∧ t.ttState n.val = ttProvisional
          ∧ t.ttOn n.val TTN.STS.QS = true ∧ t.ttOn n.val TTN.KS_ANGLE.STOP_CLEAN = false
          ∧ (t.turn n.val).tooth = s.ttF n.val TTN.KS_TOOTH.TOOTH ∧ (t.turn n.val).rev = s.ttF n.val TTN.KS_REV.V
          ∧ (t.turn n.val).frozen = some (s.ttF n.val TTN.KS_ANGLE.ANGLE)
          ∧ t.ttOn n.val TTN.STS.DIR = s.ttOn n.val TTN.KS_ANGLE.DIR
          ∧ (∀ j, j ≠ n.val → t.turn j = s.turn j) ∧ { t with regs := s.regs, ttn := s.ttn } = s))
    ∧ (∀ (s : State) (r : Requester) (n : TurnId) (v : Word), s.opens r (ttnCtlAt n.val) = true → s.ttOn n.val TTN.CTL.EN = true →
        v.getLsbD 0 = false →
      ∃ t : State, exec (.ttnDisable r n v) s = .next (settle t) ∧ t.ttOn n.val TTN.CTL.EN = false ∧ t.ttState n.val = ttUnsync
        ∧ (t.turn n.val).edges = [] ∧ (t.turn n.val).deadline = none ∧ (t.turn n.val).rev = (s.turn n.val).rev
        ∧ t.raw = s.raw)
    ∧ (∀ (s : State) (r : Requester) (n : TurnId), s.opens r (ttnCtlAt n.val) = true →
      ∃ t : State, exec (.ttnResync r n) s = .next (settle t)
        ∧ t.ttState n.val = (if s.ttState n.val = ttLost then ttHunting else s.ttState n.val)
        ∧ t.ttOn n.val TTN.CTL.EN = s.ttOn n.val TTN.CTL.EN ∧ { t with regs := s.regs } = s)
    ∧ ∀ (s : State) (n : TurnId), s.aborting (TTN.page.base + pgAt n.val) = true →
      ∃ t : State, exec (.ttnAbort n) s = .next (settle t) ∧ t.ttOn n.val TTN.CTL.EN = false ∧ t.ttState n.val = ttUnsync
        ∧ (t.turn n.val).edges = [] ∧ t.raw = s.raw

/-! ### The engines (file 06) -/

/-- R147 to R152: the next queued call becomes pending at its start; a signal reaches the vectors that name its source, counted
where the vector is pending; a doorbell is raised, or discarded while it is pending; the invocation that starts first takes
its level with a fresh bank.
The model's choices in it: log entries 2 and 18. -/
def Obligations.InvocationsAndStarts : Prop :=
  (∀ (s : State) (e : EngineId) (c : Call), s.mode.alive = true → s.nextCall (s.engine e.val) = some c →
      ∃ t : State, exec (.callPending e) s = .next (settle t) ∧ t.raw = max s.raw (s.callDue c)
        ∧ (t.engine e.val).calls = (s.engine e.val).calls.map (fun d =>
            if d = c then { d with pend := some (s.callLevel e.val c.prio, t.raw, t.dep) } else d)
        ∧ (∀ j, j ≠ e.val → t.engine j = s.engine j) ∧ { t with raw := s.raw, eng := s.eng } = s)
    ∧ (∀ (s : State) (g : Signal) (gs : List Signal) (e v : Fin 8), s.signals = g :: gs → (s.engine e.val).closed = false →
        s.enOn e.val MEN.CTL.EN = true → s.hears g.kind = true → s.names e.val v.val g = true →
        SMap.get (fun _ => 0) (s.engine e.val).evOn v.val ≤ max s.raw (g.since + 1) →
      ∃ t : State, exec .eventSignal s = .next (settle t) ∧ t.signals = gs ∧ t.raw = max s.raw (g.since + 1)
        ∧ ((s.engine e.val).ev v.val = none → (t.engine e.val).ev v.val = some {
            lvl := s.f MEN.EV.LEVEL (pgAt e.val + 4 * v.val), addr := s.f MEN.EV.ADDR (pgAt e.val + 4 * v.val)
            idx := g.idx, g1 := g.g1, s0 := g.s0, since := t.raw })
        ∧ (∀ p, (s.engine e.val).ev v.val = some p →
            (t.engine e.val).ev v.val = some { p with count := min 15 (p.count + 1) } ∧ t.on MEN.IRQ_RAW.EV_OVR (pgAt e.val) = true)
        ∧ { t with raw := s.raw, signals := s.signals, eng := s.eng, seenNow := s.seenNow, regs := s.regs } = s)
    ∧ (∀ (s : State) (g : Signal) (gs : List Signal), s.signals = g :: gs →
      ∃ t : State, exec .eventSignal s = .next (settle t) ∧ t.signals = gs ∧ t.raw = max s.raw (g.since + 1)
        ∧ (∀ e v : Fin 8, (s.engine e.val).closed = true ∨ s.enOn e.val MEN.CTL.EN = false ∨ s.hears g.kind = false
            ∨ s.names e.val v.val g = false → (t.engine e.val).ev v.val = (s.engine e.val).ev v.val)
        ∧ { t with raw := s.raw, signals := s.signals, eng := s.eng, seenNow := s.seenNow, regs := s.regs } = s)
    ∧ (∀ (s : State) (r : Requester) (e : EngineId) (v : Word), s.opens r (menReg MEN.DB.VEC e.val) = true →
      (s.on MEN.DBV.EN (pgAt e.val + 4 * bitsAt v.toNat 30 2) = false ∨ s.enOn e.val MEN.CTL.EN = false
          ∨ (s.engine e.val).closed = true ∨ s.mode = .standby →
        exec (.doorbell r e v) s = .next (settle (s.discard (menReg MEN.DB.VEC e.val) r .mode))))
    ∧ (∀ (s : State) (r : Requester) (e : EngineId) (v : Word), s.opens r (menReg MEN.DB.VEC e.val) = true →
        s.on MEN.DBV.EN (pgAt e.val + 4 * bitsAt v.toNat 30 2) = true → s.enOn e.val MEN.CTL.EN = true →
        (s.engine e.val).closed = false → s.mode ≠ .standby →
      ((s.engine e.val).db (bitsAt v.toNat 30 2) = none →
        ∃ (t : State) (p : VecPend), exec (.doorbell r e v) s = .next (settle t)
          ∧ (t.engine e.val).db (bitsAt v.toNat 30 2) = some p ∧ p.g1 = v.toNat % 2 ^ 24 ∧ p.s0 = s.vt ∧ p.since = s.raw
          ∧ p.lvl = s.f MEN.DBV.LEVEL (pgAt e.val + 4 * bitsAt v.toNat 30 2)
          ∧ p.addr = s.f MEN.DBV.ADDR (pgAt e.val + 4 * bitsAt v.toNat 30 2)
          ∧ (∀ j, j ≠ e.val → t.engine j = s.engine j) ∧ { t with eng := s.eng } = s)
      ∧ ((s.engine e.val).db (bitsAt v.toNat 30 2) ≠ none →
        exec (.doorbell r e v) s = .next (settle (s.discard (menReg MEN.DB.VEC e.val) r .busy))))
    ∧ ∀ (s : State) (e : EngineId) (i : Inv), s.mode.alive = true → (s.engine e.val).startable = some i →
      ∃ (t : State) (rt : Routine), exec (.routineStart e) s = .next (settle t) ∧ (t.engine e.val).at_ i.lvl = some rt
        ∧ rt.pc = i.addr ∧ rt.cls = i.cls ∧ rt.slot = i.num ∧ rt.dep = i.dep ∧ rt.wait = none ∧ rt.first = true
        ∧ t.raw = max s.raw (max (i.since + 1) (s.engine e.val).next) ∧ (t.engine e.val).st = .running
        ∧ (t.engine e.val).cur = i.lvl ∧ (t.engine e.val).next = t.raw + 1
        ∧ ((t.engine e.val).bank i.lvl).page = i.addr / 512 ∧ ((t.engine e.val).bank i.lvl).stack = []
        ∧ ((t.engine e.val).bank i.lvl).z = false ∧ ((t.engine e.val).bank i.lvl).f0 = false
        ∧ (∀ k, 1 < k → ((t.engine e.val).bank i.lvl).gr k = ((s.engine e.val).bank i.lvl).gr k)
        ∧ (∀ k, 0 < k → ((t.engine e.val).bank i.lvl).sr k = ((s.engine e.val).bank i.lvl).sr k)
        ∧ (∀ k, k ≠ i.lvl → (t.engine e.val).bank k = (s.engine e.val).bank k)
        ∧ (∀ j, j ≠ e.val → t.engine j = s.engine j) ∧ { t with raw := s.raw, eng := s.eng } = s

/-- R159, R160, R163, R168, R171, R172, R174, R189: data and timetable results arrive in the bank that asked for them; a wait
resolves by its condition or by its deadline, a tie as the condition with TIMEOUT_RACE; a section commits its writes in program
order in the cycle after its UNSEAL: to the memories, the timetable, the registers; the scrubber; a faulted engine resumes; an abort leaves an engine empty.
The model's choices in it: log entries 18, 23 and 26. -/
def Obligations.EnginesBetweenWords : Prop :=
  (∀ (s : State) (e : EngineId) (a : Arrival), s.firstArrival e.val = some a →
      ∃ t : State, exec (.readDataArrival e) s = .next (settle t) ∧ t.raw = max s.raw a.time
        ∧ t.mem.arrivals = s.mem.arrivals.erase a ∧ (t.engine e.val).bank a.lvl = ((s.engine e.val).bank a.lvl).put a.dst a.val a.wide
        ∧ (a.dst < 16 → ((t.engine e.val).bank a.lvl).gr a.dst = word a.val)
        ∧ (∀ k, k ≠ a.lvl → (t.engine e.val).bank k = (s.engine e.val).bank k) ∧ (∀ j, j ≠ e.val → t.engine j = s.engine j)
        ∧ { t with raw := s.raw, eng := s.eng, mem := s.mem } = s)
    ∧ (∀ (s : State) (e : EngineId) (w : TtWait) (v : Word) (u : Nat), (s.engine e.val).tt = some w → w.res = some (v, u) →
      ∃ t : State, exec (.ttrResult e) s = .next (settle t) ∧ t.raw = max s.raw u ∧ (t.engine e.val).tt = none
        ∧ (t.engine e.val).bank w.lvl = { (s.engine e.val).bank w.lvl with ttr := v }
        ∧ (∀ k, k ≠ w.lvl → (t.engine e.val).bank k = (s.engine e.val).bank k) ∧ (∀ j, j ≠ e.val → t.engine j = s.engine j)
        ∧ { t with raw := s.raw, eng := s.eng } = s)
    ∧ (∀ (s : State) (e : EngineId) (l : Fin 8) (w : EngWait) (rt : Routine) (c : Nat), s.waitOf e.val l.val = some w →
        (s.engine e.val).at_ l.val = some rt → s.condAt e.val l.val w = some c →
        (∀ d, s.deadlineAt e.val l.val w = some d → c < d) →
      ∃ t : State, exec (.waitCondition e l) s = .next (settle t) ∧ t.raw = max s.raw c
        ∧ (t.engine e.val).at_ l.val = some { rt with wait := none, pc := rt.pc + 1, woke := c }
        ∧ (t.engine e.val).bank l.val = { (s.engine e.val).bank l.val with tmo := false }
        ∧ (∀ j, j ≠ e.val → t.engine j = s.engine j) ∧ { t with raw := s.raw, eng := s.eng } = s)
    ∧ (∀ (s : State) (e : EngineId) (l : Fin 8) (w : EngWait) (rt : Routine) (d : Nat), s.waitOf e.val l.val = some w →
        (s.engine e.val).at_ l.val = some rt → s.deadlineAt e.val l.val w = some d →
        (∀ c, s.condAt e.val l.val w = some c → d < c) →
      ∃ t : State, exec (.waitDeadline e l) s = .next (settle t) ∧ t.raw = max s.raw d
        ∧ (t.engine e.val).at_ l.val = some { rt with wait := none, pc := rt.pc + 1, woke := d }
        ∧ (t.engine e.val).bank l.val = { (s.engine e.val).bank l.val with tmo := true }
        ∧ (∀ j, j ≠ e.val → t.engine j = s.engine j) ∧ { t with raw := s.raw, eng := s.eng } = s)
    ∧ (∀ (s : State) (e : EngineId) (l : Fin 8) (w : EngWait) (rt : Routine) (d : Nat), s.waitOf e.val l.val = some w →
        (s.engine e.val).at_ l.val = some rt → s.deadlineAt e.val l.val w = some d → s.condAt e.val l.val w = some d →
      ∃ t : State, exec (.waitDeadline e l) s = .next (settle t) ∧ exec (.waitCondition e l) s = .next (settle t)
        ∧ t.raw = max s.raw d ∧ (t.engine e.val).at_ l.val = some { rt with wait := none, pc := rt.pc + 1, woke := d }
        ∧ (t.engine e.val).bank l.val = { (s.engine e.val).bank l.val with tmo := false }
        ∧ t.on MEN.IRQ_RAW.TIMEOUT_RACE (pgAt e.val) = true
        ∧ t.f MEN.CNT_EVT.HI (pgAt e.val) = counted s MEN.CNT_EVT.HI 1 (pgAt e.val))
    ∧ (∀ (s : State) (e : EngineId) (c : SealSect) (u : Nat), s.mode.alive = true →
        (s.engine e.val).sect = some c → c.done = some u →
      exec (.sealCommit e) s = .next (settle (c.writes.foldl (fun s w => s.commitWrite e c.lvl w)
        ((s.advance (u + 1)).setEngine e.val { s.engine e.val with sect := none }))))
    ∧ (∀ (s : State) (e : EngineId) (c : SealSect) (u i b : Nat) (park : Bool), s.mode.alive = true →
        (s.engine e.val).sect = some c → c.done = some u → c.writes = [.ins i park b] →
      ∃ t : State, exec (.sealCommit e) s = .next (settle t) ∧ (t.engine e.val).sect = none ∧ t.raw = max s.raw (u + 1)
        ∧ (t.slot i).st = .queued ∧ (t.slot i).bits = b ∧ (park = true → (t.slot i).place = .parked)
        ∧ (park = false → (t.slot i).place = (if eAngle b then .wheel else if t.dep + 4096 ≤ t.depOf (startOf b) then .far
            else if t.dep + 2 ≤ t.depOf (startOf b) then .rota else .imm))
        ∧ (∀ j, j ≠ i → t.slot j = s.slot j) ∧ t.trk = s.trk ∧ t.regs = s.regs)
    ∧ (∀ (s : State) (e : EngineId) (c : SealSect) (u : Nat) (vs : List (Bool × Nat × Word)), s.mode.alive = true →
        (s.engine e.val).sect = some c → c.done = some u →
        c.writes = vs.map (fun p => if p.1 then SealWrite.icb p.2.1 p.2.2 else SealWrite.sid p.2.1 p.2.2) →
      ∃ t : State, exec (.sealCommit e) s = .next (settle t) ∧ (t.engine e.val).sect = none ∧ t.raw = max s.raw (u + 1)
        ∧ t.mem.waits = s.mem.waits ++ (vs.filter (fun p => !p.1)).map (fun p =>
            { sid := p.2.1 / 32768, idx := p.2.1, req := .engine e, kind := .commit p.2.2, since := t.raw })
        ∧ t.mem.portA = s.mem.portA ++ (vs.filter (fun p => p.1)).map (fun p =>
            { sid := 16, idx := p.2.1, req := .engine e, kind := .commit p.2.2, since := t.raw })
        ∧ (∀ l, (t.engine e.val).bank l = (s.engine e.val).bank l ∧ (t.engine e.val).at_ l = (s.engine e.val).at_ l)
        ∧ (∀ j, j ≠ e.val → t.engine j = s.engine j) ∧ { t with raw := s.raw, eng := s.eng, mem := s.mem } = s)
    ∧ (∀ (s : State) (e : EngineId), s.mode.powered = true → s.enOn e.val MEN.CTL.SCRUB = true →
      ∃ t : State, exec (.microstoreScrub e) s = .next (settle t)
        ∧ (t.engine e.val).micAt = ((s.engine e.val).micAt + 1) % 8192
        ∧ (s.micMark (e.val * 8192 + (s.engine e.val).micAt) = 1 → t.micMark (e.val * 8192 + (s.engine e.val).micAt) = 0
            ∧ t.on MEN.IRQ_RAW.ECC_CORR (pgAt e.val) = true)
        ∧ t.stores.micro = s.stores.micro ∧ t.stores.nano = s.stores.nano
        ∧ { t with eng := s.eng, seenNow := s.seenNow, regs := s.regs, stores := s.stores } = s)
    ∧ (∀ (s : State) (r : Requester) (e : EngineId), s.opens r (menReg MEN.CTL.EN e.val) = true → (s.engine e.val).st = .faulted →
        (s.engine e.val).present = [] →
      ∃ t : State, exec (.menResume r e) s = .next (settle t) ∧ t.engine e.val = { s.engine e.val with st := .idle }
        ∧ t.enOn e.val MEN.CTL.EN = s.enOn e.val MEN.CTL.EN ∧ (∀ j, j ≠ e.val → t.engine j = s.engine j)
        ∧ { t with eng := s.eng, regs := s.regs } = s)
    ∧ (∀ (s : State) (r : Requester) (e : EngineId), s.opens r (menReg MEN.CTL.EN e.val) = true → (s.engine e.val).st ≠ .faulted →
      ∃ t : State, exec (.menResume r e) s = .next (settle t) ∧ t.enOn e.val MEN.CTL.EN = s.enOn e.val MEN.CTL.EN
        ∧ { t with regs := s.regs } = s)
    ∧ ∀ (s : State) (e : EngineId), s.aborting (MEN.page.base + pgAt e.val) = true →
      ∃ t : State, exec (.menAbort e) s = .next (settle t) ∧ (t.engine e.val).calls = [] ∧ (t.engine e.val).evs = []
        ∧ (t.engine e.val).dbs = [] ∧ (∀ l : Fin 8, (t.engine e.val).at_ l.val = none)
        ∧ ((s.engine e.val).st ≠ .held → (s.engine e.val).st ≠ .halted → (t.engine e.val).st = .idle)
        ∧ (((s.engine e.val).sect.bind SealSect.done) = none → (t.engine e.val).sect = none)
        ∧ (∀ k : Fin 256, s.holderAt (TRK.OWN.HOLDER.off + trkAt k.val) = 0x10 + e.val →
            t.holderAt (TRK.OWN.HOLDER.off + trkAt k.val) = 0)
        ∧ t.raw = s.raw ∧ t.mem = s.mem

/-! ### The words of the engines (file 07) -/

/-- R153, R154, R156 to R159, R161, R163, R179: where each sequencing operation leads, what it does to the bank, the wait and the
section, for a word that executes: with any access the word runs in its cycle; where it makes none, or one of memory, the routine
goes on in the bank its nanoword leaves, one word a cycle, and nothing changes but the engine, what is on its way to memory, and
the entry whose call this was.
The model's choices in it: log entry 18. -/
def Obligations.WordsSequence : Prop :=
  (∀ (s : State) (e : EngineId) (l pc m w c : Nat), s.executes e.val l pc m w c →
    let ran : Host.Outcome State Fault Refusal := .next (settle ((s.advance c).runWord e l pc m w))
    (mSeq m = sqNext → exec (.wordNext e) s = ran) ∧ (mSeq m = sqJump → exec (.wordJump e) s = ran)
      ∧ (mSeq m = sqJumpC → exec (.wordJumpC e) s = ran) ∧ (mSeq m = sqCall → exec (.wordCall e) s = ran)
      ∧ (mSeq m = sqRet → exec (.wordRet e) s = ran) ∧ (mSeq m = sqEnd → exec (.wordEnd e) s = ran)
      ∧ (mSeq m = sqMwb → exec (.wordMwb e) s = ran) ∧ (mSeq m = sqPage → exec (.wordPage e) s = ran)
      ∧ (mSeq m = sqWait → exec (.wordWait e) s = ran) ∧ (mSeq m = sqSeal → exec (.wordSeal e) s = ran)
      ∧ (mSeq m = sqUnseal → exec (.wordUnseal e) s = ran))
  ∧ ∀ (s : State) (e : EngineId) (l pc m w c : Nat), s.executes e.val l pc m w c →
      nAcc w = 0 ∨ nAcc w = 1 ∨ nAcc w = 3
        ∨ ((nAcc w = 2 ∨ nAcc w = 4) ∧ (s.engine e.val).openSect = none ∧ mSeq m ≠ sqSeal) →
      ∀ rt : Routine, (s.engine e.val).at_ l = some rt →
    let good (t : State) (r : Option Routine) (b : Bank) : Prop :=
      t.raw = c ∧ (t.engine e.val).at_ l = r ∧ (t.engine e.val).bank l = b ∧ (t.engine e.val).cur = l ∧ (t.engine e.val).next = c + 1
        ∧ (∀ k, k ≠ l → (t.engine e.val).bank k = (s.engine e.val).bank k) ∧ (∀ j, j ≠ e.val → t.engine j = s.engine j)
        ∧ (∀ i, i ≠ rt.slot → t.slot i = s.slot i) ∧ (nAcc w = 0 → t.mem = s.mem)
        ∧ { t with raw := s.raw, eng := s.eng, slots := s.slots, mem := s.mem } = s
    let b := s.worked e.val l m w c
    let on (n : Nat) : Option Routine := some { rt with pc := n, first := false }
    let old := (s.engine e.val).bank l
    (mSeq m = sqNext → ∃ t : State, exec (.wordNext e) s = .next (settle t) ∧ good t (on (pc + 1)) b)
      ∧ (mSeq m = sqJump → ∃ t : State, exec (.wordJump e) s = .next (settle t) ∧ good t (on (old.page * 512 + mImm m)) b)
      ∧ (mSeq m = sqJumpC → ∃ t : State, exec (.wordJumpC e) s = .next (settle t)
          ∧ good t (on (if (s.advance c).condOf e.val l w 0 then old.page * 512 + mImm m else pc + 1)) b)
      ∧ (mSeq m = sqCall → ∃ t : State, exec (.wordCall e) s = .next (settle t)
          ∧ good t (on (old.page * 512 + mImm m)) { b with stack := (pc + 1, old.page) :: old.stack })
      ∧ (mSeq m = sqRet → ∀ a p st, old.stack = (a, p) :: st → ∃ t : State, exec (.wordRet e) s = .next (settle t)
          ∧ good t (on a) { b with stack := st, page := p })
      ∧ (mSeq m = sqRet → old.stack = [] → ∃ t : State, exec (.wordRet e) s = .next (settle t) ∧ good t none b)
      ∧ (mSeq m = sqEnd → ∃ t : State, exec (.wordEnd e) s = .next (settle t) ∧ good t none b)
      ∧ (mSeq m = sqMwb → ∃ t : State, exec (.wordMwb e) s = .next (settle t) ∧ good t (on ((s.advance c).mwbTarget e.val l m w)) b)
      ∧ (mSeq m = sqPage → ∃ t : State, exec (.wordPage e) s = .next (settle t)
          ∧ good t (on (pc + 1)) { b with page := mImm m % 16 })
      ∧ (mSeq m = sqWait → ∃ t : State, exec (.wordWait e) s = .next (settle t)
          ∧ good t (some { rt with first := false, wait := some {
              cond := nCsel w 0, pol := nCpol w 0, dl := if nDlen w then some (nDlreg w) else none
              watch := accAddr old w 0x10000 / 4, since := c } }) b)
      ∧ (mSeq m = sqSeal → ∃ t : State, exec (.wordSeal e) s = .next (settle t) ∧ good t (on (pc + 1)) b
          ∧ (t.engine e.val).sect = some { lvl := l, words := 1, since := c })
      ∧ (mSeq m = sqUnseal → ∀ k, (s.engine e.val).sect = some k → ∃ t : State, exec (.wordUnseal e) s = .next (settle t)
          ∧ good t (on (pc + 1)) b ∧ (t.engine e.val).sect = some { k with words := k.words + 1, done := some c })

/-- R162, R164, R167, R168, R187 to R189: what the access of a word sends on its way: a read or write of the log store waits for its
siding, one of the interchange bank for port A, a register's word, as a read of it gives it, comes six cycles later and a timetable
word four, a register is written at once and a write that it discards sets ACC and ACC_ERR, an insertion
goes to the port with TTR cleared, a cancellation is made at once; inside a section a read finds what the section has written, a
write and a cancellation are buffered, an insertion takes its slot at once.
The model's choices in it: log entries 18 and 19. -/
def Obligations.WordsAccess : Prop :=
  ∀ (s : State) (e : EngineId) (l pc m w c : Nat), s.executes e.val l pc m w c → mSeq m = sqNext →
    let b := (s.engine e.val).bank l
    let v : Word := word (((s.advance c).opCtx e.val l m w).op32 (nAdat w))
    ((s.engine e.val).sect = none →
      (nAcc w = 1 → ∃ t : State, exec (.wordNext e) s = .next (settle t) ∧ t.mem = { s.mem with
          waits := s.mem.waits ++ [{ sid := accAddr b w 0x200000 / 4 / 32768, idx := accAddr b w 0x200000 / 4, req := .engine e,
                                     kind := .engRead l (nAdat w) c, since := c }] })
      ∧ (nAcc w = 2 → ∃ t : State, exec (.wordNext e) s = .next (settle t) ∧ t.mem = { s.mem with
          waits := s.mem.waits ++ [{ sid := accAddr b w 0x200000 / 4 / 32768, idx := accAddr b w 0x200000 / 4, req := .engine e,
                                     kind := .engWrite v, since := c }] })
      ∧ (nAcc w = 3 → ∃ t : State, exec (.wordNext e) s = .next (settle t) ∧ t.mem = { s.mem with
          portA := s.mem.portA ++ [{ sid := 16, idx := accAddr b w 0x10000 / 4, req := .engine e,
                                     kind := .engRead l (nAdat w) c, since := c }] })
      ∧ (nAcc w = 4 → ∃ t : State, exec (.wordNext e) s = .next (settle t) ∧ t.mem = { s.mem with
          portA := s.mem.portA ++ [{ sid := 16, idx := accAddr b w 0x10000 / 4, req := .engine e,
                                     kind := .engWrite v, since := c }] })
      ∧ (nAcc w = 7 → s.ecc stTt (accAddr b w 0x40000 / 4) = 0 → ∃ t : State, exec (.wordNext e) s = .next (settle t)
          ∧ t.mem = { s.mem with
              bankAt := t.mem.bankAt
              arrivals := s.mem.arrivals ++ [{
                eng := e.val, lvl := l, dst := nAdat w, val := (s.ttWord (accAddr b w 0x40000 / 4)).toNat, time := c + 4 }] })
      ∧ (nAcc w = 8 ∨ nAcc w = 9 → s.mqFull = false → ∃ t : State, exec (.wordNext e) s = .next (settle t)
          ∧ t.dsp = { s.dsp with port := s.dsp.port ++
              [{ req := .engine e, bits := entryIn b (nAbase w), park := decide (nAcc w = 9), lvl := some l }] }
          ∧ (t.engine e.val).tt = some { lvl := l, can := false } ∧ ((t.engine e.val).bank l).ttr = 0))
    ∧ ((s.engine e.val).sect = none →
      (∀ (a : Nat) (u : State), nAcc w = 5 → a = accAddr b w 0x200000 → u = (s.advance c).firstWord e.val l →
        ∃ (t : State) (x : Word), exec (.wordNext e) s = .next (settle t)
          ∧ t.mem.arrivals = s.mem.arrivals ++ [{ eng := e.val, lvl := l, dst := nAdat w, val := x.toNat, time := c + 6 }]
          ∧ (∃ y, x = ((u.setEngine e.val { (u.engine e.val).setBank l (s.worked e.val l m w c) with mul := y }).read (.engine e) a).2.1)
          ∧ ∀ n : RulerId, a = rulReg RUL.BCNT.V n.val → x = s.reg a)
      ∧ (∀ (a : Nat) (n : RulerId), nAcc w = 6 → a = accAddr b w 0x200000 → a = rulReg RUL.BCNT.V n.val →
          (s.advance c).opens (.engine e) a = true →
        ∃ t : State, exec (.wordNext e) s = .next (settle t) ∧ t.raw = c ∧ t.mem = s.mem
          ∧ (rangeBad RUL.BCNT.fields v.toNat = false → t.ruF n.val RUL.BCNT.V = bitsAt v.toNat 0 RUL.BCNT.V.wid
            ∧ (t.engine e.val).bank l = s.worked e.val l m w c ∧ RegsBut s t [a])
          ∧ (rangeBad RUL.BCNT.fields v.toNat = true → t.reg a = s.reg a
            ∧ (t.engine e.val).bank l = { s.worked e.val l m w c with acc := true } ∧ t.enOn e.val MEN.IRQ_RAW.ACC_ERR = true))
      ∧ ((nAcc w = 10 ∨ nAcc w = 11) → ∀ i : Nat, i = (b.gr (nAbase w)).toNat % 2 ^ 14 →
          (s.slot i).st = .queued → (s.slot i).place ≠ .reserved → ∃ t : State, exec (.wordNext e) s = .next (settle t)
          ∧ (t.slot i).st = .free ∧ (t.slot i).out = outCancelled
          ∧ (t.engine e.val).tt = some { lvl := l, can := true, res := some (canWord 0 i, c + 8) }
          ∧ ((t.engine e.val).bank l).ttr = 0))
    ∧ ∀ k, (s.engine e.val).sect = some k → k.done = none →
      (nAcc w = 1 → ∀ x, (s.engine e.val).buffered (SealWrite.ofSid (accAddr b w 0x200000 / 4)) = some x →
        ∃ t : State, exec (.wordNext e) s = .next (settle t) ∧ t.mem = { s.mem with arrivals := s.mem.arrivals ++
              [{ eng := e.val, lvl := l, dst := nAdat w, val := x.toNat, time := c + 2 }] })
      ∧ (nAcc w = 2 → ∃ t : State, exec (.wordNext e) s = .next (settle t) ∧ t.mem = s.mem
          ∧ (t.engine e.val).sect = some { k with words := k.words + 1, writes := k.writes ++ [.sid (accAddr b w 0x200000 / 4) v] })
      ∧ (nAcc w = 4 → ∃ t : State, exec (.wordNext e) s = .next (settle t) ∧ t.mem = s.mem
          ∧ (t.engine e.val).sect = some { k with words := k.words + 1, writes := k.writes ++ [.icb (accAddr b w 0x10000 / 4) v] })
      ∧ (nAcc w = 6 → ∃ t : State, exec (.wordNext e) s = .next (settle t) ∧ t.regs = s.regs
          ∧ (t.engine e.val).sect = some { k with words := k.words + 1, writes := k.writes ++ [.reg (accAddr b w 0x200000) v] })
      ∧ (nAcc w = 8 ∨ nAcc w = 9 → s.mqFull = false → s.insertCode (entryIn b (nAbase w)) (decide (nAcc w = 9)) = 0 →
          ∀ i, s.freeHead = some i → ∃ t : State, exec (.wordNext e) s = .next (settle t)
          ∧ (t.slot i).st = .queued ∧ (t.slot i).place = .reserved ∧ (∀ j, j ≠ i → (t.slot j).bits = (s.slot j).bits)
          ∧ (t.engine e.val).sect = some { k with
              words := k.words + 1, writes := k.writes ++ [.ins i (decide (nAcc w = 9)) (entryIn b (nAbase w))], last := some false }
          ∧ (t.engine e.val).tt = some { lvl := l, can := false, res := some (insWord 0 i, c + 8) })
      ∧ (nAcc w = 10 ∨ nAcc w = 11 → ∃ t : State, exec (.wordNext e) s = .next (settle t) ∧ (∀ j, (t.slot j).st = (s.slot j).st)
          ∧ (t.engine e.val).sect = some { k with
              words := k.words + 1, writes := k.writes ++ [.can ((b.gr (nAbase w)).toNat % 2 ^ 14) (decide (nAcc w = 11))], last := some true }
          ∧ (t.engine e.val).tt = some { lvl := l, can := true })

/-- R171, R178: a word with a reserved code does nothing but fault: the reason, level and address are captured, the fault is
counted and flagged, and its routine ends; under FAULTPOL the engine is FAULTED and coded fault 3 detected.
The model's choices in it: log entries 18 and 32. -/
def Obligations.ReservedWordsFault : Prop :=
  ∀ (s : State) (e : EngineId) (l pc m w c : Nat), s.fetches e.val l pc m w c → wordBad m w = true → l < 8 → pc < 8192 →
    ∃ t : State, exec (.wordReserved e) s = .next (settle t) ∧ t.enF e.val MEN.FAULT.REASON = efReserved
      ∧ t.enF e.val MEN.FAULT.LEVEL = l ∧ t.enF e.val MEN.FAULT.PC = pc
      ∧ t.f MEN.CNT_EVT.LO (pgAt e.val) = counted s MEN.CNT_EVT.LO 1 (pgAt e.val) ∧ t.on MEN.IRQ_RAW.FAULT (pgAt e.val) = true
      ∧ (t.engine e.val).at_ l = none ∧ (t.engine e.val).sect = none ∧ t.raw = c
      ∧ (s.enOn e.val MEN.CTL.FAULTPOL = false → t.pwr = s.pwr)
      ∧ (s.enOn e.val MEN.CTL.FAULTPOL = true → (t.engine e.val).st = .faulted ∧ t.pwr.faults = s.pwr.faults ++ [3])

/-- R182, R184: the results and flags of the 32-bit operations, as sums, differences, products and shifts of 32-bit words. -/
def Obligations.AluComputes : Prop :=
  ∀ a b : Word,
    ((alu32 0x02 a.toNat b.toNat).res = (a + b).toNat ∧ ((alu32 0x02 a.toNat b.toNat).c = true ↔ (a + b).toNat < a.toNat)
        ∧ ((alu32 0x02 a.toNat b.toNat).v = true ↔ (a + b).toInt ≠ a.toInt + b.toInt))
      ∧ ((alu32 0x03 a.toNat b.toNat).res = (a - b).toNat ∧ ((alu32 0x03 a.toNat b.toNat).c = true ↔ a.toNat < b.toNat)
        ∧ ((alu32 0x03 a.toNat b.toNat).v = true ↔ (a - b).toInt ≠ a.toInt - b.toInt))
      ∧ ((BitVec.ofNat 32 (alu32 0x04 a.toNat b.toNat).res).toInt = max (-(2 ^ 31)) (min (2 ^ 31 - 1) (a.toInt + b.toInt))
        ∧ ((alu32 0x04 a.toNat b.toNat).sat = true ↔ (a + b).toInt ≠ a.toInt + b.toInt))
      ∧ (BitVec.ofNat 32 (alu32 0x05 a.toNat b.toNat).res).toInt = max (-(2 ^ 31)) (min (2 ^ 31 - 1) (a.toInt - b.toInt))
      ∧ (alu32 0x0A a.toNat b.toNat).res = (a <<< (b.toNat % 32)).toNat
      ∧ (alu32 0x0B a.toNat b.toNat).res = (a >>> (b.toNat % 32)).toNat
      ∧ (alu32 0x0C a.toNat b.toNat).res = (a.sshiftRight (b.toNat % 32)).toNat
      ∧ (alu32 0x0D a.toNat b.toNat).res = (a.rotateRight (b.toNat % 32)).toNat
      ∧ (alu32 0x0E a.toNat b.toNat).res = (a * b).toNat
      ∧ (alu32 0x0F a.toNat b.toNat).res = a.toNat * b.toNat / 2 ^ 32
      ∧ (alu32 0x16 a.toNat b.toNat) = (alu32 0x03 a.toNat b.toNat)

/-- R183: each stamp operation computes on the integers and clamps to the range of its result, which counts as saturated where
it was clamped; the destinations it may write, and RESERVED_OP for every other. -/
def Obligations.StampAluClamps : Prop :=
  (∀ a b : BitVec 64,
    ((alu64 0x21 a.toNat b.toNat).res : Int) = max 0 (min (2 ^ 64 - 1) ((a.toNat : Int) + b.toInt))
      ∧ ((alu64 0x21 a.toNat b.toNat).sat = true ↔ (a.toNat : Int) + b.toInt < 0 ∨ 2 ^ 64 ≤ (a.toNat : Int) + b.toInt)
      ∧ ((alu64 0x22 a.toNat b.toNat).res : Int) = max 0 (min (2 ^ 64 - 1) ((a.toNat : Int) - b.toInt))
      ∧ ((alu64 0x22 a.toNat b.toNat).sat = true ↔ (a.toNat : Int) - b.toInt < 0 ∨ 2 ^ 64 ≤ (a.toNat : Int) - b.toInt)
      ∧ (BitVec.ofNat 64 (alu64 0x23 a.toNat b.toNat).res).toInt
          = max (-(2 ^ 63)) (min (2 ^ 63 - 1) ((a.toNat : Int) - (b.toNat : Int)))
      ∧ ((alu64 0x23 a.toNat b.toNat).sat = true ↔
          (a.toNat : Int) - (b.toNat : Int) < -(2 ^ 63) ∨ (2 ^ 63 : Int) ≤ (a.toNat : Int) - (b.toNat : Int))
      ∧ (BitVec.ofNat 32 (alu64 0x24 a.toNat b.toNat).res).toInt = max (-(2 ^ 31)) (min (2 ^ 31 - 1) a.toInt)
      ∧ ((alu64 0x24 a.toNat b.toNat).sat = true ↔ a.toInt < -(2 ^ 31) ∨ (2 ^ 31 : Int) ≤ a.toInt))
    ∧ (∀ d : Nat, d < 32 →
      (stampDstBad 0x24 d = false ↔ d < 0x18 ∨ d = 0x1F)
        ∧ ∀ o : Nat, o ≠ 0x24 → (stampDstBad o d = false ↔ (0x10 ≤ d ∧ d < 0x14) ∨ d = 0x1F))
    ∧ ∀ (s : State) (e : EngineId) (l pc m w c : Nat), s.fetches e.val l pc m w c → stampOp (nAlu w) = true →
        usesDst w = true → stampDstBad (nAlu w) (nDst w) = true →
      ∃ t : State, exec (.wordReserved e) s = .next (settle t) ∧ t.enF e.val MEN.FAULT.REASON = efReserved

/-! ### Ruling units (file 08) -/

/-- R194 to R204, R207: a reload forms the next period of a run, a follower's at its sync, or the first of a pending start, three
cycles before it begins, and takes the shadows written before it; a rise that the other output, the dead time and MINP allow is
placed, one moved past its own fall is dropped with its interval, a too short high interval is dropped under MINPOL = 0 and stretched
under MINPOL = 1; a fall is placed, a low interval too
short is closed, MAXON cuts with LIMIT; T_0 sets the unit running; a stop completes the period in progress under STOPMODE = 0, ends
the run at once under STOPMODE = 1, and discards a start that has not begun; the end of a run leaves both outputs low with DONE.
The model's choices in it: log entries 2, 20, 41 and 42. -/
def Obligations.RulerPeriodsAndEdges : Prop :=
  (∀ (s : State) (u : RulerId) (x : RuRun), (s.ruler u.val).run = some x → x.fin = none → (s.ruler u.val).st ≠ .halted →
        ∀ b : Nat, (if s.ruOn u.val RUL.CHAIN.SYNC_EN then (s.ruler u.val).syncs.find? (fun t => decide (x.t < t)) else some x.stop)
          = some b →
      (s.ruStopBy (s.ruler u.val) b = false →
        ∃ (t : State) (y : RuRun), exec (.ruReload u) s = .next (settle t) ∧ (t.ruler u.val).run = some y ∧ y.t = b
        ∧ y.stop = b + t.ruF u.val RUL.PER.V ∧ y.k = x.k + 1 ∧ y.left = x.left.map (fun n => n - 1)
        ∧ y.fin = (if y.left = some 0 then some y.stop else none) ∧ (t.ruler u.val).count = x.k + 1
        ∧ t.raw = max s.raw (b / 64 - 3) ∧ (t.ruler u.val).st = (s.ruler u.val).st
        ∧ (s.ruOn u.val RUL.CHAIN.SYNC_EN = true → b < x.stop → t.on RUL.IRQ_RAW.SYNC_EARLY (pgAt u.val) = true)
        ∧ (∀ n c, (s.ruler u.val).per = some (n, c) → c < b / 64 - 3 → s.ruOn u.val RUL.CTL.UPD_HOLD = false →
            (s.ruler u.val).freed < b / 64 - 3 →
            t.ruF u.val RUL.PER.V = n % 2 ^ 30 ∧ (t.ruler u.val).per = none)
        ∧ (s.ruOn u.val RUL.CTL.UPD_HOLD = true → t.ruF u.val RUL.PER.V = s.ruF u.val RUL.PER.V
            ∧ t.ruF u.val RUL.DUTY.V = s.ruF u.val RUL.DUTY.V ∧ (t.ruler u.val).per = (s.ruler u.val).per
            ∧ (t.ruler u.val).duty = (s.ruler u.val).duty)
        ∧ { t with raw := s.raw, seenNow := s.seenNow, regs := s.regs, rul := s.rul, trk := s.trk, lines := s.lines, adc := s.adc } = s)
      ∧ (s.ruStopBy (s.ruler u.val) b = true → s.ruOn u.val RUL.MODE.STOPMODE = false →
        ∃ t : State, exec (.ruReload u) s = .next (settle t) ∧ (t.ruler u.val).run = some { x with fin := some (min b x.stop) }
          ∧ (t.ruler u.val).count = (s.ruler u.val).count ∧ t.raw = max s.raw (b / 64 - 3)
          ∧ { t with raw := s.raw, seenNow := s.seenNow, regs := s.regs, rul := s.rul } = s))
    ∧ (∀ (s : State) (u : RulerId) (st : RuStart), (∀ r, (s.ruler u.val).run = some r → r.fin ≠ none) →
        (s.ruler u.val).start = some st →
        (s.ruler u.val).next = none → (s.ruler u.val).st ≠ .halted →
        ∀ b : Nat, s.ruBegin u.val (s.ruler u.val) st = some b →
        s.ruStopBy (s.ruler u.val) b = false →
      ∃ (t : State) (y : RuRun), exec (.ruReload u) s = .next (settle t) ∧ (t.ruler u.val).next = some y
        ∧ y.t = b ∧ y.stop = b + t.ruF u.val RUL.PER.V ∧ y.k = 1 ∧ y.left = st.n.map (fun n => n - 1)
        ∧ (t.ruler u.val).run = (s.ruler u.val).run ∧ (t.ruler u.val).start = some st ∧ (t.ruler u.val).count = 1
        ∧ t.raw = max s.raw (b / 64 - 3)
        ∧ { t with raw := s.raw, regs := s.regs, rul := s.rul, trk := s.trk, lines := s.lines, adc := s.adc } = s)
    ∧ (∀ (s : State) (u : RulerId) (hi : Bool) (v : Ruler), v = s.ruView u.val (s.ruler u.val) →
        ∀ (e : RuEdge) (es : List RuEdge), (v.out hi).edges = e :: es → (s.ruler u.val).frozen = none →
        (∀ g gs, (v.out !hi).edges = g :: gs → e.time < g.time ∨ (e.time = g.time ∧ (g.up = true ∨ e.up = false))) →
        ∀ y : Ruler, y = (s.ruler u.val).setOut hi (((s.ruler u.val).out hi).drop e) →
      (e.up = ((s.ruler u.val).out hi).lvl → (e.up = false → ∀ r ∈ (y.out hi).edges, r.up = true → r.moved = true → e.time ≤ r.orig) →
        ∃ t : State, exec (.ruOutputEdge u hi) s = .next (settle t) ∧ t.ruler u.val = y ∧ { t with rul := s.rul } = s)
      ∧ (e.up = false → ((s.ruler u.val).out hi).lvl = false → ∀ r : RuEdge,
          (y.out hi).edges.find? (fun r => r.up && r.moved && decide (r.orig < e.time)) = some r →
        ∃ t : State, exec (.ruOutputEdge u hi) s = .next (settle t) ∧ t.ruler u.val = y.setOut hi ((y.out hi).drop r)
          ∧ t.f RUL.CNT_EVT.LO (pgAt u.val) = counted s RUL.CNT_EVT.LO 1 (pgAt u.val) ∧ t.on RUL.IRQ_RAW.FILTER (pgAt u.val) = true
          ∧ { t with seenNow := s.seenNow, regs := s.regs, rul := s.rul } = s)
      ∧ (e.up = true → ((s.ruler u.val).out hi).lvl = false → ((s.ruler u.val).out !hi).lvl = false →
          (∀ f, ((s.ruler u.val).out !hi).fall = some f → f + (if hi then s.ruDtr u.val else s.ruDtf u.val) ≤ e.time) →
          ((∀ f, s.ruNext u.val y hi false = some f → e.time + s.ruF u.val RUL.MINP.V ≤ f) →
            ∃ t : State, exec (.ruOutputEdge u hi) s = .next (settle t) ∧ ((t.ruler u.val).out hi).lvl = true
              ∧ ((t.ruler u.val).out hi).rise = some e.time ∧ ((t.ruler u.val).out hi).least = e.time + s.ruF u.val RUL.MINP.V
              ∧ ((t.ruler u.val).out !hi).lvl = false ∧ (t.ruler u.val).run = (s.ruler u.val).run ∧ t.raw = max s.raw (e.time / 64)
              ∧ (∀ j, j ≠ u.val → t.ruler j = s.ruler j)
              ∧ { t with raw := s.raw, regs := s.regs, rul := s.rul, trk := s.trk, lines := s.lines, adc := s.adc } = s)
          ∧ (∀ f, s.ruNext u.val y hi false = some f → f < e.time + s.ruF u.val RUL.MINP.V →
            (s.ruOn u.val RUL.MODE.MINPOL = false ∨ e.moved = true →
              ∃ t : State, exec (.ruOutputEdge u hi) s = .next (settle t) ∧ ((t.ruler u.val).out hi).lvl = false
                ∧ ((t.ruler u.val).out hi).rise = ((s.ruler u.val).out hi).rise
                ∧ t.f RUL.CNT_EVT.LO (pgAt u.val) = counted s RUL.CNT_EVT.LO 1 (pgAt u.val)
                ∧ t.on RUL.IRQ_RAW.FILTER (pgAt u.val) = true ∧ ((t.ruler u.val).out !hi) = ((s.ruler u.val).out !hi)
                ∧ { t with seenNow := s.seenNow, regs := s.regs, rul := s.rul } = s)
            ∧ (s.ruOn u.val RUL.MODE.MINPOL = true → e.moved = false →
              ∃ t : State, exec (.ruOutputEdge u hi) s = .next (settle t) ∧ ((t.ruler u.val).out hi).lvl = true
                ∧ ((t.ruler u.val).out hi).rise = some e.time
                ∧ t.f RUL.CNT_EVT.LO (pgAt u.val) = counted s RUL.CNT_EVT.LO 1 (pgAt u.val)
                ∧ t.on RUL.IRQ_RAW.FILTER (pgAt u.val) = true ∧ t.raw = max s.raw (e.time / 64)
                ∧ { t with raw := s.raw, seenNow := s.seenNow, regs := s.regs, rul := s.rul, trk := s.trk, lines := s.lines, adc := s.adc } = s)))
      ∧ (e.up = false → e.cut = true → ((s.ruler u.val).out hi).lvl = true →
        ∃ t : State, exec (.ruOutputEdge u hi) s = .next (settle t) ∧ ((t.ruler u.val).out hi).lvl = false
          ∧ t.on RUL.IRQ_RAW.LIMIT (pgAt u.val) = true ∧ t.raw = max s.raw (e.time / 64)
          ∧ { t with raw := s.raw, seenNow := s.seenNow, regs := s.regs, rul := s.rul, trk := s.trk, lines := s.lines, adc := s.adc } = s)
      ∧ (e.up = false → e.cut = false → ((s.ruler u.val).out hi).lvl = true → ((s.ruler u.val).out hi).least ≤ e.time →
          ((∀ r, s.ruNext u.val y hi true = some r → e.time + s.ruF u.val RUL.MINP.V ≤ r) →
            ∃ t : State, exec (.ruOutputEdge u hi) s = .next (settle t) ∧ ((t.ruler u.val).out hi).lvl = false
              ∧ ((t.ruler u.val).out hi).fall = some e.time ∧ ((t.ruler u.val).out hi).shown = false
              ∧ ((t.ruler u.val).out !hi).lvl = ((s.ruler u.val).out !hi).lvl ∧ t.raw = max s.raw (e.time / 64)
              ∧ (∀ j, j ≠ u.val → t.ruler j = s.ruler j)
              ∧ { t with raw := s.raw, regs := s.regs, rul := s.rul, trk := s.trk, lines := s.lines, adc := s.adc } = s)
          ∧ (∀ r, s.ruNext u.val y hi true = some r → r < e.time + s.ruF u.val RUL.MINP.V →
              s.ruHighIn u.val (s.ruSeen u.val y) (!hi) e.time r = false →
            ∃ t : State, exec (.ruOutputEdge u hi) s = .next (settle t) ∧ ((t.ruler u.val).out hi).lvl = true
              ∧ t.f RUL.CNT_EVT.LO (pgAt u.val) = counted s RUL.CNT_EVT.LO 1 (pgAt u.val)
              ∧ t.on RUL.IRQ_RAW.FILTER (pgAt u.val) = true
              ∧ { t with seenNow := s.seenNow, regs := s.regs, rul := s.rul } = s)))
    ∧ (∀ (s : State) (u : RulerId) (st : RuStart) (x : RuRun), (s.ruler u.val).start = some st → (s.ruler u.val).next = some x →
        (s.ruler u.val).run = none → (s.ruler u.val).st ≠ .halted →
      ∃ t : State, exec (.ruStartInstant u) s = .next (settle t)
        ∧ t.ruler u.val = { s.ruler u.val with start := none, next := none, run := some x, st := .running }
        ∧ t.raw = max s.raw (x.t / 64) ∧ (∀ j, j ≠ u.val → t.ruler j = s.ruler j)
        ∧ (x.missed = true → t.on RUL.IRQ_RAW.MISSED (pgAt u.val) = true) ∧ (x.missed = false → t.regs = s.regs)
        ∧ (∀ i, st.src ≠ .slot i → t.slot i = s.slot i)
        ∧ { t with raw := s.raw, seenNow := s.seenNow, regs := s.regs, rul := s.rul, slots := s.slots } = s)
    ∧ (∀ (s : State) (u : RulerId) (p : RuStop), (s.ruler u.val).stop = some p → (s.ruler u.val).st ≠ .halted →
      ((s.ruler u.val).run = none → (s.ruler u.val).start = none →
        ∃ t : State, exec (.ruStopInstant u) s = .next (settle t) ∧ t.ruler u.val = { s.ruler u.val with stop := none }
          ∧ t.raw = max s.raw (s.ruStopTime p / 64) ∧ (∀ j, j ≠ u.val → t.ruler j = s.ruler j)
          ∧ { t with raw := s.raw, rul := s.rul, slots := s.slots } = s)
      ∧ (∀ st, (s.ruler u.val).start = some st → (s.ruler u.val).next = none → ∀ b, s.ruBegin u.val (s.ruler u.val) st = some b →
          s.ruStopTime p ≤ b →
        ∃ t : State, exec (.ruStopInstant u) s = .next (settle t) ∧ (t.ruler u.val).start = none ∧ (t.ruler u.val).stop = none
          ∧ (∀ i, st.src = .slot i → p.src ≠ .slot i → (s.slot i).st = .active → (t.slot i).acted = some outDiscarded)
          ∧ t.raw = max s.raw (s.ruStopTime p / 64) ∧ (∀ j, j ≠ u.val → t.ruler j = s.ruler j))
      ∧ (∀ x : RuRun, (s.ruler u.val).run = some x → (s.ruler u.val).start = none → x.fin = none →
          s.ruOn u.val RUL.MODE.STOPMODE = false →
        ∃ t : State, exec (.ruStopInstant u) s = .next (settle t) ∧ (t.ruler u.val).stop = none
          ∧ (t.ruler u.val).run = some { x with fin := some (if s.ruStopTime p ≤ x.t then x.t else x.stop) }
          ∧ (t.ruler u.val).st = (if (s.ruler u.val).st = .running then .stopping else (s.ruler u.val).st)
          ∧ (t.ruler u.val).hi.lvl = (s.ruler u.val).hi.lvl ∧ (t.ruler u.val).lo.lvl = (s.ruler u.val).lo.lvl
          ∧ (t.ruler u.val).count = (if s.ruStopTime p ≤ x.t then x.k - 1 else (s.ruler u.val).count)
          ∧ { t with raw := s.raw, rul := s.rul, slots := s.slots } = s)
      ∧ (∀ x : RuRun, (s.ruler u.val).run = some x → (s.ruler u.val).start = none → s.ruOn u.val RUL.MODE.STOPMODE = true →
        ∃ t : State, exec (.ruStopInstant u) s = .next (settle t) ∧ (t.ruler u.val).stop = none ∧ (t.ruler u.val).run = none
          ∧ (t.ruler u.val).hi = (s.ruler u.val).hi.stopAt (s.ruStopTime p) (s.ruF u.val RUL.MINP.V)
          ∧ (t.ruler u.val).lo = (s.ruler u.val).lo.stopAt (s.ruStopTime p) (s.ruF u.val RUL.MINP.V)
          ∧ t.on RUL.IRQ_RAW.DONE (pgAt u.val) = true
          ∧ { t with raw := s.raw, seenNow := s.seenNow, regs := s.regs, rul := s.rul, slots := s.slots } = s))
    ∧ ∀ (s : State) (u : RulerId) (x : RuRun) (f : Nat), (s.ruler u.val).run = some x → x.fin = some f → (s.ruler u.val).st ≠ .halted →
      ∃ t : State, exec (.ruRunEnd u) s = .next (settle t) ∧ (t.ruler u.val).run = none ∧ (t.ruler u.val).hi.lvl = false
        ∧ (t.ruler u.val).lo.lvl = false ∧ (t.ruler u.val).st = (if (s.ruler u.val).start.isSome then .armed else .idle)
        ∧ t.on RUL.IRQ_RAW.DONE (pgAt u.val) = true ∧ (t.ruler u.val).count = (s.ruler u.val).count ∧ t.raw = max s.raw (f / 64)
        ∧ { t with raw := s.raw, seenNow := s.seenNow, regs := s.regs, rul := s.rul, trk := s.trk, lines := s.lines, adc := s.adc } = s

/-- R200, R202 to R205, R208, R209, R212 to R214: MODE while the unit is at rest, BUSY otherwise, RANGE for a reserved code; UPD_HOLD; a direct start
and stop, and their refusals; FORCE; the fault input taken and released; CLRFLT; claims and releases; an abort.
The model's choices in it: log entries 9, 20, 26 and 34. -/
def Obligations.RulerControl : Prop :=
  (∀ (s : State) (r : Requester) (u : RulerId) (v : Word), s.opens r (rulReg RUL.MODE.CODE u.val) = true →
      ((s.ruler u.val).st = .off ∨ (s.ruler u.val).st = .idle → (s.ruler u.val).start = none → (s.ruler u.val).stop = none →
          bitsAt v.toNat 0 3 ≤ 4 → (s.ruler u.val).fltIn = false ∨ s.ruOn u.val RUL.FLT.LATCH = false →
        ∃ t : State, exec (.rulModeWrite r u v) s = .next (settle t) ∧ t.ruMode u.val = bitsAt v.toNat 0 3
          ∧ t.ruF u.val RUL.MODE.STOPMODE = bitsAt v.toNat 8 1
          ∧ t.ruler u.val = { s.ruler u.val with st := if bitsAt v.toNat 0 3 = 0 then .off else .idle }
          ∧ (∀ j, j ≠ u.val → t.ruler j = s.ruler j)
          ∧ RegsBut s t [rulReg RUL.MODE.CODE u.val] ∧ { t with regs := s.regs, rul := s.rul } = s)
      ∧ ((s.ruler u.val).st = .off ∨ (s.ruler u.val).st = .idle → (s.ruler u.val).start = none → (s.ruler u.val).stop = none →
          0 < bitsAt v.toNat 0 3 → bitsAt v.toNat 0 3 ≤ 4 → (s.ruler u.val).fltIn = true → s.ruOn u.val RUL.FLT.LATCH = true →
        ∃ t : State, exec (.rulModeWrite r u v) s = .next (settle t) ∧ t.ruMode u.val = bitsAt v.toNat 0 3
          ∧ (t.ruler u.val).st = .faulted ∧ (t.ruler u.val).run = none)
      ∧ ((s.ruler u.val).st = .off ∨ (s.ruler u.val).st = .idle → (s.ruler u.val).start = none → (s.ruler u.val).stop = none →
          4 < bitsAt v.toNat 0 3 →
        exec (.rulModeWrite r u v) s = .next (settle (s.discard (rulReg RUL.MODE.CODE u.val) r .range)))
      ∧ (((s.ruler u.val).st ≠ .off ∧ (s.ruler u.val).st ≠ .idle) ∨ (s.ruler u.val).start ≠ none ∨ (s.ruler u.val).stop ≠ none →
        exec (.rulModeWrite r u v) s = .next (settle (s.discard (rulReg RUL.MODE.CODE u.val) r .busy))))
    ∧ (∀ (s : State) (r : Requester) (u : RulerId) (v : Word), s.opens r (rulReg RUL.CTL.UPD_HOLD u.val) = true →
        v.getLsbD 2 = false ∨ (s.ruler u.val).st ≠ .faulted →
        v.getLsbD 1 = s.ruOn u.val RUL.CTL.HALTPOL ∨ (s.hasRole r .installer = true ∧ s.sealed (RUL.page.base + pgAt u.val) = false) →
      ∃ t : State, exec (.updHoldWrite r u v) s = .next (settle t) ∧ t.ruOn u.val RUL.CTL.HALTPOL = v.getLsbD 1 ∧ t.ruOn u.val RUL.CTL.UPD_HOLD = v.getLsbD 0
        ∧ t.ruler u.val = { s.ruler u.val with
            freed := if s.ruOn u.val RUL.CTL.UPD_HOLD && !v.getLsbD 0 then s.raw else (s.ruler u.val).freed }
        ∧ (∀ j, j ≠ u.val → t.ruler j = s.ruler j)
        ∧ (v.getLsbD 1 = s.ruOn u.val RUL.CTL.HALTPOL →
            RegsBut s t [rulReg RUL.CTL.UPD_HOLD u.val] ∧ { t with regs := s.regs, rul := s.rul } = s))
    ∧ (∀ (s : State) (r : Requester) (u : RulerId) (v : Word), s.opens r (rulReg RUL.ST_HI.V u.val) = true →
      (s.mode.quiet = false → s.ruNoStart u.val = false →
        ∃ (t : State) (x : RuStart), exec (.ruStHiWrite r u v) s = .next (settle t) ∧ (t.ruler u.val).start = some x
          ∧ x.time = v.toNat * 2 ^ 32 + s.ruF u.val RUL.ST_LO.V ∧ x.n = s.ruCount u.val 0 ∧ x.src = .direct ∧ x.loaded = s.raw
          ∧ (t.ruler u.val).st = (if (s.ruler u.val).st = .idle then .armed else (s.ruler u.val).st)
          ∧ (t.ruler u.val).run = (s.ruler u.val).run ∧ (∀ j, j ≠ u.val → t.ruler j = s.ruler j)
          ∧ RegsBut s t [rulReg RUL.ST_HI.V u.val] ∧ { t with regs := s.regs, rul := s.rul } = s)
      ∧ (s.mode.quiet = true →
        exec (.ruStHiWrite r u v) s = .next (settle (s.discard (rulReg RUL.ST_HI.V u.val) r .mode)))
      ∧ (s.mode.quiet = false → s.ruNoStart u.val = true →
        exec (.ruStHiWrite r u v) s = .next (settle ((s.ruRefused u.val).discard (rulReg RUL.ST_HI.V u.val) r .busy))))
    ∧ (∀ (s : State) (r : Requester) (u : RulerId) (v : Word), s.opens r (rulReg RUL.SP_HI.V u.val) = true →
        s.ruNoStop u.val = false →
      ∃ t : State, exec (.ruSpHiWrite r u v) s = .next (settle t)
        ∧ t.ruler u.val = { s.ruler u.val with stop := some { time := v.toNat * 2 ^ 32 + s.ruF u.val RUL.SP_LO.V } }
        ∧ (∀ j, j ≠ u.val → t.ruler j = s.ruler j)
        ∧ (∀ i, (s.ruler u.val).stop.map RuStop.src ≠ some (.slot i) → t.slot i = s.slot i)
        ∧ (∀ i, (s.ruler u.val).stop.map RuStop.src = some (.slot i) → (s.slot i).st = .active → (t.slot i).acted = some outDiscarded)
        ∧ RegsBut s t [rulReg RUL.SP_HI.V u.val] ∧ { t with regs := s.regs, rul := s.rul, slots := s.slots } = s)
    ∧ (∀ (s : State) (r : Requester) (u : RulerId) (v : Word), s.opens r (rulReg RUL.SP_HI.V u.val) = true →
        s.ruNoStop u.val = true →
      exec (.ruSpHiWrite r u v) s = .next (settle ((s.ruRefused u.val).discard (rulReg RUL.SP_HI.V u.val) r .busy)))
    ∧ (∀ (s : State) (r : Requester) (u : RulerId) (v : Word), s.opens r (rulReg RUL.OVR.SWAP u.val) = true →
      (v.getLsbD 4 = true → bitsAt v.toNat 5 2 = 3 → s.ruOn u.val RUL.LIM.BOTHON = false →
        exec (.ruForceWrite r u v) s = .next (settle (s.discard (rulReg RUL.OVR.SWAP u.val) r .range)))
      ∧ (v.getLsbD 4 = false →
        ∃ t : State, exec (.ruForceWrite r u v) s = .next (settle t) ∧ t.ruOn u.val RUL.OVR.FORCE = false
          ∧ (t.ruler u.val).ovr = some (bitsAt v.toNat 0 3, s.raw)
          ∧ (s.ruOn u.val RUL.OVR.FORCE = true → t.ruOutput u.val true = false ∧ t.ruOutput u.val false = false
              ∧ (t.ruler u.val).mask = some (s.raw + 4))
          ∧ (s.ruOn u.val RUL.OVR.FORCE = false → t.ruler u.val = { s.ruler u.val with ovr := some (bitsAt v.toNat 0 3, s.raw) })
          ∧ { t with regs := s.regs, rul := s.rul, trk := s.trk, lines := s.lines, adc := s.adc } = s))
    ∧ (∀ (s : State) (r : Requester) (u : RulerId) (v : Word), s.opens r (rulReg RUL.OVR.SWAP u.val) = true →
        v.getLsbD 4 = true → (bitsAt v.toNat 5 2 = 3 → s.ruOn u.val RUL.LIM.BOTHON = true) →
        (bitsAt v.toNat 5 2 ≠ 0 → s.mode.quiet = false) →
      ∃ t : State, exec (.ruForceWrite r u v) s = .next (settle t) ∧ t.ruOn u.val RUL.OVR.FORCE = true
        ∧ t.ruOutput u.val true = v.getLsbD 5 ∧ t.ruOutput u.val false = v.getLsbD 6
        ∧ t.ruler u.val = { s.ruler u.val with ovr := some (bitsAt v.toNat 0 3, s.raw) }
        ∧ t.ruF u.val RUL.OVR.SWAP = s.ruF u.val RUL.OVR.SWAP
        ∧ { t with regs := s.regs, rul := s.rul, trk := s.trk, lines := s.lines, adc := s.adc } = s)
    ∧ (∀ (s : State) (u : RulerId), s.mode.alive = true → s.ruOn u.val RUL.FLT.EN = true → (s.ruler u.val).fltIn = false →
      ∃ t : State, exec (.ruFaultInput u) s = .next (settle t) ∧ (t.ruler u.val).fltIn = true
        ∧ t.f RUL.CNT_EVT.HI (pgAt u.val) = counted s RUL.CNT_EVT.HI 1 (pgAt u.val) ∧ t.on RUL.IRQ_RAW.FAULT (pgAt u.val) = true
        ∧ (s.ruOn u.val RUL.FLT.LATCH = true →
            (s.ruler u.val).st = .idle ∨ (s.ruler u.val).st = .armed ∨ (s.ruler u.val).st = .running ∨ (s.ruler u.val).st = .stopping →
            (t.ruler u.val).st = .faulted ∧ (t.ruler u.val).run = none ∧ (t.ruler u.val).start = none ∧ (t.ruler u.val).stop = none
              ∧ (t.ruler u.val).hi.lvl = false ∧ (t.ruler u.val).lo.lvl = false)
        ∧ (s.ruOn u.val RUL.FLT.LATCH = false → t.ruler u.val = { s.ruler u.val with fltIn := true })
        ∧ (∀ j, j ≠ u.val → t.ruler j = s.ruler j) ∧ t.raw = s.raw)
    ∧ (∀ (s : State) (u : RulerId), (s.ruler u.val).fltIn = true →
      ∃ t : State, exec (.ruFaultRelease u) s = .next (settle t) ∧ (t.ruler u.val).fltIn = false
        ∧ (t.ruler u.val).st = (s.ruler u.val).st ∧ (t.ruler u.val).run = (s.ruler u.val).run
        ∧ (s.ruOn u.val RUL.FLT.LATCH = false → (t.ruler u.val).mask = some (s.raw + 4) ∧ (t.ruler u.val).hi.shown = false
            ∧ (t.ruler u.val).lo.shown = false)
        ∧ (s.ruOn u.val RUL.FLT.LATCH = true → { t with rul := s.rul, lines := s.lines } = s)
        ∧ (∀ j, j ≠ u.val → t.ruler j = s.ruler j) ∧ t.raw = s.raw)
    ∧ (∀ (s : State) (r : Requester) (u : RulerId), s.opens r (rulReg RUL.CTL.UPD_HOLD u.val) = true →
        (s.ruler u.val).st = .faulted →
      ((s.ruler u.val).fltIn = false →
        ∃ t : State, exec (.ruClrFlt r u) s = .next (settle t) ∧ t.ruler u.val = { s.ruler u.val with st := .idle }
          ∧ RegsBut s t [] ∧ (∀ j, j ≠ u.val → t.ruler j = s.ruler j) ∧ { t with regs := s.regs, rul := s.rul } = s)
      ∧ ((s.ruler u.val).fltIn = true →
        exec (.ruClrFlt r u) s = .next (settle (s.discard (rulReg RUL.CTL.UPD_HOLD u.val) r .busy))))
    ∧ (∀ (s : State) (r : Requester) (u : RulerId), s.opens r (rulReg RUL.CTL.UPD_HOLD u.val) = true →
        (s.ruler u.val).st ≠ .faulted →
      ∃ t : State, exec (.ruClrFlt r u) s = .next (settle t) ∧ t.ruler u.val = s.ruler u.val ∧ RegsBut s t []
        ∧ { t with regs := s.regs, rul := s.rul } = s)
    ∧ (∀ (s : State) (r : Requester) (u : RulerId), s.opens r (rulReg RUL.OWN.HOLDER u.val) = true →
      (s.holderAt (rulReg RUL.OWN.HOLDER u.val) = 0 →
        ∃ t : State, exec (.ruClaim r u) s = .next (settle t) ∧ t.holderAt (rulReg RUL.OWN.HOLDER u.val) = r.id
          ∧ RegsBut s t [rulReg RUL.OWN.HOLDER u.val] ∧ { t with regs := s.regs } = s)
      ∧ (s.holderAt (rulReg RUL.OWN.HOLDER u.val) = r.id →
        ∃ t : State, exec (.ruRelease r u) s = .next (settle t) ∧ t.holderAt (rulReg RUL.OWN.HOLDER u.val) = 0
          ∧ t.ruOn u.val RUL.OWN.TTACC = false ∧ RegsBut s t [rulReg RUL.OWN.HOLDER u.val] ∧ { t with regs := s.regs } = s)
      ∧ (s.holderAt (rulReg RUL.OWN.HOLDER u.val) ≠ 0 → s.holderAt (rulReg RUL.OWN.HOLDER u.val) ≠ r.id →
        (∃ t : State, exec (.ruClaim r u) s = .next (settle t) ∧ t.rul = s.rul ∧ t.on JNC.IRQ_RAW.CONFLICT = true
          ∧ t.holderAt (rulReg RUL.OWN.HOLDER u.val) = s.holderAt (rulReg RUL.OWN.HOLDER u.val))
        ∧ ∃ t : State, exec (.ruRelease r u) s = .next (settle t) ∧ t.rul = s.rul ∧ t.on JNC.IRQ_RAW.CONFLICT = true
          ∧ t.holderAt (rulReg RUL.OWN.HOLDER u.val) = s.holderAt (rulReg RUL.OWN.HOLDER u.val)))
    ∧ ∀ (s : State) (u : RulerId), s.aborting (RUL.page.base + pgAt u.val) = true →
      ∃ t : State, exec (.rulAbort u) s = .next (settle t) ∧ (t.ruler u.val).start = none ∧ (t.ruler u.val).stop = none
        ∧ (t.ruler u.val).run = none ∧ (t.ruler u.val).next = none ∧ t.holderAt (rulReg RUL.OWN.HOLDER u.val) = 0
        ∧ t.ruOn u.val RUL.OWN.TTACC = false
        ∧ (t.ruler u.val).st = (if (s.ruler u.val).st = .off then .off
            else if (s.ruler u.val).st = .faulted ∨ ((s.ruler u.val).st = .halted ∧ (s.ruler u.val).prior = .faulted)
              ∨ ((s.ruler u.val).fltIn = true ∧ s.ruOn u.val RUL.FLT.LATCH = true) then .faulted
            else .idle)
        ∧ (∀ j, j ≠ u.val → t.ruler j = s.ruler j)
        ∧ ((s.ruler u.val).fltIn = false → { t with seenNow := s.seenNow, regs := s.regs, rul := s.rul, slots := s.slots } = s)
        ∧ { t with seenNow := s.seenNow, regs := s.regs, rul := s.rul, slots := s.slots, trk := s.trk, lines := s.lines, adc := s.adc } = s
/-! ### The proof ADC (file 09) -/

/-- R216, R219, R221 to R223, R225 to R228, R230: a converter's sample moves its stream on by one instant; a whole block updates
the estimates or freezes them; an edge of a trigger input is presented to its sequencer; the trigger accepted starts its sequence
on a free sequencer, and is dropped or queued on a busy one or ends it, whose last samples then follow on; a step latches its registers and begins at its instant; a
step's end closes its frame and brings the next step, the next sequence or the end.
The model's choices in it: log entries 2, 5, 21, 37 and 42. -/
def Obligations.AdcSequences : Prop :=
  (∀ (s : State) (b : Bool) (code : BitVec 12) (q : Nat), q = (if s.on ADC.CTL.PAIR then 2 else if b then 1 else 0) →
      ((s.mode.alive && s.sqReady q) = false → exec (.adcSample b code) s = .next (settle s))
      ∧ (s.mode.alive = true → s.sqReady q = true → (s.sqr q).run ≠ none ∨ (s.sqr q).tails ≠ [] →
        ∃ (t : State) (xs : List Int), exec (.adcSample b code) s = .next (settle t) ∧ (t.stream q).idx = (s.stream q).idx + 1
          ∧ (t.stream q).raws = code.toInt :: xs ∧ (t.stream q).est = (s.stream q).est ∧ (t.stream q).force = (s.stream q).force
          ∧ (∀ j, j ≠ q → t.stream j = s.stream j) ∧ (∀ j, j ≠ q → t.sqr j = s.sqr j)
          ∧ t.raw = max s.raw (instantCycle q (s.stream q).idx)
          ∧ FaultsBut s t 5
          ∧ { t with raw := s.raw, regs := s.regs, adc := s.adc, mem := s.mem, free := s.free, pwr := s.pwr } = s)
      ∧ (s.mode.alive = true → s.sqReady q = true → (s.sqr q).run = none → (s.sqr q).tails = [] →
        ∃ (t : State) (xs : List Int) (i : Nat), exec (.adcSample b code) s = .next (settle t)
          ∧ i = max (s.stream q).idx (instantAt q (s.raw * 320)) ∧ (t.stream q).idx = i + 1
          ∧ (t.stream q).raws = code.toInt :: xs ∧ t.sqr q = s.sqr q ∧ (∀ j, j ≠ q → t.stream j = s.stream j)
          ∧ t.raw = max s.raw (instantCycle q i) ∧ { t with raw := s.raw, adc := s.adc } = s))
    ∧ (∀ (s : State) (b : Bool) (q : Nat), q = (if s.on ADC.CTL.PAIR then 2 else if b then 1 else 0) →
      ((s.stream q).ready = none → exec (.mmcBlock b) s = .next (settle s))
      ∧ ∀ (m : SMap MmcSum) (k : Nat), (s.stream q).ready = some (m, k) →
        let p := mmcMean m (slices q)
        let part (i : Nat) : Slice × Bool := mmcSlice (sliceAt (s.stream q).est i) (SMap.get (fun _ => {}) m i) p.1 p.2
          ((F64.ofInt 1).scalb (-(s.f ADC.MMC.MU : Int))) (((F64.ofInt k).scalb (-2)).div (F64.ofInt (4096 * slices q - 2)))
        (p.2.sqrt.lt (F64.ofInt (s.f ADC.MMC.ACT)) = true →
          ∃ t : State, exec (.mmcBlock b) s = .next (settle t) ∧ (t.stream q).ready = none ∧ (t.stream q).est = (s.stream q).est
            ∧ (t.stream (epochOf q)).frozen = true
            ∧ ((s.stream (epochOf q)).frozen = false → t.on ADC.IRQ_RAW.MMC_FROZEN = true)
            ∧ ((s.stream (epochOf q)).frozen = true → t.regs = s.regs) ∧ { t with seenNow := s.seenNow, regs := s.regs, adc := s.adc } = s)
        ∧ (p.2.sqrt.lt (F64.ofInt (s.f ADC.MMC.ACT)) = false →
          ∃ t : State, exec (.mmcBlock b) s = .next (settle t) ∧ (t.stream q).ready = none
            ∧ (∀ i, i < slices q → sliceAt (t.stream q).est i = (part i).1)
            ∧ t.on ADC.IRQ_RAW.MMC_RANGE = (s.on ADC.IRQ_RAW.MMC_RANGE || (List.range (slices q)).any (fun i => (part i).2))
            ∧ (t.stream (epochOf q)).frozen = false ∧ (t.stream q).force = (s.stream q).force
            ∧ { t with seenNow := s.seenNow, regs := s.regs, adc := s.adc } = s))
    ∧ (∀ (s : State) (n : Fin 4) (cyc : Nat) (code : Fin 128) (rising : Bool) (q : Nat), q = s.f ADC.TG.SQ (4 * n.val) →
      ((s.mode.alive && s.on ADC.TG.EN (4 * n.val)) = false → exec (.adcTriggerInput n cyc code rising) s = .next (settle s))
      ∧ (s.mode.alive = true → s.on ADC.TG.EN (4 * n.val) = true → s.on ADC.TG.KIND (4 * n.val) = false →
        ∃ t : State, exec (.adcTriggerInput n cyc code rising) s = .next (settle t)
          ∧ ((rising != s.on ADC.TG.POL (4 * n.val)) = true → s.mode.sequences = true →
            (t.sqr q).given = (s.sqr q).given ++ [{
              time := s.edgeU (vernTrig n.val) cyc code.val, seq := s.f ADC.TG.SEQ (4 * n.val)
              tag := n.val, input := some n.val, known := cyc + 12 }])
          ∧ ((rising != s.on ADC.TG.POL (4 * n.val)) = false → t.adc = s.adc)
          ∧ SMap.get (fun _ => 0) (t.vernier (vernTrig n.val)).hist code.val
              = SMap.get (fun _ => 0) (s.vernier (vernTrig n.val)).hist code.val + 1
          ∧ (∀ j, j ≠ q → t.sqr j = s.sqr j) ∧ t.adc.streams = s.adc.streams ∧ t.adc.wins = s.adc.wins ∧ t.adc.chans = s.adc.chans
          ∧ t.raw = max s.raw cyc ∧ { t with raw := s.raw, adc := s.adc, tbu := s.tbu, lines := s.lines } = s)
      ∧ (s.mode.alive = true → s.on ADC.TG.EN (4 * n.val) = true → s.on ADC.TG.KIND (4 * n.val) = true →
          (SMap.get (fun _ => []) s.adc.srcEdges n.val = [] → exec (.adcTriggerInput n cyc code rising) s = .next (settle s))
          ∧ ∀ u us, SMap.get (fun _ => []) s.adc.srcEdges n.val = u :: us →
            ∃ t : State, exec (.adcTriggerInput n cyc code rising) s = .next (settle t)
              ∧ (s.mode.sequences = true → (t.sqr q).given = (s.sqr q).given ++ [{
              time := u, seq := s.f ADC.TG.SEQ (4 * n.val)
              tag := n.val, input := some n.val, known := u / 64 }])
              ∧ SMap.get (fun _ => []) t.adc.srcEdges n.val = us ∧ (∀ j, j ≠ q → t.sqr j = s.sqr j)
              ∧ t.raw = max s.raw (u / 64) ∧ { t with raw := s.raw, adc := s.adc } = s))
    ∧ (∀ (s : State) (q : Fin 3), s.mode.sequences = false ∨ s.nextTrig q.val = none →
      exec (.adcTriggerAccept q) s = .next (settle s))
    ∧ (∀ (s : State) (q : Fin 3), s.mode.sequences = true → ∀ g l, s.nextTrig q.val = some (g, l) →
        ∀ c, c = max s.raw (if l.isSome then g.time / 64 else g.known) →
      ((s.on ADC.SEQDEF.VALID (4 * g.seq) && s.sqReady q.val) = false →
        ∃ t : State, exec (.adcTriggerAccept q) s = .next (settle t) ∧ (t.sqr q.val).run = (s.sqr q.val).run
          ∧ (t.sqr q.val).queue = (s.sqr q.val).queue ∧ t.raw = c ∧ { t with raw := s.raw, adc := s.adc, slots := s.slots } = s)
      ∧ (s.on ADC.SEQDEF.VALID (4 * g.seq) = true → s.sqReady q.val = true → (s.sqr q.val).run = none →
        ∀ i, i = instantAt q.val (g.time * 5 + s.delayOf (s.f ADC.SEQDEF.FIRST (4 * g.seq)) * nat5 q.val) →
        ∃ (t : State) (x : SeqRun), exec (.adcTriggerAccept q) s = .next (settle t) ∧ (t.sqr q.val).run = some x
          ∧ x.first = s.f ADC.SEQDEF.FIRST (4 * g.seq) ∧ x.count = s.f ADC.SEQDEF.COUNT (4 * g.seq) + 1 ∧ x.k = 0 ∧ x.step = none
          ∧ x.tag = g.tag ∧ x.trig = g.input.isSome ∧ x.num = ((s.sqr q.val).num + 1) % 2 ^ 32 ∧ (t.sqr q.val).num = x.num
          ∧ (g.input = none → x.late = false ∧ x.start = i)
          ∧ (g.input ≠ none → x.late = decide (i * nat5 q.val < (c + 4) * 320)
            ∧ x.start = (if i * nat5 q.val < (c + 4) * 320 then instantAt q.val ((c + 4) * 320) else i))
          ∧ (l = none → (t.sqr q.val).given = (s.sqr q.val).given.erase g ∧ (t.sqr q.val).loads = (s.sqr q.val).loads)
          ∧ (∀ m, l = some m → (t.sqr q.val).loads = (s.sqr q.val).loads.erase m ∧ (t.sqr q.val).given = (s.sqr q.val).given)
          ∧ t.raw = c ∧ (∀ j, j ≠ q.val → t.sqr j = s.sqr j)
          ∧ { t with raw := s.raw, adc := s.adc, slots := s.slots } = s)
      ∧ (s.on ADC.SEQDEF.VALID (4 * g.seq) = true → s.sqReady q.val = true → ∀ x, (s.sqr q.val).run = some x → x.over q.val g.time = false →
        (s.sqpol q.val = 1 ∨ ((s.sqpol q.val ≠ 2) ∧ 4 ≤ (s.sqr q.val).queue.length) →
          ∃ t : State, exec (.adcTriggerAccept q) s = .next (settle t) ∧ (t.sqr q.val).run = some x
            ∧ (t.sqr q.val).queue = (s.sqr q.val).queue ∧ t.f ADC.CNT_EVT.LO = counted s ADC.CNT_EVT.LO
            ∧ t.on ADC.IRQ_RAW.DROPPED = true ∧ t.on ADC.IRQ_RAW.QOVF = (s.on ADC.IRQ_RAW.QOVF || decide (s.sqpol q.val ≠ 1))
            ∧ t.raw = c ∧ { t with raw := s.raw, seenNow := s.seenNow, regs := s.regs, adc := s.adc, slots := s.slots } = s)
        ∧ (s.sqpol q.val ≠ 1 → s.sqpol q.val ≠ 2 → (s.sqr q.val).queue.length < 4 →
          ∃ t : State, exec (.adcTriggerAccept q) s = .next (settle t) ∧ (t.sqr q.val).run = some x
            ∧ (t.sqr q.val).queue = (s.sqr q.val).queue ++ [{ g with known := c }]
            ∧ t.raw = c ∧ { t with raw := s.raw, adc := s.adc, slots := s.slots } = s)
        ∧ (s.sqpol q.val = 2 →
          ∃ (t : State) (y : SeqRun), exec (.adcTriggerAccept q) s = .next (settle t) ∧ (t.sqr q.val).run = some y
            ∧ y.first = s.f ADC.SEQDEF.FIRST (4 * g.seq) ∧ y.k = 0 ∧ y.num = ((s.sqr q.val).num + 1) % 2 ^ 32 ∧ y.tag = g.tag
            ∧ t.on ADC.IRQ_RAW.SEQ_END = true ∧ (t.sqr q.val).queue = (s.sqr q.val).queue
            ∧ (∀ z ∈ (t.sqr q.val).tails, z ∈ (s.sqr q.val).tails
              ∨ z.chans = x.chans ∧ z.step.trunc = true ∧ ∃ w, x.step = some w ∧ z.step.len ≤ w.len)
            ∧ t.signals = s.signals ++ [{ kind := 5, idx := q.val, g1 := x.num, s0 := s.stampVt ((2 * (g.time * 5) + 5) / 10), since := c }]
            ∧ (∀ j, j ≠ q.val → t.sqr j = s.sqr j) ∧ t.raw = c)))
    ∧ (∀ (s : State) (q : Fin 3), (s.sqr q.val).run = none ∨ (∃ x, (s.sqr q.val).run = some x ∧ x.step ≠ none) →
      exec (.adcStepBegin q) s = .next (settle s))
    ∧ (∀ (s : State) (q : Fin 3), ∀ x, (s.sqr q.val).run = some x → x.step = none →
      ∀ n, n = stepAt ((x.first + x.k) % 64) →
      ∀ w, w = s.win (s.f ADC.STEP0.WIN n) →
      ∃ (t : State) (y : StepRun) (z : SeqRun), exec (.adcStepBegin q) s = .next (settle t) ∧ (t.sqr q.val).run = some z
        ∧ z.step = some y ∧ z.k = x.k ∧ z.count = x.count ∧ z.num = x.num ∧ z.start = x.start
        ∧ y.k = x.k ∧ y.first = x.start ∧ y.len = s.f ADC.STEP1.LEN n ∧ y.input = s.f ADC.STEP0.INPUT n
        ∧ y.gain = s.f ADC.STEP0.GAIN n ∧ y.filt = s.f ADC.STEP0.FILT n ∧ y.tag = x.tag ∧ y.seq = x.num ∧ y.trunc = false
        ∧ y.late = x.late ∧ y.trig = x.trig ∧ y.settle = s.settleOf q.val y.input y.gain y.filt
        ∧ (t.stream (epochOf q.val)).epoch
            = (if x.k = 0 ∧ s.on ADC.CTL.MMC_EN = true ∧ (s.stream q.val).est ≠ (s.stream q.val).force then
                ((s.stream (epochOf q.val)).epoch + 1) % 16 else (s.stream (epochOf q.val)).epoch)
        ∧ y.epoch = (t.stream (epochOf q.val)).epoch
        ∧ (t.stream q.val).force = (if x.k = 0 ∧ s.on ADC.CTL.MMC_EN = true then (s.stream q.val).est else (s.stream q.val).force)
        ∧ (s.on ADC.STEP0.WIN_EN n = false → y.win = none)
        ∧ (s.on ADC.STEP0.WIN_EN n = true → w.alloc = true → w.moving = none →
            (w.wp + w.size * 32 - w.rp) % (w.size * 32) + w.held + (32 + 2 * y.len + 31) / 32 + 1 ≤ w.size * 32 →
          y.win = some (s.f ADC.STEP0.WIN n) ∧ y.num = w.num ∧ (t.win (s.f ADC.STEP0.WIN n)).held = w.held + (32 + 2 * y.len + 31) / 32)
        ∧ (s.on ADC.STEP0.WIN_EN n = true → w.alloc = false →
          y.win = none ∧ t.win (s.f ADC.STEP0.WIN n) = { w with num := w.num + 1, ovf := true }
            ∧ t.on ADC.IRQ_RAW.FRAME_LOST = true ∧ t.f ADC.CNT_EVT.HI = counted s ADC.CNT_EVT.HI)
        ∧ (s.f ADC.STEP0.FILT n = 0 → y.dec = 2 ^ s.f ADC.STEP0.DEC n)
        ∧ (t.stream q.val).last = some (y.input, y.gain, y.filt) ∧ t.raw = max s.raw (instantCycle q.val x.start)
        ∧ (∀ j, j ≠ q.val → t.sqr j = s.sqr j) ∧ FaultsBut s t 5
        ∧ { t with raw := s.raw, seenNow := s.seenNow, regs := s.regs, adc := s.adc, free := s.free, pwr := s.pwr } = s)
    ∧ (∀ (s : State) (q : Fin 3), ((s.sqr q.val).run = none ∨ ∃ x, (s.sqr q.val).run = some x
          ∧ (x.step = none ∨ ∃ y, x.step = some y ∧ y.made < y.len)) →
      exec (.adcStepEnd q) s = .next (settle s))
    ∧ ∀ (s : State) (q : Fin 3), ∀ x, (s.sqr q.val).run = some x → ∀ y, x.step = some y → y.len ≤ y.made →
      ∀ fin, fin = y.first + y.len * y.dec →
      (x.k + 1 < x.count → y.win = none →
        ∃ t : State, exec (.adcStepEnd q) s = .next (settle t)
          ∧ t.sqr q.val = { s.sqr q.val with run := some { x with
              k := x.k + 1, step := none, start := fin + s.delayOf (x.first + x.k + 1) } }
          ∧ t.raw = max s.raw (instantCycle q.val fin) ∧ { t with raw := s.raw, adc := s.adc } = s)
      ∧ (∀ w, y.win = some w →
        ∃ t : State, exec (.adcStepEnd q) s = .next (settle t)
          ∧ t.adc.frames = s.adc.frames ++ [(w, (s.win w).wp, (32 + 2 * y.made + 31) / 32)]
          ∧ (t.win w).wp = ((s.win w).wp + (32 + 2 * y.made + 31) / 32) % ((s.win w).size * 32)
          ∧ ((32 + 2 * y.made + 31) / 32 ≤ (s.win w).size * 32 → y.words.length ≤ y.made → ∀ i, i < 8 →
            SMap.get (fun _ => 0) t.mem.adcBuf ((s.win w).base * 256 + ((s.win w).wp * 8 + i) % ((s.win w).size * 256))
              = word (y.header q.val / 2 ^ (32 * i)))
          ∧ (∀ j, j ≠ w → t.win j = s.win j) ∧ t.raw = max s.raw (instantCycle q.val fin)
          ∧ (x.k + 1 < x.count → { t with raw := s.raw, adc := s.adc, mem := s.mem } = s))
      ∧ (x.count ≤ x.k + 1 → y.win = none → (s.sqr q.val).queue = [] →
        ∃ t : State, exec (.adcStepEnd q) s = .next (settle t) ∧ t.sqr q.val = { s.sqr q.val with run := none }
          ∧ t.on ADC.IRQ_RAW.SEQ_END = true ∧ t.raw = max s.raw (instantCycle q.val fin)
          ∧ t.signals = s.signals ++ [{
            kind := 5, idx := q.val, g1 := x.num
            s0 := s.stampVt ((2 * (fin * nat5 q.val) + 5) / 10), since := t.raw }]
          ∧ ((∀ c ∈ x.chans, (s.chan c).fall = none) → t.pwr = s.pwr) ∧ FaultsBut s t 5
          ∧ { t with raw := s.raw, seenNow := s.seenNow, regs := s.regs, adc := s.adc, signals := s.signals, pwr := s.pwr } = s)
      ∧ (x.count ≤ x.k + 1 → ∀ g rest, (s.sqr q.val).queue = g :: rest →
        ∃ (t : State) (z : SeqRun), exec (.adcStepEnd q) s = .next (settle t) ∧ (t.sqr q.val).run = some z
          ∧ (t.sqr q.val).queue = rest ∧ z.first = s.f ADC.SEQDEF.FIRST (4 * g.seq) ∧ z.k = 0 ∧ z.tag = g.tag
          ∧ z.num = ((s.sqr q.val).num + 1) % 2 ^ 32 ∧ (g.time * 5 < fin * nat5 q.val → z.late = true ∧ t.on ADC.IRQ_RAW.MISSED = true)
          ∧ (g.input = none → z.start = instantAt q.val (max (g.time * 5) (fin * nat5 q.val) + s.delayOf z.first * nat5 q.val))
          ∧ t.on ADC.IRQ_RAW.SEQ_END = true ∧ t.raw = max s.raw (instantCycle q.val fin))

/-- R229, R231, R232, R236, R239, R240, R290: an optical record enters its FIFO, or is lost from a full one; the writer takes
the head record, where it is free and the log has room, and writes a word in each cycle that its siding gives it; a read of POP0 takes it; windows are allocated at the
lowest base that fits, released, settled and read past; a window is claimed and released by its holder alone; the converters'
enables; an abort.
The model's choices in it: log entries 9, 19, 21 and 26. -/
def Obligations.AdcWindowsAndStamps : Prop :=
  (∀ (s : State) (c : ChannelId), (s.chan c.val).formed = [] → exec (.opticalRecordEntry c) s = .next (settle s))
    ∧ (∀ (s : State) (c : ChannelId), ∀ x rest, (s.chan c.val).formed = x :: rest →
      ((s.chan c.val).fifo.length < 8 →
        ∃ t : State, exec (.opticalRecordEntry c) s = .next (settle t)
          ∧ t.chan c.val = { s.chan c.val with
              formed := rest, fifo := (s.chan c.val).fifo ++ [{ x with ovf := (s.chan c.val).ovf }], ovf := false }
          ∧ t.signals = s.signals ++ [{
            kind := 4, idx := c.val, s0 := x.bits % 2 ^ 64, since := s.raw
            g1 := { x with ovf := (s.chan c.val).ovf }.encode / 2 ^ 64 % 2 ^ 32 }]
          ∧ (∀ j, j ≠ c.val → t.chan j = s.chan j) ∧ { t with adc := s.adc, signals := s.signals } = s)
      ∧ (8 ≤ (s.chan c.val).fifo.length →
        ∃ t : State, exec (.opticalRecordEntry c) s = .next (settle t)
          ∧ t.chan c.val = { s.chan c.val with formed := rest, ovf := true }
          ∧ t.f ADC.OLOST.V (32 * c.val) = counted s ADC.OLOST.V 1 (32 * c.val) ∧ t.on ADC.IRQ_RAW.OS_LOST = true
          ∧ (∀ j, j ≠ c.val → t.chan j = s.chan j) ∧ { t with adc := s.adc, seenNow := s.seenNow, regs := s.regs } = s))
    ∧ (∀ s u v : State, u = { s with raw := s.raw + 1 } → v = u.writeOn 2 4 →
      u.Wrote v 2 ∧ (v.optNext = none ∨ v.writerFree 2 = false → exec .opticalDrain s = .next (settle v))
      ∧ ∀ c x xs, v.optNext = some c → (v.chan c).fifo = x :: xs → v.writerFree 2 = true →
        ∃ t : State, exec .opticalDrain s = .next (settle t) ∧ t.chan c = { v.chan c with fifo := xs }
          ∧ t.hst.optOut = some { bits := x.encode, done := 0, since := v.raw } ∧ t.hst.chLast = c
          ∧ (∀ j, j ≠ c → t.chan j = v.chan j)
          ∧ { t with adc := v.adc, hst := { t.hst with optOut := v.hst.optOut, chLast := v.hst.chLast } } = v)
    ∧ (∀ (s : State) (r : Requester) (c : ChannelId), s.reaches r = true →
      ∀ v, v = (match (s.chan c.val).fifo with | [] => 0 | x :: _ => x.encode) →
      ∃ t : State, exec (.opticalPop0Read r c) s = .next (settle t) ∧ (t.chan c.val).fifo = (s.chan c.val).fifo.tail
        ∧ SMap.get (fun _ => 0) (t.chan c.val).pops (r.id) = v
        ∧ t.hst.replies = { req := r, addr := ADC.OPOP0.V.off + 16 * c.val, data := word v, poison := false } :: s.hst.replies
        ∧ (∀ j, j ≠ c.val → t.chan j = s.chan j) ∧ { t with adc := s.adc, hst := { t.hst with replies := s.hst.replies } } = s)
    ∧ (∀ (s : State) (r : Requester) (w : WindowId) (v : Word), s.opens r (winReg ADC.WCFG.SIZE w.val) = true →
      (bitsAt v.toNat 0 9 < 1 ∨ 256 < bitsAt v.toNat 0 9 →
        exec (.windowAlloc r w v) s = .next (settle (s.discard (winReg ADC.WCFG.SIZE w.val) r .range))
        ∧ exec (.windowFree r w v) s = .next (settle (s.discard (winReg ADC.WCFG.SIZE w.val) r .range)))
      ∧ (1 ≤ bitsAt v.toNat 0 9 → bitsAt v.toNat 0 9 ≤ 256 →
        (∀ b, s.fitAt (bitsAt v.toNat 0 9) = some b → (s.win w.val).alloc = false → (s.win w.val).moving = none →
          ∃ t : State, exec (.windowAlloc r w v) s = .next (settle t)
            ∧ t.win w.val = { s.win w.val with alloc := true, base := b, size := bitsAt v.toNat 0 9, moving := some (true, s.raw)
                                               nospace := false, wp := 0, rp := 0, held := 0 }
            ∧ t.f ADC.WCFG.SIZE (winAt w.val) = bitsAt v.toNat 0 9 ∧ t.on ADC.WCFG.DEST (winAt w.val) = v.getLsbD 29
            ∧ (∀ j, j ≠ w.val → t.win j = s.win j)
            ∧ RegsBut s t [winReg ADC.WCFG.SIZE w.val] ∧ { t with regs := s.regs, adc := s.adc } = s)
        ∧ ((s.win w.val).alloc = false → (s.win w.val).moving = none → s.fitAt (bitsAt v.toNat 0 9) = none →
          ∃ t : State, exec (.windowAlloc r w v) s = .next (settle t) ∧ t.win w.val = { s.win w.val with nospace := true }
            ∧ t.on ADC.IRQ_RAW.ALLOC_FAIL = true ∧ (∀ j, j ≠ w.val → t.win j = s.win j) ∧ { t with seenNow := s.seenNow, regs := s.regs, adc := s.adc } = s)
        ∧ ((s.win w.val).alloc = true ∨ (s.win w.val).moving ≠ none →
          exec (.windowAlloc r w v) s = .next (settle (s.discard (winReg ADC.WCFG.SIZE w.val) r .busy)))
        ∧ ((s.win w.val).moving = none → (s.win w.val).sending = false → s.writing w.val = false →
          ∃ t : State, exec (.windowFree r w v) s = .next (settle t)
            ∧ t.win w.val = (if (s.win w.val).alloc then
                { s.win w.val with alloc := false, moving := some (false, s.raw), wp := 0, rp := 0, held := 0 } else s.win w.val)
            ∧ ((s.win w.val).alloc = true → t.adc.frames = s.adc.frames.filter (fun f => f.1 ≠ w.val)
              ∧ t.f ADC.CNT_EVT.HI = counted s ADC.CNT_EVT.HI (s.adc.frames.filter (fun f => f.1 = w.val)).length
              ∧ (s.adc.frames.any (fun f => f.1 = w.val) = true → t.on ADC.IRQ_RAW.FRAME_LOST = true))
            ∧ (∀ j, j ≠ w.val → t.win j = s.win j) ∧ { t with seenNow := s.seenNow, regs := s.regs, adc := s.adc } = s)
        ∧ ((s.win w.val).moving ≠ none ∨ (s.win w.val).sending = true ∨ s.writing w.val = true →
          exec (.windowFree r w v) s = .next (settle (s.discard (winReg ADC.WCFG.SIZE w.val) r .busy)))))
    ∧ (∀ (s : State) (w : WindowId),
      ((s.win w.val).moving = none → exec (.windowTransferComplete w) s = .next (settle s))
      ∧ ∀ m, (s.win w.val).moving = some m →
        ∃ t : State, exec (.windowTransferComplete w) s = .next (settle t)
          ∧ t.win w.val = (if m.1 then { s.win w.val with moving := none } else { s.win w.val with moving := none, base := 0, size := 0 })
          ∧ t.raw = max s.raw (m.2 + (s.win w.val).size) ∧ (∀ j, j ≠ w.val → t.win j = s.win j)
          ∧ { t with raw := s.raw, adc := s.adc } = s)
    ∧ (∀ (s : State) (r : Requester) (w : WindowId) (v : Word), s.opens r (winReg ADC.WPTR.RP w.val) = true →
      (s.on ADC.WCFG.DEST (winAt w.val) = false → exec (.windowRpWrite r w v) s = .next (settle s))
      ∧ (s.on ADC.WCFG.DEST (winAt w.val) = true →
        ∀ ring, ring = (s.win w.val).size * 32 → ∀ to_, to_ = bitsAt v.toNat 16 13 →
        ((s.win w.val).alloc = true → to_ < ring → (to_ + ring - (s.win w.val).rp) % ring ≤ ((s.win w.val).wp + ring - (s.win w.val).rp) % ring →
          ∃ t : State, exec (.windowRpWrite r w v) s = .next (settle t) ∧ t.win w.val = { s.win w.val with rp := to_ }
            ∧ t.adc.frames = s.adc.frames.filter (fun f => f.1 ≠ w.val
                || decide ((f.2.1 + ring - to_) % ring < ((s.win w.val).wp + ring - to_) % ring))
            ∧ (∀ j, j ≠ w.val → t.win j = s.win j) ∧ { t with adc := s.adc } = s)
        ∧ ((s.win w.val).alloc = false ∨ ring ≤ to_ ∨ ((s.win w.val).wp + ring - (s.win w.val).rp) % ring < (to_ + ring - (s.win w.val).rp) % ring →
          exec (.windowRpWrite r w v) s = .next (settle (s.discard (winReg ADC.WPTR.RP w.val) r .range)))))
    ∧ (∀ (s : State) (r : Requester) (w : WindowId), s.opens r (winReg ADC.WOWN.HOLDER w.val) = true →
      (s.holderAt (winReg ADC.WOWN.HOLDER w.val) = 0 →
        (∃ t : State, exec (.windowClaim r w) s = .next (settle t) ∧ t.holderAt (winReg ADC.WOWN.HOLDER w.val) = r.id
          ∧ RegsBut s t [winReg ADC.WOWN.HOLDER w.val] ∧ { t with regs := s.regs } = s)
        ∧ exec (.windowRelease r w) s = .next (settle s))
      ∧ (s.holderAt (winReg ADC.WOWN.HOLDER w.val) = r.id →
        (∃ t : State, exec (.windowRelease r w) s = .next (settle t) ∧ t.holderAt (winReg ADC.WOWN.HOLDER w.val) = 0
          ∧ RegsBut s t [winReg ADC.WOWN.HOLDER w.val] ∧ { t with regs := s.regs } = s)
        ∧ exec (.windowClaim r w) s = .next (settle s))
      ∧ (s.holderAt (winReg ADC.WOWN.HOLDER w.val) ≠ 0 → s.holderAt (winReg ADC.WOWN.HOLDER w.val) ≠ r.id →
        (∃ t : State, exec (.windowClaim r w) s = .next (settle t) ∧ t.adc = s.adc ∧ t.on JNC.IRQ_RAW.CONFLICT = true
          ∧ t.on ADC.IRQ_RAW.OWNER_REJ = true ∧ t.holderAt (winReg ADC.WOWN.HOLDER w.val) = s.holderAt (winReg ADC.WOWN.HOLDER w.val))
        ∧ ∃ t : State, exec (.windowRelease r w) s = .next (settle t) ∧ t.adc = s.adc ∧ t.on JNC.IRQ_RAW.CONFLICT = true
          ∧ t.on ADC.IRQ_RAW.OWNER_REJ = true ∧ t.holderAt (winReg ADC.WOWN.HOLDER w.val) = s.holderAt (winReg ADC.WOWN.HOLDER w.val)))
    ∧ (∀ (s : State) (r : Requester) (v : Word), s.opens r ADC.CTL.EN_A.off = true →
      (s.adcWorks = false ∨ bitsAt v.toNat 0 3 = bitsAt (s.reg ADC.CTL.EN_A.off).toNat 0 3 →
        ∃ t : State, exec (.adcCtlWrite r v) s = .next (settle t) ∧ t.on ADC.CTL.EN_A = v.getLsbD 0 ∧ t.on ADC.CTL.EN_B = v.getLsbD 1
          ∧ t.on ADC.CTL.PAIR = v.getLsbD 2 ∧ t.on ADC.CTL.MMC_EN = v.getLsbD 3
          ∧ (v.getLsbD 2 ≠ s.on ADC.CTL.PAIR → ∀ q : Fin 3, (t.stream q.val).last = none)
          ∧ (v.getLsbD 2 = s.on ADC.CTL.PAIR →
            (t.stream 0).last = (if v.getLsbD 0 && !s.on ADC.CTL.EN_A then none else (s.stream 0).last)
            ∧ (t.stream 1).last = (if v.getLsbD 1 && !s.on ADC.CTL.EN_B then none else (s.stream 1).last))
          ∧ RegsBut s t [ADC.CTL.EN_A.off] ∧ { t with regs := s.regs, adc := s.adc } = s)
      ∧ (s.adcWorks = true → bitsAt v.toNat 0 3 ≠ bitsAt (s.reg ADC.CTL.EN_A.off).toNat 0 3 →
        ∃ t : State, exec (.adcCtlWrite r v) s = .next (settle t) ∧ t.on ADC.CTL.EN_A = s.on ADC.CTL.EN_A
          ∧ t.on ADC.CTL.EN_B = s.on ADC.CTL.EN_B ∧ t.on ADC.CTL.PAIR = s.on ADC.CTL.PAIR ∧ t.on ADC.CTL.MMC_EN = v.getLsbD 3
          ∧ t.adc = s.adc))
    ∧ (∀ s : State, s.aborting ADC.page.base = false → exec .adcAbort s = .next (settle s))
    ∧ ∀ s : State, s.aborting ADC.page.base = true →
      ∃ t : State, exec .adcAbort s = .next (settle t)
        ∧ (∀ q : Fin 3, (t.sqr q.val).run = none ∧ (t.sqr q.val).tails = [] ∧ (t.sqr q.val).queue = [] ∧ (t.sqr q.val).given = []
            ∧ (t.sqr q.val).loads = [])
        ∧ (∀ w : WindowId, t.holderAt (winReg ADC.WOWN.HOLDER w.val) = 0)
        ∧ (∀ q : Fin 3, (t.stream q.val).est = (s.stream q.val).est ∧ (t.stream q.val).epoch = (s.stream q.val).epoch
            ∧ (t.sqr q.val).num = (s.sqr q.val).num)
        ∧ (∀ w : WindowId, (t.win w.val).alloc = (s.win w.val).alloc ∧ (t.win w.val).rp = (s.win w.val).rp)
        ∧ t.trk = s.trk ∧ t.raw = s.raw ∧ t.rul = s.rul
/-! ### Shunters (file 10) -/

/-- R243 to R246, R248 to R250, R254, R257: what each instruction does at its tick, and that a command of another instruction
than the one at the PC does nothing. The PC goes to its target or the following word and the next tick comes one divider period
later; AT and WAIT suspend the shunter; SEND, TAKE, LOAD and STORE move the wagons and the FIFOs; an empty or full FIFO stalls,
or is passed by a non-blocking form; HALT and a reserved instruction halt it.
The model's choices in it: log entries 2, 5, 22 and 43. -/
def Obligations.ShunterInstructions : Prop :=
  ∀ (s : State) (n : ShunterId) (w : Nat) (pins : Byte),
    let x := s.shunter n.val
    let b := s.shRead n.val
    let div := s.shDiv n.val
    let pcs := x.pc + 1
    (∀ p ∈ [(ShOp.br, Instr.shBr n pins), (.loop, .shLoop n), (.at_, .shAt n), (.wait, .shWait n pins), (.send, .shSend n),
          (.take, .shTake n pins), (.load, .shLoad n), (.store, .shStore n), (.copy, .shCopy n pins), (.ldi, .shLdi n),
          (.add, .shAdd n), (.sig, .shSig n), (.lcnt, .shLcnt n), (.halt, .shHalt n), (.reserved, .shReserved n)],
        x.st ≠ .running ∨ s.mode = .halt ∨ shOp (s.shFetch n.val) ≠ p.1 → exec p.2 s = .next (settle s))
    ∧ (s.shunts n.val .br w →
      ∃ t : State, exec (.shBr n pins) s = .next (settle t)
        ∧ t.shunter n.val = x.ticked div (if b.shCond n.val x (bitsAt w 8 4) pins.toNat then bitsAt w 0 8 else pcs)
        ∧ (bitsAt w 8 4 = 0 → (t.shunter n.val).pc = bitsAt w 0 8)
        ∧ (∀ j, j ≠ n.val → t.shunter j = s.shunter j) ∧ { t with shn := s.shn, lines := s.lines } = b)
    ∧ (s.shunts n.val .loop w →
      ∃ t : State, exec (.shLoop n) s = .next (settle t)
        ∧ (bitsAt w 11 1 = 0 → x.l0 ≠ 0 → t.shunter n.val = { x with l0 := x.l0 - 1 }.ticked div (bitsAt w 0 8))
        ∧ (bitsAt w 11 1 = 0 → x.l0 = 0 → t.shunter n.val = x.ticked div pcs)
        ∧ (bitsAt w 11 1 = 1 → x.l1 ≠ 0 → t.shunter n.val = { x with l1 := x.l1 - 1 }.ticked div (bitsAt w 0 8))
        ∧ (bitsAt w 11 1 = 1 → x.l1 = 0 → t.shunter n.val = x.ticked div pcs)
        ∧ (∀ j, j ≠ n.val → t.shunter j = s.shunter j) ∧ { t with shn := s.shn } = b)
    ∧ (s.shunts n.val .at_ w →
      ∃ t : State, exec (.shAt n) s = .next (settle t) ∧ (t.shunter n.val).pc = pcs % 256
        ∧ (s.cycAt x.cycle + 9 ≤ extendT x.t (s.cycAt x.cycle) → (t.shunter n.val).st = .atWait
            ∧ (t.shunter n.val).target = some (extendT x.t (s.cycAt x.cycle)) ∧ (t.shunter n.val).late = false ∧ t.regs = b.regs)
        ∧ (extendT x.t (s.cycAt x.cycle) < s.cycAt x.cycle + 9 → (t.shunter n.val).st = .running
            ∧ (t.shunter n.val).tick = (x.cycle + 1) * 256 ∧ (t.shunter n.val).late = true ∧ t.on SHN.IRQ_RAW.LATE (pgAt n.val) = true)
        ∧ { t.shunter n.val with st := x.st, pc := x.pc, tick := x.tick, target := x.target, wait := x.wait, late := x.late } = x
        ∧ (∀ j, j ≠ n.val → t.shunter j = s.shunter j) ∧ { t with seenNow := b.seenNow, regs := b.regs, shn := s.shn } = b)
    ∧ (s.shunts n.val .wait w →
      let pol : Bool := decide (bitsAt w 11 1 = 1)
      let dl := if bitsAt w 7 1 = 1 then some (extendT x.t (s.cycAt x.cycle)) else none
      ∃ t : State, exec (.shWait n pins) s = .next (settle t) ∧ (t.shunter n.val).pc = pcs % 256
        ∧ (b.pinSeen n.val (bitsAt w 8 3) (x.cycle + 1) (bitsAt pins.toNat (bitsAt w 8 3) 1 = 1) = pol →
            (t.shunter n.val).st = .running ∧ (t.shunter n.val).tick = (x.cycle + 2) * 256 ∧ (t.shunter n.val).tmo = false
            ∧ (∀ u, dl = some u → s.rawCycleOf u ≤ x.cycle + 1 → t.on SHN.IRQ_RAW.TIMEOUT_RACE (pgAt n.val) = true))
        ∧ (b.pinSeen n.val (bitsAt w 8 3) (x.cycle + 1) (bitsAt pins.toNat (bitsAt w 8 3) 1 = 1) ≠ pol →
            (t.shunter n.val).st = .pinWait ∧ t.regs = b.regs
            ∧ (t.shunter n.val).wait = some { pin := bitsAt w 8 3, pol := pol, since := x.cycle, dl := dl })
        ∧ { t.shunter n.val with st := x.st, pc := x.pc, tick := x.tick, target := x.target, wait := x.wait, tmo := x.tmo } = x
        ∧ (∀ j, j ≠ n.val → t.shunter j = s.shunter j) ∧ { t with seenNow := b.seenNow, regs := b.regs, shn := s.shn, lines := s.lines } = b)
    ∧ (s.shunts n.val .send w →
      (s.shOn n.val SHN.SHCFG.AUTOLOAD = true → x.sf = 0 → x.tx = [] →
        ∃ t : State, exec (.shSend n) s = .next (settle t) ∧ t.shunter n.val = { x with st := .loadStall, cfg := s.shCfg n.val }
          ∧ t.f SHN.CNT_EVT.HI (pgAt n.val) = counted s SHN.CNT_EVT.HI 1 (pgAt n.val)
          ∧ (∀ j, j ≠ n.val → t.shunter j = s.shunter j) ∧ { t with shn := s.shn, seenNow := b.seenNow, regs := b.regs } = b)
      ∧ ((s.shOn n.val SHN.SHCFG.AUTOLOAD && decide (x.sf = 0) && x.tx.isEmpty) = false →
        -- the wagon that is sent from, the bits sent and their value
        let y := if s.shOn n.val SHN.SHCFG.AUTOLOAD = true ∧ x.sf = 0 then
            { x with sw := x.tx.headD 0, sf := s.slen n.val, nodata := false, tx := x.tx.tail } else x
        let m := min (len32 (bitsAt w 4 5)) y.sf
        let v := (y.sendValue (len32 (bitsAt w 4 5)) (s.slen n.val) (s.shOn n.val SHN.SHCFG.SMSB)).1
        let z := { y with sf := y.sf - m }
        (∀ j, j < m → v.testBit j = (if s.shOn n.val SHN.SHCFG.SMSB = true then y.sw.getLsbD (y.sf - 1 - j)
            else y.sw.getLsbD (s.slen n.val - y.sf + j)))
        ∧ v < 2 ^ m
        ∧ ∃ t : State, exec (.shSend n) s = .next (settle t)
          ∧ (bitsAt w 9 3 = 1 → t.shunter n.val = { z with a := word v }.ticked div pcs)
          ∧ (bitsAt w 9 3 = 2 → t.shunter n.val = { z with b := word v }.ticked div pcs)
          ∧ (bitsAt w 9 3 = 3 → t.shunter n.val = { z with t := word v }.ticked div pcs)
          ∧ (bitsAt w 9 3 = 4 → t.shunter n.val = z.ticked div pcs)
          ∧ (bitsAt w 9 3 = 5 → t.shunter n.val = { z with l0 := v % 65536 }.ticked div pcs)
          ∧ (bitsAt w 9 3 = 6 → t.shunter n.val = { z with l1 := v % 65536 }.ticked div pcs)
          ∧ (bitsAt w 9 3 = 0 →
              (t.shunter n.val).pins = sendPins x.pins v (s.shF n.val SHN.PINCFG.SBASE) (min (len32 (bitsAt w 4 5)) 8)
              ∧ (x.cycle + 8, (t.shunter n.val).pins, x.drv) ∈ (t.shunter n.val).pipe
              ∧ { t.shunter n.val with pins := x.pins, pipe := x.pipe } = z.ticked div pcs)
          ∧ (∀ j, j ≠ n.val → t.shunter j = s.shunter j) ∧ { t with shn := s.shn } = b))
    ∧ (s.shunts n.val .take w →
      -- the levels at the pins, the source and the bits taken from it
      let lv := b.pinsSeen n.val x.cycle pins.toNat
      let v := if bitsAt w 9 3 = 0 then takePins lv (s.shF n.val SHN.PINCFG.TBASE) 8 else if bitsAt w 9 3 = 1 then x.a.toNat
        else if bitsAt w 9 3 = 2 then x.b.toNat else if bitsAt w 9 3 = 3 then 0 else 2 ^ 32 - 1
      let k := len32 (bitsAt w 4 5)
      let y := x.gather (v % 2 ^ k) k (s.shOn n.val SHN.SHCFG.RMSB)
      let full : Bool := s.shOn n.val SHN.SHCFG.AUTOSTORE && decide (len32 (s.shF n.val SHN.SHCFG.RLEN) ≤ min 32 (x.rf + k))
      (bitsAt w 9 3 = 0 → ∀ j, j < 8 → v.testBit j = lv.testBit ((s.shF n.val SHN.PINCFG.TBASE + j) % 8))
      ∧ y.rf = min 32 (x.rf + k)
      ∧ (∀ j, j < 32 → y.rw.getLsbD j = (if s.shOn n.val SHN.SHCFG.RMSB = true then
            (if j < k then v.testBit (k - 1 - j) else x.rw.getLsbD (j - k))
          else if x.rf ≤ j ∧ j < x.rf + k then v.testBit (j - x.rf) else x.rw.getLsbD j))
      ∧ (full = false →
        ∃ t : State, exec (.shTake n pins) s = .next (settle t) ∧ t.shunter n.val = y.ticked div pcs
          ∧ (∀ j, j ≠ n.val → t.shunter j = s.shunter j) ∧ { t with shn := s.shn, lines := s.lines } = b)
      ∧ (full = true → x.rx.length < 8 →
        ∃ t : State, exec (.shTake n pins) s = .next (settle t)
          ∧ t.shunter n.val = { y with rx := x.rx ++ [y.rw], rw := 0, rf := 0 }.ticked div pcs
          ∧ (∀ j, j ≠ n.val → t.shunter j = s.shunter j) ∧ { t with shn := s.shn, lines := s.lines } = b)
      ∧ (full = true → 8 ≤ x.rx.length →
        ∃ t : State, exec (.shTake n pins) s = .next (settle t) ∧ t.shunter n.val = { y with st := .storeStall, cfg := s.shCfg n.val }
          ∧ t.f SHN.CNT_EVT.HI (pgAt n.val) = counted s SHN.CNT_EVT.HI 1 (pgAt n.val)
          ∧ (∀ j, j ≠ n.val → t.shunter j = s.shunter j) ∧ { t with seenNow := b.seenNow, regs := b.regs, shn := s.shn, lines := s.lines } = b))
    ∧ (s.shunts n.val .load w →
      (∀ v vs, x.tx = v :: vs →
        ∃ t : State, exec (.shLoad n) s = .next (settle t)
          ∧ t.shunter n.val = { x with sw := v, sf := s.slen n.val, nodata := false, tx := vs }.ticked div pcs
          ∧ (∀ j, j ≠ n.val → t.shunter j = s.shunter j) ∧ { t with shn := s.shn } = b)
      ∧ (x.tx = [] → w % 2 = 1 →
        ∃ t : State, exec (.shLoad n) s = .next (settle t) ∧ t.shunter n.val = { x with nodata := true }.ticked div pcs
          ∧ (∀ j, j ≠ n.val → t.shunter j = s.shunter j) ∧ { t with shn := s.shn } = b)
      ∧ (x.tx = [] → w % 2 = 0 →
        ∃ t : State, exec (.shLoad n) s = .next (settle t) ∧ t.shunter n.val = { x with st := .loadStall, cfg := s.shCfg n.val }
          ∧ t.f SHN.CNT_EVT.HI (pgAt n.val) = counted s SHN.CNT_EVT.HI 1 (pgAt n.val)
          ∧ (∀ j, j ≠ n.val → t.shunter j = s.shunter j) ∧ { t with shn := s.shn, seenNow := b.seenNow, regs := b.regs } = b))
    ∧ (s.shunts n.val .store w →
      (x.rx.length < 8 →
        ∃ t : State, exec (.shStore n) s = .next (settle t)
          ∧ t.shunter n.val = { x with rx := x.rx ++ [x.rw], rw := 0, rf := 0 }.ticked div pcs
          ∧ (∀ j, j ≠ n.val → t.shunter j = s.shunter j) ∧ { t with shn := s.shn } = b)
      ∧ (8 ≤ x.rx.length → w % 2 = 1 →
        ∃ t : State, exec (.shStore n) s = .next (settle t) ∧ t.shunter n.val = { x with rw := 0, rf := 0 }.ticked div pcs
          ∧ t.on SHN.IRQ_RAW.RX_DROP (pgAt n.val) = true
          ∧ t.f SHN.CNT_EVT.LO (pgAt n.val) = counted s SHN.CNT_EVT.LO 1 (pgAt n.val)
          ∧ (∀ j, j ≠ n.val → t.shunter j = s.shunter j) ∧ { t with shn := s.shn, seenNow := b.seenNow, regs := b.regs } = b)
      ∧ (8 ≤ x.rx.length → w % 2 = 0 →
        ∃ t : State, exec (.shStore n) s = .next (settle t) ∧ t.shunter n.val = { x with st := .storeStall, cfg := s.shCfg n.val }
          ∧ t.f SHN.CNT_EVT.HI (pgAt n.val) = counted s SHN.CNT_EVT.HI 1 (pgAt n.val)
          ∧ (∀ j, j ≠ n.val → t.shunter j = s.shunter j) ∧ { t with shn := s.shn, seenNow := b.seenNow, regs := b.regs } = b))
    ∧ (s.shunts n.val .copy w →
      let c := bitsAt w 0 4
      let u := if c = 0 then x.a.toNat else if c = 1 then x.b.toNat else if c = 2 then x.t.toNat else if c = 3 then x.sw.toNat
        else if c = 4 then x.rw.toNat else if c = 5 then b.pinsSeen n.val x.cycle pins.toNat else if c = 6 then s.cycAt x.cycle % 2 ^ 32
        else if c = 7 then (s.f TBU.NEXTSEC_LO.NEXTSEC + s.f TBU.NEXTSEC_HI.NEXTSEC * 2 ^ 32) / 64 % 2 ^ 32
        else if c = 9 then x.l0 else if c = 10 then x.l1 else 0
      let v := copyOp (bitsAt w 6 2) u
      ∃ t : State, exec (.shCopy n pins) s = .next (settle t)
        ∧ (bitsAt w 8 4 = 0 → t.shunter n.val = { x with a := word v }.ticked div pcs)
        ∧ (bitsAt w 8 4 = 1 → t.shunter n.val = { x with b := word v }.ticked div pcs)
        ∧ (bitsAt w 8 4 = 2 → t.shunter n.val = { x with t := word v }.ticked div pcs)
        ∧ (bitsAt w 8 4 = 3 → t.shunter n.val = { x with sw := word v, sf := s.slen n.val }.ticked div pcs)
        ∧ (bitsAt w 8 4 = 4 → t.shunter n.val = { x with rw := word v, rf := 0 }.ticked div pcs)
        ∧ (bitsAt w 8 4 = 5 → (t.shunter n.val).pins = maskIn x.pins v (s.shF n.val SHN.PINCFG.PUTMASK)
            ∧ (x.cycle + 8, (t.shunter n.val).pins, x.drv) ∈ (t.shunter n.val).pipe
            ∧ { t.shunter n.val with pins := x.pins, pipe := x.pipe } = x.ticked div pcs)
        ∧ (bitsAt w 8 4 = 6 → t.shunter n.val = x.ticked div v)
        ∧ (bitsAt w 8 4 = 7 → t.shunter n.val = { x with l0 := v % 65536 }.ticked div pcs)
        ∧ (bitsAt w 8 4 = 8 → t.shunter n.val = { x with l1 := v % 65536 }.ticked div pcs)
        ∧ (bitsAt w 6 2 = 0 → v = u) ∧ (bitsAt w 6 2 = 1 → v = 2 ^ 32 - 1 - u) ∧ (bitsAt w 6 2 = 3 → v = (2 ^ 32 - u) % 2 ^ 32)
        ∧ (bitsAt w 6 2 = 2 → ∀ j, j < 4 → bitsAt v (8 * j) 8 = bitsAt u (8 * (3 - j)) 8)
        ∧ (∀ j, j ≠ n.val → t.shunter j = s.shunter j) ∧ { t with shn := s.shn, lines := s.lines } = b)
    ∧ (s.shunts n.val .ldi w →
      ∃ t : State, exec (.shLdi n) s = .next (settle t)
        ∧ (bitsAt w 10 2 = 0 → (t.shunter n.val).pins = maskIn x.pins (bitsAt w 0 8) (s.shF n.val SHN.PINCFG.PUTMASK)
            ∧ (x.cycle + 8, (t.shunter n.val).pins, x.drv) ∈ (t.shunter n.val).pipe
            ∧ { t.shunter n.val with pins := x.pins, pipe := x.pipe } = x.ticked div pcs)
        ∧ (bitsAt w 10 2 = 1 → t.shunter n.val = { x with a := word (bitsAt w 0 8) }.ticked div pcs)
        ∧ (bitsAt w 10 2 = 2 → t.shunter n.val = { x with b := word (bitsAt w 0 8) }.ticked div pcs)
        ∧ (bitsAt w 10 2 = 3 → (t.shunter n.val).drv = bitsAt w 0 8
            ∧ (x.cycle + 8, x.pins, bitsAt w 0 8) ∈ (t.shunter n.val).pipe
            ∧ { t.shunter n.val with drv := x.drv, pipe := x.pipe } = x.ticked div pcs)
        ∧ (∀ j, j ≠ n.val → t.shunter j = s.shunter j) ∧ { t with shn := s.shn } = b)
    ∧ (s.shunts n.val .add w →
      let v : Word := if bitsAt w 8 2 = 0 then x.a else if bitsAt w 8 2 = 1 then x.b else if bitsAt w 8 2 = 2 then x.sw
        else word (bitsAt w 0 8)
      ∃ t : State, exec (.shAdd n) s = .next (settle t)
        ∧ (bitsAt w 10 2 = 0 → t.shunter n.val = { x with a := x.a + v }.ticked div pcs)
        ∧ (bitsAt w 10 2 = 1 → t.shunter n.val = { x with b := x.b + v }.ticked div pcs)
        ∧ (bitsAt w 10 2 = 2 → t.shunter n.val = { x with t := x.t + v }.ticked div pcs)
        ∧ (∀ j, j ≠ n.val → t.shunter j = s.shunter j) ∧ { t with shn := s.shn } = b)
    ∧ (s.shunts n.val .sig w →
      ∃ t : State, exec (.shSig n) s = .next (settle t) ∧ t.shunter n.val = x.ticked div pcs
        ∧ t.f SHN.SIGWORD.V (pgAt n.val) = bitsAt w 0 8 * 2 ^ 24 + x.a.toNat % 2 ^ 24 ∧ t.on SHN.IRQ_RAW.SIG (pgAt n.val) = true
        ∧ t.signals = s.signals ++ [{
            kind := 8, idx := n.val, g1 := bitsAt w 0 8 * 2 ^ 24 + x.a.toNat % 2 ^ 24, s0 := s.vtAt (x.cycle * 64), since := b.raw }]
        ∧ (∀ j, j ≠ n.val → t.shunter j = s.shunter j) ∧ { t with seenNow := b.seenNow, regs := b.regs, shn := s.shn, signals := s.signals } = b)
    ∧ (s.shunts n.val .lcnt w →
      ∃ t : State, exec (.shLcnt n) s = .next (settle t)
        ∧ (bitsAt w 11 1 = 0 → t.shunter n.val = { x with l0 := bitsAt w 0 11 }.ticked div pcs)
        ∧ (bitsAt w 11 1 = 1 → t.shunter n.val = { x with l1 := bitsAt w 0 11 }.ticked div pcs)
        ∧ (∀ j, j ≠ n.val → t.shunter j = s.shunter j) ∧ { t with shn := s.shn } = b)
    ∧ (s.shunts n.val .halt w →
      ∃ t : State, exec (.shHalt n) s = .next (settle t)
        ∧ t.shunter n.val = { x with pc := pcs % 256, st := .halted, rsn := 1, target := none, wait := none }
        ∧ t.on SHN.IRQ_RAW.HALTED (pgAt n.val) = true
        ∧ (∀ j, j ≠ n.val → t.shunter j = s.shunter j) ∧ { t with seenNow := b.seenNow, regs := b.regs, shn := s.shn } = b)
    ∧ (s.shunts n.val .reserved w →
      ∃ t : State, exec (.shReserved n) s = .next (settle t)
        ∧ t.shunter n.val = { x with st := .halted, rsn := 2, target := none, wait := none }
        ∧ t.on SHN.IRQ_RAW.ILLEGAL (pgAt n.val) = true ∧ t.on SHN.IRQ_RAW.HALTED (pgAt n.val) = true
        ∧ (∀ j, j ≠ n.val → t.shunter j = s.shunter j) ∧ { t with seenNow := b.seenNow, regs := b.regs, shn := s.shn } = b)

/-- R244 to R246, R250 to R253: AT resumes eight cycles before its target; a wait resolves by its pin or by its deadline; a
stalled instruction completes at the first tick after the cycle in which its FIFO changed; TXF and RXF; the two DMAs, which wait
for a cycle of the siding.
The model's choices in it: log entries 2, 19 and 22. -/
def Obligations.ShunterWaitsAndFifos : Prop :=
  (∀ (s : State) (n : ShunterId), (s.shunter n.val).target = none ∨ (s.shunter n.val).st ≠ .atWait ∨ s.mode = .halt →
      exec (.shAtResolve n) s = .next (settle s))
    ∧ (∀ (s : State) (n : ShunterId), ∀ u, (s.shunter n.val).target = some u → (s.shunter n.val).st = .atWait → s.mode ≠ .halt →
      ∃ t : State, exec (.shAtResolve n) s = .next (settle t) ∧ t.raw = max s.raw (s.rawCycleOf (u - 8))
        ∧ t.shunter n.val = { s.shunter n.val with
            st := .running, tick := t.raw * 256, target := none, wait := none, late := decide (s.rawCycleOf (u - 8) < s.raw) }
        ∧ (s.raw ≤ s.rawCycleOf (u - 8) → t.regs = s.regs)
        ∧ (s.rawCycleOf (u - 8) < s.raw → t.on SHN.IRQ_RAW.LATE (pgAt n.val) = true)
        ∧ (∀ j, j ≠ n.val → t.shunter j = s.shunter j) ∧ { t with raw := s.raw, seenNow := s.seenNow, regs := s.regs, shn := s.shn } = s)
    ∧ (∀ (s : State) (n : ShunterId),
      ((s.shunter n.val).wait = none ∨ s.mode = .halt →
        exec (.shWaitPin n) s = .next (settle s) ∧ exec (.shWaitDeadline n) s = .next (settle s))
      ∧ ∀ w, (s.shunter n.val).wait = some w → s.mode ≠ .halt →
        (∀ r, r = max s.raw (w.since + 1) → ∀ a, a = ({ s with raw := r } : State) →
          (a.pinSeen n.val w.pin r w.pol ≠ w.pol → exec (.shWaitPin n) s = .next (settle a))
          ∧ (a.pinSeen n.val w.pin r w.pol = w.pol →
            ∃ t : State, exec (.shWaitPin n) s = .next (settle t)
              ∧ ((s.shDeadline w).all (fun d => decide (r ≤ d)) = true → t.shunter n.val = { s.shunter n.val with
                  st := .running, tick := (r + 1) * 256, target := none, wait := none, tmo := false })
              ∧ (s.shDeadline w = some r → t.on SHN.IRQ_RAW.TIMEOUT_RACE (pgAt n.val) = true)
              ∧ (s.shDeadline w ≠ some r → t.regs = s.regs)
              ∧ (∀ d, s.shDeadline w = some d → d < r → t.shunter n.val = { s.shunter n.val with
                  st := .running, tick := (d + 1) * 256, target := none, wait := none, tmo := true })
              ∧ (∀ j, j ≠ n.val → t.shunter j = s.shunter j) ∧ { t with seenNow := s.seenNow, regs := s.regs, lines := s.lines, shn := s.shn } = a))
        ∧ (s.shDeadline w = none → exec (.shWaitDeadline n) s = .next (settle s))
        ∧ ∀ d, s.shDeadline w = some d → ∀ r, r = max s.raw d →
          ∃ t : State, exec (.shWaitDeadline n) s = .next (settle t)
            ∧ t.shunter n.val = { s.shunter n.val with
                st := .running, tick := (r + 1) * 256, target := none, wait := none
                tmo := decide (({ s with raw := r } : State).pinThen n.val w.pin r ≠ some w.pol) }
            ∧ (({ s with raw := r } : State).pinThen n.val w.pin r = some w.pol → t.on SHN.IRQ_RAW.TIMEOUT_RACE (pgAt n.val) = true)
            ∧ (({ s with raw := r } : State).pinThen n.val w.pin r ≠ some w.pol → t.regs = s.regs)
            ∧ (∀ j, j ≠ n.val → t.shunter j = s.shunter j) ∧ { t with seenNow := s.seenNow, regs := s.regs, shn := s.shn } = { s with raw := r })
    ∧ (∀ (s : State) (n : ShunterId),
      ((s.shunter n.val).st ≠ .loadStall ∨ s.mode = .halt ∨ (s.shunter n.val).tx = [] →
        exec (.shLoadStallEnd n) s = .next (settle s))
      ∧ ((s.shunter n.val).st ≠ .storeStall ∨ s.mode = .halt ∨ 8 ≤ (s.shunter n.val).rx.length →
        exec (.shStoreStallEnd n) s = .next (settle s)))
    ∧ (∀ (s : State) (n : ShunterId), s.mode ≠ .halt → ∀ x, x = s.shunter n.val → ∀ u, u = s.setShCfg n.val x.cfg →
        ∀ div, div = s.shDiv n.val →
      (x.st = .loadStall → ∀ y, y = x.tickFrom div (x.fed + 1) →
        (div ≠ 0 → (x.fed + 1) * 256 ≤ y.tick ∧ x.tick ≤ y.tick ∧ (y.tick - x.tick) % div = 0
          ∧ (y.tick = x.tick ∨ y.tick < (x.fed + 1) * 256 + div))
        ∧ (∀ v vs, x.tx = v :: vs → shOp (s.shFetch n.val) = .load →
          ∃ t : State, exec (.shLoadStallEnd n) s = .next (settle t)
            ∧ t.shunter n.val = { x with tick := y.tick, st := .running, sw := v, sf := u.slen n.val, nodata := false, tx := vs }.ticked
                div (x.pc + 1)
            ∧ t.raw = max s.raw y.cycle ∧ (∀ j, j ≠ n.val → t.shunter j = s.shunter j)
            ∧ RegsBut s t [] ∧ { t with raw := s.raw, shn := s.shn, regs := s.regs } = s)
        ∧ (∀ v vs, x.tx = v :: vs → shOp (s.shFetch n.val) = .send → u.shOn n.val SHN.SHCFG.AUTOLOAD = true → x.sf = 0 →
          ∃ t : State, exec (.shLoadStallEnd n) s = .next (settle t) ∧ (t.shunter n.val).st = .running
            ∧ (t.shunter n.val).sw = v ∧ (t.shunter n.val).tx = vs ∧ (t.shunter n.val).pc = (x.pc + 1) % 256
            ∧ (t.shunter n.val).sf = u.slen n.val - min (len32 (bitsAt (s.shFetch n.val) 4 5)) (u.slen n.val)
            ∧ (t.shunter n.val).tick = y.tick + div
            ∧ t.raw = max s.raw y.cycle ∧ (∀ j, j ≠ n.val → t.shunter j = s.shunter j)
            ∧ RegsBut s t [] ∧ { t with raw := s.raw, shn := s.shn, regs := s.regs } = s))
      ∧ (x.st = .storeStall → ∀ y, y = x.tickFrom div (x.freed + 1) →
        (div ≠ 0 → (x.freed + 1) * 256 ≤ y.tick ∧ x.tick ≤ y.tick ∧ (y.tick - x.tick) % div = 0
          ∧ (y.tick = x.tick ∨ y.tick < (x.freed + 1) * 256 + div))
        ∧ (x.rx.length < 8 → shOp (s.shFetch n.val) = .store ∨ shOp (s.shFetch n.val) = .take →
          ∃ t : State, exec (.shStoreStallEnd n) s = .next (settle t)
            ∧ t.shunter n.val = { x with tick := y.tick, st := .running, rx := x.rx ++ [x.rw], rw := 0, rf := 0 }.ticked div (x.pc + 1)
            ∧ t.raw = max s.raw y.cycle ∧ (∀ j, j ≠ n.val → t.shunter j = s.shunter j)
            ∧ RegsBut s t [] ∧ { t with raw := s.raw, shn := s.shn, regs := s.regs } = s)))
    ∧ (∀ (s : State) (r : Requester) (n : ShunterId) (v : Word), s.opens r (shnReg SHN.TXF.V n.val) = true →
      (s.shOn n.val SHN.TXDMA_LEN.EN = false → 0 < (s.shunter n.val).txFree →
        ∃ t : State, exec (.txfWrite r n v) s = .next (settle t)
          ∧ t.shunter n.val = { s.shunter n.val with
              tx := (s.shunter n.val).tx ++ [v], fed := if (s.shunter n.val).tx = [] then s.raw else (s.shunter n.val).fed }
          ∧ (∀ j, j ≠ n.val → t.shunter j = s.shunter j) ∧ { t with shn := s.shn } = s)
      ∧ (s.shOn n.val SHN.TXDMA_LEN.EN = true →
        exec (.txfWrite r n v) s = .next (settle (s.discard (shnReg SHN.TXF.V n.val) r .mode)))
      ∧ (s.shOn n.val SHN.TXDMA_LEN.EN = false → (s.shunter n.val).txFree = 0 →
        exec (.txfWrite r n v) s
          = .next (settle ((s.shIrq n.val SHN.IRQ_RAW.TX_OVF).discard (shnReg SHN.TXF.V n.val) r .busy))))
    ∧ (∀ (s : State) (r : Requester) (n : ShunterId), s.reaches r = true →
      ∀ a, a = shnReg SHN.RXF.V n.val →
      (s.shOn n.val SHN.RXDMA_CFG.EN = true →
        exec (.rxfRead r n) s = .next (settle ((s.discard a r .mode).answer r a 0)))
      ∧ (s.shOn n.val SHN.RXDMA_CFG.EN = false → (s.shunter n.val).rx = [] → exec (.rxfRead r n) s = .next (settle (s.answer r a 0)))
      ∧ (s.shOn n.val SHN.RXDMA_CFG.EN = false → ∀ v vs, (s.shunter n.val).rx = v :: vs →
        ∃ t : State, exec (.rxfRead r n) s = .next (settle t)
          ∧ t.shunter n.val = { s.shunter n.val with
              rx := vs, freed := if 8 ≤ (s.shunter n.val).rx.length then s.raw else (s.shunter n.val).freed }
          ∧ t.hst.replies = { req := r, addr := a, data := v, poison := false } :: s.hst.replies
          ∧ (∀ j, j ≠ n.val → t.shunter j = s.shunter j) ∧ { t with shn := s.shn, hst := { t.hst with replies := s.hst.replies } } = s))
    ∧ (∀ (s : State) (n : ShunterId),
      ∀ go : Bool, go = (s.shOn n.val SHN.TXDMA_LEN.EN && decide (0 < (s.shunter n.val).txFree)
        && decide ((s.shunter n.val).flight.length < 2) && decide (0 < s.shF n.val SHN.TXDMA_LEN.LEN)
        && (decide ((s.shunter n.val).issued < s.shF n.val SHN.TXDMA_LEN.LEN) || s.shOn n.val SHN.TXDMA_LEN.LOOP)) →
      (go = false → exec (.txdmaRead n) s = .next (settle s))
      ∧ (go = true → ∀ k, k = (s.shunter n.val).issued % s.shF n.val SHN.TXDMA_LEN.LEN →
        ∀ i, i = s.txWord n.val k % 2 ^ 19 →
        (s.dmaReady (i / 32768) (9 + n.val) = true →
          ∃ t : State, exec (.txdmaRead n) s = .next (settle t)
            ∧ t.shunter n.val = { s.shunter n.val with
                flight := (s.shunter n.val).flight ++ [(s.logPeek i, true)], issued := k + 1 }
            ∧ (∀ j, j ≠ n.val → t.shunter j = s.shunter j)
            ∧ { t with shn := s.shn, mem := s.mem, regs := s.regs, pwr := s.pwr } = s)
        ∧ (s.dmaReady (i / 32768) (9 + n.val) = false →
          ∃ t : State, exec (.txdmaRead n) s = .next (settle t) ∧ s.dmaWait (i / 32768) (9 + n.val) ∈ t.mem.waits
            ∧ t.mem.log = s.mem.log ∧ { t with mem := s.mem } = s)))
    ∧ (∀ (s : State) (n : ShunterId), (s.shunter n.val).flight = [] → exec (.txdmaStore n) s = .next (settle s))
    ∧ (∀ (s : State) (n : ShunterId), ∀ p vs, (s.shunter n.val).flight = p :: vs →
      ∀ x, x = { s.shunter n.val with
          flight := vs, tx := (s.shunter n.val).tx ++ [p.1]
          fed := if (s.shunter n.val).tx = [] then s.raw else (s.shunter n.val).fed } →
      (p.2 = false →
        ∃ t : State, exec (.txdmaStore n) s = .next (settle t) ∧ t.shunter n.val = x
          ∧ (∀ j, j ≠ n.val → t.shunter j = s.shunter j) ∧ { t with shn := s.shn } = s)
      ∧ (p.2 = true → x.pos + 1 < s.shF n.val SHN.TXDMA_LEN.LEN →
        ∃ t : State, exec (.txdmaStore n) s = .next (settle t) ∧ t.shunter n.val = { x with pos := x.pos + 1 }
          ∧ (∀ j, j ≠ n.val → t.shunter j = s.shunter j) ∧ { t with shn := s.shn } = s)
      ∧ (p.2 = true → s.shF n.val SHN.TXDMA_LEN.LEN ≤ x.pos + 1 → s.shOn n.val SHN.TXDMA_LEN.LOOP = true →
        ∃ t : State, exec (.txdmaStore n) s = .next (settle t)
          ∧ t.shunter n.val = { x with pos := 0, passes := (x.passes + 1) % 65536 }
          ∧ (∀ j, j ≠ n.val → t.shunter j = s.shunter j) ∧ { t with shn := s.shn } = s)
      ∧ (p.2 = true → s.shF n.val SHN.TXDMA_LEN.LEN ≤ x.pos + 1 → s.shOn n.val SHN.TXDMA_LEN.LOOP = false →
        ∃ t : State, exec (.txdmaStore n) s = .next (settle t) ∧ t.shunter n.val = { x with pos := x.pos + 1 }
          ∧ t.shOn n.val SHN.TXDMA_LEN.EN = false
          ∧ (s.shOn n.val SHN.TXDMA_LEN.EN = true → t.on SHN.IRQ_RAW.TXDMA_DONE (pgAt n.val) = true)
          ∧ (∀ j, j ≠ n.val → t.shunter j = s.shunter j) ∧ { t with shn := s.shn, seenNow := s.seenNow, regs := s.regs } = s))
    ∧ ∀ (s : State) (n : ShunterId), ∀ z, z = s.shF n.val SHN.RXDMA_CFG.SIZE → ∀ x, x = s.shunter n.val →
      ∀ i, i = s.rxWord n.val x.wp % 2 ^ 19 →
      (s.shOn n.val SHN.RXDMA_CFG.EN = false ∨ z = 0 ∨ ((x.wp + 1) % z ≠ x.rp ∧ x.rx = []) →
        exec (.rxdmaMove n) s = .next (settle s))
      ∧ (s.shOn n.val SHN.RXDMA_CFG.EN = true → z ≠ 0 → (x.wp + 1) % z = x.rp →
        ∃ t : State, exec (.rxdmaMove n) s = .next (settle t) ∧ t.on SHN.IRQ_RAW.RXDMA_FULL (pgAt n.val) = true
          ∧ { t with seenNow := s.seenNow, regs := s.regs } = s)
      ∧ (∀ v vs, x.rx = v :: vs → s.shOn n.val SHN.RXDMA_CFG.EN = true → z ≠ 0 → (x.wp + 1) % z ≠ x.rp →
        (s.dmaReady (i / 32768) (25 + n.val) = true →
          ∃ t : State, exec (.rxdmaMove n) s = .next (settle t)
            ∧ t.shunter n.val = { x with rx := vs, wp := (x.wp + 1) % z, freed := if 8 ≤ x.rx.length then s.raw else x.freed }
            ∧ t.logPeek i = v ∧ ((x.wp + 2) % z = x.rp → t.on SHN.IRQ_RAW.RXDMA_FULL (pgAt n.val) = true)
            ∧ (∀ j, j ≠ n.val → t.shunter j = s.shunter j) ∧ { t with shn := s.shn, mem := s.mem, seenNow := s.seenNow, regs := s.regs } = s)
        ∧ (s.dmaReady (i / 32768) (25 + n.val) = false →
          ∃ t : State, exec (.rxdmaMove n) s = .next (settle t) ∧ s.dmaWait (i / 32768) (25 + n.val) ∈ t.mem.waits
            ∧ t.mem.log = s.mem.log ∧ { t with mem := s.mem } = s))

/-- R242, R255 to R257, R259, R261: the program store of a halted shunter; starts by an entry, by START and by GSTART; HALT,
CLKRST, CLRFIFO; an abort.
The model's choices in it: log entries 9, 22, 26 and 34. -/
def Obligations.ShunterControl : Prop :=
  (∀ (s : State) (r : Requester) (n : ShunterId) (i : Fin 128) (v : Word), s.reaches r = true →
      ((s.shunter n.val).st = .halted → s.shStarts n.val = false →
        ∃ t : State, exec (.programStoreWrite r n i v) s = .next (settle t)
          ∧ (∀ j, SMap.get (fun _ => (0 : Word)) t.stores.prog j
              = if j = n.val * 128 + i.val then v else SMap.get (fun _ => 0) s.stores.prog j)
          ∧ t.ecc stShn (n.val * 128 + i.val) = 0
          ∧ t.shunter n.val = { s.shunter n.val with reject := false } ∧ (∀ j, j ≠ n.val → t.shunter j = s.shunter j)
          ∧ { t with
              shn := s.shn, mem := { t.mem with ecc := s.mem.ecc, bankAt := s.mem.bankAt }
              stores := { t.stores with prog := s.stores.prog } } = s)
      ∧ ((s.shunter n.val).st ≠ .halted ∨ s.shStarts n.val = true →
        ∃ t : State, exec (.programStoreWrite r n i v) s = .next (settle t) ∧ t.stores = s.stores
          ∧ t.shunter n.val = { s.shunter n.val with reject := true } ∧ t.on SHN.IRQ_RAW.PGM_REJ (pgAt n.val) = true
          ∧ (s.on SHN.ERR_CAP.VALID (pgAt n.val) = false → t.f SHN.ERR_CAP.REASON (pgAt n.val) = Reason.busy.code)
          ∧ (∀ j, j ≠ n.val → t.shunter j = s.shunter j) ∧ t.mem = s.mem ∧ t.raw = s.raw))
    ∧ (∀ (s : State) (n : ShunterId), s.mode = .halt ∨ (s.shunter n.val).start = none →
      exec (.shnStartEntry n) s = .next (settle s))
    ∧ (∀ (s : State) (n : ShunterId), s.mode ≠ .halt → ∀ e, (s.shunter n.val).start = some e →
      ∀ c, c = max s.raw (max (s.rawOf e.time / 64) e.floor) →
      ((s.shunter n.val).st = .halted → (s.shunter n.val).haltAt ≠ some c →
        ∃ t : State, exec (.shnStartEntry n) s = .next (settle t)
          ∧ (t.shunter n.val).st = .running ∧ (t.shunter n.val).pc = e.addr % 256 ∧ (t.shunter n.val).tick = c * 256
          ∧ (t.shunter n.val).start = none ∧ (t.shunter n.val).a = (s.shunter n.val).a
          ∧ (t.shunter n.val).drv = s.shF n.val SHN.PINCFG.DRV0
          ∧ (s.shOn n.val SHN.CTL.KEEP_SHIFT = false →
            (t.shunter n.val).sw = 0 ∧ (t.shunter n.val).sf = 0 ∧ (t.shunter n.val).rw = 0 ∧ (t.shunter n.val).rf = 0)
          ∧ (s.shOn n.val SHN.CTL.KEEP_SHIFT = true →
            (t.shunter n.val).sw = (s.shunter n.val).sw ∧ (t.shunter n.val).sf = (s.shunter n.val).sf
              ∧ (t.shunter n.val).rw = (s.shunter n.val).rw ∧ (t.shunter n.val).rf = (s.shunter n.val).rf)
          ∧ (e.grp = true → ∀ k : ShunterId, k ≠ n → bitsAt (s.shF n.val SHN.GRP.V) k.val 1 = 1 →
            ((s.shunter k.val).st = .halted → (s.shunter k.val).haltAt ≠ some c → (t.shunter k.val).st = .running
              ∧ (t.shunter k.val).pc = s.shF k.val SHN.START.ADDR ∧ (t.shunter k.val).tick = c * 256)
            ∧ ((s.shunter k.val).st ≠ .halted → t.shunter k.val = s.shunter k.val ∧ t.on SHN.IRQ_RAW.START_REJ (pgAt k.val) = true))
          ∧ (∀ j, j ≠ n.val → e.grp = false ∨ bitsAt (s.shF n.val SHN.GRP.V) j 1 = 0 → t.shunter j = s.shunter j)
          ∧ (e.grp = false → t.regs = s.regs)
          ∧ (∀ i, e.src ≠ .slot i → t.slot i = s.slot i) ∧ t.raw = c
          ∧ { t with raw := s.raw, shn := s.shn, seenNow := s.seenNow, regs := s.regs, slots := s.slots } = s)
      ∧ ((s.shunter n.val).st ≠ .halted ∨ (s.shunter n.val).haltAt = some c →
        ∃ t : State, exec (.shnStartEntry n) s = .next (settle t) ∧ t.shunter n.val = { s.shunter n.val with start := none }
          ∧ t.on SHN.IRQ_RAW.START_REJ (pgAt n.val) = true ∧ (∀ j, j ≠ n.val → t.shunter j = s.shunter j)
          ∧ (∀ i, e.src = .slot i → t.slot i = (({ s with raw := c } : State).acted e.src outDiscarded).slot i)
          ∧ (∀ i, e.src ≠ .slot i → t.slot i = s.slot i) ∧ t.raw = c
          ∧ { t with raw := s.raw, shn := s.shn, seenNow := s.seenNow, regs := s.regs, slots := s.slots } = s))
    ∧ (∀ (s : State) (r : Requester) (n : ShunterId), s.opens r (shnReg SHN.CTL.START n.val) = true →
      ∀ c, c = s.raw + 1 → ∀ x, x = s.shunter n.val →
      (s.mode.quiet = false → s.mode ≠ .provision → x.st = .halted → x.haltAt ≠ some c →
        ∃ t : State, exec (.shnStartWrite r n) s = .next (settle t) ∧ (t.shunter n.val).st = .running
          ∧ (t.shunter n.val).pc = s.shF n.val SHN.START.ADDR ∧ (t.shunter n.val).tick = c * 256
          ∧ (t.shunter n.val).late = false ∧ (t.shunter n.val).tmo = false ∧ (t.shunter n.val).nodata = false
          ∧ (t.shunter n.val).drv = s.shF n.val SHN.PINCFG.DRV0
          ∧ { t.shunter n.val with
              st := x.st, pc := x.pc, tick := x.tick, late := x.late, tmo := x.tmo, nodata := x.nodata, drv := x.drv, pipe := x.pipe
              began := x.began, prior := x.prior, sw := x.sw, sf := x.sf, rw := x.rw, rf := x.rf } = x
          ∧ (∀ j, j ≠ n.val → t.shunter j = s.shunter j) ∧ RegsBut s t [] ∧ { t with regs := s.regs, shn := s.shn } = s)
      ∧ (s.mode.quiet = true ∨ s.mode = .provision →
        exec (.shnStartWrite r n) s = .next (settle (s.discard (shnReg SHN.CTL.START n.val) r .mode))
        ∧ exec (.shnGstartWrite r n) s = .next (settle (s.discard (shnReg SHN.CTL.START n.val) r .mode)))
      ∧ (s.mode.quiet = false → s.mode ≠ .provision → x.st ≠ .halted ∨ x.haltAt = some c →
        ∃ t : State, exec (.shnStartWrite r n) s = .next (settle t) ∧ t.on SHN.IRQ_RAW.START_REJ (pgAt n.val) = true
          ∧ { t with seenNow := s.seenNow, regs := s.regs } = s)
      ∧ (s.mode.quiet = false → s.mode ≠ .provision →
        ∃ t : State, exec (.shnGstartWrite r n) s = .next (settle t)
          ∧ (∀ k : ShunterId, k = n ∨ bitsAt (s.shF n.val SHN.GRP.V) k.val 1 = 1 →
              ((s.shunter k.val).st = .halted → (s.shunter k.val).haltAt ≠ some c →
                (t.shunter k.val).st = .running ∧ (t.shunter k.val).pc = s.shF k.val SHN.START.ADDR ∧ (t.shunter k.val).tick = c * 256)
              ∧ ((s.shunter k.val).st ≠ .halted →
                t.shunter k.val = s.shunter k.val ∧ t.on SHN.IRQ_RAW.START_REJ (pgAt k.val) = true))
          ∧ (∀ k : ShunterId, k ≠ n → bitsAt (s.shF n.val SHN.GRP.V) k.val 1 = 0 → t.shunter k.val = s.shunter k.val)
          ∧ { t with seenNow := s.seenNow, regs := s.regs, shn := s.shn } = s)
      ∧ (∃ t : State, exec (.shnHaltWrite r n) s = .next (settle t)
          ∧ t.shunter n.val = { (if x.began = some c then x.unstarted else x) with
              st := .halted, rsn := 0, target := none, wait := none, haltAt := some c }
          ∧ (x.began = some c → t.on SHN.IRQ_RAW.START_REJ (pgAt n.val) = true) ∧ (x.began ≠ some c → RegsBut s t [])
          ∧ (∀ j, j ≠ n.val → t.shunter j = s.shunter j) ∧ { t with seenNow := s.seenNow, regs := s.regs, shn := s.shn } = s)
      ∧ (∃ t : State, exec (.shnClkrstWrite r n) s = .next (settle t)
          ∧ t.shunter n.val = { x with tick := c * 256 }
          ∧ (∀ k : ShunterId, k ≠ n → bitsAt (s.shF n.val SHN.GRP.V) k.val 1 = 1 →
              t.shunter k.val = { s.shunter k.val with tick := c * 256 })
          ∧ (∀ k : ShunterId, k ≠ n → bitsAt (s.shF n.val SHN.GRP.V) k.val 1 = 0 → t.shunter k.val = s.shunter k.val)
          ∧ RegsBut s t [] ∧ { t with regs := s.regs, shn := s.shn } = s)
      ∧ (x.st = .halted → s.shOn n.val SHN.TXDMA_LEN.EN = false → s.shOn n.val SHN.RXDMA_CFG.EN = false →
        ∃ t : State, exec (.shnClrfifoWrite r n) s = .next (settle t) ∧ t.shunter n.val = { x with tx := [], rx := [] }
          ∧ (∀ j, j ≠ n.val → t.shunter j = s.shunter j) ∧ RegsBut s t [] ∧ { t with regs := s.regs, shn := s.shn } = s)
      ∧ (x.st ≠ .halted ∨ s.shOn n.val SHN.TXDMA_LEN.EN = true ∨ s.shOn n.val SHN.RXDMA_CFG.EN = true →
        ∃ t : State, exec (.shnClrfifoWrite r n) s = .next (settle t) ∧ t.shn = s.shn
          ∧ (s.on SHN.ERR_CAP.VALID (pgAt n.val) = false → t.f SHN.ERR_CAP.REASON (pgAt n.val) = Reason.busy.code)))
    ∧ (∀ (s : State) (n : ShunterId), s.aborting (SHN.page.base + pgAt n.val) = false → exec (.shnAbort n) s = .next (settle s))
    ∧ ∀ (s : State) (n : ShunterId), s.aborting (SHN.page.base + pgAt n.val) = true →
      ∃ t : State, exec (.shnAbort n) s = .next (settle t)
        ∧ t.shunter n.val = { s.shunter n.val with st := .halted, rsn := 0, target := none, wait := none, start := none }
        ∧ t.shOn n.val SHN.TXDMA_LEN.EN = false ∧ t.shOn n.val SHN.RXDMA_CFG.EN = false
        ∧ (∀ e, (s.shunter n.val).start = some e → ∀ i, e.src = .slot i → t.slot i = (s.acted e.src outAborted).slot i)
        ∧ (∀ j, j ≠ n.val → t.shunter j = s.shunter j)
        ∧ { t with regs := s.regs, shn := s.shn, slots := s.slots } = s
/-! ### Memory (file 11) -/

/-- R263 to R271, R274, R275: the order of access of R266; a siding's cycle serves the access that it picks: a write lands in the
bank that serves the word, and in both banks while the siding is copied; a read brings its data two cycles later, four from the
relief; a host access is answered; an internal DMA requester gets its grant; the copy of the background test takes a cycle that
nobody takes, or one ahead of DMA after 32. The copy register's word is written unless a
mirrored write puts it off. A corrected word is rewritten and counted; a DMA access that waits too long is counted. The
interchange bank serves one access on each port: port A's write stands, a read returns the value before. The scrubber goes on by
one word.
The model's choices in it: log entries 19 and 23. -/
def Obligations.MemoryAccesses : Prop :=
  (∀ (s : State) (d : SidingId), ∀ w, s.pickAt d.val (s.mem.waits.filter (fun x => x.sid = d.val)) = some w →
      w ∈ s.mem.waits ∧ w.sid = d.val
      ∧ s.inTurn w = true ∧ (w.kind.isDma = true → ∀ x ∈ s.mem.waits, x.sid = d.val → s.inTurn x = true → x.kind.isDma = true)
      ∧ (∀ c, (s.mem.waits.filter (fun x => x.sid = d.val)).find? (fun x => x.kind.isCommit) = some c →
        w = c ∨ (w.kind.isEngine = true ∧ w.since < c.since))
      ∧ (w.kind.isCommit = true → ∀ x ∈ s.mem.waits, x.sid = d.val → s.inTurn x = true → x.kind.isEngine = true →
        w.since ≤ x.since))
    ∧ (∀ (s : State) (d : SidingId), ∀ c, c = max s.raw (s.bankFree d.val) →
      ∀ o, o = s.pickAt d.val (s.mem.waits.filter (fun x => x.sid = d.val)) →
      ∀ yields : Bool, yields = o.all (fun w => w.kind.isDma && decide (32 ≤ s.mem.passed)) →
      ∀ k, k = s.mem.bgtPtr →
      (o = none → s.copyWaits d.val c = false →
        ∃ t : State, exec (.sidingGrant d) s = .next (settle t) ∧ t.raw = c ∧ t.bankFree d.val = c + 1
          ∧ { t with raw := s.raw, mem := { t.mem with bankAt := s.mem.bankAt } } = s)
      ∧ (yields = true → s.copyWaits d.val c = true →
        ∃ t : State, exec (.sidingGrant d) s = .next (settle t) ∧ t.raw = c ∧ t.bankFree d.val = c + 1 ∧ t.mem.waits = s.mem.waits
          ∧ (k < 32768 → t.mem.bgtPtr = k + 1 ∧ t.mem.passed = 0 ∧ t.mem.copyAt = c
            ∧ t.mem.copyReg = some (k, (if s.mem.bgtPhase = 0 then SMap.get (fun _ => 0) s.mem.log (d.val * 32768 + k)
                else SMap.get (fun _ => 0) s.mem.relief k),
              if s.ecc (if s.mem.bgtPhase = 0 then stLog else stRelief) (if s.mem.bgtPhase = 0 then d.val * 32768 + k else k) = 2 then 2 else 0))
          ∧ (∀ p, s.mem.copyReg = some p → k ≤ 32768 → p.1 < 32768 → p.1 ≠ k →
            SMap.get (fun _ => 0) (if s.mem.bgtPhase = 0 then t.mem.relief else t.mem.log)
              (if s.mem.bgtPhase = 0 then p.1 else d.val * 32768 + p.1) = p.2.1)
          ∧ { t with raw := s.raw, mem := s.mem, seenNow := s.seenNow, regs := s.regs, pwr := s.pwr } = s)
      ∧ ∀ w, o = some w → (yields && s.copyWaits d.val c) = false →
        ∀ u : State, u = ({ s with raw := c } : State).copyMeets d.val c w.kind.stores →
        (s.mem.copyReg = none ∨ s.mem.bgtSid ≠ d.val ∨ c ≤ s.mem.copyAt → u = { s with raw := c })
        ∧ (∀ p, s.mem.copyReg = some p → s.mem.bgtSid = d.val → s.mem.copyAt < c →
          (w.kind.stores = true → c = s.mem.copyAt + 1 → u = { s with raw := c, mem := { s.mem with copyAt := c } })
          ∧ (w.kind.stores = false ∨ c ≠ s.mem.copyAt + 1 → u.mem.copyReg = none
            ∧ SMap.get (fun _ => 0) (if s.mem.bgtPhase = 0 then u.mem.relief else u.mem.log)
              (if s.mem.bgtPhase = 0 then p.1 else d.val * 32768 + p.1) = p.2.1
            ∧ { u with mem := s.mem } = { s with raw := c }))
        ∧
        (∀ v : Word, w.kind = .commit v ∨ w.kind = .engWrite v →
          ∃ t : State, exec (.sidingGrant d) s = .next (settle t) ∧ t.raw = c
            ∧ (s.mem.oneOut → t.logPeek w.idx = v) ∧ (s.mem.oneOut → ∀ j, j ≠ w.idx → j / 32768 = w.idx / 32768 → t.logPeek j = u.logPeek j)
            ∧ (s.mem.bgtSid = w.idx / 32768 → s.mem.bgtPhase = 0 ∨ s.mem.bgtPhase = 2 → s.mem.retired = none →
              SMap.get (fun _ => 0) t.mem.log w.idx = v ∧ SMap.get (fun _ => 0) t.mem.relief (w.idx % 32768) = v)
            ∧ t.mem.waits = s.mem.waits.erase w ∧ t.bankFree d.val = c + 1 ∧ t.mem.icb = s.mem.icb
            ∧ { t with raw := s.raw, mem := s.mem } = s)
        ∧ (∀ l x i, w.kind = .engRead l x i →
          ∃ t : State, exec (.sidingGrant d) s = .next (settle t) ∧ t.raw = c
            ∧ t.mem.arrivals = s.mem.arrivals ++ [{
                eng := w.eng, lvl := l, dst := x, val := (u.logPeek w.idx).toNat
                time := c + (if s.mem.onRelief (w.idx / 32768) then 4 else 2) }]
            ∧ t.mem.waits = s.mem.waits.erase w ∧ t.mem.log = u.mem.log ∧ t.mem.relief = u.mem.relief
            ∧ { t with raw := s.raw, mem := s.mem, seenNow := s.seenNow, regs := s.regs, pwr := s.pwr } = s)
        ∧ (w.kind = .hostRead →
          ∃ t : State, exec (.sidingGrant d) s = .next (settle t) ∧ t.raw = c
            ∧ t.hst.replies = { req := w.req, addr := 0x400000 + w.idx * 4, data := u.logPeek w.idx
                                poison := decide (u.ecc (s.logHome w.idx).1 (s.logHome w.idx).2 = 2) } :: s.hst.replies
            ∧ t.f MEM.STARVE.MAXWAIT = max (s.f MEM.STARVE.MAXWAIT) (min (c - w.since) 0xFFFF)
            ∧ t.mem.waits = s.mem.waits.erase w ∧ t.mem.log = u.mem.log
            ∧ { t with raw := s.raw, mem := s.mem, seenNow := s.seenNow, regs := s.regs, pwr := s.pwr, hst := { t.hst with replies := s.hst.replies } } = s)
        ∧ (∀ v be, w.kind = .hostWrite v be →
          ∃ t : State, exec (.sidingGrant d) s = .next (settle t) ∧ t.raw = c ∧ t.bankFree d.val = c + (if be = 15 then 1 else 2)
            ∧ (be = 15 → s.mem.oneOut → t.logPeek w.idx = v)
            ∧ (be ≠ 15 → u.ecc (s.logHome w.idx).1 (s.logHome w.idx).2 ≠ 2 → s.mem.oneOut →
              t.logPeek w.idx = mergeBe (u.logPeek w.idx) v be)
            ∧ (be ≠ 15 → u.ecc (s.logHome w.idx).1 (s.logHome w.idx).2 = 2 → t.logPeek w.idx = u.logPeek w.idx
              ∧ (s.on MEM.ERR_CAP.VALID = false → t.f MEM.ERR_CAP.REASON = Reason.ecc.code))
            ∧ (s.mem.oneOut → ∀ j, j ≠ w.idx → j / 32768 = w.idx / 32768 → t.logPeek j = u.logPeek j) ∧ t.mem.waits = s.mem.waits.erase w
            ∧ { t with raw := s.raw, mem := s.mem, seenNow := s.seenNow, regs := s.regs, pwr := s.pwr } = s)
        ∧ (∀ tag, w.kind = .dma tag →
          ∃ t : State, exec (.sidingGrant d) s = .next (settle t) ∧ t.raw = c ∧ t.mem.granted = s.mem.granted ++ [(w.sid, tag)]
            ∧ t.f MEM.STARVE.MAXWAIT = max (s.f MEM.STARVE.MAXWAIT) (min (c - w.since) 0xFFFF)
            ∧ t.mem.waits = s.mem.waits.erase w ∧ t.mem.log = u.mem.log ∧ { t with raw := s.raw, mem := s.mem, regs := s.regs } = s))
    ∧ (∀ s : State, s.mem.rewrites.find? s.bankIdle = none → exec .eccRewrite s = .next (settle s))
    ∧ (∀ s : State, ∀ k, s.mem.rewrites.find? s.bankIdle = some k →
      ∃ t : State, exec .eccRewrite s = .next (settle t) ∧ t.mem.rewrites = s.mem.rewrites.erase k
        ∧ t.raw = max s.raw (s.bankFree (s.bankOf k)) ∧ t.bankFree (s.bankOf k) = t.raw + 1
        ∧ t.f MEM.ECCCNT.CORR = counted s MEM.ECCCNT.CORR ∧ t.on MEM.IRQ_RAW.CORR = true
        ∧ (s.ecc (k / 2 ^ 20) (k % 2 ^ 20) = 1 → t.ecc (k / 2 ^ 20) (k % 2 ^ 20) = 0)
        ∧ t.mem.log = s.mem.log ∧ t.mem.icb = s.mem.icb ∧ { t with raw := s.raw, seenNow := s.seenNow, regs := s.regs, mem := s.mem } = s)
    ∧ (∀ (s : State) (d : SidingId), s.starving d.val = none → exec (.dmaStarve d) s = .next (settle s))
    ∧ (∀ (s : State) (d : SidingId), ∀ w, s.starving d.val = some w →
      ∃ t : State, exec (.dmaStarve d) s = .next (settle t) ∧ t.raw = max s.raw (w.since + s.f MEM.ARB.STARVE_THR)
        ∧ t.f MEM.CNT_EVT.HI = counted s MEM.CNT_EVT.HI ∧ t.f MEM.STARVE.SIDING = d.val ∧ t.on MEM.IRQ_RAW.DMA_STARVE = true
        ∧ t.f MEM.STARVE.MAXWAIT = max (s.f MEM.STARVE.MAXWAIT) (min (t.raw - w.since) 0xFFFF)
        ∧ t.mem.waits = s.mem.waits.map (fun x => if x = w then { x with counted := true } else x)
        ∧ { t with raw := s.raw, seenNow := s.seenNow, regs := s.regs, mem := { t.mem with waits := s.mem.waits } } = s)
    ∧ (∀ s : State, ∀ c, c = max s.raw (s.bankFree 16) →
      ∀ a, a = pickWait s.mem.portA (SMap.get (fun _ => 7) s.mem.lastEng 16) 0 →
      ∀ b, b = pickB s.mem.lastB (s.mem.portB.filter (fun b => !({ s with raw := c } : State).heldB a b)) →
      (a = none → b = none →
        ∃ t : State, exec .icbAccess s = .next (settle t) ∧ t.raw = c ∧ t.bankFree 16 = c + 1
          ∧ { t with raw := s.raw, mem := { t.mem with bankAt := s.mem.bankAt } } = s)
      ∧ (∀ w, a = some w →
        (∀ v, w.kind.writes = some v →
          ∃ t : State, exec .icbAccess s = .next (settle t) ∧ t.raw = c ∧ t.icbPeek w.idx = v
            ∧ t.mem.portA = s.mem.portA.erase w ∧ t.mem.log = s.mem.log
            ∧ (b = none → (∀ j, j ≠ w.idx → t.icbPeek j = s.icbPeek j) ∧ { t with raw := s.raw, mem := s.mem } = s)
            ∧ (∀ x, b = some x → x.write = true → x.idx ≠ w.idx →
              t.icbPeek x.idx = mergeBe (s.icbPeek x.idx) x.val x.be ∧ { t with raw := s.raw, mem := s.mem } = s)
            ∧ (∀ x, b = some x → x.write = true → x.idx = w.idx →
              (collided v x.val x.be = 0 → t.regs = s.regs)
              ∧ (collided v x.val x.be ≠ 0 → t.on MEM.IRQ_RAW.COLLIDE = true ∧ t.f MEM.CNT_EVT.LO = counted s MEM.CNT_EVT.LO
                ∧ (x.idx < 16384 → w.eng < 8 → t.reg MEM.COLLIDE0.REQ.off
                    = word ((x.req.map (fun r => r.id)).getD 0 * 2 ^ 24 + collided v x.val x.be * 2 ^ 20 + w.eng * 2 ^ 17 + x.idx * 4))
                ∧ t.reg MEM.COLLIDE1.DEP.off = word ({ s with raw := c } : State).dep)
              ∧ { t with raw := s.raw, mem := s.mem, seenNow := s.seenNow, regs := s.regs } = s)
            ∧ (∀ x, b = some x → x.write = false → ∀ r, x.req = some r →
              t.hst.replies = { req := r, addr := 0x600000 + x.idx * 4, data := s.icbPeek x.idx, poison := decide (s.ecc stIcb x.idx = 2) }
                :: s.hst.replies))
        ∧ (∀ l x i, w.kind = .engRead l x i →
          ∃ t : State, exec .icbAccess s = .next (settle t) ∧ t.raw = c ∧ t.mem.portA = s.mem.portA.erase w
            ∧ t.mem.arrivals = s.mem.arrivals ++ [{
                eng := w.eng, lvl := l, dst := x, val := (s.icbPeek w.idx).toNat, time := c + 2 }]
            ∧ (b = none → t.mem.icb = s.mem.icb ∧ { t with raw := s.raw, mem := s.mem, seenNow := s.seenNow, regs := s.regs, pwr := s.pwr } = s)
            ∧ (∀ x, b = some x → x.write = true → t.icbPeek x.idx = mergeBe (s.icbPeek x.idx) x.val x.be)))
      ∧ (a = none → ∀ x, b = some x →
        (x.write = true →
          ∃ t : State, exec .icbAccess s = .next (settle t) ∧ t.raw = c
            ∧ t.icbPeek x.idx = mergeBe (s.icbPeek x.idx) x.val x.be ∧ (∀ j, j ≠ x.idx → t.icbPeek j = s.icbPeek j)
            ∧ t.mem.portB = s.mem.portB.erase x ∧ { t with raw := s.raw, mem := s.mem } = s)
        ∧ (x.write = false → ∀ r, x.req = some r →
          ∃ t : State, exec .icbAccess s = .next (settle t) ∧ t.raw = c
            ∧ t.hst.replies = { req := r, addr := 0x600000 + x.idx * 4, data := s.icbPeek x.idx, poison := decide (s.ecc stIcb x.idx = 2) }
                :: s.hst.replies
            ∧ t.mem.portB = s.mem.portB.erase x ∧ t.mem.icb = s.mem.icb
            ∧ { t with raw := s.raw, mem := s.mem, seenNow := s.seenNow, regs := s.regs, pwr := s.pwr, hst := { t.hst with replies := s.hst.replies } } = s)))
    ∧ ∀ (s : State) (k : Fin 8), ∀ i, i = SMap.get (fun _ => 0) s.mem.scrubAt k.val →
      (s.on MEM.CTL.SCRUB_EN = false ∨ k.val < 2 ∨ s.scrubFree k.val = false → exec (.scrubRead k) s = .next (settle s))
      ∧ (s.on MEM.CTL.SCRUB_EN = true → 2 ≤ k.val → s.scrubFree k.val = true →
        ∃ t : State, exec (.scrubRead k) s = .next (settle t)
          ∧ t.raw = max s.raw (max (SMap.get (fun _ => 0) s.mem.scrubDue k.val) (s.bankFree (if k.val = stIcb then 16 else 32 + k.val)))
          ∧ t.bankFree (if k.val = stIcb then 16 else 32 + k.val) = t.raw + 1
          ∧ SMap.get (fun _ => 0) t.mem.scrubAt k.val = (i + 1) % storeWords k.val
          ∧ SMap.get (fun _ => 0) t.mem.scrubDue k.val = t.raw + s.f MEM.CTL.SCRUB_INT
          ∧ (s.ecc k.val i = 0 → { t with
              raw := s.raw, mem := { t.mem with scrubAt := s.mem.scrubAt, scrubDue := s.mem.scrubDue, bankAt := s.mem.bankAt } } = s)
          ∧ (s.ecc k.val i = 1 → eccKey k.val i ∈ t.mem.rewrites ∧ { t with raw := s.raw, mem := s.mem } = s)
          ∧ (2 ≤ s.ecc k.val i → t.f MEM.ECCCNT.UNCORR = counted s MEM.ECCCNT.UNCORR ∧ t.on MEM.IRQ_RAW.UNCORR = true
              ∧ (s.on MEM.UECAP.VALID = false → t.reg MEM.UECAP.VALID.off = word (2 ^ 31 + k.val * 2 ^ 28 + i))
              ∧ t.pwr.faults = s.pwr.faults ++ [2]))

/-- R274 to R278, R280: the background test's phases: the copy's end switches service to the relief; the march leaves the home
bank zero and restores it, or retires the siding with a fault; the restore's end goes on to the next siding or stops; EN; an
abort of MEM.
The model's choices in it: log entries 23 and 26. -/
def Obligations.BackgroundTest : Prop :=
  (∀ s : State, (s.copyOver 0 = false → exec .bgtCopyEnd s = .next (settle s))
      ∧ (s.copyOver 2 = false → exec .bgtRestoreEnd s = .next (settle s))
      ∧ (s.mem.bgtPhase ≠ 1 ∨ s.mode = .halt → ∀ passed : Bool, exec (.bgtTestEnd passed) s = .next (settle s)))
    ∧ (∀ s : State, s.copyOver 0 = true →
      ∃ t : State, exec .bgtCopyEnd s = .next (settle t) ∧ t.mem.bgtPhase = 1 ∧ t.mem.bgtPtr = 0 ∧ t.mem.copyReg = none
        ∧ t.raw = max s.raw (s.mem.copyAt + if s.mem.copyReg.isSome then 2 else 1)
        ∧ t.mem.testEnds = t.raw + 327680 ∧ t.mem.bgtSid = s.mem.bgtSid
        ∧ (∀ p, s.mem.copyReg = some p → SMap.get (fun _ => 0) t.mem.relief p.1 = p.2.1 ∧ t.ecc stRelief p.1 = p.2.2)
        ∧ t.mem.log = s.mem.log ∧ { t with raw := s.raw, mem := s.mem } = s)
    ∧ (∀ (s : State) (passed : Bool), s.mem.bgtPhase = 1 → s.mode ≠ .halt →
      ∃ t : State, exec (.bgtTestEnd passed) s = .next (settle t) ∧ t.raw = max s.raw s.mem.testEnds
        ∧ (∀ i, i / 32768 = s.mem.bgtSid → SMap.get (fun _ => 0) t.mem.log i = 0) ∧ t.mem.relief = s.mem.relief
        ∧ (∀ i, i / 32768 ≠ s.mem.bgtSid → SMap.get (fun _ => 0) t.mem.log i = SMap.get (fun _ => 0) s.mem.log i)
        ∧ (passed = true → t.mem.bgtPhase = 2 ∧ t.mem.bgtPtr = 0 ∧ t.mem.retired = s.mem.retired
            ∧ { t with raw := s.raw, mem := s.mem } = s)
        ∧ (passed = false → t.mem.bgtPhase = 3 ∧ t.mem.retired = some s.mem.bgtSid ∧ t.on MEM.IRQ_RAW.BGT_FAIL = true
            ∧ t.on MEM.STS.RETIRED = true ∧ (s.mem.bgtSid < 16 → t.f MEM.BGT_STS.RSIDING = s.mem.bgtSid)
            ∧ t.pwr.faults = s.pwr.faults ++ [8]
            ∧ { t with raw := s.raw, mem := s.mem, seenNow := s.seenNow, regs := s.regs, pwr := s.pwr } = s))
    ∧ (∀ s : State, s.copyOver 2 = true →
      ∃ t : State, exec .bgtRestoreEnd s = .next (settle t)
        ∧ t.raw = max s.raw (s.mem.copyAt + if s.mem.copyReg.isSome then 2 else 1)
        ∧ (s.on MEM.BGT.EN = true → t.mem.bgtPhase = 0 ∧ t.mem.bgtSid = (s.mem.bgtSid + 1) % 16 ∧ t.mem.bgtPtr = 0
          ∧ t.mem.copyAt = t.raw)
        ∧ (s.on MEM.BGT.EN = false → t.mem.bgtPhase = 3 ∧ t.mem.bgtSid = s.mem.bgtSid)
        ∧ (∀ p, s.mem.copyReg = some p →
          SMap.get (fun _ => 0) t.mem.log (s.mem.bgtSid * 32768 + p.1) = p.2.1 ∧ t.ecc stLog (s.mem.bgtSid * 32768 + p.1) = p.2.2)
        ∧ (s.mem.bgtSid = 15 → t.on MEM.IRQ_RAW.ROTATION = true) ∧ (s.mem.bgtSid ≠ 15 → t.regs = s.regs)
        ∧ t.mem.relief = s.mem.relief ∧ { t with raw := s.raw, mem := s.mem, seenNow := s.seenNow, regs := s.regs } = s)
    ∧ (∀ (s : State) (r : Requester) (v : Word), s.opens r MEM.BGT.EN.off = true →
      (s.on MEM.BGT.EN = v.getLsbD 31 → exec (.bgtEnWrite r v) s = .next (settle s))
      ∧ (s.on MEM.BGT.EN ≠ v.getLsbD 31 → s.hasRole r .maker = false →
        exec (.bgtEnWrite r v) s = .next (settle (s.discard MEM.BGT.EN.off r .role)))
      ∧ (s.on MEM.BGT.EN ≠ v.getLsbD 31 → s.hasRole r .maker = true →
        ∃ t : State, exec (.bgtEnWrite r v) s = .next (settle t) ∧ t.on MEM.BGT.EN = v.getLsbD 31
          ∧ (v.getLsbD 31 = true → s.mem.bgtPhase = 3 → s.on MEM.STS.RETIRED = false →
            t.mem.bgtPhase = 0 ∧ t.mem.bgtSid = (s.mem.bgtSid + 1) % 16 ∧ t.mem.bgtPtr = 0 ∧ t.mem.copyReg = none)
          ∧ (v.getLsbD 31 = false ∨ s.mem.bgtPhase ≠ 3 ∨ s.on MEM.STS.RETIRED = true →
            t.mem.bgtPhase = s.mem.bgtPhase ∧ t.mem.bgtSid = s.mem.bgtSid ∧ t.mem.bgtPtr = s.mem.bgtPtr)
          ∧ t.mem.log = s.mem.log ∧ t.mem.relief = s.mem.relief ∧ t.raw = s.raw))
    ∧ (∀ s : State, s.aborting MEM.page.base = false → exec .memAbort s = .next (settle s))
    ∧ ∀ s : State, s.aborting MEM.page.base = true →
      ∃ t : State, exec .memAbort s = .next (settle t) ∧ t.reg MEM.COLLIDE0.REQ.off = 0 ∧ t.reg MEM.COLLIDE1.DEP.off = 0
        ∧ t.reg MEM.UECAP.VALID.off = 0
        ∧ RegsBut s t [MEM.COLLIDE0.REQ.off, MEM.COLLIDE1.DEP.off, MEM.UECAP.VALID.off]
        ∧ t.mem.waits.filter (fun w => !w.kind.isDma) = s.mem.waits.filter (fun w => !w.kind.isDma)
        ∧ (∀ w ∈ t.mem.waits, w.kind.isDma = true → w.since = s.raw ∧ w.counted = false ∧ ∀ tag, w.kind ≠ .dma tag)
        ∧ { t with regs := s.regs, mem := { t.mem with waits := s.mem.waits } } = s
/-! ### The host link (file 12) -/

/-- R282, R286, R291 to R295, R298, R300 to R302: a slot opens, with the next index, where its stream has payload and, in ring
mode, the link and a credit, and nowhere else; it closes with its payload and its descriptor posted, or into the poll buffer,
once that is empty, where R292 asks for it, or by TIMEOUT with the mark; a report posts R and the departure and sets REP by
ICNT or a timeout; doorbells, also backwards and in poll mode; the poll buffer, also empty; VACK, with the message withheld
where the vector is masked or the link down; unmasking; the link comes up and goes down; an abort closes every slot with
ABORTED, reports it and gives the host's claims back.
The model's choices in it: log entries 24, 26 and 36. -/
def Obligations.HostStreams : Prop :=
  (∀ (s : State) (n : StreamId), ∀ x, x = s.hstream n.val →
      ∀ opens : Bool, opens = (s.stOn n.val HST.SCFG.EN && x.slot.isNone && s.hasPayload n.val
        && (s.stOn n.val HST.SCFG.POLL || (s.on HST.LINK.UP && decide (x.g ≠ x.c)))) →
      (opens = true →
        ∃ (t : State) (p : OpenSlot), exec (.slotOpen n) s = .next (settle t) ∧ (t.hstream n.val).slot = some p
          ∧ p.idx = x.c ∧ p.opened = s.raw ∧ p.payload.length + 16 ≤ p.size ∧ p.size = s.slotSize n.val
          ∧ p.polled = s.stOn n.val HST.SCFG.POLL
          ∧ (n.val = 0 ∨ n.val = 2 → x.rest = [] → 4 ∣ x.part.length → x.part.length ≤ 16 → p.payload.length % 16 = 0)
          ∧ (t.hstream n.val).c = (x.c + 1) % 2 ^ 32
          ∧ (t.hstream n.val).g = (if p.polled then (x.g + 1) % 2 ^ 32 else x.g)
          ∧ (t.hstream n.val).r = (if p.polled then (x.r + 1) % 2 ^ 32 else x.r)
          ∧ (∀ j, j ≠ n.val → t.hstream j = s.hstream j) ∧ t.raw = s.raw ∧ t.trk = s.trk ∧ t.hst.outbox = s.hst.outbox)
      ∧ (opens = false → exec (.slotOpen n) s = .next (settle s)))
    ∧ (∀ (s : State) (n : StreamId), (s.hstream n.val).slot = none →
      exec (.slotClose n) s = .next (settle s) ∧ exec (.slotTimeout n) s = .next (settle s))
    ∧ (∀ (s : State) (n : StreamId), ∀ p, (s.hstream n.val).slot = some p →
      ∀ room : Bool, room = (!p.polled || decide ((s.hstream n.val).poll = [])) →
      ∀ coal, coal = s.stF n.val HST.SCFG.COAL →
      (s.mustClose n.val = true → room = true →
        ∃ t : State, exec (.slotClose n) s = .next (settle t) ∧ s.SlotClosed t n.val p false s.vt)
      ∧ (s.mustClose n.val = false ∨ room = false → exec (.slotClose n) s = .next (settle s))
      ∧ (s.mustClose n.val = false → room = true → coal ≠ 0 →
        ∀ u v : State, u = { s with raw := max s.raw (p.opened + coal * 4000) } → v = u.fillSlot n.val 40000 →
        ∃ (t : State) (q : OpenSlot), exec (.slotTimeout n) s = .next (settle t) ∧ (v.hstream n.val).slot = some q
          ∧ t.raw = u.raw ∧ v.SlotClosed t n.val q true t.vt
          ∧ q.idx = p.idx ∧ q.opened = p.opened ∧ q.size = p.size ∧ p.payload <+: q.payload
          ∧ ((s.hstream n.val).rest = [] → s.hasPayload n.val = false → q = p))
      ∧ (s.mustClose n.val = true ∨ room = false ∨ coal = 0 → exec (.slotTimeout n) s = .next (settle s)))
    ∧ (∀ (s : State) (n : StreamId), (s.hstream n.val).unrep = 0 ∨ (s.hstream n.val).restart = true
        ∨ s.stOn n.val HST.SCFG.POLL = true →
      exec (.streamReport n) s = .next (settle s))
    ∧ (∀ (s : State) (n : StreamId), ∀ x, x = s.hstream n.val → ∀ k, k = (x.r + x.unrep) % 2 ^ 32 →
      x.unrep ≠ 0 → x.restart = false → s.stOn n.val HST.SCFG.POLL = false → s.stF n.val HST.SCFG.WGT ≠ 0 →
      ∃ t : State, exec (.streamReport n) s = .next (settle t) ∧ t.hstream n.val = { x with r := k, unrep := 0, tmo := false }
        ∧ t.hst.outbox = (s.stPair n.val HST.SREP_LO.V.off HST.SREP_HI.V.off, leBytes 4 k ++ leBytes 4 s.dep) :: s.hst.outbox
        ∧ (x.tmo = true ∨ s.stF n.val HST.SCFG.ICNT ≤ (k + 2 ^ 32 - x.base) % 2 ^ 32 → (t.f HST.IRQ_RAW.REP).testBit n.val = true)
        ∧ (x.tmo = false → (k + 2 ^ 32 - x.base) % 2 ^ 32 < s.stF n.val HST.SCFG.ICNT → t.regs = s.regs)
        ∧ (∀ j, j ≠ n.val → t.hstream j = s.hstream j) ∧ RegsBut s t [HST.IRQ_RAW.REP.off]
        ∧ { t with seenNow := s.seenNow, regs := s.regs, hst := { t.hst with
            outbox := s.hst.outbox, streams := s.hst.streams, turn := s.hst.turn } } = s)
    ∧ (∀ (s : State) (r : Requester) (n : StreamId) (v : Word), s.opens r (stReg HST.SDB.V n.val) = true →
      ∀ poll, poll = s.stOn n.val HST.SCFG.POLL →
      ∀ bad, bad = (decide (2 ^ s.stF n.val HST.SCFG.LOGN < (v.toNat + 2 ^ 32 - (s.hstream n.val).r) % 2 ^ 32)
        || decide (2 ^ 31 ≤ (v.toNat + 2 ^ 32 - (s.hstream n.val).g) % 2 ^ 32)) →
      (poll = false → bad = false →
        ∃ t : State, exec (.streamDoorbell r n v) s = .next (settle t)
          ∧ t.hstream n.val = { s.hstream n.val with g := v.toNat } ∧ (∀ j, j ≠ n.val → t.hstream j = s.hstream j)
          ∧ { t with hst := { t.hst with streams := s.hst.streams } } = s)
      ∧ (poll = false → bad = true →
        exec (.streamDoorbell r n v) s
          = .next (settle ((s.set1 HST.IRQ_RAW.DB_ERR).discard (stReg HST.SDB.V n.val) r .range)))
      ∧ (poll = true → exec (.streamDoorbell r n v) s = .next (settle (s.discard (stReg HST.SDB.V n.val) r .mode))))
    ∧ (∀ (s : State) (r : Requester) (n : StreamId), s.reaches r = true →
      ∃ t : State, exec (.streamPollRead r n) s = .next (settle t)
        ∧ (2 ≤ (s.hstream n.val).poll.length ∨ (s.hstream n.val).poll = [] ∨ (s.hstream n.val).pollNext = [] →
          t.hstream n.val = { s.hstream n.val with poll := (s.hstream n.val).poll.tail })
        ∧ (∀ w q qs, (s.hstream n.val).poll = [w] → (s.hstream n.val).pollNext = q :: qs →
          t.hstream n.val = { s.hstream n.val with poll := q, pollNext := qs })
        ∧ t.hst.replies = { req := r, addr := stReg HST.SPOLL.V n.val, data := (s.hstream n.val).poll.headD 0 } :: s.hst.replies
        ∧ (∀ j, j ≠ n.val → t.hstream j = s.hstream j)
        ∧ { t with hst := { t.hst with streams := s.hst.streams, replies := s.hst.replies } } = s)
    ∧ (∀ (s : State) (r : Requester) (v : Word), s.opens r HST.VACK.V.off = true → ∀ i, i = bitsAt v.toNat 0 5 →
      (i ∈ s.vectors → s.on HST.LINK.UP = true → i ∈ s.hst.unmasked →
        ∃ t : State, exec (.vackWrite r v) s = .next (settle t)
          ∧ t.hst.msgs = { vec := i, addr := (s.msixWord i 0).toNat + (s.msixWord i 1).toNat * 2 ^ 32, data := s.msixWord i 2 } :: s.hst.msgs
          ∧ { t with hst := { t.hst with msgs := s.hst.msgs } } = s)
      ∧ (i ∈ s.vectors → s.on HST.LINK.UP = false ∨ i ∉ s.hst.unmasked →
        ∃ t : State, exec (.vackWrite r v) s = .next (settle t) ∧ (∀ j, j ∈ t.hst.pba ↔ j = i ∨ j ∈ s.hst.pba)
          ∧ { t with hst := { t.hst with pba := s.hst.pba } } = s)
      ∧ (i ∉ s.vectors → exec (.vackWrite r v) s = .next (settle s)))
    ∧ (∀ (s : State) (v : Fin 32),
      (s.on HST.LINK.UP = true →
        ∃ t : State, exec (.msixUnmask v) s = .next (settle t)
          ∧ (∀ j, j ∈ t.hst.unmasked ↔ j = v.val ∨ j ∈ s.hst.unmasked) ∧ (∀ j, j ∈ t.hst.pba ↔ j ≠ v.val ∧ j ∈ s.hst.pba)
          ∧ (v.val ∈ s.hst.pba → v.val ∈ s.vectors → t.hst.msgs = {
              vec := v.val, data := s.msixWord v.val 2,
              addr := (s.msixWord v.val 0).toNat + (s.msixWord v.val 1).toNat * 2 ^ 32 } :: s.hst.msgs)
          ∧ (v.val ∉ s.hst.pba ∨ v.val ∉ s.vectors → t.hst.msgs = s.hst.msgs)
          ∧ { t with hst := { t.hst with unmasked := s.hst.unmasked, pba := s.hst.pba, msgs := s.hst.msgs } } = s)
      ∧ (s.on HST.LINK.UP = false → exec (.msixUnmask v) s = .next (settle s)))
    ∧ (∀ (s : State) (width speed : Nat), ∀ up : Bool, up = ((width == 1 || width == 2) && decide (1 ≤ speed) && decide (speed ≤ 3)
        && s.mode.powered && decide (s.mode ≠ .boot) && decide (s.pwr.held = none) && !s.on HST.LINK.LINKSEL) →
      (up = true →
        ∃ t : State, exec (.pcieLinkUp width speed) s = .next (settle t) ∧ t.on HST.LINK.UP = true ∧ t.f HST.LINK.WIDTH = width
          ∧ t.f HST.LINK.SPEED = speed ∧ RegsBut s t [HST.LINK.UP.off] ∧ { t with regs := s.regs } = s)
      ∧ (up = false → exec (.pcieLinkUp width speed) s = .next (settle s)))
    ∧ (∀ s : State, s.on HST.LINK.UP = false → exec .linkDown s = .next (settle s))
    ∧ (∀ s : State, s.on HST.LINK.UP = true →
      ∃ t : State, exec .linkDown s = .next (settle t) ∧ t.on HST.LINK.UP = false ∧ t.on HST.IRQ_RAW.LINKDOWN = true
        ∧ t.f HST.LINK.LINKSEL = s.f HST.LINK.LINKSEL ∧ t.hst.unmasked = [] ∧ t.hst.pba = [] ∧ t.hst.outbox = s.hst.outbox
        ∧ (∀ n : StreamId, ∀ x, x = s.hstream n.val → t.stOn n.val HST.SCFG.EN = false
          ∧ { t.hstream n.val with loss := x.loss } = { x with slot := none, restart := true }
          ∧ (x.loss = true → (t.hstream n.val).loss = true)
          ∧ (x.slot = none → t.stF n.val HST.SLOST.V = s.stF n.val HST.SLOST.V
            ∧ (n.val ≠ 6 → (t.hstream n.val).loss = x.loss))
          ∧ (∀ p, x.slot = some p → t.stF n.val HST.SLOST.V = counted s HST.SLOST.V p.payload.length (stAt n.val)
            ∧ (p.payload ≠ [] → (t.hstream n.val).loss = true)
            ∧ (n.val ≠ 6 → p.payload = [] → (t.hstream n.val).loss = x.loss)))
        ∧ ((s.session .pcie).role = .installer → (t.session .pcie).role = .operator)
        ∧ t.trk = s.trk ∧ t.raw = s.raw ∧ t.mode = s.mode ∧ t.lines = s.lines ∧ t.dsp = s.dsp ∧ t.slots = s.slots)
    ∧ (∀ s : State, s.aborting HST.page.base = false → exec .hstAbort s = .next (settle s))
    ∧ ∀ s : State, s.aborting HST.page.base = true →
      ∃ t : State, exec .hstAbort s = .next (settle t)
        ∧ (∀ n : StreamId, ∀ x, x = s.hstream n.val → t.stOn n.val HST.SCFG.EN = false ∧ (t.hstream n.val).slot = none
          ∧ (t.hstream n.val).c = x.c ∧ (t.hstream n.val).g = x.g ∧ t.stF n.val HST.SLOST.V = s.stF n.val HST.SLOST.V
          ∧ (x.restart = false → s.stOn n.val HST.SCFG.POLL = false → (∀ m : StreamId, s.stF m.val HST.SCFG.WGT ≠ 0) →
            ∀ p, x.slot = some p → p.polled = false →
            (t.hstream n.val).r = (x.r + (x.unrep + 1)) % 2 ^ 32 ∧ (t.hstream n.val).unrep = 0
              ∧ (s.slotPlace n.val p, slotHead n.val p false x.loss true s.vt) ∈ t.hst.outbox
              ∧ (s.stPair n.val HST.SREP_LO.V.off HST.SREP_HI.V.off, leBytes 4 ((x.r + (x.unrep + 1)) % 2 ^ 32) ++ leBytes 4 s.dep)
                ∈ t.hst.outbox))
        ∧ (∀ e ∈ s.regs, holderReg e.1 = true → s.holderAt e.1 = 1 ∨ s.holderAt e.1 = 2 → t.holderAt e.1 = 0)
        ∧ t.raw = s.raw ∧ t.trk = s.trk ∧ t.mode = s.mode ∧ t.mem = s.mem

/-- R6 to R8, R284, R285, R287, R289, R263, R264, R268: a write of a register stores its fields, a field that the writer's role
does not allow stays; a reserved address ignores it and reads 0; a register takes whole words alone; the dwords of a request go
in ascending order; accesses of the log store window are served in this cycle, or wait for the siding; the timetable and
program windows are read at once, and parts of words need a good word; a misaligned or unknown SPI transaction does nothing but
SPI_ERR, a burst ends at 4 KiB, a read whose word is not ready answers READY = 0; IRQ_SET for the maker; SEAL.
The model's choices in it: log entries 9, 23 and 24. -/
def Obligations.BusAccesses : Prop :=
  (∀ (s : State) (r : Requester) (u : RulerId) (v : Word), s.opens r (rulReg RUL.BCNT.V u.val) = true →
        rangeBad RUL.BCNT.fields v.toNat = false →
      ∃ t : State, exec (.registerWrite r (rulReg RUL.BCNT.V u.val) v) s = .next (settle t)
        ∧ t.ruF u.val RUL.BCNT.V = bitsAt v.toNat 0 RUL.BCNT.V.wid
        ∧ RegsBut s t [rulReg RUL.BCNT.V u.val] ∧ { t with regs := s.regs } = s)
    ∧ (∀ (s : State) (r : Requester) (u : RulerId) (v : Word), s.opens r (rulReg RUL.LIM.MINDT u.val) = true →
        rangeBad RUL.LIM.fields v.toNat = false → s.hasRole r .installer = false → s.sealed (RUL.page.base + pgAt u.val) = false →
      ∃ t : State, exec (.registerWrite r (rulReg RUL.LIM.MINDT u.val) v) s = .next (settle t)
        ∧ t.ruF u.val RUL.LIM.MINDT = s.ruF u.val RUL.LIM.MINDT ∧ t.ruF u.val RUL.LIM.SAFE_HI = s.ruF u.val RUL.LIM.SAFE_HI
        ∧ t.ruF u.val RUL.LIM.BOTHON = s.ruF u.val RUL.LIM.BOTHON ∧ { t with regs := s.regs } = s)
    ∧ (∀ (s : State) (r : Requester) (a : Nat) (v : Word), ∀ p, p = a / 4 * 4 →
      (s.reachable r = false → exec (.registerWrite r a v) s = .next (settle s))
      ∧ (s.reaches r = true → regAt p = none → exec (.registerWrite r a v) s = .next (settle s))
      ∧ (s.opens r p = true → regAt p ≠ none → exec (.registerWrite r a v) s = .next (settle (s.put r p v none))
        ∧ ∀ q b, pageOf p = some (q, b) → ∀ g ∈ fieldsAt p, g.acc = .rwl → s.allows r b g = false →
          bitsAt ((s.put r p v none).reg p).toNat g.lo g.wid = bitsAt (s.reg p).toNat g.lo g.wid))
    ∧ (∀ (s : State) (r : Requester) (u : RulerId) (o : Nat) (v : Word), ∀ a, a = RUL.page.base + pgAt u.val + o → regAt a ≠ none →
      o ∉ [0x08, 0x18, 0x1C, 0x20, 0x28, 0x40, 0x44, 0x48, 0x4C, 0x50, 0x54, 0x60, 0x64, 0x68, 0x78, 0x80, 0x84] → o < 0x1000 →
      s.opens r a = true → ∀ bad : Bool, bad = rangeBad (fieldsAt a) v.toNat →
      (bad = true → exec (.registerWrite r a v) s = .next (settle (s.capture (RUL.page.base + pgAt u.val) o r .range)))
      ∧ (bad = false →
        ∃ t : State, exec (.registerWrite r a v) s = .next (settle t)
          ∧ (∀ g ∈ fieldsAt a, bitsAt (t.reg a).toNat g.lo g.wid
              = g.written (s.allows r (RUL.page.base + pgAt u.val) g) v (s.reg a) (s.events a))
          ∧ t.raw = s.raw ∧ t.rul = s.rul ∧ t.trk = s.trk ∧ t.mode = s.mode))
    ∧ (∀ (s : State) (a : Nat) (v w : Word), a % 4 = 0 → a < 0x1FFFFC →
      (s.reachable .pcie = false ∨ s.ownDone .pcie = true →
          exec (.pcieWriteRequest a [(v, 15)]) s = exec (.registerWrite .pcie a v) s)
        ∧ (s.reaches .pcie = true → regAt a = none →
          exec (.pcieWriteRequest a [(v, 15), (w, 15)]) s = .next (settle ((s.write .pcie a v).write .pcie (a + 4) w))))
    ∧ (∀ (s : State) (a : Nat) (v : Word) (be : BitVec 4), s.reaches .pcie = true → a % 4 = 0 → a < 0x200000 → be ≠ 15 →
      exec (.pcieWriteRequest a [(v, be)]) s = .next (settle (if (regAt a).isSome then s.discard a .pcie .range else s)))
    ∧ (∀ (s : State) (a : Nat), s.reaches .pcie = true → a % 4 = 0 → a < 0x200000 → regAt a = none → s.pageWindow a = none →
      ∃ t : State, exec (.pcieReadRequest a 1) s = .next (settle t)
        ∧ t.hst.replies = { req := .pcie, addr := a, data := 0, poison := false } :: s.hst.replies
        ∧ { t with hst := { t.hst with replies := s.hst.replies } } = s)
    ∧ (∀ (s : State) (i : Nat) (v : Word) (be : BitVec 4) (r : Requester), i < 524288 → s.reaches r = true → s.mem.oneOut →
        (s.mode = .configure → s.hasRole r .maker = true) →
      ∀ k : WaitKind, k = .hostWrite v be.toNat → ∀ w : Wait, w = { sid := i / 32768, idx := i, req := r, kind := k, since := s.raw } →
      ∀ served : Bool, served = (s.admits (i / 32768) w && !(s.mem.waits.any (fun x => x.req = r))) →
      ∀ c : Instr, (c = .pcieWriteRequest (0x400000 + 4 * i) [(v, be)] ∧ r = .pcie) ∨ (c = .spiWrite (0x400000 + 4 * i) [v] ∧ r = .spi ∧ be = 15) →
        ∃ t : State, exec c s = .next (settle t) ∧ t.raw = s.raw ∧ t.mem.icb = s.mem.icb
          ∧ (served = true → (∀ j, j ≠ i → j / 32768 = i / 32768 → t.logPeek j = s.logPeek j)
            ∧ (be = 15 → t.logPeek i = v)
            ∧ (be ≠ 15 → s.ecc (s.logHome i).1 (s.logHome i).2 ≠ 2 → t.logPeek i = mergeBe (s.logPeek i) v be.toNat)
            ∧ (be ≠ 15 → s.ecc (s.logHome i).1 (s.logHome i).2 = 2 → t.logPeek i = s.logPeek i
              ∧ (s.on MEM.ERR_CAP.VALID = false → t.f MEM.ERR_CAP.REASON = Reason.ecc.code)))
          ∧ (served = false → t.mem.waits = s.mem.waits ++ [w]
            ∧ { t with mem := { t.mem with waits := s.mem.waits }, hst := { t.hst with spiErr := s.hst.spiErr }, seenNow := s.seenNow } = s)
          ∧ (r = .spi → t.hst.spiErr = false))
    ∧ (∀ (s : State) (i : Nat) (v : Word), i < 524288 → s.reaches .pcie = true → s.mode = .configure → s.hasRole .pcie .maker = false →
      exec (.pcieWriteRequest (0x400000 + 4 * i) [(v, 15)]) s = .next (settle (s.capture MEM.page.base (4 * i % 4096) .pcie .role)))
    ∧ (∀ (s : State) (i : Nat), i < 524288 → s.mem.oneOut →
      ∀ w : Requester → Wait, w = (fun r => { sid := i / 32768, idx := i, req := r, kind := .hostRead, since := s.raw }) →
      ∀ served : Requester → Bool, served = (fun r => s.admits (i / 32768) (w r) && !(s.mem.waits.any (fun x => x.req = r))) →
      ∀ bad, bad = decide (s.ecc (s.logHome i).1 (s.logHome i).2 = 2) →
      (s.reaches .pcie = true → served .pcie = true →
        ∃ t : State, exec (.pcieReadRequest (0x400000 + 4 * i) 1) s = .next (settle t) ∧ t.raw = s.raw
          ∧ (∀ j, j / 32768 = i / 32768 → t.logPeek j = s.logPeek j)
          ∧ t.hst.replies = { req := .pcie, addr := 0x400000 + 4 * i, data := s.logPeek i, poison := bad } :: s.hst.replies)
      ∧ (s.reaches .pcie = true → served .pcie = false →
        ∃ t : State, exec (.pcieReadRequest (0x400000 + 4 * i) 1) s = .next (settle t) ∧ t.mem.waits = s.mem.waits ++ [w .pcie]
          ∧ { t with mem := { t.mem with waits := s.mem.waits } } = s)
      ∧ (s.reaches .spi = true → served .spi = true →
        ∃ t : State, exec (.spiRead (0x400000 + 4 * i) 1) s = .next (settle t)
          ∧ (∀ j, j / 32768 = i / 32768 → t.logPeek j = s.logPeek j)
          ∧ t.hst.replies = { req := .spi, addr := 0x400000 + 4 * i, data := s.logPeek i, poison := bad } :: s.hst.replies
          ∧ t.hst.spiStatus = 1 + (if s.hst.spiErr then 2 else 0))
      ∧ (s.reaches .spi = true → served .spi = false →
        ∃ t : State, exec (.spiRead (0x400000 + 4 * i) 1) s = .next (settle t) ∧ t.mem = s.mem ∧ t.regs = s.regs
          ∧ t.hst.replies = { req := .spi, addr := 0x400000 + 4 * i, data := word s.drawn, poison := false } :: s.hst.replies
          ∧ t.hst.spiStatus = (if s.hst.spiErr then 2 else 0) ∧ t.hst.spiErr = false ∧ t.free = s.free + 1))
    ∧ (∀ (s : State) (i : Nat), s.reaches .pcie = true →
      (i < 65536 →
        ∃ t : State, exec (.pcieReadRequest (0x200000 + 4 * i) 1) s = .next (settle t) ∧ t.slots = s.slots
          ∧ t.raw = max s.raw (s.bankFree (32 + stTt))
          ∧ t.hst.replies = { req := .pcie, addr := 0x200000 + 4 * i, data := word ((s.slot (i / 4)).bits / 2 ^ (32 * (i % 4)))
                              poison := decide (s.ecc stTt i = 2) } :: s.hst.replies)
      ∧ (i < 2048 →
        ∃ t : State, exec (.pcieReadRequest (0x700000 + 4 * i) 1) s = .next (settle t) ∧ t.stores = s.stores
          ∧ t.raw = max s.raw (s.bankFree (32 + stShn))
          ∧ t.hst.replies = { req := .pcie, addr := 0x700000 + 4 * i, data := s.progWord i
                              poison := decide (s.ecc stShn i = 2) } :: s.hst.replies))
    ∧ (∀ (s : State) (i : Nat) (v : Word) (be : BitVec 4), s.reaches .pcie = true → i < 65536 →
      ∀ c, c = Instr.pcieWriteRequest (0x200000 + 4 * i) [(v, be)] →
      (s.mode ≠ .factory → exec c s = .next (settle (s.capture DSP.page.base (4 * i % 4096) .pcie .mode)))
      ∧ (s.mode = .factory → s.hasRole .pcie .maker = false →
        exec c s = .next (settle (s.capture DSP.page.base (4 * i % 4096) .pcie .role)))
      ∧ (s.mode = .factory → s.hasRole .pcie .maker = true → be = 15 ∨ s.ecc stTt i ≠ 2 →
        ∃ t : State, exec c s = .next (settle t) ∧ t.ttWord i = (if be = 15 then v else mergeBe (s.ttWord i) v be.toNat)
          ∧ t.ecc stTt i = 0 ∧ (∀ j, j / 4 ≠ i / 4 → t.slot (j / 4) = s.slot (j / 4))
          ∧ t.raw = max s.raw (s.bankFree (32 + stTt)) ∧ t.bankFree (32 + stTt) = t.raw + (if be = 15 then 1 else 2)
          ∧ t.trk = s.trk))
    ∧ (∀ (s : State) (a n : Nat) (ws : List Word),
      exec (.spiQwrite a ws) s = exec (.spiWrite a ws) s ∧ exec (.spiQread a n) s = exec (.spiRead a n) s)
    ∧ (∀ (s : State) (a : Nat) (ws : List Word) (n : Nat) (code : Byte), s.reaches .spi = true →
      ∀ cs : List Instr, cs = (if a % 4 ≠ 0 then [.spiWrite a ws, .spiRead a n, .spiQwrite a ws, .spiQread a n] else [])
        ++ (if spiCodes.contains code.toNat = false ∨ (code ≠ 5 ∧ a % 4 ≠ 0) then [.spiUnknownCommand code a] else []) →
      (∀ c ∈ cs, ∃ t : State, exec c s = .next (settle t) ∧ t.on HST.IRQ_RAW.SPI_ERR = true
        ∧ t.hst.spiErr = false ∧ RegsBut s t [HST.IRQ_RAW.REP.off]
        ∧ { t with seenNow := s.seenNow, regs := s.regs, hst := { t.hst with spiErr := s.hst.spiErr } } = s)
      ∧ (spiCodes.contains code.toNat = true → code = 5 ∨ a % 4 = 0 → exec (.spiUnknownCommand code a) s = .next (settle s)))
    ∧ (∀ (s : State) (a : Nat) (v w : Word), s.reaches .spi = true → a < 0x200000 → a % 4096 = 4092 → regAt a = none →
      s.pageWindow a = none →
      ∃ t : State, exec (.spiWrite a [v, w]) s = .next (settle t) ∧ t.on HST.IRQ_RAW.SPI_ERR = true ∧ t.hst.spiErr = true
        ∧ (s.on HST.ERR_CAP.VALID = false → t.f HST.ERR_CAP.REASON = Reason.range.code)
        ∧ RegsBut s t [HST.IRQ_RAW.REP.off, HST.ERR_CAP.VALID.off]
        ∧ { t with seenNow := s.seenNow, regs := s.regs, hst := { t.hst with spiErr := s.hst.spiErr } } = s)
    ∧ (∀ s : State, s.reaches .spi = true →
      ∃ t : State, exec .spiStatus s = .next (settle t) ∧ t.hst.spiStatus = 1 + (if s.hst.spiErr then 2 else 0)
        ∧ t.hst.spiErr = false ∧ { t with hst := { t.hst with spiStatus := s.hst.spiStatus, spiErr := s.hst.spiErr } } = s)
    ∧ ∀ (s : State) (r : Requester) (a : Nat) (v : Word),
      (pageOf a = none → exec (.irqSetWrite r a v) s = .next (settle s) ∧ exec (.lockSeal r a) s = .next (settle s))
      ∧ ∀ p b, pageOf a = some (p, b) →
      (s.opens r (b + 0x18) = true → pageOf (b + 0x18) = some (p, b) →
        ∀ m : Word, m = v &&& w1cBits (b + 0x10) →
        (m = 0 → exec (.irqSetWrite r a v) s = .next (settle s))
        ∧ (m ≠ 0 → s.hasRole r .maker = false → exec (.irqSetWrite r a v) s = .next (settle (s.capture b 0x18 r .role)))
        ∧ (m ≠ 0 → s.hasRole r .maker = true →
          ∃ t : State, exec (.irqSetWrite r a v) s = .next (settle t) ∧ t.reg (b + 0x10) = s.reg (b + 0x10) ||| m
            ∧ (∀ g ∈ fieldsAt (b + 0x10), g.acc = .w1c → g.wid = 1 → m.getLsbD g.lo = v.getLsbD g.lo)
            ∧ RegsBut s t [b + 0x10] ∧ { t with regs := s.regs } = s))
      ∧ (s.opens r (b + 0x28) = true → pageOf (b + 0x28) = some (p, b) →
        (s.sealed b = true → exec (.lockSeal r a) s = .next (settle s))
        ∧ (s.sealed b = false → s.hasRole r .installer = false → exec (.lockSeal r a) s = .next (settle (s.capture b 0x28 r .role)))
        ∧ (s.sealed b = false → s.hasRole r .installer = true →
          ∃ t : State, exec (.lockSeal r a) s = .next (settle t) ∧ t.sealed b = true ∧ t.raw = s.raw ∧ t.trk = s.trk))
/-! ### Consists, aborts, roll calls (file 13) -/

/-- R304, R305, R306, R308, R309, R310, R315, R316: BEGIN takes the first free slot; a write by the owner of an OPEN consist to a
consistable register is staged, in the place of an earlier one to the same address or in a new one, with the role held; one that
its register's rules refuse is discarded with their reason, one that finds no place breaks the consist; COMMIT closes an OPEN
consist with its boundary, the next one, a departure's, or an entry's; both are turned away otherwise, and while CNS is aborted;
the check in cycle c − 1 looks at every consist that is due and at no other: it marks one that passes, or that a mode without
commits lets no check reach, and ends one that does not pass, its places free and its reason captured; an abort ends every consist
but those about to commit.
The model's choices in it: log entries 25, 26 and 44. -/
def Obligations.ConsistLife : Prop :=
  (∀ (s : State) (r : Requester) (v : Word), s.reaches r = true → s.aborting CNS.page.base = true →
      ∀ c ∈ [Instr.consistBegin r, .consistCommit r v, .consistRollback r],
        exec c s = .next (settle (s.capture CNS.page.base (CNS.CMD.OP.off - CNS.page.base) r .busy)))
    ∧ (∀ (s : State) (r : Requester), s.reaches r = true → s.aborting CNS.page.base = false →
      (∀ k, (List.range 4).find? (fun k => (s.consist k).st = .free) = some k → s.mode ≠ .standby → s.consistOf r.id = none →
        ∃ t : State, exec (.consistBegin r) s = .next (settle t)
          ∧ t.consist k = { st := .opened, owner := r.id, role := s.role r, last := (s.consist k).last }
          ∧ (∀ j, j ≠ k → t.consist j = s.consist j) ∧ { t with cons := s.cons } = s)
      ∧ (s.mode = .standby → exec (.consistBegin r) s = .next (settle (s.discard CNS.CMD.OP.off r .mode)))
      ∧ (s.mode ≠ .standby → (s.consistOf r.id).isSome = true ∨ (∀ k : Fin 4, (s.consist k.val).st ≠ .free) →
        exec (.consistBegin r) s = .next (settle (s.discard CNS.CMD.OP.off r .busy))))
    ∧ (∀ (s : State) (r : Requester) (v : Word), s.reaches r = true → s.aborting CNS.page.base = false →
      ∀ whn, whn = bitsAt v.toNat 28 2 → ∀ i, i = bitsAt v.toNat 0 14 →
      ∀ waits : Bool, waits = (decide ((s.slot i).st = .queued) && decide ((s.slot i).place ≠ .reserved)
        && decide (eAction (s.slot i).bits = acCommit) && (s.consistFor i).isNone) →
      (∀ k, s.consistOf r.id = some k →
        ((s.consist k).st = .opened → whn = whNext →
          ∃ t : State, exec (.consistCommit r v) s = .next (settle t)
            ∧ t.consist k = { s.consist k with
                st := .closed, whn := whNext, dep := some (s.boundaryAfter 2), entry := 0, order := s.consOrd }
            ∧ t.consOrd = s.consOrd + 1 ∧ (∀ j, j ≠ k → t.consist j = s.consist j) ∧ (s.mirrors = false → t.twn = s.twn)
            ∧ { t with cons := s.cons, consOrd := s.consOrd, twn := s.twn } = s)
        ∧ ((s.consist k).st = .opened → whn = whDep → s.tooNear (s.commitDep r) 2 = false →
          ∃ t : State, exec (.consistCommit r v) s = .next (settle t)
            ∧ t.consist k = { s.consist k with
                st := .closed, whn := whDep, dep := some (s.commitDep r), entry := 0, order := s.consOrd }
            ∧ (∀ j, j ≠ k → t.consist j = s.consist j) ∧ (s.mirrors = false → t.twn = s.twn)
            ∧ { t with cons := s.cons, consOrd := s.consOrd, twn := s.twn } = s)
        ∧ ((s.consist k).st = .opened → whn = whEntry → waits = true →
          ∃ t : State, exec (.consistCommit r v) s = .next (settle t)
            ∧ t.consist k = { s.consist k with st := .closed, whn := whEntry, dep := none, entry := i, order := s.consOrd }
            ∧ (∀ j, j ≠ k → t.consist j = s.consist j) ∧ (s.mirrors = false → t.twn = s.twn)
            ∧ { t with cons := s.cons, consOrd := s.consOrd, twn := s.twn } = s)
        ∧ ((s.consist k).st = .opened → (whn = whDep ∧ s.tooNear (s.commitDep r) 2 = true) ∨ (whn = whEntry ∧ waits = false) →
          exec (.consistCommit r v) s = .next (settle (s.discard CNS.CMD.OP.off r .range)))
        ∧ ((s.consist k).st = .broken → whn ≠ 3 →
          exec (.consistCommit r v) s = .next (settle (s.discard CNS.CMD.OP.off r .busy)))
        ∧ ((s.consist k).st = .closed → whn ≠ 3 →
          exec (.consistCommit r v) s = .next (settle (s.discard CNS.CMD.OP.off r .mode))))
      ∧ (whn = 3 → exec (.consistCommit r v) s = .next (settle (s.discard CNS.CMD.OP.off r .range)))
      ∧ (whn ≠ 3 → s.consistOf r.id = none →
        exec (.consistCommit r v) s = .next (settle (s.discard CNS.CMD.OP.off r .mode))))
    ∧ (∀ s : State, s.mode.alive = false ∨ s.nextBoundary ≤ s.dep → exec .consistCheck s = .next (settle s))
    ∧ (∀ s : State, s.mode.alive = true → s.dep < s.nextBoundary → ∀ a, a = s.advanceVt (s.boundary s.nextBoundary - 64) →
      ∀ due, due = a.dueConsists s.nextBoundary →
      (due = [] → exec .consistCheck s = .next (settle a))
      ∧ (s.mode.commits = false →
        ∃ t : State, exec .consistCheck s = .next (settle t) ∧ { t with cons := s.cons } = a
          ∧ ∀ k, t.consist k = (if k ∈ due then { s.consist k with passed := true, mode := s.mode.code } else s.consist k))
      ∧ (∃ t : State, exec .consistCheck s = .next (settle t) ∧ t.raw = a.raw ∧ t.mode = s.mode
        ∧ ∀ k : Fin 4, (k.val ∉ due → t.consist k.val = s.consist k.val)
          ∧ (k.val ∈ due → t.consist k.val = { s.consist k.val with passed := true, mode := s.mode.code }
            ∨ ((t.consist k.val).st = .free ∧ (t.consist k.val).places = []
              ∧ ((t.consist k.val).last = coParity ∨ (t.consist k.val).last = coCheckFailed))))
      ∧ (∀ k ks, due = k :: ks → ks = [] → s.mode.commits = true → ∀ u o, a.verdict (s.consist k) = (u, o) →
        (o = none →
          ∃ t : State, exec .consistCheck s = .next (settle t)
            ∧ t.consist k = { s.consist k with passed := true, mode := s.mode.code } ∧ { t with cons := s.cons } = a)
        ∧ (∀ o', o = some o' →
          ∃ t : State, exec .consistCheck s = .next (settle t) ∧ (t.consist k).st = .free ∧ (t.consist k).last = o'.1
            ∧ ∀ b, o'.2 = some b → ∀ p c, pageOf b.place.addr = some (p, c) →
              bitsAt (s.reg (c + 0x1C)).toNat 31 1 = 0 → bitsAt (t.reg (c + 0x1C)).toNat 31 1 = 1
                ∧ bitsAt (t.reg (c + 0x1C)).toNat 27 4 = b.why % 16)
        ∧ (∀ p, (s.consist k).places.find? (fun p => !p.parity) = some p →
          o = some (coParity, some { place := p, why := Reason.ecc.code, left := a }))
        ∧ (∀ (p : Staged) (n : RulerId), (s.consist k).places = [p] → p.parity = true → p.addr = rulReg RUL.BCNT.V n.val →
            a.aborting (RUL.page.base + pgAt n.val) = false → (a.ownerRefusal (s.consist k).req p.addr).isNone = true →
          (rangeBad RUL.BCNT.fields (a.stagedVal p.addr p.val).toNat = false → o = none)
          ∧ (rangeBad RUL.BCNT.fields (a.stagedVal p.addr p.val).toNat = true → ∃ b, o = some (coCheckFailed, b)))))
    ∧ (∀ (s : State) (r : Requester) (a k : Nat) (v : Word), s.reaches r = true → s.consistOf r.id = some k →
      ∀ p, p = a / 4 * 4 → consMask p ≠ 0 → ∀ x, x = s.consist k →
      ∀ room : Bool, room = (decide (s.freePlaces ≠ 0) || x.places.any (fun q => q.addr = p)) →
      (x.st = .opened → s.stageBad r x.places p v = none → room = true →
        ∃ t : State, exec (.registerWrite r a v) s = .next (settle t)
          ∧ t.consist k = { x with places := stageIn x.places { addr := p, val := v &&& word (consMask p), role := s.role r } }
          ∧ (∀ j, j ≠ k → t.consist j = s.consist j) ∧ { t with cons := s.cons } = s)
      ∧ (x.st = .opened → s.stageBad r x.places p v = none → room = false →
        ∃ t : State, exec (.registerWrite r a v) s = .next (settle t) ∧ t.consist k = { x with st := .broken, last := coOverflow, places := [] }
          ∧ (∀ j, j ≠ k → t.consist j = s.consist j) ∧ t.on CNS.IRQ_RAW.OVERFLOW = true ∧ t.raw = s.raw
          ∧ ∀ q b, pageOf p = some (q, b) → bitsAt (s.reg (b + 0x1C)).toNat 31 1 = 0 →
            bitsAt (t.reg (b + 0x1C)).toNat 27 5 = 16 + Reason.busy.code)
      ∧ (∀ why, x.st = .opened → s.stageBad r x.places p v = some why → why ≠ .owner →
        exec (.registerWrite r a v) s = .next (settle (s.discard p r why)))
      ∧ (∀ u, x.st = .opened → s.stageBad r x.places p v = some .owner → s.ownerRefusal r p = some u →
        exec (.registerWrite r a v) s = .next (settle u))
      ∧ (∀ n : RulerId, p = rulReg RUL.BCNT.V n.val → x.places = [] → (s.ownerRefusal r p).isNone = true →
        s.stageBad r x.places p v = (if rangeBad RUL.BCNT.fields (v &&& word (consMask p)).toNat then some .range else none))
      ∧ (x.st = .broken → exec (.registerWrite r a v) s = .next (settle (s.discard p r .busy)))
      ∧ (∀ q b, x.st = .closed → pageOf p = some (q, b) → s.abortBlocks b (p - b) = false → (s.ownerRefusal r p).isNone = true →
        exec (.registerWrite r a v) s = .next (settle (s.put r p v none))))
    ∧ (∀ s : State, s.aborting CNS.page.base = false → exec .cnsAbort s = .next (settle s))
    ∧ ∀ s : State, s.aborting CNS.page.base = true →
      ∃ t : State, exec .cnsAbort s = .next (settle t)
        ∧ (∀ k : Fin 4, s.committing k.val = false → (t.consist k.val).st = .free
          ∧ ((s.consist k.val).st ≠ .free → (t.consist k.val).last = coAborted))
        ∧ (∀ k : Fin 4, s.committing k.val = true → t.consist k.val = s.consist k.val) ∧ t.trk = s.trk ∧ t.raw = s.raw

/-- R315 to R317, R319 to R323: GO begins an abort, absorbed into one in progress; an abort of CNS, and GLB.ABORT, which
begins one in every block but PWR and SEC, end the consists at once; an abort's completion, GLB's with every block's; aborts of
PWR and SEC; a roll call's request, its snapshot a cycle later with its head, its size and its checksum, its completion, an
automatic one, and when each of them does nothing.
The model's choices in it: log entries 26 and 27. -/
def Obligations.AbortsAndRollCalls : Prop :=
  (∀ (s : State) (r : Requester) (a : Nat), pageOf a = none →
      exec (.blockAbort r a) s = .next (settle s) ∧ exec (.abortComplete a) s = .next (settle s))
    ∧ (∀ (s : State) (r : Requester) (a : Nat), ∀ p b, pageOf a = some (p, b) → s.opens r (b + 0x20) = true →
      (s.aborting b = true → exec (.blockAbort r a) s = .next (settle s))
      ∧ (s.aborting b = false → b ≠ GLB.page.base → b ≠ CNS.page.base →
        ∃ t : State, exec (.blockAbort r a) s = .next (settle t) ∧ t.aborting b = true
          ∧ RegsBut s t [b + 0x24] ∧ { t with regs := s.regs } = s)
      ∧ (s.aborting b = false → b = CNS.page.base →
        ∃ t : State, exec (.blockAbort r a) s = .next (settle t) ∧ t.aborting b = true ∧ t.trk = s.trk ∧ t.raw = s.raw
          ∧ ∀ k : Fin 4, (s.committing k.val = false → (t.consist k.val).st = .free)
            ∧ (s.committing k.val = true → t.consist k.val = s.consist k.val))
      ∧ (b = GLB.page.base → exec (.blockAbort r a) s = exec (.glbAbort r) s))
    ∧ (∀ (s : State) (r : Requester), s.opens r (GLB.page.base + 0x20) = true → s.aborting GLB.page.base = false →
      ∃ t : State, exec (.glbAbort r) s = .next (settle t)
        ∧ (∀ b ∈ GLB.page.base :: glbPages, t.aborting b = true) ∧ t.aborting PWR.page.base = s.aborting PWR.page.base
        ∧ (∀ k : Fin 4, s.committing k.val = false → (t.consist k.val).st = .free)
        ∧ t.trk = s.trk ∧ t.eng = s.eng ∧ t.mode = s.mode ∧ t.raw = s.raw)
    ∧ (∀ (s : State) (a : Nat), ∀ p b, pageOf a = some (p, b) →
      (s.aborting b = false → exec (.abortComplete a) s = .next (settle s))
      ∧ (s.aborting b = true → b ≠ GLB.page.base →
        ∃ t : State, exec (.abortComplete a) s = .next (settle t) ∧ t.aborting b = false ∧ t.mode = s.mode ∧ t.raw = s.raw
          ∧ bitsAt (t.reg (b + 0x24)).toNat 0 1 = 1
          ∧ bitsAt (t.reg (b + 0x24)).toNat 16 16 = min 0xFFFF (bitsAt (s.reg (b + 0x24)).toNat 16 16 + 1)))
    ∧ (∀ s : State, s.aborting GLB.page.base = true → s.pwr.cmd = none →
      ∃ t : State, exec (.abortComplete GLB.page.base) s = .next (settle t) ∧ t.on GLB.IRQ_RAW.ABORT_DONE = true
        ∧ (∀ b ∈ GLB.page.base :: glbPages, t.aborting b = false) ∧ t.on DSP.CTL.RUN = (s.on DSP.CTL.RUN && !s.aborting DSP.page.base)
        ∧ t.mode = s.mode ∧ t.raw = s.raw)
    ∧ (∀ s : State, s.aborting PWR.page.base = true →
      ∃ t : State, exec (.abortComplete PWR.page.base) s = .next (settle t) ∧ t.pwr.cmd = none
        ∧ t.f PWR.ABORT_STS.COUNT = counted s PWR.ABORT_STS.COUNT ∧ t.on PWR.ABORT_STS.DONE = true
        ∧ exec .pwrAbort s = .next (settle { s with pwr := { s.pwr with cmd := none } })
        ∧ { t with regs := s.regs, pwr := { t.pwr with cmd := s.pwr.cmd } } = s)
    ∧ (∀ s : State, s.aborting PWR.page.base = false → exec .pwrAbort s = .next (settle s))
    ∧ (∀ s : State, s.aborting SEC.page.base = false → exec .secAbort s = .next (settle s))
    ∧ (∀ s : State, s.aborting SEC.page.base = true →
      ∃ t : State, exec .secAbort s = .next (settle t)
        ∧ (∀ r, r = .pcie ∨ r = .spi ∨ r = .jtag → (s.session r).role = .installer ∨ (s.session r).role = .maker →
            (t.session r).role = .operator ∧ (t.session r).stop = none) ∧ t.sec.otp = s.sec.otp ∧ t.raw = s.raw)
    ∧ (∀ (s : State) (r : Requester) (v : Word), s.opens r GLB.ROLLCALL.GO.off = true →
      (s.glb.rc = none → digestFits (bitsAt v.toNat 6 10) = true →
        ∃ t : State, exec (.rollcallRequest r v) s = .next (settle t)
          ∧ t.glb.rc = some { req := r.id, auto := false, dest := v.getLsbD 30, ofs := bitsAt v.toNat 6 10, asked := s.raw }
          ∧ RegsBut s t [GLB.ROLLCALL.GO.off] ∧ { t with regs := s.regs, glb := { t.glb with rc := s.glb.rc } } = s)
      ∧ (s.glb.rc.isSome = true → exec (.rollcallRequest r v) s = .next (settle (s.discard GLB.ROLLCALL.GO.off r .busy)))
      ∧ (s.glb.rc = none → digestFits (bitsAt v.toNat 6 10) = false →
        exec (.rollcallRequest r v) s = .next (settle (s.discard GLB.ROLLCALL.GO.off r .range))))
    ∧ (∀ s : State, s.glb.rc = none →
      exec .rollcallSnapshot s = .next (settle s) ∧ exec .rollcallComplete s = .next (settle s))
    ∧ (∀ s : State, ∀ x, s.glb.rc = some x →
      (x.bytes.isSome = true → exec .rollcallSnapshot s = .next (settle s))
      ∧ (x.bytes = none → exec .rollcallComplete s = .next (settle s)
        ∧ ∃ (t : State) (b : List Byte), exec .rollcallSnapshot s = .next (settle t) ∧ t.raw = max s.raw (x.asked + 1)
          ∧ t.glb.rc = some { x with bytes := some (b ++ leBytes 4 (crc32 b)) } ∧ b.length = 6140
          ∧ b.take 12 = leBytes 4 0x4C4C4352 ++ leBytes 2 1 ++ leBytes 2 6144 ++ leBytes 4 ((s.glb.gen + 1) % 2 ^ 32)
          ∧ { t with raw := s.raw, free := s.free, glb := { t.glb with rc := s.glb.rc } } = s)
      ∧ (∀ b, x.bytes = some b →
        ∃ t : State, exec .rollcallComplete s = .next (settle t) ∧ t.glb.rc = none ∧ t.glb.gen = (s.glb.gen + 1) % 2 ^ 32
          ∧ t.f GLB.CNT_EVT.LO = counted s GLB.CNT_EVT.LO ∧ t.on GLB.IRQ_RAW.RC_DONE = true
          ∧ (x.dest = true → t.hst.digest = true ∧ t.mem.icb = s.mem.icb ∧ t.raw = s.raw
            ∧ ∀ i w, (toWords b)[i]? = some w → SMap.get (fun _ => 0) t.mem.book (8192 + i) = w)
          ∧ (x.dest = false → t.hst.digest = s.hst.digest ∧ (s.mem.portA = [] →
            ∀ i w, (toWords b)[i]? = some w → t.icbPeek (x.ofs * 16 + i) = w))
          ∧ s.raw ≤ t.raw ∧ t.trk = s.trk))
    ∧ (∀ s : State, s.glb.autoAt = none ∨ s.mode.powered = false → exec .rollcallAuto s = .next (settle s))
    ∧ ∀ s : State, ∀ u, s.glb.autoAt = some u → s.mode.powered = true → ∀ n, n = some (u + s.f GLB.RCAUTO.PERIOD * 256000000) →
      ∀ fits, fits = digestFits (s.f GLB.ROLLCALL.OFS) →
      (s.glb.rc = none →
        ∃ t : State, exec .rollcallAuto s = .next (settle t) ∧ t.raw = max s.raw ((s.rawOf u + 63) / 64)
          ∧ t.glb.rc = (if fits then
              some { req := 0, auto := true, dest := s.on GLB.ROLLCALL.DEST, ofs := s.f GLB.ROLLCALL.OFS, asked := t.raw }
            else none)
          ∧ t.glb.autoAt = n ∧ { t with raw := s.raw, glb := s.glb } = s)
      ∧ (s.glb.rc.isSome = true →
        ∃ t : State, exec .rollcallAuto s = .next (settle t) ∧ t.glb.rc = s.glb.rc ∧ t.on GLB.IRQ_RAW.RC_SKIP = true
          ∧ t.f GLB.CNT_EVT.HI = counted s GLB.CNT_EVT.HI ∧ t.glb.autoAt = n
          ∧ { t with raw := s.raw, glb := s.glb, seenNow := s.seenNow, regs := s.regs } = s)
/-! ### Boot, images, sessions (file 14) -/

/-- R31, R83, R279, R324, R326 to R328, R331, R333 to R335, R391: Boot clears the stores, programs the PLL ratio that REFSEL selects,
checks the banks and waits for the PLL; lock brings Provision; loads begin, end from the log store or from either flash copy,
and pass into Configure, are held at the gate or fail; a load in Configure waits for the abort, which holds the engines and
halts the shunters; the maker's override; an OTP operation begins for the maker alone, and ends with what it blows.
The model's choices in it: log entries 5, 8 and 28. -/
def Obligations.BootAndImages : Prop :=
  (∀ (s : State) (ok : Bool), s.mode ≠ .boot ∨ s.sec.boot ≠ 0 ∨ s.pwr.held ≠ none → exec (.bootEntry ok) s = .next (settle s))
    ∧ (∀ (s : State) (ok : Bool), s.mode = .boot → s.sec.boot = 0 → s.pwr.held = none →
      ∀ o, o = s.sec.otp → ∀ banks, banks = (List.range 8).all s.bankOk →
      ∃ t : State, exec (.bootEntry ok) s = .next (settle t) ∧ t.mem = {} ∧ t.stores = {} ∧ t.mode = .boot
        ∧ 1024 ≤ t.f MEM.CLRTIME.V ∧ t.f MEM.CLRTIME.V ≤ 10000
        ∧ (ok = true → t.sec.boot = 1 ∧ t.sec.tries = 1 ∧ t.free = s.free + 2 ∧ t.glb.nonce < 2 ^ 32
            ∧ (o.refParity = false ∨ o.refsel % 4 = 0 → t.tbu.ratio = (16, 1))
            ∧ (o.refParity = true → o.refsel % 4 = 1 → t.tbu.ratio = (125, 6))
            ∧ (o.refParity = true → o.refsel % 4 = 2 → t.tbu.ratio = (200, 13))
            ∧ (o.refParity = true → o.refsel % 4 = 3 → t.tbu.ratio = (10, 1))
            ∧ (o.bad = true → t.on SEC.OTPSTS.OTP_ERR = true) ∧ (banks = false → t.on JNC.IRQ_RAW.BANK_FAULT = true)
            ∧ t.pwr.faults = s.pwr.faults ++ (if o.bad then [12] else []) ++ (if banks then [] else [4]))
        ∧ (ok = false → t.sec.boot = 2 ∧ t.f SEC.LOADSTS.REASON = 0x0E ∧ t.pwr = s.pwr ∧ t.free = s.free + 1))
    ∧ (∀ s : State, (s.mode = .boot → s.sec.boot = 1 →
        exec .pllRelockRetry s = .next (settle { s with sec := { s.sec with tries := s.sec.tries + 1 } }))
      ∧ (s.mode ≠ .boot ∨ s.sec.boot ≠ 1 → exec .pllRelockRetry s = .next (settle s)))
    ∧ (∀ (s : State) (ok : Bool) (st : BitVec 2),
      (s.mode = .boot → s.sec.boot = 1 →
        ∃ t : State, exec (.pllLock ok st) s = .next (settle t) ∧ t.mode = .provision ∧ t.sec.boot = 3
          ∧ t.sec.straps = st.toNat ∧ t.on TBU.STS.PLL_LOCK = true ∧ t.on HST.LINK.LINKSEL = st.getLsbD 1
          ∧ (st.getLsbD 0 = false → t.sec.load = some { src := 1, replace := false, role := .none, req := 0 })
          ∧ (st.getLsbD 0 = true → t.sec.load = s.sec.load)
          ∧ (ok = false → t.on MEM.STS.RETIRED = true ∧ t.on MEM.IRQ_RAW.BGT_FAIL = true ∧ t.pwr.faults = s.pwr.faults ++ [8])
          ∧ (ok = true → t.pwr.faults = s.pwr.faults ∧ t.mem = s.mem))
      ∧ (s.mode ≠ .boot ∨ s.sec.boot ≠ 1 → exec (.pllLock ok st) s = .next (settle (s.set1 TBU.STS.PLL_LOCK))))
    ∧ (∀ (s : State) (r : Requester) (v : Word), s.opens r SEC.CMD.OP.off = true →
      ∀ c, c = Instr.secLoad r v → ∀ idle, idle = (s.sec.load.isNone && s.sec.otpJob.isNone) →
      (bitsAt v.toNat 28 4 ≠ 1 → exec c s = .next (settle (s.discard SEC.CMD.OP.off r .range)))
      ∧ (bitsAt v.toNat 28 4 = 1 → idle = false → exec c s = .next (settle (s.discard SEC.CMD.OP.off r .busy)))
      ∧ (bitsAt v.toNat 28 4 = 1 → idle = true → s.mode = .provision →
        exec c s = .next (settle { s with sec := { s.sec with
          load := some { src := 3, replace := false, role := s.role r, req := r.id } } }))
      ∧ (bitsAt v.toNat 28 4 = 1 → idle = true → s.mode ≠ .provision → s.mode ≠ .configure →
        exec c s = .next (settle (s.discard SEC.CMD.OP.off r .mode)))
      ∧ (bitsAt v.toNat 28 4 = 1 → idle = true → s.mode = .configure → s.hasRole r .maker = false →
        exec c s = .next (settle (s.discard SEC.CMD.OP.off r .role)))
      ∧ (bitsAt v.toNat 28 4 = 1 → idle = true → s.mode = .configure → s.hasRole r .maker = true →
        ∃ t : State, exec c s = .next (settle t)
          ∧ t.sec.load = some { src := 3, replace := true, role := s.role r, req := r.id }
          ∧ (∀ b ∈ GLB.page.base :: glbPages, t.aborting b = true) ∧ t.mode = .configure ∧ t.trk = s.trk ∧ t.raw = s.raw))
    ∧ (∀ s : State, ∀ j, s.sec.load = some j → s.aborting GLB.page.base = true → j.replace = true → s.pwr.cmd = none →
      exec .loadComplete s = .next (settle s)
        ∧ ∃ t : State, exec (.abortComplete GLB.page.base) s = .next (settle t) ∧ t.sec.load = some j
          ∧ (∀ e : EngineId, (t.engine e.val).st = .held) ∧ (∀ n : ShunterId, (t.shunter n.val).st = .halted))
    ∧ (∀ s : State, s.sec.load = none → exec .loadComplete s = .next (settle s))
    ∧ (∀ s : State, ∀ j, s.sec.load = some j → s.mode = .provision ∨ s.mode = .configure → j.replace = true → s.aborting GLB.page.base = false →
      ∃ t : State, exec .loadComplete s = .next (settle t) ∧ t.sec.load = none ∧ t.sec.otp = s.sec.otp)
    ∧ (∀ s : State, ∀ j, s.sec.load = some j → j.replace = false → s.mode = .provision →
      ∀ src, src = (if j.src = 3 then 3 else if (s.tryImage 1).reason = 0 then 1 else 2) → ∀ v, v = s.tryImage src →
      ∀ prior, prior = (if src = 2 then (s.tryImage 1).reason else 0) →
      (v.reason = 0 →
        ∃ t : State, exec .loadComplete s = .next (settle t) ∧ t.mode = .configure ∧ t.sec.load = none
          ∧ t.sec.image = some (imageOf (s.sourceBytes src) v.slot) ∧ t.sec.held = none
          ∧ t.stores = storesOf s.sec.otp (s.sourceBytes src) ∧ t.f SEC.LOADSTS.REASON = 0 ∧ t.f SEC.LOADSTS.SOURCE = src
          ∧ t.on SEC.LOADSTS.OVERRIDDEN = s.on SEC.LOADSTS.OVERRIDDEN
          ∧ t.f SEC.LOADSTS.PRIOR = prior % 256 ∧ t.on SEC.LOADSTS.GATED = false ∧ t.on SEC.IRQ_RAW.LOAD_DONE = true
          ∧ (src = 3 → t.mem.log = []) ∧ (∀ e : EngineId, (t.engine e.val).st = .idle))
      ∧ (v.reason ≠ 0 →
        ∃ t : State, exec .loadComplete s = .next (settle t) ∧ t.mode = .provision ∧ t.sec.load = none ∧ t.sec.image = none
          ∧ t.f SEC.LOADSTS.REASON = v.reason % 256 ∧ t.f SEC.LOADSTS.SECT = v.sect % 256 ∧ t.f SEC.LOADSTS.PRIOR = prior % 256
          ∧ t.on SEC.LOADSTS.GATED = gateReason v.reason ∧ t.on SEC.IRQ_RAW.LOAD_FAIL = true
          ∧ t.f SEC.CNT_EVT.HI = counted s SEC.CNT_EVT.HI ∧ (src = 3 → t.mem.log = [])
          ∧ (gateReason v.reason = true → t.sec.held = some (imageOf (s.sourceBytes src) v.slot)
            ∧ t.stores = storesOf s.sec.otp (s.sourceBytes src))
          ∧ (gateReason v.reason = false → t.sec.held = none ∧ t.stores = {})))
    ∧ (∀ (s : State) (r : Requester), s.opens r SEC.CMD.OP.off = true →
      ∀ held : Bool, held = (decide (s.mode = .provision) && s.on SEC.LOADSTS.GATED && gateReason (s.f SEC.LOADSTS.REASON)) →
      (s.sec.otpJob.isSome = true → exec (.secOverride r) s = .next (settle (s.discard SEC.CMD.OP.off r .busy)))
      ∧ (s.sec.otpJob = none → s.hasRole r .maker = false →
        exec (.secOverride r) s = .next (settle (s.discard SEC.CMD.OP.off r .role)))
      ∧ (s.sec.otpJob = none → s.hasRole r .maker = true → held = false →
        exec (.secOverride r) s = .next (settle (s.discard SEC.CMD.OP.off r .mode)))
      ∧ (s.sec.otpJob = none → s.hasRole r .maker = true → held = true →
        ∃ t : State, exec (.secOverride r) s = .next (settle t) ∧ t.mode = .configure ∧ t.sec.image = s.sec.held
          ∧ t.sec.held = none ∧ t.on SEC.LOADSTS.OVERRIDDEN = true ∧ t.on SEC.LOADSTS.GATED = false
          ∧ (∀ e : EngineId, (t.engine e.val).st = .idle)))
    ∧ (∀ (s : State) (r : Requester), s.opens r SEC.CMD.OP.off = true →
      ∀ arg, arg = s.f SEC.OTPARG.V → ∀ good : Bool, good = (decide (s.mode = .provision) || decide (s.mode = .configure)) →
      ∀ p ∈ [(Instr.keyProg r, 5), (.keyRevoke r, 6), (.arbAdvance r, 7), (.refselProg r, 8)],
        (s.hasRole r .maker = false → exec p.1 s = .next (settle (s.discard SEC.CMD.OP.off r .role)))
        ∧ (s.hasRole r .maker = true → good = false → exec p.1 s = .next (settle (s.discard SEC.CMD.OP.off r .mode)))
        ∧ (s.hasRole r .maker = true → good = true → s.sec.otpJob.isSome = true →
          exec p.1 s = .next (settle (s.discard SEC.CMD.OP.off r .busy)))
        ∧ (s.hasRole r .maker = true → good = true → s.sec.otpJob = none → s.otpRange p.2 arg = true →
          exec p.1 s = .next (settle (s.discard SEC.CMD.OP.off r .range)))
        ∧ (s.hasRole r .maker = true → good = true → s.sec.otpJob = none → s.otpRange p.2 arg = false →
          exec p.1 s = .next (settle { s with sec := { s.sec with
            otpJob := some { op := p.2, arg := arg, hash := (s.tokenOf r).take 32, req := r.id } } })))
    ∧ (∀ s : State, s.sec.otpJob = none → exec .otpDone s = .next (settle s))
    ∧ ∀ s : State, ∀ j, s.sec.otpJob = some j → ∀ o, o = s.sec.otp → ∀ k, k = j.arg % 4 →
      ∃ t : State, exec .otpDone s = .next (settle t) ∧ t.sec.otpJob = none
        ∧ t.on SEC.IRQ_RAW.OTP_DONE = true ∧ t.sec.sessions = s.sec.sessions ∧ t.raw = s.raw
        ∧ (j.op = 5 → k < 3 → t.sec.otp.slotOf k = { o.slotOf k with hash := j.hash, prog := true, usage := j.arg / 16 % 8 }
          ∧ (∀ i : Fin 3, i.val ≠ k → t.sec.otp.slotOf i.val = o.slotOf i.val) ∧ t.sec.otp.arb = o.arb ∧ t.sec.otp.refsel = o.refsel)
        ∧ (j.op = 6 → k < 3 → t.sec.otp.slotOf k = { o.slotOf k with revoked := true }
          ∧ (∀ i : Fin 3, i.val ≠ k → t.sec.otp.slotOf i.val = o.slotOf i.val) ∧ t.sec.otp.arb = o.arb ∧ t.sec.otp.refsel = o.refsel)
        ∧ (j.op = 7 → t.sec.otp = { o with fuses := t.sec.otp.fuses } ∧ o.fuses &&& t.sec.otp.fuses = o.fuses
          ∧ t.sec.otp.arb = max o.arb (min 32 ((s.sec.image.map (fun i => i.svn)).getD 0)))
        ∧ (j.op = 8 → t.sec.otp = { o with refsel := k })

/-- R337 to R339: a fresh nonce; a token goes to verification, with the nonce where it is younger than 60 s; who has no
session, is locked out or has a token in verification is turned away; the role is raised, or the failure recorded and the fourth
locks the requester out; a session closes, expires; a lockout ends.
The model's choices in it: log entries 5, 8 and 29. -/
def Obligations.Sessions : Prop :=
  (∀ (s : State) (r : Requester), s.reaches r = true →
      ∃ (t : State) (n : Nat), exec (.nonceLoRead r) s = .next (settle t) ∧ (t.session r).nonce = some (n, s.raw)
        ∧ t.hst.replies = { req := r, addr := SEC.NONCE_LO.V.off, data := word n, poison := false } :: s.hst.replies
        ∧ t.preg r.id SEC.NONCE_HI.V.off = word (n / 2 ^ 32) ∧ CopiesBut s t r [SEC.NONCE_HI.V.off] ∧ t.free = s.free + 1
        ∧ (t.session r).role = (s.session r).role ∧ (∀ q, q ≠ r → t.session q = s.session q)
        ∧ { t with free := s.free, sec := s.sec, preqs := s.preqs, hst := { t.hst with replies := s.hst.replies } } = s)
    ∧ (∀ (s : State) (r : Requester), s.opens r SEC.SESS.OP.off = true →
      (hasSession r = false → exec (.sessionOpen r) s = .next (settle (s.discard SEC.SESS.OP.off r .role)))
      ∧ (hasSession r = true → s.lockedOut r = true →
        exec (.sessionOpen r) s
          = .next (settle ((s.setSession r { s.session r with result := 8 }).discard SEC.SESS.OP.off r .busy)))
      ∧ (hasSession r = true → s.lockedOut r = false → (s.session r).verify.isSome = true →
        exec (.sessionOpen r) s = .next (settle (s.discard SEC.SESS.OP.off r .busy)))
      ∧ (hasSession r = true → s.lockedOut r = false → (s.session r).verify = none →
        ∃ (t : State) (n : Option (Nat × Nat)), exec (.sessionOpen r) s = .next (settle t)
          ∧ t.session r = { s.session r with
              verify := some (s.tokenOf r, n), nonce := none, lockout := none
              fails := if (s.session r).lockout.isSome then 0 else (s.session r).fails }
          ∧ ((s.session r).nonce = none → n = none)
          ∧ (∀ x, (s.session r).nonce = some x → n = if s.raw < x.2 + minuteCycles then some x else none)
          ∧ (∀ q, q ≠ r → t.session q = s.session q) ∧ { t with sec := s.sec } = s))
    ∧ (∀ (s : State) (r : Requester),
      ((s.session r).verify = none → exec (.sessionVerifyComplete r) s = .next (settle s))
      ∧ ((s.session r).stop = none → exec (.sessionExpiry r) s = .next (settle s))
      ∧ ((s.session r).lockout = none → exec (.sessionLockoutEnd r) s = .next (settle s)))
    ∧ (∀ (s : State) (r : Requester), ∀ b n, (s.session r).verify = some (b, n) →
      (s.tokenResult b n = 0 →
        ∃ t : State, exec (.sessionVerifyComplete r) s = .next (settle t) ∧ (t.session r).role = Role.ofCode (numAt b 4 1)
          ∧ (t.session r).stop = some (s.raw + numAt b 6 2 * minuteCycles) ∧ (t.session r).fails = 0
          ∧ (t.session r).result = 0 ∧ (t.session r).verify = none ∧ t.on SEC.IRQ_RAW.SESS_OPEN = true
          ∧ (∀ q, q ≠ r → t.session q = s.session q) ∧ t.raw = s.raw ∧ t.trk = s.trk)
      ∧ (s.tokenResult b n ≠ 0 →
        ∃ t : State, exec (.sessionVerifyComplete r) s = .next (settle t) ∧ (t.session r).role = (s.session r).role
          ∧ (t.session r).stop = (s.session r).stop ∧ (t.session r).verify = none ∧ (t.session r).fails = (s.session r).fails + 1
          ∧ ((s.session r).fails < 3 → (t.session r).result = s.tokenResult b n
              ∧ (t.session r).lockout = (s.session r).lockout)
          ∧ (3 ≤ (s.session r).fails → (t.session r).result = 8 ∧ (t.session r).lockout = some (s.raw + minuteCycles))
          ∧ t.on SEC.IRQ_RAW.SESS_FAIL = true ∧ t.f SEC.CNT_EVT.LO = counted s SEC.CNT_EVT.LO
          ∧ (∀ q, q ≠ r → t.session q = s.session q) ∧ t.raw = s.raw ∧ t.trk = s.trk))
    ∧ (∀ (s : State) (r : Requester), s.opens r SEC.SESS.OP.off = true →
      ((s.session r).role = .installer ∨ (s.session r).role = .maker →
        ∃ t : State, exec (.sessionClose r) s = .next (settle t)
          ∧ t.session r = { s.session r with role := .operator, stop := none } ∧ (∀ q, q ≠ r → t.session q = s.session q)
          ∧ t.f SEC.LOGPOS.V = (s.f SEC.LOGPOS.V + 1) % 2 ^ 32 ∧ t.raw = s.raw ∧ t.trk = s.trk)
      ∧ ((s.session r).role.code ≤ Role.operator.code → exec (.sessionClose r) s = .next (settle s)))
    ∧ (∀ (s : State) (r : Requester), ∀ u, (s.session r).stop = some u →
      ((s.session r).role = .installer ∨ (s.session r).role = .maker →
        ∃ t : State, exec (.sessionExpiry r) s = .next (settle t) ∧ t.raw = max s.raw u
          ∧ t.session r = { s.session r with role := .operator, stop := none } ∧ (∀ q, q ≠ r → t.session q = s.session q)
          ∧ t.f SEC.LOGPOS.V = (s.f SEC.LOGPOS.V + 1) % 2 ^ 32 ∧ t.trk = s.trk)
      ∧ ((s.session r).role.code ≤ Role.operator.code → exec (.sessionExpiry r) s = .next (settle (s.advance u))))
    ∧ ∀ (s : State) (r : Requester), ∀ u, (s.session r).lockout = some u →
      ∃ t : State, exec (.sessionLockoutEnd r) s = .next (settle t) ∧ t.raw = max s.raw u
        ∧ t.session r = { s.session r with lockout := none, fails := 0 } ∧ (∀ q, q ≠ r → t.session q = s.session q)
        ∧ { t with raw := s.raw, sec := s.sec } = s

/-! ### The twin pair (file 15) -/

/-- R345, R347, R348, R369: twin operation enabled and ended, in the modes that allow it and by the role that may; the link up
and down; a frame with a bad CRC; HELLO: the peer's serial is held, devices that differ stay as they are with the first field
that differs, devices that agree take the roles of the rule, and later HELLO frames tell the peer's state. Without a link, or
outside the modes of the pair, nothing happens.
The model's choices in it: log entry 31. -/
def Obligations.Pairing : Prop :=
  (∀ (s : State) (r : Requester) (v : Word), s.opens r TWN.CTL.EN.off = true →
      ∀ may : Bool, may = (decide (s.mode = .configure) || (decide (s.mode = .standby) && s.on TWN.CTL.EN)) →
      (s.hasRole r .installer = true → s.sealed 0x5000 = false → s.mode = .configure → s.on TWN.CTL.EN = false → v.getLsbD 0 = true →
        ∃ t : State, exec (.twnEnable r v) s = .next (settle t) ∧ t.on TWN.CTL.EN = true ∧ t.on TWN.CTL.PREF = v.getLsbD 1
          ∧ t.on TWN.CTL.AMBIG = v.getLsbD 2 ∧ t.mode = .configure ∧ t.twn.st = s.twn.st
          ∧ (s.twn.linkUp = true → t.twn.out = .hello { s.hello with pref := v.getLsbD 1 } :: s.twn.out)
          ∧ (s.twn.linkUp = false → t.twn = s.twn))
      ∧ (s.hasRole r .installer = true → s.sealed 0x5000 = false → s.mode = .configure ∨ s.mode = .standby → s.on TWN.CTL.EN = true →
          v.getLsbD 0 = false →
        ∃ t : State, exec (.twnEnable r v) s = .next (settle t) ∧ t.on TWN.CTL.EN = false ∧ t.mode = .configure
          ∧ t.twn.st = .solo ∧ t.twn.linkUp = false ∧ t.twn.queue = [] ∧ t.twn.out = s.twn.out
          ∧ (s.srv = srvFollow → t.srv = srvFree))
      ∧ (may = false → s.on TWN.CTL.EN ≠ v.getLsbD 0 →
        exec (.twnEnable r v) s = .next (settle (s.discard TWN.CTL.EN.off r .mode)))
      ∧ (may = true ∨ s.on TWN.CTL.EN = v.getLsbD 0 → s.hasRole r .installer = false → s.sealed 0x5000 = false →
        ∃ t : State, exec (.twnEnable r v) s = .next (settle t) ∧ t.on TWN.CTL.EN = s.on TWN.CTL.EN
          ∧ RegsBut s t [0x5000 + 0x1C] ∧ { t with regs := s.regs } = s))
    ∧ (∀ s : State, s.mode.alive = false →
      ∀ c ∈ [Instr.izlarLinkUp, .izlarLinkDown, .frameCrcErr], exec c s = .next (settle s))
    ∧ (∀ s : State, s.mode.alive = true →
      (s.on TWN.CTL.EN = false → exec .izlarLinkUp s = .next (settle s))
      ∧ (s.on TWN.CTL.EN = true →
        exec .izlarLinkUp s = .next (settle { s with twn := { s.twn with linkUp := true, out := .hello s.hello :: s.twn.out } }))
      ∧ (s.twn.linkUp = false → exec .izlarLinkDown s = .next (settle s))
      ∧ (s.twn.linkUp = true → s.twn.st = .joining ∨ s.twn.st = .ready →
        exec .izlarLinkDown s = .next (settle (({ s with twn := { s.twn with linkUp := false, st := .notReady, sw := none } }
          : State).set1 TWN.IRQ_RAW.NOT_READY)))
      ∧ (s.twn.linkUp = true → s.twn.st = .solo ∨ s.twn.st = .primary ∨ s.twn.st = .notReady →
        exec .izlarLinkDown s = .next (settle { s with twn := { s.twn with linkUp := false } }))
      ∧ (s.linked = false → exec .frameCrcErr s = .next (settle s))
      ∧ (s.linked = true →
        ∃ t : State, exec .frameCrcErr s = .next (settle t) ∧ t.f TWN.CNT_EVT.HI = counted s TWN.CNT_EVT.HI
          ∧ t.on TWN.IRQ_RAW.CRC_ERR = true ∧ { t with seenNow := s.seenNow, regs := s.regs } = s))
    ∧ (∀ (s : State) (h : Hello), s.mode.alive = false ∨ s.linked = false → exec (.helloFrame h) s = .next (settle s))
    ∧ ∀ (s : State) (h : Hello), s.mode.alive = true → s.linked = true → ∀ d, d = helloDiff s.hello h →
      ∀ prim, prim = helloPrimary s.hello h → ∀ pairs : Bool, pairs = (decide (s.mode = .configure) || (prim && s.mode.running)) →
      ∃ t : State, exec (.helloFrame h) s = .next (settle t) ∧ t.f TWN.PEERSER_LO.V = h.serial % 2 ^ 32
        ∧ t.f TWN.PEERSER_HI.V = h.serial / 2 ^ 32 % 2 ^ 32
        ∧ (d ≠ 0 → RegsBut s t [TWN.PEERSER_LO.V.off, TWN.PEERSER_HI.V.off]
          ∧ { t with regs := s.regs } = { s with twn := { s.twn with pairErr := d } })
        ∧ (d = 0 → s.twn.st = .solo → pairs = false → RegsBut s t [TWN.PEERSER_LO.V.off, TWN.PEERSER_HI.V.off]
          ∧ { t with regs := s.regs } = s)
        ∧ (d = 0 → s.twn.st = .solo → pairs = true → prim = true → t.twn.st = .primary ∧ t.twn.peerSt = .joining
          ∧ t.on TWN.IRQ_RAW.PAIRED = true ∧ t.twn.pairErr = 0 ∧ t.mode = s.mode ∧ t.slots = s.slots
          ∧ t.twn.out = .hello { s.hello with state := 1 } :: s.twn.out)
        ∧ (d = 0 → s.twn.st = .solo → pairs = true → prim = false → t.twn.st = .joining ∧ t.twn.peerSt = .primary
          ∧ t.on TWN.IRQ_RAW.PAIRED = true ∧ t.mode = .standby ∧ t.slots = [] ∧ t.srv = srvFollow ∧ t.twn.copied = false
          ∧ t.twn.lock = false ∧ t.twn.rxSeq = 0 ∧ t.twn.expect = [] ∧ t.twn.rxAt = none)
        ∧ (d = 0 → s.twn.st ≠ .solo → h.state = 0 →
          { t with seenNow := s.seenNow, regs := s.regs } = { s with twn := { s.twn.freshHb with pairErr := 0, out := .hello s.hello :: s.twn.out } })
        ∧ (d = 0 → s.twn.st ≠ .solo → h.state ≠ 0 → t.twn.peerSt = twnStOf h.state ∧ t.twn.pairErr = 0 ∧ t.twn.st = s.twn.st
          ∧ t.twn.out = s.twn.out ∧ { t with seenNow := s.seenNow, regs := s.regs, twn := s.twn } = s
          ∧ (s.twn.st = .primary → h.state = 2 → s.twn.peerSt ≠ .joining →
            t.twn.owesCopy = true ∧ t.twn.killOut = false ∧ t.twn.queue = [] ∧ t.twn.unacked = []
              ∧ t.twn.enq = 0 ∧ t.twn.mirSeq = 0 ∧ t.twn.mirAck = 0))

/-- R349 to R351, R354, R359: a heartbeat received on either side, its exchange's θ, compared by a READY STANDBY or waiting for
the records before it, a fault flag that it carries, an RSEQ that is never met; a missed one, and what the third brings each
side.
The model's choices in it: log entry 31. -/
def Obligations.Heartbeats : Prop :=
  (∀ (s : State) (h : Heartbeat) (u : Nat), s.mode.alive = false ∨ s.linked = false ∨ s.twn.st = .solo →
      exec (.heartbeatFrame h u) s = .next (settle s))
    ∧ (∀ (s : State) (h : Heartbeat) (u : Nat), s.mode.alive = true → s.linked = true → s.twn.st ≠ .solo →
      ∃ t : State, exec (.heartbeatFrame h u) s = .next (settle t) ∧ t.raw = max s.raw ((u + 63) / 64)
        ∧ (h.seq < s.twn.rxNext → s.twn.rxAt ≠ none → t.twn.rxAt = s.twn.rxAt ∧ t.twn.rxNext = s.twn.rxNext
          ∧ t.twn.missed = s.twn.missed ∧ t.twn.expect = s.twn.expect)
        ∧ (s.twn.rxNext ≤ h.seq ∨ s.twn.rxAt = none → t.twn.rxAt = some (s.vtAt u) ∧ t.twn.missed = 0 ∧ t.twn.rxNext = h.seq + 1
          ∧ (s.twn.rxAt ≠ none → h.seq ∈ s.twn.expect.map (fun e => e.1) → t.twn.expSeq = s.twn.expSeq
            ∧ t.twn.expect = s.twn.expect.filter (fun e => e.1 ≠ h.seq))
          ∧ (s.twn.rxAt = none → t.twn.expect = []
            ∧ ∀ l, s.twn.txAt = some l →
              (vtDiff (s.vtAt u) l ≤ (s.f TWN.HBWIN.V * 64 : Nat) → t.twn.expSeq = h.seq + 1 ∧ t.twn.early = [])
              ∧ ((s.f TWN.HBWIN.V * 64 : Nat) < vtDiff (s.vtAt u) l → t.twn.expSeq = h.seq ∧ t.twn.early = [h.seq])))
        ∧ t.signals = s.signals ++ [{ kind := 6, idx := 0, g1 := h.seq, s0 := s.vtAt u, since := t.raw }]
        ∧ t.slots = s.slots ∧ t.mode = s.mode
        ∧ (h.faults &&& s.f TWN.FLTSEL.V ≠ 0 → t.on TWN.IRQ_RAW.PEER_FAULT = true)
        ∧ (∀ e r, s.thetaOf h = some (e, r) → s.twn.st = .ready ∨ s.twn.st = .notReady → h.seq = s.twn.rxNext →
          t.twn.theta = e ∧ t.twn.trip = some r)
        ∧ (h.faults &&& s.f TWN.FLTSEL.V ≠ 0 → s.twn.st = .joining ∨ s.twn.st = .notReady → t.on TWN.IRQ_RAW.PEER_LOST = true)
        ∧ (s.twn.st = .primary → t.twn.st = .primary ∧ t.twn.sw = s.twn.sw ∧ t.twn.queue = s.twn.queue
          ∧ (h.faults &&& s.f TWN.FLTSEL.V = 0 → { t with raw := s.raw, signals := s.signals, twn := s.twn } = s))
        ∧ (h.rseq = rseqNever → s.twn.st = .ready ∨ s.twn.st = .joining →
          t.twn.st = .notReady ∧ t.on TWN.IRQ_RAW.NOT_READY = true)
        ∧ (s.twn.st = .ready → s.twn.copied = true → s.twn.check = [] → h.rseq ≠ rseqNever →
          s.twn.rxSeq < h.rseq → t.twn.check = [(h.dep * s.dsp.period, h.rseq, h.live)] ∧ t.twn.cv = s.twn.cv
            ∧ t.twn.st = .ready))
    ∧ (∀ (s : State) (h : Heartbeat) (u : Nat), s.mode.alive = true → s.linked = true → h.faults &&& s.f TWN.FLTSEL.V = 0 →
        s.twn.st = .ready → s.twn.copied = true → s.twn.check = [] → s.twn.cons = [] →
        h.rseq ≤ s.twn.rxSeq → h.rseq ≠ rseqNever →
      ∃ t : State, exec (.heartbeatFrame h u) s = .next (settle t) ∧ t.twn.check = [] ∧ t.twn.cv = h.dep * s.dsp.period
        ∧ (s.countBooks.2.1 = h.live → t.twn.st = .ready ∧ t.twn.differ = 0 ∧ t.pwr = s.pwr)
        ∧ (s.countBooks.2.1 ≠ h.live → t.twn.differ = s.twn.differ + 1
            ∧ (s.twn.differ = 0 → t.twn.st = .ready ∧ t.pwr = s.pwr)
            ∧ (s.twn.differ = 1 → t.twn.st = .notReady ∧ t.on TWN.IRQ_RAW.DIVERGE = true ∧ t.on TWN.IRQ_RAW.NOT_READY = true
                ∧ t.pwr.faults = s.pwr.faults ++ [9])))
    ∧ (∀ (s : State) (h : Heartbeat) (u : Nat), s.mode.alive = true → s.linked = true → h.faults &&& s.f TWN.FLTSEL.V ≠ 0 →
        s.twn.st = .ready → s.twn.sw = none ∨ (∃ y, s.twn.sw = some y ∧ y.trig = 3
          ∧ ({ s with raw := max s.raw ((u + 63) / 64) } : State).cyc < y.w) →
        s.twn.cons = [] → s.twn.check = [] → s.twn.differ ≠ 1 → h.rseq ≠ rseqNever →
      ∃ (t : State) (x : Switch), exec (.heartbeatFrame h u) s = .next (settle t) ∧ t.twn.st = .ready ∧ t.twn.sw = some x
        ∧ x.trig = 2 ∧ x.w = t.cyc ∧ x.cv = s.twn.cv ∧ t.f TWN.LASTSW.TRIGGER = 2)
    ∧ (∀ s : State, s.mode.alive = false ∨ (s.linked = false ∧ s.twn.st = .solo) ∨ s.twn.expect = [] →
      exec .heartbeatMiss s = .next (settle s))
    ∧ ∀ s : State, s.mode.alive = true → s.linked = true ∨ s.twn.st ≠ .solo → ∀ k d ds, s.twn.expect = (k, d) :: ds →
      ∃ t : State, exec .heartbeatMiss s = .next (settle t) ∧ t.raw = max s.raw d ∧ t.mode = s.mode ∧ t.slots = s.slots
        ∧ t.signals = s.signals ++ [{ kind := 7, idx := 0, g1 := s.twn.missed + 1, s0 := s.vtAt (d * 64), since := t.raw }]
        ∧ t.f TWN.CNT_EVT.LO = counted s TWN.CNT_EVT.LO ∧ t.on TWN.IRQ_RAW.HB_MISS = true
        ∧ t.twn.expect = ds ∧ t.twn.rxNext = s.twn.rxNext ∧ t.twn.missed = s.twn.missed + 1 ∧ t.twn.st = s.twn.st
        ∧ (s.twn.missed ≠ 2 →
          t.twn = { s.twn with expect := ds, missed := s.twn.missed + 1 }
            ∧ { t with raw := s.raw, signals := s.signals, twn := s.twn, seenNow := s.seenNow, regs := s.regs } = s)
        ∧ (s.twn.missed = 2 → s.twn.st = .primary → t.twn = { s.twn with expect := ds, missed := 3 }
          ∧ t.on TWN.IRQ_RAW.PEER_LOST = true ∧ t.pwr.faults = s.pwr.faults ++ [10])
        ∧ (s.twn.missed = 2 → s.twn.st = .ready → s.twn.sw = none ∨ (∃ y, s.twn.sw = some y ∧ y.trig = 3 ∧ t.cyc < y.w) →
          t.twn.sw = some { trig := 1, w := t.cyc, cv := s.twn.cv } ∧ t.f TWN.LASTSW.TRIGGER = 1 ∧ t.pwr = s.pwr)
        ∧ (s.twn.missed = 2 → s.twn.st = .ready → ∀ y, s.twn.sw = some y → y.trig ≠ 3 ∨ y.w ≤ t.cyc → t.twn.sw = s.twn.sw)
        ∧ (s.twn.missed = 2 → s.twn.st = .joining ∨ s.twn.st = .notReady → t.on TWN.IRQ_RAW.PEER_LOST = true
          ∧ t.twn.sw = s.twn.sw ∧ t.pwr.faults = s.pwr.faults ++ [10])

/-- R345, R346, R350, R352, R355, R364: the records of a frame in order are applied and acknowledged, of every kind; a frame
after a gap, or one received before, changes nothing but the acknowledgement; a device that is no STANDBY, or has no link, takes
none; a joiner awaits record 1; an ACK takes acknowledged records off the PRIMARY's books, and one that acknowledges nothing new
sends it back to the first record that was not acknowledged; a queued frame is
sent, the unacknowledged ones again where nothing is queued, in a cycle that the mirror queue's siding gives.
The model's choices in it: log entry 31. -/
def Obligations.MirrorRecords : Prop :=
  (∀ (s : State) (n : Nat) (xs : List InsRec) (i o w b : Nat) (f : Bool) (rs : List (Nat × Nat)) (vs : List (Nat × Word))
      (bs : List BulkRec),
      ∀ cs, cs = [Instr.insFrame n xs, .canFrame n i f o, .retFrame n rs, .consFrame n i o w b f vs, .consAtFrame n i b,
        .consEndFrame n i o, .mapFrame n b w] →
      (s.mode.alive = false ∨ s.linked = false ∨ s.twn.st.standby = false → ∀ c ∈ .bulkFrame n bs f :: cs, exec c s = .next (settle s))
      ∧ (s.mode.alive = true → s.linked = true → s.twn.st.standby = true → s.twn.check = [] →
          s.twn.rxSeq + 1 < n →
        ∀ c ∈ .bulkFrame n bs f :: cs,
          ∃ t : State, exec c s = .next (settle t) ∧ t.twn.rxSeq = s.twn.rxSeq ∧ t.twn.out = .ack s.twn.rxSeq s.vt :: s.twn.out
            ∧ { t with twn := s.twn } = s)
      ∧ (s.mode.alive = true → s.linked = true → s.twn.st.standby = true → s.twn.check = [] →
          n ≤ s.twn.rxSeq →
        ∀ c ∈ (if n + xs.length ≤ s.twn.rxSeq + 1 then [Instr.insFrame n xs] else [])
            ++ (if n + rs.length ≤ s.twn.rxSeq + 1 then [Instr.retFrame n rs] else []) ++ [Instr.canFrame n i f o, .consFrame n i o w b f vs, .consAtFrame n i b, .consEndFrame n i o, .mapFrame n b w, .bulkFrame n bs f],
          ∃ t : State, exec c s = .next (settle t) ∧ t.twn.rxSeq = s.twn.rxSeq ∧ t.twn.out = .ack s.twn.rxSeq s.vt :: s.twn.out
            ∧ { t with twn := s.twn } = s))
    ∧ (∀ s : State, s.mode.alive = true → s.linked = true → s.twn.st.standby = true →
      s.twn.check = [] → s.twn.st ≠ .joining → ∀ n, n = s.twn.rxSeq + 1 →
      (∀ xs : List InsRec, (xs.map (fun x => x.slot)).Nodup → (∀ x ∈ xs, (s.slot x.slot).st = .free) →
        ∃ t : State, exec (.insFrame n xs) s = .next (settle t)
          ∧ (∀ x ∈ xs, (t.slot x.slot).bits = x.bits ∧ (t.slot x.slot).st = .queued
            ∧ ((t.slot x.slot).place = .parked ↔ x.park = true))
          ∧ (∀ j, j ∉ xs.map (fun x => x.slot) → t.slot j = s.slot j)
          ∧ t.twn.rxSeq = s.twn.rxSeq + xs.length ∧ t.twn.out = .ack t.twn.rxSeq s.vt :: s.twn.out ∧ t.raw = s.raw)
      ∧ (∀ (i q : Nat) (chain : Bool),
        ∃ t : State, exec (.canFrame n i chain q) s = .next (settle t)
          ∧ ((s.slot i).st = .queued → (t.slot i).st = .free ∧ (t.slot i).out = outCancelled)
          ∧ ((s.slot i).st ≠ .queued → t.slot i = s.slot i)
          ∧ (∀ j, j ≠ i → (chain = true → j ∉ s.chainOf i) → t.slot j = s.slot j)
          ∧ (chain = true → ∀ j ∈ s.chainOf i, (t.slot j).st = .free)
          ∧ t.twn.rxSeq = n ∧ t.twn.out = .ack n s.vt :: s.twn.out ∧ t.raw = s.raw)
      ∧ (∀ rs : List (Nat × Nat), (rs.map (fun p => p.1)).Nodup → s.twn.sw = none →
        ∃ t : State, exec (.retFrame n rs) s = .next (settle t)
          ∧ (∀ p ∈ rs, ((s.slot p.1).st = .queued → (t.slot p.1).st = .retiring ∧ (t.slot p.1).out = p.2)
            ∧ ((s.slot p.1).st ≠ .queued → t.slot p.1 = s.slot p.1))
          ∧ (∀ j, j ∉ rs.map (fun p => p.1) → t.slot j = s.slot j)
          ∧ t.twn.rxSeq = s.twn.rxSeq + rs.length ∧ t.twn.out = .ack t.twn.rxSeq s.vt :: s.twn.out ∧ t.raw = s.raw)
      ∧ (∀ i : Nat, (s.twn.sw.map Switch.trig) = some 3 → (s.slot i).st = .queued →
        ∃ t : State, exec (.retFrame n [(i, outCancelled)]) s = .next (settle t) ∧ t.twn.rxSeq = n ∧ { t with twn := s.twn } = s)
      ∧ (∀ (k o w b : Nat) (last : Bool) (vs : List (Nat × Word)),
        (s.twn.cons = [] →
          ∃ t : State, exec (.consFrame n k o w b last vs) s = .next (settle t)
            ∧ t.twn.cons = [{ slot := k, owner := o, whn := w, dep := if w = whEntry then none else some b
                              entry := if w = whEntry then b else 0, vals := vs, complete := last, seq := n
                              acked := if last ∨ vs = [] then some s.cyc else none }]
            ∧ t.twn.rxSeq = n ∧ t.twn.out = .ack n s.vt :: s.twn.out ∧ { t with twn := s.twn } = s)
        ∧ (∀ m ms, s.twn.cons = m :: ms → ms = [] → m.slot = k → m.complete = false →
          ∃ t : State, exec (.consFrame n k o w b last vs) s = .next (settle t)
            ∧ (t.twn.cons.map MirCns.vals) = [m.vals ++ vs] ∧ (t.twn.cons.map MirCns.complete) = [last]
            ∧ t.twn.rxSeq = n ∧ t.twn.out = .ack n s.vt :: s.twn.out ∧ { t with twn := s.twn } = s))
      ∧ (∀ d : Nat, ∀ m ms, s.twn.cons = m :: ms → ms = [] →
        (m.whn = whEntry → m.complete = true →
          ∃ t : State, exec (.consAtFrame n m.slot d) s = .next (settle t)
            ∧ t.twn.cons = [{ m with dep := some d, seq := n, acked := some s.cyc }]
            ∧ t.twn.rxSeq = n ∧ t.twn.out = .ack n s.vt :: s.twn.out ∧ { t with twn := s.twn } = s)
        ∧ (s.commanded = true → d = coEntryLost →
          ∃ t : State, exec (.consEndFrame n m.slot d) s = .next (settle t) ∧ t.twn.cons.map MirCns.slot = [m.slot]
            ∧ t.twn.rxSeq = n ∧ t.twn.out = .ack n s.vt :: s.twn.out ∧ { t with twn := s.twn } = s)
        ∧ (s.commanded = false ∨ d ≠ coEntryLost →
          ∃ t : State, exec (.consEndFrame n m.slot d) s = .next (settle t) ∧ t.twn.cons = [] ∧ t.twn.rxSeq = n
          ∧ (m.verdict ≠ some true → t.twn.st = s.twn.st ∧ t.twn.out = .ack n s.vt :: s.twn.out ∧ { t with twn := s.twn } = s)
          ∧ (m.verdict = some true → t.on TWN.IRQ_RAW.DIVERGE = true ∧ t.twn.st = .notReady ∧ t.pwr.faults = s.pwr.faults ++ [9])))
      ∧ (∀ v a : Nat,
        ∃ t : State, exec (.mapFrame n v a) s = .next (settle t) ∧ t.tbu.mapVt = v ∧ t.tbu.mapTai = a ∧ t.twn.rxSeq = n
          ∧ t.slots = s.slots ∧ { t with tbu := { t.tbu with mapVt := s.tbu.mapVt, mapTai := s.tbu.mapTai }, regs := s.regs, twn := s.twn } = s))
    ∧ (∀ (s : State) (n : Nat) (xs : List BulkRec) (last : Bool), s.mode.alive = true → s.linked = true → s.twn.st = .joining →
        s.twn.check = [] → n = s.twn.rxSeq + 1 → (xs.map (fun x => x.slot)).Nodup →
      ∃ t : State, exec (.bulkFrame n xs last) s = .next (settle t)
        ∧ (∀ x ∈ xs, (t.slot x.slot).bits = x.bits ∧ ((t.slot x.slot).st = if x.state = 3 then .retiring else .queued))
        ∧ (∀ j, j ∉ xs.map (fun x => x.slot) → t.slot j = s.slot j)
        ∧ t.twn.copied = (s.twn.copied || last) ∧ t.twn.rxSeq = n
        ∧ t.twn.out = .ack n s.vt :: s.twn.out)
    ∧ (∀ (s : State) (q l : Nat),
      (s.mode.alive = false ∨ s.linked = false ∨ s.twn.st ≠ .primary → exec (.ackFrame q l) s = .next (settle s))
      ∧ (s.mode.alive = true → s.linked = true → s.twn.st = .primary → s.twn.mirSeq < q →
        exec (.ackFrame q l) s = .next (settle s))
      ∧ (s.mode.alive = true → s.linked = true → s.twn.st = .primary → q ≤ s.twn.mirSeq →
        ∃ t : State, exec (.ackFrame q l) s = .next (settle t) ∧ t.twn.out = s.twn.out
          ∧ (q = s.twn.mirAck → t.twn.queue = s.twn.unacked ++ s.twn.queue ∧ t.twn.unacked = [] ∧ t.twn.mirAck = s.twn.mirAck)
          ∧ (q ≠ s.twn.mirAck → t.twn.unacked = s.twn.unacked.filter (fun p => q < p.1)
            ∧ t.twn.queue = s.twn.queue.filter (fun p => q < p.1) ∧ t.twn.mirAck = max s.twn.mirAck q)
          ∧ t.twn.cons = s.twn.cons.map (fun m =>
              if m.acked = none ∧ m.seq ≤ q ∧ (m.complete = true ∨ m.vals = []) then { m with acked := some (l / 64) } else m)
          ∧ { t with twn := s.twn } = s))
    ∧ (∀ s : State, s.mode.alive = false ∨ s.linked = false ∨ s.twn.st ≠ .primary ∨ s.twn.toRing ≠ []
        ∨ (s.twn.queue = [] ∧ s.twn.unacked = []) →
      exec .mirrorSend s = .next (settle s))
    ∧ ∀ s : State, s.mode.alive = true → s.linked = true → s.twn.st = .primary → s.twn.toRing = [] →
      ∀ again : Bool, again = decide (s.twn.queue = []) → ∀ q, q = (if again then s.twn.unacked else s.twn.queue) →
      ∀ x rest, q = x :: rest → ∀ d, d = s.f TWN.MQ.SIDING → ∀ k, k = batch q →
      (s.dmaReady d 41 = true →
        ∃ t : State, exec .mirrorSend s = .next (settle t) ∧ t.twn.out = .mirror x.1 ((q.take k).map (fun p => p.2)) :: s.twn.out
          ∧ (again = true → t.twn = { s.twn with out := t.twn.out })
          ∧ (again = false → t.twn = { s.twn with
              out := t.twn.out, queue := q.drop k, unacked := s.twn.unacked ++ q.take k
              mirSeq := max s.twn.mirSeq (x.1 + (q.take k).length - 1) })
          ∧ { t with mem := s.mem, regs := s.regs, twn := s.twn } = s)
      ∧ (s.dmaReady d 41 = false →
        ∃ t : State, exec .mirrorSend s = .next (settle t) ∧ t.twn = s.twn ∧ s.dmaWait d 41 ∈ t.mem.waits
          ∧ { t with mem := { t.mem with waits := s.mem.waits } } = s)

/-- R80, R358 to R361, R364, R365, R371: a commanded switchover on both devices, the lines driven, the takeover with its servo,
its entries of the ambiguous window and its count, the kill input, REJOIN, the abort of TWN; and where each of them does nothing.
The model's choices in it: log entry 31. -/
def Obligations.Switchover : Prop :=
  (∀ (s : State) (w : Nat),
      (s.mode.alive = false ∨ s.linked = false ∨ s.twn.st.standby = false ∨ (s.twn.st = .ready ∧ s.twn.sw.isSome = true) →
        exec (.switchFrame w) s = .next (settle s))
      ∧ (s.mode.alive = true → s.linked = true → s.twn.st = .ready → s.twn.sw = none →
        exec (.switchFrame w) s = .next (settle { s with twn := { s.twn with sw := some { trig := 3, w := w, cv := s.twn.cv } } }))
      ∧ (s.mode.alive = true → s.linked = true → s.twn.st = .joining ∨ s.twn.st = .notReady →
        ∃ t : State, exec (.switchFrame w) s = .next (settle t) ∧ t.on TWN.IRQ_RAW.PEER_LOST = true
          ∧ t.pwr.faults = s.pwr.faults ++ [10] ∧ t.twn = s.twn ∧ t.mode = s.mode))
    ∧ (∀ s : State, s.twn.sw = none →
      exec .switchoverDrive s = .next (settle s) ∧ exec .switchoverTakeover s = .next (settle s))
    ∧ (∀ s : State, ∀ x, s.twn.sw = some x →
      (s.mode.alive = false ∨ x.driven = true → exec .switchoverDrive s = .next (settle s))
      ∧ (s.mode.alive = true → x.driven = false →
        ∃ t : State, exec .switchoverDrive s = .next (settle t) ∧ t.raw = (s.advanceVt ((x.w + 10) * 64)).raw
          ∧ t.twn = { s.twn with sw := some { x with driven := true }, killOut := true }
          ∧ t.f TWN.LASTSW.TRIGGER = x.trig % 16 ∧ RegsBut s t [TWN.LASTSW.TRIGGER.off]
          ∧ { t with raw := s.raw, regs := s.regs, twn := s.twn } = s)
      ∧ (s.mode ≠ .standby → exec .switchoverTakeover s = .next (settle s))
      ∧ (s.mode = .standby → ∀ lo, lo = (x.cv - 1) * 64 →
        ∃ t : State, exec .switchoverTakeover s = .next (settle t) ∧ t.twn.st = .primary ∧ t.twn.sw = none ∧ t.twn.killOut = true
          ∧ t.on TWN.IRQ_RAW.TAKEOVER = true ∧ t.on DSP.CTL.RUN = true ∧ t.mode.running = true
          ∧ t.f TWN.COUNT.SWITCHES = counted s TWN.COUNT.SWITCHES ∧ t.f TWN.LASTSW.TRIGGER = x.trig % 16
          ∧ t.raw = (s.advanceVt (s.boundary ((x.w + 200 + s.dsp.period - 1) / s.dsp.period))).raw
          ∧ t.f TWN.LASTSW.DEP = t.dep % 2 ^ TWN.LASTSW.DEP.wid
          ∧ (s.srvOn = true → s.on TBU.STS.REF_QUAL = true → t.srv = srvAcquire)
          ∧ (s.srvOn = true → s.on TBU.STS.REF_QUAL = false → t.srv = srvHoldover)
          ∧ (s.srvOn = false → t.srv = srvFree)
          ∧ (∃ e, t.signals = s.signals ++ [e] ∧ e.kind = 7)
          ∧ (x.trig ≠ 3 → s.on TWN.CTL.AMBIG = false → ∀ e ∈ s.slots, e.2.st = .queued →
            ∀ u, (eAngle e.2.bits = false ∧ e.2.place ≠ .parked ∧ u = startOf e.2.bits)
              ∨ (eAngle e.2.bits = true ∧ e.2.place = .lane ∧ u = e.2.start) →
            lo ≤ u → u < (x.w + 10) * 64 → s.slots.Pairwise (fun a b => a.1 < b.1) →
            (t.slot e.1).st = .retiring ∧ (t.slot e.1).out = outAborted)))
    ∧ (∀ s : State,
      (s.mode.alive = true → s.twn.st = .primary → ∀ p, s.mode = .halt → s.pwr.haltFault = some p →
        ∃ t : State, exec .killInput s = .next (settle t) ∧ t.pwr.haltFault = none
          ∧ (p.1 = 2 → t.mode = .boot)
          ∧ (p.1 ≠ 2 → t.mode = .safe ∧ t.twn.killIn = true ∧ t.on DSP.CTL.RUN = false ∧ t.twn.st = .notReady
            ∧ t.on TWN.IRQ_RAW.DEPOSED = true))
      ∧ (s.mode.alive = true → s.twn.st = .primary → s.mode ≠ .halt ∨ s.pwr.haltFault = none →
        ∃ t : State, exec .killInput s = .next (settle t) ∧ t.twn.killIn = true ∧ t.on DSP.CTL.RUN = false ∧ t.twn.st = .notReady
          ∧ t.mode = .standby ∧ t.on TWN.IRQ_RAW.DEPOSED = true ∧ t.srv = srvFollow ∧ t.twn.queue = [] ∧ t.pwr.cmd = none
          ∧ (s.pwr.cmd.isSome = true → t.f PWR.CMDSTS.RESULT = 2))
      ∧ (s.mode.alive = true → s.twn.st ≠ .primary →
        exec .killInput s = .next (settle (({ s with twn := { s.twn with killIn := true } } : State).clr DSP.CTL.RUN)))
      ∧ (s.mode.alive = false → exec .killInput s = .next (settle { s with twn := { s.twn with killIn := true } }))
      ∧ exec .killInputRelease s = .next (settle { s with twn := { s.twn with killIn := false } }))
    ∧ (∀ (s : State) (r : Requester), s.opens r TWN.CMD.OP.off = true →
      ∀ sw : Bool, sw = (decide (s.twn.st = .primary) && decide (s.twn.peerSt = .ready)) →
      ∀ rj : Bool, rj = (decide (s.twn.st = .notReady) && decide (s.mode = .standby)) →
      ∀ may : Bool, may = s.hasRole r (if s.sealed TWN.page.base then .maker else .installer) →
      (may = true → sw = true → ∀ w, (∀ v, s.twn.yieldAt = some v → s.cyc < v → w = v)
          ∧ (s.twn.yieldAt = none ∨ (∃ v, s.twn.yieldAt = some v ∧ v ≤ s.cyc) → w = (s.dep + 2) * s.dsp.period) →
        exec (.twnSwitchCmd r) s = .next (settle { s with twn := { s.twn with
          out := .switch w :: s.twn.out, yieldAt := some w, released := s.yielded } }))
      ∧ (may = false → sw = true → exec (.twnSwitchCmd r) s = .next (settle (s.discard TWN.CMD.OP.off r .role)))
      ∧ (sw = false → exec (.twnSwitchCmd r) s = .next (settle (s.discard TWN.CMD.OP.off r .mode)))
      ∧ (may = true → rj = true →
        ∃ t : State, exec (.twnRejoin r) s = .next (settle t) ∧ t.twn.st = .joining ∧ t.mode = .standby ∧ t.slots = []
          ∧ t.srv = srvFollow ∧ t.twn.copied = false ∧ t.twn.lock = false)
      ∧ (may = false → rj = true → exec (.twnRejoin r) s = .next (settle (s.discard TWN.CMD.OP.off r .role)))
      ∧ (rj = false → exec (.twnRejoin r) s = .next (settle (s.discard TWN.CMD.OP.off r .mode))))
    ∧ ∀ s : State,
      (s.aborting TWN.page.base = true → s.twn.st = .primary →
        ∃ t : State, exec .twnAbort s = .next (settle t) ∧ t.twn.queue = [] ∧ t.twn.unacked = [] ∧ t.twn.toRing = []
          ∧ t.twn.st = .primary ∧ t.twn.expect = s.twn.expect ∧ t.twn.txAt = s.twn.txAt
          ∧ (s.linked = true → ∃ b, t.twn.out = .heartbeat b :: s.twn.out ∧ b.rseq = rseqNever ∧ b.seq = s.twn.txSeq)
          ∧ (s.linked = false → t.twn.out = s.twn.out)
          ∧ (∀ e ∈ s.regs, holderReg e.1 = true → s.holderAt e.1 = 0x21 → t.holderAt e.1 = 0)
          ∧ { t with regs := s.regs, twn := s.twn } = s)
      ∧ (s.aborting TWN.page.base = true → s.twn.st = .ready ∨ s.twn.st = .joining →
        ∃ t : State, exec .twnAbort s = .next (settle t) ∧ t.twn.st = .notReady ∧ t.on TWN.IRQ_RAW.NOT_READY = true
          ∧ t.twn.linkUp = s.twn.linkUp ∧ (∀ e ∈ s.regs, holderReg e.1 = true → s.holderAt e.1 = 0x21 → t.holderAt e.1 = 0))
      ∧ (s.aborting TWN.page.base = true → s.twn.st = .solo ∨ s.twn.st = .notReady →
        ∃ t : State, exec .twnAbort s = .next (settle t) ∧ { t with regs := s.regs } = s
          ∧ (∀ e ∈ s.regs, holderReg e.1 = true → s.holderAt e.1 = 0x21 → t.holderAt e.1 = 0))
      ∧ (s.aborting TWN.page.base = false → exec .twnAbort s = .next (settle s))

/-! ### Modes, power, reset (file 16) -/

/-- R369 to R371, R374 to R376, R380: PWR.CMD: for each OP, the mode and the role that the table of transitions asks for, a
command in progress, and otherwise the move, at once, in the cycle after, or after the abort that it begins with.
The model's choices in it: log entries 30 and 2. -/
def Obligations.PowerCommands : Prop :=
  (∀ (s : State) (r : Requester), s.opens r PWR.CMD.OP.off = true →
      ∀ live : Option Role, live = (if s.mode = .configure ∨ s.mode.running = true ∨ s.mode = .safe then some .operator else none) →
      ∀ p ∈ [(Instr.pwrConfigure r, if s.mode.running then some Role.operator else if s.mode = .safe then some .installer else none),
          (.pwrRun r, if s.mode = .configure then some .operator else if s.mode = .safe then some .installer else none),
          (.pwrSafe r, if s.mode = .safe then none else live), (.pwrHibernate r, live),
          (.pwrKeeptime r, if s.pwr.xtalOk then live else none), (.pwrReset r, some .installer),
          (.pwrFactory r, if s.mode = .configure then some .maker else none)],
        (p.2 = none → exec p.1 s = .next (settle (s.discard PWR.CMD.OP.off r .mode)))
        ∧ (∀ q, p.2 = some q → s.hasRole r q = false → exec p.1 s = .next (settle (s.discard PWR.CMD.OP.off r .role)))
        ∧ (∀ q, p.2 = some q → s.hasRole r q = true → s.pwr.cmd.isSome = true →
          exec p.1 s = .next (settle (s.discard PWR.CMD.OP.off r .busy))))
    ∧ ∀ (s : State) (r : Requester), s.opens r PWR.CMD.OP.off = true → s.pwr.cmd = none →
      (s.mode = .safe → s.hasRole r .installer = true →
        ∃ t : State, exec (.pwrConfigure r) s = .next (settle t) ∧ t.mode = .configure ∧ t.f PWR.CMDSTS.RESULT = 1
          ∧ t.on PWR.IRQ_RAW.MODE_CHG = true ∧ t.pwr.cmd = none ∧ t.slots = s.slots ∧ t.raw = s.raw)
      ∧ (∀ p ∈ [(Instr.pwrConfigure r, 1, s.mode.running), (.pwrHibernate r, 4, s.mode.running || decide (s.mode = .safe)),
            (.pwrKeeptime r, 5, (s.mode.running || decide (s.mode = .safe)) && s.pwr.xtalOk)],
          p.2.2 = true → s.hasRole r .operator = true →
          ∃ t : State, exec p.1 s = .next (settle t) ∧ t.pwr.cmd = some p.2.1 ∧ t.f PWR.CMDSTS.RESULT = 0 ∧ t.mode = s.mode
            ∧ t.aborting GLB.page.base = true ∧ (∀ b, b ∈ glbPages → t.aborting b = true) ∧ t.raw = s.raw)
      ∧ (s.mode = .configure ∧ s.hasRole r .operator = true ∨ s.mode = .safe ∧ s.hasRole r .installer = true →
        ∃ t : State, exec (.pwrRun r) s = .next (settle t) ∧ t.mode = s.runMode ∧ t.on DSP.CTL.RUN = true
          ∧ t.f PWR.CMDSTS.RESULT = 1 ∧ t.on PWR.IRQ_RAW.MODE_CHG = true ∧ t.raw = s.raw)
      ∧ (s.mode = .configure ∨ s.mode.running = true → s.hasRole r .operator = true →
        ∃ t : State, exec (.pwrSafe r) s = .next (settle t) ∧ t.mode = .safe ∧ t.raw = s.raw + 1 ∧ t.pwr.prev = s.mode.code
          ∧ t.f PWR.SAFECAUSE.CAUSE = 2 ∧ t.f PWR.SAFECAUSE.FAULT = 0 ∧ t.on PWR.IRQ_RAW.SAFE = true
          ∧ t.f PWR.CNT_EVT.LO = counted s PWR.CNT_EVT.LO ∧ t.f PWR.CMDSTS.RESULT = 1
          ∧ (∀ b, b ∈ safePages → t.aborting b = true))
      ∧ (∀ p ∈ [(Instr.pwrHibernate r, Mode.hibernate), (.pwrKeeptime r, .keeptime)],
          s.mode = .configure → s.hasRole r .operator = true → p.2 = .hibernate ∨ s.pwr.xtalOk = true →
          ∃ t : State, exec p.1 s = .next (settle t) ∧ t.mode = p.2 ∧ t.pwr.pmicEn = false ∧ t.slots = [] ∧ t.mem = {}
            ∧ t.sec.otp = s.sec.otp ∧ t.sec.flash = s.sec.flash ∧ (∀ a, keepsake a = true → t.reg a = s.reg a))
      ∧ (s.hasRole r .installer = true →
        ∃ t : State, exec (.pwrReset r) s = .next (settle t) ∧ t.mode = .boot ∧ t.pwr.held = none ∧ t.f PWR.KS_CAUSE.CAUSE = 4
          ∧ t.f PWR.KS_CAUSE.LASTMODE = s.mode.code ∧ t.vt = 0 ∧ t.raw = s.raw + 1 ∧ t.slots = [] ∧ t.mem = {}
          ∧ (∀ a, keepsake a = true → a ≠ PWR.KS_CAUSE.CAUSE.off → t.reg a = s.reg a))
      ∧ (s.mode = .configure → s.hasRole r .maker = true →
        ∃ t : State, exec (.pwrFactory r) s = .next (settle t) ∧ t.mode = .factory ∧ t.f PWR.CMDSTS.RESULT = 1
          ∧ t.on PWR.IRQ_RAW.MODE_CHG = true ∧ t.raw = s.raw)

/-- R369, R376 to R378, R380, R404: supplies, the reset pin, wakes: what each reset source leaves, what only keeps the device
held, the pin low at an entry to Boot, and where each event does nothing.
The model's choices in it: log entries 10 and 30. -/
def Obligations.ResetsAndWakes : Prop :=
  ∀ s : State,
    (s.mode = .off → exec .vddAoPowerOn s
        = .next (settle { s with mode := .hibernate, pwr := { s.pwr with pmicEn := !s.on PWR.KS_WAKECFG.NOAUTO } }))
      ∧ (s.mode ≠ .off → exec .vddAoPowerOn s = .next (settle s))
      ∧ (∃ t : State, exec .porAo s = .next (settle t) ∧ t.mode = .off ∧ t.on PWR.KS_WAKECFG.WEN = true
          ∧ t.f PWR.KS_CAUSE.CAUSE = 0 ∧ (∀ n : Fin 8, t.f PWR.KS_SCRATCH.V (4 * n.val) = 0) ∧ t.slots = [] ∧ t.mem = {}
          ∧ t.pwr.pmicEn = false ∧ t.sec.otp = s.sec.otp ∧ t.sec.flash = s.sec.flash ∧ t.pending = s.pending)
      ∧ (s.mode.powered = true →
        (∃ t : State, exec .brownout s = .next (settle t) ∧ s.BootedBy t 2 (some 2))
          ∧ ∃ t : State, exec .resetPinAssert s = .next (settle t) ∧ s.BootedBy t 3 (some 3) ∧ t.pwr.pinLow = true)
      ∧ (s.mode.powered = false →
        exec .brownout s = .next (settle { s with pwr := { s.pwr with coreOk := false } })
          ∧ exec .resetPinAssert s = .next (settle { s with pwr := { s.pwr with pinLow := true } }))
      ∧ (s.pwr.held = some 3 → exec .resetPinRelease s
          = .next (settle { s with pwr := { s.pwr with pinLow := false, held := if s.pwr.coreOk then none else some 2 } }))
      ∧ (s.pwr.held ≠ some 3 → exec .resetPinRelease s = .next (settle { s with pwr := { s.pwr with pinLow := false } }))
      ∧ (∀ low : Bool, low = (decide (s.mode = .hibernate) || decide (s.mode = .keeptime)) →
        (low = true → s.on PWR.KS_WAKECFG.WEN = true →
          exec .wake s = .next (settle { s with pwr := { s.pwr with pmicEn := true, waking := some 1 } }))
        ∧ (low = false ∨ s.on PWR.KS_WAKECFG.WEN = false → exec .wake s = .next (settle s)))
      ∧ (∀ rings : Bool, rings = (decide (s.mode = .keeptime) && s.on PWR.KS_WAKECFG.AEN
          && decide (s.ksTicks = s.f PWR.KS_ALARM_HI.V * 2 ^ 32 + s.f PWR.KS_ALARM_LO.V)) →
        (rings = true → exec .keeptimeAlarm s = .next (settle { s with pwr := { s.pwr with pmicEn := true, waking := some 1 } }))
        ∧ (rings = false → exec .keeptimeAlarm s = .next (settle s)))
      ∧ (s.pwr.waking.isSome = true → s.pwr.coreOk = false →
        ∃ t : State, exec .wakeFail s = .next (settle t) ∧ t.mode = s.mode ∧ t.pwr = { s.pwr with pmicEn := false, waking := none }
          ∧ t.f PWR.KS_CAUSE.CAUSE = 6 ∧ t.f PWR.KS_CAUSE.LASTMODE = s.f PWR.KS_CAUSE.LASTMODE
          ∧ { t with pwr := s.pwr, regs := s.regs } = s)
      ∧ (s.pwr.waking = none ∨ s.pwr.coreOk = true → exec .wakeFail s = .next (settle s))
      ∧ (s.mode = .off → exec .coreSupplyGood s = .next (settle s))
      ∧ (s.mode ≠ .off → ∀ boot : Option Nat,
          boot = (s.pwr.waking.orElse fun _ => if s.mode = .hibernate ∧ s.on PWR.KS_WAKECFG.NOAUTO = false then some 0 else none) →
        (∀ c, boot = some c → s.pwr.pinLow = false →
          ∃ t : State, exec .coreSupplyGood s = .next (settle t) ∧ s.BootedBy t c none)
        ∧ (boot.isSome = true ∨ s.pwr.held = some 2 → s.pwr.pinLow = true →
          ∃ t : State, exec .coreSupplyGood s = .next (settle t) ∧ t.mode = .boot ∧ t.pwr.held = some 3
            ∧ t.f PWR.KS_CAUSE.CAUSE = 3 ∧ t.slots = [] ∧ t.mem = {} ∧ t.sec.otp = s.sec.otp ∧ t.raw = s.raw)
        ∧ (boot = none → s.pwr.held = some 2 → s.pwr.pinLow = false →
          exec .coreSupplyGood s = .next (settle { s with pwr := { s.pwr with coreOk := true, held := none } }))
        ∧ (boot = none → s.pwr.held ≠ some 2 →
          exec .coreSupplyGood s = .next (settle { s with pwr := { s.pwr with coreOk := true } })))
      ∧ (s.mode.powered = true → s.pwr.xtalOk = true →
        ∃ t : State, exec .xtal32Fail s = .next (settle t) ∧ t.pwr = { s.pwr with xtalOk := false }
          ∧ t.on PWR.IRQ_RAW.XTAL32_FAIL = true ∧ { t with pwr := s.pwr, seenNow := s.seenNow, regs := s.regs } = s)
      ∧ (s.mode.powered = false ∨ s.pwr.xtalOk = false →
        exec .xtal32Fail s = .next (settle { s with pwr := { s.pwr with xtalOk := false } }))
      ∧ (s.mode ≠ .off → exec .xtal32Ok s = .next (settle { s with pwr := { s.pwr with xtalOk := true } }))
      ∧ (s.mode = .off → exec .xtal32Ok s = .next (settle s))

/-- R371, R373, R385: Debug-halt entered from the modes that allow it by an installer on JTAG, and left, a held reaction acting
then; nothing happens otherwise.
The model's choices in it: log entry 30. -/
def Obligations.DebugHalt : Prop :=
  (∀ s : State, ∀ may : Bool, may = (decide (s.mode = .configure) || s.mode.running || decide (s.mode = .standby)
        || decide (s.mode = .safe)) →
      (may = true → s.hasRole .jtag .installer = true → s.pwr.held = none →
        ∃ t : State, exec .jtagHalt s = .next (settle t) ∧ t.mode = .halt ∧ t.pwr.prev = s.mode.code ∧ t.pwr.cmd = none
          ∧ t.pwr.haltAt = s.raw ∧ t.raw = s.raw ∧ t.on PWR.IRQ_RAW.MODE_CHG = true
          ∧ (∀ e : EngineId, (s.engine e.val).st ≠ .held → (t.engine e.val).st = .halted)
          ∧ (s.pwr.cmd.isSome = true → t.f PWR.CMDSTS.RESULT = 2))
      ∧ (may = false ∨ s.hasRole .jtag .installer = false ∨ s.pwr.held ≠ none → exec .jtagHalt s = .next (settle s)))
    ∧ (∀ s : State, s.mode = .halt → s.hasRole .jtag .installer = true →
      (s.pwr.haltFault = none →
        ∃ t : State, exec .jtagResume s = .next (settle t) ∧ t.mode = modeOf s.pwr.prev ∧ t.raw = s.raw ∧ t.pwr.prev = s.pwr.prev)
      ∧ (∀ k c, s.pwr.haltFault = some (k, c) →
        ∃ t : State, exec .jtagResume s = .next (settle t) ∧ t.pwr.haltFault = none
          ∧ (k ≠ 2 → t.mode = .safe ∧ t.f PWR.SAFECAUSE.CAUSE = 5 ∧ t.on PWR.IRQ_RAW.SAFE = true)
          ∧ (k = 2 → t.mode = .boot ∧ t.f PWR.KS_CAUSE.CAUSE = 4 ∧ t.f PWR.KS_FAULT.COUNT = counted s PWR.KS_FAULT.COUNT
            ∧ t.f PWR.KS_FAULT.LAST = c % 2 ^ PWR.KS_FAULT.LAST.wid)))
    ∧ ∀ s : State, s.mode ≠ .halt ∨ s.hasRole .jtag .installer = false → exec .jtagResume s = .next (settle s)

/-- R379: the watchdog's kick; a missed period and its two actions; the modes in which it counts, the entry to one of them, and
the enable, restarting the period; the role that PWR.WDOG asks for; Boot clears it. -/
def Obligations.Watchdog : Prop :=
  (∀ (s : State) (r : Requester) (v : Word), s.opens r PWR.KICK.V.off = true →
      (v = 0x4B1C → exec (.wdogKick r v) s = .next (settle { s with pwr := { s.pwr with kick := s.raw } }))
      ∧ (v ≠ 0x4B1C → exec (.wdogKick r v) s = .next (settle (s.discard PWR.KICK.V.off r .range))))
    ∧ (∀ s : State,
      (s.on PWR.WDOG.EN = true → s.mode.watched = true →
        ∀ c, c = max s.raw (s.pwr.kick + s.f PWR.WDOG.PERIOD * 400000) →
        (s.on PWR.WDOG.ACTION = false →
          ∃ t : State, exec .wdogExpiry s = .next (settle t) ∧ t.raw = c ∧ t.mode = .safe ∧ t.on PWR.IRQ_RAW.WDOG = true
            ∧ t.f PWR.CNT_EVT.HI = counted s PWR.CNT_EVT.HI
            ∧ (s.mode ≠ .safe → t.f PWR.SAFECAUSE.CAUSE = 3 ∧ t.pwr.prev = s.mode.code ∧ t.on PWR.IRQ_RAW.SAFE = true)
            ∧ (s.mode = .safe → t.f PWR.SAFECAUSE.CAUSE = s.f PWR.SAFECAUSE.CAUSE))
        ∧ (s.on PWR.WDOG.ACTION = true →
          ∃ t : State, exec .wdogExpiry s = .next (settle t) ∧ t.raw = c ∧ t.mode = .boot ∧ t.f PWR.KS_CAUSE.CAUSE = 5
            ∧ t.f PWR.KS_CAUSE.LASTMODE = s.mode.code ∧ t.slots = []))
      ∧ (s.on PWR.WDOG.EN = false ∨ s.mode.watched = false → exec .wdogExpiry s = .next (settle s)))
    ∧ (∀ m : Mode, m.watched = true ↔ m = .configure ∨ m = .run ∨ m = .holdover ∨ m = .safe)
    ∧ (∀ (s : State) (m : Mode), s.mode ≠ m → m.watched = true → (s.toMode m).pwr.kick = s.raw)
    ∧ (∀ (s : State) (r : Requester) (v : Word), s.opens r PWR.WDOG.EN.off = true → s.hasRole r .installer = true →
        s.sealed PWR.page.base = false → rangeBad PWR.WDOG.fields v.toNat = false → s.on PWR.WDOG.EN = false →
        v.getLsbD PWR.WDOG.EN.lo = true →
      ∃ t : State, exec (.registerWrite r PWR.WDOG.EN.off v) s = .next (settle t) ∧ t.on PWR.WDOG.EN = true
        ∧ t.pwr = { s.pwr with kick := s.raw } ∧ t.raw = s.raw)
    ∧ (∀ (s : State) (r : Requester) (v : Word), s.hasRole r .installer = false →
        (s.write r PWR.WDOG.EN.off v).reg PWR.WDOG.EN.off = s.reg PWR.WDOG.EN.off)
    ∧ ∀ (s : State) (c : Nat) (h : Option Nat), (s.toBoot c h).reg PWR.WDOG.EN.off = resetWord PWR.WDOG.EN.off

/-- R374: the test access of Factory-test: a word of a store written reads back in its width and every other word of the store
stays; a read brings one word, a nanoword's four; it is closed elsewhere, to other roles, and beyond a store's words.
The model's choices in it: log entry 33. -/
def Obligations.TestAccess : Prop :=
  (∀ (s : State) (k n a v : Nat), s.mode = .factory → s.pwr.held = none → s.hasRole .jtag .maker = true →
      ∀ i, storeIndex k n a = some i →
      (∃ t : State, exec (.jtagTestAccess k n a true v) s = .next (settle t) ∧ t.testWord k i = v % 2 ^ storeWidth k
        ∧ (∀ j, j ≠ i → t.testWord k j = s.testWord k j) ∧ t.regs = s.regs ∧ t.hst = s.hst ∧ t.raw = s.raw)
      ∧ (k ≠ stNano → exec (.jtagTestAccess k n a false v) s = .next (settle { s with hst := { s.hst with
          replies := { req := .jtag, addr := a, data := word (s.testWord k i), poison := false } :: s.hst.replies } }))
      ∧ (k = stNano → ∃ t : State, exec (.jtagTestAccess k n a false v) s = .next (settle t)
          ∧ t.hst.replies = [
              { req := .jtag, addr := 4 * a + 3, data := word (s.testWord k i / 2 ^ 96), poison := false },
              { req := .jtag, addr := 4 * a + 2, data := word (s.testWord k i / 2 ^ 64), poison := false },
              { req := .jtag, addr := 4 * a + 1, data := word (s.testWord k i / 2 ^ 32), poison := false },
              { req := .jtag, addr := 4 * a, data := word (s.testWord k i), poison := false }] ++ s.hst.replies
          ∧ { t with hst := { t.hst with replies := s.hst.replies } } = s))
    ∧ ∀ (s : State) (k n a v : Nat) (w : Bool),
        s.mode ≠ .factory ∨ s.hasRole .jtag .maker = false ∨ s.pwr.held ≠ none ∨ storeIndex k n a = none →
        exec (.jtagTestAccess k n a w v) s = .next (settle s)

/-! ### Rules stated whole -/

/-- R12: DSP.TICK.PERIOD is written in Configure alone, within its range, and comes into force when Configure is left. -/
def Obligations.TickPeriod : Prop :=
  (∀ (s : State) (r : Requester) (v : Word), s.opens r DSP.TICK.PERIOD.off = true →
      (s.mode = .configure → 100 ≤ v.toNat % 2 ^ 15 → v.toNat % 2 ^ 15 ≤ 25600 →
        ∃ t : State, exec (.tickWrite r v) s = .next (settle t) ∧ t.f DSP.TICK.PERIOD = v.toNat % 2 ^ 15
          ∧ t.dsp.period = s.dsp.period ∧ RegsBut s t [DSP.TICK.PERIOD.off] ∧ { t with regs := s.regs } = s)
      ∧ (s.mode ≠ .configure → exec (.tickWrite r v) s = .next (settle (s.discard DSP.TICK.PERIOD.off r .mode)))
      ∧ (s.mode = .configure → v.toNat % 2 ^ 15 < 100 ∨ 25600 < v.toNat % 2 ^ 15 →
        exec (.tickWrite r v) s = .next (settle (s.discard DSP.TICK.PERIOD.off r .range))))
    ∧ (∀ (s : State) (m : Mode), s.mode = .configure → m ≠ .configure → (s.toMode m).dsp.period = s.f DSP.TICK.PERIOD)
    ∧ ∀ (s : State) (m : Mode), s.mode ≠ .configure → (s.toMode m).dsp.period = s.dsp.period

/-- R14: a read of DSP.DEP_LO answers DEP bits 31:0 and copies bits 63:32 for its requester; a read of DSP.DEP_HI brings that
copy, whatever DEP has become; the copies of the other requesters stay as they are. -/
def Obligations.DepReadsAsPair : Prop :=
  ∀ (s : State) (r : Requester), s.reaches r = true →
      ∃ t : State, exec (.depLoRead r) s = .next (settle t)
        ∧ t.hst.replies = { req := r, addr := DSP.DEP_LO.V.off, data := word s.dep, poison := false } :: s.hst.replies
        ∧ (∀ u : State, u.preqs = t.preqs → (u.read r DSP.DEP_HI.V.off).2.1 = word (s.dep / 2 ^ 32))
        ∧ (∀ (u : State) (q : Requester), u.preqs = t.preqs → q ≠ r →
            (u.read q DSP.DEP_HI.V.off).2.1 = (s.read q DSP.DEP_HI.V.off).2.1)
        ∧ { t with preqs := s.preqs, hst := { t.hst with replies := s.hst.replies } } = s

/-- R43: a Holdover that has lasted TMAX seconds sets HOLD_LONG, and the device stays in Holdover; TMAX = 0 disables it. -/
def Obligations.HoldoverTooLong : Prop :=
  (∀ (s : State) (u : Nat), s.tbu.holdSince = some u → s.mode = .holdover → s.tbu.holdTold = false → s.f TBU.HOLD.TMAX ≠ 0 →
      ∃ t : State, exec .holdLong s = .next (settle t) ∧ t.on TBU.IRQ_RAW.HOLD_LONG = true ∧ t.mode = .holdover
        ∧ t.raw = max s.raw (u + s.f TBU.HOLD.TMAX * 400000000) ∧ t.tbu = { s.tbu with holdTold := true }
        ∧ { t with seenNow := s.seenNow, regs := s.regs, pwr := s.pwr, tbu := s.tbu, raw := s.raw } = s)
    ∧ (∀ s : State, s.mode ≠ .holdover →
      (s.toMode .holdover).tbu.holdSince = some s.raw ∧ (s.toMode .holdover).tbu.holdTold = false)
    ∧ ∀ s : State, s.f TBU.HOLD.TMAX = 0 → exec .holdLong s = .next (settle s)

/-- R313: ROLLBACK discards an OPEN or BROKEN consist at once, and a CLOSED one not later than cycle c − 2 of its boundary; later
it is discarded with BUSY, and the consist stays as it is. A consist whose boundary no entry has named yet is discarded too, and
an entry that ordered it has its outcome. -/
def Obligations.RollbackUntilTwoBefore : Prop :=
  (∀ (s : State) (r : Requester), s.reaches r = true → s.aborting CNS.page.base = false →
      ∀ k, s.consistOf r.id = some k →
      (∀ ends : Bool, ends = (decide ((s.consist k).st ≠ .closed) || match (s.consist k).dep with
          | some d => decide (s.cyc + 2 ≤ d * s.dsp.period)
          | none => true) →
        (ends = true →
          ∃ t : State, exec (.consistRollback r) s = .next (settle t) ∧ (t.consist k).st = .free ∧ (t.consist k).places = []
            ∧ (∀ j, j ≠ k → t.consist j = s.consist j) ∧ t.regs = s.regs ∧ t.raw = s.raw
            ∧ ((s.consist k).st ≠ .broken → (t.consist k).last = 2 ∧ t.preg r.id CNS.MYSTS.LAST.off = word (2 * 2 ^ 12))
            ∧ ((s.consist k).st = .broken → (t.consist k).last = (s.consist k).last ∧ t.preqs = s.preqs)
            ∧ ((s.consist k).st ≠ .closed ∨ (s.consist k).whn ≠ 2 → t.slots = s.slots)
            ∧ ((s.consist k).st = .closed → (s.consist k).whn = 2 → (s.slot (s.consist k).entry).st = .active →
              (s.slot (s.consist k).entry).acted = none →
              t.slot (s.consist k).entry = { s.slot (s.consist k).entry with acted := some outDiscarded }))
        ∧ (ends = false → exec (.consistRollback r) s = .next (settle (s.discard CNS.CMD.OP.off r .busy)))))
    ∧ ∀ (s : State) (r : Requester), s.reaches r = true → s.aborting CNS.page.base = false → s.consistOf r.id = none →
      exec (.consistRollback r) s = .next (settle (s.discard CNS.CMD.OP.off r .mode))

/-- R366: the logbook entry of a switchover: kind 0x09, vehicle time of cycle c′, the trigger, DEP, the two serials. -/
def Obligations.TakeoverLogEntry : Prop :=
  ∀ (s : State) (x : Switch), s.mode = .standby → s.twn.sw = some x →
    ∀ a, a = s.advanceVt (s.boundary ((x.w + 200 + s.dsp.period - 1) / s.dsp.period)) →
    ∀ n, n = s.f SEC.LOGPOS.V → ∀ peer, peer = s.f TWN.PEERSER_LO.V + s.f TWN.PEERSER_HI.V * 2 ^ 32 →
    ∃ t : State, exec .switchoverTakeover s = .next (settle t) ∧ t.twn.st = .primary ∧ t.f SEC.LOGPOS.V = (n + 1) % 2 ^ 32
      ∧ ∀ j : Nat, j < 8 → SMap.get (fun _ => 0) t.mem.book (n % 1024 * 8 + j)
          = word ((a.vt % 2 ^ 64 + 0x09 * 2 ^ 64 + 0x21 * 2 ^ 80 + x.trig % 256 * 2 ^ 88 + a.dep % 2 ^ 32 * 2 ^ 96
              + peer % 2 ^ 64 * 2 ^ 128 + s.sec.otp.serial % 2 ^ 64 * 2 ^ 192) / 2 ^ (32 * j))
end

