-- ==== Sys2Proof/Laws/Bits.lean ====
section
/-! SUPPORT. The laws of bit fields: a field read after a field written. -/

namespace Sys2Proof

theorem bitsAt_eq (w lo n : Nat) : bitsAt w lo n = w / 2 ^ lo % 2 ^ n := by
  simp [bitsAt, Nat.shiftRight_eq_div_pow]

/-- A number as the part above a field, the field, and the part below it. -/
theorem split_field (w lo n : Nat) :
    w = w / 2 ^ (lo + n) * 2 ^ (lo + n) + bitsAt w lo n * 2 ^ lo + w % 2 ^ lo := by
  rw [bitsAt_eq]
  have h1 := Nat.div_add_mod w (2 ^ lo)
  have h2 := Nat.div_add_mod (w / 2 ^ lo) (2 ^ n)
  have h3 : w / 2 ^ lo / 2 ^ n = w / 2 ^ (lo + n) := by rw [Nat.div_div_eq_div_mul, Nat.pow_add]
  rw [h3] at h2
  have h4 : w / 2 ^ (lo + n) * 2 ^ (lo + n) = 2 ^ lo * (2 ^ n * (w / 2 ^ (lo + n))) := by rw [Nat.pow_add]; ring
  have h5 : 2 ^ lo * (2 ^ n * (w / 2 ^ (lo + n))) + (w / 2 ^ lo % 2 ^ n) * 2 ^ lo = 2 ^ lo * (w / 2 ^ lo) := by
    calc _ = 2 ^ lo * (2 ^ n * (w / 2 ^ (lo + n)) + w / 2 ^ lo % 2 ^ n) := by ring
      _ = _ := by rw [h2]
  omega

theorem putBits_eq (w lo n v : Nat) :
    putBits w lo n v = w / 2 ^ (lo + n) * 2 ^ (lo + n) + v % 2 ^ n * 2 ^ lo + w % 2 ^ lo := by
  have h := split_field w lo n
  unfold putBits
  omega



theorem putBits_div (w lo n v : Nat) : putBits w lo n v / 2 ^ lo = w / 2 ^ (lo + n) * 2 ^ n + v % 2 ^ n := by
  rw [putBits_eq]
  have h : w / 2 ^ (lo + n) * 2 ^ (lo + n) + v % 2 ^ n * 2 ^ lo + w % 2 ^ lo
      = w % 2 ^ lo + 2 ^ lo * (w / 2 ^ (lo + n) * 2 ^ n + v % 2 ^ n) := by rw [Nat.pow_add]; ring
  rw [h, Nat.add_mul_div_left _ _ (Nat.two_pow_pos lo), Nat.div_eq_of_lt (Nat.mod_lt _ (Nat.two_pow_pos lo)), Nat.zero_add]

theorem putBits_mod (w lo n v : Nat) : putBits w lo n v % 2 ^ lo = w % 2 ^ lo := by
  rw [putBits_eq]
  have h : w / 2 ^ (lo + n) * 2 ^ (lo + n) + v % 2 ^ n * 2 ^ lo + w % 2 ^ lo
      = w % 2 ^ lo + 2 ^ lo * (w / 2 ^ (lo + n) * 2 ^ n + v % 2 ^ n) := by rw [Nat.pow_add]; ring
  rw [h, Nat.add_mul_mod_self_left, Nat.mod_mod]

/-- A field read after it is written. -/
@[simp] theorem bitsAt_putBits (w lo n v : Nat) : bitsAt (putBits w lo n v) lo n = v % 2 ^ n := by
  rw [bitsAt_eq, putBits_div, Nat.add_comm, Nat.add_mul_mod_self_right, Nat.mod_mod]

/-- A field above the one written. -/
theorem bitsAt_putBits_above (w lo n v l m : Nat) (h : lo + n ≤ l) : bitsAt (putBits w lo n v) l m = bitsAt w l m := by
  obtain ⟨k, rfl⟩ := Nat.exists_eq_add_of_le h
  rw [bitsAt_eq, bitsAt_eq]
  have e : ∀ x, x / 2 ^ (lo + n + k) = x / 2 ^ lo / 2 ^ n / 2 ^ k := fun x => by
    rw [Nat.div_div_eq_div_mul, Nat.div_div_eq_div_mul, Nat.pow_add, Nat.pow_add, Nat.mul_assoc]
  rw [e, e w, putBits_div]
  have : (w / 2 ^ (lo + n) * 2 ^ n + v % 2 ^ n) / 2 ^ n = w / 2 ^ lo / 2 ^ n := by
    rw [Nat.add_comm, Nat.add_mul_div_right _ _ (Nat.two_pow_pos n), Nat.div_eq_of_lt (Nat.mod_lt _ (Nat.two_pow_pos n)),
      Nat.zero_add, Nat.div_div_eq_div_mul, Nat.pow_add]
  rw [this]

/-- A field below the one written. -/
theorem bitsAt_putBits_below (w lo n v l m : Nat) (h : l + m ≤ lo) : bitsAt (putBits w lo n v) l m = bitsAt w l m := by
  obtain ⟨k, rfl⟩ := Nat.exists_eq_add_of_le h
  have e : ∀ x, bitsAt x l m = bitsAt (x % 2 ^ (l + m + k)) l m := fun x => by
    rw [bitsAt_eq, bitsAt_eq, Nat.add_assoc, Nat.pow_add 2 l, Nat.mod_mul_right_div_self, Nat.pow_add 2 m,
      Nat.mod_mul_right_mod]
  rw [e, putBits_mod, ← e]

/-- Bits of a number that fits 32 bits survive the making of a word. -/
theorem putBits_lt (w lo n v : Nat) (hw : w < 2 ^ 32) (h : lo + n ≤ 32) : putBits w lo n v < 2 ^ 32 := by
  have hd := putBits_div w lo n v
  have h1 : w / 2 ^ (lo + n) * 2 ^ n + v % 2 ^ n < 2 ^ (32 - lo) := by
    have a : w / 2 ^ (lo + n) < 2 ^ (32 - (lo + n)) := by
      rw [Nat.div_lt_iff_lt_mul (Nat.two_pow_pos _), ← Nat.pow_add]
      simpa [Nat.sub_add_cancel h] using hw
    have b := Nat.mod_lt v (Nat.two_pow_pos n)
    have c : 2 ^ (32 - lo) = 2 ^ (32 - (lo + n)) * 2 ^ n := by rw [← Nat.pow_add]; congr 1; omega
    rw [c]
    calc _ < w / 2 ^ (lo + n) * 2 ^ n + 2 ^ n := by omega
      _ = (w / 2 ^ (lo + n) + 1) * 2 ^ n := by ring
      _ ≤ _ := Nat.mul_le_mul_right _ a
  rw [← hd, Nat.div_lt_iff_lt_mul (Nat.two_pow_pos lo), ← Nat.pow_add] at h1
  simpa [Nat.sub_add_cancel (by omega : lo ≤ 32)] using h1

@[simp] theorem word_toNat_putBits (w : Word) (lo n v : Nat) (h : lo + n ≤ 32) :
    (word (putBits w.toNat lo n v)).toNat = putBits w.toNat lo n v := by
  rw [word, BitVec.toNat_ofNat, Nat.mod_eq_of_lt (putBits_lt w.toNat lo n v w.isLt h)]

end Sys2Proof
end

