-- ==== Sys2Proof/Laws/Dispatch.lean ====
section
/-! SUPPORT. The dispatch, one lemma for each command: its arm is its meaning. -/

namespace Sys2Proof.Machine

variable (s : State)

theorem exec_departureBoundary : exec (.departureBoundary) s = Sys2Proof.Machine.execDepartureBoundary s := rfl
theorem exec_housekeeping : exec (.housekeeping) s = Sys2Proof.Machine.execHousekeeping s := rfl
theorem exec_dispatchMove : exec (.dispatchMove) s = Sys2Proof.Machine.execDispatchMove s := rfl
theorem exec_tickWrite (r : Requester) (v : Word) : exec (.tickWrite r v) s = Sys2Proof.Machine.execTickWrite r v s := rfl
theorem exec_replaceComplete : exec (.replaceComplete) s = Sys2Proof.Machine.execReplaceComplete s := rfl
theorem exec_depLoRead (r : Requester) : exec (.depLoRead r) s = Sys2Proof.Machine.execDepLoRead r s := rfl
theorem exec_vtLoRead (r : Requester) : exec (.vtLoRead r) s = Sys2Proof.Machine.execVtLoRead r s := rfl
theorem exec_nextsecLoRead (r : Requester) : exec (.nextsecLoRead r) s = Sys2Proof.Machine.execNextsecLoRead r s := rfl
theorem exec_mapHiWrite (r : Requester) (tai : Bool) (v : Word) : exec (.mapHiWrite r tai v) s = Sys2Proof.Machine.execMapHiWrite r tai v s := rfl
theorem exec_pllUnlock : exec (.pllUnlock) s = Sys2Proof.Machine.execPllUnlock s := rfl
theorem exec_ppsEdge (cyc : Nat) (code : Fin 128) : exec (.ppsEdge cyc code) s = Sys2Proof.Machine.execPpsEdge cyc code s := rfl
theorem exec_todMessage (bytes : List Byte) (started : Nat) : exec (.todMessage bytes started) s = Sys2Proof.Machine.execTodMessage bytes started s := rfl
theorem exec_pulseWindowClose : exec (.pulseWindowClose) s = Sys2Proof.Machine.execPulseWindowClose s := rfl
theorem exec_refLoss : exec (.refLoss) s = Sys2Proof.Machine.execRefLoss s := rfl
theorem exec_ksFreqCopy : exec (.ksFreqCopy) s = Sys2Proof.Machine.execKsFreqCopy s := rfl
theorem exec_holdLong : exec (.holdLong) s = Sys2Proof.Machine.execHoldLong s := rfl
theorem exec_srvEnWrite (r : Requester) (v : Word) : exec (.srvEnWrite r v) s = Sys2Proof.Machine.execSrvEnWrite r v s := rfl
theorem exec_stepLaunch (r : Requester) (v : Word) : exec (.stepLaunch r v) s = Sys2Proof.Machine.execStepLaunch r v s := rfl
theorem exec_stepTakeEffect : exec (.stepTakeEffect) s = Sys2Proof.Machine.execStepTakeEffect s := rfl
theorem exec_stepDone : exec (.stepDone) s = Sys2Proof.Machine.execStepDone s := rfl
theorem exec_keeptimeLatch (delay : Nat) : exec (.keeptimeLatch delay) s = Sys2Proof.Machine.execKeeptimeLatch delay s := rfl
theorem exec_ksTick : exec (.ksTick) s = Sys2Proof.Machine.execKsTick s := rfl
theorem exec_k32Measure (cycles : Nat) : exec (.k32Measure cycles) s = Sys2Proof.Machine.execK32Measure cycles s := rfl
theorem exec_keeptimeResume : exec (.keeptimeResume) s = Sys2Proof.Machine.execKeeptimeResume s := rfl
theorem exec_ppsoutEnable (r : Requester) (v : Word) : exec (.ppsoutEnable r v) s = Sys2Proof.Machine.execPpsoutEnable r v s := rfl
theorem exec_ppsoutLoad : exec (.ppsoutLoad) s = Sys2Proof.Machine.execPpsoutLoad s := rfl
theorem exec_nextsecUpdate : exec (.nextsecUpdate) s = Sys2Proof.Machine.execNextsecUpdate s := rfl
theorem exec_calBuild (obs : List VernierObs) (cal : List CalHits) : exec (.calBuild obs cal) s = Sys2Proof.Machine.execCalBuild obs cal s := rfl
theorem exec_calFillEdge (v : Fin 301) (code : Fin 128) : exec (.calFillEdge v code) s = Sys2Proof.Machine.execCalFillEdge v code s := rfl
theorem exec_tbuAbort : exec (.tbuAbort) s = Sys2Proof.Machine.execTbuAbort s := rfl
theorem exec_trkModeWrite (r : Requester) (t : TrackId) (v : Word) : exec (.trkModeWrite r t v) s = Sys2Proof.Machine.execTrkModeWrite r t v s := rfl
theorem exec_compareMatch (t : TrackId) (b : Bool) : exec (.compareMatch t b) s = Sys2Proof.Machine.execCompareMatch t b s := rfl
theorem exec_trainPulse (t : TrackId) : exec (.trainPulse t) s = Sys2Proof.Machine.execTrainPulse t s := rfl
theorem exec_stopMatch (t : TrackId) : exec (.stopMatch t) s = Sys2Proof.Machine.execStopMatch t s := rfl
theorem exec_cmpHoldWrite (r : Requester) (t : TrackId) (b hi : Bool) (v : Word) : exec (.cmpHoldWrite r t b hi v) s = Sys2Proof.Machine.execCmpHoldWrite r t b hi v s := rfl
theorem exec_cmpArmWrite (r : Requester) (t : TrackId) (b : Bool) (v : Word) : exec (.cmpArmWrite r t b v) s = Sys2Proof.Machine.execCmpArmWrite r t b v s := rfl
theorem exec_captureArm (t : TrackId) : exec (.captureArm t) s = Sys2Proof.Machine.execCaptureArm t s := rfl
theorem exec_captureEdge (t : TrackId) (cyc : Nat) (code : Fin 128) (rising : Bool) : exec (.captureEdge t cyc code rising) s = Sys2Proof.Machine.execCaptureEdge t cyc code rising s := rfl
theorem exec_stampFifoEntry (t : TrackId) : exec (.stampFifoEntry t) s = Sys2Proof.Machine.execStampFifoEntry t s := rfl
theorem exec_recordWriterDrain : exec (.recordWriterDrain) s = Sys2Proof.Machine.execRecordWriterDrain s := rfl
theorem exec_trkPop0Read (r : Requester) (t : TrackId) : exec (.trkPop0Read r t) s = Sys2Proof.Machine.execTrkPop0Read r t s := rfl
theorem exec_gateOpen (t : TrackId) : exec (.gateOpen t) s = Sys2Proof.Machine.execGateOpen t s := rfl
theorem exec_gateClose (t : TrackId) : exec (.gateClose t) s = Sys2Proof.Machine.execGateClose t s := rfl
theorem exec_linkedEdge (t : TrackId) : exec (.linkedEdge t) s = Sys2Proof.Machine.execLinkedEdge t s := rfl
theorem exec_stampMark (t : TrackId) : exec (.stampMark t) s = Sys2Proof.Machine.execStampMark t s := rfl
theorem exec_trkClaim (r : Requester) (t : TrackId) : exec (.trkClaim r t) s = Sys2Proof.Machine.execTrkClaim r t s := rfl
theorem exec_trkRelease (r : Requester) (t : TrackId) : exec (.trkRelease r t) s = Sys2Proof.Machine.execTrkRelease r t s := rfl
theorem exec_jncRelease (r : Requester) (v : Word) : exec (.jncRelease r v) s = Sys2Proof.Machine.execJncRelease r v s := rfl
theorem exec_trkAbort (t : TrackId) : exec (.trkAbort t) s = Sys2Proof.Machine.execTrkAbort t s := rfl
theorem exec_jncAbort : exec (.jncAbort) s = Sys2Proof.Machine.execJncAbort s := rfl
theorem exec_bankSupplyChange (b : BankId) (v : Supply) : exec (.bankSupplyChange b v) s = Sys2Proof.Machine.execBankSupplyChange b v s := rfl
theorem exec_lnCfgWrite (r : Requester) (n : LineId) (trim : Bool) (v : Word) : exec (.lnCfgWrite r n trim v) s = Sys2Proof.Machine.execLnCfgWrite r n trim v s := rfl
theorem exec_insertionLaunch (r : Requester) (v : Word) : exec (.insertionLaunch r v) s = Sys2Proof.Machine.execInsertionLaunch r v s := rfl
theorem exec_insertionServe : exec (.insertionServe) s = Sys2Proof.Machine.execInsertionServe s := rfl
theorem exec_cancelWrite (r : Requester) (v : Word) : exec (.cancelWrite r v) s = Sys2Proof.Machine.execCancelWrite r v s := rfl
theorem exec_cancelResolve : exec (.cancelResolve) s = Sys2Proof.Machine.execCancelResolve s := rfl
theorem exec_nopDue (i : SlotId) : exec (.nopDue i) s = Sys2Proof.Machine.execNopDue i s := rfl
theorem exec_entryRetire (i : SlotId) : exec (.entryRetire i) s = Sys2Proof.Machine.execEntryRetire i s := rfl
theorem exec_chainUnpark (i : SlotId) : exec (.chainUnpark i) s = Sys2Proof.Machine.execChainUnpark i s := rfl
theorem exec_dspRunSet (r : Requester) (v : Word) : exec (.dspRunSet r v) s = Sys2Proof.Machine.execDspRunSet r v s := rfl
theorem exec_dspAbort : exec (.dspAbort) s = Sys2Proof.Machine.execDspAbort s := rfl
theorem exec_dspFlush (r : Requester) : exec (.dspFlush r) s = Sys2Proof.Machine.execDspFlush r s := rfl
theorem exec_flushComplete : exec (.flushComplete) s = Sys2Proof.Machine.execFlushComplete s := rfl
theorem exec_books0Read (r : Requester) : exec (.books0Read r) s = Sys2Proof.Machine.execBooks0Read r s := rfl
theorem exec_toothEdge (n : TurnId) (cyc : Nat) (code : Fin 128) (dir : Bool) (turned : Option (Nat × Fin 128)) : exec (.toothEdge n cyc code dir turned) s = Sys2Proof.Machine.execToothEdge n cyc code dir turned s := rfl
theorem exec_toothProcess (n : TurnId) : exec (.toothProcess n) s = Sys2Proof.Machine.execToothProcess n s := rfl
theorem exec_toothFit (n : TurnId) : exec (.toothFit n) s = Sys2Proof.Machine.execToothFit n s := rfl
theorem exec_overtaken (n : TurnId) (i : SlotId) : exec (.overtaken n i) s = Sys2Proof.Machine.execOvertaken n i s := rfl
theorem exec_reprediction (n : TurnId) (i : SlotId) : exec (.reprediction n i) s = Sys2Proof.Machine.execReprediction n i s := rfl
theorem exec_announcement (n : TurnId) (i : SlotId) : exec (.announcement n i) s = Sys2Proof.Machine.execAnnouncement n i s := rfl
theorem exec_indexEdge (n : TurnId) (cyc : Nat) (code : Fin 128) : exec (.indexEdge n cyc code) s = Sys2Proof.Machine.execIndexEdge n cyc code s := rfl
theorem exec_gapLineEdge (n : TurnId) (cyc : Nat) (code : Fin 128) : exec (.gapLineEdge n cyc code) s = Sys2Proof.Machine.execGapLineEdge n cyc code s := rfl
theorem exec_markWindowExpiry (n : TurnId) : exec (.markWindowExpiry n) s = Sys2Proof.Machine.execMarkWindowExpiry n s := rfl
theorem exec_stall (n : TurnId) : exec (.stall n) s = Sys2Proof.Machine.execStall n s := rfl
theorem exec_ttnEnable (r : Requester) (n : TurnId) (v : Word) : exec (.ttnEnable r n v) s = Sys2Proof.Machine.execTtnEnable r n v s := rfl
theorem exec_ttnDisable (r : Requester) (n : TurnId) (v : Word) : exec (.ttnDisable r n v) s = Sys2Proof.Machine.execTtnDisable r n v s := rfl
theorem exec_ttnAbort (n : TurnId) : exec (.ttnAbort n) s = Sys2Proof.Machine.execTtnAbort n s := rfl
theorem exec_ttnResync (r : Requester) (n : TurnId) : exec (.ttnResync r n) s = Sys2Proof.Machine.execTtnResync r n s := rfl
theorem exec_ttnAngleRead (r : Requester) (n : TurnId) : exec (.ttnAngleRead r n) s = Sys2Proof.Machine.execTtnAngleRead r n s := rfl
theorem exec_ttnTstampLoRead (r : Requester) (n : TurnId) : exec (.ttnTstampLoRead r n) s = Sys2Proof.Machine.execTtnTstampLoRead r n s := rfl
theorem exec_callPending (e : EngineId) : exec (.callPending e) s = Sys2Proof.Machine.execCallPending e s := rfl
theorem exec_eventSignal : exec (.eventSignal) s = Sys2Proof.Machine.execEventSignal s := rfl
theorem exec_doorbell (r : Requester) (e : EngineId) (v : Word) : exec (.doorbell r e v) s = Sys2Proof.Machine.execDoorbell r e v s := rfl
theorem exec_routineStart (e : EngineId) : exec (.routineStart e) s = Sys2Proof.Machine.execRoutineStart e s := rfl
theorem exec_wordNext (e : EngineId) : exec (.wordNext e) s = Sys2Proof.Machine.execWordNext e s := rfl
theorem exec_wordJump (e : EngineId) : exec (.wordJump e) s = Sys2Proof.Machine.execWordJump e s := rfl
theorem exec_wordJumpC (e : EngineId) : exec (.wordJumpC e) s = Sys2Proof.Machine.execWordJumpC e s := rfl
theorem exec_wordCall (e : EngineId) : exec (.wordCall e) s = Sys2Proof.Machine.execWordCall e s := rfl
theorem exec_wordRet (e : EngineId) : exec (.wordRet e) s = Sys2Proof.Machine.execWordRet e s := rfl
theorem exec_wordEnd (e : EngineId) : exec (.wordEnd e) s = Sys2Proof.Machine.execWordEnd e s := rfl
theorem exec_wordMwb (e : EngineId) : exec (.wordMwb e) s = Sys2Proof.Machine.execWordMwb e s := rfl
theorem exec_wordPage (e : EngineId) : exec (.wordPage e) s = Sys2Proof.Machine.execWordPage e s := rfl
theorem exec_wordWait (e : EngineId) : exec (.wordWait e) s = Sys2Proof.Machine.execWordWait e s := rfl
theorem exec_wordSeal (e : EngineId) : exec (.wordSeal e) s = Sys2Proof.Machine.execWordSeal e s := rfl
theorem exec_wordUnseal (e : EngineId) : exec (.wordUnseal e) s = Sys2Proof.Machine.execWordUnseal e s := rfl
theorem exec_wordReserved (e : EngineId) : exec (.wordReserved e) s = Sys2Proof.Machine.execWordReserved e s := rfl
theorem exec_readDataArrival (e : EngineId) : exec (.readDataArrival e) s = Sys2Proof.Machine.execReadDataArrival e s := rfl
theorem exec_ttrResult (e : EngineId) : exec (.ttrResult e) s = Sys2Proof.Machine.execTtrResult e s := rfl
theorem exec_waitCondition (e : EngineId) (l : Fin 8) : exec (.waitCondition e l) s = Sys2Proof.Machine.execWaitCondition e l s := rfl
theorem exec_waitDeadline (e : EngineId) (l : Fin 8) : exec (.waitDeadline e l) s = Sys2Proof.Machine.execWaitDeadline e l s := rfl
theorem exec_sealCommit (e : EngineId) : exec (.sealCommit e) s = Sys2Proof.Machine.execSealCommit e s := rfl
theorem exec_microstoreScrub (e : EngineId) : exec (.microstoreScrub e) s = Sys2Proof.Machine.execMicrostoreScrub e s := rfl
theorem exec_menResume (r : Requester) (e : EngineId) : exec (.menResume r e) s = Sys2Proof.Machine.execMenResume r e s := rfl
theorem exec_menAbort (e : EngineId) : exec (.menAbort e) s = Sys2Proof.Machine.execMenAbort e s := rfl
theorem exec_ruReload (u : RulerId) : exec (.ruReload u) s = Sys2Proof.Machine.execRuReload u s := rfl
theorem exec_ruOutputEdge (u : RulerId) (hi : Bool) : exec (.ruOutputEdge u hi) s = Sys2Proof.Machine.execRuOutputEdge u hi s := rfl
theorem exec_ruStHiWrite (r : Requester) (u : RulerId) (v : Word) : exec (.ruStHiWrite r u v) s = Sys2Proof.Machine.execRuStHiWrite r u v s := rfl
theorem exec_ruStartInstant (u : RulerId) : exec (.ruStartInstant u) s = Sys2Proof.Machine.execRuStartInstant u s := rfl
theorem exec_ruSpHiWrite (r : Requester) (u : RulerId) (v : Word) : exec (.ruSpHiWrite r u v) s = Sys2Proof.Machine.execRuSpHiWrite r u v s := rfl
theorem exec_ruStopInstant (u : RulerId) : exec (.ruStopInstant u) s = Sys2Proof.Machine.execRuStopInstant u s := rfl
theorem exec_ruRunEnd (u : RulerId) : exec (.ruRunEnd u) s = Sys2Proof.Machine.execRuRunEnd u s := rfl
theorem exec_rulModeWrite (r : Requester) (u : RulerId) (v : Word) : exec (.rulModeWrite r u v) s = Sys2Proof.Machine.execRulModeWrite r u v s := rfl
theorem exec_updHoldWrite (r : Requester) (u : RulerId) (v : Word) : exec (.updHoldWrite r u v) s = Sys2Proof.Machine.execUpdHoldWrite r u v s := rfl
theorem exec_ruForceWrite (r : Requester) (u : RulerId) (v : Word) : exec (.ruForceWrite r u v) s = Sys2Proof.Machine.execRuForceWrite r u v s := rfl
theorem exec_ruFaultInput (u : RulerId) : exec (.ruFaultInput u) s = Sys2Proof.Machine.execRuFaultInput u s := rfl
theorem exec_ruFaultRelease (u : RulerId) : exec (.ruFaultRelease u) s = Sys2Proof.Machine.execRuFaultRelease u s := rfl
theorem exec_ruClrFlt (r : Requester) (u : RulerId) : exec (.ruClrFlt r u) s = Sys2Proof.Machine.execRuClrFlt r u s := rfl
theorem exec_ruClaim (r : Requester) (u : RulerId) : exec (.ruClaim r u) s = Sys2Proof.Machine.execRuClaim r u s := rfl
theorem exec_ruRelease (r : Requester) (u : RulerId) : exec (.ruRelease r u) s = Sys2Proof.Machine.execRuRelease r u s := rfl
theorem exec_rulAbort (u : RulerId) : exec (.rulAbort u) s = Sys2Proof.Machine.execRulAbort u s := rfl
theorem exec_adcSample (b : Bool) (code : BitVec 12) : exec (.adcSample b code) s = Sys2Proof.Machine.execAdcSample b code s := rfl
theorem exec_opticalRecordEntry (c : ChannelId) : exec (.opticalRecordEntry c) s = Sys2Proof.Machine.execOpticalRecordEntry c s := rfl
theorem exec_opticalDrain : exec (.opticalDrain) s = Sys2Proof.Machine.execOpticalDrain s := rfl
theorem exec_opticalPop0Read (r : Requester) (c : ChannelId) : exec (.opticalPop0Read r c) s = Sys2Proof.Machine.execOpticalPop0Read r c s := rfl
theorem exec_mmcBlock (b : Bool) : exec (.mmcBlock b) s = Sys2Proof.Machine.execMmcBlock b s := rfl
theorem exec_adcTriggerInput (n : Fin 4) (cyc : Nat) (code : Fin 128) (rising : Bool) :
    exec (.adcTriggerInput n cyc code rising) s = Sys2Proof.Machine.execAdcTriggerInput n cyc code rising s := rfl
theorem exec_adcTriggerAccept (q : Fin 3) : exec (.adcTriggerAccept q) s = Sys2Proof.Machine.execAdcTriggerAccept q s := rfl
theorem exec_adcStepBegin (q : Fin 3) : exec (.adcStepBegin q) s = Sys2Proof.Machine.execAdcStepBegin q s := rfl
theorem exec_adcStepEnd (q : Fin 3) : exec (.adcStepEnd q) s = Sys2Proof.Machine.execAdcStepEnd q s := rfl
theorem exec_windowAlloc (r : Requester) (w : WindowId) (v : Word) : exec (.windowAlloc r w v) s = Sys2Proof.Machine.execWindowAlloc r w v s := rfl
theorem exec_windowFree (r : Requester) (w : WindowId) (v : Word) : exec (.windowFree r w v) s = Sys2Proof.Machine.execWindowFree r w v s := rfl
theorem exec_windowTransferComplete (w : WindowId) : exec (.windowTransferComplete w) s = Sys2Proof.Machine.execWindowTransferComplete w s := rfl
theorem exec_windowRpWrite (r : Requester) (w : WindowId) (v : Word) : exec (.windowRpWrite r w v) s = Sys2Proof.Machine.execWindowRpWrite r w v s := rfl
theorem exec_windowClaim (r : Requester) (w : WindowId) : exec (.windowClaim r w) s = Sys2Proof.Machine.execWindowClaim r w s := rfl
theorem exec_windowRelease (r : Requester) (w : WindowId) : exec (.windowRelease r w) s = Sys2Proof.Machine.execWindowRelease r w s := rfl
theorem exec_adcCtlWrite (r : Requester) (v : Word) : exec (.adcCtlWrite r v) s = Sys2Proof.Machine.execAdcCtlWrite r v s := rfl
theorem exec_adcAbort : exec (.adcAbort) s = Sys2Proof.Machine.execAdcAbort s := rfl
theorem exec_programStoreWrite (r : Requester) (n : ShunterId) (i : Fin 128) (v : Word) : exec (.programStoreWrite r n i v) s = Sys2Proof.Machine.execProgramStoreWrite r n i v s := rfl
theorem exec_shBr (n : ShunterId) (pins : Byte) : exec (.shBr n pins) s = Sys2Proof.Machine.execShBr n pins s := rfl
theorem exec_shLoop (n : ShunterId) : exec (.shLoop n) s = Sys2Proof.Machine.execShLoop n s := rfl
theorem exec_shAt (n : ShunterId) : exec (.shAt n) s = Sys2Proof.Machine.execShAt n s := rfl
theorem exec_shWait (n : ShunterId) (pins : Byte) : exec (.shWait n pins) s = Sys2Proof.Machine.execShWait n pins s := rfl
theorem exec_shSend (n : ShunterId) : exec (.shSend n) s = Sys2Proof.Machine.execShSend n s := rfl
theorem exec_shTake (n : ShunterId) (pins : Byte) : exec (.shTake n pins) s = Sys2Proof.Machine.execShTake n pins s := rfl
theorem exec_shLoad (n : ShunterId) : exec (.shLoad n) s = Sys2Proof.Machine.execShLoad n s := rfl
theorem exec_shStore (n : ShunterId) : exec (.shStore n) s = Sys2Proof.Machine.execShStore n s := rfl
theorem exec_shCopy (n : ShunterId) (pins : Byte) : exec (.shCopy n pins) s = Sys2Proof.Machine.execShCopy n pins s := rfl
theorem exec_shLdi (n : ShunterId) : exec (.shLdi n) s = Sys2Proof.Machine.execShLdi n s := rfl
theorem exec_shAdd (n : ShunterId) : exec (.shAdd n) s = Sys2Proof.Machine.execShAdd n s := rfl
theorem exec_shSig (n : ShunterId) : exec (.shSig n) s = Sys2Proof.Machine.execShSig n s := rfl
theorem exec_shLcnt (n : ShunterId) : exec (.shLcnt n) s = Sys2Proof.Machine.execShLcnt n s := rfl
theorem exec_shHalt (n : ShunterId) : exec (.shHalt n) s = Sys2Proof.Machine.execShHalt n s := rfl
theorem exec_shReserved (n : ShunterId) : exec (.shReserved n) s = Sys2Proof.Machine.execShReserved n s := rfl
theorem exec_shAtResolve (n : ShunterId) : exec (.shAtResolve n) s = Sys2Proof.Machine.execShAtResolve n s := rfl
theorem exec_shWaitPin (n : ShunterId) : exec (.shWaitPin n) s = Sys2Proof.Machine.execShWaitPin n s := rfl
theorem exec_shWaitDeadline (n : ShunterId) : exec (.shWaitDeadline n) s = Sys2Proof.Machine.execShWaitDeadline n s := rfl
theorem exec_shLoadStallEnd (n : ShunterId) : exec (.shLoadStallEnd n) s = Sys2Proof.Machine.execShLoadStallEnd n s := rfl
theorem exec_shStoreStallEnd (n : ShunterId) : exec (.shStoreStallEnd n) s = Sys2Proof.Machine.execShStoreStallEnd n s := rfl
theorem exec_txfWrite (r : Requester) (n : ShunterId) (v : Word) : exec (.txfWrite r n v) s = Sys2Proof.Machine.execTxfWrite r n v s := rfl
theorem exec_rxfRead (r : Requester) (n : ShunterId) : exec (.rxfRead r n) s = Sys2Proof.Machine.execRxfRead r n s := rfl
theorem exec_txdmaRead (n : ShunterId) : exec (.txdmaRead n) s = Sys2Proof.Machine.execTxdmaRead n s := rfl
theorem exec_txdmaStore (n : ShunterId) : exec (.txdmaStore n) s = Sys2Proof.Machine.execTxdmaStore n s := rfl
theorem exec_rxdmaMove (n : ShunterId) : exec (.rxdmaMove n) s = Sys2Proof.Machine.execRxdmaMove n s := rfl
theorem exec_shnStartEntry (n : ShunterId) : exec (.shnStartEntry n) s = Sys2Proof.Machine.execShnStartEntry n s := rfl
theorem exec_shnStartWrite (r : Requester) (n : ShunterId) : exec (.shnStartWrite r n) s = Sys2Proof.Machine.execShnStartWrite r n s := rfl
theorem exec_shnGstartWrite (r : Requester) (n : ShunterId) : exec (.shnGstartWrite r n) s = Sys2Proof.Machine.execShnGstartWrite r n s := rfl
theorem exec_shnHaltWrite (r : Requester) (n : ShunterId) : exec (.shnHaltWrite r n) s = Sys2Proof.Machine.execShnHaltWrite r n s := rfl
theorem exec_shnClkrstWrite (r : Requester) (n : ShunterId) : exec (.shnClkrstWrite r n) s = Sys2Proof.Machine.execShnClkrstWrite r n s := rfl
theorem exec_shnClrfifoWrite (r : Requester) (n : ShunterId) : exec (.shnClrfifoWrite r n) s = Sys2Proof.Machine.execShnClrfifoWrite r n s := rfl
theorem exec_shnAbort (n : ShunterId) : exec (.shnAbort n) s = Sys2Proof.Machine.execShnAbort n s := rfl
theorem exec_sidingGrant (d : SidingId) : exec (.sidingGrant d) s = Sys2Proof.Machine.execSidingGrant d s := rfl
theorem exec_eccRewrite : exec (.eccRewrite) s = Sys2Proof.Machine.execEccRewrite s := rfl
theorem exec_dmaStarve (d : SidingId) : exec (.dmaStarve d) s = Sys2Proof.Machine.execDmaStarve d s := rfl
theorem exec_icbAccess : exec (.icbAccess) s = Sys2Proof.Machine.execIcbAccess s := rfl
theorem exec_scrubRead (store : Fin 8) : exec (.scrubRead store) s = Sys2Proof.Machine.execScrubRead store s := rfl
theorem exec_bgtCopyEnd : exec (.bgtCopyEnd) s = Sys2Proof.Machine.execBgtCopyEnd s := rfl
theorem exec_bgtTestEnd (passed : Bool) : exec (.bgtTestEnd passed) s = Sys2Proof.Machine.execBgtTestEnd passed s := rfl
theorem exec_bgtRestoreEnd : exec (.bgtRestoreEnd) s = Sys2Proof.Machine.execBgtRestoreEnd s := rfl
theorem exec_bgtEnWrite (r : Requester) (v : Word) : exec (.bgtEnWrite r v) s = Sys2Proof.Machine.execBgtEnWrite r v s := rfl
theorem exec_memAbort : exec (.memAbort) s = Sys2Proof.Machine.execMemAbort s := rfl
theorem exec_pcieReadRequest (a : Nat) (n : Nat) : exec (.pcieReadRequest a n) s = Sys2Proof.Machine.execPcieReadRequest a n s := rfl
theorem exec_pcieWriteRequest (a : Nat) (ws : List (Word × BitVec 4)) : exec (.pcieWriteRequest a ws) s = Sys2Proof.Machine.execPcieWriteRequest a ws s := rfl
theorem exec_spiWrite (a : Nat) (ws : List Word) : exec (.spiWrite a ws) s = Sys2Proof.Machine.execSpiWrite a ws s := rfl
theorem exec_spiRead (a : Nat) (n : Nat) : exec (.spiRead a n) s = Sys2Proof.Machine.execSpiRead a n s := rfl
theorem exec_spiQwrite (a : Nat) (ws : List Word) : exec (.spiQwrite a ws) s = Sys2Proof.Machine.execSpiQwrite a ws s := rfl
theorem exec_spiQread (a : Nat) (n : Nat) : exec (.spiQread a n) s = Sys2Proof.Machine.execSpiQread a n s := rfl
theorem exec_spiStatus : exec (.spiStatus) s = Sys2Proof.Machine.execSpiStatus s := rfl
theorem exec_registerWrite (r : Requester) (a : Nat) (v : Word) : exec (.registerWrite r a v) s = Sys2Proof.Machine.execRegisterWrite r a v s := rfl
theorem exec_irqSetWrite (r : Requester) (a : Nat) (v : Word) : exec (.irqSetWrite r a v) s = Sys2Proof.Machine.execIrqSetWrite r a v s := rfl
theorem exec_lockSeal (r : Requester) (a : Nat) : exec (.lockSeal r a) s = Sys2Proof.Machine.execLockSeal r a s := rfl
theorem exec_slotOpen (n : StreamId) : exec (.slotOpen n) s = Sys2Proof.Machine.execSlotOpen n s := rfl
theorem exec_slotClose (n : StreamId) : exec (.slotClose n) s = Sys2Proof.Machine.execSlotClose n s := rfl
theorem exec_slotTimeout (n : StreamId) : exec (.slotTimeout n) s = Sys2Proof.Machine.execSlotTimeout n s := rfl
theorem exec_streamReport (n : StreamId) : exec (.streamReport n) s = Sys2Proof.Machine.execStreamReport n s := rfl
theorem exec_streamDoorbell (r : Requester) (n : StreamId) (v : Word) : exec (.streamDoorbell r n v) s = Sys2Proof.Machine.execStreamDoorbell r n v s := rfl
theorem exec_streamPollRead (r : Requester) (n : StreamId) : exec (.streamPollRead r n) s = Sys2Proof.Machine.execStreamPollRead r n s := rfl
theorem exec_vackWrite (r : Requester) (v : Word) : exec (.vackWrite r v) s = Sys2Proof.Machine.execVackWrite r v s := rfl
theorem exec_msixUnmask (v : Fin 32) : exec (.msixUnmask v) s = Sys2Proof.Machine.execMsixUnmask v s := rfl
theorem exec_linkDown : exec (.linkDown) s = Sys2Proof.Machine.execLinkDown s := rfl
theorem exec_hstAbort : exec (.hstAbort) s = Sys2Proof.Machine.execHstAbort s := rfl
theorem exec_consistBegin (r : Requester) : exec (.consistBegin r) s = Sys2Proof.Machine.execConsistBegin r s := rfl
theorem exec_consistCommit (r : Requester) (v : Word) : exec (.consistCommit r v) s = Sys2Proof.Machine.execConsistCommit r v s := rfl
theorem exec_consistRollback (r : Requester) : exec (.consistRollback r) s = Sys2Proof.Machine.execConsistRollback r s := rfl
theorem exec_consistCheck : exec (.consistCheck) s = Sys2Proof.Machine.execConsistCheck s := rfl
theorem exec_cnsAbort : exec (.cnsAbort) s = Sys2Proof.Machine.execCnsAbort s := rfl
theorem exec_blockAbort (r : Requester) (a : Nat) : exec (.blockAbort r a) s = Sys2Proof.Machine.execBlockAbort r a s := rfl
theorem exec_abortComplete (a : Nat) : exec (.abortComplete a) s = Sys2Proof.Machine.execAbortComplete a s := rfl
theorem exec_glbAbort (r : Requester) : exec (.glbAbort r) s = Sys2Proof.Machine.execGlbAbort r s := rfl
theorem exec_pwrAbort : exec (.pwrAbort) s = Sys2Proof.Machine.execPwrAbort s := rfl
theorem exec_secAbort : exec (.secAbort) s = Sys2Proof.Machine.execSecAbort s := rfl
theorem exec_rollcallRequest (r : Requester) (v : Word) : exec (.rollcallRequest r v) s = Sys2Proof.Machine.execRollcallRequest r v s := rfl
theorem exec_rollcallSnapshot : exec (.rollcallSnapshot) s = Sys2Proof.Machine.execRollcallSnapshot s := rfl
theorem exec_rollcallComplete : exec (.rollcallComplete) s = Sys2Proof.Machine.execRollcallComplete s := rfl
theorem exec_rollcallAuto : exec (.rollcallAuto) s = Sys2Proof.Machine.execRollcallAuto s := rfl
theorem exec_bootEntry (clearOk : Bool) : exec (.bootEntry clearOk) s = Sys2Proof.Machine.execBootEntry clearOk s := rfl
theorem exec_pllRelockRetry : exec (.pllRelockRetry) s = Sys2Proof.Machine.execPllRelockRetry s := rfl
theorem exec_secLoad (r : Requester) (v : Word) : exec (.secLoad r v) s = Sys2Proof.Machine.execSecLoad r v s := rfl
theorem exec_loadComplete : exec (.loadComplete) s = Sys2Proof.Machine.execLoadComplete s := rfl
theorem exec_secOverride (r : Requester) : exec (.secOverride r) s = Sys2Proof.Machine.execSecOverride r s := rfl
theorem exec_keyProg (r : Requester) : exec (.keyProg r) s = Sys2Proof.Machine.execKeyProg r s := rfl
theorem exec_keyRevoke (r : Requester) : exec (.keyRevoke r) s = Sys2Proof.Machine.execKeyRevoke r s := rfl
theorem exec_arbAdvance (r : Requester) : exec (.arbAdvance r) s = Sys2Proof.Machine.execArbAdvance r s := rfl
theorem exec_refselProg (r : Requester) : exec (.refselProg r) s = Sys2Proof.Machine.execRefselProg r s := rfl
theorem exec_otpDone : exec (.otpDone) s = Sys2Proof.Machine.execOtpDone s := rfl
theorem exec_nonceLoRead (r : Requester) : exec (.nonceLoRead r) s = Sys2Proof.Machine.execNonceLoRead r s := rfl
theorem exec_sessionOpen (r : Requester) : exec (.sessionOpen r) s = Sys2Proof.Machine.execSessionOpen r s := rfl
theorem exec_sessionVerifyComplete (r : Requester) : exec (.sessionVerifyComplete r) s = Sys2Proof.Machine.execSessionVerifyComplete r s := rfl
theorem exec_sessionClose (r : Requester) : exec (.sessionClose r) s = Sys2Proof.Machine.execSessionClose r s := rfl
theorem exec_sessionExpiry (r : Requester) : exec (.sessionExpiry r) s = Sys2Proof.Machine.execSessionExpiry r s := rfl
theorem exec_sessionLockoutEnd (r : Requester) : exec (.sessionLockoutEnd r) s = Sys2Proof.Machine.execSessionLockoutEnd r s := rfl
theorem exec_twnEnable (r : Requester) (v : Word) : exec (.twnEnable r v) s = Sys2Proof.Machine.execTwnEnable r v s := rfl
theorem exec_helloFrame (h : Hello) : exec (.helloFrame h) s = Sys2Proof.Machine.execHelloFrame h s := rfl
theorem exec_heartbeatFrame (h : Heartbeat) (t : Nat) : exec (.heartbeatFrame h t) s = Sys2Proof.Machine.execHeartbeatFrame h t s := rfl
theorem exec_heartbeatMiss : exec (.heartbeatMiss) s = Sys2Proof.Machine.execHeartbeatMiss s := rfl
theorem exec_ackFrame (seq launch : Nat) : exec (.ackFrame seq launch) s = Sys2Proof.Machine.execAckFrame seq launch s := rfl
theorem exec_insFrame (seq : Nat) (rs : List InsRec) : exec (.insFrame seq rs) s = Sys2Proof.Machine.execInsFrame seq rs s := rfl
theorem exec_canFrame (seq slot : Nat) (chain : Bool) (req : Nat) : exec (.canFrame seq slot chain req) s = Sys2Proof.Machine.execCanFrame seq slot chain req s := rfl
theorem exec_retFrame (seq : Nat) (rs : List (Nat × Nat)) : exec (.retFrame seq rs) s = Sys2Proof.Machine.execRetFrame seq rs s := rfl
theorem exec_consFrame (seq slot owner whn bound : Nat) (last : Bool) (vals : List (Nat × Word)) : exec (.consFrame seq slot owner whn bound last vals) s = Sys2Proof.Machine.execConsFrame seq slot owner whn bound last vals s := rfl
theorem exec_consAtFrame (seq slot dep : Nat) : exec (.consAtFrame seq slot dep) s = Sys2Proof.Machine.execConsAtFrame seq slot dep s := rfl
theorem exec_consEndFrame (seq slot out : Nat) : exec (.consEndFrame seq slot out) s = Sys2Proof.Machine.execConsEndFrame seq slot out s := rfl
theorem exec_mapFrame (seq vt tai : Nat) : exec (.mapFrame seq vt tai) s = Sys2Proof.Machine.execMapFrame seq vt tai s := rfl
theorem exec_bulkFrame (seq : Nat) (rs : List BulkRec) (last : Bool) : exec (.bulkFrame seq rs last) s = Sys2Proof.Machine.execBulkFrame seq rs last s := rfl
theorem exec_switchFrame (w : Nat) : exec (.switchFrame w) s = Sys2Proof.Machine.execSwitchFrame w s := rfl
theorem exec_mirrorSend : exec (.mirrorSend) s = Sys2Proof.Machine.execMirrorSend s := rfl
theorem exec_switchoverDrive : exec (.switchoverDrive) s = Sys2Proof.Machine.execSwitchoverDrive s := rfl
theorem exec_switchoverTakeover : exec (.switchoverTakeover) s = Sys2Proof.Machine.execSwitchoverTakeover s := rfl
theorem exec_killInput : exec (.killInput) s = Sys2Proof.Machine.execKillInput s := rfl
theorem exec_twnSwitchCmd (r : Requester) : exec (.twnSwitchCmd r) s = Sys2Proof.Machine.execTwnSwitchCmd r s := rfl
theorem exec_twnRejoin (r : Requester) : exec (.twnRejoin r) s = Sys2Proof.Machine.execTwnRejoin r s := rfl
theorem exec_twnAbort : exec (.twnAbort) s = Sys2Proof.Machine.execTwnAbort s := rfl
theorem exec_pwrConfigure (r : Requester) : exec (.pwrConfigure r) s = Sys2Proof.Machine.execPwrConfigure r s := rfl
theorem exec_pwrRun (r : Requester) : exec (.pwrRun r) s = Sys2Proof.Machine.execPwrRun r s := rfl
theorem exec_pwrSafe (r : Requester) : exec (.pwrSafe r) s = Sys2Proof.Machine.execPwrSafe r s := rfl
theorem exec_pwrHibernate (r : Requester) : exec (.pwrHibernate r) s = Sys2Proof.Machine.execPwrHibernate r s := rfl
theorem exec_pwrKeeptime (r : Requester) : exec (.pwrKeeptime r) s = Sys2Proof.Machine.execPwrKeeptime r s := rfl
theorem exec_pwrReset (r : Requester) : exec (.pwrReset r) s = Sys2Proof.Machine.execPwrReset r s := rfl
theorem exec_pwrFactory (r : Requester) : exec (.pwrFactory r) s = Sys2Proof.Machine.execPwrFactory r s := rfl
theorem exec_vddAoPowerOn : exec (.vddAoPowerOn) s = Sys2Proof.Machine.execVddAoPowerOn s := rfl
theorem exec_porAo : exec (.porAo) s = Sys2Proof.Machine.execPorAo s := rfl
theorem exec_brownout : exec (.brownout) s = Sys2Proof.Machine.execBrownout s := rfl
theorem exec_resetPinAssert : exec (.resetPinAssert) s = Sys2Proof.Machine.execResetPinAssert s := rfl
theorem exec_resetPinRelease : exec (.resetPinRelease) s = Sys2Proof.Machine.execResetPinRelease s := rfl
theorem exec_wake : exec (.wake) s = Sys2Proof.Machine.execWake s := rfl
theorem exec_keeptimeAlarm : exec (.keeptimeAlarm) s = Sys2Proof.Machine.execKeeptimeAlarm s := rfl
theorem exec_wakeFail : exec (.wakeFail) s = Sys2Proof.Machine.execWakeFail s := rfl
theorem exec_coreSupplyGood : exec (.coreSupplyGood) s = Sys2Proof.Machine.execCoreSupplyGood s := rfl
theorem exec_jtagHalt : exec (.jtagHalt) s = Sys2Proof.Machine.execJtagHalt s := rfl
theorem exec_jtagResume : exec (.jtagResume) s = Sys2Proof.Machine.execJtagResume s := rfl
theorem exec_wdogKick (r : Requester) (v : Word) : exec (.wdogKick r v) s = Sys2Proof.Machine.execWdogKick r v s := rfl
theorem exec_wdogExpiry : exec (.wdogExpiry) s = Sys2Proof.Machine.execWdogExpiry s := rfl
theorem exec_pllLock (marchOk : Bool) (straps : BitVec 2) : exec (.pllLock marchOk straps) s = Sys2Proof.Machine.execPllLock marchOk straps s := rfl
theorem exec_xtal32Fail : exec (.xtal32Fail) s = Sys2Proof.Machine.execXtal32Fail s := rfl
theorem exec_xtal32Ok : exec (.xtal32Ok) s = Sys2Proof.Machine.execXtal32Ok s := rfl
theorem exec_pcieLinkUp (width speed : Nat) : exec (.pcieLinkUp width speed) s = Sys2Proof.Machine.execPcieLinkUp width speed s := rfl
theorem exec_izlarLinkDown : exec (.izlarLinkDown) s = Sys2Proof.Machine.execIzlarLinkDown s := rfl
theorem exec_izlarLinkUp : exec (.izlarLinkUp) s = Sys2Proof.Machine.execIzlarLinkUp s := rfl
theorem exec_frameCrcErr : exec (.frameCrcErr) s = Sys2Proof.Machine.execFrameCrcErr s := rfl
theorem exec_killInputRelease : exec (.killInputRelease) s = Sys2Proof.Machine.execKillInputRelease s := rfl
theorem exec_spiUnknownCommand (code : Byte) (a : Nat) : exec (.spiUnknownCommand code a) s = Sys2Proof.Machine.execSpiUnknownCommand code a s := rfl
theorem exec_jtagTestAccess (store inst : Nat) (a : Nat) (write : Bool) (v : Nat) : exec (.jtagTestAccess store inst a write v) s = Sys2Proof.Machine.execJtagTestAccess store inst a write v s := rfl

end Sys2Proof.Machine
end

