-- ==== Sys2Proof/Laws/SMap.lean ====
section
/-! SUPPORT. The laws of sparse maps: a read after a write, and the canonical form that every write keeps. -/

namespace Sys2Proof.Machine

variable {α : Type}

theorem SMap.get_list (d : Nat → α) (k : Nat) (v : α) (m : SMap α) (j : Nat) :
    SMap.get d (SMap.list k v m) j = if j = k then v else SMap.get d m j := by
  induction m with
  | nil => simp [SMap.list, SMap.get]
  | cons e m ih =>
    obtain ⟨i, w⟩ := e
    unfold SMap.list
    by_cases h1 : k < i
    · simp [h1, SMap.get]
    · by_cases h2 : k = i
      · subst h2
        by_cases h3 : j = k <;> simp [SMap.get, h3]
      · by_cases h3 : j = i
        · subst h3
          simp [SMap.get, h1, h2, Ne.symm h2]
        · simp [SMap.get, h1, h2, h3, ih]

theorem SMap.get_unlist (d : Nat → α) (k : Nat) (m : SMap α) (j : Nat) :
    SMap.get d (SMap.unlist k m) j = if j = k then d k else SMap.get d m j := by
  induction m with
  | nil => by_cases h : j = k <;> simp [SMap.unlist, SMap.get, h]
  | cons e m ih =>
    obtain ⟨i, w⟩ := e
    simp only [SMap.unlist] at ih ⊢
    by_cases h1 : i = k
    · subst h1
      by_cases h2 : j = i
      · subst h2; simpa [SMap.get] using ih
      · simpa [SMap.get, h2] using ih
    · by_cases h2 : j = i
      · subst h2; simp [SMap.get, h1]
      · simp only [ne_eq, h1, not_false_eq_true, decide_true, List.filter_cons, if_true, SMap.get, h2, if_false]
        simpa using ih

/-- A read after a write: the value written at its key, the old value at every other. -/
theorem SMap.get_put [DecidableEq α] (d : Nat → α) (m : SMap α) (k : Nat) (v : α) (j : Nat) :
    SMap.get d (SMap.put d m k v) j = if j = k then v else SMap.get d m j := by
  unfold SMap.put
  split
  · next h => rw [SMap.get_unlist, h]
  · exact SMap.get_list d k v m j

@[simp] theorem SMap.get_put_self [DecidableEq α] (d : Nat → α) (m : SMap α) (k : Nat) (v : α) :
    SMap.get d (SMap.put d m k v) k = v := by simp [SMap.get_put]

theorem SMap.get_put_ne [DecidableEq α] (d : Nat → α) (m : SMap α) (k : Nat) (v : α) (j : Nat) (h : j ≠ k) :
    SMap.get d (SMap.put d m k v) j = SMap.get d m j := by simp [SMap.get_put, h]

theorem SMap.above_list (k b : Nat) (v : α) (m : SMap α) (hb : b < k) (h : SMap.above b m = true) :
    SMap.above b (SMap.list k v m) = true := by
  induction m with
  | nil => simp [SMap.list, SMap.above, hb]
  | cons e m ih =>
    obtain ⟨i, w⟩ := e
    simp only [SMap.above, List.all_cons, Bool.and_eq_true, decide_eq_true_eq] at h ih
    unfold SMap.list
    split
    · simp [SMap.above, hb, h.1]; simpa [SMap.above] using h.2
    · split
      · simp [SMap.above, hb]; simpa [SMap.above] using h.2
      · simp only [SMap.above, List.all_cons, Bool.and_eq_true, decide_eq_true_eq]
        exact ⟨h.1, ih h.2⟩

theorem SMap.above_mono (a b : Nat) (m : SMap α) (h : a ≤ b) (hm : SMap.above b m = true) : SMap.above a m = true := by
  simp only [SMap.above, List.all_eq_true, decide_eq_true_eq] at hm ⊢
  exact fun e he => lt_of_le_of_lt h (hm e he)

theorem SMap.list_wf [DecidableEq α] (d : Nat → α) (k : Nat) (v : α) (m : SMap α) (hv : v ≠ d k)
    (h : SMap.wf d m = true) : SMap.wf d (SMap.list k v m) = true := by
  induction m with
  | nil => simp [SMap.list, SMap.wf, SMap.above, hv]
  | cons e m ih =>
    obtain ⟨i, w⟩ := e
    simp only [SMap.wf, Bool.and_eq_true, decide_eq_true_eq] at h
    unfold SMap.list
    by_cases h1 : k < i
    · rw [if_pos h1]
      have ha := SMap.above_mono k i m (le_of_lt h1) h.1.2
      simp only [SMap.wf, SMap.above, List.all_cons, Bool.and_eq_true, decide_eq_true_eq]
      exact ⟨⟨hv, h1, by simpa [SMap.above] using ha⟩, ⟨h.1.1, by simpa [SMap.above] using h.1.2⟩, h.2⟩
    · by_cases h2 : k = i
      · subst h2
        simp only [lt_irrefl, if_false, if_true, SMap.wf, Bool.and_eq_true, decide_eq_true_eq]
        exact ⟨⟨hv, h.1.2⟩, h.2⟩
      · rw [if_neg h1, if_neg h2]
        simp only [SMap.wf, Bool.and_eq_true, decide_eq_true_eq]
        exact ⟨⟨h.1.1, SMap.above_list k i v m (by omega) h.1.2⟩, ih h.2⟩

theorem SMap.above_filter (b : Nat) (p : Nat × α → Bool) (m : SMap α) (h : SMap.above b m = true) :
    SMap.above b (m.filter p) = true := by
  simp only [SMap.above, List.all_eq_true, decide_eq_true_eq] at h ⊢
  exact fun e he => h e (List.mem_of_mem_filter he)

theorem SMap.filter_wf [DecidableEq α] (d : Nat → α) (p : Nat × α → Bool) (m : SMap α) (h : SMap.wf d m = true) :
    SMap.wf d (m.filter p) = true := by
  induction m with
  | nil => rfl
  | cons e m ih =>
    obtain ⟨i, w⟩ := e
    simp only [SMap.wf, Bool.and_eq_true, decide_eq_true_eq] at h
    by_cases hp : p (i, w) = true
    · simp only [List.filter_cons, hp, if_true, SMap.wf, Bool.and_eq_true, decide_eq_true_eq]
      exact ⟨⟨h.1.1, SMap.above_filter i p m h.1.2⟩, ih h.2⟩
    · simpa [List.filter_cons, hp] using ih h.2

/-- A write keeps the canonical form. -/
theorem SMap.put_wf [DecidableEq α] (d : Nat → α) (m : SMap α) (k : Nat) (v : α) (h : SMap.wf d m = true) :
    SMap.wf d (SMap.put d m k v) = true := by
  unfold SMap.put
  split
  · exact SMap.filter_wf d _ m h
  · next hv => exact SMap.list_wf d k v m hv h

end Sys2Proof.Machine
end

