-- ==== Sys2Proof/Laws/State.lean ====
section
/-! SUPPORT. What each of the small operations leaves as it was: one lemma for each operation and field. -/

namespace Sys2Proof.Machine

variable (s : State)

@[simp] theorem State.advance_vtOff (c : Nat) : (s.advance c).vtOff = s.vtOff := rfl
@[simp] theorem State.advance_mode (c : Nat) : (s.advance c).mode = s.mode := rfl
@[simp] theorem State.advance_regs (c : Nat) : (s.advance c).regs = s.regs := rfl
@[simp] theorem State.advance_preqs (c : Nat) : (s.advance c).preqs = s.preqs := rfl
@[simp] theorem State.advance_tbu (c : Nat) : (s.advance c).tbu = s.tbu := rfl
@[simp] theorem State.advance_trk (c : Nat) : (s.advance c).trk = s.trk := rfl
@[simp] theorem State.advance_lines (c : Nat) : (s.advance c).lines = s.lines := rfl
@[simp] theorem State.advance_banks (c : Nat) : (s.advance c).banks = s.banks := rfl
@[simp] theorem State.advance_slots (c : Nat) : (s.advance c).slots = s.slots := rfl
@[simp] theorem State.advance_dsp (c : Nat) : (s.advance c).dsp = s.dsp := rfl
@[simp] theorem State.advance_ttn (c : Nat) : (s.advance c).ttn = s.ttn := rfl
@[simp] theorem State.advance_eng (c : Nat) : (s.advance c).eng = s.eng := rfl
@[simp] theorem State.advance_rul (c : Nat) : (s.advance c).rul = s.rul := rfl
@[simp] theorem State.advance_adc (c : Nat) : (s.advance c).adc = s.adc := rfl
@[simp] theorem State.advance_shn (c : Nat) : (s.advance c).shn = s.shn := rfl
@[simp] theorem State.advance_cons (c : Nat) : (s.advance c).cons = s.cons := rfl
@[simp] theorem State.advance_consOrd (c : Nat) : (s.advance c).consOrd = s.consOrd := rfl
@[simp] theorem State.advance_mem (c : Nat) : (s.advance c).mem = s.mem := rfl
@[simp] theorem State.advance_stores (c : Nat) : (s.advance c).stores = s.stores := rfl
@[simp] theorem State.advance_hst (c : Nat) : (s.advance c).hst = s.hst := rfl
@[simp] theorem State.advance_sec (c : Nat) : (s.advance c).sec = s.sec := rfl
@[simp] theorem State.advance_pwr (c : Nat) : (s.advance c).pwr = s.pwr := rfl
@[simp] theorem State.advance_glb (c : Nat) : (s.advance c).glb = s.glb := rfl
@[simp] theorem State.advance_twn (c : Nat) : (s.advance c).twn = s.twn := rfl
@[simp] theorem State.advance_signals (c : Nat) : (s.advance c).signals = s.signals := rfl
@[simp] theorem State.advance_free (c : Nat) : (s.advance c).free = s.free := rfl
@[simp] theorem State.advance_pending (c : Nat) : (s.advance c).pending = s.pending := rfl
@[simp] theorem State.advance_seenNow (c : Nat) : (s.advance c).seenNow = s.seenNow := rfl

@[simp] theorem State.advanceU_vtOff (u : Nat) : (s.advanceU u).vtOff = s.vtOff := rfl
@[simp] theorem State.advanceU_mode (u : Nat) : (s.advanceU u).mode = s.mode := rfl
@[simp] theorem State.advanceU_regs (u : Nat) : (s.advanceU u).regs = s.regs := rfl
@[simp] theorem State.advanceU_preqs (u : Nat) : (s.advanceU u).preqs = s.preqs := rfl
@[simp] theorem State.advanceU_tbu (u : Nat) : (s.advanceU u).tbu = s.tbu := rfl
@[simp] theorem State.advanceU_trk (u : Nat) : (s.advanceU u).trk = s.trk := rfl
@[simp] theorem State.advanceU_lines (u : Nat) : (s.advanceU u).lines = s.lines := rfl
@[simp] theorem State.advanceU_banks (u : Nat) : (s.advanceU u).banks = s.banks := rfl
@[simp] theorem State.advanceU_slots (u : Nat) : (s.advanceU u).slots = s.slots := rfl
@[simp] theorem State.advanceU_dsp (u : Nat) : (s.advanceU u).dsp = s.dsp := rfl
@[simp] theorem State.advanceU_ttn (u : Nat) : (s.advanceU u).ttn = s.ttn := rfl
@[simp] theorem State.advanceU_eng (u : Nat) : (s.advanceU u).eng = s.eng := rfl
@[simp] theorem State.advanceU_rul (u : Nat) : (s.advanceU u).rul = s.rul := rfl
@[simp] theorem State.advanceU_adc (u : Nat) : (s.advanceU u).adc = s.adc := rfl
@[simp] theorem State.advanceU_shn (u : Nat) : (s.advanceU u).shn = s.shn := rfl
@[simp] theorem State.advanceU_cons (u : Nat) : (s.advanceU u).cons = s.cons := rfl
@[simp] theorem State.advanceU_consOrd (u : Nat) : (s.advanceU u).consOrd = s.consOrd := rfl
@[simp] theorem State.advanceU_mem (u : Nat) : (s.advanceU u).mem = s.mem := rfl
@[simp] theorem State.advanceU_stores (u : Nat) : (s.advanceU u).stores = s.stores := rfl
@[simp] theorem State.advanceU_hst (u : Nat) : (s.advanceU u).hst = s.hst := rfl
@[simp] theorem State.advanceU_sec (u : Nat) : (s.advanceU u).sec = s.sec := rfl
@[simp] theorem State.advanceU_pwr (u : Nat) : (s.advanceU u).pwr = s.pwr := rfl
@[simp] theorem State.advanceU_glb (u : Nat) : (s.advanceU u).glb = s.glb := rfl
@[simp] theorem State.advanceU_twn (u : Nat) : (s.advanceU u).twn = s.twn := rfl
@[simp] theorem State.advanceU_signals (u : Nat) : (s.advanceU u).signals = s.signals := rfl
@[simp] theorem State.advanceU_free (u : Nat) : (s.advanceU u).free = s.free := rfl
@[simp] theorem State.advanceU_pending (u : Nat) : (s.advanceU u).pending = s.pending := rfl
@[simp] theorem State.advanceU_seenNow (u : Nat) : (s.advanceU u).seenNow = s.seenNow := rfl

@[simp] theorem State.advanceVt_vtOff (t : Nat) : (s.advanceVt t).vtOff = s.vtOff := rfl
@[simp] theorem State.advanceVt_mode (t : Nat) : (s.advanceVt t).mode = s.mode := rfl
@[simp] theorem State.advanceVt_regs (t : Nat) : (s.advanceVt t).regs = s.regs := rfl
@[simp] theorem State.advanceVt_preqs (t : Nat) : (s.advanceVt t).preqs = s.preqs := rfl
@[simp] theorem State.advanceVt_tbu (t : Nat) : (s.advanceVt t).tbu = s.tbu := rfl
@[simp] theorem State.advanceVt_trk (t : Nat) : (s.advanceVt t).trk = s.trk := rfl
@[simp] theorem State.advanceVt_lines (t : Nat) : (s.advanceVt t).lines = s.lines := rfl
@[simp] theorem State.advanceVt_banks (t : Nat) : (s.advanceVt t).banks = s.banks := rfl
@[simp] theorem State.advanceVt_slots (t : Nat) : (s.advanceVt t).slots = s.slots := rfl
@[simp] theorem State.advanceVt_dsp (t : Nat) : (s.advanceVt t).dsp = s.dsp := rfl
@[simp] theorem State.advanceVt_ttn (t : Nat) : (s.advanceVt t).ttn = s.ttn := rfl
@[simp] theorem State.advanceVt_eng (t : Nat) : (s.advanceVt t).eng = s.eng := rfl
@[simp] theorem State.advanceVt_rul (t : Nat) : (s.advanceVt t).rul = s.rul := rfl
@[simp] theorem State.advanceVt_adc (t : Nat) : (s.advanceVt t).adc = s.adc := rfl
@[simp] theorem State.advanceVt_shn (t : Nat) : (s.advanceVt t).shn = s.shn := rfl
@[simp] theorem State.advanceVt_cons (t : Nat) : (s.advanceVt t).cons = s.cons := rfl
@[simp] theorem State.advanceVt_consOrd (t : Nat) : (s.advanceVt t).consOrd = s.consOrd := rfl
@[simp] theorem State.advanceVt_mem (t : Nat) : (s.advanceVt t).mem = s.mem := rfl
@[simp] theorem State.advanceVt_stores (t : Nat) : (s.advanceVt t).stores = s.stores := rfl
@[simp] theorem State.advanceVt_hst (t : Nat) : (s.advanceVt t).hst = s.hst := rfl
@[simp] theorem State.advanceVt_sec (t : Nat) : (s.advanceVt t).sec = s.sec := rfl
@[simp] theorem State.advanceVt_pwr (t : Nat) : (s.advanceVt t).pwr = s.pwr := rfl
@[simp] theorem State.advanceVt_glb (t : Nat) : (s.advanceVt t).glb = s.glb := rfl
@[simp] theorem State.advanceVt_twn (t : Nat) : (s.advanceVt t).twn = s.twn := rfl
@[simp] theorem State.advanceVt_signals (t : Nat) : (s.advanceVt t).signals = s.signals := rfl
@[simp] theorem State.advanceVt_free (t : Nat) : (s.advanceVt t).free = s.free := rfl
@[simp] theorem State.advanceVt_pending (t : Nat) : (s.advanceVt t).pending = s.pending := rfl
@[simp] theorem State.advanceVt_seenNow (t : Nat) : (s.advanceVt t).seenNow = s.seenNow := rfl

@[simp] theorem State.setReg_raw (a : Nat) (v : Word) : (s.setReg a v).raw = s.raw := rfl
@[simp] theorem State.setReg_vtOff (a : Nat) (v : Word) : (s.setReg a v).vtOff = s.vtOff := rfl
@[simp] theorem State.setReg_mode (a : Nat) (v : Word) : (s.setReg a v).mode = s.mode := rfl
@[simp] theorem State.setReg_preqs (a : Nat) (v : Word) : (s.setReg a v).preqs = s.preqs := rfl
@[simp] theorem State.setReg_tbu (a : Nat) (v : Word) : (s.setReg a v).tbu = s.tbu := rfl
@[simp] theorem State.setReg_trk (a : Nat) (v : Word) : (s.setReg a v).trk = s.trk := rfl
@[simp] theorem State.setReg_lines (a : Nat) (v : Word) : (s.setReg a v).lines = s.lines := rfl
@[simp] theorem State.setReg_banks (a : Nat) (v : Word) : (s.setReg a v).banks = s.banks := rfl
@[simp] theorem State.setReg_slots (a : Nat) (v : Word) : (s.setReg a v).slots = s.slots := rfl
@[simp] theorem State.setReg_dsp (a : Nat) (v : Word) : (s.setReg a v).dsp = s.dsp := rfl
@[simp] theorem State.setReg_ttn (a : Nat) (v : Word) : (s.setReg a v).ttn = s.ttn := rfl
@[simp] theorem State.setReg_eng (a : Nat) (v : Word) : (s.setReg a v).eng = s.eng := rfl
@[simp] theorem State.setReg_rul (a : Nat) (v : Word) : (s.setReg a v).rul = s.rul := rfl
@[simp] theorem State.setReg_adc (a : Nat) (v : Word) : (s.setReg a v).adc = s.adc := rfl
@[simp] theorem State.setReg_shn (a : Nat) (v : Word) : (s.setReg a v).shn = s.shn := rfl
@[simp] theorem State.setReg_cons (a : Nat) (v : Word) : (s.setReg a v).cons = s.cons := rfl
@[simp] theorem State.setReg_consOrd (a : Nat) (v : Word) : (s.setReg a v).consOrd = s.consOrd := rfl
@[simp] theorem State.setReg_mem (a : Nat) (v : Word) : (s.setReg a v).mem = s.mem := rfl
@[simp] theorem State.setReg_stores (a : Nat) (v : Word) : (s.setReg a v).stores = s.stores := rfl
@[simp] theorem State.setReg_hst (a : Nat) (v : Word) : (s.setReg a v).hst = s.hst := rfl
@[simp] theorem State.setReg_sec (a : Nat) (v : Word) : (s.setReg a v).sec = s.sec := rfl
@[simp] theorem State.setReg_pwr (a : Nat) (v : Word) : (s.setReg a v).pwr = s.pwr := rfl
@[simp] theorem State.setReg_glb (a : Nat) (v : Word) : (s.setReg a v).glb = s.glb := rfl
@[simp] theorem State.setReg_twn (a : Nat) (v : Word) : (s.setReg a v).twn = s.twn := rfl
@[simp] theorem State.setReg_signals (a : Nat) (v : Word) : (s.setReg a v).signals = s.signals := rfl
@[simp] theorem State.setReg_free (a : Nat) (v : Word) : (s.setReg a v).free = s.free := rfl
@[simp] theorem State.setReg_pending (a : Nat) (v : Word) : (s.setReg a v).pending = s.pending := rfl
@[simp] theorem State.setReg_seenNow (a : Nat) (v : Word) : (s.setReg a v).seenNow = s.seenNow := rfl

@[simp] theorem State.setF_raw (g : Fld) (v i : Nat) : (s.setF g v i).raw = s.raw := rfl
@[simp] theorem State.setF_vtOff (g : Fld) (v i : Nat) : (s.setF g v i).vtOff = s.vtOff := rfl
@[simp] theorem State.setF_mode (g : Fld) (v i : Nat) : (s.setF g v i).mode = s.mode := rfl
@[simp] theorem State.setF_preqs (g : Fld) (v i : Nat) : (s.setF g v i).preqs = s.preqs := rfl
@[simp] theorem State.setF_tbu (g : Fld) (v i : Nat) : (s.setF g v i).tbu = s.tbu := rfl
@[simp] theorem State.setF_trk (g : Fld) (v i : Nat) : (s.setF g v i).trk = s.trk := rfl
@[simp] theorem State.setF_lines (g : Fld) (v i : Nat) : (s.setF g v i).lines = s.lines := rfl
@[simp] theorem State.setF_banks (g : Fld) (v i : Nat) : (s.setF g v i).banks = s.banks := rfl
@[simp] theorem State.setF_slots (g : Fld) (v i : Nat) : (s.setF g v i).slots = s.slots := rfl
@[simp] theorem State.setF_dsp (g : Fld) (v i : Nat) : (s.setF g v i).dsp = s.dsp := rfl
@[simp] theorem State.setF_ttn (g : Fld) (v i : Nat) : (s.setF g v i).ttn = s.ttn := rfl
@[simp] theorem State.setF_eng (g : Fld) (v i : Nat) : (s.setF g v i).eng = s.eng := rfl
@[simp] theorem State.setF_rul (g : Fld) (v i : Nat) : (s.setF g v i).rul = s.rul := rfl
@[simp] theorem State.setF_adc (g : Fld) (v i : Nat) : (s.setF g v i).adc = s.adc := rfl
@[simp] theorem State.setF_shn (g : Fld) (v i : Nat) : (s.setF g v i).shn = s.shn := rfl
@[simp] theorem State.setF_cons (g : Fld) (v i : Nat) : (s.setF g v i).cons = s.cons := rfl
@[simp] theorem State.setF_consOrd (g : Fld) (v i : Nat) : (s.setF g v i).consOrd = s.consOrd := rfl
@[simp] theorem State.setF_mem (g : Fld) (v i : Nat) : (s.setF g v i).mem = s.mem := rfl
@[simp] theorem State.setF_stores (g : Fld) (v i : Nat) : (s.setF g v i).stores = s.stores := rfl
@[simp] theorem State.setF_hst (g : Fld) (v i : Nat) : (s.setF g v i).hst = s.hst := rfl
@[simp] theorem State.setF_sec (g : Fld) (v i : Nat) : (s.setF g v i).sec = s.sec := rfl
@[simp] theorem State.setF_pwr (g : Fld) (v i : Nat) : (s.setF g v i).pwr = s.pwr := rfl
@[simp] theorem State.setF_glb (g : Fld) (v i : Nat) : (s.setF g v i).glb = s.glb := rfl
@[simp] theorem State.setF_twn (g : Fld) (v i : Nat) : (s.setF g v i).twn = s.twn := rfl
@[simp] theorem State.setF_signals (g : Fld) (v i : Nat) : (s.setF g v i).signals = s.signals := rfl
@[simp] theorem State.setF_free (g : Fld) (v i : Nat) : (s.setF g v i).free = s.free := rfl
@[simp] theorem State.setF_pending (g : Fld) (v i : Nat) : (s.setF g v i).pending = s.pending := rfl
@[simp] theorem State.setF_seenNow (g : Fld) (v i : Nat) : (s.setF g v i).seenNow = s.seenNow := rfl

@[simp] theorem State.set1_raw (g : Fld) (i : Nat) : (s.set1 g i).raw = s.raw := rfl
@[simp] theorem State.set1_vtOff (g : Fld) (i : Nat) : (s.set1 g i).vtOff = s.vtOff := rfl
@[simp] theorem State.set1_mode (g : Fld) (i : Nat) : (s.set1 g i).mode = s.mode := rfl
@[simp] theorem State.set1_preqs (g : Fld) (i : Nat) : (s.set1 g i).preqs = s.preqs := rfl
@[simp] theorem State.set1_tbu (g : Fld) (i : Nat) : (s.set1 g i).tbu = s.tbu := rfl
@[simp] theorem State.set1_trk (g : Fld) (i : Nat) : (s.set1 g i).trk = s.trk := rfl
@[simp] theorem State.set1_lines (g : Fld) (i : Nat) : (s.set1 g i).lines = s.lines := rfl
@[simp] theorem State.set1_banks (g : Fld) (i : Nat) : (s.set1 g i).banks = s.banks := rfl
@[simp] theorem State.set1_slots (g : Fld) (i : Nat) : (s.set1 g i).slots = s.slots := rfl
@[simp] theorem State.set1_dsp (g : Fld) (i : Nat) : (s.set1 g i).dsp = s.dsp := rfl
@[simp] theorem State.set1_ttn (g : Fld) (i : Nat) : (s.set1 g i).ttn = s.ttn := rfl
@[simp] theorem State.set1_eng (g : Fld) (i : Nat) : (s.set1 g i).eng = s.eng := rfl
@[simp] theorem State.set1_rul (g : Fld) (i : Nat) : (s.set1 g i).rul = s.rul := rfl
@[simp] theorem State.set1_adc (g : Fld) (i : Nat) : (s.set1 g i).adc = s.adc := rfl
@[simp] theorem State.set1_shn (g : Fld) (i : Nat) : (s.set1 g i).shn = s.shn := rfl
@[simp] theorem State.set1_cons (g : Fld) (i : Nat) : (s.set1 g i).cons = s.cons := rfl
@[simp] theorem State.set1_consOrd (g : Fld) (i : Nat) : (s.set1 g i).consOrd = s.consOrd := rfl
@[simp] theorem State.set1_mem (g : Fld) (i : Nat) : (s.set1 g i).mem = s.mem := rfl
@[simp] theorem State.set1_stores (g : Fld) (i : Nat) : (s.set1 g i).stores = s.stores := rfl
@[simp] theorem State.set1_hst (g : Fld) (i : Nat) : (s.set1 g i).hst = s.hst := rfl
@[simp] theorem State.set1_sec (g : Fld) (i : Nat) : (s.set1 g i).sec = s.sec := rfl
@[simp] theorem State.set1_pwr (g : Fld) (i : Nat) : (s.set1 g i).pwr = s.pwr := rfl
@[simp] theorem State.set1_glb (g : Fld) (i : Nat) : (s.set1 g i).glb = s.glb := rfl
@[simp] theorem State.set1_twn (g : Fld) (i : Nat) : (s.set1 g i).twn = s.twn := rfl
@[simp] theorem State.set1_signals (g : Fld) (i : Nat) : (s.set1 g i).signals = s.signals := rfl
@[simp] theorem State.set1_free (g : Fld) (i : Nat) : (s.set1 g i).free = s.free := rfl
@[simp] theorem State.set1_pending (g : Fld) (i : Nat) : (s.set1 g i).pending = s.pending := rfl

@[simp] theorem State.clr_raw (g : Fld) (i : Nat) : (s.clr g i).raw = s.raw := rfl
@[simp] theorem State.clr_vtOff (g : Fld) (i : Nat) : (s.clr g i).vtOff = s.vtOff := rfl
@[simp] theorem State.clr_mode (g : Fld) (i : Nat) : (s.clr g i).mode = s.mode := rfl
@[simp] theorem State.clr_preqs (g : Fld) (i : Nat) : (s.clr g i).preqs = s.preqs := rfl
@[simp] theorem State.clr_tbu (g : Fld) (i : Nat) : (s.clr g i).tbu = s.tbu := rfl
@[simp] theorem State.clr_trk (g : Fld) (i : Nat) : (s.clr g i).trk = s.trk := rfl
@[simp] theorem State.clr_lines (g : Fld) (i : Nat) : (s.clr g i).lines = s.lines := rfl
@[simp] theorem State.clr_banks (g : Fld) (i : Nat) : (s.clr g i).banks = s.banks := rfl
@[simp] theorem State.clr_slots (g : Fld) (i : Nat) : (s.clr g i).slots = s.slots := rfl
@[simp] theorem State.clr_dsp (g : Fld) (i : Nat) : (s.clr g i).dsp = s.dsp := rfl
@[simp] theorem State.clr_ttn (g : Fld) (i : Nat) : (s.clr g i).ttn = s.ttn := rfl
@[simp] theorem State.clr_eng (g : Fld) (i : Nat) : (s.clr g i).eng = s.eng := rfl
@[simp] theorem State.clr_rul (g : Fld) (i : Nat) : (s.clr g i).rul = s.rul := rfl
@[simp] theorem State.clr_adc (g : Fld) (i : Nat) : (s.clr g i).adc = s.adc := rfl
@[simp] theorem State.clr_shn (g : Fld) (i : Nat) : (s.clr g i).shn = s.shn := rfl
@[simp] theorem State.clr_cons (g : Fld) (i : Nat) : (s.clr g i).cons = s.cons := rfl
@[simp] theorem State.clr_consOrd (g : Fld) (i : Nat) : (s.clr g i).consOrd = s.consOrd := rfl
@[simp] theorem State.clr_mem (g : Fld) (i : Nat) : (s.clr g i).mem = s.mem := rfl
@[simp] theorem State.clr_stores (g : Fld) (i : Nat) : (s.clr g i).stores = s.stores := rfl
@[simp] theorem State.clr_hst (g : Fld) (i : Nat) : (s.clr g i).hst = s.hst := rfl
@[simp] theorem State.clr_sec (g : Fld) (i : Nat) : (s.clr g i).sec = s.sec := rfl
@[simp] theorem State.clr_pwr (g : Fld) (i : Nat) : (s.clr g i).pwr = s.pwr := rfl
@[simp] theorem State.clr_glb (g : Fld) (i : Nat) : (s.clr g i).glb = s.glb := rfl
@[simp] theorem State.clr_twn (g : Fld) (i : Nat) : (s.clr g i).twn = s.twn := rfl
@[simp] theorem State.clr_signals (g : Fld) (i : Nat) : (s.clr g i).signals = s.signals := rfl
@[simp] theorem State.clr_free (g : Fld) (i : Nat) : (s.clr g i).free = s.free := rfl
@[simp] theorem State.clr_pending (g : Fld) (i : Nat) : (s.clr g i).pending = s.pending := rfl
@[simp] theorem State.clr_seenNow (g : Fld) (i : Nat) : (s.clr g i).seenNow = s.seenNow := rfl

@[simp] theorem State.bump_raw (g : Fld) (n i : Nat) : (s.bump g n i).raw = s.raw := rfl
@[simp] theorem State.bump_vtOff (g : Fld) (n i : Nat) : (s.bump g n i).vtOff = s.vtOff := rfl
@[simp] theorem State.bump_mode (g : Fld) (n i : Nat) : (s.bump g n i).mode = s.mode := rfl
@[simp] theorem State.bump_preqs (g : Fld) (n i : Nat) : (s.bump g n i).preqs = s.preqs := rfl
@[simp] theorem State.bump_tbu (g : Fld) (n i : Nat) : (s.bump g n i).tbu = s.tbu := rfl
@[simp] theorem State.bump_trk (g : Fld) (n i : Nat) : (s.bump g n i).trk = s.trk := rfl
@[simp] theorem State.bump_lines (g : Fld) (n i : Nat) : (s.bump g n i).lines = s.lines := rfl
@[simp] theorem State.bump_banks (g : Fld) (n i : Nat) : (s.bump g n i).banks = s.banks := rfl
@[simp] theorem State.bump_slots (g : Fld) (n i : Nat) : (s.bump g n i).slots = s.slots := rfl
@[simp] theorem State.bump_dsp (g : Fld) (n i : Nat) : (s.bump g n i).dsp = s.dsp := rfl
@[simp] theorem State.bump_ttn (g : Fld) (n i : Nat) : (s.bump g n i).ttn = s.ttn := rfl
@[simp] theorem State.bump_eng (g : Fld) (n i : Nat) : (s.bump g n i).eng = s.eng := rfl
@[simp] theorem State.bump_rul (g : Fld) (n i : Nat) : (s.bump g n i).rul = s.rul := rfl
@[simp] theorem State.bump_adc (g : Fld) (n i : Nat) : (s.bump g n i).adc = s.adc := rfl
@[simp] theorem State.bump_shn (g : Fld) (n i : Nat) : (s.bump g n i).shn = s.shn := rfl
@[simp] theorem State.bump_cons (g : Fld) (n i : Nat) : (s.bump g n i).cons = s.cons := rfl
@[simp] theorem State.bump_consOrd (g : Fld) (n i : Nat) : (s.bump g n i).consOrd = s.consOrd := rfl
@[simp] theorem State.bump_mem (g : Fld) (n i : Nat) : (s.bump g n i).mem = s.mem := rfl
@[simp] theorem State.bump_stores (g : Fld) (n i : Nat) : (s.bump g n i).stores = s.stores := rfl
@[simp] theorem State.bump_hst (g : Fld) (n i : Nat) : (s.bump g n i).hst = s.hst := rfl
@[simp] theorem State.bump_sec (g : Fld) (n i : Nat) : (s.bump g n i).sec = s.sec := rfl
@[simp] theorem State.bump_pwr (g : Fld) (n i : Nat) : (s.bump g n i).pwr = s.pwr := rfl
@[simp] theorem State.bump_glb (g : Fld) (n i : Nat) : (s.bump g n i).glb = s.glb := rfl
@[simp] theorem State.bump_twn (g : Fld) (n i : Nat) : (s.bump g n i).twn = s.twn := rfl
@[simp] theorem State.bump_signals (g : Fld) (n i : Nat) : (s.bump g n i).signals = s.signals := rfl
@[simp] theorem State.bump_free (g : Fld) (n i : Nat) : (s.bump g n i).free = s.free := rfl
@[simp] theorem State.bump_pending (g : Fld) (n i : Nat) : (s.bump g n i).pending = s.pending := rfl
@[simp] theorem State.bump_seenNow (g : Fld) (n i : Nat) : (s.bump g n i).seenNow = s.seenNow := rfl

@[simp] theorem State.incr_raw (g : Fld) (i : Nat) : (s.incr g i).raw = s.raw := rfl
@[simp] theorem State.incr_vtOff (g : Fld) (i : Nat) : (s.incr g i).vtOff = s.vtOff := rfl
@[simp] theorem State.incr_mode (g : Fld) (i : Nat) : (s.incr g i).mode = s.mode := rfl
@[simp] theorem State.incr_preqs (g : Fld) (i : Nat) : (s.incr g i).preqs = s.preqs := rfl
@[simp] theorem State.incr_tbu (g : Fld) (i : Nat) : (s.incr g i).tbu = s.tbu := rfl
@[simp] theorem State.incr_trk (g : Fld) (i : Nat) : (s.incr g i).trk = s.trk := rfl
@[simp] theorem State.incr_lines (g : Fld) (i : Nat) : (s.incr g i).lines = s.lines := rfl
@[simp] theorem State.incr_banks (g : Fld) (i : Nat) : (s.incr g i).banks = s.banks := rfl
@[simp] theorem State.incr_slots (g : Fld) (i : Nat) : (s.incr g i).slots = s.slots := rfl
@[simp] theorem State.incr_dsp (g : Fld) (i : Nat) : (s.incr g i).dsp = s.dsp := rfl
@[simp] theorem State.incr_ttn (g : Fld) (i : Nat) : (s.incr g i).ttn = s.ttn := rfl
@[simp] theorem State.incr_eng (g : Fld) (i : Nat) : (s.incr g i).eng = s.eng := rfl
@[simp] theorem State.incr_rul (g : Fld) (i : Nat) : (s.incr g i).rul = s.rul := rfl
@[simp] theorem State.incr_adc (g : Fld) (i : Nat) : (s.incr g i).adc = s.adc := rfl
@[simp] theorem State.incr_shn (g : Fld) (i : Nat) : (s.incr g i).shn = s.shn := rfl
@[simp] theorem State.incr_cons (g : Fld) (i : Nat) : (s.incr g i).cons = s.cons := rfl
@[simp] theorem State.incr_consOrd (g : Fld) (i : Nat) : (s.incr g i).consOrd = s.consOrd := rfl
@[simp] theorem State.incr_mem (g : Fld) (i : Nat) : (s.incr g i).mem = s.mem := rfl
@[simp] theorem State.incr_stores (g : Fld) (i : Nat) : (s.incr g i).stores = s.stores := rfl
@[simp] theorem State.incr_hst (g : Fld) (i : Nat) : (s.incr g i).hst = s.hst := rfl
@[simp] theorem State.incr_sec (g : Fld) (i : Nat) : (s.incr g i).sec = s.sec := rfl
@[simp] theorem State.incr_pwr (g : Fld) (i : Nat) : (s.incr g i).pwr = s.pwr := rfl
@[simp] theorem State.incr_glb (g : Fld) (i : Nat) : (s.incr g i).glb = s.glb := rfl
@[simp] theorem State.incr_twn (g : Fld) (i : Nat) : (s.incr g i).twn = s.twn := rfl
@[simp] theorem State.incr_signals (g : Fld) (i : Nat) : (s.incr g i).signals = s.signals := rfl
@[simp] theorem State.incr_free (g : Fld) (i : Nat) : (s.incr g i).free = s.free := rfl
@[simp] theorem State.incr_pending (g : Fld) (i : Nat) : (s.incr g i).pending = s.pending := rfl
@[simp] theorem State.incr_seenNow (g : Fld) (i : Nat) : (s.incr g i).seenNow = s.seenNow := rfl

@[simp] theorem State.setPreg_raw (k a : Nat) (v : Word) : (s.setPreg k a v).raw = s.raw := rfl
@[simp] theorem State.setPreg_vtOff (k a : Nat) (v : Word) : (s.setPreg k a v).vtOff = s.vtOff := rfl
@[simp] theorem State.setPreg_mode (k a : Nat) (v : Word) : (s.setPreg k a v).mode = s.mode := rfl
@[simp] theorem State.setPreg_regs (k a : Nat) (v : Word) : (s.setPreg k a v).regs = s.regs := rfl
@[simp] theorem State.setPreg_tbu (k a : Nat) (v : Word) : (s.setPreg k a v).tbu = s.tbu := rfl
@[simp] theorem State.setPreg_trk (k a : Nat) (v : Word) : (s.setPreg k a v).trk = s.trk := rfl
@[simp] theorem State.setPreg_lines (k a : Nat) (v : Word) : (s.setPreg k a v).lines = s.lines := rfl
@[simp] theorem State.setPreg_banks (k a : Nat) (v : Word) : (s.setPreg k a v).banks = s.banks := rfl
@[simp] theorem State.setPreg_slots (k a : Nat) (v : Word) : (s.setPreg k a v).slots = s.slots := rfl
@[simp] theorem State.setPreg_dsp (k a : Nat) (v : Word) : (s.setPreg k a v).dsp = s.dsp := rfl
@[simp] theorem State.setPreg_ttn (k a : Nat) (v : Word) : (s.setPreg k a v).ttn = s.ttn := rfl
@[simp] theorem State.setPreg_eng (k a : Nat) (v : Word) : (s.setPreg k a v).eng = s.eng := rfl
@[simp] theorem State.setPreg_rul (k a : Nat) (v : Word) : (s.setPreg k a v).rul = s.rul := rfl
@[simp] theorem State.setPreg_adc (k a : Nat) (v : Word) : (s.setPreg k a v).adc = s.adc := rfl
@[simp] theorem State.setPreg_shn (k a : Nat) (v : Word) : (s.setPreg k a v).shn = s.shn := rfl
@[simp] theorem State.setPreg_cons (k a : Nat) (v : Word) : (s.setPreg k a v).cons = s.cons := rfl
@[simp] theorem State.setPreg_consOrd (k a : Nat) (v : Word) : (s.setPreg k a v).consOrd = s.consOrd := rfl
@[simp] theorem State.setPreg_mem (k a : Nat) (v : Word) : (s.setPreg k a v).mem = s.mem := rfl
@[simp] theorem State.setPreg_stores (k a : Nat) (v : Word) : (s.setPreg k a v).stores = s.stores := rfl
@[simp] theorem State.setPreg_hst (k a : Nat) (v : Word) : (s.setPreg k a v).hst = s.hst := rfl
@[simp] theorem State.setPreg_sec (k a : Nat) (v : Word) : (s.setPreg k a v).sec = s.sec := rfl
@[simp] theorem State.setPreg_pwr (k a : Nat) (v : Word) : (s.setPreg k a v).pwr = s.pwr := rfl
@[simp] theorem State.setPreg_glb (k a : Nat) (v : Word) : (s.setPreg k a v).glb = s.glb := rfl
@[simp] theorem State.setPreg_twn (k a : Nat) (v : Word) : (s.setPreg k a v).twn = s.twn := rfl
@[simp] theorem State.setPreg_signals (k a : Nat) (v : Word) : (s.setPreg k a v).signals = s.signals := rfl
@[simp] theorem State.setPreg_free (k a : Nat) (v : Word) : (s.setPreg k a v).free = s.free := rfl
@[simp] theorem State.setPreg_pending (k a : Nat) (v : Word) : (s.setPreg k a v).pending = s.pending := rfl
@[simp] theorem State.setPreg_seenNow (k a : Nat) (v : Word) : (s.setPreg k a v).seenNow = s.seenNow := rfl

@[simp] theorem State.setSession_raw (r : Requester) (x : Session) : (s.setSession r x).raw = s.raw := rfl
@[simp] theorem State.setSession_vtOff (r : Requester) (x : Session) : (s.setSession r x).vtOff = s.vtOff := rfl
@[simp] theorem State.setSession_mode (r : Requester) (x : Session) : (s.setSession r x).mode = s.mode := rfl
@[simp] theorem State.setSession_regs (r : Requester) (x : Session) : (s.setSession r x).regs = s.regs := rfl
@[simp] theorem State.setSession_preqs (r : Requester) (x : Session) : (s.setSession r x).preqs = s.preqs := rfl
@[simp] theorem State.setSession_tbu (r : Requester) (x : Session) : (s.setSession r x).tbu = s.tbu := rfl
@[simp] theorem State.setSession_trk (r : Requester) (x : Session) : (s.setSession r x).trk = s.trk := rfl
@[simp] theorem State.setSession_lines (r : Requester) (x : Session) : (s.setSession r x).lines = s.lines := rfl
@[simp] theorem State.setSession_banks (r : Requester) (x : Session) : (s.setSession r x).banks = s.banks := rfl
@[simp] theorem State.setSession_slots (r : Requester) (x : Session) : (s.setSession r x).slots = s.slots := rfl
@[simp] theorem State.setSession_dsp (r : Requester) (x : Session) : (s.setSession r x).dsp = s.dsp := rfl
@[simp] theorem State.setSession_ttn (r : Requester) (x : Session) : (s.setSession r x).ttn = s.ttn := rfl
@[simp] theorem State.setSession_eng (r : Requester) (x : Session) : (s.setSession r x).eng = s.eng := rfl
@[simp] theorem State.setSession_rul (r : Requester) (x : Session) : (s.setSession r x).rul = s.rul := rfl
@[simp] theorem State.setSession_adc (r : Requester) (x : Session) : (s.setSession r x).adc = s.adc := rfl
@[simp] theorem State.setSession_shn (r : Requester) (x : Session) : (s.setSession r x).shn = s.shn := rfl
@[simp] theorem State.setSession_cons (r : Requester) (x : Session) : (s.setSession r x).cons = s.cons := rfl
@[simp] theorem State.setSession_consOrd (r : Requester) (x : Session) : (s.setSession r x).consOrd = s.consOrd := rfl
@[simp] theorem State.setSession_mem (r : Requester) (x : Session) : (s.setSession r x).mem = s.mem := rfl
@[simp] theorem State.setSession_stores (r : Requester) (x : Session) : (s.setSession r x).stores = s.stores := rfl
@[simp] theorem State.setSession_hst (r : Requester) (x : Session) : (s.setSession r x).hst = s.hst := rfl
@[simp] theorem State.setSession_pwr (r : Requester) (x : Session) : (s.setSession r x).pwr = s.pwr := rfl
@[simp] theorem State.setSession_glb (r : Requester) (x : Session) : (s.setSession r x).glb = s.glb := rfl
@[simp] theorem State.setSession_twn (r : Requester) (x : Session) : (s.setSession r x).twn = s.twn := rfl
@[simp] theorem State.setSession_signals (r : Requester) (x : Session) : (s.setSession r x).signals = s.signals := rfl
@[simp] theorem State.setSession_free (r : Requester) (x : Session) : (s.setSession r x).free = s.free := rfl
@[simp] theorem State.setSession_pending (r : Requester) (x : Session) : (s.setSession r x).pending = s.pending := rfl
@[simp] theorem State.setSession_seenNow (r : Requester) (x : Session) : (s.setSession r x).seenNow = s.seenNow := rfl

@[simp] theorem State.answer_raw (r : Requester) (a : Nat) (v : Word) (p : Bool) : (s.answer r a v p).raw = s.raw := rfl
@[simp] theorem State.answer_vtOff (r : Requester) (a : Nat) (v : Word) (p : Bool) : (s.answer r a v p).vtOff = s.vtOff := rfl
@[simp] theorem State.answer_mode (r : Requester) (a : Nat) (v : Word) (p : Bool) : (s.answer r a v p).mode = s.mode := rfl
@[simp] theorem State.answer_regs (r : Requester) (a : Nat) (v : Word) (p : Bool) : (s.answer r a v p).regs = s.regs := rfl
@[simp] theorem State.answer_preqs (r : Requester) (a : Nat) (v : Word) (p : Bool) : (s.answer r a v p).preqs = s.preqs := rfl
@[simp] theorem State.answer_tbu (r : Requester) (a : Nat) (v : Word) (p : Bool) : (s.answer r a v p).tbu = s.tbu := rfl
@[simp] theorem State.answer_trk (r : Requester) (a : Nat) (v : Word) (p : Bool) : (s.answer r a v p).trk = s.trk := rfl
@[simp] theorem State.answer_lines (r : Requester) (a : Nat) (v : Word) (p : Bool) : (s.answer r a v p).lines = s.lines := rfl
@[simp] theorem State.answer_banks (r : Requester) (a : Nat) (v : Word) (p : Bool) : (s.answer r a v p).banks = s.banks := rfl
@[simp] theorem State.answer_slots (r : Requester) (a : Nat) (v : Word) (p : Bool) : (s.answer r a v p).slots = s.slots := rfl
@[simp] theorem State.answer_dsp (r : Requester) (a : Nat) (v : Word) (p : Bool) : (s.answer r a v p).dsp = s.dsp := rfl
@[simp] theorem State.answer_ttn (r : Requester) (a : Nat) (v : Word) (p : Bool) : (s.answer r a v p).ttn = s.ttn := rfl
@[simp] theorem State.answer_eng (r : Requester) (a : Nat) (v : Word) (p : Bool) : (s.answer r a v p).eng = s.eng := rfl
@[simp] theorem State.answer_rul (r : Requester) (a : Nat) (v : Word) (p : Bool) : (s.answer r a v p).rul = s.rul := rfl
@[simp] theorem State.answer_adc (r : Requester) (a : Nat) (v : Word) (p : Bool) : (s.answer r a v p).adc = s.adc := rfl
@[simp] theorem State.answer_shn (r : Requester) (a : Nat) (v : Word) (p : Bool) : (s.answer r a v p).shn = s.shn := rfl
@[simp] theorem State.answer_cons (r : Requester) (a : Nat) (v : Word) (p : Bool) : (s.answer r a v p).cons = s.cons := rfl
@[simp] theorem State.answer_consOrd (r : Requester) (a : Nat) (v : Word) (p : Bool) : (s.answer r a v p).consOrd = s.consOrd := rfl
@[simp] theorem State.answer_mem (r : Requester) (a : Nat) (v : Word) (p : Bool) : (s.answer r a v p).mem = s.mem := rfl
@[simp] theorem State.answer_stores (r : Requester) (a : Nat) (v : Word) (p : Bool) : (s.answer r a v p).stores = s.stores := rfl
@[simp] theorem State.answer_sec (r : Requester) (a : Nat) (v : Word) (p : Bool) : (s.answer r a v p).sec = s.sec := rfl
@[simp] theorem State.answer_pwr (r : Requester) (a : Nat) (v : Word) (p : Bool) : (s.answer r a v p).pwr = s.pwr := rfl
@[simp] theorem State.answer_glb (r : Requester) (a : Nat) (v : Word) (p : Bool) : (s.answer r a v p).glb = s.glb := rfl
@[simp] theorem State.answer_twn (r : Requester) (a : Nat) (v : Word) (p : Bool) : (s.answer r a v p).twn = s.twn := rfl
@[simp] theorem State.answer_signals (r : Requester) (a : Nat) (v : Word) (p : Bool) : (s.answer r a v p).signals = s.signals := rfl
@[simp] theorem State.answer_free (r : Requester) (a : Nat) (v : Word) (p : Bool) : (s.answer r a v p).free = s.free := rfl
@[simp] theorem State.answer_pending (r : Requester) (a : Nat) (v : Word) (p : Bool) : (s.answer r a v p).pending = s.pending := rfl
@[simp] theorem State.answer_seenNow (r : Requester) (a : Nat) (v : Word) (p : Bool) : (s.answer r a v p).seenNow = s.seenNow := rfl

@[simp] theorem State.draw_raw : (s.draw).raw = s.raw := rfl
@[simp] theorem State.draw_vtOff : (s.draw).vtOff = s.vtOff := rfl
@[simp] theorem State.draw_mode : (s.draw).mode = s.mode := rfl
@[simp] theorem State.draw_regs : (s.draw).regs = s.regs := rfl
@[simp] theorem State.draw_preqs : (s.draw).preqs = s.preqs := rfl
@[simp] theorem State.draw_tbu : (s.draw).tbu = s.tbu := rfl
@[simp] theorem State.draw_trk : (s.draw).trk = s.trk := rfl
@[simp] theorem State.draw_lines : (s.draw).lines = s.lines := rfl
@[simp] theorem State.draw_banks : (s.draw).banks = s.banks := rfl
@[simp] theorem State.draw_slots : (s.draw).slots = s.slots := rfl
@[simp] theorem State.draw_dsp : (s.draw).dsp = s.dsp := rfl
@[simp] theorem State.draw_ttn : (s.draw).ttn = s.ttn := rfl
@[simp] theorem State.draw_eng : (s.draw).eng = s.eng := rfl
@[simp] theorem State.draw_rul : (s.draw).rul = s.rul := rfl
@[simp] theorem State.draw_adc : (s.draw).adc = s.adc := rfl
@[simp] theorem State.draw_shn : (s.draw).shn = s.shn := rfl
@[simp] theorem State.draw_cons : (s.draw).cons = s.cons := rfl
@[simp] theorem State.draw_consOrd : (s.draw).consOrd = s.consOrd := rfl
@[simp] theorem State.draw_mem : (s.draw).mem = s.mem := rfl
@[simp] theorem State.draw_stores : (s.draw).stores = s.stores := rfl
@[simp] theorem State.draw_hst : (s.draw).hst = s.hst := rfl
@[simp] theorem State.draw_sec : (s.draw).sec = s.sec := rfl
@[simp] theorem State.draw_pwr : (s.draw).pwr = s.pwr := rfl
@[simp] theorem State.draw_glb : (s.draw).glb = s.glb := rfl
@[simp] theorem State.draw_twn : (s.draw).twn = s.twn := rfl
@[simp] theorem State.draw_signals : (s.draw).signals = s.signals := rfl
@[simp] theorem State.draw_pending : (s.draw).pending = s.pending := rfl
@[simp] theorem State.draw_seenNow : (s.draw).seenNow = s.seenNow := rfl

@[simp] theorem State.signal_raw (k i g t : Nat) : (s.signal k i g t).raw = s.raw := rfl
@[simp] theorem State.signal_vtOff (k i g t : Nat) : (s.signal k i g t).vtOff = s.vtOff := rfl
@[simp] theorem State.signal_mode (k i g t : Nat) : (s.signal k i g t).mode = s.mode := rfl
@[simp] theorem State.signal_regs (k i g t : Nat) : (s.signal k i g t).regs = s.regs := rfl
@[simp] theorem State.signal_preqs (k i g t : Nat) : (s.signal k i g t).preqs = s.preqs := rfl
@[simp] theorem State.signal_tbu (k i g t : Nat) : (s.signal k i g t).tbu = s.tbu := rfl
@[simp] theorem State.signal_trk (k i g t : Nat) : (s.signal k i g t).trk = s.trk := rfl
@[simp] theorem State.signal_lines (k i g t : Nat) : (s.signal k i g t).lines = s.lines := rfl
@[simp] theorem State.signal_banks (k i g t : Nat) : (s.signal k i g t).banks = s.banks := rfl
@[simp] theorem State.signal_slots (k i g t : Nat) : (s.signal k i g t).slots = s.slots := rfl
@[simp] theorem State.signal_dsp (k i g t : Nat) : (s.signal k i g t).dsp = s.dsp := rfl
@[simp] theorem State.signal_ttn (k i g t : Nat) : (s.signal k i g t).ttn = s.ttn := rfl
@[simp] theorem State.signal_eng (k i g t : Nat) : (s.signal k i g t).eng = s.eng := rfl
@[simp] theorem State.signal_rul (k i g t : Nat) : (s.signal k i g t).rul = s.rul := rfl
@[simp] theorem State.signal_adc (k i g t : Nat) : (s.signal k i g t).adc = s.adc := rfl
@[simp] theorem State.signal_shn (k i g t : Nat) : (s.signal k i g t).shn = s.shn := rfl
@[simp] theorem State.signal_cons (k i g t : Nat) : (s.signal k i g t).cons = s.cons := rfl
@[simp] theorem State.signal_consOrd (k i g t : Nat) : (s.signal k i g t).consOrd = s.consOrd := rfl
@[simp] theorem State.signal_mem (k i g t : Nat) : (s.signal k i g t).mem = s.mem := rfl
@[simp] theorem State.signal_stores (k i g t : Nat) : (s.signal k i g t).stores = s.stores := rfl
@[simp] theorem State.signal_hst (k i g t : Nat) : (s.signal k i g t).hst = s.hst := rfl
@[simp] theorem State.signal_sec (k i g t : Nat) : (s.signal k i g t).sec = s.sec := rfl
@[simp] theorem State.signal_pwr (k i g t : Nat) : (s.signal k i g t).pwr = s.pwr := rfl
@[simp] theorem State.signal_glb (k i g t : Nat) : (s.signal k i g t).glb = s.glb := rfl
@[simp] theorem State.signal_twn (k i g t : Nat) : (s.signal k i g t).twn = s.twn := rfl
@[simp] theorem State.signal_free (k i g t : Nat) : (s.signal k i g t).free = s.free := rfl
@[simp] theorem State.signal_pending (k i g t : Nat) : (s.signal k i g t).pending = s.pending := rfl
@[simp] theorem State.signal_seenNow (k i g t : Nat) : (s.signal k i g t).seenNow = s.seenNow := rfl

@[simp] theorem State.fault_raw (c : Nat) : (s.fault c).raw = s.raw := rfl
@[simp] theorem State.fault_vtOff (c : Nat) : (s.fault c).vtOff = s.vtOff := rfl
@[simp] theorem State.fault_mode (c : Nat) : (s.fault c).mode = s.mode := rfl
@[simp] theorem State.fault_preqs (c : Nat) : (s.fault c).preqs = s.preqs := rfl
@[simp] theorem State.fault_tbu (c : Nat) : (s.fault c).tbu = s.tbu := rfl
@[simp] theorem State.fault_trk (c : Nat) : (s.fault c).trk = s.trk := rfl
@[simp] theorem State.fault_lines (c : Nat) : (s.fault c).lines = s.lines := rfl
@[simp] theorem State.fault_banks (c : Nat) : (s.fault c).banks = s.banks := rfl
@[simp] theorem State.fault_slots (c : Nat) : (s.fault c).slots = s.slots := rfl
@[simp] theorem State.fault_dsp (c : Nat) : (s.fault c).dsp = s.dsp := rfl
@[simp] theorem State.fault_ttn (c : Nat) : (s.fault c).ttn = s.ttn := rfl
@[simp] theorem State.fault_eng (c : Nat) : (s.fault c).eng = s.eng := rfl
@[simp] theorem State.fault_rul (c : Nat) : (s.fault c).rul = s.rul := rfl
@[simp] theorem State.fault_adc (c : Nat) : (s.fault c).adc = s.adc := rfl
@[simp] theorem State.fault_shn (c : Nat) : (s.fault c).shn = s.shn := rfl
@[simp] theorem State.fault_cons (c : Nat) : (s.fault c).cons = s.cons := rfl
@[simp] theorem State.fault_consOrd (c : Nat) : (s.fault c).consOrd = s.consOrd := rfl
@[simp] theorem State.fault_mem (c : Nat) : (s.fault c).mem = s.mem := rfl
@[simp] theorem State.fault_stores (c : Nat) : (s.fault c).stores = s.stores := rfl
@[simp] theorem State.fault_hst (c : Nat) : (s.fault c).hst = s.hst := rfl
@[simp] theorem State.fault_sec (c : Nat) : (s.fault c).sec = s.sec := rfl
@[simp] theorem State.fault_glb (c : Nat) : (s.fault c).glb = s.glb := rfl
@[simp] theorem State.fault_twn (c : Nat) : (s.fault c).twn = s.twn := rfl
@[simp] theorem State.fault_signals (c : Nat) : (s.fault c).signals = s.signals := rfl
@[simp] theorem State.fault_free (c : Nat) : (s.fault c).free = s.free := rfl
@[simp] theorem State.fault_pending (c : Nat) : (s.fault c).pending = s.pending := rfl
@[simp] theorem State.fault_seenNow (c : Nat) : (s.fault c).seenNow = s.seenNow := rfl

@[simp] theorem State.setSlot_raw (i : Nat) (x : Slot) : (s.setSlot i x).raw = s.raw := rfl
@[simp] theorem State.setSlot_vtOff (i : Nat) (x : Slot) : (s.setSlot i x).vtOff = s.vtOff := rfl
@[simp] theorem State.setSlot_mode (i : Nat) (x : Slot) : (s.setSlot i x).mode = s.mode := rfl
@[simp] theorem State.setSlot_regs (i : Nat) (x : Slot) : (s.setSlot i x).regs = s.regs := rfl
@[simp] theorem State.setSlot_preqs (i : Nat) (x : Slot) : (s.setSlot i x).preqs = s.preqs := rfl
@[simp] theorem State.setSlot_tbu (i : Nat) (x : Slot) : (s.setSlot i x).tbu = s.tbu := rfl
@[simp] theorem State.setSlot_trk (i : Nat) (x : Slot) : (s.setSlot i x).trk = s.trk := rfl
@[simp] theorem State.setSlot_lines (i : Nat) (x : Slot) : (s.setSlot i x).lines = s.lines := rfl
@[simp] theorem State.setSlot_banks (i : Nat) (x : Slot) : (s.setSlot i x).banks = s.banks := rfl
@[simp] theorem State.setSlot_dsp (i : Nat) (x : Slot) : (s.setSlot i x).dsp = s.dsp := rfl
@[simp] theorem State.setSlot_ttn (i : Nat) (x : Slot) : (s.setSlot i x).ttn = s.ttn := rfl
@[simp] theorem State.setSlot_eng (i : Nat) (x : Slot) : (s.setSlot i x).eng = s.eng := rfl
@[simp] theorem State.setSlot_rul (i : Nat) (x : Slot) : (s.setSlot i x).rul = s.rul := rfl
@[simp] theorem State.setSlot_adc (i : Nat) (x : Slot) : (s.setSlot i x).adc = s.adc := rfl
@[simp] theorem State.setSlot_shn (i : Nat) (x : Slot) : (s.setSlot i x).shn = s.shn := rfl
@[simp] theorem State.setSlot_cons (i : Nat) (x : Slot) : (s.setSlot i x).cons = s.cons := rfl
@[simp] theorem State.setSlot_consOrd (i : Nat) (x : Slot) : (s.setSlot i x).consOrd = s.consOrd := rfl
@[simp] theorem State.setSlot_mem (i : Nat) (x : Slot) : (s.setSlot i x).mem = s.mem := rfl
@[simp] theorem State.setSlot_stores (i : Nat) (x : Slot) : (s.setSlot i x).stores = s.stores := rfl
@[simp] theorem State.setSlot_hst (i : Nat) (x : Slot) : (s.setSlot i x).hst = s.hst := rfl
@[simp] theorem State.setSlot_sec (i : Nat) (x : Slot) : (s.setSlot i x).sec = s.sec := rfl
@[simp] theorem State.setSlot_pwr (i : Nat) (x : Slot) : (s.setSlot i x).pwr = s.pwr := rfl
@[simp] theorem State.setSlot_glb (i : Nat) (x : Slot) : (s.setSlot i x).glb = s.glb := rfl
@[simp] theorem State.setSlot_twn (i : Nat) (x : Slot) : (s.setSlot i x).twn = s.twn := rfl
@[simp] theorem State.setSlot_signals (i : Nat) (x : Slot) : (s.setSlot i x).signals = s.signals := rfl
@[simp] theorem State.setSlot_free (i : Nat) (x : Slot) : (s.setSlot i x).free = s.free := rfl
@[simp] theorem State.setSlot_pending (i : Nat) (x : Slot) : (s.setSlot i x).pending = s.pending := rfl
@[simp] theorem State.setSlot_seenNow (i : Nat) (x : Slot) : (s.setSlot i x).seenNow = s.seenNow := rfl

@[simp] theorem State.abortBegin_raw (b : Nat) : (s.abortBegin b).raw = s.raw := by exact State.setReg_raw s _ _
@[simp] theorem State.abortBegin_vtOff (b : Nat) : (s.abortBegin b).vtOff = s.vtOff := by exact State.setReg_vtOff s _ _
@[simp] theorem State.abortBegin_mode (b : Nat) : (s.abortBegin b).mode = s.mode := by exact State.setReg_mode s _ _
@[simp] theorem State.abortBegin_preqs (b : Nat) : (s.abortBegin b).preqs = s.preqs := by exact State.setReg_preqs s _ _
@[simp] theorem State.abortBegin_tbu (b : Nat) : (s.abortBegin b).tbu = s.tbu := by exact State.setReg_tbu s _ _
@[simp] theorem State.abortBegin_trk (b : Nat) : (s.abortBegin b).trk = s.trk := by exact State.setReg_trk s _ _
@[simp] theorem State.abortBegin_lines (b : Nat) : (s.abortBegin b).lines = s.lines := by exact State.setReg_lines s _ _
@[simp] theorem State.abortBegin_banks (b : Nat) : (s.abortBegin b).banks = s.banks := by exact State.setReg_banks s _ _
@[simp] theorem State.abortBegin_slots (b : Nat) : (s.abortBegin b).slots = s.slots := by exact State.setReg_slots s _ _
@[simp] theorem State.abortBegin_dsp (b : Nat) : (s.abortBegin b).dsp = s.dsp := by exact State.setReg_dsp s _ _
@[simp] theorem State.abortBegin_ttn (b : Nat) : (s.abortBegin b).ttn = s.ttn := by exact State.setReg_ttn s _ _
@[simp] theorem State.abortBegin_eng (b : Nat) : (s.abortBegin b).eng = s.eng := by exact State.setReg_eng s _ _
@[simp] theorem State.abortBegin_rul (b : Nat) : (s.abortBegin b).rul = s.rul := by exact State.setReg_rul s _ _
@[simp] theorem State.abortBegin_adc (b : Nat) : (s.abortBegin b).adc = s.adc := by exact State.setReg_adc s _ _
@[simp] theorem State.abortBegin_shn (b : Nat) : (s.abortBegin b).shn = s.shn := by exact State.setReg_shn s _ _
@[simp] theorem State.abortBegin_cons (b : Nat) : (s.abortBegin b).cons = s.cons := by exact State.setReg_cons s _ _
@[simp] theorem State.abortBegin_consOrd (b : Nat) : (s.abortBegin b).consOrd = s.consOrd := by exact State.setReg_consOrd s _ _
@[simp] theorem State.abortBegin_mem (b : Nat) : (s.abortBegin b).mem = s.mem := by exact State.setReg_mem s _ _
@[simp] theorem State.abortBegin_stores (b : Nat) : (s.abortBegin b).stores = s.stores := by exact State.setReg_stores s _ _
@[simp] theorem State.abortBegin_hst (b : Nat) : (s.abortBegin b).hst = s.hst := by exact State.setReg_hst s _ _
@[simp] theorem State.abortBegin_sec (b : Nat) : (s.abortBegin b).sec = s.sec := by exact State.setReg_sec s _ _
@[simp] theorem State.abortBegin_pwr (b : Nat) : (s.abortBegin b).pwr = s.pwr := by exact State.setReg_pwr s _ _
@[simp] theorem State.abortBegin_glb (b : Nat) : (s.abortBegin b).glb = s.glb := by exact State.setReg_glb s _ _
@[simp] theorem State.abortBegin_twn (b : Nat) : (s.abortBegin b).twn = s.twn := by exact State.setReg_twn s _ _
@[simp] theorem State.abortBegin_signals (b : Nat) : (s.abortBegin b).signals = s.signals := by exact State.setReg_signals s _ _
@[simp] theorem State.abortBegin_free (b : Nat) : (s.abortBegin b).free = s.free := by exact State.setReg_free s _ _
@[simp] theorem State.abortBegin_pending (b : Nat) : (s.abortBegin b).pending = s.pending := by exact State.setReg_pending s _ _
@[simp] theorem State.abortBegin_seenNow (b : Nat) : (s.abortBegin b).seenNow = s.seenNow := by exact State.setReg_seenNow s _ _

@[simp] theorem State.abortEnd_raw (b : Nat) : (s.abortEnd b).raw = s.raw := by exact State.setReg_raw s _ _
@[simp] theorem State.abortEnd_vtOff (b : Nat) : (s.abortEnd b).vtOff = s.vtOff := by exact State.setReg_vtOff s _ _
@[simp] theorem State.abortEnd_mode (b : Nat) : (s.abortEnd b).mode = s.mode := by exact State.setReg_mode s _ _
@[simp] theorem State.abortEnd_preqs (b : Nat) : (s.abortEnd b).preqs = s.preqs := by exact State.setReg_preqs s _ _
@[simp] theorem State.abortEnd_tbu (b : Nat) : (s.abortEnd b).tbu = s.tbu := by exact State.setReg_tbu s _ _
@[simp] theorem State.abortEnd_trk (b : Nat) : (s.abortEnd b).trk = s.trk := by exact State.setReg_trk s _ _
@[simp] theorem State.abortEnd_lines (b : Nat) : (s.abortEnd b).lines = s.lines := by exact State.setReg_lines s _ _
@[simp] theorem State.abortEnd_banks (b : Nat) : (s.abortEnd b).banks = s.banks := by exact State.setReg_banks s _ _
@[simp] theorem State.abortEnd_slots (b : Nat) : (s.abortEnd b).slots = s.slots := by exact State.setReg_slots s _ _
@[simp] theorem State.abortEnd_dsp (b : Nat) : (s.abortEnd b).dsp = s.dsp := by exact State.setReg_dsp s _ _
@[simp] theorem State.abortEnd_ttn (b : Nat) : (s.abortEnd b).ttn = s.ttn := by exact State.setReg_ttn s _ _
@[simp] theorem State.abortEnd_eng (b : Nat) : (s.abortEnd b).eng = s.eng := by exact State.setReg_eng s _ _
@[simp] theorem State.abortEnd_rul (b : Nat) : (s.abortEnd b).rul = s.rul := by exact State.setReg_rul s _ _
@[simp] theorem State.abortEnd_adc (b : Nat) : (s.abortEnd b).adc = s.adc := by exact State.setReg_adc s _ _
@[simp] theorem State.abortEnd_shn (b : Nat) : (s.abortEnd b).shn = s.shn := by exact State.setReg_shn s _ _
@[simp] theorem State.abortEnd_cons (b : Nat) : (s.abortEnd b).cons = s.cons := by exact State.setReg_cons s _ _
@[simp] theorem State.abortEnd_consOrd (b : Nat) : (s.abortEnd b).consOrd = s.consOrd := by exact State.setReg_consOrd s _ _
@[simp] theorem State.abortEnd_mem (b : Nat) : (s.abortEnd b).mem = s.mem := by exact State.setReg_mem s _ _
@[simp] theorem State.abortEnd_stores (b : Nat) : (s.abortEnd b).stores = s.stores := by exact State.setReg_stores s _ _
@[simp] theorem State.abortEnd_hst (b : Nat) : (s.abortEnd b).hst = s.hst := by exact State.setReg_hst s _ _
@[simp] theorem State.abortEnd_sec (b : Nat) : (s.abortEnd b).sec = s.sec := by exact State.setReg_sec s _ _
@[simp] theorem State.abortEnd_pwr (b : Nat) : (s.abortEnd b).pwr = s.pwr := by exact State.setReg_pwr s _ _
@[simp] theorem State.abortEnd_glb (b : Nat) : (s.abortEnd b).glb = s.glb := by exact State.setReg_glb s _ _
@[simp] theorem State.abortEnd_twn (b : Nat) : (s.abortEnd b).twn = s.twn := by exact State.setReg_twn s _ _
@[simp] theorem State.abortEnd_signals (b : Nat) : (s.abortEnd b).signals = s.signals := by exact State.setReg_signals s _ _
@[simp] theorem State.abortEnd_free (b : Nat) : (s.abortEnd b).free = s.free := by exact State.setReg_free s _ _
@[simp] theorem State.abortEnd_pending (b : Nat) : (s.abortEnd b).pending = s.pending := by exact State.setReg_pending s _ _
@[simp] theorem State.abortEnd_seenNow (b : Nat) : (s.abortEnd b).seenNow = s.seenNow := by exact State.setReg_seenNow s _ _

@[simp] theorem State.setTrack_raw (t : Nat) (x : Track) : (s.setTrack t x).raw = s.raw := rfl
@[simp] theorem State.setTrack_vtOff (t : Nat) (x : Track) : (s.setTrack t x).vtOff = s.vtOff := rfl
@[simp] theorem State.setTrack_mode (t : Nat) (x : Track) : (s.setTrack t x).mode = s.mode := rfl
@[simp] theorem State.setTrack_regs (t : Nat) (x : Track) : (s.setTrack t x).regs = s.regs := rfl
@[simp] theorem State.setTrack_preqs (t : Nat) (x : Track) : (s.setTrack t x).preqs = s.preqs := rfl
@[simp] theorem State.setTrack_tbu (t : Nat) (x : Track) : (s.setTrack t x).tbu = s.tbu := rfl
@[simp] theorem State.setTrack_lines (t : Nat) (x : Track) : (s.setTrack t x).lines = s.lines := rfl
@[simp] theorem State.setTrack_banks (t : Nat) (x : Track) : (s.setTrack t x).banks = s.banks := rfl
@[simp] theorem State.setTrack_slots (t : Nat) (x : Track) : (s.setTrack t x).slots = s.slots := rfl
@[simp] theorem State.setTrack_dsp (t : Nat) (x : Track) : (s.setTrack t x).dsp = s.dsp := rfl
@[simp] theorem State.setTrack_ttn (t : Nat) (x : Track) : (s.setTrack t x).ttn = s.ttn := rfl
@[simp] theorem State.setTrack_eng (t : Nat) (x : Track) : (s.setTrack t x).eng = s.eng := rfl
@[simp] theorem State.setTrack_rul (t : Nat) (x : Track) : (s.setTrack t x).rul = s.rul := rfl
@[simp] theorem State.setTrack_adc (t : Nat) (x : Track) : (s.setTrack t x).adc = s.adc := rfl
@[simp] theorem State.setTrack_shn (t : Nat) (x : Track) : (s.setTrack t x).shn = s.shn := rfl
@[simp] theorem State.setTrack_cons (t : Nat) (x : Track) : (s.setTrack t x).cons = s.cons := rfl
@[simp] theorem State.setTrack_consOrd (t : Nat) (x : Track) : (s.setTrack t x).consOrd = s.consOrd := rfl
@[simp] theorem State.setTrack_mem (t : Nat) (x : Track) : (s.setTrack t x).mem = s.mem := rfl
@[simp] theorem State.setTrack_stores (t : Nat) (x : Track) : (s.setTrack t x).stores = s.stores := rfl
@[simp] theorem State.setTrack_hst (t : Nat) (x : Track) : (s.setTrack t x).hst = s.hst := rfl
@[simp] theorem State.setTrack_sec (t : Nat) (x : Track) : (s.setTrack t x).sec = s.sec := rfl
@[simp] theorem State.setTrack_pwr (t : Nat) (x : Track) : (s.setTrack t x).pwr = s.pwr := rfl
@[simp] theorem State.setTrack_glb (t : Nat) (x : Track) : (s.setTrack t x).glb = s.glb := rfl
@[simp] theorem State.setTrack_twn (t : Nat) (x : Track) : (s.setTrack t x).twn = s.twn := rfl
@[simp] theorem State.setTrack_signals (t : Nat) (x : Track) : (s.setTrack t x).signals = s.signals := rfl
@[simp] theorem State.setTrack_free (t : Nat) (x : Track) : (s.setTrack t x).free = s.free := rfl
@[simp] theorem State.setTrack_pending (t : Nat) (x : Track) : (s.setTrack t x).pending = s.pending := rfl
@[simp] theorem State.setTrack_seenNow (t : Nat) (x : Track) : (s.setTrack t x).seenNow = s.seenNow := rfl

@[simp] theorem State.setLine_raw (n : Nat) (x : Line) : (s.setLine n x).raw = s.raw := rfl
@[simp] theorem State.setLine_vtOff (n : Nat) (x : Line) : (s.setLine n x).vtOff = s.vtOff := rfl
@[simp] theorem State.setLine_mode (n : Nat) (x : Line) : (s.setLine n x).mode = s.mode := rfl
@[simp] theorem State.setLine_regs (n : Nat) (x : Line) : (s.setLine n x).regs = s.regs := rfl
@[simp] theorem State.setLine_preqs (n : Nat) (x : Line) : (s.setLine n x).preqs = s.preqs := rfl
@[simp] theorem State.setLine_tbu (n : Nat) (x : Line) : (s.setLine n x).tbu = s.tbu := rfl
@[simp] theorem State.setLine_trk (n : Nat) (x : Line) : (s.setLine n x).trk = s.trk := rfl
@[simp] theorem State.setLine_banks (n : Nat) (x : Line) : (s.setLine n x).banks = s.banks := rfl
@[simp] theorem State.setLine_slots (n : Nat) (x : Line) : (s.setLine n x).slots = s.slots := rfl
@[simp] theorem State.setLine_dsp (n : Nat) (x : Line) : (s.setLine n x).dsp = s.dsp := rfl
@[simp] theorem State.setLine_ttn (n : Nat) (x : Line) : (s.setLine n x).ttn = s.ttn := rfl
@[simp] theorem State.setLine_eng (n : Nat) (x : Line) : (s.setLine n x).eng = s.eng := rfl
@[simp] theorem State.setLine_rul (n : Nat) (x : Line) : (s.setLine n x).rul = s.rul := rfl
@[simp] theorem State.setLine_adc (n : Nat) (x : Line) : (s.setLine n x).adc = s.adc := rfl
@[simp] theorem State.setLine_shn (n : Nat) (x : Line) : (s.setLine n x).shn = s.shn := rfl
@[simp] theorem State.setLine_cons (n : Nat) (x : Line) : (s.setLine n x).cons = s.cons := rfl
@[simp] theorem State.setLine_consOrd (n : Nat) (x : Line) : (s.setLine n x).consOrd = s.consOrd := rfl
@[simp] theorem State.setLine_mem (n : Nat) (x : Line) : (s.setLine n x).mem = s.mem := rfl
@[simp] theorem State.setLine_stores (n : Nat) (x : Line) : (s.setLine n x).stores = s.stores := rfl
@[simp] theorem State.setLine_hst (n : Nat) (x : Line) : (s.setLine n x).hst = s.hst := rfl
@[simp] theorem State.setLine_sec (n : Nat) (x : Line) : (s.setLine n x).sec = s.sec := rfl
@[simp] theorem State.setLine_pwr (n : Nat) (x : Line) : (s.setLine n x).pwr = s.pwr := rfl
@[simp] theorem State.setLine_glb (n : Nat) (x : Line) : (s.setLine n x).glb = s.glb := rfl
@[simp] theorem State.setLine_twn (n : Nat) (x : Line) : (s.setLine n x).twn = s.twn := rfl
@[simp] theorem State.setLine_signals (n : Nat) (x : Line) : (s.setLine n x).signals = s.signals := rfl
@[simp] theorem State.setLine_free (n : Nat) (x : Line) : (s.setLine n x).free = s.free := rfl
@[simp] theorem State.setLine_pending (n : Nat) (x : Line) : (s.setLine n x).pending = s.pending := rfl
@[simp] theorem State.setLine_seenNow (n : Nat) (x : Line) : (s.setLine n x).seenNow = s.seenNow := rfl

@[simp] theorem State.setTurn_raw (n : Nat) (x : Turntable) : (s.setTurn n x).raw = s.raw := rfl
@[simp] theorem State.setTurn_vtOff (n : Nat) (x : Turntable) : (s.setTurn n x).vtOff = s.vtOff := rfl
@[simp] theorem State.setTurn_mode (n : Nat) (x : Turntable) : (s.setTurn n x).mode = s.mode := rfl
@[simp] theorem State.setTurn_regs (n : Nat) (x : Turntable) : (s.setTurn n x).regs = s.regs := rfl
@[simp] theorem State.setTurn_preqs (n : Nat) (x : Turntable) : (s.setTurn n x).preqs = s.preqs := rfl
@[simp] theorem State.setTurn_tbu (n : Nat) (x : Turntable) : (s.setTurn n x).tbu = s.tbu := rfl
@[simp] theorem State.setTurn_trk (n : Nat) (x : Turntable) : (s.setTurn n x).trk = s.trk := rfl
@[simp] theorem State.setTurn_lines (n : Nat) (x : Turntable) : (s.setTurn n x).lines = s.lines := rfl
@[simp] theorem State.setTurn_banks (n : Nat) (x : Turntable) : (s.setTurn n x).banks = s.banks := rfl
@[simp] theorem State.setTurn_slots (n : Nat) (x : Turntable) : (s.setTurn n x).slots = s.slots := rfl
@[simp] theorem State.setTurn_dsp (n : Nat) (x : Turntable) : (s.setTurn n x).dsp = s.dsp := rfl
@[simp] theorem State.setTurn_eng (n : Nat) (x : Turntable) : (s.setTurn n x).eng = s.eng := rfl
@[simp] theorem State.setTurn_rul (n : Nat) (x : Turntable) : (s.setTurn n x).rul = s.rul := rfl
@[simp] theorem State.setTurn_adc (n : Nat) (x : Turntable) : (s.setTurn n x).adc = s.adc := rfl
@[simp] theorem State.setTurn_shn (n : Nat) (x : Turntable) : (s.setTurn n x).shn = s.shn := rfl
@[simp] theorem State.setTurn_cons (n : Nat) (x : Turntable) : (s.setTurn n x).cons = s.cons := rfl
@[simp] theorem State.setTurn_consOrd (n : Nat) (x : Turntable) : (s.setTurn n x).consOrd = s.consOrd := rfl
@[simp] theorem State.setTurn_mem (n : Nat) (x : Turntable) : (s.setTurn n x).mem = s.mem := rfl
@[simp] theorem State.setTurn_stores (n : Nat) (x : Turntable) : (s.setTurn n x).stores = s.stores := rfl
@[simp] theorem State.setTurn_hst (n : Nat) (x : Turntable) : (s.setTurn n x).hst = s.hst := rfl
@[simp] theorem State.setTurn_sec (n : Nat) (x : Turntable) : (s.setTurn n x).sec = s.sec := rfl
@[simp] theorem State.setTurn_pwr (n : Nat) (x : Turntable) : (s.setTurn n x).pwr = s.pwr := rfl
@[simp] theorem State.setTurn_glb (n : Nat) (x : Turntable) : (s.setTurn n x).glb = s.glb := rfl
@[simp] theorem State.setTurn_twn (n : Nat) (x : Turntable) : (s.setTurn n x).twn = s.twn := rfl
@[simp] theorem State.setTurn_signals (n : Nat) (x : Turntable) : (s.setTurn n x).signals = s.signals := rfl
@[simp] theorem State.setTurn_free (n : Nat) (x : Turntable) : (s.setTurn n x).free = s.free := rfl
@[simp] theorem State.setTurn_pending (n : Nat) (x : Turntable) : (s.setTurn n x).pending = s.pending := rfl
@[simp] theorem State.setTurn_seenNow (n : Nat) (x : Turntable) : (s.setTurn n x).seenNow = s.seenNow := rfl

@[simp] theorem State.setRuler_raw (u : Nat) (x : Ruler) : (s.setRuler u x).raw = s.raw := rfl
@[simp] theorem State.setRuler_vtOff (u : Nat) (x : Ruler) : (s.setRuler u x).vtOff = s.vtOff := rfl
@[simp] theorem State.setRuler_mode (u : Nat) (x : Ruler) : (s.setRuler u x).mode = s.mode := rfl
@[simp] theorem State.setRuler_regs (u : Nat) (x : Ruler) : (s.setRuler u x).regs = s.regs := rfl
@[simp] theorem State.setRuler_preqs (u : Nat) (x : Ruler) : (s.setRuler u x).preqs = s.preqs := rfl
@[simp] theorem State.setRuler_tbu (u : Nat) (x : Ruler) : (s.setRuler u x).tbu = s.tbu := rfl
@[simp] theorem State.setRuler_trk (u : Nat) (x : Ruler) : (s.setRuler u x).trk = s.trk := rfl
@[simp] theorem State.setRuler_lines (u : Nat) (x : Ruler) : (s.setRuler u x).lines = s.lines := rfl
@[simp] theorem State.setRuler_banks (u : Nat) (x : Ruler) : (s.setRuler u x).banks = s.banks := rfl
@[simp] theorem State.setRuler_slots (u : Nat) (x : Ruler) : (s.setRuler u x).slots = s.slots := rfl
@[simp] theorem State.setRuler_dsp (u : Nat) (x : Ruler) : (s.setRuler u x).dsp = s.dsp := rfl
@[simp] theorem State.setRuler_ttn (u : Nat) (x : Ruler) : (s.setRuler u x).ttn = s.ttn := rfl
@[simp] theorem State.setRuler_eng (u : Nat) (x : Ruler) : (s.setRuler u x).eng = s.eng := rfl
@[simp] theorem State.setRuler_adc (u : Nat) (x : Ruler) : (s.setRuler u x).adc = s.adc := rfl
@[simp] theorem State.setRuler_shn (u : Nat) (x : Ruler) : (s.setRuler u x).shn = s.shn := rfl
@[simp] theorem State.setRuler_cons (u : Nat) (x : Ruler) : (s.setRuler u x).cons = s.cons := rfl
@[simp] theorem State.setRuler_consOrd (u : Nat) (x : Ruler) : (s.setRuler u x).consOrd = s.consOrd := rfl
@[simp] theorem State.setRuler_mem (u : Nat) (x : Ruler) : (s.setRuler u x).mem = s.mem := rfl
@[simp] theorem State.setRuler_stores (u : Nat) (x : Ruler) : (s.setRuler u x).stores = s.stores := rfl
@[simp] theorem State.setRuler_hst (u : Nat) (x : Ruler) : (s.setRuler u x).hst = s.hst := rfl
@[simp] theorem State.setRuler_sec (u : Nat) (x : Ruler) : (s.setRuler u x).sec = s.sec := rfl
@[simp] theorem State.setRuler_pwr (u : Nat) (x : Ruler) : (s.setRuler u x).pwr = s.pwr := rfl
@[simp] theorem State.setRuler_glb (u : Nat) (x : Ruler) : (s.setRuler u x).glb = s.glb := rfl
@[simp] theorem State.setRuler_twn (u : Nat) (x : Ruler) : (s.setRuler u x).twn = s.twn := rfl
@[simp] theorem State.setRuler_signals (u : Nat) (x : Ruler) : (s.setRuler u x).signals = s.signals := rfl
@[simp] theorem State.setRuler_free (u : Nat) (x : Ruler) : (s.setRuler u x).free = s.free := rfl
@[simp] theorem State.setRuler_pending (u : Nat) (x : Ruler) : (s.setRuler u x).pending = s.pending := rfl
@[simp] theorem State.setRuler_seenNow (u : Nat) (x : Ruler) : (s.setRuler u x).seenNow = s.seenNow := rfl

@[simp] theorem State.setEngine_raw (e : Nat) (x : Engine) : (s.setEngine e x).raw = s.raw := rfl
@[simp] theorem State.setEngine_vtOff (e : Nat) (x : Engine) : (s.setEngine e x).vtOff = s.vtOff := rfl
@[simp] theorem State.setEngine_mode (e : Nat) (x : Engine) : (s.setEngine e x).mode = s.mode := rfl
@[simp] theorem State.setEngine_regs (e : Nat) (x : Engine) : (s.setEngine e x).regs = s.regs := rfl
@[simp] theorem State.setEngine_preqs (e : Nat) (x : Engine) : (s.setEngine e x).preqs = s.preqs := rfl
@[simp] theorem State.setEngine_tbu (e : Nat) (x : Engine) : (s.setEngine e x).tbu = s.tbu := rfl
@[simp] theorem State.setEngine_trk (e : Nat) (x : Engine) : (s.setEngine e x).trk = s.trk := rfl
@[simp] theorem State.setEngine_lines (e : Nat) (x : Engine) : (s.setEngine e x).lines = s.lines := rfl
@[simp] theorem State.setEngine_banks (e : Nat) (x : Engine) : (s.setEngine e x).banks = s.banks := rfl
@[simp] theorem State.setEngine_slots (e : Nat) (x : Engine) : (s.setEngine e x).slots = s.slots := rfl
@[simp] theorem State.setEngine_dsp (e : Nat) (x : Engine) : (s.setEngine e x).dsp = s.dsp := rfl
@[simp] theorem State.setEngine_ttn (e : Nat) (x : Engine) : (s.setEngine e x).ttn = s.ttn := rfl
@[simp] theorem State.setEngine_rul (e : Nat) (x : Engine) : (s.setEngine e x).rul = s.rul := rfl
@[simp] theorem State.setEngine_adc (e : Nat) (x : Engine) : (s.setEngine e x).adc = s.adc := rfl
@[simp] theorem State.setEngine_shn (e : Nat) (x : Engine) : (s.setEngine e x).shn = s.shn := rfl
@[simp] theorem State.setEngine_cons (e : Nat) (x : Engine) : (s.setEngine e x).cons = s.cons := rfl
@[simp] theorem State.setEngine_consOrd (e : Nat) (x : Engine) : (s.setEngine e x).consOrd = s.consOrd := rfl
@[simp] theorem State.setEngine_mem (e : Nat) (x : Engine) : (s.setEngine e x).mem = s.mem := rfl
@[simp] theorem State.setEngine_stores (e : Nat) (x : Engine) : (s.setEngine e x).stores = s.stores := rfl
@[simp] theorem State.setEngine_hst (e : Nat) (x : Engine) : (s.setEngine e x).hst = s.hst := rfl
@[simp] theorem State.setEngine_sec (e : Nat) (x : Engine) : (s.setEngine e x).sec = s.sec := rfl
@[simp] theorem State.setEngine_pwr (e : Nat) (x : Engine) : (s.setEngine e x).pwr = s.pwr := rfl
@[simp] theorem State.setEngine_glb (e : Nat) (x : Engine) : (s.setEngine e x).glb = s.glb := rfl
@[simp] theorem State.setEngine_twn (e : Nat) (x : Engine) : (s.setEngine e x).twn = s.twn := rfl
@[simp] theorem State.setEngine_signals (e : Nat) (x : Engine) : (s.setEngine e x).signals = s.signals := rfl
@[simp] theorem State.setEngine_free (e : Nat) (x : Engine) : (s.setEngine e x).free = s.free := rfl
@[simp] theorem State.setEngine_pending (e : Nat) (x : Engine) : (s.setEngine e x).pending = s.pending := rfl
@[simp] theorem State.setEngine_seenNow (e : Nat) (x : Engine) : (s.setEngine e x).seenNow = s.seenNow := rfl

@[simp] theorem State.setShunter_raw (n : Nat) (x : Shunter) : (s.setShunter n x).raw = s.raw := rfl
@[simp] theorem State.setShunter_vtOff (n : Nat) (x : Shunter) : (s.setShunter n x).vtOff = s.vtOff := rfl
@[simp] theorem State.setShunter_mode (n : Nat) (x : Shunter) : (s.setShunter n x).mode = s.mode := rfl
@[simp] theorem State.setShunter_regs (n : Nat) (x : Shunter) : (s.setShunter n x).regs = s.regs := rfl
@[simp] theorem State.setShunter_preqs (n : Nat) (x : Shunter) : (s.setShunter n x).preqs = s.preqs := rfl
@[simp] theorem State.setShunter_tbu (n : Nat) (x : Shunter) : (s.setShunter n x).tbu = s.tbu := rfl
@[simp] theorem State.setShunter_trk (n : Nat) (x : Shunter) : (s.setShunter n x).trk = s.trk := rfl
@[simp] theorem State.setShunter_lines (n : Nat) (x : Shunter) : (s.setShunter n x).lines = s.lines := rfl
@[simp] theorem State.setShunter_banks (n : Nat) (x : Shunter) : (s.setShunter n x).banks = s.banks := rfl
@[simp] theorem State.setShunter_slots (n : Nat) (x : Shunter) : (s.setShunter n x).slots = s.slots := rfl
@[simp] theorem State.setShunter_dsp (n : Nat) (x : Shunter) : (s.setShunter n x).dsp = s.dsp := rfl
@[simp] theorem State.setShunter_ttn (n : Nat) (x : Shunter) : (s.setShunter n x).ttn = s.ttn := rfl
@[simp] theorem State.setShunter_eng (n : Nat) (x : Shunter) : (s.setShunter n x).eng = s.eng := rfl
@[simp] theorem State.setShunter_rul (n : Nat) (x : Shunter) : (s.setShunter n x).rul = s.rul := rfl
@[simp] theorem State.setShunter_adc (n : Nat) (x : Shunter) : (s.setShunter n x).adc = s.adc := rfl
@[simp] theorem State.setShunter_cons (n : Nat) (x : Shunter) : (s.setShunter n x).cons = s.cons := rfl
@[simp] theorem State.setShunter_consOrd (n : Nat) (x : Shunter) : (s.setShunter n x).consOrd = s.consOrd := rfl
@[simp] theorem State.setShunter_mem (n : Nat) (x : Shunter) : (s.setShunter n x).mem = s.mem := rfl
@[simp] theorem State.setShunter_stores (n : Nat) (x : Shunter) : (s.setShunter n x).stores = s.stores := rfl
@[simp] theorem State.setShunter_hst (n : Nat) (x : Shunter) : (s.setShunter n x).hst = s.hst := rfl
@[simp] theorem State.setShunter_sec (n : Nat) (x : Shunter) : (s.setShunter n x).sec = s.sec := rfl
@[simp] theorem State.setShunter_pwr (n : Nat) (x : Shunter) : (s.setShunter n x).pwr = s.pwr := rfl
@[simp] theorem State.setShunter_glb (n : Nat) (x : Shunter) : (s.setShunter n x).glb = s.glb := rfl
@[simp] theorem State.setShunter_twn (n : Nat) (x : Shunter) : (s.setShunter n x).twn = s.twn := rfl
@[simp] theorem State.setShunter_signals (n : Nat) (x : Shunter) : (s.setShunter n x).signals = s.signals := rfl
@[simp] theorem State.setShunter_free (n : Nat) (x : Shunter) : (s.setShunter n x).free = s.free := rfl
@[simp] theorem State.setShunter_pending (n : Nat) (x : Shunter) : (s.setShunter n x).pending = s.pending := rfl
@[simp] theorem State.setShunter_seenNow (n : Nat) (x : Shunter) : (s.setShunter n x).seenNow = s.seenNow := rfl

@[simp] theorem State.setConsist_raw (k : Nat) (x : Consist) : (s.setConsist k x).raw = s.raw := rfl
@[simp] theorem State.setConsist_vtOff (k : Nat) (x : Consist) : (s.setConsist k x).vtOff = s.vtOff := rfl
@[simp] theorem State.setConsist_mode (k : Nat) (x : Consist) : (s.setConsist k x).mode = s.mode := rfl
@[simp] theorem State.setConsist_regs (k : Nat) (x : Consist) : (s.setConsist k x).regs = s.regs := rfl
@[simp] theorem State.setConsist_preqs (k : Nat) (x : Consist) : (s.setConsist k x).preqs = s.preqs := rfl
@[simp] theorem State.setConsist_tbu (k : Nat) (x : Consist) : (s.setConsist k x).tbu = s.tbu := rfl
@[simp] theorem State.setConsist_trk (k : Nat) (x : Consist) : (s.setConsist k x).trk = s.trk := rfl
@[simp] theorem State.setConsist_lines (k : Nat) (x : Consist) : (s.setConsist k x).lines = s.lines := rfl
@[simp] theorem State.setConsist_banks (k : Nat) (x : Consist) : (s.setConsist k x).banks = s.banks := rfl
@[simp] theorem State.setConsist_slots (k : Nat) (x : Consist) : (s.setConsist k x).slots = s.slots := rfl
@[simp] theorem State.setConsist_dsp (k : Nat) (x : Consist) : (s.setConsist k x).dsp = s.dsp := rfl
@[simp] theorem State.setConsist_ttn (k : Nat) (x : Consist) : (s.setConsist k x).ttn = s.ttn := rfl
@[simp] theorem State.setConsist_eng (k : Nat) (x : Consist) : (s.setConsist k x).eng = s.eng := rfl
@[simp] theorem State.setConsist_rul (k : Nat) (x : Consist) : (s.setConsist k x).rul = s.rul := rfl
@[simp] theorem State.setConsist_adc (k : Nat) (x : Consist) : (s.setConsist k x).adc = s.adc := rfl
@[simp] theorem State.setConsist_shn (k : Nat) (x : Consist) : (s.setConsist k x).shn = s.shn := rfl
@[simp] theorem State.setConsist_consOrd (k : Nat) (x : Consist) : (s.setConsist k x).consOrd = s.consOrd := rfl
@[simp] theorem State.setConsist_mem (k : Nat) (x : Consist) : (s.setConsist k x).mem = s.mem := rfl
@[simp] theorem State.setConsist_stores (k : Nat) (x : Consist) : (s.setConsist k x).stores = s.stores := rfl
@[simp] theorem State.setConsist_hst (k : Nat) (x : Consist) : (s.setConsist k x).hst = s.hst := rfl
@[simp] theorem State.setConsist_sec (k : Nat) (x : Consist) : (s.setConsist k x).sec = s.sec := rfl
@[simp] theorem State.setConsist_pwr (k : Nat) (x : Consist) : (s.setConsist k x).pwr = s.pwr := rfl
@[simp] theorem State.setConsist_glb (k : Nat) (x : Consist) : (s.setConsist k x).glb = s.glb := rfl
@[simp] theorem State.setConsist_twn (k : Nat) (x : Consist) : (s.setConsist k x).twn = s.twn := rfl
@[simp] theorem State.setConsist_signals (k : Nat) (x : Consist) : (s.setConsist k x).signals = s.signals := rfl
@[simp] theorem State.setConsist_free (k : Nat) (x : Consist) : (s.setConsist k x).free = s.free := rfl
@[simp] theorem State.setConsist_pending (k : Nat) (x : Consist) : (s.setConsist k x).pending = s.pending := rfl
@[simp] theorem State.setConsist_seenNow (k : Nat) (x : Consist) : (s.setConsist k x).seenNow = s.seenNow := rfl

@[simp] theorem State.setHstream_raw (n : Nat) (x : Stream) : (s.setHstream n x).raw = s.raw := rfl
@[simp] theorem State.setHstream_vtOff (n : Nat) (x : Stream) : (s.setHstream n x).vtOff = s.vtOff := rfl
@[simp] theorem State.setHstream_mode (n : Nat) (x : Stream) : (s.setHstream n x).mode = s.mode := rfl
@[simp] theorem State.setHstream_regs (n : Nat) (x : Stream) : (s.setHstream n x).regs = s.regs := rfl
@[simp] theorem State.setHstream_preqs (n : Nat) (x : Stream) : (s.setHstream n x).preqs = s.preqs := rfl
@[simp] theorem State.setHstream_tbu (n : Nat) (x : Stream) : (s.setHstream n x).tbu = s.tbu := rfl
@[simp] theorem State.setHstream_trk (n : Nat) (x : Stream) : (s.setHstream n x).trk = s.trk := rfl
@[simp] theorem State.setHstream_lines (n : Nat) (x : Stream) : (s.setHstream n x).lines = s.lines := rfl
@[simp] theorem State.setHstream_banks (n : Nat) (x : Stream) : (s.setHstream n x).banks = s.banks := rfl
@[simp] theorem State.setHstream_slots (n : Nat) (x : Stream) : (s.setHstream n x).slots = s.slots := rfl
@[simp] theorem State.setHstream_dsp (n : Nat) (x : Stream) : (s.setHstream n x).dsp = s.dsp := rfl
@[simp] theorem State.setHstream_ttn (n : Nat) (x : Stream) : (s.setHstream n x).ttn = s.ttn := rfl
@[simp] theorem State.setHstream_eng (n : Nat) (x : Stream) : (s.setHstream n x).eng = s.eng := rfl
@[simp] theorem State.setHstream_rul (n : Nat) (x : Stream) : (s.setHstream n x).rul = s.rul := rfl
@[simp] theorem State.setHstream_adc (n : Nat) (x : Stream) : (s.setHstream n x).adc = s.adc := rfl
@[simp] theorem State.setHstream_shn (n : Nat) (x : Stream) : (s.setHstream n x).shn = s.shn := rfl
@[simp] theorem State.setHstream_cons (n : Nat) (x : Stream) : (s.setHstream n x).cons = s.cons := rfl
@[simp] theorem State.setHstream_consOrd (n : Nat) (x : Stream) : (s.setHstream n x).consOrd = s.consOrd := rfl
@[simp] theorem State.setHstream_mem (n : Nat) (x : Stream) : (s.setHstream n x).mem = s.mem := rfl
@[simp] theorem State.setHstream_stores (n : Nat) (x : Stream) : (s.setHstream n x).stores = s.stores := rfl
@[simp] theorem State.setHstream_sec (n : Nat) (x : Stream) : (s.setHstream n x).sec = s.sec := rfl
@[simp] theorem State.setHstream_pwr (n : Nat) (x : Stream) : (s.setHstream n x).pwr = s.pwr := rfl
@[simp] theorem State.setHstream_glb (n : Nat) (x : Stream) : (s.setHstream n x).glb = s.glb := rfl
@[simp] theorem State.setHstream_twn (n : Nat) (x : Stream) : (s.setHstream n x).twn = s.twn := rfl
@[simp] theorem State.setHstream_signals (n : Nat) (x : Stream) : (s.setHstream n x).signals = s.signals := rfl
@[simp] theorem State.setHstream_free (n : Nat) (x : Stream) : (s.setHstream n x).free = s.free := rfl
@[simp] theorem State.setHstream_pending (n : Nat) (x : Stream) : (s.setHstream n x).pending = s.pending := rfl
@[simp] theorem State.setHstream_seenNow (n : Nat) (x : Stream) : (s.setHstream n x).seenNow = s.seenNow := rfl

@[simp] theorem State.setSqr_raw (q : Nat) (x : Sequencer) : (s.setSqr q x).raw = s.raw := rfl
@[simp] theorem State.setSqr_vtOff (q : Nat) (x : Sequencer) : (s.setSqr q x).vtOff = s.vtOff := rfl
@[simp] theorem State.setSqr_mode (q : Nat) (x : Sequencer) : (s.setSqr q x).mode = s.mode := rfl
@[simp] theorem State.setSqr_regs (q : Nat) (x : Sequencer) : (s.setSqr q x).regs = s.regs := rfl
@[simp] theorem State.setSqr_preqs (q : Nat) (x : Sequencer) : (s.setSqr q x).preqs = s.preqs := rfl
@[simp] theorem State.setSqr_tbu (q : Nat) (x : Sequencer) : (s.setSqr q x).tbu = s.tbu := rfl
@[simp] theorem State.setSqr_trk (q : Nat) (x : Sequencer) : (s.setSqr q x).trk = s.trk := rfl
@[simp] theorem State.setSqr_lines (q : Nat) (x : Sequencer) : (s.setSqr q x).lines = s.lines := rfl
@[simp] theorem State.setSqr_banks (q : Nat) (x : Sequencer) : (s.setSqr q x).banks = s.banks := rfl
@[simp] theorem State.setSqr_slots (q : Nat) (x : Sequencer) : (s.setSqr q x).slots = s.slots := rfl
@[simp] theorem State.setSqr_dsp (q : Nat) (x : Sequencer) : (s.setSqr q x).dsp = s.dsp := rfl
@[simp] theorem State.setSqr_ttn (q : Nat) (x : Sequencer) : (s.setSqr q x).ttn = s.ttn := rfl
@[simp] theorem State.setSqr_eng (q : Nat) (x : Sequencer) : (s.setSqr q x).eng = s.eng := rfl
@[simp] theorem State.setSqr_rul (q : Nat) (x : Sequencer) : (s.setSqr q x).rul = s.rul := rfl
@[simp] theorem State.setSqr_shn (q : Nat) (x : Sequencer) : (s.setSqr q x).shn = s.shn := rfl
@[simp] theorem State.setSqr_cons (q : Nat) (x : Sequencer) : (s.setSqr q x).cons = s.cons := rfl
@[simp] theorem State.setSqr_consOrd (q : Nat) (x : Sequencer) : (s.setSqr q x).consOrd = s.consOrd := rfl
@[simp] theorem State.setSqr_mem (q : Nat) (x : Sequencer) : (s.setSqr q x).mem = s.mem := rfl
@[simp] theorem State.setSqr_stores (q : Nat) (x : Sequencer) : (s.setSqr q x).stores = s.stores := rfl
@[simp] theorem State.setSqr_hst (q : Nat) (x : Sequencer) : (s.setSqr q x).hst = s.hst := rfl
@[simp] theorem State.setSqr_sec (q : Nat) (x : Sequencer) : (s.setSqr q x).sec = s.sec := rfl
@[simp] theorem State.setSqr_pwr (q : Nat) (x : Sequencer) : (s.setSqr q x).pwr = s.pwr := rfl
@[simp] theorem State.setSqr_glb (q : Nat) (x : Sequencer) : (s.setSqr q x).glb = s.glb := rfl
@[simp] theorem State.setSqr_twn (q : Nat) (x : Sequencer) : (s.setSqr q x).twn = s.twn := rfl
@[simp] theorem State.setSqr_signals (q : Nat) (x : Sequencer) : (s.setSqr q x).signals = s.signals := rfl
@[simp] theorem State.setSqr_free (q : Nat) (x : Sequencer) : (s.setSqr q x).free = s.free := rfl
@[simp] theorem State.setSqr_pending (q : Nat) (x : Sequencer) : (s.setSqr q x).pending = s.pending := rfl
@[simp] theorem State.setSqr_seenNow (q : Nat) (x : Sequencer) : (s.setSqr q x).seenNow = s.seenNow := rfl

@[simp] theorem State.setStream_raw (q : Nat) (x : AdcStream) : (s.setStream q x).raw = s.raw := rfl
@[simp] theorem State.setStream_vtOff (q : Nat) (x : AdcStream) : (s.setStream q x).vtOff = s.vtOff := rfl
@[simp] theorem State.setStream_mode (q : Nat) (x : AdcStream) : (s.setStream q x).mode = s.mode := rfl
@[simp] theorem State.setStream_regs (q : Nat) (x : AdcStream) : (s.setStream q x).regs = s.regs := rfl
@[simp] theorem State.setStream_preqs (q : Nat) (x : AdcStream) : (s.setStream q x).preqs = s.preqs := rfl
@[simp] theorem State.setStream_tbu (q : Nat) (x : AdcStream) : (s.setStream q x).tbu = s.tbu := rfl
@[simp] theorem State.setStream_trk (q : Nat) (x : AdcStream) : (s.setStream q x).trk = s.trk := rfl
@[simp] theorem State.setStream_lines (q : Nat) (x : AdcStream) : (s.setStream q x).lines = s.lines := rfl
@[simp] theorem State.setStream_banks (q : Nat) (x : AdcStream) : (s.setStream q x).banks = s.banks := rfl
@[simp] theorem State.setStream_slots (q : Nat) (x : AdcStream) : (s.setStream q x).slots = s.slots := rfl
@[simp] theorem State.setStream_dsp (q : Nat) (x : AdcStream) : (s.setStream q x).dsp = s.dsp := rfl
@[simp] theorem State.setStream_ttn (q : Nat) (x : AdcStream) : (s.setStream q x).ttn = s.ttn := rfl
@[simp] theorem State.setStream_eng (q : Nat) (x : AdcStream) : (s.setStream q x).eng = s.eng := rfl
@[simp] theorem State.setStream_rul (q : Nat) (x : AdcStream) : (s.setStream q x).rul = s.rul := rfl
@[simp] theorem State.setStream_shn (q : Nat) (x : AdcStream) : (s.setStream q x).shn = s.shn := rfl
@[simp] theorem State.setStream_cons (q : Nat) (x : AdcStream) : (s.setStream q x).cons = s.cons := rfl
@[simp] theorem State.setStream_consOrd (q : Nat) (x : AdcStream) : (s.setStream q x).consOrd = s.consOrd := rfl
@[simp] theorem State.setStream_mem (q : Nat) (x : AdcStream) : (s.setStream q x).mem = s.mem := rfl
@[simp] theorem State.setStream_stores (q : Nat) (x : AdcStream) : (s.setStream q x).stores = s.stores := rfl
@[simp] theorem State.setStream_hst (q : Nat) (x : AdcStream) : (s.setStream q x).hst = s.hst := rfl
@[simp] theorem State.setStream_sec (q : Nat) (x : AdcStream) : (s.setStream q x).sec = s.sec := rfl
@[simp] theorem State.setStream_pwr (q : Nat) (x : AdcStream) : (s.setStream q x).pwr = s.pwr := rfl
@[simp] theorem State.setStream_glb (q : Nat) (x : AdcStream) : (s.setStream q x).glb = s.glb := rfl
@[simp] theorem State.setStream_twn (q : Nat) (x : AdcStream) : (s.setStream q x).twn = s.twn := rfl
@[simp] theorem State.setStream_signals (q : Nat) (x : AdcStream) : (s.setStream q x).signals = s.signals := rfl
@[simp] theorem State.setStream_free (q : Nat) (x : AdcStream) : (s.setStream q x).free = s.free := rfl
@[simp] theorem State.setStream_pending (q : Nat) (x : AdcStream) : (s.setStream q x).pending = s.pending := rfl
@[simp] theorem State.setStream_seenNow (q : Nat) (x : AdcStream) : (s.setStream q x).seenNow = s.seenNow := rfl

@[simp] theorem State.setWin_raw (w : Nat) (x : Window) : (s.setWin w x).raw = s.raw := rfl
@[simp] theorem State.setWin_vtOff (w : Nat) (x : Window) : (s.setWin w x).vtOff = s.vtOff := rfl
@[simp] theorem State.setWin_mode (w : Nat) (x : Window) : (s.setWin w x).mode = s.mode := rfl
@[simp] theorem State.setWin_regs (w : Nat) (x : Window) : (s.setWin w x).regs = s.regs := rfl
@[simp] theorem State.setWin_preqs (w : Nat) (x : Window) : (s.setWin w x).preqs = s.preqs := rfl
@[simp] theorem State.setWin_tbu (w : Nat) (x : Window) : (s.setWin w x).tbu = s.tbu := rfl
@[simp] theorem State.setWin_trk (w : Nat) (x : Window) : (s.setWin w x).trk = s.trk := rfl
@[simp] theorem State.setWin_lines (w : Nat) (x : Window) : (s.setWin w x).lines = s.lines := rfl
@[simp] theorem State.setWin_banks (w : Nat) (x : Window) : (s.setWin w x).banks = s.banks := rfl
@[simp] theorem State.setWin_slots (w : Nat) (x : Window) : (s.setWin w x).slots = s.slots := rfl
@[simp] theorem State.setWin_dsp (w : Nat) (x : Window) : (s.setWin w x).dsp = s.dsp := rfl
@[simp] theorem State.setWin_ttn (w : Nat) (x : Window) : (s.setWin w x).ttn = s.ttn := rfl
@[simp] theorem State.setWin_eng (w : Nat) (x : Window) : (s.setWin w x).eng = s.eng := rfl
@[simp] theorem State.setWin_rul (w : Nat) (x : Window) : (s.setWin w x).rul = s.rul := rfl
@[simp] theorem State.setWin_shn (w : Nat) (x : Window) : (s.setWin w x).shn = s.shn := rfl
@[simp] theorem State.setWin_cons (w : Nat) (x : Window) : (s.setWin w x).cons = s.cons := rfl
@[simp] theorem State.setWin_consOrd (w : Nat) (x : Window) : (s.setWin w x).consOrd = s.consOrd := rfl
@[simp] theorem State.setWin_mem (w : Nat) (x : Window) : (s.setWin w x).mem = s.mem := rfl
@[simp] theorem State.setWin_stores (w : Nat) (x : Window) : (s.setWin w x).stores = s.stores := rfl
@[simp] theorem State.setWin_hst (w : Nat) (x : Window) : (s.setWin w x).hst = s.hst := rfl
@[simp] theorem State.setWin_sec (w : Nat) (x : Window) : (s.setWin w x).sec = s.sec := rfl
@[simp] theorem State.setWin_pwr (w : Nat) (x : Window) : (s.setWin w x).pwr = s.pwr := rfl
@[simp] theorem State.setWin_glb (w : Nat) (x : Window) : (s.setWin w x).glb = s.glb := rfl
@[simp] theorem State.setWin_twn (w : Nat) (x : Window) : (s.setWin w x).twn = s.twn := rfl
@[simp] theorem State.setWin_signals (w : Nat) (x : Window) : (s.setWin w x).signals = s.signals := rfl
@[simp] theorem State.setWin_free (w : Nat) (x : Window) : (s.setWin w x).free = s.free := rfl
@[simp] theorem State.setWin_pending (w : Nat) (x : Window) : (s.setWin w x).pending = s.pending := rfl
@[simp] theorem State.setWin_seenNow (w : Nat) (x : Window) : (s.setWin w x).seenNow = s.seenNow := rfl

@[simp] theorem State.setChan_raw (c : Nat) (x : OptChan) : (s.setChan c x).raw = s.raw := rfl
@[simp] theorem State.setChan_vtOff (c : Nat) (x : OptChan) : (s.setChan c x).vtOff = s.vtOff := rfl
@[simp] theorem State.setChan_mode (c : Nat) (x : OptChan) : (s.setChan c x).mode = s.mode := rfl
@[simp] theorem State.setChan_regs (c : Nat) (x : OptChan) : (s.setChan c x).regs = s.regs := rfl
@[simp] theorem State.setChan_preqs (c : Nat) (x : OptChan) : (s.setChan c x).preqs = s.preqs := rfl
@[simp] theorem State.setChan_tbu (c : Nat) (x : OptChan) : (s.setChan c x).tbu = s.tbu := rfl
@[simp] theorem State.setChan_trk (c : Nat) (x : OptChan) : (s.setChan c x).trk = s.trk := rfl
@[simp] theorem State.setChan_lines (c : Nat) (x : OptChan) : (s.setChan c x).lines = s.lines := rfl
@[simp] theorem State.setChan_banks (c : Nat) (x : OptChan) : (s.setChan c x).banks = s.banks := rfl
@[simp] theorem State.setChan_slots (c : Nat) (x : OptChan) : (s.setChan c x).slots = s.slots := rfl
@[simp] theorem State.setChan_dsp (c : Nat) (x : OptChan) : (s.setChan c x).dsp = s.dsp := rfl
@[simp] theorem State.setChan_ttn (c : Nat) (x : OptChan) : (s.setChan c x).ttn = s.ttn := rfl
@[simp] theorem State.setChan_eng (c : Nat) (x : OptChan) : (s.setChan c x).eng = s.eng := rfl
@[simp] theorem State.setChan_rul (c : Nat) (x : OptChan) : (s.setChan c x).rul = s.rul := rfl
@[simp] theorem State.setChan_shn (c : Nat) (x : OptChan) : (s.setChan c x).shn = s.shn := rfl
@[simp] theorem State.setChan_cons (c : Nat) (x : OptChan) : (s.setChan c x).cons = s.cons := rfl
@[simp] theorem State.setChan_consOrd (c : Nat) (x : OptChan) : (s.setChan c x).consOrd = s.consOrd := rfl
@[simp] theorem State.setChan_mem (c : Nat) (x : OptChan) : (s.setChan c x).mem = s.mem := rfl
@[simp] theorem State.setChan_stores (c : Nat) (x : OptChan) : (s.setChan c x).stores = s.stores := rfl
@[simp] theorem State.setChan_hst (c : Nat) (x : OptChan) : (s.setChan c x).hst = s.hst := rfl
@[simp] theorem State.setChan_sec (c : Nat) (x : OptChan) : (s.setChan c x).sec = s.sec := rfl
@[simp] theorem State.setChan_pwr (c : Nat) (x : OptChan) : (s.setChan c x).pwr = s.pwr := rfl
@[simp] theorem State.setChan_glb (c : Nat) (x : OptChan) : (s.setChan c x).glb = s.glb := rfl
@[simp] theorem State.setChan_twn (c : Nat) (x : OptChan) : (s.setChan c x).twn = s.twn := rfl
@[simp] theorem State.setChan_signals (c : Nat) (x : OptChan) : (s.setChan c x).signals = s.signals := rfl
@[simp] theorem State.setChan_free (c : Nat) (x : OptChan) : (s.setChan c x).free = s.free := rfl
@[simp] theorem State.setChan_pending (c : Nat) (x : OptChan) : (s.setChan c x).pending = s.pending := rfl
@[simp] theorem State.setChan_seenNow (c : Nat) (x : OptChan) : (s.setChan c x).seenNow = s.seenNow := rfl

@[simp] theorem State.setEcc_raw (k i e : Nat) : (s.setEcc k i e).raw = s.raw := rfl
@[simp] theorem State.setEcc_vtOff (k i e : Nat) : (s.setEcc k i e).vtOff = s.vtOff := rfl
@[simp] theorem State.setEcc_mode (k i e : Nat) : (s.setEcc k i e).mode = s.mode := rfl
@[simp] theorem State.setEcc_regs (k i e : Nat) : (s.setEcc k i e).regs = s.regs := rfl
@[simp] theorem State.setEcc_preqs (k i e : Nat) : (s.setEcc k i e).preqs = s.preqs := rfl
@[simp] theorem State.setEcc_tbu (k i e : Nat) : (s.setEcc k i e).tbu = s.tbu := rfl
@[simp] theorem State.setEcc_trk (k i e : Nat) : (s.setEcc k i e).trk = s.trk := rfl
@[simp] theorem State.setEcc_lines (k i e : Nat) : (s.setEcc k i e).lines = s.lines := rfl
@[simp] theorem State.setEcc_banks (k i e : Nat) : (s.setEcc k i e).banks = s.banks := rfl
@[simp] theorem State.setEcc_slots (k i e : Nat) : (s.setEcc k i e).slots = s.slots := rfl
@[simp] theorem State.setEcc_dsp (k i e : Nat) : (s.setEcc k i e).dsp = s.dsp := rfl
@[simp] theorem State.setEcc_ttn (k i e : Nat) : (s.setEcc k i e).ttn = s.ttn := rfl
@[simp] theorem State.setEcc_eng (k i e : Nat) : (s.setEcc k i e).eng = s.eng := rfl
@[simp] theorem State.setEcc_rul (k i e : Nat) : (s.setEcc k i e).rul = s.rul := rfl
@[simp] theorem State.setEcc_adc (k i e : Nat) : (s.setEcc k i e).adc = s.adc := rfl
@[simp] theorem State.setEcc_shn (k i e : Nat) : (s.setEcc k i e).shn = s.shn := rfl
@[simp] theorem State.setEcc_cons (k i e : Nat) : (s.setEcc k i e).cons = s.cons := rfl
@[simp] theorem State.setEcc_consOrd (k i e : Nat) : (s.setEcc k i e).consOrd = s.consOrd := rfl
@[simp] theorem State.setEcc_stores (k i e : Nat) : (s.setEcc k i e).stores = s.stores := rfl
@[simp] theorem State.setEcc_hst (k i e : Nat) : (s.setEcc k i e).hst = s.hst := rfl
@[simp] theorem State.setEcc_sec (k i e : Nat) : (s.setEcc k i e).sec = s.sec := rfl
@[simp] theorem State.setEcc_pwr (k i e : Nat) : (s.setEcc k i e).pwr = s.pwr := rfl
@[simp] theorem State.setEcc_glb (k i e : Nat) : (s.setEcc k i e).glb = s.glb := rfl
@[simp] theorem State.setEcc_twn (k i e : Nat) : (s.setEcc k i e).twn = s.twn := rfl
@[simp] theorem State.setEcc_signals (k i e : Nat) : (s.setEcc k i e).signals = s.signals := rfl
@[simp] theorem State.setEcc_free (k i e : Nat) : (s.setEcc k i e).free = s.free := rfl
@[simp] theorem State.setEcc_pending (k i e : Nat) : (s.setEcc k i e).pending = s.pending := rfl
@[simp] theorem State.setEcc_seenNow (k i e : Nat) : (s.setEcc k i e).seenNow = s.seenNow := rfl

@[simp] theorem State.onTwn_raw (f : Twn → Twn) : (s.onTwn f).raw = s.raw := rfl
@[simp] theorem State.onTwn_vtOff (f : Twn → Twn) : (s.onTwn f).vtOff = s.vtOff := rfl
@[simp] theorem State.onTwn_mode (f : Twn → Twn) : (s.onTwn f).mode = s.mode := rfl
@[simp] theorem State.onTwn_regs (f : Twn → Twn) : (s.onTwn f).regs = s.regs := rfl
@[simp] theorem State.onTwn_preqs (f : Twn → Twn) : (s.onTwn f).preqs = s.preqs := rfl
@[simp] theorem State.onTwn_tbu (f : Twn → Twn) : (s.onTwn f).tbu = s.tbu := rfl
@[simp] theorem State.onTwn_trk (f : Twn → Twn) : (s.onTwn f).trk = s.trk := rfl
@[simp] theorem State.onTwn_lines (f : Twn → Twn) : (s.onTwn f).lines = s.lines := rfl
@[simp] theorem State.onTwn_banks (f : Twn → Twn) : (s.onTwn f).banks = s.banks := rfl
@[simp] theorem State.onTwn_slots (f : Twn → Twn) : (s.onTwn f).slots = s.slots := rfl
@[simp] theorem State.onTwn_dsp (f : Twn → Twn) : (s.onTwn f).dsp = s.dsp := rfl
@[simp] theorem State.onTwn_ttn (f : Twn → Twn) : (s.onTwn f).ttn = s.ttn := rfl
@[simp] theorem State.onTwn_eng (f : Twn → Twn) : (s.onTwn f).eng = s.eng := rfl
@[simp] theorem State.onTwn_rul (f : Twn → Twn) : (s.onTwn f).rul = s.rul := rfl
@[simp] theorem State.onTwn_adc (f : Twn → Twn) : (s.onTwn f).adc = s.adc := rfl
@[simp] theorem State.onTwn_shn (f : Twn → Twn) : (s.onTwn f).shn = s.shn := rfl
@[simp] theorem State.onTwn_cons (f : Twn → Twn) : (s.onTwn f).cons = s.cons := rfl
@[simp] theorem State.onTwn_consOrd (f : Twn → Twn) : (s.onTwn f).consOrd = s.consOrd := rfl
@[simp] theorem State.onTwn_mem (f : Twn → Twn) : (s.onTwn f).mem = s.mem := rfl
@[simp] theorem State.onTwn_stores (f : Twn → Twn) : (s.onTwn f).stores = s.stores := rfl
@[simp] theorem State.onTwn_hst (f : Twn → Twn) : (s.onTwn f).hst = s.hst := rfl
@[simp] theorem State.onTwn_sec (f : Twn → Twn) : (s.onTwn f).sec = s.sec := rfl
@[simp] theorem State.onTwn_pwr (f : Twn → Twn) : (s.onTwn f).pwr = s.pwr := rfl
@[simp] theorem State.onTwn_glb (f : Twn → Twn) : (s.onTwn f).glb = s.glb := rfl
@[simp] theorem State.onTwn_signals (f : Twn → Twn) : (s.onTwn f).signals = s.signals := rfl
@[simp] theorem State.onTwn_free (f : Twn → Twn) : (s.onTwn f).free = s.free := rfl
@[simp] theorem State.onTwn_pending (f : Twn → Twn) : (s.onTwn f).pending = s.pending := rfl
@[simp] theorem State.onTwn_seenNow (f : Twn → Twn) : (s.onTwn f).seenNow = s.seenNow := rfl

@[simp] theorem State.setVernier_raw (v : Nat) (x : Vernier) : (s.setVernier v x).raw = s.raw := rfl
@[simp] theorem State.setVernier_vtOff (v : Nat) (x : Vernier) : (s.setVernier v x).vtOff = s.vtOff := rfl
@[simp] theorem State.setVernier_mode (v : Nat) (x : Vernier) : (s.setVernier v x).mode = s.mode := rfl
@[simp] theorem State.setVernier_regs (v : Nat) (x : Vernier) : (s.setVernier v x).regs = s.regs := rfl
@[simp] theorem State.setVernier_preqs (v : Nat) (x : Vernier) : (s.setVernier v x).preqs = s.preqs := rfl
@[simp] theorem State.setVernier_trk (v : Nat) (x : Vernier) : (s.setVernier v x).trk = s.trk := rfl
@[simp] theorem State.setVernier_lines (v : Nat) (x : Vernier) : (s.setVernier v x).lines = s.lines := rfl
@[simp] theorem State.setVernier_banks (v : Nat) (x : Vernier) : (s.setVernier v x).banks = s.banks := rfl
@[simp] theorem State.setVernier_slots (v : Nat) (x : Vernier) : (s.setVernier v x).slots = s.slots := rfl
@[simp] theorem State.setVernier_dsp (v : Nat) (x : Vernier) : (s.setVernier v x).dsp = s.dsp := rfl
@[simp] theorem State.setVernier_ttn (v : Nat) (x : Vernier) : (s.setVernier v x).ttn = s.ttn := rfl
@[simp] theorem State.setVernier_eng (v : Nat) (x : Vernier) : (s.setVernier v x).eng = s.eng := rfl
@[simp] theorem State.setVernier_rul (v : Nat) (x : Vernier) : (s.setVernier v x).rul = s.rul := rfl
@[simp] theorem State.setVernier_adc (v : Nat) (x : Vernier) : (s.setVernier v x).adc = s.adc := rfl
@[simp] theorem State.setVernier_shn (v : Nat) (x : Vernier) : (s.setVernier v x).shn = s.shn := rfl
@[simp] theorem State.setVernier_cons (v : Nat) (x : Vernier) : (s.setVernier v x).cons = s.cons := rfl
@[simp] theorem State.setVernier_consOrd (v : Nat) (x : Vernier) : (s.setVernier v x).consOrd = s.consOrd := rfl
@[simp] theorem State.setVernier_mem (v : Nat) (x : Vernier) : (s.setVernier v x).mem = s.mem := rfl
@[simp] theorem State.setVernier_stores (v : Nat) (x : Vernier) : (s.setVernier v x).stores = s.stores := rfl
@[simp] theorem State.setVernier_hst (v : Nat) (x : Vernier) : (s.setVernier v x).hst = s.hst := rfl
@[simp] theorem State.setVernier_sec (v : Nat) (x : Vernier) : (s.setVernier v x).sec = s.sec := rfl
@[simp] theorem State.setVernier_pwr (v : Nat) (x : Vernier) : (s.setVernier v x).pwr = s.pwr := rfl
@[simp] theorem State.setVernier_glb (v : Nat) (x : Vernier) : (s.setVernier v x).glb = s.glb := rfl
@[simp] theorem State.setVernier_twn (v : Nat) (x : Vernier) : (s.setVernier v x).twn = s.twn := rfl
@[simp] theorem State.setVernier_signals (v : Nat) (x : Vernier) : (s.setVernier v x).signals = s.signals := rfl
@[simp] theorem State.setVernier_free (v : Nat) (x : Vernier) : (s.setVernier v x).free = s.free := rfl
@[simp] theorem State.setVernier_pending (v : Nat) (x : Vernier) : (s.setVernier v x).pending = s.pending := rfl
@[simp] theorem State.setVernier_seenNow (v : Nat) (x : Vernier) : (s.setVernier v x).seenNow = s.seenNow := rfl

@[simp] theorem State.setHolder_raw (a id role : Nat) : (s.setHolder a id role).raw = s.raw := by exact State.setReg_raw s _ _
@[simp] theorem State.setHolder_vtOff (a id role : Nat) : (s.setHolder a id role).vtOff = s.vtOff := by exact State.setReg_vtOff s _ _
@[simp] theorem State.setHolder_mode (a id role : Nat) : (s.setHolder a id role).mode = s.mode := by exact State.setReg_mode s _ _
@[simp] theorem State.setHolder_preqs (a id role : Nat) : (s.setHolder a id role).preqs = s.preqs := by exact State.setReg_preqs s _ _
@[simp] theorem State.setHolder_tbu (a id role : Nat) : (s.setHolder a id role).tbu = s.tbu := by exact State.setReg_tbu s _ _
@[simp] theorem State.setHolder_trk (a id role : Nat) : (s.setHolder a id role).trk = s.trk := by exact State.setReg_trk s _ _
@[simp] theorem State.setHolder_lines (a id role : Nat) : (s.setHolder a id role).lines = s.lines := by exact State.setReg_lines s _ _
@[simp] theorem State.setHolder_banks (a id role : Nat) : (s.setHolder a id role).banks = s.banks := by exact State.setReg_banks s _ _
@[simp] theorem State.setHolder_slots (a id role : Nat) : (s.setHolder a id role).slots = s.slots := by exact State.setReg_slots s _ _
@[simp] theorem State.setHolder_dsp (a id role : Nat) : (s.setHolder a id role).dsp = s.dsp := by exact State.setReg_dsp s _ _
@[simp] theorem State.setHolder_ttn (a id role : Nat) : (s.setHolder a id role).ttn = s.ttn := by exact State.setReg_ttn s _ _
@[simp] theorem State.setHolder_eng (a id role : Nat) : (s.setHolder a id role).eng = s.eng := by exact State.setReg_eng s _ _
@[simp] theorem State.setHolder_rul (a id role : Nat) : (s.setHolder a id role).rul = s.rul := by exact State.setReg_rul s _ _
@[simp] theorem State.setHolder_adc (a id role : Nat) : (s.setHolder a id role).adc = s.adc := by exact State.setReg_adc s _ _
@[simp] theorem State.setHolder_shn (a id role : Nat) : (s.setHolder a id role).shn = s.shn := by exact State.setReg_shn s _ _
@[simp] theorem State.setHolder_cons (a id role : Nat) : (s.setHolder a id role).cons = s.cons := by exact State.setReg_cons s _ _
@[simp] theorem State.setHolder_consOrd (a id role : Nat) : (s.setHolder a id role).consOrd = s.consOrd := by exact State.setReg_consOrd s _ _
@[simp] theorem State.setHolder_mem (a id role : Nat) : (s.setHolder a id role).mem = s.mem := by exact State.setReg_mem s _ _
@[simp] theorem State.setHolder_stores (a id role : Nat) : (s.setHolder a id role).stores = s.stores := by exact State.setReg_stores s _ _
@[simp] theorem State.setHolder_hst (a id role : Nat) : (s.setHolder a id role).hst = s.hst := by exact State.setReg_hst s _ _
@[simp] theorem State.setHolder_sec (a id role : Nat) : (s.setHolder a id role).sec = s.sec := by exact State.setReg_sec s _ _
@[simp] theorem State.setHolder_pwr (a id role : Nat) : (s.setHolder a id role).pwr = s.pwr := by exact State.setReg_pwr s _ _
@[simp] theorem State.setHolder_glb (a id role : Nat) : (s.setHolder a id role).glb = s.glb := by exact State.setReg_glb s _ _
@[simp] theorem State.setHolder_twn (a id role : Nat) : (s.setHolder a id role).twn = s.twn := by exact State.setReg_twn s _ _
@[simp] theorem State.setHolder_signals (a id role : Nat) : (s.setHolder a id role).signals = s.signals := by exact State.setReg_signals s _ _
@[simp] theorem State.setHolder_free (a id role : Nat) : (s.setHolder a id role).free = s.free := by exact State.setReg_free s _ _
@[simp] theorem State.setHolder_pending (a id role : Nat) : (s.setHolder a id role).pending = s.pending := by exact State.setReg_pending s _ _
@[simp] theorem State.setHolder_seenNow (a id role : Nat) : (s.setHolder a id role).seenNow = s.seenNow := by exact State.setReg_seenNow s _ _

@[simp] theorem State.capture_raw (b o : Nat) (r : Requester) (y : Reason) : (s.capture b o r y).raw = s.raw := rfl
@[simp] theorem State.capture_vtOff (b o : Nat) (r : Requester) (y : Reason) : (s.capture b o r y).vtOff = s.vtOff := rfl
@[simp] theorem State.capture_mode (b o : Nat) (r : Requester) (y : Reason) : (s.capture b o r y).mode = s.mode := rfl
@[simp] theorem State.capture_preqs (b o : Nat) (r : Requester) (y : Reason) : (s.capture b o r y).preqs = s.preqs := rfl
@[simp] theorem State.capture_tbu (b o : Nat) (r : Requester) (y : Reason) : (s.capture b o r y).tbu = s.tbu := rfl
@[simp] theorem State.capture_trk (b o : Nat) (r : Requester) (y : Reason) : (s.capture b o r y).trk = s.trk := rfl
@[simp] theorem State.capture_lines (b o : Nat) (r : Requester) (y : Reason) : (s.capture b o r y).lines = s.lines := rfl
@[simp] theorem State.capture_banks (b o : Nat) (r : Requester) (y : Reason) : (s.capture b o r y).banks = s.banks := rfl
@[simp] theorem State.capture_slots (b o : Nat) (r : Requester) (y : Reason) : (s.capture b o r y).slots = s.slots := rfl
@[simp] theorem State.capture_dsp (b o : Nat) (r : Requester) (y : Reason) : (s.capture b o r y).dsp = s.dsp := rfl
@[simp] theorem State.capture_ttn (b o : Nat) (r : Requester) (y : Reason) : (s.capture b o r y).ttn = s.ttn := rfl
@[simp] theorem State.capture_eng (b o : Nat) (r : Requester) (y : Reason) : (s.capture b o r y).eng = s.eng := rfl
@[simp] theorem State.capture_rul (b o : Nat) (r : Requester) (y : Reason) : (s.capture b o r y).rul = s.rul := rfl
@[simp] theorem State.capture_adc (b o : Nat) (r : Requester) (y : Reason) : (s.capture b o r y).adc = s.adc := rfl
@[simp] theorem State.capture_shn (b o : Nat) (r : Requester) (y : Reason) : (s.capture b o r y).shn = s.shn := rfl
@[simp] theorem State.capture_cons (b o : Nat) (r : Requester) (y : Reason) : (s.capture b o r y).cons = s.cons := rfl
@[simp] theorem State.capture_consOrd (b o : Nat) (r : Requester) (y : Reason) : (s.capture b o r y).consOrd = s.consOrd := rfl
@[simp] theorem State.capture_mem (b o : Nat) (r : Requester) (y : Reason) : (s.capture b o r y).mem = s.mem := rfl
@[simp] theorem State.capture_stores (b o : Nat) (r : Requester) (y : Reason) : (s.capture b o r y).stores = s.stores := rfl
@[simp] theorem State.capture_hst (b o : Nat) (r : Requester) (y : Reason) : (s.capture b o r y).hst = s.hst := rfl
@[simp] theorem State.capture_sec (b o : Nat) (r : Requester) (y : Reason) : (s.capture b o r y).sec = s.sec := rfl
@[simp] theorem State.capture_pwr (b o : Nat) (r : Requester) (y : Reason) : (s.capture b o r y).pwr = s.pwr := rfl
@[simp] theorem State.capture_glb (b o : Nat) (r : Requester) (y : Reason) : (s.capture b o r y).glb = s.glb := rfl
@[simp] theorem State.capture_twn (b o : Nat) (r : Requester) (y : Reason) : (s.capture b o r y).twn = s.twn := rfl
@[simp] theorem State.capture_signals (b o : Nat) (r : Requester) (y : Reason) : (s.capture b o r y).signals = s.signals := rfl
@[simp] theorem State.capture_free (b o : Nat) (r : Requester) (y : Reason) : (s.capture b o r y).free = s.free := rfl
@[simp] theorem State.capture_pending (b o : Nat) (r : Requester) (y : Reason) : (s.capture b o r y).pending = s.pending := rfl

@[simp] theorem State.discard_raw (a : Nat) (r : Requester) (y : Reason) : (s.discard a r y).raw = s.raw := by unfold State.discard; cases pageOf a <;> simp
@[simp] theorem State.discard_vtOff (a : Nat) (r : Requester) (y : Reason) : (s.discard a r y).vtOff = s.vtOff := by unfold State.discard; cases pageOf a <;> simp
@[simp] theorem State.discard_mode (a : Nat) (r : Requester) (y : Reason) : (s.discard a r y).mode = s.mode := by unfold State.discard; cases pageOf a <;> simp
@[simp] theorem State.discard_preqs (a : Nat) (r : Requester) (y : Reason) : (s.discard a r y).preqs = s.preqs := by unfold State.discard; cases pageOf a <;> simp
@[simp] theorem State.discard_tbu (a : Nat) (r : Requester) (y : Reason) : (s.discard a r y).tbu = s.tbu := by unfold State.discard; cases pageOf a <;> simp
@[simp] theorem State.discard_trk (a : Nat) (r : Requester) (y : Reason) : (s.discard a r y).trk = s.trk := by unfold State.discard; cases pageOf a <;> simp
@[simp] theorem State.discard_lines (a : Nat) (r : Requester) (y : Reason) : (s.discard a r y).lines = s.lines := by unfold State.discard; cases pageOf a <;> simp
@[simp] theorem State.discard_banks (a : Nat) (r : Requester) (y : Reason) : (s.discard a r y).banks = s.banks := by unfold State.discard; cases pageOf a <;> simp
@[simp] theorem State.discard_slots (a : Nat) (r : Requester) (y : Reason) : (s.discard a r y).slots = s.slots := by unfold State.discard; cases pageOf a <;> simp
@[simp] theorem State.discard_dsp (a : Nat) (r : Requester) (y : Reason) : (s.discard a r y).dsp = s.dsp := by unfold State.discard; cases pageOf a <;> simp
@[simp] theorem State.discard_ttn (a : Nat) (r : Requester) (y : Reason) : (s.discard a r y).ttn = s.ttn := by unfold State.discard; cases pageOf a <;> simp
@[simp] theorem State.discard_eng (a : Nat) (r : Requester) (y : Reason) : (s.discard a r y).eng = s.eng := by unfold State.discard; cases pageOf a <;> simp
@[simp] theorem State.discard_rul (a : Nat) (r : Requester) (y : Reason) : (s.discard a r y).rul = s.rul := by unfold State.discard; cases pageOf a <;> simp
@[simp] theorem State.discard_adc (a : Nat) (r : Requester) (y : Reason) : (s.discard a r y).adc = s.adc := by unfold State.discard; cases pageOf a <;> simp
@[simp] theorem State.discard_shn (a : Nat) (r : Requester) (y : Reason) : (s.discard a r y).shn = s.shn := by unfold State.discard; cases pageOf a <;> simp
@[simp] theorem State.discard_cons (a : Nat) (r : Requester) (y : Reason) : (s.discard a r y).cons = s.cons := by unfold State.discard; cases pageOf a <;> simp
@[simp] theorem State.discard_consOrd (a : Nat) (r : Requester) (y : Reason) : (s.discard a r y).consOrd = s.consOrd := by unfold State.discard; cases pageOf a <;> simp
@[simp] theorem State.discard_mem (a : Nat) (r : Requester) (y : Reason) : (s.discard a r y).mem = s.mem := by unfold State.discard; cases pageOf a <;> simp
@[simp] theorem State.discard_stores (a : Nat) (r : Requester) (y : Reason) : (s.discard a r y).stores = s.stores := by unfold State.discard; cases pageOf a <;> simp
@[simp] theorem State.discard_hst (a : Nat) (r : Requester) (y : Reason) : (s.discard a r y).hst = s.hst := by unfold State.discard; cases pageOf a <;> simp
@[simp] theorem State.discard_sec (a : Nat) (r : Requester) (y : Reason) : (s.discard a r y).sec = s.sec := by unfold State.discard; cases pageOf a <;> simp
@[simp] theorem State.discard_pwr (a : Nat) (r : Requester) (y : Reason) : (s.discard a r y).pwr = s.pwr := by unfold State.discard; cases pageOf a <;> simp
@[simp] theorem State.discard_glb (a : Nat) (r : Requester) (y : Reason) : (s.discard a r y).glb = s.glb := by unfold State.discard; cases pageOf a <;> simp
@[simp] theorem State.discard_twn (a : Nat) (r : Requester) (y : Reason) : (s.discard a r y).twn = s.twn := by unfold State.discard; cases pageOf a <;> simp
@[simp] theorem State.discard_signals (a : Nat) (r : Requester) (y : Reason) : (s.discard a r y).signals = s.signals := by unfold State.discard; cases pageOf a <;> simp
@[simp] theorem State.discard_free (a : Nat) (r : Requester) (y : Reason) : (s.discard a r y).free = s.free := by unfold State.discard; cases pageOf a <;> simp
@[simp] theorem State.discard_pending (a : Nat) (r : Requester) (y : Reason) : (s.discard a r y).pending = s.pending := by unfold State.discard; cases pageOf a <;> simp

@[simp] theorem State.acted_raw (x : LoadSrc) (o : Nat) : (s.acted x o).raw = s.raw := by unfold State.acted; cases x <;> simp [apply_ite State.raw]
@[simp] theorem State.acted_vtOff (x : LoadSrc) (o : Nat) : (s.acted x o).vtOff = s.vtOff := by unfold State.acted; cases x <;> simp [apply_ite State.vtOff]
@[simp] theorem State.acted_mode (x : LoadSrc) (o : Nat) : (s.acted x o).mode = s.mode := by unfold State.acted; cases x <;> simp [apply_ite State.mode]
@[simp] theorem State.acted_regs (x : LoadSrc) (o : Nat) : (s.acted x o).regs = s.regs := by unfold State.acted; cases x <;> simp [apply_ite State.regs]
@[simp] theorem State.acted_preqs (x : LoadSrc) (o : Nat) : (s.acted x o).preqs = s.preqs := by unfold State.acted; cases x <;> simp [apply_ite State.preqs]
@[simp] theorem State.acted_tbu (x : LoadSrc) (o : Nat) : (s.acted x o).tbu = s.tbu := by unfold State.acted; cases x <;> simp [apply_ite State.tbu]
@[simp] theorem State.acted_trk (x : LoadSrc) (o : Nat) : (s.acted x o).trk = s.trk := by unfold State.acted; cases x <;> simp [apply_ite State.trk]
@[simp] theorem State.acted_lines (x : LoadSrc) (o : Nat) : (s.acted x o).lines = s.lines := by unfold State.acted; cases x <;> simp [apply_ite State.lines]
@[simp] theorem State.acted_banks (x : LoadSrc) (o : Nat) : (s.acted x o).banks = s.banks := by unfold State.acted; cases x <;> simp [apply_ite State.banks]
@[simp] theorem State.acted_dsp (x : LoadSrc) (o : Nat) : (s.acted x o).dsp = s.dsp := by unfold State.acted; cases x <;> simp [apply_ite State.dsp]
@[simp] theorem State.acted_ttn (x : LoadSrc) (o : Nat) : (s.acted x o).ttn = s.ttn := by unfold State.acted; cases x <;> simp [apply_ite State.ttn]
@[simp] theorem State.acted_eng (x : LoadSrc) (o : Nat) : (s.acted x o).eng = s.eng := by unfold State.acted; cases x <;> simp [apply_ite State.eng]
@[simp] theorem State.acted_rul (x : LoadSrc) (o : Nat) : (s.acted x o).rul = s.rul := by unfold State.acted; cases x <;> simp [apply_ite State.rul]
@[simp] theorem State.acted_adc (x : LoadSrc) (o : Nat) : (s.acted x o).adc = s.adc := by unfold State.acted; cases x <;> simp [apply_ite State.adc]
@[simp] theorem State.acted_shn (x : LoadSrc) (o : Nat) : (s.acted x o).shn = s.shn := by unfold State.acted; cases x <;> simp [apply_ite State.shn]
@[simp] theorem State.acted_cons (x : LoadSrc) (o : Nat) : (s.acted x o).cons = s.cons := by unfold State.acted; cases x <;> simp [apply_ite State.cons]
@[simp] theorem State.acted_consOrd (x : LoadSrc) (o : Nat) : (s.acted x o).consOrd = s.consOrd := by unfold State.acted; cases x <;> simp [apply_ite State.consOrd]
@[simp] theorem State.acted_mem (x : LoadSrc) (o : Nat) : (s.acted x o).mem = s.mem := by unfold State.acted; cases x <;> simp [apply_ite State.mem]
@[simp] theorem State.acted_stores (x : LoadSrc) (o : Nat) : (s.acted x o).stores = s.stores := by unfold State.acted; cases x <;> simp [apply_ite State.stores]
@[simp] theorem State.acted_hst (x : LoadSrc) (o : Nat) : (s.acted x o).hst = s.hst := by unfold State.acted; cases x <;> simp [apply_ite State.hst]
@[simp] theorem State.acted_sec (x : LoadSrc) (o : Nat) : (s.acted x o).sec = s.sec := by unfold State.acted; cases x <;> simp [apply_ite State.sec]
@[simp] theorem State.acted_pwr (x : LoadSrc) (o : Nat) : (s.acted x o).pwr = s.pwr := by unfold State.acted; cases x <;> simp [apply_ite State.pwr]
@[simp] theorem State.acted_glb (x : LoadSrc) (o : Nat) : (s.acted x o).glb = s.glb := by unfold State.acted; cases x <;> simp [apply_ite State.glb]
@[simp] theorem State.acted_twn (x : LoadSrc) (o : Nat) : (s.acted x o).twn = s.twn := by unfold State.acted; cases x <;> simp [apply_ite State.twn]
@[simp] theorem State.acted_signals (x : LoadSrc) (o : Nat) : (s.acted x o).signals = s.signals := by unfold State.acted; cases x <;> simp [apply_ite State.signals]
@[simp] theorem State.acted_free (x : LoadSrc) (o : Nat) : (s.acted x o).free = s.free := by unfold State.acted; cases x <;> simp [apply_ite State.free]
@[simp] theorem State.acted_pending (x : LoadSrc) (o : Nat) : (s.acted x o).pending = s.pending := by unfold State.acted; cases x <;> simp [apply_ite State.pending]
@[simp] theorem State.acted_seenNow (x : LoadSrc) (o : Nat) : (s.acted x o).seenNow = s.seenNow := by unfold State.acted; cases x <;> simp [apply_ite State.seenNow]

@[simp] theorem State.mirror_raw (m : Mirror) : (s.mirror m).raw = s.raw := by unfold State.mirror; rw [apply_ite State.raw, ite_self]
@[simp] theorem State.mirror_vtOff (m : Mirror) : (s.mirror m).vtOff = s.vtOff := by unfold State.mirror; rw [apply_ite State.vtOff, ite_self]
@[simp] theorem State.mirror_mode (m : Mirror) : (s.mirror m).mode = s.mode := by unfold State.mirror; rw [apply_ite State.mode, ite_self]
@[simp] theorem State.mirror_regs (m : Mirror) : (s.mirror m).regs = s.regs := by unfold State.mirror; rw [apply_ite State.regs, ite_self]
@[simp] theorem State.mirror_preqs (m : Mirror) : (s.mirror m).preqs = s.preqs := by unfold State.mirror; rw [apply_ite State.preqs, ite_self]
@[simp] theorem State.mirror_tbu (m : Mirror) : (s.mirror m).tbu = s.tbu := by unfold State.mirror; rw [apply_ite State.tbu, ite_self]
@[simp] theorem State.mirror_trk (m : Mirror) : (s.mirror m).trk = s.trk := by unfold State.mirror; rw [apply_ite State.trk, ite_self]
@[simp] theorem State.mirror_lines (m : Mirror) : (s.mirror m).lines = s.lines := by unfold State.mirror; rw [apply_ite State.lines, ite_self]
@[simp] theorem State.mirror_banks (m : Mirror) : (s.mirror m).banks = s.banks := by unfold State.mirror; rw [apply_ite State.banks, ite_self]
@[simp] theorem State.mirror_slots (m : Mirror) : (s.mirror m).slots = s.slots := by unfold State.mirror; rw [apply_ite State.slots, ite_self]
@[simp] theorem State.mirror_dsp (m : Mirror) : (s.mirror m).dsp = s.dsp := by unfold State.mirror; rw [apply_ite State.dsp, ite_self]
@[simp] theorem State.mirror_ttn (m : Mirror) : (s.mirror m).ttn = s.ttn := by unfold State.mirror; rw [apply_ite State.ttn, ite_self]
@[simp] theorem State.mirror_eng (m : Mirror) : (s.mirror m).eng = s.eng := by unfold State.mirror; rw [apply_ite State.eng, ite_self]
@[simp] theorem State.mirror_rul (m : Mirror) : (s.mirror m).rul = s.rul := by unfold State.mirror; rw [apply_ite State.rul, ite_self]
@[simp] theorem State.mirror_adc (m : Mirror) : (s.mirror m).adc = s.adc := by unfold State.mirror; rw [apply_ite State.adc, ite_self]
@[simp] theorem State.mirror_shn (m : Mirror) : (s.mirror m).shn = s.shn := by unfold State.mirror; rw [apply_ite State.shn, ite_self]
@[simp] theorem State.mirror_cons (m : Mirror) : (s.mirror m).cons = s.cons := by unfold State.mirror; rw [apply_ite State.cons, ite_self]
@[simp] theorem State.mirror_consOrd (m : Mirror) : (s.mirror m).consOrd = s.consOrd := by unfold State.mirror; rw [apply_ite State.consOrd, ite_self]
@[simp] theorem State.mirror_mem (m : Mirror) : (s.mirror m).mem = s.mem := by unfold State.mirror; rw [apply_ite State.mem, ite_self]
@[simp] theorem State.mirror_stores (m : Mirror) : (s.mirror m).stores = s.stores := by unfold State.mirror; rw [apply_ite State.stores, ite_self]
@[simp] theorem State.mirror_hst (m : Mirror) : (s.mirror m).hst = s.hst := by unfold State.mirror; rw [apply_ite State.hst, ite_self]
@[simp] theorem State.mirror_sec (m : Mirror) : (s.mirror m).sec = s.sec := by unfold State.mirror; rw [apply_ite State.sec, ite_self]
@[simp] theorem State.mirror_pwr (m : Mirror) : (s.mirror m).pwr = s.pwr := by unfold State.mirror; rw [apply_ite State.pwr, ite_self]
@[simp] theorem State.mirror_glb (m : Mirror) : (s.mirror m).glb = s.glb := by unfold State.mirror; rw [apply_ite State.glb, ite_self]
@[simp] theorem State.mirror_signals (m : Mirror) : (s.mirror m).signals = s.signals := by unfold State.mirror; rw [apply_ite State.signals, ite_self]
@[simp] theorem State.mirror_free (m : Mirror) : (s.mirror m).free = s.free := by unfold State.mirror; rw [apply_ite State.free, ite_self]
@[simp] theorem State.mirror_pending (m : Mirror) : (s.mirror m).pending = s.pending := by unfold State.mirror; rw [apply_ite State.pending, ite_self]
@[simp] theorem State.mirror_seenNow (m : Mirror) : (s.mirror m).seenNow = s.seenNow := by unfold State.mirror; rw [apply_ite State.seenNow, ite_self]

end Sys2Proof.Machine
end

