-- ==== Sys2Proof/Laws/Memory.lean ====
section
/-! SUPPORT. Every operation that stores into a memory keeps the memories in their canonical form; what it stores reads back,
and every other word stays. -/

namespace Sys2Proof.Machine

variable (s : State)

/-- The canonical form, memory by memory. -/
theorem Mem.wf_iff (m : Mem) : m.wf = true ↔ SMap.wf (fun _ => (0 : Word)) m.log = true ∧ SMap.wf (fun _ => (0 : Word)) m.relief = true
    ∧ SMap.wf (fun _ => (0 : Word)) m.icb = true ∧ SMap.wf (fun _ => (0 : Word)) m.adcBuf = true
    ∧ SMap.wf (fun _ => (0 : Word)) m.book = true := by
  simp [Mem.wf, and_assoc]

/-- Memories that hold the same words are canonical together. -/
theorem Mem.wf_congr {m n : Mem} (h : m.wf = true) (h1 : n.log = m.log) (h2 : n.relief = m.relief) (h3 : n.icb = m.icb)
    (h4 : n.adcBuf = m.adcBuf) (h5 : n.book = m.book) : n.wf = true := by
  rw [Mem.wf_iff] at h ⊢
  rwa [h1, h2, h3, h4, h5]

theorem State.setEcc_wf (k i e : Nat) (h : s.mem.wf = true) : (s.setEcc k i e).mem.wf = true :=
  Mem.wf_congr h rfl rfl rfl rfl rfl

theorem State.putHome_keeps (i : Nat) (v : Word) (h : s.mem.wf = true) : (s.putHome i v).mem.wf = true := by
  rw [Mem.wf_iff] at h ⊢
  simp only [State.putHome, State.setEcc]
  exact ⟨SMap.put_wf _ _ _ _ h.1, h.2.1, h.2.2.1, h.2.2.2.1, h.2.2.2.2⟩

theorem State.putRelief_keeps (i : Nat) (v : Word) (h : s.mem.wf = true) : (s.putRelief i v).mem.wf = true := by
  rw [Mem.wf_iff] at h ⊢
  simp only [State.putRelief, State.setEcc]
  exact ⟨h.1, SMap.put_wf _ _ _ _ h.2.1, h.2.2.1, h.2.2.2.1, h.2.2.2.2⟩

theorem Mem.icb_keeps (m : Mem) (i : Nat) (w : Word) (h : m.wf = true) :
    ({ m with icb := SMap.put (fun _ => 0) m.icb i w } : Mem).wf = true := by
  rw [Mem.wf_iff] at h ⊢
  exact ⟨h.1, h.2.1, SMap.put_wf _ _ _ _ h.2.2.1, h.2.2.2.1, h.2.2.2.2⟩

theorem State.icbPut_keeps (i : Nat) (v : Word) (be : Nat) (h : s.mem.wf = true) : (s.icbPut i v be).mem.wf = true := by
  unfold State.icbPut
  exact State.setEcc_wf _ _ _ _ (Mem.icb_keeps s.mem i _ h)

theorem State.adcPut_keeps (i : Nat) (v : Word) (h : s.mem.wf = true) : (s.adcPut i v).mem.wf = true := by
  rw [Mem.wf_iff] at h ⊢
  simp only [State.adcPut, State.setEcc]
  exact ⟨h.1, h.2.1, h.2.2.1, SMap.put_wf _ _ _ _ h.2.2.2.1, h.2.2.2.2⟩

theorem State.bookPut_keeps (i : Nat) (v : Word) (h : s.mem.wf = true) : (s.bookPut i v).mem.wf = true := by
  rw [Mem.wf_iff] at h ⊢
  simp only [State.bookPut, State.setEcc]
  exact ⟨h.1, h.2.1, h.2.2.1, h.2.2.2.1, SMap.put_wf _ _ _ _ h.2.2.2.2⟩

theorem State.zeroHome_keeps (d : Nat) (h : s.mem.wf = true) : (s.zeroHome d).mem.wf = true := by
  rw [Mem.wf_iff] at h ⊢
  exact ⟨SMap.filter_wf _ _ _ h.1, h.2⟩

theorem State.zeroLog_keeps (h : s.mem.wf = true) : s.zeroLog.mem.wf = true := by
  rw [Mem.wf_iff] at h ⊢
  exact ⟨rfl, rfl, h.2.2⟩

theorem State.clearStores_keeps : s.clearStores.mem.wf = true := rfl

/-- The copy register emptied holds no word of a memory. -/
theorem State.noCopy_keeps (h : s.mem.wf = true) : ({ s with mem := { s.mem with copyReg := none } } : State).mem.wf = true :=
  Mem.wf_congr h rfl rfl rfl rfl rfl

theorem State.logWrite_keeps (i : Nat) (v : Word) (h : s.mem.wf = true) : (s.logWrite i v).mem.wf = true := by
  have hc (t : State) (ht : t.mem.wf = true) (c : Prop) [Decidable c] :
      (if c then t.putRelief (i % 32768) v else (t.putHome i v).putRelief (i % 32768) v).mem.wf = true := by
    split
    · exact t.putRelief_keeps _ _ ht
    · exact (t.putHome i v).putRelief_keeps _ _ (t.putHome_keeps _ _ ht)
  unfold State.logWrite
  dsimp only
  split
  · exact s.putRelief_keeps _ _ h
  · split
    · refine hc _ ?_ _
      split
      · split
        · exact s.noCopy_keeps h
        · exact h
      · exact h
    · exact s.putHome_keeps _ _ h

/-- The check of a word read changes no word of a memory. -/
theorem State.checked_keeps (k i : Nat) (h : s.mem.wf = true) : (s.checked k i).mem.wf = true := by
  have hm (t : State) (f g : Fld) : ((t.bump f).set1 g).mem = t.mem := by rw [State.set1_mem, State.bump_mem]
  have hi (t : State) (b : Bool) (a : Nat) (w : Word) : (if b then t else t.setReg a w).mem = t.mem := by
    split
    · rfl
    · exact State.setReg_mem t a w
  unfold State.checked
  extract_lets e m u v
  have hu : u.mem = s.mem := hm s _ _
  have hv : v.mem = u.mem := hi u _ _ _
  clear_value v
  split
  · exact h
  · split
    · split
      · exact h
      · exact Mem.wf_congr h rfl rfl rfl rfl rfl
    · rw [State.fault_mem, hv, hu]; exact h

theorem State.rmw_keeps (r : Requester) (k i a be : Nat) (f : State → State) (h : s.mem.wf = true)
    (hf : ∀ t : State, t.mem.wf = true → (f t).mem.wf = true) : (s.rmw r k i a be f).mem.wf = true := by
  have hk := State.checked_keeps s k i h
  unfold State.rmw
  split
  · exact hf s h
  · split
    · rw [State.capture_mem]
      exact hk
    · exact hf _ hk

theorem State.logMerge_keeps (r : Requester) (i : Nat) (v : Word) (be : Nat) (h : s.mem.wf = true) :
    (s.logMerge r i v be).mem.wf = true := by
  unfold State.logMerge
  split
  · exact State.logWrite_keeps s _ _ h
  · exact State.rmw_keeps s _ _ _ _ _ _ h fun t ht => State.logWrite_keeps t _ _ ht

theorem State.copyFlush_keeps (h : s.mem.wf = true) : s.copyFlush.mem.wf = true := by
  unfold State.copyFlush
  split
  · exact h
  · dsimp only
    split
    · exact State.setEcc_wf _ _ _ _ (State.putRelief_keeps _ _ _ (State.noCopy_keeps s h))
    · exact State.setEcc_wf _ _ _ _ (State.putHome_keeps _ _ _ (State.noCopy_keeps s h))

theorem State.copyStep_keeps (c : Nat) (h : s.mem.wf = true) : (s.copyStep c).mem.wf = true := by
  have hf := State.copyFlush_keeps s h
  unfold State.copyStep
  generalize s.copyFlush = f at hf ⊢
  extract_lets s1 k i src v e s2
  split
  · exact hf
  · have hk : s2.mem.wf = true := State.checked_keeps f _ _ hf
    clear_value s2
    exact Mem.wf_congr hk rfl rfl rfl rfl rfl

/-- The words of a logbook entry. -/
theorem putEntry_wf (m : SMap Word) (w e : Nat) (h : SMap.wf (fun _ => (0 : Word)) m = true) :
    SMap.wf (fun _ => (0 : Word)) (putEntry m w e) = true := by
  unfold putEntry
  have step : ∀ (l : List Nat) (m : SMap Word), SMap.wf (fun _ => (0 : Word)) m = true →
      SMap.wf (fun _ => (0 : Word)) (l.foldl (fun m j => SMap.put (fun _ => 0) m (w + j) (word (e / 2 ^ (32 * j)))) m) = true := by
    intro l
    induction l with
    | nil => exact fun _ h => h
    | cons j l ih => exact fun m h => ih _ (SMap.put_wf _ _ _ _ h)
  exact step _ m h

theorem State.testStore_keeps (k i v : Nat) (h : s.mem.wf = true) : (s.testStore k i v).mem.wf = true := by
  unfold State.testStore
  split
  · exact State.putHome_keeps s _ _ h
  · exact State.putRelief_keeps s _ _ h
  · exact State.icbPut_keeps s _ _ _ h
  · exact h
  · rw [Mem.wf_iff] at h ⊢
    simp only
    exact ⟨h.1, h.2.1, h.2.2.1, SMap.put_wf _ _ _ _ h.2.2.2.1, h.2.2.2.2⟩
  · exact h
  · exact h
  · exact State.bookPut_keeps s _ _ h
  · exact h
  · exact h

/-- A word of the log store written reads back, from whichever bank serves it. -/
theorem State.logPeek_putHome (i : Nat) (v : Word) (j : Nat) :
    SMap.get (fun _ => 0) (s.putHome i v).mem.log j = if j = i then v else SMap.get (fun _ => 0) s.mem.log j :=
  SMap.get_put _ _ _ _ _

theorem State.get_putRelief (i : Nat) (v : Word) (j : Nat) :
    SMap.get (fun _ => 0) (s.putRelief i v).mem.relief j = if j = i then v else SMap.get (fun _ => 0) s.mem.relief j :=
  SMap.get_put _ _ _ _ _

theorem State.get_bookPut (i : Nat) (v : Word) (j : Nat) :
    SMap.get (fun _ => 0) (s.bookPut i v).mem.book j = if j = i then v else SMap.get (fun _ => 0) s.mem.book j :=
  SMap.get_put _ _ _ _ _

theorem State.get_adcPut (i : Nat) (v : Word) (j : Nat) :
    SMap.get (fun _ => 0) (s.adcPut i v).mem.adcBuf j = if j = i then v else SMap.get (fun _ => 0) s.mem.adcBuf j :=
  SMap.get_put _ _ _ _ _

theorem State.get_icbPut (i : Nat) (v : Word) (be j : Nat) :
    (s.icbPut i v be).icbPeek j = if j = i then mergeBe (s.icbPeek i) v be else s.icbPeek j :=
  SMap.get_put _ _ _ _ _

/-- The memories at reset. -/
theorem reset_mem_wf : State.reset.mem.wf = true := rfl

end Sys2Proof.Machine
end

