-- ==== Sys2Proof/Laws/Regs.lean ====
section
/-! SUPPORT. Reads after writes: registers, fields, per-requester words, the units. -/

namespace Sys2Proof.Machine

variable (s : State)

/-! ### Registers and fields -/

theorem State.reg_setReg (a : Nat) (v : Word) (b : Nat) : (s.setReg a v).reg b = if b = a then v else s.reg b :=
  SMap.get_put resetWord s.regs a v b

@[simp] theorem State.reg_setReg_self (a : Nat) (v : Word) : (s.setReg a v).reg a = v := by simp [State.reg_setReg]

theorem State.reg_setReg_ne (a : Nat) (v : Word) (b : Nat) (h : b ≠ a) : (s.setReg a v).reg b = s.reg b := by
  simp [State.reg_setReg, h]

theorem State.reg_setF_ne (g : Fld) (v i b : Nat) (h : b ≠ g.off + i) : (s.setF g v i).reg b = s.reg b :=
  State.reg_setReg_ne s _ _ b h

/-- A field read after it is written. -/
theorem State.f_setF (g : Fld) (v i : Nat) (h : g.lo + g.wid ≤ 32) : (s.setF g v i).f g i = v % 2 ^ g.wid := by
  unfold State.setF State.f
  rw [State.reg_setReg_self, word_toNat_putBits _ _ _ _ h, bitsAt_putBits]

/-- A field of another register keeps its value. -/
theorem State.f_setF_ne (g k : Fld) (v i j : Nat) (h : k.off + j ≠ g.off + i) : (s.setF g v i).f k j = s.f k j := by
  unfold State.f
  rw [State.reg_setF_ne s g v i _ h]

/-- Another field of the same register keeps its value. -/
theorem State.f_setF_apart (g k : Fld) (v i j : Nat) (hg : g.lo + g.wid ≤ 32) (h : k.off + j = g.off + i)
    (hd : g.lo + g.wid ≤ k.lo ∨ k.lo + k.wid ≤ g.lo) : (s.setF g v i).f k j = s.f k j := by
  unfold State.f State.setF
  rw [h, State.reg_setReg_self, word_toNat_putBits _ _ _ _ hg]
  rcases hd with hd | hd
  · exact bitsAt_putBits_above _ _ _ _ _ _ hd
  · exact bitsAt_putBits_below _ _ _ _ _ _ hd

theorem State.f_set1 (g : Fld) (i : Nat) (h : g.lo + g.wid ≤ 32) (hw : g.wid = 1) : (s.set1 g i).f g i = 1 := by
  show (s.setF g 1 i).f g i = 1
  rw [State.f_setF s g 1 i h, hw]; rfl

theorem State.on_set1 (g : Fld) (i : Nat) (h : g.lo + g.wid ≤ 32) (hw : g.wid = 1) : (s.set1 g i).on g i = true := by
  simp [State.on, State.f_set1 s g i h hw]

theorem State.on_clr (g : Fld) (i : Nat) (h : g.lo + g.wid ≤ 32) : (s.clr g i).on g i = false := by
  simp [State.on, State.clr, State.f_setF s g 0 i h]

theorem State.f_bump (g : Fld) (n i : Nat) (h : g.lo + g.wid ≤ 32) :
    (s.bump g n i).f g i = satAdd (2 ^ g.wid - 1) (s.f g i) n := by
  rw [State.bump, State.f_setF s g _ i h]
  apply Nat.mod_eq_of_lt
  have := Nat.two_pow_pos g.wid
  unfold satAdd
  omega

/-! ### Words held per requester, sessions -/

theorem State.preg_setPreg_self (k a : Nat) (v : Word) : (s.setPreg k a v).preg k a = v :=
  SMap.get_put_self (fun _ => 0) s.preqs (pkey k a) v

theorem State.session_setSession (r : Requester) (x : Session) : (s.setSession r x).session r = x :=
  SMap.get_put_self _ _ _ _

/-! ### Units -/

theorem State.slot_setSlot (i j : Nat) (x : Slot) : (s.setSlot i x).slot j = if j = i then x else s.slot j :=
  SMap.get_put _ _ _ _ _

theorem State.track_setTrack (i j : Nat) (x : Track) : (s.setTrack i x).track j = if j = i then x else s.track j :=
  SMap.get_put _ _ _ _ _

theorem State.line_setLine (i j : Nat) (x : Line) : (s.setLine i x).line j = if j = i then x else s.line j :=
  SMap.get_put _ _ _ _ _

theorem State.turn_setTurn (i j : Nat) (x : Turntable) : (s.setTurn i x).turn j = if j = i then x else s.turn j :=
  SMap.get_put _ _ _ _ _

theorem State.ruler_setRuler (i j : Nat) (x : Ruler) : (s.setRuler i x).ruler j = if j = i then x else s.ruler j :=
  SMap.get_put _ _ _ _ _

theorem State.engine_setEngine (i j : Nat) (x : Engine) : (s.setEngine i x).engine j = if j = i then x else s.engine j :=
  SMap.get_put _ _ _ _ _

theorem State.shunter_setShunter (i j : Nat) (x : Shunter) :
    (s.setShunter i x).shunter j = if j = i then x else s.shunter j :=
  SMap.get_put _ _ _ _ _

theorem State.consist_setConsist (i j : Nat) (x : Consist) :
    (s.setConsist i x).consist j = if j = i then x else s.consist j :=
  SMap.get_put _ _ _ _ _

theorem State.hstream_setHstream (i j : Nat) (x : Stream) :
    (s.setHstream i x).hstream j = if j = i then x else s.hstream j :=
  SMap.get_put _ _ _ _ _

theorem State.sqr_setSqr (i j : Nat) (x : Sequencer) : (s.setSqr i x).sqr j = if j = i then x else s.sqr j :=
  SMap.get_put _ _ _ _ _

theorem Engine.bank_setBank (x : Engine) (l k : Nat) (b : Bank) : (x.setBank l b).bank k = if k = l then b else x.bank k :=
  SMap.get_put _ _ _ _ _

theorem Engine.at_setAt (x : Engine) (l k : Nat) (r : Option Routine) : (x.setAt l r).at_ k = if k = l then r else x.at_ k :=
  SMap.get_put _ _ _ _ _

/-! ### A write that clears keeps the rest: the value of a register the operations above do not touch -/

@[simp] theorem State.reg_advance (c a : Nat) : (s.advance c).reg a = s.reg a := rfl
@[simp] theorem State.reg_draw (a : Nat) : s.draw.reg a = s.reg a := rfl
@[simp] theorem State.reg_setSlot (i : Nat) (x : Slot) (a : Nat) : (s.setSlot i x).reg a = s.reg a := rfl
@[simp] theorem State.reg_setTrack (i : Nat) (x : Track) (a : Nat) : (s.setTrack i x).reg a = s.reg a := rfl
@[simp] theorem State.reg_setEngine (i : Nat) (x : Engine) (a : Nat) : (s.setEngine i x).reg a = s.reg a := rfl
@[simp] theorem State.reg_setTurn (i : Nat) (x : Turntable) (a : Nat) : (s.setTurn i x).reg a = s.reg a := rfl
@[simp] theorem State.reg_setRuler (i : Nat) (x : Ruler) (a : Nat) : (s.setRuler i x).reg a = s.reg a := rfl
@[simp] theorem State.reg_setShunter (i : Nat) (x : Shunter) (a : Nat) : (s.setShunter i x).reg a = s.reg a := rfl
@[simp] theorem State.reg_setConsist (i : Nat) (x : Consist) (a : Nat) : (s.setConsist i x).reg a = s.reg a := rfl
@[simp] theorem State.reg_setHstream (i : Nat) (x : Stream) (a : Nat) : (s.setHstream i x).reg a = s.reg a := rfl
@[simp] theorem State.reg_answer (r : Requester) (b : Nat) (v : Word) (p : Bool) (a : Nat) :
    (s.answer r b v p).reg a = s.reg a := rfl

end Sys2Proof.Machine
end

