-- ==== Sys2Proof/Laws/Writes.lean ====
section
/-! SUPPORT. What a register access does where it reaches its register's rules, and how a step takes a command. -/

namespace Sys2Proof.Machine

/-- A requester with no access waiting has nothing to wait for (R284). -/
theorem State.afterOwn_done (s : State) (r : Requester) (h : s.ownDone r = true) : s.afterOwn r = s := by
  unfold State.ownDone at h
  unfold State.afterOwn
  split
  · rename_i hh
    simp only [hh, Bool.true_and, Bool.not_or, Bool.and_eq_true, Bool.not_eq_true', List.any_eq_false, decide_eq_true_eq] at h
    have h1 : s.mem.waits.find? (fun w => decide (w.req = r)) = none := by simpa using h.1
    have h2 : s.mem.portB.any (fun b => decide (b.req = some r)) = false := by simpa using h.2
    show State.serveOwn s r (_ + 1 + 1) = s
    simp only [State.serveOwn, h1, h2, Bool.false_eq_true, if_false]
  · rfl

/-- A command that accesses a register does what the register's rules say, after the accesses that the requester has
waiting. -/
theorem access_order (s : State) (r : Requester) (k : State → State) (h : s.reachable r = true) :
    access s r k = .next (settle (k (s.afterOwn r))) := by unfold access done; rw [if_pos h]

/-- A command that accesses a register does what the register's rules say where the requester reaches them. -/
theorem access_reach (s : State) (r : Requester) (k : State → State) (h : s.reaches r = true) :
    access s r k = .next (settle (k s)) := by
  unfold State.reaches at h
  rw [Bool.and_eq_true] at h
  rw [access_order s r k h.1, s.afterOwn_done r h.2]

theorem readAt_reach (s : State) (r : Requester) (a : Nat) (k : State → State × Word) (h : s.reaches r = true) :
    readAt s r a k = .next (settle ((k s).1.answer r a (k s).2)) := by unfold readAt; rw [access_reach s r _ h]

/-- A writer that holds no consist leaves the mark of R307 alone. -/
theorem State.bypass_none (s : State) (r : Requester) (h : s.consistOf r.id = none) : s.bypass r = s := by
  unfold State.bypass; rw [h]

/-- A write from a register's command reaches the register's own rules. -/
theorem write_opens (s : State) (r : Requester) (a : Nat) (k : State → State) (h : s.opens r a = true) :
    write s r a k = .next (settle (k s)) := by
  unfold State.opens at h
  simp only [Bool.and_eq_true, Option.isNone_iff_eq_none] at h
  obtain ⟨⟨⟨h1, h2⟩, h3⟩, h4⟩ := h
  unfold write
  rw [access_reach s r _ h1]
  unfold State.direct
  cases hp : pageOf a with
  | none => rw [hp] at h4; simp at h4
  | some p =>
    obtain ⟨p, b⟩ := p
    rw [hp] at h4
    simp only [Bool.not_eq_true'] at h4
    simp only [h4, h3, State.bypass_none s r h2, Bool.false_eq_true, if_false]

/-- A command whose guard holds. -/
theorem done_if_pos (c : Prop) [Decidable c] (s t : State) (h : c) : done (if c then t else s) = .next (settle t) := by
  unfold done; rw [if_pos h]

end Sys2Proof.Machine
end

