-- ==== Sys2Proof/WellFormed.lean ====
section
/-! DEFINITION. Well-formed commands: the operands that the wires, the links and the address map can carry. A command whose
operands pass their range is ill-formed; the model still gives it an outcome, by the low bits that the operand has. -/

namespace Sys2Proof

/-- An address of BAR0 (R281), and of the register pages. -/
def inBar (a : Nat) : Bool := a < 0x1000000
def inPages (a : Nat) : Bool := a < 0x200000

/-- Bits of an entry, a slot number, a sequence number, a requester identity, an outcome (R91, R100, R346). -/
def entryFits (b : Nat) : Bool := b < 2 ^ 128
def slotFits (i : Nat) : Bool := i < 16384
def seqFits (n : Nat) : Bool := n < 2 ^ 32
def idFits (r : Nat) : Bool := r < 256
def outFits (o : Nat) : Bool := o < 16
def timeFits (t : Nat) : Bool := t < 2 ^ 64

def InsRec.wf (r : InsRec) : Bool := slotFits r.slot && idFits r.req && entryFits r.bits
def BulkRec.wf (r : BulkRec) : Bool := slotFits r.slot && decide (r.state < 4) && entryFits r.bits
def Hello.wf (h : Hello) : Bool :=
  timeFits h.serial && decide (h.period < 2 ^ 16) && decide (h.stepping < 256) && decide (h.state < 8)
def Heartbeat.wf (h : Heartbeat) : Bool :=
  seqFits h.seq && timeFits h.dep && timeFits h.t1 && timeFits h.t4 && decide (h.live ≤ 16384) && seqFits h.rseq
    && decide (h.faults < 2 ^ 16)

/-- A PCIe request: dwords of BAR0 from an aligned address (R284). -/
def pcieFits (a n : Nat) : Bool := a % 4 = 0 && 0 < n && inBar (a + 4 * n - 1)

/-- An SPI transaction: a 24-bit address and at least one word (R285). -/
def spiFits (a n : Nat) : Bool := inBar a && 0 < n

/-- A command is well formed. -/
def Instr.wf : Instr → Bool
  | .todMessage bs _ => !bs.isEmpty
  | .pcieReadRequest a n => pcieFits a n
  | .pcieWriteRequest a ws => pcieFits a ws.length
  | .spiWrite a ws => spiFits a ws.length
  | .spiRead a n => spiFits a n
  | .spiQwrite a ws => spiFits a ws.length
  | .spiQread a n => spiFits a n
  | .spiUnknownCommand _ a => inBar a
  | .registerWrite _ a _ => inPages a
  | .irqSetWrite _ a _ => inPages a
  | .lockSeal _ a => inPages a
  | .blockAbort _ a => inPages a
  | .abortComplete a => inPages a
  | .helloFrame h => h.wf
  | .heartbeatFrame h _ => h.wf
  | .ackFrame n _ => seqFits n
  | .insFrame n rs => seqFits n && rs.all InsRec.wf
  | .canFrame n i _ r => seqFits n && slotFits i && idFits r
  | .retFrame n rs => seqFits n && rs.all (fun r => slotFits r.1 && outFits r.2)
  | .consFrame n k o w b _ vs =>
    seqFits n && decide (k < 4) && idFits o && decide (w < 3) && timeFits b && vs.all (fun v => inPages v.1)
  | .consAtFrame n k d => seqFits n && decide (k < 4) && timeFits d
  | .consEndFrame n k o => seqFits n && decide (k < 4) && outFits o
  | .mapFrame n v t => seqFits n && timeFits v && timeFits t
  | .bulkFrame n rs _ => seqFits n && rs.all BulkRec.wf
  | .switchFrame w => timeFits w
  | .pcieLinkUp w g => (w = 1 || w = 2) && 1 ≤ g && g ≤ 3
  | .jtagTestAccess k _ _ _ v => k < 10 && v < 2 ^ 128
  | .departureBoundary | .housekeeping | .dispatchMove | .tickWrite _ _ | .replaceComplete | .depLoRead _ | .vtLoRead _
  | .nextsecLoRead _ | .mapHiWrite _ _ _ | .pllUnlock | .ppsEdge _ _ | .pulseWindowClose | .refLoss | .ksFreqCopy
  | .holdLong | .srvEnWrite _ _ | .stepLaunch _ _ | .stepTakeEffect | .stepDone | .keeptimeLatch _ | .ksTick
  | .k32Measure _ | .keeptimeResume | .ppsoutEnable _ _ | .ppsoutLoad | .nextsecUpdate | .calBuild _ _ | .calFillEdge _ _
  | .tbuAbort | .trkModeWrite _ _ _ | .compareMatch _ _ | .trainPulse _ | .stopMatch _ | .cmpHoldWrite _ _ _ _ _
  | .cmpArmWrite _ _ _ _ | .captureArm _ | .captureEdge _ _ _ _ | .stampFifoEntry _ | .recordWriterDrain
  | .trkPop0Read _ _ | .gateOpen _ | .gateClose _ | .linkedEdge _ | .stampMark _ | .trkClaim _ _ | .trkRelease _ _
  | .jncRelease _ _ | .trkAbort _ | .jncAbort | .bankSupplyChange _ _ | .lnCfgWrite _ _ _ _ | .insertionLaunch _ _
  | .insertionServe | .cancelWrite _ _ | .cancelResolve | .nopDue _ | .entryRetire _ | .chainUnpark _ | .dspRunSet _ _
  | .dspAbort | .dspFlush _ | .flushComplete | .books0Read _ | .toothEdge _ _ _ _ _ | .adcTriggerInput _ _ _ _ | .toothProcess _ | .toothFit _
  | .overtaken _ _ | .reprediction _ _ | .announcement _ _ | .indexEdge _ _ _ | .gapLineEdge _ _ _ | .markWindowExpiry _
  | .stall _ | .ttnEnable _ _ _ | .ttnDisable _ _ _ | .ttnAbort _ | .ttnResync _ _ | .ttnAngleRead _ _
  | .ttnTstampLoRead _ _ | .callPending _ | .eventSignal | .doorbell _ _ _ | .routineStart _ | .wordNext _
  | .wordJump _ | .wordJumpC _ | .wordCall _ | .wordRet _ | .wordEnd _ | .wordMwb _ | .wordPage _ | .wordWait _
  | .wordSeal _ | .wordUnseal _ | .wordReserved _ | .readDataArrival _ | .ttrResult _ | .waitCondition _ _
  | .waitDeadline _ _ | .sealCommit _ | .microstoreScrub _ | .menResume _ _ | .menAbort _ | .ruReload _
  | .ruOutputEdge _ _ | .ruStHiWrite _ _ _ | .ruStartInstant _ | .ruSpHiWrite _ _ _ | .ruStopInstant _ | .ruRunEnd _
  | .rulModeWrite _ _ _ | .updHoldWrite _ _ _ | .ruForceWrite _ _ _ | .ruFaultInput _ | .ruFaultRelease _
  | .ruClrFlt _ _ | .ruClaim _ _ | .ruRelease _ _ | .rulAbort _ | .adcSample _ _ | .opticalRecordEntry _
  | .opticalDrain | .opticalPop0Read _ _ | .mmcBlock _ | .adcTriggerAccept _ | .adcStepBegin _ | .adcStepEnd _
  | .windowAlloc _ _ _ | .windowFree _ _ _ | .windowTransferComplete _ | .windowRpWrite _ _ _ | .windowClaim _ _
  | .windowRelease _ _ | .adcCtlWrite _ _ | .adcAbort | .programStoreWrite _ _ _ _ | .shBr _ _ | .shLoop _ | .shAt _
  | .shWait _ _ | .shSend _ | .shTake _ _ | .shLoad _ | .shStore _ | .shCopy _ _ | .shLdi _ | .shAdd _ | .shSig _
  | .shLcnt _ | .shHalt _ | .shReserved _ | .shAtResolve _ | .shWaitPin _ | .shWaitDeadline _ | .shLoadStallEnd _
  | .shStoreStallEnd _ | .txfWrite _ _ _ | .rxfRead _ _ | .txdmaRead _ | .txdmaStore _ | .rxdmaMove _
  | .shnStartEntry _ | .shnStartWrite _ _ | .shnGstartWrite _ _ | .shnHaltWrite _ _ | .shnClkrstWrite _ _
  | .shnClrfifoWrite _ _ | .shnAbort _ | .sidingGrant _ | .eccRewrite | .dmaStarve _ | .icbAccess | .scrubRead _
  | .bgtCopyEnd | .bgtTestEnd _ | .bgtRestoreEnd | .bgtEnWrite _ _ | .memAbort | .spiStatus | .slotOpen _
  | .slotClose _ | .slotTimeout _ | .streamReport _ | .streamDoorbell _ _ _ | .streamPollRead _ _ | .vackWrite _ _
  | .msixUnmask _ | .linkDown | .hstAbort | .consistBegin _ | .consistCommit _ _ | .consistRollback _ | .consistCheck
  | .cnsAbort | .glbAbort _ | .pwrAbort | .secAbort | .rollcallRequest _ _ | .rollcallSnapshot | .rollcallComplete
  | .rollcallAuto | .bootEntry _ | .pllRelockRetry | .secLoad _ _ | .loadComplete | .secOverride _ | .keyProg _
  | .keyRevoke _ | .arbAdvance _ | .refselProg _ | .otpDone | .nonceLoRead _ | .sessionOpen _
  | .sessionVerifyComplete _ | .sessionClose _ | .sessionExpiry _ | .sessionLockoutEnd _ | .twnEnable _ _
  | .heartbeatMiss | .mirrorSend | .switchoverDrive | .switchoverTakeover | .killInput | .twnSwitchCmd _ | .twnRejoin _
  | .twnAbort | .pwrConfigure _ | .pwrRun _ | .pwrSafe _ | .pwrHibernate _ | .pwrKeeptime _ | .pwrReset _
  | .pwrFactory _ | .vddAoPowerOn | .porAo | .brownout | .resetPinAssert | .resetPinRelease | .wake | .keeptimeAlarm
  | .wakeFail | .coreSupplyGood | .jtagHalt | .jtagResume | .wdogKick _ _ | .wdogExpiry | .pllLock _ _ | .xtal32Fail
  | .xtal32Ok | .izlarLinkDown | .izlarLinkUp | .frameCrcErr | .killInputRelease => true

end Sys2Proof
end

