-- ==== Sys2Proof/Tests/Slice0.lean ====
section
/-! SUPPORT. Tests: ill-formed commands that WellFormed refuses, single commands against what the manual's tables and
worked examples give, and for each statement states and operands that meet the premises of each of its clauses. -/

namespace Sys2Proof.Tests

set_option Elab.async false

open Sys2Proof Sys2Proof.Machine

/-! ### States -/

/-- The device in a mode, the rest as at reset. -/
def dev (m : Mode) : State := { State.reset with mode := m }

/-- The PCIe host holds role installer. -/
def inst (s : State) : State := s.setSession .pcie { role := .installer }

/-- The PCIe host holds role maker. -/
def mkr (s : State) : State := s.setSession .pcie { role := .maker }

/-- The page at `b` is in an abort. -/
def inAbort (b : Nat) (s : State) : State := s.abortBegin b

/-! ### States that meet the premises: the machine as a whole -/

theorem wit_StepRunsFront : (dev .run).pending = [] := rfl

/-- The device in a mode with coded faults that wait for their reaction; the tick overrun's Safe-state apart, PEER_FAULT's and
HOLD's reaction is Safe-state at reset. -/
def withFaults (m : Mode) (cs : List Nat) : State := { dev m with pwr := { State.reset.pwr with faults := cs } }

/-- A vector asserted that no message has told of. -/
def sUntold : State := ((dev .configure).set1 TBU.IRQ_RAW.REF_REJ).setReg (TBU.page.base + 0x14) 0xFFFFFFFF

theorem wit_CalmSettles :
    State.reset.Calm
      ∧ (∀ m ∈ [Mode.run, .halt], (withFaults m [6, 1]).mode.powered = true ∧ (withFaults m [6, 1]).mode ≠ .boot
          ∧ (withFaults m [6, 1]).mode ≠ .provision ∧ (withFaults m [6, 1]).reaction 1 = 2
          ∧ ∀ d ∈ [6, 1], (withFaults m [6, 1]).reaction d = 2 → 1 ≤ d)
      ∧ (∀ m ∈ [Mode.run, .safe, .halt, .standby], (withFaults m [9, 4]).mode.powered = true
          ∧ (withFaults m [9, 4]).reaction 4 = 1 ∧ ∀ d ∈ [9, 4], (withFaults m [9, 4]).reaction d ≠ 2 ∧ ((withFaults m [9, 4]).reaction d = 1 → 4 ≤ d))
      ∧ (∀ c ∈ (withFaults .configure [9]).pwr.faults, (withFaults .configure [9]).reaction c = 0)
      ∧ ({ dev .run with pwr := { State.reset.pwr with heldFault := some (1, 4) } } : State).mode.running = true
      ∧ ((dev .run).mode.running = true ∧ ((dev .run).setSrv srvHoldover).runMode ≠ .run)
      ∧ (Mode.run.running = true ∧ ((dev .configure).setSrv srvHoldover).runMode ≠ .run)
      ∧ ((sUntold.vectors ≠ [] ∧ sUntold.hst.asserted = []) ∧ ((sUntold.set1 HST.LINK.UP).on HST.LINK.UP = true)) := by
  refine ⟨⟨⟨rfl, rfl, fun c m h => ?_, fun h => ?_, rfl, rfl, rfl, rfl, rfl, fun e h => ?_⟩, by decide +kernel⟩, ?_, ?_, ?_, ?_, ?_, ?_, ?_⟩
  · have h' : (none : Option (Nat × Mode)) = some (c, m) := h
    cases h'
  · have h' : false = true := h
    cases h'
  · have h' : e ∈ ([] : SMap Line) := h
    cases h'
  all_goals decide +kernel

theorem wit_VectorsTold : State.reset.Told ∧ ∃ t, step State.reset = .next t := ⟨by unfold State.Told; decide +kernel, _, rfl⟩

theorem wit_MemoryWrites : State.reset.mem.wf = true ∧ State.reset.mem.oneOut
    ∧ ({ State.reset with mem := { ({} : Mem) with ecc := [(eccKey stLog 5, 2)] } } : State).ecc
        (({ State.reset with mem := { ({} : Mem) with ecc := [(eccKey stLog 5, 2)] } } : State).logHome 5).1
        (({ State.reset with mem := { ({} : Mem) with ecc := [(eccKey stLog 5, 2)] } } : State).logHome 5).2 = 2 :=
  ⟨rfl, ⟨Or.inl rfl, fun h => nomatch h⟩, by decide +kernel⟩
/-! ### The timebase -/

/-- An NMEA message of ten seconds into 2000, checksum by hand, under NMEA_NEXT = 1 (R34, R35). -/
def todNext : List Byte := "$GPZDA,000010,01,01,2000,00,00*4B".toList.map (fun c => byte c.toNat)
def sNmea : State := ((dev .run).setF TBU.TOD.FMT 0).set1 TBU.TOD.NMEA_NEXT

def srvIn (n : Nat) (s : State) : State := s.setSrv n

def sPulse : State := { dev .run with tbu := { ({} : Tbu) with pulses := [{ edge := 64000, stamp := 64003 }] } }
def sLoss : State := { (dev .run).setSrv srvLocked with tbu := { ({} : Tbu) with lastPulse := some 640000, run := 3, avg := [{ m := 3, e := -2 }] } }
def sStepReq : State := { dev .configure with
  raw := 900, dsp := { ({} : Dsp) with bdep := 1, hk := true }
  tbu := { ({} : Tbu) with step := some { cycles := -100, shift := true, req := 1, role := .operator, dep := 0 } } }
def sStepDone : State := { (dev .run).set1 TBU.STS.STEP_BUSY with tbu := { ({} : Tbu) with lastStep := some 64640, stepDue := true } }
def sKeep : State := dev .keeptime
def sKeepValid : State := { dev .keeptime with tbu := { ({} : Tbu) with latched := true } }
def sXtal : State := { (dev .run).setSrv srvLocked with pwr := { ({} : Pwr) with xtalOk := true } }
def sResume : State := ((((dev .boot).setF PWR.KS_CAUSE.LASTMODE 2).set1 TBU.STS.PLL_LOCK).setF TBU.KS_FLAGS.V 1)
def sPps : State := { (((dev .run).set1 TBU.PPSOUT.EN).setF TRK.MODE.CODE mdPulse).setHolder TRK.OWN.HOLDER.off 0x20 0 with
  tbu := { ({} : Tbu) with ppsClaim := true } }
def todWait1 : TodWait := { sec := 5, refOk := true, done := 64000 }
def sAwait : State := { (dev .run).clr TBU.CTL.SRV_EN with tbu := { ({} : Tbu) with await := some todWait1 } }
/-- Track 5's vernier has seen 128 codes evenly, track 6's one code alone, track 7's too few edges (R53). -/
def sBuild : State := { (dev .run).setF TBU.CAL.MIN_HITS 12 with tbu := { ({} : Tbu) with verniers :=
  [(5, { hist := (List.range 128).map (fun k => (k, 40)) }), (6, { hist := [(9, 5000)] }), (7, { hist := [(3, 7)] })] } }
/-- An abort of the TBU meets a step, a waiting one and the claim of PPSOUT. -/
def sTbuAbort : State := { inAbort TBU.page.base (sPps.set1 TBU.STS.STEP_BUSY) with tbu := { sPps.tbu with
  step := some { cycles := 3, shift := false, req := 1, role := .operator, dep := 0 }
  align := some { cycles := 3, shift := true, req := 0x20, role := .none, dep := 0 } } }

theorem wit_LowWordReadsCopy : (dev .run).reachable .pcie = true := by decide +kernel

theorem wit_ReferencePulses : ((dev .run).mode.powered = true)
    ∧ ((dev .run).mode.alive = true ∧ (dev .run).lossAt = none ∧ (dev .run).tbu.tenths = none ∧ (dev .run).tbu.await = none
      ∧ (dev .run).nextNow = false ∧ sNmea.nextNow = true ∧ sNmea.on TBU.REF.RATE = false)
    ∧ (sAwait.mode.alive = true ∧ sAwait.lossAt = none ∧ sAwait.tbu.tenths = none ∧ sAwait.tbu.await = some todWait1
      ∧ sAwait.tbu.lastSec = none ∧ sAwait.srvOn = false ∧ sAwait.on TBU.REF.RATE = false
      ∧ todWait1.done + 10 * msU ≤ sAwait.edgeU vernRef 4001000 0 ∧ sAwait.edgeU vernRef 4001000 0 ≤ todWait1.done + 990 * msU)
    ∧ (sNmea.mode.alive = true ∧ sNmea.decodeTod todNext = some { sec := 946684810 + sNmea.f TBU.TOD.TAI_UTC, refOk := true, next1 := true }
      ∧ sNmea.tbu.await = none)
    ∧ (dev .run).decodeTod [] = none
    ∧ (∃ p ps, sPulse.tbu.pulses = p :: ps ∧ sPulse.lossAt = none)
    ∧ ∃ d, sLoss.lossAt = some d ∧ sLoss.tbu.pulses = [] ∧ sLoss.srv = srvLocked := by
  refine ⟨rfl, by decide +kernel, by decide +kernel, by decide +kernel, by decide +kernel, ⟨_, _, rfl, by decide +kernel⟩, ⟨_, rfl, by decide +kernel⟩⟩

theorem wit_HoldoverAndKeepTime : ((dev .run).setSrv srvLocked).srv = srvLocked ∧ (sKeep.mode = .keeptime ∧ sKeep.tbu.latched = false)
    ∧ (sKeepValid.mode = .keeptime ∧ sKeepValid.tbu.latched = true) ∧ (sXtal.srv = srvLocked ∧ sXtal.pwr.xtalOk = true)
    ∧ (sResume.mode.powered = true ∧ sResume.f PWR.KS_CAUSE.LASTMODE = 2 ∧ sResume.on TBU.STS.PLL_LOCK = true
      ∧ sResume.vtValid = true) := by decide +kernel

theorem wit_MappingServoAndSteps :
    ((inst (dev .configure)).opens .pcie mapVtHi = true ∧ (inst (dev .configure)).sealed TBU.page.base = false
        ∧ (inst (dev .configure)).hasRole .pcie .installer = true)
      ∧ ((inst (dev .configure)).opens .pcie mapTaiHi = true)
      ∧ ((dev .run).opens .pcie mapVtHi = true ∧ (dev .run).opens .pcie mapTaiHi = true)
      ∧ ((inst (dev .run)).opens .pcie (adr TBU.CTL.SRV_EN) = true ∧ (inst (dev .run)).srvOn = true
        ∧ ((inst (dev .run)).clr TBU.CTL.SRV_EN).srvOn = false
        ∧ (inst (dev .run)).srv ≠ srvFollow ∧ (inst (dev .run)).sealed TBU.page.base = false)
      ∧ ((dev .configure).opens .pcie stepHi = true ∧ (dev .configure).hasRole .pcie .operator = true
        ∧ (dev .configure).on TBU.STS.STEP_BUSY = false ∧ (inst (dev .run)).opens .pcie stepHi = true
        ∧ (inst (dev .run)).hasRole .pcie .installer = true)
      ∧ ((∃ q, sStepReq.tbu.step = some q) ∧ sStepReq.stepIsDue = true)
      ∧ ∃ u, sStepDone.tbu.lastStep = some u ∧ sStepDone.tbu.stepDue = true ∧ sStepDone.tbu.align = none :=
  ⟨by decide +kernel, by decide +kernel, by decide +kernel, by decide +kernel, by decide +kernel, ⟨⟨_, rfl⟩, by decide +kernel⟩, _, rfl, rfl, rfl⟩

def ppsV : Word := word (2 ^ TBU.PPSOUT.EN.lo)

theorem wit_SecondPulseAndCalibration :
    ((dev .run).opens .pcie (adr TBU.PPSOUT.EN) = true ∧ (dev .run).tbu.ppsClaim = false ∧ bitsAt ppsV.toNat TBU.PPSOUT.EN.lo 1 = 1
        ∧ (dev .run).holderAt (TRK.OWN.HOLDER.off + trkAt (bitsAt ppsV.toNat TBU.PPSOUT.TRACK.lo TBU.PPSOUT.TRACK.wid)) = 0)
      ∧ (sPps.tbu.ppsClaim = true ∧ (((dev .run).setHolder TRK.OWN.HOLDER.off 4 1).holderAt TRK.OWN.HOLDER.off = 4
        ∧ ((dev .run).setHolder TRK.OWN.HOLDER.off 4 1).opens .pcie (adr TBU.PPSOUT.EN) = true))
      ∧ (sPps.ppsRuns = true ∧ sPps.tmode (sPps.f TBU.PPSOUT.TRACK) = mdPulse ∧ (sPps.track (sPps.f TBU.PPSOUT.TRACK)) = {})
      ∧ (dev .run).mode.alive = true
      ∧ (sBuild.on TBU.CAL.CAL_EN = true ∧ SMap.wf (fun _ => {}) sBuild.tbu.verniers = true
        ∧ sBuild.vt < sBuild.tbu.lastBuild + sBuild.f TBU.CAL.INTERVAL * msU
        ∧ histSum (sBuild.vernier 7).hist < 2 ^ sBuild.f TBU.CAL.MIN_HITS
        ∧ 2 ^ sBuild.f TBU.CAL.MIN_HITS ≤ histSum (sBuild.vernier 5).hist
        ∧ (buildTaps (sBuild.vernier 5).hist (histSum (sBuild.vernier 5).hist) (sBuild.vernier 5).tap).isSome
        ∧ 2 ^ sBuild.f TBU.CAL.MIN_HITS ≤ histSum (sBuild.vernier 6).hist
        ∧ buildTaps (sBuild.vernier 6).hist (histSum (sBuild.vernier 6).hist) (sBuild.vernier 6).tap = none)
      ∧ ((dev .run).set1 TBU.CAL.FILL).on TBU.CAL.FILL = true
      ∧ (sTbuAbort.aborting TBU.page.base = true ∧ sTbuAbort.tbu.step ≠ none ∧ sTbuAbort.tbu.ppsClaim = true
        ∧ sTbuAbort.holderAt TRK.OWN.HOLDER.off = Requester.tbu.id) := by decide +kernel
/-! ### Tracks and lines -/

/-- Track 0 in mode `m` holding `x`, in Run. -/
def onTrack (m : Nat) (x : Track) : State := { (dev .run).setF TRK.MODE.CODE m with trk := [(0, x)] }

def mark1 : Stamp := { time := 640, rising := true, interp := true, epoch := 1, seq := 7, ctx := some 9, enter := 30 }
def cmpOf (a : CmpAct) : Cmp := { time := 6400, act := a, arg := 128, src := .slot 3 }

def sBusy : State := onTrack mdEdge { ({} : Track) with aAct := some (cmpOf .toggle) }
def sEdgeFull : State := onTrack mdEdge { ({} : Track) with aAct := some (cmpOf .toggle), aShd := some (cmpOf .set) }
def sFifo : State := onTrack mdCapture { ({} : Track) with fifo := [mark1], formed := [mark1] }
def sBcmp : State := onTrack mdEdge { ({} : Track) with bAct := some (cmpOf .clear), lvl := true }
def sLead : State := onTrack mdPulse { ({} : Track) with aAct := some (cmpOf .lead), bAct := some (cmpOf .trail) }
def sTrail : State := onTrack mdPulse { ({} : Track) with bAct := some (cmpOf .trail), lvl := true }
def sTrain : State := (onTrack mdTrain { ({} : Track) with aAct := some (cmpOf .train) }).setF TRK.TPER.V 1024
def sTrainHigh : State := onTrack mdTrain { ({} : Track) with
  train := some { next := 9600, trail := some 6500, left := some 0, width := 100, per := 3200 }, lvl := true }
def sTrainLow : State := onTrack mdTrain { ({} : Track) with
  train := some { next := 9600, left := some 2, width := 100, per := 3200 } }
def sStopOut : State := onTrack mdTrain { ({} : Track) with stop := some (6400, .direct), aShd := some (cmpOf .train) }
/-- A stop meets a pulse of a train, and between two. -/
def sStopTrain : State := onTrack mdTrain { ({} : Track) with
  stop := some (6400, .direct), train := some { next := 9600, trail := some 6500, left := some 4, width := 100, per := 3200 }, lvl := true }
def sStopPulse : State := onTrack mdPulse { ({} : Track) with stop := some (6300, .direct), bAct := some (cmpOf .trail), lvl := true }
def sStopIn : State := onTrack mdCapture { ({} : Track) with stop := some (6400, .direct), armed := true, left := some 4 }
def sOwed : State := (onTrack mdLinked { ({} : Track) with owed := [{ time := 6400, lvl := true }], following := true }).set1 TRK.MODE.REC
def sMark : State := onTrack mdEdge { ({} : Track) with marks := [cmpOf .toggle] }
def sArm : State := onTrack mdCapture { ({} : Track) with aAct := some (cmpOf .arm) }
def sGate : State := onTrack mdGate { ({} : Track) with aAct := some (cmpOf .gate) }
def sGateOpen : State := onTrack mdGate { ({} : Track) with gate := some { count := 3, close := some 6400 } }
def sCapture : State := ((onTrack mdCapture { ({} : Track) with armed := true }).set1 TRK.INSEL.EN).setF TRK.MODE.EDGE 3
def sCapture1 : State := ((onTrack mdCapture { ({} : Track) with armed := true, left := some 1 }).set1 TRK.INSEL.EN).setF TRK.MODE.EDGE 3
def sGateIn : State := ((onTrack mdGate { ({} : Track) with gate := some { count := 3, close := none } }).set1 TRK.INSEL.EN).setF TRK.MODE.EDGE 3
def sFull : State := onTrack mdCapture { ({} : Track) with fifo := List.replicate 8 mark1, formed := [mark1] }
def sHeld : State := (dev .run).setHolder TRK.OWN.HOLDER.off 1 1
def sOther : State := (dev .run).setHolder TRK.OWN.HOLDER.off 0x13 1
def sTrkAbort : State := inAbort TRK.page.base sBusy

theorem wit_TrackModeAndDirectLoads :
    ((dev .run).opens .pcie (trkReg TRK.MODE.CODE 0) = true ∧ rangeBad TRK.MODE.fields (0xB4 : Word).toNat = false
        ∧ edgeBad (0xB4 : Word).toNat = false ∧ ((dev .run).track 0).busy ((dev .run).tmode 0) = false
        ∧ ((dev .run).track 0).ending (dev .run).raw = false ∧ ((dev .run).track 0).marks = []
        ∧ mdLinked < bitsAt (0x1F : Word).toNat 0 4 ∧ bitsAt (0x04 : Word).toNat 4 2 = 0)
      ∧ (sBusy.opens .pcie (trkReg TRK.MODE.CODE 0) = true ∧ (sBusy.track 0).busy (sBusy.tmode 0) = true)
      ∧ (sBusy.opens .pcie (cmpReg 0 true false) = true ∧ sBusy.opens .pcie (cmpReg 0 false false) = true ∧ sBusy.mode ≠ .configure
        ∧ sBusy.mode ≠ .safe ∧ sBusy.tmode 0 = mdEdge ∧ sLead.tmode 0 = mdPulse ∧ sTrain.tmode 0 = mdTrain)
      ∧ (sLead.opens .pcie (cmpReg 0 false true) = true ∧ sLead.tmode 0 = mdPulse)
      ∧ (sBusy.opens .pcie (cmpReg 0 false true) = true ∧ (sBusy.track 0).aShd = none ∧ (sBusy.track 0).aAct ≠ none
        ∧ ((onTrack mdEdge {}).track 0).aAct = none ∧ ((onTrack mdEdge {}).track 0).aShd = none)
      ∧ (sBcmp.opens .pcie (cmpReg 0 true true) = true ∧ sBcmp.tmode 0 = mdEdge ∧ (sBcmp.track 0).bShd = none
        ∧ (sBcmp.track 0).bAct ≠ none ∧ (sBusy.track 0).bAct = none)
      ∧ ((onTrack mdPulse {}).opens .pcie (cmpReg 0 true true) = true ∧ (onTrack mdPulse {}).tmode 0 = mdPulse
        ∧ ((onTrack mdPulse {}).track 0).bAct = none)
      ∧ ((onTrack mdTrain {}).opens .pcie (cmpReg 0 false true) = true ∧ (onTrack mdTrain {}).tmode 0 = mdTrain
        ∧ ((onTrack mdTrain {}).track 0).train = none)
      ∧ (sEdgeFull.opens .pcie (cmpReg 0 false true) = true ∧ (sEdgeFull.track 0).aShd ≠ none)
      ∧ (sFifo.reachable .pcie = true ∧ sFifo.foreign .pcie (trkReg TRK.OWN.HOLDER 0) = false ∧ (sFifo.track 0).fifo = [mark1])
      ∧ ((dev .run).reachable .pcie = true ∧ (dev .run).foreign .pcie (trkReg TRK.OWN.HOLDER 0) = false
        ∧ ((dev .run).track 0).fifo = []) := by decide +kernel

theorem wit_TrackActs :
    ((sBcmp.track 0).bAct = some (cmpOf .clear) ∧ (sBcmp.track 0).aAct = none ∧ (sBcmp.track 0).stop = none)
      ∧ ((sLead.track 0).aAct = some (cmpOf .lead) ∧ (sLead.track 0).stop = none)
      ∧ ((sTrail.track 0).bAct = some (cmpOf .trail) ∧ (sTrail.track 0).aAct = none)
      ∧ ((sTrain.track 0).aAct = some (cmpOf .train) ∧ (sTrain.track 0).stop = none ∧ (sTrain.track 0).train = none)
      ∧ ((sTrainHigh.track 0).train.map (fun r => r.trail) = some (some 6500))
      ∧ ((sTrainLow.track 0).train.map (fun r => r.trail) = some none ∧ (sTrainLow.track 0).stop = none)
      ∧ ((sStopOut.track 0).stop = some (6400, .direct) ∧ sStopOut.trackBefore (sStopOut.track 0) (sStopOut.rawOf 6400) = false
        ∧ inMode (sStopOut.tmode 0) = false ∧ sStopTrain.trackBefore (sStopTrain.track 0) (sStopTrain.rawOf 6400) = false
        ∧ sStopPulse.trackBefore (sStopPulse.track 0) (sStopPulse.rawOf 6300) = false ∧ (sStopPulse.track 0).bAct.map Cmp.act = some .trail)
      ∧ ((sStopIn.track 0).stop = some (6400, .direct) ∧ sStopIn.trackBefore (sStopIn.track 0) (sStopIn.rawOf 6400) = false
        ∧ inMode (sStopIn.tmode 0) = true ∧ sStopIn.tmode 0 ≠ mdGate)
      ∧ ((sOwed.track 0).firstOwed = some { time := 6400, lvl := true } ∧ (sOwed.track 0).stop = none ∧ true ≠ (sOwed.track 0).lvl)
      ∧ ((sMark.track 0).firstMark = some (cmpOf .toggle) ∧ (sMark.track 0).stop = none) := by decide +kernel

theorem wit_TrackCaptures :
    (sArm.inputNext (sArm.track 0) = some (6400, 1) ∧ (sArm.track 0).aAct = some (cmpOf .arm))
      ∧ (sGate.inputNext (sGate.track 0) = some (6400, 2) ∧ (sGate.track 0).aAct = some (cmpOf .gate))
      ∧ (sGateOpen.inputNext (sGateOpen.track 0) = some (6400, 3)
        ∧ (sGateOpen.track 0).gate = some { count := 3, close := some 6400 })
      ∧ (sCapture.mode.alive = true ∧ sCapture.on TRK.INSEL.EN (trkAt 0) = true ∧ sCapture.tmode 0 = mdCapture
        ∧ (sCapture.track 0).armed = true ∧ sCapture.inputNext (sCapture.track 0) = none ∧ sCapture.f TRK.MODE.EDGE (trkAt 0) = 3
        ∧ (sCapture.track 0).riseCyc ≠ some 50 ∧ (sCapture.track 0).left = none ∧ (sCapture1.track 0).left = some 1)
      ∧ (sGateIn.tmode 0 = mdGate ∧ (sGateIn.track 0).gate = some { count := 3, close := none }
        ∧ sGateIn.inputNext (sGateIn.track 0) = none ∧ sGateIn.f TRK.MODE.EDGE (trkAt 0) = 3)
      ∧ ((sFifo.track 0).formed = [mark1] ∧ (sFifo.track 0).fifo.length < 8)
      ∧ ((sFull.track 0).formed = [mark1] ∧ 8 ≤ (sFull.track 0).fifo.length)
      ∧ (sFifo.drainNext = some 0 ∧ (sFifo.track 0).fifo = [mark1] ∧ sFifo.ringRoom 0 = true
        ∧ ({ sFifo with raw := sFifo.raw + 1 } : State).dmaReady (sFifo.ringWord 0 sFifo.hst.stampWp / 32768) 0 = true) := by decide +kernel

def relV : Word := word (kindTrack * 2 ^ 28)
def lnV : Word := word (0x100 * 2 ^ 16 + 0xA580)

theorem wit_ClaimsAndLines :
    ((dev .run).opens .pcie (trkReg TRK.OWN.HOLDER 0) = true ∧ (dev .run).holderAt (trkReg TRK.OWN.HOLDER 0) = 0)
      ∧ (sOther.opens .pcie (trkReg TRK.OWN.HOLDER 0) = true ∧ sOther.holderAt (trkReg TRK.OWN.HOLDER 0) ≠ 0
        ∧ sOther.holderAt (trkReg TRK.OWN.HOLDER 0) ≠ Requester.pcie.id)
      ∧ (sHeld.opens .pcie (trkReg TRK.OWN.HOLDER 0) = true ∧ sHeld.holderAt (trkReg TRK.OWN.HOLDER 0) = Requester.pcie.id)
      ∧ ((inst sOther).opens .pcie JNC.RELEASE.KIND.off = true ∧ (inst sOther).hasRole .pcie .installer = true
        ∧ (inst sOther).sealed JNC.page.base = false ∧ bitsAt relV.toNat 28 4 = kindTrack ∧ bitsAt relV.toNat 18 10 < 256)
      ∧ sTrkAbort.aborting (TRK.page.base + trkAt 0) = true
      ∧ (inAbort JNC.page.base sHeld).aborting JNC.page.base = true
      ∧ (dev .run).mode.powered = true
      ∧ ((inst (dev .run)).opens .pcie (lnReg 0 false) = true ∧ (inst (dev .run)).oddOfPair 0 = false
        ∧ rangeBad JNC.LN_CFG.fields lnV.toNat = false ∧ srcOk (bitsAt lnV.toNat 16 10) = true
        ∧ (inst (dev .run)).f JNC.LN_CFG.SRC (lnAt 0) = 0) := by decide +kernel
/-! ### The dispatcher -/

/-- A timetable entry (R91): target, action, LATE, ARG, DUE and further bits. -/
def entry (target action late arg due : Nat) (more : Nat := 0) : Nat :=
  due + arg * 2 ^ 64 + late * 2 ^ 113 + action * 2 ^ 116 + target * 2 ^ 120 + more

def linkTo (l : Nat) : Nat := 2 ^ 108 + l * 2 ^ 94

/-- Run, in departure 1, with these slots. -/
def withSlots (xs : List (Nat × Slot)) : State :=
  { dev .run with raw := 420, slots := xs, dsp := { ({} : Dsp) with bdep := 1, lastMove := 416, fresh := 8 } }

def queued (b : Nat) (p : Place := .imm) : Slot := { bits := b, st := .queued, place := p }

def nopBits : Nat := entry 0 acNop 2 0 51200
def portReq : PortReq := { req := .pcie, bits := nopBits, park := false }
def badReq : PortReq := { req := .pcie, bits := entry 0 15 0 0 0, park := true }

def sPort : State := { withSlots [] with dsp := { ({} : Dsp) with port := [portReq] } }
def sPortBad : State := { withSlots [] with dsp := { ({} : Dsp) with port := [badReq] } }
def sPortAngle : State := { (withSlots []).set1 TTN.CTL.EN with dsp := { ({} : Dsp) with port := [{ portReq with bits := entry 0 acNop 0 0 0x1000000 (2 ^ 115) }] } }
def sPortPark : State := { withSlots [] with dsp := { ({} : Dsp) with port := [{ portReq with park := true, req := .engine 3 }] } }
def sQueued : State := withSlots [(1, queued nopBits)]
def sActive : State := withSlots [(1, { queued nopBits .nowhere with st := .active })]
def sActed : State := withSlots [(1, { queued (entry 0 acPulse 0 640 51200 (linkTo 5)) .nowhere with st := .active, acted := some outActed })]
def sRetiring : State := withSlots [(1, { queued nopBits .nowhere with st := .retiring, out := outActed })]
def sCancelling (x : State) : State := { x with dsp := { x.dsp with cancels := [{ req := .pcie, slot := 1, chain := false, time := 420 }] } }
def sMovePulse : State := (withSlots [(1, queued (entry 0 acPulse 2 640 51200))]).setF TRK.MODE.CODE mdPulse
def sMoveLate : State := withSlots [(1, queued (entry 0 acPulse 1 640 27000))]
def sMoveNop : State := withSlots [(1, queued nopBits)]
def sNopDue : State := withSlots [(1, queued nopBits .nowhere)]
def sChain (out : Nat) (p : Place) (more : Nat := 0) : State := withSlots
  [(1, { bits := entry 0 acPulse 0 640 51200 (linkTo 5), st := .retiring, out := out, chain := true }),
   (5, { bits := entry 0 acPulse 0 640 90000 more, st := .queued, place := p })]
def sReplacing : State := { withSlots [(1, queued nopBits .unplaced)] with dsp := { ({} : Dsp) with bdep := 1, replacing := true } }
def sStopped : State := (withSlots [(1, queued nopBits)]).clr DSP.CTL.RUN
def sFlushing : State := { sStopped with dsp := { sStopped.dsp with flushing := true } }
def sEnd : State := { dev .run with raw := 420, dsp := { ({} : Dsp) with bdep := 0 } }
def sOver : State := { sEnd.setF DSP.OVRCTL.ESC 0 with slots := [(1, { queued nopBits .rota with bkt := 1 })] }
def sHk : State := { withSlots [(1, queued nopBits), (2, { bits := nopBits, st := .retiring, out := outActed }),
  (3, { bits := nopBits, st := .active })] with dsp := { ({} : Dsp) with bdep := 1, hk := true, lastMove := 430 } }

def sPortTime : State := { sPort with dsp := { sPort.dsp with port := [{ portReq with bits := entry 3 acPulse 0 100 (4097 * 25600) }] } }
/-- A chain: 1 names 5, which is parked. -/
def sChainHead (st : SlotSt) : State := withSlots
  [(1, { queued (entry 0 acPulse 0 640 51200 (linkTo 5)) with st := st }), (5, queued (entry 0 acPulse 0 640 90000) .parked)]
/-- A mirror queue with no room. -/
def sMqFull : State := { dev .run with twn := { ({} : Twn) with st := .primary, peerSt := .ready, queue := [(1, .cons 0 1 1 9 true (List.replicate 8190 (0, 0)))] } }

theorem wit_InsertionsAndCancellations :
    ((dev .run).opens .pcie ins3 = true ∧ (dev .run).dsp.port.any (fun p => p.req = .pcie) = false ∧ (dev .run).mqFull = false)
      ∧ (sPort.opens .pcie ins3 = true ∧ sPort.dsp.port.any (fun p => p.req = .pcie) = true)
      ∧ (sMqFull.opens .pcie ins3 = true ∧ sMqFull.mqFull = true)
      ∧ (sPortTime.insertCode (entry 3 acPulse 0 100 (4097 * 25600)) false = 0 ∧ eAngle (entry 3 acPulse 0 100 (4097 * 25600)) = false)
      ∧ (sPort.mode.alive = true ∧ pickPort sPort.dsp.portLast sPort.dsp.port = some portReq
        ∧ sPort.insertCode portReq.bits portReq.park = 0 ∧ sPort.freeHead = some 0)
      ∧ (pickPort sPortBad.dsp.portLast sPortBad.dsp.port = some badReq ∧ sPortBad.insertCode badReq.bits badReq.park ≠ 0)
      ∧ (sQueued.opens .pcie DSP.CANCEL.INDEX.off = true ∧ sQueued.dsp.cancels.any (fun q => q.req = .pcie) = false
        ∧ sQueued.mqFull = false ∧ bitsAt (0x80000001 : Word).toNat 0 14 = 1 ∧ bitsAt (0x80000001 : Word).toNat 31 1 = 1
        ∧ (sChainHead .active).chainOf 1 = [5] ∧ (sCancelling sActive).dsp.cancels.any (fun q => q.req = .pcie) = true
        ∧ (sQueued.slot 1).st = .queued ∧ (sQueued.slot 1).place ≠ .reserved ∧ (sActive.slot 1).st = .active
        ∧ (sRetiring.slot 1).st = .retiring ∧ (sQueued.slot 2).st = .free)
      ∧ ((sCancelling sActive).dsp.cancels ≠ [] ∧ ((sCancelling sActive).slot 1).st = .active
        ∧ ((sCancelling sActive).slot 1).acted = none ∧ ((sCancelling sActed).slot 1).acted ≠ none
        ∧ ((sCancelling sRetiring).slot 1).st ≠ .active) := by decide +kernel

def sLate (action late : Nat) : State := withSlots [(1, queued (entry 0 action late 640 27000))]
/-- Entry 1 of action `a` and policy `late` is moved next, and late. -/
abbrev MovesLate (a late : Nat) : Prop :=
  ((sLate a late).advance (sLate a late).moveCycle).nextMove = some 1 ∧ eAction ((sLate a late).slot 1).bits = a
    ∧ eLate ((sLate a late).slot 1).bits = late ∧ ((sLate a late).advance (sLate a late).moveCycle).isLate 27000 = true

theorem wit_EntriesMoveAndRetire :
    (sMovePulse.moving = true ∧ sMovePulse.dsp.flushing = false ∧ sMovePulse.dsp.hk = false
        ∧ (sMovePulse.advance sMovePulse.moveCycle).dep = sMovePulse.dsp.bdep
        ∧ (sMovePulse.advance sMovePulse.moveCycle).nextMove = some 1
        ∧ eAction (sMovePulse.slot 1).bits = acPulse ∧ eAngle (sMovePulse.slot 1).bits = false ∧ eCenter (sMovePulse.slot 1).bits = false
        ∧ (sMovePulse.advance sMovePulse.moveCycle).isLate (eDue (sMovePulse.slot 1).bits) = false ∧ (sMovePulse.slot 1).defer = false
        ∧ sMovePulse.tmode (eTarget (sMovePulse.slot 1).bits) = mdPulse ∧ (sMovePulse.track 0).aShd = none
        ∧ (sMovePulse.track 0).bAct = none ∧ sMovePulse.holderAt TRK.OWN.HOLDER.off = 0
        ∧ sMovePulse.aborting TRK.page.base = false ∧ (∀ j : Fin 4, sMovePulse.ecc stTt (4 * 1 + j.val) = 0)
        ∧ (sMovePulse.abortBegin TRK.page.base).aborting TRK.page.base = true
        ∧ ((sMovePulse.abortBegin TRK.page.base).advance (sMovePulse.abortBegin TRK.page.base).moveCycle).nextMove = some 1)
      ∧ ((sMoveLate.advance sMoveLate.moveCycle).nextMove = some 1 ∧ eLate (sMoveLate.slot 1).bits = 1
        ∧ (sMoveLate.advance sMoveLate.moveCycle).isLate (startOf (sMoveLate.slot 1).bits) = true)
      ∧ (MovesLate acPulse 2 ∧ MovesLate acPulse 3 ∧ MovesLate acNop 0)
      ∧ ((sMoveNop.advance sMoveNop.moveCycle).nextMove = some 1 ∧ eAction (sMoveNop.slot 1).bits = acNop
        ∧ (sMoveNop.advance sMoveNop.moveCycle).isLate (startOf (sMoveNop.slot 1).bits) = false)
      ∧ ((sNopDue.slot 1).st = .queued ∧ (sNopDue.slot 1).place = .nowhere ∧ sNopDue.mode.moves = true)
      ∧ ((sActed.slot 1).st = .active ∧ (sActed.slot 1).acted = some outActed)
      ∧ (((sChain outActed .parked).slot 1).st = .retiring ∧ ((sChain outActed .parked).slot 1).chain = true
        ∧ eLink ((sChain outActed .parked).slot 1).bits = 5 ∧ ((sChain outActed .parked).slot 5).place = .parked
        ∧ chains outActed = true ∧ chains outRefused = false ∧ ((sChain outRefused .parked).set1 DSP.CTL.CHAINBRK).on DSP.CTL.CHAINBRK = true
        ∧ ((sChain outActed .far).slot 5).place ≠ .parked) := by decide +kernel

theorem wit_DispatcherControl :
    (sReplacing.dsp.replacing = true ∧ (sReplacing.slot 1).st = .queued ∧ eAngle (sReplacing.slot 1).bits = false)
      ∧ ((dev .run).opens .pcie DSP.CTL.RUN.off = true ∧ (0 : Word).getLsbD 0 = false)
      ∧ ((1 : Word).getLsbD 0 = true ∧ (dev .run).on DSP.CTL.RUN = true)
      ∧ (sStopped.opens .pcie DSP.CTL.RUN.off = true ∧ sStopped.on DSP.CTL.RUN = false ∧ sStopped.mode.moves = true
        ∧ sStopped.dsp.replacing = false ∧ sStopped.depOf (sStopped.slot 1).start ≤ sStopped.dep + 1 ∧ (sStopped.slot 1).place = .imm)
      ∧ (inAbort DSP.page.base sQueued).aborting DSP.page.base = true
      ∧ (sStopped.opens .pcie DSP.CMD.FLUSH.off = true ∧ (dev .run).opens .pcie DSP.CMD.FLUSH.off = true)
      ∧ (sFlushing.dsp.flushing = true ∧ (sFlushing.slot 1).st = .queued ∧ (sFlushing.slot 1).place ≠ .reserved) := by
  decide +kernel

def sDefer : State := { sHk with dsp := { sHk.dsp with overMove := [(1, 0)] } }

theorem wit_BoundaryAndHousekeeping :
    (sEnd.nextBoundary = 1 ∧ sEnd.mode.alive = true ∧ sEnd.mode ≠ .standby ∧ (∀ k, (sEnd.consist k).st ≠ .closed)
        ∧ sEnd.twn.yieldAt = none ∧ sEnd.mode.moves = true ∧ sEnd.dsp.replacing = false
        ∧ (sEnd.advanceVt (sEnd.boundary 1)).unmoved (1 - 1 + 2) = []
        ∧ ∀ e : Fin 8, (sEnd.engine e.val).unfinished sEnd.dsp.bdep (1 - 1) = none)
      ∧ (sOver.nextBoundary = 1 ∧ (∀ k, (sOver.consist k).st ≠ .closed) ∧ sOver.on DSP.CTL.RUN = true
        ∧ (sOver.advanceVt (sOver.boundary 1)).unmoved (1 - 1 + 2) ≠ [] ∧ sOver.on DSP.OVRCTL.POLICY = false
        ∧ sOver.f DSP.OVRCTL.ESC = 0)
      ∧ ((sOver.set1 DSP.OVRCTL.POLICY).on DSP.OVRCTL.POLICY = true
        ∧ ((sOver.set1 DSP.OVRCTL.POLICY).advanceVt 0).unmoved (1 - 1 + 2) ≠ [])
      ∧ (sHk.stepIsDue = false ∧ sHk.dsp.hk = true ∧ (sHk.slot 2).st = .retiring ∧ (sHk.slot 2).held = false
        ∧ (sHk.slot 3).st = .active ∧ sHk.dsp.overMove = [])
      ∧ (sDefer.stepIsDue = false ∧ (1, (sDefer.slot 1).ord) ∈ sDefer.dsp.overMove ∧ (sDefer.slot 1).st = .queued) := by
  refine ⟨⟨by decide +kernel, rfl, nofun, fun _ => nofun, rfl, by decide +kernel, rfl, by decide +kernel, by decide +kernel⟩,
    ⟨by decide +kernel, fun _ => nofun, by decide +kernel, by decide +kernel, by decide +kernel, by decide +kernel⟩, by decide +kernel,
    by decide +kernel, by decide +kernel⟩
/-! ### Turntables -/

/-- Turntable 0 with EN set, 1024 teeth and the index line, in Run. -/
def ttBase : State := { (((dev .run).set1 TTN.CTL.EN).set1 TTN.INSEL.IDX_EN) with raw := 10100 }

/-- Its last tooth at raw unit 640000, a quarter count a unit since. -/
def spun : Turntable := { ({} : Turntable) with
  last := some 640000, tooth := 3, rev := 2, linked := true, hist := [(65536, 1), (65536, 1)], pper := some 65536
  now := { time := 640000, theta := 49152, span := 16384, ok := true, w := { m := 1, e := -2 }, a := {}, rev := 2 } }

def withTurn (st : Nat) (x : Turntable) (xs : List (Nat × Slot) := []) : State :=
  { (ttBase.setTtState 0 st) with ttn := [(0, x)], slots := xs }

/-- An angle-domain pulse of track 0 with LATE `late`, at angle 131072 of revolution 2 (R91). -/
def angleBits (late : Nat) : Nat := entry 0 acPulse late 640 (131072 + 2 * 2 ^ 24) (2 ^ 115)

def sSpin : State := withTurn ttSynced spun
def sEarlyTooth : State := withTurn ttSynced { spun with edges := [(645000, false)] }
def sTooth : State := withTurn ttSynced { spun with edges := [(705536, false), (771072, false)] }
def sFirstTooth : State := withTurn ttHunting { ({} : Turntable) with edges := [(640000, false)] }
def sFit : State := withTurn ttSynced { spun with fitDue := true }
def sFitNone : State := withTurn ttHunting { ({} : Turntable) with fitDue := true, last := some 640000, now := { time := 640000 } }
def sMarkLost : State := withTurn ttSynced { spun with marks := [650000] }
def sMarkProv : State := withTurn ttProvisional { spun with marks := [650000] }
def sStall : State := withTurn ttSynced { spun with deadline := some 900000 }
def sGapLine : State := (withTurn ttHunting { ({} : Turntable) with marks := [1] }).setF TTN.INCFG.SYNCSRC 2 |>.set1 TTN.INSEL.GAP_EN
def sBehind (late : Nat) : State := withTurn ttSynced { spun with behind := [1, 2], act := 11000 }
  [(1, { bits := angleBits late, st := .active, start := 700000 })]
def sRepred : State := withTurn ttSynced { spun with repred := [1], act := 11000 } [(1, { bits := angleBits 2, st := .active, start := 700000 })]
def sAnn : State := withTurn ttSynced { spun with ann := [1], act := 11000 } [(1, { bits := angleBits 2, st := .queued, place := .wheel })]
def sAnnFull : State := withTurn ttSynced { spun with ann := [1], act := 11000 }
  ((1, { bits := angleBits 2, st := .queued, place := .wheel }) :: (List.range 64).map (fun k => (k + 2, { bits := angleBits 2, st := .active })))
def sIdle : State := (dev .configure).set1 TTN.INSEL.IDX_EN
def sRestore : State := (sIdle.setF TTN.RESTORE.TOOTH 5).set1 TTN.RESTORE.VALID
def sBadGeom : State := dev .configure
def sLost : State := withTurn ttLost spun
def sTtAbort : State := inAbort TTN.page.base sSpin

theorem wit_TurntableInputsAndReads :
    sSpin.ttActive 0 = true ∧ (sSpin.ttOn 0 TTN.INSEL.IDX_EN = true ∧ sSpin.ttF 0 TTN.INCFG.SYNCSRC = 0)
      ∧ (sGapLine.ttActive 0 = true ∧ sGapLine.ttOn 0 TTN.INSEL.GAP_EN = true ∧ sGapLine.ttF 0 TTN.INCFG.SYNCSRC = 2)
      ∧ (sSpin.reachable .pcie = true ∧ (sSpin.turn 0).last = some 640000) := by decide +kernel

theorem wit_TeethAndStalls :
    ((sEarlyTooth.turn 0).edges = [(645000, false)] ∧ sEarlyTooth.ttOn 0 TTN.CTL.EN = true ∧ (sEarlyTooth.turn 0).last = some 640000
        ∧ 645000 < 640000 + sEarlyTooth.ttF 0 TTN.NOISE.MINP * 64)
      ∧ ((sTooth.turn 0).last = some 640000 ∧ 640000 + sTooth.ttF 0 TTN.NOISE.MINP * 64 ≤ 705536)
      ∧ (sFit.turn 0).fitDue = true
      ∧ (∃ p, (sMarkLost.turn 0).marks = [650000] ∧ sMarkLost.ttSingle 0 (sMarkLost.ttState 0)
          (if ttKnown (sMarkLost.ttState 0) then (sMarkLost.ttNext 0 (sMarkLost.turn 0).tooth (sMarkLost.turn 0).now.rvs).2 else 0) = some p
        ∧ (sMarkLost.turn 0).edges.any (fun e => 650000 ≤ e.1 && e.1 ≤ 650000 + p.1 / (2 * p.2)) = false)
      ∧ ((sStall.turn 0).deadline = some 900000 ∧ (sStall.turn 0).edges.any (fun e => e.1 ≤ 900000) = false) :=
  ⟨by decide +kernel, by decide +kernel, by decide +kernel, ⟨(65536, 1), by decide +kernel⟩, by decide +kernel⟩

theorem wit_AngleEntries :
    (((sBehind 1).turn 0).behind = [1, 2] ∧ ((sBehind 1).slot 1).moved = true ∧ ((sBehind 1).slot 1).turns 0 = true
        ∧ eLate ((sBehind 1).slot 1).bits = 1 ∧ eLate ((sBehind 2).slot 1).bits = 2)
      ∧ ((sRepred.turn 0).behind = [] ∧ (sRepred.turn 0).repred = [1] ∧ (sRepred.slot 1).turns 0 = true
        ∧ (sRepred.slot 1).moved = true ∧ (sRepred.ttPredict 0 (sRepred.slot 1).bits).isSome = true)
      ∧ ((sAnn.turn 0).repred = [] ∧ (sAnn.turn 0).ann = [1] ∧ (sAnn.slot 1).turns 0 = true ∧ (sAnn.slot 1).st = .queued
        ∧ (sAnn.slot 1).place = .wheel ∧ (sAnn.predSet 0).length < 64 ∧ (sAnn.ttPredict 0 (sAnn.slot 1).bits).isSome = true)
      ∧ ((sAnnFull.slot 1).turns 0 = true ∧ (sAnnFull.slot 1).place = .wheel ∧ 64 ≤ (sAnnFull.predSet 0).length) := by decide +kernel

theorem wit_TurntableControl :
    (sBadGeom.opens .pcie (ttnCtlAt 0) = true ∧ sBadGeom.ttOn 0 TTN.CTL.EN = false ∧ (1 : Word).getLsbD 0 = true ∧ sBadGeom.ttBad 0 = true)
      ∧ (sIdle.opens .pcie (ttnCtlAt 0) = true ∧ sIdle.ttBad 0 = false ∧ sIdle.overFanned (sIdle.storeReg .pcie (ttnCtlAt 0) 1) = none
        ∧ sIdle.selectsOdd (sIdle.storeReg .pcie (ttnCtlAt 0) 1) = none ∧ sIdle.ttOn 0 TTN.RESTORE.VALID = false
        ∧ sIdle.ttOn 0 TTN.KS_ANGLE.STOP_CLEAN = false)
      ∧ (sRestore.ttBad 0 = false ∧ sRestore.ttOn 0 TTN.RESTORE.VALID = true)
      ∧ (sSpin.opens .pcie (ttnCtlAt 0) = true ∧ sSpin.ttOn 0 TTN.CTL.EN = true ∧ (0 : Word).getLsbD 0 = false)
      ∧ (sLost.opens .pcie (ttnCtlAt 0) = true ∧ sLost.ttState 0 = ttLost)
      ∧ sTtAbort.aborting (TTN.page.base + pgAt 0) = true := by decide +kernel
/-! ### Engines -/

/-- Run, with engine 0 as given. -/
def withEng (x : Engine) : State := { dev .run with raw := 420, eng := [(0, x)], dsp := { ({} : Dsp) with bdep := 1 } }

def idle0 : Engine := { ({} : Engine) with st := .idle }
def call1 : Call := { slot := 9, addr := 0x123, param := 5, prio := 2, start := 30000 }
def sCalls : State := withEng { idle0 with calls := [{ call1 with start := 40000, slot := 8 }, call1] }
def sPendCall : State := withEng { idle0 with calls := [{ call1 with pend := some (3, 430, 1) }], next := 425 }
def sPendEv : State := withEng { idle0 with evs := [(2, some { lvl := 4, addr := 0x801, g1 := 6, s0 := 7, since := 420 })]
                                            banks := [(4, { ({} : Bank) with z := true, f0 := true, stack := [(1, 0)], g := [(5, 77)] })] }
def sig1 : Signal := { kind := 1, idx := 5, g1 := 11, s0 := 640, since := 425 }
def evReg (s : State) : State :=
  (((s.set1 MEN.EV.EN 8).setF MEN.EV.KIND 1 8).setF MEN.EV.INDEX 5 8).setF MEN.EV.LEVEL 3 8 |>.setF MEN.EV.ADDR 0x44 8
def sSignal : State := { evReg (withEng idle0) with signals := [sig1] }
def sSignal2 : State := { evReg (withEng { idle0 with evs := [(2, some { lvl := 4, addr := 0x801, count := 15, g1 := 6, s0 := 7, since := 420 })] })
  with signals := [sig1] }
def bellV : Word := word (2 ^ 30 + 0x55)
def sBell : State := (withEng idle0).set1 MEN.DBV.EN 4
def sBellPend : State := (withEng { idle0 with dbs := [(1, some { lvl := 0, addr := 0, g1 := 6, s0 := 7, since := 420 })] }).set1 MEN.DBV.EN 4
def sArrival : State := { withEng idle0 with mem := { ({} : Mem) with
  arrivals := [{ eng := 0, lvl := 3, dst := 5, val := 99, time := 440 }, { eng := 0, lvl := 3, dst := 0x12, val := 98, time := 430 },
    { eng := 1, lvl := 0, dst := 1, val := 1, time := 2 }] } }
def sTtr : State := withEng { idle0 with tt := some { lvl := 3, can := false, res := some (0xC0000005, 433) } }
/-- A wait of level 3 with a deadline, held in stamp register 2, or without one. -/
def wait1 (dl : Option Nat) (pol : Bool) : EngWait := { cond := 0, pol := pol, dl := dl.map (fun _ => 2), watch := 0, since := 420 }
def rt1 (w : Option EngWait) : Routine := { cls := .call, slot := 9, pc := 0x21, dep := some 1, wait := w, first := false }
def sWait (dl : Option Nat) (pol : Bool) : State :=
  withEng { idle0 with st := .waiting, routines := [(3, some (rt1 (some (wait1 dl pol))))]
                       banks := [(3, { ({} : Bank) with st := [(2, dl.getD 0)] })] }
def sCommit : State := withEng { idle0 with st := .running, routines := [(3, some (rt1 none))]
                                            sect := some { lvl := 3, words := 4, since := 415, writes := [.sid 40000 7, .icb 3 8], done := some 421 } }
def sCommitIns : State := withEng { idle0 with st := .running, routines := [(3, some (rt1 none))]
                                               sect := some { lvl := 3, words := 4, since := 415, writes := [.ins 6 false nopBits], done := some 421 } }
def sScrub : State := { withEng { idle0 with micAt := 8191 } with stores := { ({} : Stores) with micEcc := [(8191, 1)] } }
def sFaulted : State := withEng { idle0 with st := .faulted }
def sMenAbort : State := inAbort MEN.page.base (sCommit.setHolder (TRK.OWN.HOLDER.off + trkAt 7) 0x10 1)

theorem wit_InvocationsAndStarts :
    (sCalls.mode.alive = true ∧ sCalls.nextCall (sCalls.engine 0) = some call1)
      ∧ (sSignal.signals = [sig1] ∧ (sSignal.engine 0).closed = false ∧ sSignal.enOn 0 MEN.CTL.EN = true ∧ sSignal.hears sig1.kind = true
        ∧ sSignal.names 0 2 sig1 = true ∧ SMap.get (fun _ => 0) (sSignal.engine 0).evOn 2 ≤ max sSignal.raw (sig1.since + 1)
        ∧ (sSignal.engine 0).ev 2 = none ∧ (sSignal2.engine 0).ev 2 ≠ none)
      ∧ (sBell.opens .pcie (menReg MEN.DB.VEC 0) = true ∧ sBell.on MEN.DBV.EN (pgAt 0 + 4 * bitsAt bellV.toNat 30 2) = true
        ∧ sBell.enOn 0 MEN.CTL.EN = true ∧ (sBell.engine 0).closed = false ∧ (sBell.engine 0).db (bitsAt bellV.toNat 30 2) = none
        ∧ (sBellPend.engine 0).db (bitsAt bellV.toNat 30 2) ≠ none
        ∧ sSignal.opens .pcie (menReg MEN.DB.VEC 0) = true ∧ sSignal.on MEN.DBV.EN (pgAt 0 + 4 * bitsAt bellV.toNat 30 2) = false)
      ∧ ((sPendCall.engine 0).startable = some { cls := .call, num := 9, lvl := 3, addr := 0x123, since := 430, dep := some 1 }
        ∧ (sPendEv.engine 0).startable ≠ none) := by decide +kernel

theorem wit_EnginesBetweenWords :
    (sArrival.firstArrival 0 = some { eng := 0, lvl := 3, dst := 0x12, val := 98, time := 430 })
      ∧ ((sTtr.engine 0).tt = some { lvl := 3, can := false, res := some (0xC0000005, 433) })
      ∧ ((sWait none false).waitOf 0 3 = some (wait1 none false) ∧ ((sWait none false).engine 0).at_ 3 = some (rt1 (some (wait1 none false)))
        ∧ ((sWait (some 90000) false).condAt 0 3 (wait1 (some 90000) false)).isSome = true
        ∧ (sWait none false).deadlineAt 0 3 (wait1 none false) = none)
      ∧ ((sWait (some 30000) true).waitOf 0 3 = some (wait1 (some 30000) true)
        ∧ (sWait (some 30000) true).deadlineAt 0 3 (wait1 (some 30000) true) = some 469
        ∧ (sWait (some 30000) true).condAt 0 3 (wait1 (some 30000) true) = none)
      ∧ ((sWait (some 10) false).deadlineAt 0 3 (wait1 (some 10) false) = some 421
        ∧ (sWait (some 10) false).condAt 0 3 (wait1 (some 10) false) = some 421)
      ∧ ((sCommitIns.engine 0).sect.map SealSect.writes = some [.ins 6 false nopBits]
        ∧ (sCommitIns.engine 0).sect.bind SealSect.done = some 421)
      ∧ (sCommit.mode.alive = true ∧ (sCommit.engine 0).sect.map SealSect.done = some (some 421)
        ∧ (sCommit.engine 0).sect.map SealSect.writes = some ([(false, 40000, (7 : Word)), (true, 3, 8)].map
          (fun p => if p.1 then SealWrite.icb p.2.1 p.2.2 else SealWrite.sid p.2.1 p.2.2)))
      ∧ (sScrub.mode.powered = true ∧ sScrub.enOn 0 MEN.CTL.SCRUB = true ∧ sScrub.micMark (0 * 8192 + (sScrub.engine 0).micAt) = 1)
      ∧ (sFaulted.opens .pcie (menReg MEN.CTL.EN 0) = true ∧ (sFaulted.engine 0).st = .faulted ∧ (sFaulted.engine 0).present = []
        ∧ sSignal.opens .pcie (menReg MEN.CTL.EN 0) = true ∧ (sSignal.engine 0).st ≠ .faulted)
      ∧ (sMenAbort.aborting (MEN.page.base + pgAt 0) = true ∧ sMenAbort.holderAt (TRK.OWN.HOLDER.off + trkAt 7) = 0x10 + 0) := by
  decide +kernel
/-! ### The words of the engines -/

/-- A microword (R176): SEQ, NP, IMM. -/
def mw (q np imm : Nat) : Nat := q * 2 ^ 20 + np * 2 ^ 9 + imm

/-- A nanoword (R177) by its fields: ALUOP, SRCA, SRCB, DST, ACC, ABASE, AOFS, ADAT, and further bits. -/
def nw (op a b d : Nat) (acc base ofs dat : Nat := 0) (more : Nat := 0) : Nat :=
  op * 2 ^ 122 + a * 2 ^ 117 + b * 2 ^ 112 + d * 2 ^ 107 + acc * 2 ^ 103 + base * 2 ^ 99 + ofs * 2 ^ 87 + dat * 2 ^ 82 + more

def rtW : Routine := { cls := .call, slot := 9, pc := 0x221, dep := some 1, first := false }

def bankW : Bank := { ({} : Bank) with g := [(1, 5), (2, 7), (4, 64), (8, 0x1000)], st := [(0, 640000)], page := 1, stack := [(0x333, 2)], z := true }

/-- Engine 0 on level 3 with word `m`, `w` at its PC, its section and its bank. -/
def atWord (m w : Nat) (x : Option SealSect := none) (b : Bank := bankW) : State :=
  { withEng { idle0 with st := .running, cur := 3, next := 421, routines := [(3, some rtW)], banks := [(3, b)], sect := x } with
    stores := { ({} : Stores) with micro := [(0x221, m)], nano := [(mNp m, w)] } }

theorem fetches_of (s : State) (e l pc m w c : Nat) (r : Routine) (h : s.mode.alive = true ∧ (s.engine e).closed = false
    ∧ (s.engine e).st ≠ .halted ∧ ((s.engine e).sect = none ∨ (s.engine e).openSect ≠ none) ∧ (s.engine e).runs = some l
    ∧ ((s.engine e).at_ l = some r ∧ r.pc = pc ∧ c = max ((s.engine e).wordAt l r s.raw) ((s.engine e).mulAt l m w))
    ∧ s.micMark (e * 8192 + pc) = 0 ∧ s.nanMark (e / 2 * 2048 + mNp m) = 0 ∧ s.microAt e pc = m
    ∧ s.nanoAt (e / 2) (mNp m) = w ∧ (s.engine e).startable = none) : s.fetches e l pc m w c :=
  ⟨h.1, h.2.1, h.2.2.1, h.2.2.2.1, h.2.2.2.2.1, ⟨r, h.2.2.2.2.2.1⟩, h.2.2.2.2.2.2⟩

def nAdd : Nat := nw 0x02 1 2 3
def openSect1 : Option SealSect := some { lvl := 3, words := 2, since := 410 }

/-- NEXT with access `acc` of g8 (0x1000) plus 16, data g2. -/
def accWord (acc : Nat) : Nat := nw 0 0 0 0x1F acc 8 16 2

theorem wit_WordsSequence :
    (∀ q ∈ [sqNext, sqJump, sqJumpC, sqCall, sqRet, sqEnd, sqMwb, sqWait, sqSeal],
      (atWord (mw q 6 3) nAdd).executes 0 3 0x221 (mw q 6 3) nAdd 421 ∧ nAcc nAdd = 0 ∧ mSeq (mw q 6 3) = q
        ∧ ((atWord (mw q 6 3) nAdd).engine 0).at_ 3 = some rtW)
      ∧ (atWord (mw sqPage 6 3) nAdd).executes 0 3 0x221 (mw sqPage 6 3) nAdd 421
      ∧ (atWord (mw sqUnseal 6 3) nAdd openSect1).executes 0 3 0x221 (mw sqUnseal 6 3) nAdd 421
      ∧ (atWord (mw sqRet 6 3) nAdd none { bankW with stack := [] }).executes 0 3 0x221 (mw sqRet 6 3) nAdd 421
      ∧ (atWord (mw sqJump 6 3) (accWord 2)).executes 0 3 0x221 (mw sqJump 6 3) (accWord 2) 421 := by
  refine ⟨?_, ⟨fetches_of _ _ _ _ _ _ _ rtW (by decide +kernel), by decide +kernel⟩, ⟨fetches_of _ _ _ _ _ _ _ rtW (by decide +kernel), by decide +kernel⟩,
    ⟨fetches_of _ _ _ _ _ _ _ rtW (by decide +kernel), by decide +kernel⟩,
    ⟨fetches_of _ _ _ _ _ _ _ rtW (by decide +kernel), by decide +kernel⟩⟩
  intro q hq
  fin_cases hq <;> exact ⟨⟨fetches_of _ _ _ _ _ _ _ rtW (by decide +kernel), by decide +kernel⟩, by decide +kernel⟩

/-- A section that has written the word that `accWord 1` reads. -/
def wroteSect : Option SealSect := some { lvl := 3, words := 2, since := 410, writes := [.sid (accAddr bankW (accWord 1) 0x200000 / 4) 9] }
def sCanWord : State := { atWord (mw sqNext 6 0) (accWord 10) with slots := [(0x1000, queued nopBits)] }
/-- The bank with a valid NOP in the registers that an insertion takes. -/
def bankIns : Bank := { bankW with g := [(8, 51200), (11, 2 ^ 18)] }
def sInsWord : State := { atWord (mw sqNext 6 0) (accWord 8) openSect1 bankIns with dsp := { ({} : Dsp) with bdep := 1, fresh := 8 } }

theorem wit_WordsAccess :
    (∀ a ∈ [1, 2, 3, 4, 5, 7, 8, 9, 10], (atWord (mw sqNext 6 0) (accWord a)).executes 0 3 0x221 (mw sqNext 6 0) (accWord a) 421
        ∧ nAcc (accWord a) = a)
      ∧ ((atWord (mw sqNext 6 0) (accWord 7)).ecc stTt (accAddr bankW (accWord 7) 0x40000 / 4) = 0
        ∧ (atWord (mw sqNext 6 0) (accWord 8)).mqFull = false)
      ∧ (∀ a ∈ [2, 4, 6, 8, 10], (atWord (mw sqNext 6 0) (accWord a) openSect1).executes 0 3 0x221 (mw sqNext 6 0) (accWord a) 421)
      ∧ ((atWord (mw sqNext 6 0) (accWord 1) wroteSect).executes 0 3 0x221 (mw sqNext 6 0) (accWord 1) 421
        ∧ ((atWord (mw sqNext 6 0) (accWord 1) wroteSect).engine 0).buffered (SealWrite.ofSid (accAddr bankW (accWord 1) 0x200000 / 4)) = some 9)
      ∧ ((sCanWord.slot 0x1000).st = .queued ∧ (sCanWord.slot 0x1000).place ≠ .reserved
        ∧ sCanWord.executes 0 3 0x221 (mw sqNext 6 0) (accWord 10) 421 ∧ (bankW.gr (nAbase (accWord 10))).toNat % 2 ^ 14 = 0x1000)
      ∧ ((sInsWord.executes 0 3 0x221 (mw sqNext 6 0) (accWord 8) 421
        ∧ sInsWord.insertCode (entryIn bankIns (nAbase (accWord 8))) false = 0 ∧ sInsWord.freeHead = some 8)) := by
  refine ⟨?_, by decide +kernel, ?_,
    ⟨⟨fetches_of _ _ _ _ _ _ _ rtW (by decide +kernel), by decide +kernel⟩, by decide +kernel⟩,
    ⟨by decide +kernel, by decide +kernel, ⟨fetches_of _ _ _ _ _ _ _ rtW (by decide +kernel), by decide +kernel⟩, by decide +kernel⟩,
    ⟨⟨fetches_of _ _ _ _ _ _ _ rtW (by decide +kernel), by decide +kernel⟩, by decide +kernel⟩⟩
  rotate_left
  · intro a ha
    fin_cases ha <;> exact ⟨fetches_of _ _ _ _ _ _ _ rtW (by decide +kernel), by decide +kernel⟩
  intro a ha
  fin_cases ha <;> exact ⟨⟨fetches_of _ _ _ _ _ _ _ rtW (by decide +kernel), by decide +kernel⟩, by decide +kernel⟩

def badW : Nat := nw 0x19 1 2 3
def badStamp : Nat := nw 0x21 0x10 0x11 0x05

theorem wit_ReservedWordsFault :
    (atWord (mw sqNext 6 0) badW).fetches 0 3 0x221 (mw sqNext 6 0) badW 421 ∧ wordBad (mw sqNext 6 0) badW = true
      ∧ (atWord (mw sqNext 6 0) badW).enOn 0 MEN.CTL.FAULTPOL = false
      ∧ ((atWord (mw sqNext 6 0) badW).set1 MEN.CTL.FAULTPOL).enOn 0 MEN.CTL.FAULTPOL = true :=
  ⟨fetches_of _ _ _ _ _ _ _ rtW (by decide +kernel), by decide +kernel⟩

theorem wit_StampAluClamps :
    (atWord (mw sqNext 6 0) badStamp).fetches 0 3 0x221 (mw sqNext 6 0) badStamp 421 ∧ stampOp (nAlu badStamp) = true
      ∧ usesDst badStamp = true ∧ stampDstBad (nAlu badStamp) (nDst badStamp) = true :=
  ⟨fetches_of _ _ _ _ _ _ _ rtW (by decide +kernel), by decide +kernel⟩
/-! ### Ruling units -/

/-- Run, with ruling unit 0 in mode `m` as given. -/
def withRu (m : Nat) (x : Ruler) : State := { (dev .run).setF RUL.MODE.CODE m with raw := 420, rul := [(0, x)] }

def run1 : RuRun := { t := 25600, stop := 32000, k := 1, left := none }
def ruRun : Ruler := { ({} : Ruler) with st := .running, run := some run1, count := 1 }
def start1 : RuStart := { time := 32000, n := some 3, loaded := 400 }
def up1 : RuEdge := { time := 27000, up := true }
def down1 : RuEdge := { time := 29000, up := false }
def hiOut (es : List RuEdge) (lvl : Bool := false) : RuOut := { ({} : RuOut) with edges := es, lvl := lvl }

def sReload : State := withRu ruEdgeMode { ruRun with per := some (8192, 410), duty := some (100, 410) }
def sReloadHold : State := sReload.set1 RUL.CTL.UPD_HOLD
def sReloadLast : State := withRu ruBurst { ruRun with run := some { run1 with left := some 1 } }
def sFirst : State := withRu ruBurst { ({} : Ruler) with st := .armed, start := some start1 }
def sRise : State := withRu ruEdgeMode { ruRun with hi := hiOut [up1, down1] }
def sRiseLo : State := withRu ruEdgeMode { ruRun with lo := hiOut [up1, down1] }
def sShort : State := withRu ruEdgeMode { ruRun with hi := hiOut [up1, { time := 27050, up := false }] }
def sFall : State := withRu ruEdgeMode { ruRun with hi := hiOut [down1] true }
def sInstant : State := withRu ruBurst { ({} : Ruler) with st := .armed, start := some start1, next := some { run1 with t := 32000, stop := 40000 } }
def sStopIdle : State := withRu ruBurst { ({} : Ruler) with st := .idle, stop := some { time := 30000 } }
def sStopRun : State := withRu ruEdgeMode { ruRun with stop := some { time := 30000 }, hi := hiOut [down1] true }
def sRunEnd : State := withRu ruBurst { ruRun with run := some { run1 with left := some 0, fin := some 32000 }, st := .stopping }
def sRuIdle : State := withRu ruBurst { ({} : Ruler) with st := .idle }
def sRuOff : State := dev .run
def sRuHalt : State := { withRu ruBurst { ({} : Ruler) with st := .idle } with mode := .configure }
def sRuStarted : State := withRu ruBurst { ({} : Ruler) with st := .armed, start := some start1 }
def sRuFlt (latch : Nat) : State := ((withRu ruEdgeMode { ruRun with hi := hiOut [down1] true }).set1 RUL.FLT.EN).setF RUL.FLT.LATCH latch
def sRuFltIn (latch : Nat) : State := ((withRu ruEdgeMode { ruRun with fltIn := true }).set1 RUL.FLT.EN).setF RUL.FLT.LATCH latch
def sRuFaulted (inp : Bool) : State := withRu ruEdgeMode { ({} : Ruler) with st := .faulted, fltIn := inp }
def sRuHeld : State := sRuIdle.setHolder (rulReg RUL.OWN.HOLDER 0) 1 1
def sRuAbort : State := inAbort RUL.page.base (sStopRun.setHolder (rulReg RUL.OWN.HOLDER 0) 0x13 1)
def forceV : Word := 0x30
def sFollow : State := (withRu ruEdgeMode { ruRun with syncs := [30000] }).set1 RUL.CHAIN.SYNC_EN
def sReloadStop : State := withRu ruEdgeMode { ruRun with stop := some { time := 30000 } }
def sStretch : State := sShort.set1 RUL.MODE.MINPOL
def sCut : State := withRu ruEdgeMode { ruRun with hi := hiOut [{ down1 with cut := true }] true }
/-- HI falls, to rise again in less than MINP. -/
def sClose : State := withRu ruEdgeMode { ruRun with hi := hiOut [down1, { time := 29050, up := true }] true }
def sStopStart : State := withRu ruBurst { ({} : Ruler) with st := .armed, start := some start1, stop := some { time := 30000 } }
def sStopHard : State := sStopRun.set1 RUL.MODE.STOPMODE
def sModeFault : State := (withRu ruBurst { ({} : Ruler) with st := .idle, fltIn := true }).set1 RUL.FLT.LATCH
def sForced : State := sRuIdle.set1 RUL.OVR.FORCE

theorem wit_RulerPeriodsAndEdges :
    ((sReload.ruler 0).run = some run1 ∧ run1.fin = none ∧ (sReload.ruler 0).st ≠ .halted ∧ sReload.ruOn 0 RUL.CHAIN.SYNC_EN = false
        ∧ sReload.ruStopBy (sReload.ruler 0) run1.stop = false ∧ (sReload.ruler 0).per = some (8192, 410) ∧ 410 < run1.stop / 64 - 3
        ∧ sReload.ruOn 0 RUL.CTL.UPD_HOLD = false ∧ (sReload.ruler 0).freed < run1.stop / 64 - 3
        ∧ sReloadHold.ruOn 0 RUL.CTL.UPD_HOLD = true)
      ∧ ((sFirst.ruler 0).run = none ∧ (sFirst.ruler 0).start = some start1 ∧ (sFirst.ruler 0).next = none
        ∧ (sFirst.ruler 0).st ≠ .halted ∧ sFirst.ruBegin 0 (sFirst.ruler 0) start1 = some 32000
        ∧ sFirst.ruStopBy (sFirst.ruler 0) 32000 = false)
      ∧ ((sFollow.ruler 0).run = some run1 ∧ (if sFollow.ruOn 0 RUL.CHAIN.SYNC_EN then
            (sFollow.ruler 0).syncs.find? (fun t => decide (run1.t < t)) else some run1.stop) = some 30000
        ∧ sFollow.ruStopBy (sFollow.ruler 0) 30000 = false ∧ 30000 < run1.stop)
      ∧ (sReloadStop.ruStopBy (sReloadStop.ruler 0) run1.stop = true ∧ sReloadStop.ruOn 0 RUL.MODE.STOPMODE = false)
      ∧ ((sRise.ruView 0 (sRise.ruler 0)).hi.edges = [up1, down1] ∧ (sRise.ruler 0).frozen = none
        ∧ (sShort.ruView 0 (sShort.ruler 0)).hi.edges = [up1, { time := 27050, up := false }]
        ∧ (sFall.ruView 0 (sFall.ruler 0)).hi.edges = [down1])
      ∧ (sStretch.ruOn 0 RUL.MODE.MINPOL = true ∧ up1.moved = false
        ∧ (sStretch.ruView 0 (sStretch.ruler 0)).hi.edges = [up1, { time := 27050, up := false }])
      ∧ ((sCut.ruView 0 (sCut.ruler 0)).hi.edges = [{ down1 with cut := true }] ∧ (sCut.ruler 0).hi.lvl = true)
      ∧ ((sClose.ruView 0 (sClose.ruler 0)).hi.edges = [down1, { time := 29050, up := true }]
        ∧ sClose.ruNext 0 ((sClose.ruler 0).setOut true (((sClose.ruler 0).out true).drop down1)) true true = some 29050
        ∧ 29050 < 29000 + sClose.ruF 0 RUL.MINP.V
        ∧ sClose.ruHighIn 0 (sClose.ruSeen 0 ((sClose.ruler 0).setOut true (((sClose.ruler 0).out true).drop down1))) false 29000 29050 = false)
      ∧ ((sStopStart.ruler 0).start = some start1 ∧ (sStopStart.ruler 0).next = none
        ∧ sStopStart.ruBegin 0 (sStopStart.ruler 0) start1 = some 32000 ∧ sStopStart.ruStopTime { time := 30000 } ≤ 32000)
      ∧ ((sStopHard.ruler 0).run = some run1 ∧ sStopHard.ruOn 0 RUL.MODE.STOPMODE = true)
      ∧ (((sRise.ruler 0).out true).edges = [up1, down1] ∧ ((sRise.ruler 0).out true).lvl = false
        ∧ ((sRise.ruler 0).out false).lvl = false ∧ ((sRise.ruler 0).out false).fall = none ∧ ((sRise.ruler 0).out false).edges = []
        ∧ sRise.ruNext 0 ((sRise.ruler 0).setOut true (((sRise.ruler 0).out true).drop up1)) true false = some 29000
        ∧ 27000 + sRise.ruF 0 RUL.MINP.V ≤ 29000)
      ∧ (((sShort.ruler 0).out true).edges = [up1, { time := 27050, up := false }]
        ∧ sShort.ruNext 0 ((sShort.ruler 0).setOut true (((sShort.ruler 0).out true).drop up1)) true false = some 27050
        ∧ 27050 < 27000 + sShort.ruF 0 RUL.MINP.V ∧ sShort.ruOn 0 RUL.MODE.MINPOL = false)
      ∧ (((sFall.ruler 0).out true).edges = [down1] ∧ ((sFall.ruler 0).out true).lvl = true ∧ ((sFall.ruler 0).out true).least ≤ 29000
        ∧ (sFall.ruNext 0 ((sFall.ruler 0).setOut true (((sFall.ruler 0).out true).drop down1)) true true).all
            (fun r => decide (29000 + sFall.ruF 0 RUL.MINP.V ≤ r)) = true)
      ∧ ((sInstant.ruler 0).start = some start1 ∧ (sInstant.ruler 0).next = some { run1 with t := 32000, stop := 40000 }
        ∧ (sInstant.ruler 0).run = none)
      ∧ ((sStopIdle.ruler 0).stop = some { time := 30000 } ∧ (sStopIdle.ruler 0).run = none ∧ (sStopIdle.ruler 0).start = none)
      ∧ ((sStopRun.ruler 0).run = some run1 ∧ run1.t < sStopRun.ruStopTime { time := 30000 } ∧ sStopRun.ruOn 0 RUL.MODE.STOPMODE = false)
      ∧ ((sRunEnd.ruler 0).run = some { run1 with left := some 0, fin := some 32000 } ∧ (sRunEnd.ruler 0).st ≠ .halted) := by
  refine ⟨?_, ?_, ?_, ?_, ?_, ?_, ?_, ?_, ?_, ?_, ?_, ?_, ?_, ?_, ?_, ?_, ?_⟩ <;> decide +kernel

theorem wit_RulerControl :
    (sRuIdle.opens .pcie (rulReg RUL.MODE.CODE 0) = true ∧ (sRuIdle.ruler 0).st = .idle ∧ (sRuOff.ruler 0).st = .off
        ∧ (sRuIdle.ruler 0).start = none ∧ (sRuIdle.ruler 0).stop = none ∧ bitsAt (4 : Word).toNat 0 3 ≤ 4
        ∧ (sStopRun.ruler 0).st = .running ∧ (sRuIdle.ruler 0).fltIn = false
        ∧ (sModeFault.ruler 0).fltIn = true ∧ sModeFault.ruOn 0 RUL.FLT.LATCH = true ∧ (sModeFault.ruler 0).st = .idle)
      ∧ (sRuIdle.opens .pcie (rulReg RUL.CTL.UPD_HOLD 0) = true ∧ (1 : Word).getLsbD 2 = false
        ∧ (1 : Word).getLsbD 1 = sRuIdle.ruOn 0 RUL.CTL.HALTPOL)
      ∧ (sRuIdle.opens .pcie (rulReg RUL.ST_HI.V 0) = true ∧ sRuIdle.mode.quiet = false ∧ sRuIdle.ruNoStart 0 = false
        ∧ sRuHalt.mode.quiet = true ∧ sRuHalt.opens .pcie (rulReg RUL.ST_HI.V 0) = true ∧ sRuStarted.ruNoStart 0 = true)
      ∧ (sRuIdle.opens .pcie (rulReg RUL.SP_HI.V 0) = true ∧ sRuIdle.ruNoStop 0 = false
        ∧ sRuOff.opens .pcie (rulReg RUL.SP_HI.V 0) = true ∧ sRuOff.ruNoStop 0 = true)
      ∧ (sForced.ruOn 0 RUL.OVR.FORCE = true ∧ sForced.opens .pcie (rulReg RUL.OVR.SWAP 0) = true
        ∧ bitsAt (0x70 : Word).toNat 5 2 = 3 ∧ sRuIdle.ruOn 0 RUL.LIM.BOTHON = false)
      ∧ (sRuIdle.opens .pcie (rulReg RUL.OVR.SWAP 0) = true ∧ forceV.getLsbD 4 = true ∧ bitsAt forceV.toNat 5 2 ≠ 3)
      ∧ ((sRuFlt 1).mode.alive = true ∧ (sRuFlt 1).ruOn 0 RUL.FLT.EN = true ∧ ((sRuFlt 1).ruler 0).fltIn = false
        ∧ (sRuFlt 1).ruOn 0 RUL.FLT.LATCH = true ∧ ((sRuFlt 1).ruler 0).st = .running ∧ (sRuFlt 0).ruOn 0 RUL.FLT.LATCH = false)
      ∧ ((sRuFltIn 0).ruler 0).fltIn = true
      ∧ ((sRuFaulted false).opens .pcie (rulReg RUL.CTL.UPD_HOLD 0) = true ∧ ((sRuFaulted false).ruler 0).st = .faulted
        ∧ ((sRuFaulted true).ruler 0).fltIn = true)
      ∧ (sRuIdle.opens .pcie (rulReg RUL.OWN.HOLDER 0) = true ∧ sRuIdle.holderAt (rulReg RUL.OWN.HOLDER 0) = 0
        ∧ sRuHeld.opens .pcie (rulReg RUL.OWN.HOLDER 0) = true ∧ sRuHeld.holderAt (rulReg RUL.OWN.HOLDER 0) = Requester.pcie.id
        ∧ sRuHeld.holderAt (rulReg RUL.OWN.HOLDER 0) ≠ Requester.spi.id ∧ sRuHeld.opens .spi (rulReg RUL.OWN.HOLDER 0) = true)
      ∧ sRuAbort.aborting (RUL.page.base + pgAt 0) = true := by decide +kernel
/-! ### The proof ADC -/

/-- Run, converter A enabled, with sequencer 0 as given. -/
def withSq (x : Sequencer) : State := { (dev .run).set1 ADC.CTL.EN_A with raw := 420, adc := { ({} : Adc) with seqs := [(0, x)] } }

def seq1 : SeqRun := { first := 2, count := 2, start := 3000, tag := 9, trig := true, late := false, num := 4 }
def step1 (win : Option Nat) : StepRun := {
  k := 0, first := 3000, dec := 4, len := 8, made := 8, settle := 0, filt := 0, chan := none, win := win, input := 1, gain := 0
  g := 0, sub := 0, late := false, trig := true, tag := 9, epoch := 1, seq := 4 }
def trig1 : AdcTrig := { time := 30000, seq := 3, tag := 7, known := 480 }
def load1 : AdcLoad := { time := 30000, seq := 3, tag := 7, src := .slot 4 }

def sSample : State := withSq { ({} : Sequencer) with run := some { seq1 with step := some (step1 none) } }
def sSampleIdle : State := withSq {}
def mmcSums (p : Nat) : SMap MmcSum := [(0, { m := 4096 * 3, p := p, r := 5, c := 4096 })]
def sMmc (p : Nat) : State := { withSq {} with adc := { ({} : Adc) with streams := [(0, { ({} : AdcStream) with ready := some (mmcSums p, 1000000) })] } }
def sTgIn : State := ((withSq {}).set1 ADC.TG.EN).setF ADC.TG.SEQ 3
def sTrig : State := (withSq { ({} : Sequencer) with given := [trig1] }).set1 ADC.SEQDEF.VALID 12
def sLoad : State := (withSq { ({} : Sequencer) with loads := [load1] }).set1 ADC.SEQDEF.VALID 12
def sTrigBusy : State := (withSq { ({} : Sequencer) with given := [trig1], run := some { seq1 with start := 100000 } }).set1 ADC.SEQDEF.VALID 12
def sStepBegin : State := withSq { ({} : Sequencer) with run := some seq1 }
def sStepEnd (k : Nat) (w : Option Nat) : State :=
  { withSq { ({} : Sequencer) with run := some { seq1 with k := k, step := some (step1 w) } } with
    adc := { (withSq { ({} : Sequencer) with run := some { seq1 with k := k, step := some (step1 w) } }).adc with
      wins := [(5, { ({} : Window) with alloc := true, size := 2, base := 1, wp := 62 })] } }
def rec1 : OptRec := { bits := 2 ^ 100 + 640 }
def sOpt (fifo : List OptRec) : State := { withSq {} with adc := { ({} : Adc) with chans := [(3, { ({} : OptChan) with formed := [rec1], fifo := fifo, ovf := true })] } }
def sWin (x : Window) : State := { (withSq {}).set1 ADC.WCFG.DEST (winAt 5) with adc := { ({} : Adc) with wins := [(5, x)], frames := [(5, 0, 3), (6, 0, 1)] } }
def win1 : Window := { ({} : Window) with alloc := true, size := 2, base := 1, wp := 40, rp := 10 }
def allocV (n : Nat) : Word := word (2 ^ 29 + n)
def sWinHeld : State := (dev .run).setHolder (winReg ADC.WOWN.HOLDER 5) 1 1
def sNoRoom : State := { withSq {} with adc := { ({} : Adc) with wins := [(1, { ({} : Window) with alloc := true, size := 256 })] } }

def sTgKind : State := { sTgIn.set1 ADC.TG.KIND with adc := { sTgIn.adc with srcEdges := [(0, [30000, 31000])] } }
def sTrigIn : State := (withSq { ({} : Sequencer) with given := [{ trig1 with input := some 1, known := 490 }] }).set1 ADC.SEQDEF.VALID 12
def sTrigFull : State := { sTrigBusy with adc := { sTrigBusy.adc with seqs := [(0, { sTrigBusy.sqr 0 with queue := [trig1, trig1, trig1, trig1] })] } }
def sSampleTail : State := withSq { ({} : Sequencer) with tails := [{ step := { step1 none with len := 9 } }] }
def sStepWin : State :=
  { (sStepBegin.set1 ADC.STEP0.WIN_EN (stepAt 2)).setF ADC.STEP0.WIN 5 (stepAt 2) with
    adc := { sStepBegin.adc with wins := [(5, { ({} : Window) with alloc := true, size := 2, base := 1, wp := 10 })] } }
def sStepLost : State := { sStepWin with adc := { sStepWin.adc with wins := [] } }
def sStepQueue : State :=
  { sStepEnd 1 none with adc := { (sStepEnd 1 none).adc with seqs := [(0, { (sStepEnd 1 none).sqr 0 with queue := [{ trig1 with time := 100 }] })] } }
/-- The optical writer is busy, and its siding has given it the cycle of its last word. -/
def sOptBusy : State :=
  let s := sOpt [rec1]
  let i := s.ringWord 2 (s.hst.optWp + 12)
  { s with hst := { s.hst with optOut := some { bits := 5, done := 3, since := 490 } }, mem := { s.mem with granted := [(i / 32768, tagWriter 2)] } }
/-- The cycle after, as the writer has it. -/
def writes (s : State) : State := ({ s with raw := s.raw + 1 } : State).writeOn 2 4

theorem wit_AdcSequences :
    ((sSample.on ADC.CTL.PAIR = false ∧ sSample.mode.alive = true ∧ sSample.sqReady 0 = true ∧ (sSample.sqr 0).run ≠ none)
        ∧ (sSampleTail.mode.alive = true ∧ sSampleTail.sqReady 0 = true ∧ (sSampleTail.sqr 0).tails ≠ [])
        ∧ ((sSampleIdle.sqr 0).run = none ∧ (sSampleIdle.sqr 0).tails = [] ∧ sSampleIdle.sqReady 0 = true)
        ∧ ((dev .run).mode.alive && (dev .run).sqReady 0) = false)
      ∧ (((sMmc 100000).stream 0).ready = some (mmcSums 100000, 1000000) ∧ ((dev .run).stream 0).ready = none
        ∧ (mmcMean (mmcSums 36864) (slices 0)).2.sqrt.lt (F64.ofInt ((sMmc 36864).f ADC.MMC.ACT)) = true
        ∧ (mmcMean (mmcSums 1000000000) (slices 0)).2.sqrt.lt (F64.ofInt ((sMmc 0).f ADC.MMC.ACT)) = false)
      ∧ ((sTgIn.on ADC.TG.EN (4 * 0) = true ∧ sTgIn.on ADC.TG.KIND (4 * 0) = false ∧ (true != sTgIn.on ADC.TG.POL (4 * 0)) = true
          ∧ (false != sTgIn.on ADC.TG.POL (4 * 0)) = false ∧ sTgIn.mode.sequences = true ∧ sTgIn.mode.alive = true)
        ∧ ((dev .run).mode.alive && (dev .run).on ADC.TG.EN (4 * 0)) = false
        ∧ (sTgKind.mode.alive = true ∧ sTgKind.on ADC.TG.EN (4 * 0) = true ∧ sTgKind.on ADC.TG.KIND (4 * 0) = true
          ∧ SMap.get (fun _ => []) sTgKind.adc.srcEdges 0 = [30000, 31000]
          ∧ SMap.get (fun _ => []) (sTgIn.set1 ADC.TG.KIND).adc.srcEdges 0 = []))
      ∧ ((dev .run).nextTrig 0 = none
        ∧ (sTrig.nextTrig 0 = some (trig1, none) ∧ sTrig.on ADC.SEQDEF.VALID (4 * trig1.seq) = true ∧ sTrig.sqReady 0 = true
          ∧ (sTrig.sqr 0).run = none ∧ trig1.input = none)
        ∧ ((sTrigIn.nextTrig 0).map (fun p => p.1.input) = some (some 1) ∧ (sTrigIn.sqr 0).run = none
          ∧ sTrigIn.on ADC.SEQDEF.VALID (4 * 3) = true ∧ sTrigIn.sqReady 0 = true)
        ∧ ((sTrig.clr ADC.SEQDEF.VALID 12).nextTrig 0 = some (trig1, none) ∧ (sTrig.clr ADC.SEQDEF.VALID 12).on ADC.SEQDEF.VALID 12 = false)
        ∧ (sLoad.nextTrig 0).map (fun p => p.2) = some (some load1))
      ∧ ((sTrigBusy.nextTrig 0 = some (trig1, none) ∧ (sTrigBusy.sqr 0).run = some { seq1 with start := 100000 }
          ∧ sTrigBusy.on ADC.SEQDEF.VALID (4 * trig1.seq) = true ∧ sTrigBusy.sqReady 0 = true
          ∧ SeqRun.over { seq1 with start := 100000 } 0 trig1.time = false ∧ sTrigBusy.sqpol 0 = 0
          ∧ (sTrigBusy.sqr 0).queue.length < 4)
        ∧ (sTrigBusy.setF ADC.SQPOL.A 1).sqpol 0 = 1 ∧ (sTrigBusy.setF ADC.SQPOL.A 2).sqpol 0 = 2
        ∧ (sTrigFull.nextTrig 0 = some (trig1, none) ∧ sTrigFull.sqpol 0 ≠ 2 ∧ 4 ≤ (sTrigFull.sqr 0).queue.length))
      ∧ ((dev .run).sqr 0).run = none
      ∧ (((sStepBegin.sqr 0).run = some seq1 ∧ seq1.step = none)
        ∧ ((sStepWin.sqr 0).run = some seq1 ∧ sStepWin.on ADC.STEP0.WIN_EN (stepAt ((seq1.first + seq1.k) % 64)) = true
          ∧ (sStepWin.win 5).alloc = true ∧ (sStepWin.win 5).moving = none ∧ sStepWin.f ADC.STEP0.WIN (stepAt 2) = 5
          ∧ (10 + 2 * 32 - 0) % (2 * 32) + 0 + (32 + 2 * sStepWin.f ADC.STEP1.LEN (stepAt 2) + 31) / 32 + 1 ≤ 2 * 32)
        ∧ (sStepLost.win 5).alloc = false)
      ∧ (((sStepEnd 0 none).sqr 0).run = some { seq1 with step := some (step1 none) } ∧ (step1 none).len ≤ (step1 none).made
        ∧ (step1 none).win = none ∧ 0 + 1 < seq1.count ∧ seq1.count ≤ 1 + 1 ∧ ((sStepEnd 1 none).sqr 0).queue = []
        ∧ ((sStepEnd 0 (some 5)).sqr 0).run = some { seq1 with step := some (step1 (some 5)) }
        ∧ (32 + 2 * (step1 (some 5)).made + 31) / 32 ≤ ((sStepEnd 0 (some 5)).win 5).size * 32
        ∧ (step1 (some 5)).words.length ≤ (step1 (some 5)).made
        ∧ (sStepQueue.sqr 0).queue = [{ trig1 with time := 100 }]) := by
  refine ⟨?_, ?_, ?_, ?_, ?_, ?_, ?_, ?_⟩ <;> decide +kernel

theorem wit_AdcWindowsAndStamps :
    ((dev .run).chan 3).formed = []
      ∧ (((sOpt []).chan 3).formed = [rec1] ∧ ((sOpt []).chan 3).fifo.length < 8 ∧ 8 ≤ ((sOpt (List.replicate 8 rec1)).chan 3).fifo.length)
      ∧ ((writes (dev .run)).optNext = none
        ∧ ((writes (sOpt [rec1])).optNext = some 3 ∧ ((writes (sOpt [rec1])).chan 3).fifo = [rec1] ∧ (writes (sOpt [rec1])).writerFree 2 = true)
        ∧ (sOptBusy.writerOf 2 = some { bits := 5, done := 3, since := 490 } ∧ sOptBusy.mem.oneOut
          ∧ sOptBusy.mem.granted.contains (sOptBusy.ringWord 2 ((sOptBusy.ringPos 2).1 + 12) / 32768, tagWriter 2) = true)
        ∧ (writes { sOptBusy with mem := { sOptBusy.mem with granted := [], bankAt := [((sOptBusy.ringWord 2 (sOptBusy.hst.optWp + 12)) / 32768, 1000)] } }).writerFree 2 = false)
      ∧ (sOpt [rec1]).reaches .pcie = true
      ∧ ((dev .run).opens .pcie (winReg ADC.WCFG.SIZE 5) = true ∧ 1 ≤ bitsAt (allocV 256).toNat 0 9 ∧ bitsAt (allocV 256).toNat 0 9 ≤ 256
        ∧ bitsAt (allocV 0).toNat 0 9 < 1 ∧ 256 < bitsAt (allocV 257).toNat 0 9
        ∧ ((dev .run).win 5).alloc = false ∧ ((dev .run).win 5).moving = none ∧ (dev .run).fitAt 256 = some 0
        ∧ (sNoRoom.win 5).alloc = false ∧ (sNoRoom.win 5).moving = none ∧ sNoRoom.fitAt 1 = none)
      ∧ ((sWin win1).opens .pcie (winReg ADC.WCFG.SIZE 5) = true ∧ ((sWin win1).win 5).alloc = true ∧ ((sWin win1).win 5).moving = none
        ∧ ((sWin win1).win 5).sending = false ∧ (sWin win1).writing 5 = false
        ∧ (sWin win1).adc.frames.any (fun f => f.1 = 5) = true)
      ∧ (((sWin { win1 with moving := some (false, 410) }).win 5).moving = some (false, 410) ∧ ((dev .run).win 5).moving = none)
      ∧ ((sWin win1).opens .pcie (winReg ADC.WPTR.RP 5) = true ∧ (sWin win1).on ADC.WCFG.DEST (winAt 5) = true
        ∧ bitsAt (word (40 * 65536)).toNat 16 13 < 64 ∧ (40 + 64 - 10) % 64 ≤ (40 + 64 - 10) % 64
        ∧ bitsAt (word (41 * 65536)).toNat 16 13 = 41 ∧ (40 + 64 - 10) % 64 < (41 + 64 - 10) % 64
        ∧ (dev .run).opens .pcie (winReg ADC.WPTR.RP 5) = true ∧ (dev .run).on ADC.WCFG.DEST (winAt 5) = false)
      ∧ (sWinHeld.opens .pcie (winReg ADC.WOWN.HOLDER 5) = true ∧ sWinHeld.holderAt (winReg ADC.WOWN.HOLDER 5) = Requester.pcie.id
        ∧ sWinHeld.opens .spi (winReg ADC.WOWN.HOLDER 5) = true ∧ sWinHeld.holderAt (winReg ADC.WOWN.HOLDER 5) ≠ Requester.spi.id
        ∧ (dev .run).opens .pcie (winReg ADC.WOWN.HOLDER 5) = true ∧ (dev .run).holderAt (winReg ADC.WOWN.HOLDER 5) = 0)
      ∧ ((dev .run).opens .pcie ADC.CTL.EN_A.off = true ∧ (dev .run).adcWorks = false ∧ sTrigFull.opens .pcie ADC.CTL.EN_A.off = true
        ∧ sTrigFull.adcWorks = true ∧ bitsAt (0 : Word).toNat 0 3 ≠ bitsAt (sTrigFull.reg ADC.CTL.EN_A.off).toNat 0 3
        ∧ bitsAt (9 : Word).toNat 0 3 = bitsAt (sTrigFull.reg ADC.CTL.EN_A.off).toNat 0 3
        ∧ (4 : Word).getLsbD 2 ≠ (dev .run).on ADC.CTL.PAIR)
      ∧ (dev .run).aborting ADC.page.base = false
      ∧ (inAbort ADC.page.base sTrigBusy).aborting ADC.page.base = true := by
  refine ⟨?_, ?_, ?_, ?_, ?_, ?_, ?_, ?_, ?_, ?_, ?_, ?_⟩ <;> decide +kernel
/-! ### Shunters -/

/-- Shunter 2 as given, in Run, with the instruction word `w` at program counter 0x21, its divider at 2.5. -/
def withShn (x : Shunter) (w : Nat := 0) : State :=
  { ((dev .run).setF SHN.DIV.INT 2 (pgAt 2)).setF SHN.DIV.FRAC 128 (pgAt 2) with
    raw := 420, shn := [(2, x)], stores := { ({} : Stores) with prog := [(2 * 128 + 0x10, word (w * 65536))] } }

def shn1 : Shunter := {
  ({} : Shunter) with st := .running, rsn := 0, pc := 0x21, a := 0x80000012, b := 3, t := 900, l0 := 2, sw := 0xB1, rw := 5, sf := 6
                      rf := 3, tick := 421 * 256 + 77, pins := 0x0F, drv := 0xFF }

def atShn (w : Nat) : State := withShn shn1 w

/-- An instruction word of ch. 10: opcode and its other twelve bits. -/
def iw (op rest : Nat) : Nat := op * 4096 + rest

theorem shunts_of (s : State) (n : Nat) (op : ShOp) (w : Nat)
    (h : (s.shunter n).st = .running ∧ s.mode ≠ .halt ∧ s.shFetch n = w ∧ shOp w = op) : s.shunts n op w := h

def pinW (dl : Option Nat) (since : Nat := 415) : ShnWait := { pin := 3, pol := false, dl := dl, since := since }
def sAtWait (t : Nat) : State := withShn { shn1 with st := .atWait, target := some t }
def sPinWait (dl : Option Nat) (since : Nat := 415) : State := withShn { shn1 with st := .pinWait, wait := some (pinW dl since) }
def sLoadStall : State := withShn { shn1 with st := .loadStall, tx := [7, 8] } (iw 6 0)
def sStoreStall : State := withShn { shn1 with st := .storeStall, rx := [7, 8] } (iw 7 0)
def sTx (on loop : Bool) (len : Nat) (x : Shunter) : State :=
  let s := (withShn x).setF SHN.TXDMA_LEN.LEN len (pgAt 2)
  let s := if on then s.set1 SHN.TXDMA_LEN.EN (pgAt 2) else s
  if loop then s.set1 SHN.TXDMA_LEN.LOOP (pgAt 2) else s
def sRx (size : Nat) (x : Shunter) : State := ((withShn x).setF SHN.RXDMA_CFG.SIZE size (pgAt 2)).set1 SHN.RXDMA_CFG.EN (pgAt 2)

def shnStart1 : ShnStart := { time := 30000, addr := 0x44, grp := false, src := .slot 6 }
def sShnHalted : State := withShn { shn1 with st := .halted }
def sShnStart : State := withShn { shn1 with st := .halted, start := some shnStart1 }

def sPinSeen (dl : Option Nat) : State := withShn { shn1 with st := .pinWait, wait := some { pinW dl with pol := true } }
def shnHold (s : State) : State := { s with mem := { s.mem with bankAt := [(0, 1000)] } }
def sSendStall : State := (withShn { shn1 with st := .loadStall, tx := [7], sf := 0 } (iw 4 0x250)).set1 SHN.SHCFG.AUTOLOAD (pgAt 2)
def sShnGroup : State :=
  ({ withShn shn1 with shn := [(2, { shn1 with st := .halted, start := some { shnStart1 with grp := true } }), (3, shn1)] } : State).setF
    SHN.GRP.V 9 (pgAt 2)
def sTakeFull (k : Nat) : State :=
  ((withShn { shn1 with rf := 30, rx := List.replicate k 1 } (iw 5 0x850)).set1 SHN.SHCFG.AUTOSTORE (pgAt 2)).setF SHN.SHCFG.RLEN 24 (pgAt 2)

theorem wit_ShunterInstructions :
    ((withShn { shn1 with st := .halted } 0).shunter 2).st ≠ .running
      ∧ ((atShn (iw 0 0x140)).shunts 2 .br (iw 0 0x140) ∧ (atShn (iw 1 0x810)).shunts 2 .loop (iw 1 0x810)
        ∧ (atShn (iw 2 0)).shunts 2 .at_ (iw 2 0) ∧ (atShn (iw 3 0x980)).shunts 2 .wait (iw 3 0x980))
      ∧ ((atShn (iw 4 0x250)).shunts 2 .send (iw 4 0x250) ∧ (atShn (iw 4 0x250)).shOn 2 SHN.SHCFG.AUTOLOAD = false
        ∧ ((withShn { shn1 with sf := 0 } (iw 4 0x250)).set1 SHN.SHCFG.AUTOLOAD (pgAt 2)).shunts 2 .send (iw 4 0x250)
        ∧ ((withShn { shn1 with sf := 0 } (iw 4 0x250)).set1 SHN.SHCFG.AUTOLOAD (pgAt 2)).shOn 2 SHN.SHCFG.AUTOLOAD = true)
      ∧ ((atShn (iw 5 0x850)).shunts 2 .take (iw 5 0x850) ∧ (atShn (iw 5 0x850)).shOn 2 SHN.SHCFG.AUTOSTORE = false
        ∧ ((sTakeFull 7).shunts 2 .take (iw 5 0x850) ∧ (sTakeFull 7).shOn 2 SHN.SHCFG.AUTOSTORE = true
          ∧ len32 ((sTakeFull 7).shF 2 SHN.SHCFG.RLEN) ≤ min 32 (30 + 5))
        ∧ ((sTakeFull 8).shunts 2 .take (iw 5 0x850) ∧ 8 ≤ ((sTakeFull 8).shunter 2).rx.length))
      ∧ ((atShn (iw 6 1)).shunts 2 .load (iw 6 1) ∧ (withShn { shn1 with tx := [4, 5] } (iw 6 0)).shunts 2 .load (iw 6 0))
      ∧ ((atShn (iw 7 0)).shunts 2 .store (iw 7 0)
        ∧ (withShn { shn1 with rx := List.replicate 8 1 } (iw 7 1)).shunts 2 .store (iw 7 1))
      ∧ ((atShn (iw 8 0x041)).shunts 2 .copy (iw 8 0x041) ∧ (atShn (iw 9 0x4FF)).shunts 2 .ldi (iw 9 0x4FF)
        ∧ (atShn (iw 10 0xBFF)).shunts 2 .add (iw 10 0xBFF) ∧ (atShn (iw 11 0x0A5)).shunts 2 .sig (iw 11 0x0A5)
        ∧ (atShn (iw 12 0xFFF)).shunts 2 .lcnt (iw 12 0xFFF) ∧ (atShn (iw 13 0)).shunts 2 .halt (iw 13 0)
        ∧ (atShn (iw 14 0)).shunts 2 .reserved (iw 14 0) ∧ (atShn (iw 13 1)).shunts 2 .reserved (iw 13 1)) := by
  refine ⟨?_, ⟨?_, ?_, ?_, ?_⟩, ⟨?_, ?_, ?_, ?_⟩, ⟨?_, ?_, ⟨?_, ?_, ?_⟩, ?_, ?_⟩, ⟨?_, ?_⟩, ⟨?_, ?_⟩, ?_, ?_, ?_, ?_, ?_, ?_, ?_, ?_⟩ <;>
    first | decide +kernel | exact shunts_of _ _ _ _ (by decide +kernel)

theorem wit_ShunterWaitsAndFifos :
    (((withShn shn1).shunter 2).target = none)
      ∧ (((sAtWait 900).shunter 2).target = some 900 ∧ ((sAtWait 900).shunter 2).st = .atWait ∧ (sAtWait 900).mode ≠ .halt)
      ∧ (((withShn shn1).shunter 2).wait = none
        ∧ (((sPinWait (some 900)).shunter 2).wait = some (pinW (some 900)) ∧ (sPinWait (some 900)).mode ≠ .halt
          ∧ ({ sPinWait (some 900) with raw := 420 } : State).pinSeen 2 3 420 false ≠ false
          ∧ (sPinWait (some 900)).shDeadline (pinW (some 900)) = some 900 ∧ (sPinWait none).shDeadline (pinW none) = none
          ∧ ({ sPinWait (some 900) with raw := 900 } : State).pinThen 2 3 900 ≠ some false)
        ∧ (((sPinSeen none).shunter 2).wait = some { pinW none with pol := true }
          ∧ ({ sPinSeen none with raw := 420 } : State).pinSeen 2 3 420 true = true
          ∧ (sPinSeen (some 420)).shDeadline { pinW (some 420) with pol := true } = some 420
          ∧ (sPinSeen (some 417)).shDeadline { pinW (some 417) with pol := true } = some 417
          ∧ ({ sPinSeen (some 900) with raw := 900 } : State).pinThen 2 3 900 = some true))
      ∧ (((withShn shn1).shunter 2).st ≠ .loadStall ∧ ((withShn shn1).shunter 2).st ≠ .storeStall)
      ∧ ((sLoadStall.mode ≠ .halt ∧ (sLoadStall.shunter 2).st = .loadStall ∧ sLoadStall.shDiv 2 ≠ 0 ∧ (sLoadStall.shunter 2).tx = [7, 8]
          ∧ shOp (sLoadStall.shFetch 2) = .load)
        ∧ ((sSendStall.shunter 2).st = .loadStall ∧ (sSendStall.shunter 2).tx = [7] ∧ shOp (sSendStall.shFetch 2) = .send
          ∧ sSendStall.shOn 2 SHN.SHCFG.AUTOLOAD = true ∧ (sSendStall.shunter 2).sf = 0)
        ∧ ((sStoreStall.shunter 2).st = .storeStall ∧ (sStoreStall.shunter 2).rx.length < 8 ∧ shOp (sStoreStall.shFetch 2) = .store))
      ∧ ((withShn shn1).opens .pcie (shnReg SHN.TXF.V 2) = true ∧ (withShn shn1).shOn 2 SHN.TXDMA_LEN.EN = false
        ∧ 0 < ((withShn shn1).shunter 2).txFree ∧ (sTx true false 4 shn1).shOn 2 SHN.TXDMA_LEN.EN = true
        ∧ (Shunter.txFree { shn1 with tx := List.replicate 8 1 }) = 0)
      ∧ ((withShn { shn1 with rx := [9] }).reachable .pcie = true ∧ (withShn { shn1 with rx := [9] }).shOn 2 SHN.RXDMA_CFG.EN = false
        ∧ ((withShn { shn1 with rx := [9] }).shunter 2).rx = [9] ∧ ((withShn shn1).shunter 2).rx = []
        ∧ (sRx 4 shn1).shOn 2 SHN.RXDMA_CFG.EN = true ∧ (sRx 4 shn1).reachable .pcie = true)
      ∧ ((sTx true false 4 shn1).shOn 2 SHN.TXDMA_LEN.EN = true ∧ ((sTx true false 4 shn1).shunter 2).issued < (sTx true false 4 shn1).shF 2 SHN.TXDMA_LEN.LEN
        ∧ ((sTx true false 4 shn1).shunter 2).flight.length < 2 ∧ 0 < ((sTx true false 4 shn1).shunter 2).txFree
        ∧ (sTx true false 4 shn1).dmaReady ((sTx true false 4 shn1).txWord 2 0 % 2 ^ 19 / 32768) (9 + 2) = true
        ∧ (shnHold (sTx true false 4 shn1)).dmaReady ((sTx true false 4 shn1).txWord 2 0 % 2 ^ 19 / 32768) (9 + 2) = false)
      ∧ ((withShn shn1).shunter 2).flight = []
      ∧ (((sTx true false 4 { shn1 with flight := [(6, true)] }).shunter 2).flight = [(6, true)]
        ∧ ((sTx true false 4 { shn1 with flight := [(6, false)] }).shunter 2).flight = [(6, false)]
        ∧ 0 + 1 < (sTx true false 4 shn1).shF 2 SHN.TXDMA_LEN.LEN ∧ (sTx true false 4 shn1).shF 2 SHN.TXDMA_LEN.LEN ≤ 3 + 1
        ∧ (sTx true false 4 shn1).shOn 2 SHN.TXDMA_LEN.LOOP = false ∧ (sTx true true 4 shn1).shOn 2 SHN.TXDMA_LEN.LOOP = true)
      ∧ ((sRx 4 { shn1 with rx := [9] }).shOn 2 SHN.RXDMA_CFG.EN = true ∧ ((sRx 4 { shn1 with rx := [9] }).shunter 2).rx = [9]
        ∧ (sRx 4 { shn1 with rx := [9] }).shF 2 SHN.RXDMA_CFG.SIZE = 4 ∧ ((sRx 4 { shn1 with rx := [9] }).shunter 2).rp = 0
        ∧ (sRx 4 { shn1 with rx := [9] }).dmaReady ((sRx 4 { shn1 with rx := [9] }).rxWord 2 0 % 2 ^ 19 / 32768) (25 + 2) = true
        ∧ (shnHold (sRx 4 { shn1 with rx := [9] })).dmaReady ((sRx 4 { shn1 with rx := [9] }).rxWord 2 0 % 2 ^ 19 / 32768) (25 + 2) = false
        ∧ (sRx 0 shn1).shF 2 SHN.RXDMA_CFG.SIZE = 0) := by
  refine ⟨?_, ?_, ?_, ?_, ?_, ?_, ?_, ?_, ?_, ?_, ?_⟩ <;> decide +kernel

theorem wit_ShunterControl :
    (sShnHalted.reachable .pcie = true ∧ (sShnHalted.shunter 2).st = .halted ∧ sShnHalted.shStarts 2 = false
        ∧ ((withShn shn1).shunter 2).st ≠ .halted ∧ (withShn shn1).reachable .pcie = true)
      ∧ (sShnHalted.shunter 2).start = none
      ∧ ((sShnStart.mode ≠ .halt ∧ (sShnStart.shunter 2).start = some shnStart1 ∧ (sShnStart.shunter 2).st = .halted
          ∧ (sShnStart.shunter 2).haltAt = none ∧ sShnStart.shOn 2 SHN.CTL.KEEP_SHIFT = false)
        ∧ (sShnStart.set1 SHN.CTL.KEEP_SHIFT (pgAt 2)).shOn 2 SHN.CTL.KEEP_SHIFT = true
        ∧ ((sShnGroup.shunter 2).start = some { shnStart1 with grp := true } ∧ bitsAt (sShnGroup.shF 2 SHN.GRP.V) 0 1 = 1
          ∧ (sShnGroup.shunter 0).st = .halted ∧ bitsAt (sShnGroup.shF 2 SHN.GRP.V) 3 1 = 1 ∧ (sShnGroup.shunter 3).st ≠ .halted)
        ∧ ((withShn { shn1 with start := some shnStart1 }).shunter 2).st ≠ .halted)
      ∧ (sShnHalted.opens .pcie (shnReg SHN.CTL.START 2) = true ∧ sShnHalted.mode.quiet = false
        ∧ ({ sShnHalted with mode := .configure } : State).opens .pcie (shnReg SHN.CTL.START 2) = true
        ∧ Mode.quiet .configure = true ∧ (withShn shn1).opens .pcie (shnReg SHN.CTL.START 2) = true
        ∧ sShnHalted.shOn 2 SHN.TXDMA_LEN.EN = false ∧ sShnHalted.shOn 2 SHN.RXDMA_CFG.EN = false
        ∧ bitsAt ((sShnHalted.setF SHN.GRP.V 8 (pgAt 2)).shF 2 SHN.GRP.V) 3 1 = 1
        ∧ bitsAt ((sShnHalted.setF SHN.GRP.V 8 (pgAt 2)).shF 2 SHN.GRP.V) 4 1 = 0)
      ∧ sShnStart.aborting (SHN.page.base + pgAt 2) = false
      ∧ (inAbort (SHN.page.base + pgAt 2) sShnStart).aborting (SHN.page.base + pgAt 2) = true := by
  refine ⟨?_, ?_, ?_, ?_, ?_, ?_⟩ <;> decide +kernel
/-! ### Memory -/

/-- Run, with the memory as given. -/
def withMem (m : Mem) : State := { dev .run with raw := 420, mem := m }

def eng (k : Fin 8) : Requester := .engine k
def engW : Wait := { sid := 1, idx := 32773, req := eng 3, kind := .engWrite 0xAB, since := 415 }
def engR : Wait := { engW with kind := .engRead 2 5 411 }
def dmaW : Wait := { sid := 1, idx := 32773, req := .tbu, kind := .dma 4, since := 300 }
def pA : Wait := { engW with sid := 16, idx := 9 }
def pB : PortB := { req := some .pcie, idx := 9, val := 0x77665544, be := 5, write := true }

def sGrant (k : WaitKind) (m : Mem := {}) : State := withMem { m with waits := [dmaW, { engW with kind := k }] }
def sRewrite : State := withMem { ({} : Mem) with rewrites := [eccKey stIcb 9], ecc := [(eccKey stIcb 9, 1)] }
def sPortA (k : WaitKind) (bs : List PortB := []) : State := withMem { ({} : Mem) with portA := [{ pA with kind := k }], portB := bs }
def sPortB (w : Bool) : State := withMem { ({} : Mem) with portB := [{ pB with write := w }], icb := [(9, 0x11223344)] }
def sScrubW (e : Nat) : State := (withMem { ({} : Mem) with ecc := [(eccKey stRing 0, e)] }).set1 MEM.CTL.SCRUB_EN

def sCopy (p : Nat) : State := withMem { ({} : Mem) with bgtPhase := p, bgtSid := 1, bgtPtr := 40, copyReg := some (39, 77, 0) }
def sCopyDma : State := sGrant (.dma 3) { (sCopy 0).mem with passed := 32 }
def freeS (d : Nat) (s : State) : Option Wait := s.pickAt d (s.mem.waits.filter (fun x => x.sid = d))
def sOrder : State := withMem { ({} : Mem) with waits := [{ engW with since := 400 }, { engW with kind := .commit 5, since := 402 }, dmaW] }

theorem wit_MemoryAccesses :
    (freeS 1 sOrder = some { engW with since := 400 }
        ∧ freeS 1 (sGrant (.commit 9)) = some { engW with kind := .commit 9 })
      ∧ ((freeS 1 (withMem { ({} : Mem) with bgtPhase := 3 }) = none ∧ (withMem { ({} : Mem) with bgtPhase := 3 }).copyWaits 1 420 = false)
        ∧ (freeS 1 (sCopy 0) = none ∧ (sCopy 0).copyWaits 1 420 = true ∧ (sCopy 2).copyWaits 1 420 = true
          ∧ freeS 1 { sCopyDma with mem := { sCopyDma.mem with waits := [dmaW] } } = some dmaW)
        ∧ freeS 1 (sGrant (.engWrite 5)) = some { engW with kind := .engWrite 5 }
        ∧ freeS 1 (sGrant (.engRead 2 5 411)) = some engR
        ∧ freeS 1 (withMem { ({} : Mem) with waits := [{ dmaW with kind := .hostRead }] }) = some { dmaW with kind := .hostRead }
        ∧ freeS 1 (withMem { ({} : Mem) with waits := [{ dmaW with kind := .hostWrite 7 5 }] }) = some { dmaW with kind := .hostWrite 7 5 }
        ∧ (withMem { ({} : Mem) with ecc := [(eccKey stLog 32773, 2)] }).ecc ((withMem {}).logHome 32773).1 ((withMem {}).logHome 32773).2 = 2
        ∧ ((sCopy 0).mem.copyReg = some (39, 77, 0) ∧ (sCopy 0).mem.bgtSid = 1 ∧ (sCopy 0).mem.copyAt < 420 ∧ (WaitKind.engWrite 5).stores = true
          ∧ (WaitKind.hostRead).stores = false ∧ (sCopy 0).mem.oneOut)
        ∧ freeS 1 (withMem { ({} : Mem) with waits := [dmaW] }) = some dmaW)
      ∧ (withMem {}).mem.rewrites.find? (withMem {}).bankIdle = none
      ∧ (sRewrite.mem.rewrites.find? sRewrite.bankIdle = some (eccKey stIcb 9) ∧ sRewrite.ecc stIcb 9 = 1)
      ∧ (withMem {}).starving 1 = none
      ∧ (sGrant (.engWrite 5)).starving 1 = some dmaW
      ∧ ((pickWait (sPortA (.engWrite 6)).mem.portA (SMap.get (fun _ => 7) (sPortA (.engWrite 6)).mem.lastEng 16) 0
          = some { pA with kind := .engWrite 6 } ∧ pickB (sPortA (.engWrite 6)).mem.lastB (sPortA (.engWrite 6)).mem.portB = none)
        ∧ (pickWait (withMem {}).mem.portA 7 0 = none ∧ pickB 0 ((withMem {}).mem.portB) = none)
        ∧ (pickWait (sPortA (.engWrite 6) [pB]).mem.portA 7 0 = some { pA with kind := .engWrite 6 }
          ∧ pickB 0 ((sPortA (.engWrite 6) [pB]).mem.portB.filter
              (fun b => !(sPortA (.engWrite 6) [pB]).heldB (some { pA with kind := .engWrite 6 }) b)) = some pB
          ∧ collided 6 pB.val pB.be ≠ 0 ∧ collided 0x77665544 pB.val pB.be = 0)
        ∧ pickWait (sPortA (.engRead 2 5 411) [pB]).mem.portA 7 0 = some { pA with kind := .engRead 2 5 411 }
        ∧ ((sPortB true).mem.portA = [] ∧ pickB (sPortB true).mem.lastB (sPortB true).mem.portB = some pB
          ∧ pickB (sPortB false).mem.lastB (sPortB false).mem.portB = some { pB with write := false }))
      ∧ ((sScrubW 1).on MEM.CTL.SCRUB_EN = true ∧ (sScrubW 1).scrubFree 5 = true ∧ (sScrubW 0).ecc 5 0 = 0 ∧ (sScrubW 1).ecc 5 0 = 1
        ∧ (sScrubW 2).ecc 5 0 = 2 ∧ ((sScrubW 1).clr MEM.CTL.SCRUB_EN).on MEM.CTL.SCRUB_EN = false) := by
  refine ⟨?_, ?_, ?_, ?_, ?_, ?_, ?_, ?_⟩ <;> decide +kernel

def sBgt (phase ptr sid : Nat) : State :=
  (withMem { ({} : Mem) with bgtPhase := phase, bgtPtr := ptr, bgtSid := sid, copyReg := some (32767, 0xC0FFEE, 0), testEnds := 90000
                             log := [(5, 1), (sid * 32768 + 7, 2)], relief := [(7, 2)] }).set1 MEM.BGT.EN

theorem wit_BackgroundTest :
    ((sBgt 1 0 3).copyOver 0 = false ∧ (sBgt 1 0 3).copyOver 2 = false ∧ (sBgt 0 0 3).mem.bgtPhase ≠ 1)
      ∧ (sBgt 0 32768 3).copyOver 0 = true
      ∧ ((sBgt 1 0 3).mem.bgtPhase = 1 ∧ (sBgt 1 0 3).mode ≠ .halt)
      ∧ ((sBgt 2 32768 15).copyOver 2 = true ∧ (sBgt 2 32768 15).on MEM.BGT.EN = true ∧ (sBgt 2 32768 15).mem.bgtSid = 15
        ∧ ((sBgt 2 32768 3).clr MEM.BGT.EN).on MEM.BGT.EN = false ∧ ((sBgt 2 32768 3).clr MEM.BGT.EN).copyOver 2 = true)
      ∧ ((mkr ((sBgt 3 0 3).clr MEM.BGT.EN)).opens .pcie MEM.BGT.EN.off = true
        ∧ (mkr ((sBgt 3 0 3).clr MEM.BGT.EN)).hasRole .pcie .maker = true ∧ (sBgt 3 0 3).hasRole .pcie .maker = false
        ∧ (mkr ((sBgt 3 0 3).clr MEM.BGT.EN)).on MEM.BGT.EN = false ∧ (mkr ((sBgt 3 0 3).clr MEM.BGT.EN)).on MEM.STS.RETIRED = false
        ∧ (2 ^ 31 : Word).getLsbD 31 = true ∧ (mkr (sBgt 0 0 3)).on MEM.BGT.EN = true ∧ (mkr (sBgt 0 0 3)).mem.bgtPhase ≠ 3)
      ∧ (sBgt 0 0 3).aborting MEM.page.base = false
      ∧ (inAbort MEM.page.base (sGrant (.engWrite 5))).aborting MEM.page.base = true := by
  refine ⟨?_, ?_, ?_, ?_, ?_, ?_, ?_⟩ <;> decide +kernel
/-! ### The host link -/

/-- Run with the link up, stream 0 enabled with the given state, one record in its ring. -/
def withStream (x : Stream) (coal : Nat := 3) : State :=
  let s := ((((dev .run).set1 HST.LINK.UP).setF HST.SCFG.LOGN 3).setF HST.SCFG.SLOTSZ 0).set1 HST.SCFG.EN
  { s.setF HST.SCFG.COAL coal with raw := 420, hst := { s.hst with streams := [(0, x)], stampWp := 16 } }

def oslot (k : Nat) (p : Bool := false) : OpenSlot := { idx := 5, payload := List.replicate k 7, opened := 412, size := 64, polled := p }
def stream1 : Stream := { ({} : Stream) with g := 8, c := 6, r := 4, slot := some (oslot 16), unrep := 1, loss := true }
def sVec (pba : List Nat) : State :=
  let s := (((withStream stream1).set1 HST.IRQ_RAW.DB_ERR).setF HST.IRQ_EN.V (2 ^ 9)).setReg (HST.VMAP.VEC0.off + 8) 0x80000000
  { s with hst := { s.hst with unmasked := [0], pba := pba } }

def sLogBus : State := { dev .run with raw := 420, mem := { ({} : Mem) with log := [(40000, 0x1234)] } }

def sHold (k : Nat) (p : Bool := false) : State :=
  let s := withStream { stream1 with slot := some { oslot k p with ends := [(2, 3)] } }
  if p then s.set1 HST.SCFG.POLL else s

theorem wit_HostStreams :
    (((withStream { stream1 with slot := none }).stOn 0 HST.SCFG.EN && ((withStream { stream1 with slot := none }).hstream 0).slot.isNone
          && (withStream { stream1 with slot := none }).hasPayload 0 && (withStream stream1).on HST.LINK.UP
          && decide (stream1.g ≠ stream1.c)) = true ∧ ((withStream stream1).hstream 0).slot.isNone = false)
      ∧ ((withStream { stream1 with slot := none }).hstream 0).slot = none
      ∧ (((sHold 48).hstream 0).slot = some { oslot 48 with ends := [(2, 3)] } ∧ (sHold 48).mustClose 0 = true
        ∧ (oslot 48).polled = false ∧ (oslot 48 true).polled = true ∧ (sHold 48).stF 0 HST.SCFG.WGT ≠ 0
          ∧ ((sHold 48 true).hstream 0).slot = some { oslot 48 true with ends := [(2, 3)] }
        ∧ ((sHold 48 true).hstream 0).poll = [] ∧ (sHold 48 true).mustClose 0 = true
        ∧ (sHold 16).mustClose 0 = false ∧ (sHold 16).stF 0 HST.SCFG.COAL ≠ 0)
      ∧ ((withStream { stream1 with unrep := 0 }).hstream 0).unrep = 0
      ∧ (((withStream stream1).hstream 0).unrep ≠ 0 ∧ ((withStream stream1).hstream 0).restart = false
        ∧ (withStream stream1).stOn 0 HST.SCFG.POLL = false ∧ (withStream stream1).stF 0 HST.SCFG.WGT ≠ 0)
      ∧ ((withStream stream1).opens .pcie (stReg HST.SDB.V 0) = true
        ∧ (12 + 2 ^ 32 - 4) % 2 ^ 32 ≤ 2 ^ (withStream stream1).stF 0 HST.SCFG.LOGN ∧ (12 + 2 ^ 32 - 8) % 2 ^ 32 < 2 ^ 31
        ∧ 2 ^ (withStream stream1).stF 0 HST.SCFG.LOGN < (13 + 2 ^ 32 - 4) % 2 ^ 32
        ∧ 2 ^ 31 ≤ (7 + 2 ^ 32 - 8) % 2 ^ 32
        ∧ ((withStream stream1).set1 HST.SCFG.POLL).opens .pcie (stReg HST.SDB.V 0) = true
        ∧ ((withStream stream1).set1 HST.SCFG.POLL).stOn 0 HST.SCFG.POLL = true)
      ∧ ((withStream { stream1 with poll := [6, 7] }).reaches .pcie = true
        ∧ ((withStream { stream1 with poll := [6, 7] }).hstream 0).poll = [6, 7]
        ∧ ((withStream { stream1 with poll := [7], pollNext := [[1, 2]] }).hstream 0).pollNext = [[1, 2]])
      ∧ ((sVec []).opens .pcie HST.VACK.V.off = true ∧ 0 ∈ (sVec []).vectors ∧ (sVec []).on HST.LINK.UP = true ∧ 0 ∈ (sVec []).hst.unmasked
        ∧ ((sVec []).clr HST.LINK.UP).opens .pcie HST.VACK.V.off = true ∧ 0 ∈ ((sVec []).clr HST.LINK.UP).vectors
        ∧ ((sVec []).clr HST.LINK.UP).on HST.LINK.UP = false ∧ 9 ∉ (sVec []).vectors ∧ 0 ∈ (sVec [0]).hst.pba ∧ 0 ∈ (sVec [0]).vectors)
      ∧ ((dev .run).mode.powered = true ∧ (dev .run).mode ≠ .boot ∧ (dev .run).pwr.held = none ∧ (dev .run).on HST.LINK.LINKSEL = false)
      ∧ ((inst (sVec [])).session .pcie).role = .installer ∧ (dev .run).on HST.LINK.UP = false
      ∧ (dev .run).aborting HST.page.base = false ∧ (inAbort HST.page.base (sHold 48)).aborting HST.page.base = true
        ∧ ∀ m : StreamId, (inAbort HST.page.base (sHold 48)).stF m.val HST.SCFG.WGT ≠ 0 := by
  refine ⟨?_, ?_, ?_, ?_, ?_, ?_, ?_, ?_, ?_, ?_, ?_, ?_, ?_, ?_⟩ <;> decide +kernel

/-- A host access to word 40000 of the log store window. -/
def atLog (r : Requester) (k : WaitKind) : Wait := { sid := 1, idx := 40000, req := r, kind := k, since := 420 }

/-- The log store's word 40000 is bad, siding 1 busy. -/
def sLogBusy : State :=
  { sLogBus with mem := { sLogBus.mem with bankAt := [(1, 600)], ecc := [(eccKey stLog 40000, 2)] } }

theorem wit_BusAccesses :
    ((dev .run).opens .pcie (rulReg RUL.BCNT.V 3) = true ∧ rangeBad RUL.BCNT.fields 77 = false)
      ∧ ((dev .run).opens .pcie (rulReg RUL.LIM.MINDT 3) = true ∧ rangeBad RUL.LIM.fields 0x105 = false
        ∧ (dev .run).hasRole .pcie .installer = false ∧ (dev .run).sealed (RUL.page.base + pgAt 3) = false)
      ∧ (regAt (RUL.page.base + pgAt 3 + 0x5C) ≠ none ∧ (dev .run).opens .pcie (RUL.page.base + pgAt 3 + 0x5C) = true
        ∧ rangeBad (fieldsAt (RUL.page.base + pgAt 3 + 0x5C)) (0 : Word).toNat = true
        ∧ rangeBad (fieldsAt (RUL.page.base + pgAt 3 + 0x5C)) (9 : Word).toNat = false)
      ∧ ((dev .boot).reachable .pcie = false ∧ (dev .run).reaches .pcie = true)
      ∧ (regAt (0x1FFFFF / 4 * 4) = none ∧ regAt 0x1FFFFC = none ∧ (dev .run).pageWindow 0x1FFFFC = none ∧ 0x1FFFFC % 4096 = 4092)
      ∧ (sLogBus.reaches .pcie = true ∧ sLogBus.reaches .spi = true ∧ sLogBus.mem.oneOut
        ∧ (dev .configure).reaches .pcie = true ∧ (dev .configure).hasRole .pcie .maker = false
        ∧ sLogBus.admits 1 (atLog .pcie (.hostWrite 7 15)) = true ∧ sLogBus.admits 1 (atLog .spi (.hostWrite 7 15)) = true
        ∧ sLogBus.admits 1 (atLog .pcie .hostRead) = true ∧ sLogBus.admits 1 (atLog .spi .hostRead) = true
        ∧ sLogBusy.admits 1 (atLog .pcie .hostRead) = false ∧ sLogBus.mem.waits = []
        ∧ sLogBusy.ecc (sLogBusy.logHome 40000).1 (sLogBusy.logHome 40000).2 = 2)
      ∧ ((mkr (dev .factory)).reaches .pcie = true ∧ (dev .factory).mode = .factory ∧ (mkr (dev .factory)).hasRole .pcie .maker = true
        ∧ (dev .factory).hasRole .pcie .maker = false)
      ∧ spiCodes.contains 0x77 = false
      ∧ (∃ p b, pageOf RUL.page.base = some (p, b) ∧ (mkr (dev .run)).opens .pcie (b + 0x18) = true ∧ pageOf (b + 0x18) = some (p, b)
        ∧ (dev .run).hasRole .pcie .maker = false ∧ (mkr (dev .run)).hasRole .pcie .maker = true
        ∧ (inst (dev .run)).opens .pcie (b + 0x28) = true ∧ pageOf (b + 0x28) = some (p, b) ∧ (inst (dev .run)).sealed b = false
        ∧ (inst (dev .run)).hasRole .pcie .installer = true ∧ ((dev .run).setReg (b + 0x28) 0x80000000).sealed b = true)
      ∧ pageOf 0x500000 = none :=
  ⟨by decide +kernel, by decide +kernel, by decide +kernel, by decide +kernel, by decide +kernel, by decide +kernel, by decide +kernel,
    by decide +kernel, ⟨RUL.page, RUL.page.base, by decide +kernel⟩, by decide +kernel⟩
/-! ### Consists, aborts, roll calls -/

/-- Run, with consist slot 1 as given, departures of 4,000 cycles. -/
def withCons (x : Consist) : State :=
  { dev .run with raw := 420, cons := [(1, x)], dsp := { ({} : Dsp) with period := 4000 } }

def cons1 : Consist := { ({} : Consist) with st := .opened, owner := 1, role := .operator, last := 3 }
def stage1 (v : Word) (parity : Bool := true) : Staged := { addr := RUL.BCNT.V.off, val := v, role := .operator, parity := parity }
def closed1 (p : Staged) : Consist := { cons1 with st := .closed, dep := some 1, places := [p] }

def roll1 (b : Option (List Byte)) (dest : Bool) : RollCall := { req := 1, auto := false, dest := dest, ofs := 3, asked := 420, bytes := b }
def withRoll (x : Option RollCall) : State := { dev .run with raw := 420, glb := { ({} : Glb) with rc := x, autoAt := some 90000, gen := 6 } }

/-- Entry 7 is a queued COMMIT that no consist waits for. -/
def sAtEntry : State :=
  { withCons cons1 with slots := [(7, { st := .queued, bits := putBits 0 116 4 acCommit, place := .imm })] }

theorem wit_ConsistLife :
    ((inAbort CNS.page.base (withCons {})).reaches .pcie = true ∧ (inAbort CNS.page.base (withCons {})).aborting CNS.page.base = true)
      ∧ ((withCons {}).reaches .pcie = true ∧ (withCons {}).aborting CNS.page.base = false ∧ (withCons {}).mode ≠ .standby
        ∧ (withCons {}).consistOf Requester.pcie.id = none
        ∧ (List.range 4).find? (fun k => ((withCons cons1).consist k).st = .free) = some 0
        ∧ ((withCons cons1).consistOf Requester.pcie.id).isSome = true ∧ ({ withCons {} with mode := .standby } : State).mode = .standby)
      ∧ ((withCons cons1).consistOf Requester.pcie.id = some 1 ∧ ((withCons cons1).consist 1).st = .opened ∧ bitsAt 0 28 2 = whNext
        ∧ bitsAt (2 ^ 28) 28 2 = whDep ∧ (withCons cons1).tooNear ((withCons cons1).commitDep .pcie) 2 = true
        ∧ ((withCons cons1).setPreg 1 CNS.CDEP_LO.V.off 4).tooNear
            (((withCons cons1).setPreg 1 CNS.CDEP_LO.V.off 4).commitDep .pcie) 2 = false ∧ bitsAt (3 * 2 ^ 28) 28 2 = 3)
      ∧ (bitsAt (2 ^ 29 + 7) 28 2 = whEntry ∧ bitsAt (2 ^ 29 + 7) 0 14 = 7 ∧ (sAtEntry.slot 7).st = .queued
        ∧ (sAtEntry.slot 7).place ≠ .reserved ∧ eAction (sAtEntry.slot 7).bits = acCommit ∧ sAtEntry.consistFor 7 = none
        ∧ ((withCons { cons1 with st := .broken }).consist 1).st = .broken
        ∧ (withCons { cons1 with st := .broken }).consistOf Requester.pcie.id = some 1
        ∧ (withCons (closed1 (stage1 9))).consistOf Requester.pcie.id = some 1)
      ∧ ((dev .hibernate).mode.alive = false)
      ∧ (let s := withCons (closed1 (stage1 9))
        s.mode.alive = true ∧ s.mode.commits = true ∧ s.dep < s.nextBoundary
          ∧ (s.advanceVt (s.boundary s.nextBoundary - 64)).dueConsists s.nextBoundary = [1]
          ∧ ((s.advanceVt (s.boundary s.nextBoundary - 64)).verdict (s.consist 1)).2 = none)
      ∧ (let s := withCons (closed1 (stage1 9 false))
        ((s.advanceVt (s.boundary s.nextBoundary - 64)).verdict (s.consist 1)).2.map (fun o => o.1) = some coParity
          ∧ (s.consist 1).places.find? (fun p => !p.parity) = some (stage1 9 false))
      ∧ (let s := { withCons (closed1 (stage1 9)) with mode := .safe }
        s.mode.alive = true ∧ s.mode.commits = false ∧ s.dep < s.nextBoundary
          ∧ (s.advanceVt (s.boundary s.nextBoundary - 64)).dueConsists s.nextBoundary = [1])
      ∧ (let s := withCons (closed1 (stage1 9))
        let a := s.advanceVt (s.boundary s.nextBoundary - 64)
        a.aborting (RUL.page.base + pgAt 0) = false ∧ (a.ownerRefusal (s.consist 1).req RUL.BCNT.V.off).isNone = true
          ∧ RUL.BCNT.V.off = rulReg RUL.BCNT.V 0 ∧ rangeBad RUL.BCNT.fields (a.stagedVal RUL.BCNT.V.off 9).toNat = false
          ∧ rangeBad RUL.BCNT.fields (a.stagedVal RUL.BCNT.V.off 0).toNat = true)
      ∧ ((withCons cons1).reaches .pcie = true ∧ consMask (RUL.BCNT.V.off / 4 * 4) ≠ 0
        ∧ (withCons cons1).stageBad .pcie [] RUL.BCNT.V.off 9 = none ∧ (withCons cons1).stageBad .pcie [] RUL.BCNT.V.off 0 = some .range
        ∧ (withCons cons1).freePlaces ≠ 0 ∧ (withCons { cons1 with places := List.replicate 512 (stage1 9) }).freePlaces = 0
        ∧ (regAt (TRK.MODE.CODE.off) ≠ none ∧ consMask TRK.MODE.CODE.off ≠ 0)
        ∧ ((withCons cons1).setHolder TRK.OWN.HOLDER.off 4 1).stageBad .pcie [] TRK.MODE.CODE.off 9 = some .owner
        ∧ (((withCons cons1).setHolder TRK.OWN.HOLDER.off 4 1).ownerRefusal .pcie TRK.MODE.CODE.off).isSome = true
        ∧ (withCons (closed1 (stage1 9))).consistOf Requester.pcie.id = some 1
        ∧ ∃ q, pageOf RUL.BCNT.V.off = some (q, RUL.page.base) ∧ (withCons (closed1 (stage1 9))).abortBlocks RUL.page.base 0x5C = false)
      ∧ (let s := inAbort RUL.page.base (withCons (closed1 (stage1 9)))
        (((s.advanceVt (s.boundary s.nextBoundary - 64)).verdict (s.consist 1)).2.map (fun o => (o.1, o.2.isSome)))
          = some (coCheckFailed, true))
      ∧ ((inAbort CNS.page.base (withCons (closed1 (stage1 9)))).aborting CNS.page.base = true
        ∧ (withCons (closed1 (stage1 9))).committing 1 = false
        ∧ ({ withCons (closed1 (stage1 9)) with raw := 3999 } : State).committing 1 = true) := by
  refine ⟨?_, ?_, ?_, ?_, ?_, ?_, ?_, ?_, ?_, ⟨?_, ?_, ?_, ?_, ?_, ?_, ?_, ?_, ?_, ?_, ⟨RUL.page, ?_⟩⟩, ?_, ?_⟩ <;> decide +kernel

theorem wit_AbortsAndRollCalls :
    pageOf 0x500000 = none
      ∧ (∃ p, pageOf (RUL.page.base + 0x44) = some (p, RUL.page.base) ∧ (dev .run).opens .pcie (RUL.page.base + 0x20) = true
        ∧ (dev .run).aborting RUL.page.base = false ∧ RUL.page.base ≠ GLB.page.base ∧ RUL.page.base ≠ CNS.page.base
        ∧ (inAbort RUL.page.base (dev .run)).opens .pcie (RUL.page.base + 0x20) = true
        ∧ (inAbort RUL.page.base (dev .run)).aborting RUL.page.base = true)
      ∧ (∃ p, pageOf CNS.page.base = some (p, CNS.page.base) ∧ (withCons { cons1 with owner := 2 }).opens .pcie (CNS.page.base + 0x20) = true
        ∧ (withCons { cons1 with owner := 2 }).aborting CNS.page.base = false)
      ∧ ((dev .run).opens .pcie (GLB.page.base + 0x20) = true ∧ (dev .run).aborting GLB.page.base = false)
      ∧ ((inAbort GLB.page.base (dev .run)).aborting GLB.page.base = true ∧ (inAbort GLB.page.base (dev .run)).pwr.cmd = none)
      ∧ ((inAbort PWR.page.base (dev .run)).aborting PWR.page.base = true ∧ (inAbort SEC.page.base (inst (dev .run))).aborting SEC.page.base = true
        ∧ ((inst (dev .run)).session .pcie).role = .installer)
      ∧ ((dev .run).opens .pcie GLB.ROLLCALL.GO.off = true ∧ (dev .run).glb.rc = none ∧ digestFits (bitsAt 0 6 10) = true
        ∧ (withRoll (some (roll1 none false))).glb.rc.isSome = true ∧ digestFits (bitsAt 0xFFC0 6 10) = false)
      ∧ ((withRoll (some (roll1 none true))).glb.rc = some (roll1 none true) ∧ (roll1 none true).bytes = none)
      ∧ ((withRoll (some (roll1 (some [1, 2, 3, 4]) true))).glb.rc = some (roll1 (some [1, 2, 3, 4]) true)
        ∧ (withRoll (some (roll1 (some [1, 2, 3, 4]) false))).mem.portA = [])
      ∧ ((withRoll none).glb.autoAt = some 90000 ∧ (withRoll none).mode.powered = true
        ∧ digestFits ((withRoll none).f GLB.ROLLCALL.OFS) = true
        ∧ digestFits (((withRoll none).setF GLB.ROLLCALL.OFS 1020).f GLB.ROLLCALL.OFS) = false) :=
  ⟨by decide +kernel, ⟨RUL.page, by decide +kernel⟩, ⟨CNS.page, by decide +kernel⟩, by decide +kernel⟩
/-! ### Boot, images, sessions

The signatures are made over the bytes below with a private key of 0x1234567890abcdef1122334455667788 by another ECDSA. -/

def withSec (m : Mode) (x : Sec) : State := { dev m with raw := 420, sec := x }

/-- The public key of the image and of the token below, and their signatures. -/
def key1 : List Byte := beBytes 64
  0xf9ebedceb69ab0a5223a04f7055404405e66b073e2929fb798a4a9a96b26ecea00aa2ee7ca58381eb1e2ce699604b38b1f693b30c564749e4d9142ab3b8f06c6
def imageSig1 : List Byte := beBytes 64
  0xc833efd4742ded10db2992ae8bee8ae8f45eaad60a892296611d603ffde9aac9f3ce65f5beccb8e4f433cae5d3dcbc53fa23bb46d2bcec7b8b30d0a66e5540d0
def tokenSig1 : List Byte := beBytes 64
  0xbd05e2c5d7056f6fe03bac045e2484acd3f35740377c8c504d79b06abf1784944f4104a2a4fedde223e2ca01e4ae4ef3b8e7fef9f3ce344c49dd68f7f8601994
/-- The SHA-256 of the key. -/
def keyHash1 : List Byte := beBytes 32 0x3a68e20e4b6874f45d948edf43f94274b8ebf40085d55324613578b85d2ff25e

/-- SHA-256 of the key, as computed outside the model. -/
theorem test_sha256 : sha256 key1 = keyHash1 := by decide +kernel

/-- An image of 1,024 bytes without sections, its key in slot 0. -/
def imageKey1 : KeySlot := { hash := keyHash1, prog := true, usage := 3 }
def imageWords1 : List (Nat × Word) :=
  [(0, 0x31494D55), (1, 0x00010100), (2, 1024), (3, 0x0003), (4, 0xA1)]
    ++ (toWords key1).zipIdx.map (fun p => (10 + p.2, p.1)) ++ (toWords imageSig1).zipIdx.map (fun p => (240 + p.2, p.1))
def sImage : State :=
  let s := withSec .provision { ({} : Sec) with
    otp := { ({} : Otp) with k0 := imageKey1 }, load := some { src := 3, replace := false, role := .none, req := 1 } }
  { s.setF SEC.PUSHLEN.V 1024 with mem := { ({} : Mem) with log := imageWords1 } }

def sNotImage : State := { sImage with mem := {} }
def gated1 : Image := { ver0 := 1, ver1 := 2, ver2 := 3, svn := 0, abiReq := 3, sections := 0, slot := 0, shnVer := 0, fltVer := 0 }
def sGated : State := mkr (((withSec .provision { ({} : Sec) with held := some gated1 }).set1 SEC.LOADSTS.GATED).setF SEC.LOADSTS.REASON 0x0A)
def otpJob1 : OtpJob := { op := 6, arg := 1, hash := [], req := 1 }
def sOtp : State :=
  mkr (withSec .provision { ({} : Sec) with
    otp := { ({} : Otp) with k0 := imageKey1, k1 := imageKey1 }, image := some { gated1 with svn := 2 } })

theorem wit_BootAndImages_pass :
    sImage.sec.load = some { src := 3, replace := false, role := .none, req := 1 } ∧ sImage.mode = .provision
      ∧ (sImage.tryImage 3).reason = 0 := ⟨rfl, rfl, by decide +kernel⟩

def token1 : List Byte := [0x54, 0x4B, 0x4E, 0x31, 2, 0, 10, 0, 9] ++ List.replicate 23 0 ++ key1 ++ tokenSig1
def withSess (x : Session) : State :=
  let s := withSec .run { ({} : Sec) with otp := { ({} : Otp) with k1 := imageKey1, serial := 9 } }
  s.setSession .pcie x

theorem wit_Sessions_pass :
    ((withSess { verify := some (token1, some (0, 400)) }).session .pcie).verify = some (token1, some (0, 400))
      ∧ (withSess { verify := some (token1, some (0, 400)) }).tokenResult token1 (some (0, 400)) = 0 := ⟨rfl, by decide +kernel⟩

def sLoading : State :=
  let s := withSec .configure { ({} : Sec) with load := some { src := 3, replace := true, role := .maker, req := 1 } }
  inAbort GLB.page.base s

theorem wit_BootAndImages :
    ((dev .run).mode ≠ .boot ∧ (withSec .boot {}).mode = .boot ∧ (withSec .boot {}).sec.boot = 0 ∧ (withSec .boot {}).pwr.held = none
        ∧ (withSec .boot { ({} : Sec) with otp := { ({} : Otp) with refParity := false } }).sec.otp.bad = true
        ∧ (withSec .boot { ({} : Sec) with otp := { ({} : Otp) with refsel := 2 } }).sec.otp.refsel % 4 = 2
        ∧ (withSec .boot { ({} : Sec) with boot := 1 }).sec.boot = 1)
      ∧ (let s := withSec .provision {}
        s.opens .pcie SEC.CMD.OP.off = true ∧ bitsAt 0x10000000 28 4 = 1 ∧ s.sec.load = none ∧ s.sec.otpJob = none
          ∧ (withSec .configure {}).opens .pcie SEC.CMD.OP.off = true ∧ (withSec .configure {}).hasRole .pcie .maker = false
          ∧ (mkr (withSec .configure {})).opens .pcie SEC.CMD.OP.off = true
          ∧ (mkr (withSec .configure {})).hasRole .pcie .maker = true
          ∧ (withSec .run {}).opens .pcie SEC.CMD.OP.off = true ∧ sNotImage.sec.load.isSome = true
          ∧ sNotImage.opens .pcie SEC.CMD.OP.off = true)
      ∧ (sLoading.aborting GLB.page.base = true ∧ sLoading.sec.load.isSome = true ∧ sLoading.pwr.cmd = none)
      ∧ (sNotImage.sec.load = some { src := 3, replace := false, role := .none, req := 1 } ∧ sNotImage.mode = .provision
        ∧ (sNotImage.tryImage 3).reason = 1 ∧ gateReason 1 = false)
      ∧ (sGated.opens .pcie SEC.CMD.OP.off = true ∧ sGated.sec.otpJob = none ∧ sGated.hasRole .pcie .maker = true
        ∧ sGated.mode = .provision ∧ sGated.on SEC.LOADSTS.GATED = true ∧ gateReason (sGated.f SEC.LOADSTS.REASON) = true
        ∧ gateReason ((mkr sNotImage).f SEC.LOADSTS.REASON) = false ∧ (mkr sNotImage).opens .pcie SEC.CMD.OP.off = true)
      ∧ (sOtp.opens .pcie SEC.CMD.OP.off = true ∧ sOtp.hasRole .pcie .maker = true ∧ sOtp.sec.otpJob = none
        ∧ (sOtp.setF SEC.OTPARG.V 2).otpRange 5 2 = false ∧ sOtp.otpRange 6 0 = false ∧ sOtp.otpRange 7 0 = false
        ∧ sOtp.otpRange 8 1 = false ∧ sOtp.otpRange 5 0 = true ∧ sImage.hasRole .pcie .maker = false
        ∧ ({ sOtp with mode := .run } : State).opens .pcie SEC.CMD.OP.off = true)
      ∧ (withSec .provision { ({} : Sec) with otpJob := some otpJob1 }).sec.otpJob = some otpJob1 ∧ otpJob1.arg % 4 < 3 := by
  refine ⟨?_, ?_, ?_, ?_, ?_, ?_, ?_⟩ <;> decide +kernel

theorem wit_Sessions :
    (withSess {}).reachable .pcie = true
      ∧ ((withSess {}).opens .pcie SEC.SESS.OP.off = true ∧ hasSession .pcie = true ∧ hasSession (.engine 2) = false
        ∧ (withSess {}).opens (.engine 2) SEC.SESS.OP.off = true ∧ (withSess {}).lockedOut .pcie = false
        ∧ ((withSess {}).session .pcie).verify = none ∧ ((withSess {}).session .pcie).nonce = none
        ∧ ((withSess { nonce := some (5, 400) }).session .pcie).nonce = some (5, 400) ∧ (420 : Nat) < 400 + minuteCycles
        ∧ (withSess { lockout := some 500 }).lockedOut .pcie = true ∧ (withSess { lockout := some 100 }).lockedOut .pcie = false
        ∧ ((withSess { verify := some (token1, none) }).session .pcie).verify.isSome = true)
      ∧ ((withSess {}).session .pcie).stop = none ∧ ((withSess {}).session .pcie).lockout = none
      ∧ (((withSess { verify := some (token1, none) }).session .pcie).verify = some (token1, none)
        ∧ (withSess { verify := some (token1, none) }).tokenResult token1 none = 3
        ∧ ((withSess { verify := some (token1, none), fails := 3 }).session .pcie).fails = 3)
      ∧ (((withSess { role := .installer, stop := some 700 }).session .pcie).role = .installer
        ∧ ((withSess { role := .installer, stop := some 700 }).session .pcie).stop = some 700
        ∧ (withSess { role := .installer }).opens .pcie SEC.SESS.OP.off = true
        ∧ ((withSess {}).session .pcie).role.code ≤ Role.operator.code
        ∧ ((withSess { stop := some 700 }).session .pcie).stop = some 700)
      ∧ ((withSess { lockout := some 500 }).session .pcie).lockout = some 500 := by
  refine ⟨?_, ?_, ?_, ?_, ?_, ?_, ?_⟩ <;> decide +kernel
/-! ### The twin pair -/

/-- A device of a linked pair in mode `m`, its twin side as given; departures of 4,000 cycles. -/
def withTwn (m : Mode) (x : Twn) : State :=
  { (dev m).set1 TWN.CTL.EN with
    raw := 4200, twn := { x with linkUp := true }, dsp := { ({} : Dsp) with period := 4000, bdep := 1 }
    slots := [(4, { ({} : Slot) with st := .queued, bits := 2 ^ 90 + 7 })] }

def hello1 (state serial : Nat) (period : Nat := 400) : Hello :=
  { (withTwn .configure {}).hello with serial := serial, state := state, period := period }

theorem wit_Pairing :
    ((inst (dev .configure)).opens .pcie TWN.CTL.EN.off = true ∧ (inst (dev .configure)).hasRole .pcie .installer = true
        ∧ (inst (dev .configure)).sealed 0x5000 = false ∧ (inst (dev .configure)).on TWN.CTL.EN = false
        ∧ (inst (dev .configure)).twn.linkUp = false ∧ (inst ((withTwn .configure {}).clr TWN.CTL.EN)).twn.linkUp = true
        ∧ (inst (withTwn .configure {})).on TWN.CTL.EN = true ∧ (inst (withTwn .run {})).opens .pcie TWN.CTL.EN.off = true
        ∧ (inst (withTwn .run {})).on TWN.CTL.EN ≠ (0 : Word).getLsbD 0 ∧ (inst (withTwn .run {})).mode = .run
        ∧ (dev .configure).hasRole .pcie .installer = false ∧ (dev .configure).opens .pcie TWN.CTL.EN.off = true)
      ∧ (dev .provision).mode.alive = false
      ∧ ((withTwn .run {}).mode.alive = true ∧ (withTwn .run {}).on TWN.CTL.EN = true ∧ (withTwn .run {}).twn.linkUp = true
        ∧ (dev .run).on TWN.CTL.EN = false ∧ (dev .run).twn.linkUp = false ∧ (dev .run).linked = false
        ∧ (withTwn .standby { ({} : Twn) with st := .ready }).twn.st = .ready ∧ (withTwn .run {}).twn.st = .solo)
      ∧ ((withTwn .configure {}).linked = true ∧ (withTwn .configure {}).mode = .configure
        ∧ helloDiff (withTwn .configure {}).hello (hello1 0 9 5000) = 6
        ∧ helloDiff (withTwn .configure {}).hello (hello1 0 9) = 0 ∧ helloPrimary (withTwn .configure {}).hello (hello1 0 9) = true
        ∧ helloPrimary (withTwn .configure {}).hello (hello1 1 9) = false
        ∧ helloPrimary (withTwn .run {}).hello { (withTwn .run {}).hello with serial := 9, state := 1 } = false
        ∧ (withTwn .standby { ({} : Twn) with st := .ready }).twn.st ≠ .solo
        ∧ (hello1 0 9).state = 0 ∧ (hello1 2 9).state ≠ 0) := by
  refine ⟨?_, ?_, ?_, ?_⟩ <;> decide +kernel

def beat1 (faults : Nat := 0) (live : Nat := 1) (rseq : Nat := 5) : Heartbeat :=
  { seq := 8, dep := 1, t1 := 255000, t4 := 256100, live := live, rseq := rseq, faults := faults }

def twnP : Twn := { ({} : Twn) with st := .primary, peerSt := .ready, expect := [(8, 4600), (9, 8600)], expSeq := 10, rxNext := 8, rxAt := some 256000, txAt := some 256010
                                    queue := [(3, .ret 4 1), (4, .ret 9 1), (5, .can 2 false 1)], unacked := [(2, .ret 8 1)], enq := 5, mirSeq := 2 }
def twnS : Twn := { ({} : Twn) with st := .ready, peerSt := .primary, expect := [(8, 4600), (9, 8600)], expSeq := 10, rxNext := 8, rxSeq := 6, copied := true, cv := 77
                                    rxAt := some 256000, txAt := some 256010, sent := [256010] }

theorem wit_Heartbeats :
    (dev .run).linked = false
      ∧ ((withTwn .run twnP).mode.alive = true ∧ (withTwn .run twnP).linked = true ∧ (beat1 0).faults &&& (withTwn .run twnP).f TWN.FLTSEL.V = 0
        ∧ (withTwn .run twnP).twn.st = .primary ∧ (withTwn .standby twnS).twn.missed = 0
        ∧ (beat1 0).seq = (withTwn .standby twnS).twn.rxNext ∧ ((withTwn .standby twnS).thetaOf (beat1 0)).isSome = true
        ∧ (withTwn .standby twnS).twn.check = [] ∧ (withTwn .standby twnS).twn.rxSeq < (beat1 0 1 7).rseq ∧ (beat1 0 1 7).rseq ≠ rseqNever
        ∧ (withTwn .standby { twnS with st := .notReady }).twn.st = .notReady
        ∧ ((withTwn .standby twnS).twn.rxAt ≠ none ∧ 8 ∈ (withTwn .standby twnS).twn.expect.map (fun e => e.1)
          ∧ ({ beat1 0 with seq := 7 } : Heartbeat).seq < (withTwn .standby twnS).twn.rxNext)
        ∧ ((withTwn .standby { twnS with rxAt := none }).twn.txAt = some 256010
          ∧ vtDiff ((withTwn .standby { twnS with rxAt := none }).vtAt 258000) 256010 ≤ ((withTwn .standby twnS).f TWN.HBWIN.V * 64 : Nat)
          ∧ ((withTwn .standby twnS).f TWN.HBWIN.V * 64 : Nat) < vtDiff ((withTwn .standby { twnS with rxAt := none }).vtAt 756000) 256010))
      ∧ ((withTwn .standby twnS).twn.st = .ready ∧ (withTwn .standby twnS).twn.copied = true
        ∧ (withTwn .standby twnS).twn.cons = [] ∧ (beat1 0).rseq ≤ (withTwn .standby twnS).twn.rxSeq ∧ (beat1 0).rseq ≠ rseqNever
        ∧ (withTwn .standby twnS).countBooks.2.1 = (beat1 0).live ∧ (withTwn .standby twnS).countBooks.2.1 ≠ (beat1 0 9).live
        ∧ (beat1 0 1 rseqNever).rseq = rseqNever)
      ∧ ((beat1 1).faults &&& ((withTwn .standby twnS).setF TWN.FLTSEL.V 3).f TWN.FLTSEL.V ≠ 0
        ∧ ((withTwn .standby twnS).setF TWN.FLTSEL.V 3).linked = true ∧ (withTwn .standby twnS).twn.sw = none
        ∧ (withTwn .standby twnS).twn.differ ≠ 1
        ∧ (let s := withTwn .standby { twnS with sw := some { trig := 3, w := 8000, cv := 77 } }; ({ s with raw := max s.raw ((256000 + 63) / 64) } : State).cyc < 8000))
      ∧ ((withTwn .standby twnS).linked = true ∧ (withTwn .standby twnS).twn.expect = [(8, 4600), (9, 8600)] ∧ (withTwn .standby twnS).twn.missed ≠ 2
        ∧ (withTwn .standby { twnS with missed := 2 }).twn.missed = 2 ∧ (withTwn .standby { twnS with expect := [] }).twn.expect = []
        ∧ (withTwn .standby { twnS with sw := some { trig := 1, w := 1, cv := 1 } }).twn.sw.isSome = true
        ∧ (withTwn .standby { twnS with st := .joining }).twn.st = .joining
        ∧ (withTwn .run { twnP with missed := 2 }).twn.missed = 2) := by
  refine ⟨?_, ?_, ?_, ?_, ?_⟩ <;> decide +kernel

def mirCns1 : MirCns := { slot := 2, owner := 1, whn := whEntry, dep := none, entry := 4, vals := [(RUL.BCNT.V.off, 3)], complete := true }

theorem wit_MirrorRecords :
    ((dev .run).twn.st.standby = false ∧ (withTwn .standby twnS).twn.st.standby = true
        ∧ (withTwn .standby twnS).twn.rxSeq + 1 < 9 ∧ 6 ≤ (withTwn .standby twnS).twn.rxSeq)
      ∧ (let s := withTwn .standby twnS;
        s.mode.alive = true ∧ s.linked = true ∧ s.twn.st.standby = true ∧ s.twn.check = [] ∧ s.twn.st ≠ .joining
          ∧ (s.slot 6).st = .free ∧ (s.slot 0).st = .free ∧ [6, 0].Nodup ∧ (s.slot 4).st = .queued ∧ s.twn.sw = none
          ∧ s.twn.cons = [])
      ∧ ((withTwn .standby { twnS with sw := some { trig := 3, w := 8000, cv := 77 } }).twn.sw.map Switch.trig) = some 3
      ∧ ((withTwn .standby { twnS with cons := [mirCns1] }).twn.cons = [mirCns1] ∧ mirCns1.whn = whEntry ∧ mirCns1.complete = true
        ∧ mirCns1.verdict ≠ some true ∧ ({ mirCns1 with verdict := some true } : MirCns).verdict = some true
        ∧ (withTwn .standby { twnS with cons := [mirCns1], sw := some { trig := 3, w := 8000, cv := 77 } }).commanded = true
        ∧ (withTwn .standby { twnS with cons := [mirCns1] }).commanded = false ∧ ({ mirCns1 with complete := false } : MirCns).complete = false)
      ∧ ((withTwn .standby { twnS with st := .joining }).twn.st = .joining
        ∧ (withTwn .standby { twnS with st := .joining }).twn.check = []
        ∧ (withTwn .standby { twnS with st := .joining }).linked = true)
      ∧ ((withTwn .run twnP).mode.alive = true ∧ (withTwn .run twnP).linked = true ∧ (withTwn .run twnP).twn.st = .primary
        ∧ (withTwn .run twnP).twn.toRing = [] ∧ (withTwn .run twnP).dmaReady ((withTwn .run twnP).f TWN.MQ.SIDING) 41 = true
        ∧ (withTwn .run twnP).twn.queue = (3, .ret 4 1) :: [(4, .ret 9 1), (5, .can 2 false 1)]
        ∧ (withTwn .run { twnP with queue := [] }).twn.queue = []
        ∧ (withTwn .run { twnP with queue := [] }).twn.unacked = [(2, .ret 8 1)]
        ∧ ({ withTwn .run twnP with mem := { ({} : Mem) with bankAt := [(13, 9000)] } } : State).dmaReady 13 41 = false
        ∧ (withTwn .run twnP).f TWN.MQ.SIDING = 13) := by
  refine ⟨?_, ?_, ?_, ?_, ?_, ?_⟩ <;> decide +kernel

def switch1 : Switch := { trig := 1, w := 4300, cv := 4100 }
def sTake : State := withTwn .standby { twnS with sw := some switch1 }

/-- The takeover with a queued entry whose start lies in the ambiguous window. -/
def sWindow : State := { sTake with slots := [(4, { ({} : Slot) with st := .queued, place := .imm, bits := 4100 * 64 + 700 })] }

theorem wit_Switchover :
    ((withTwn .standby twnS).mode.alive = true ∧ (withTwn .standby twnS).linked = true ∧ (withTwn .standby twnS).twn.st = .ready
        ∧ (withTwn .standby twnS).twn.sw = none ∧ (withTwn .run twnP).twn.st.standby = false
        ∧ (withTwn .standby { twnS with st := .joining }).linked = true)
      ∧ (sTake.mode.alive = true ∧ sTake.twn.sw = some switch1 ∧ switch1.driven = false ∧ sTake.mode = .standby)
      ∧ ((sTake.set1 TBU.CTL.SRV_EN).srvOn = true ∧ ((sTake.set1 TBU.CTL.SRV_EN).set1 TBU.STS.REF_QUAL).on TBU.STS.REF_QUAL = true
        ∧ (sTake.set1 TBU.CTL.SRV_EN).on TBU.STS.REF_QUAL = false ∧ (sTake.clr TBU.CTL.SRV_EN).srvOn = false)
      ∧ (∃ e ∈ sWindow.slots, switch1.trig ≠ 3 ∧ sWindow.on TWN.CTL.AMBIG = false ∧ e.2.st = .queued ∧ eAngle e.2.bits = false
        ∧ e.2.place ≠ .parked ∧ (switch1.cv - 1) * 64 ≤ startOf e.2.bits ∧ startOf e.2.bits < (switch1.w + 10) * 64
        ∧ sWindow.slots.Pairwise (fun a b => a.1 < b.1))
      ∧ ((withTwn .run twnP).twn.st = .primary ∧ (withTwn .run twnP).mode.alive = true ∧ (dev .hibernate).mode.alive = false)
      ∧ ((inst (withTwn .run twnP)).opens .pcie TWN.CMD.OP.off = true ∧ (inst (withTwn .run twnP)).hasRole .pcie .installer = true
        ∧ (inst (withTwn .run twnP)).twn.peerSt = .ready ∧ (inst (withTwn .run twnP)).twn.yieldAt = none
        ∧ (withTwn .run twnP).hasRole .pcie .installer = false ∧ (withTwn .run twnP).opens .pcie TWN.CMD.OP.off = true
        ∧ (inst (withTwn .standby { twnS with st := .notReady })).opens .pcie TWN.CMD.OP.off = true
        ∧ (inst (withTwn .standby { twnS with st := .notReady })).twn.st = .notReady)
      ∧ ((inAbort TWN.page.base (withTwn .run twnP)).aborting TWN.page.base = true
        ∧ (inAbort TWN.page.base (withTwn .run twnP)).twn.st = .primary
        ∧ (inAbort TWN.page.base (withTwn .standby twnS)).aborting TWN.page.base = true
        ∧ (withTwn .run twnP).aborting TWN.page.base = false) :=
  ⟨by decide +kernel, by decide +kernel, by decide +kernel, ⟨_, List.mem_cons_self, by decide +kernel⟩, by decide +kernel,
    by decide +kernel, by decide +kernel⟩

/-! ### Modes, power, reset -/

def withPwr (m : Mode) (x : Pwr := {}) : State := { dev m with raw := 5000, pwr := x }

/-- JTAG holds role installer; role maker. -/
def jinst (s : State) : State := s.setSession .jtag { role := .installer }
def jmkr (s : State) : State := s.setSession .jtag { role := .maker }

theorem wit_PowerCommands :
    (∀ m ∈ [Mode.configure, .run, .safe, .standby], (inst (withPwr m)).opens .pcie PWR.CMD.OP.off = true
        ∧ (inst (withPwr m)).pwr.cmd = none ∧ (inst (withPwr m)).hasRole .pcie .installer = true
        ∧ (inst (withPwr m)).hasRole .pcie .operator = true ∧ (inst (withPwr m)).mode = m
        ∧ (inst (withPwr m { cmd := some 4 })).pwr.cmd.isSome = true)
      ∧ (Mode.running .run = true ∧ (withPwr .safe).hasRole .pcie .installer = false ∧ (withPwr .safe).opens .pcie PWR.CMD.OP.off = true
        ∧ (withPwr .run {}).pwr.xtalOk = false ∧ (withPwr .run { xtalOk := true }).pwr.xtalOk = true
        ∧ (mkr (withPwr .configure)).hasRole .pcie .maker = true ∧ (inst (withPwr .configure)).hasRole .pcie .maker = false
        ∧ keepsake 0x10E4 = true) := by decide +kernel

theorem wit_ResetsAndWakes :
    ((dev .off).mode = .off ∧ (dev .run).mode.powered = true ∧ (dev .hibernate).mode.powered = false
        ∧ (withPwr .boot { held := some 3 }).pwr.held = some 3 ∧ (withPwr .boot { held := some 2 }).pwr.held ≠ some 3)
      ∧ ((withPwr .hibernate).mode = .hibernate ∧ (withPwr .hibernate).on PWR.KS_WAKECFG.WEN = true
        ∧ ((withPwr .hibernate).clr PWR.KS_WAKECFG.WEN).on PWR.KS_WAKECFG.WEN = false
        ∧ (let k := (withPwr .keeptime).set1 PWR.KS_WAKECFG.AEN
          k.mode = .keeptime ∧ k.on PWR.KS_WAKECFG.AEN = true
            ∧ k.ksTicks = k.f PWR.KS_ALARM_HI.V * 2 ^ 32 + k.f PWR.KS_ALARM_LO.V)
        ∧ (withPwr .keeptime).on PWR.KS_WAKECFG.AEN = false)
      ∧ ((withPwr .keeptime { waking := some 1, coreOk := false }).pwr.waking.isSome = true
        ∧ (withPwr .keeptime { waking := some 1, coreOk := false }).pwr.coreOk = false ∧ (withPwr .keeptime).pwr.waking = none)
      ∧ ((withPwr .keeptime { waking := some 1 }).pwr.waking = some 1 ∧ (withPwr .keeptime { waking := some 1 }).pwr.pinLow = false
        ∧ (withPwr .keeptime { waking := some 1, pinLow := true }).pwr.pinLow = true ∧ (withPwr .keeptime).mode ≠ .off
        ∧ (withPwr .hibernate).pwr.waking = none ∧ (withPwr .hibernate).on PWR.KS_WAKECFG.NOAUTO = false
        ∧ (withPwr .boot { held := some 2 }).pwr.held = some 2 ∧ (withPwr .boot { held := some 2 }).pwr.waking = none
        ∧ (withPwr .run { xtalOk := true }).pwr.xtalOk = true ∧ (withPwr .run).pwr.xtalOk = false) := by
  refine ⟨?_, ?_, ?_, ?_⟩ <;> decide +kernel

theorem wit_DebugHalt :
    ((jinst (withPwr .run { cmd := some 1 })).mode.running = true ∧ (jinst (withPwr .run { cmd := some 1 })).hasRole .jtag .installer = true
        ∧ (jinst (withPwr .run { cmd := some 1 })).pwr.held = none ∧ (jinst (withPwr .run { cmd := some 1 })).pwr.cmd.isSome = true
        ∧ ((jinst (withEng idle0)).engine 0).st ≠ .held ∧ (jinst (withEng idle0)).mode.running = true)
      ∧ ((dev .boot).mode.running = false ∧ (dev .run).hasRole .jtag .installer = false ∧ (withPwr .boot { held := some 3 }).pwr.held ≠ none)
      ∧ ((jinst (withPwr .halt { prev := 6 })).mode = .halt ∧ (jinst (withPwr .halt { prev := 6 })).hasRole .jtag .installer = true
        ∧ (jinst (withPwr .halt { prev := 6 })).pwr.haltFault = none
        ∧ (jinst (withPwr .halt { prev := 6, haltFault := some (1, 2) })).pwr.haltFault = some (1, 2)
        ∧ (jinst (withPwr .halt { prev := 6, haltFault := some (2, 2) })).pwr.haltFault = some (2, 2))
      ∧ (dev .run).mode ≠ .halt := by decide +kernel

theorem wit_Watchdog :
    ((dev .run).opens .pcie PWR.KICK.V.off = true)
      ∧ (((withPwr .run).set1 PWR.WDOG.EN).on PWR.WDOG.EN = true ∧ ((withPwr .run).set1 PWR.WDOG.EN).mode.watched = true
        ∧ ((withPwr .run).set1 PWR.WDOG.EN).on PWR.WDOG.ACTION = false
        ∧ (((withPwr .run).set1 PWR.WDOG.EN).set1 PWR.WDOG.ACTION).on PWR.WDOG.ACTION = true
        ∧ ((withPwr .safe).set1 PWR.WDOG.EN).mode = .safe)
      ∧ ((withPwr .run).on PWR.WDOG.EN = false ∧ Mode.watched .standby = false)
      ∧ ((dev .safe).mode ≠ .configure ∧ Mode.watched .configure = true)
      ∧ ((inst (dev .run)).opens .pcie PWR.WDOG.EN.off = true ∧ (inst (dev .run)).hasRole .pcie .installer = true
        ∧ (inst (dev .run)).sealed PWR.page.base = false ∧ rangeBad PWR.WDOG.fields (0x80000064 : Word).toNat = false
        ∧ (inst (dev .run)).on PWR.WDOG.EN = false ∧ (0x80000064 : Word).getLsbD PWR.WDOG.EN.lo = true)
      ∧ (dev .run).hasRole .pcie .installer = false := by decide +kernel

theorem wit_TestAccess :
    ((jmkr (dev .factory)).mode = .factory ∧ (jmkr (dev .factory)).pwr.held = none ∧ (jmkr (dev .factory)).hasRole .jtag .maker = true)
      ∧ (storeIndex stNano 3 2047 = some 8191 ∧ storeIndex 0 15 32767 = some 524287 ∧ storeIndex 5 7 1023 = some 8191
        ∧ stNano ≠ 0)
      ∧ ((dev .run).mode ≠ .factory ∧ (dev .factory).hasRole .jtag .maker = false
        ∧ storeIndex 10 0 0 = none) := by decide +kernel
/-! ### The rules stated whole -/

theorem wit_TickPeriod :
    ((dev .configure).opens .pcie DSP.TICK.PERIOD.off = true ∧ (dev .configure).mode = .configure
        ∧ 100 ≤ (100 : Word).toNat % 2 ^ 15 ∧ (25600 : Word).toNat % 2 ^ 15 ≤ 25600 ∧ (99 : Word).toNat % 2 ^ 15 < 100
        ∧ 25600 < (25601 : Word).toNat % 2 ^ 15)
      ∧ ((dev .run).opens .pcie DSP.TICK.PERIOD.off = true ∧ (dev .run).mode ≠ .configure) := by decide +kernel

theorem wit_DepReadsAsPair :
    (dev .run).reaches (.engine 3) = true ∧ (dev .run).reaches .pcie = true ∧ Requester.spi ≠ .pcie := by decide +kernel

def sHoldover : State :=
  { (dev .holdover).setF TBU.HOLD.TMAX 2 with raw := 700, tbu := { State.reset.tbu with holdSince := some 600 } }

theorem wit_HoldoverTooLong :
    (sHoldover.tbu.holdSince = some 600 ∧ sHoldover.mode = .holdover ∧ sHoldover.tbu.holdTold = false ∧ sHoldover.f TBU.HOLD.TMAX ≠ 0)
      ∧ (dev .run).mode ≠ .holdover ∧ (sHoldover.setF TBU.HOLD.TMAX 0).f TBU.HOLD.TMAX = 0 := by decide +kernel

theorem wit_RollbackUntilTwoBefore :
    ((withCons cons1).reaches .pcie = true ∧ (withCons cons1).aborting CNS.page.base = false
        ∧ (withCons cons1).consistOf Requester.pcie.id = some 1 ∧ ((withCons cons1).consist 1).st = .opened
        ∧ ((withCons { cons1 with st := .broken }).consist 1).st = .broken ∧ (dev .run).consistOf Requester.pcie.id = none)
      ∧ (∀ c ∈ [3998, 3999], ({ withCons (closed1 (stage1 9)) with raw := c } : State).consistOf Requester.pcie.id = some 1
        ∧ (({ withCons (closed1 (stage1 9)) with raw := c } : State).consist 1).dep = some 1
        ∧ ({ withCons (closed1 (stage1 9)) with raw := c } : State).cyc = c
        ∧ (({ withCons (closed1 (stage1 9)) with raw := c } : State).consist 1).st = .closed)
      ∧ (3998 + 2 ≤ 1 * (withCons cons1).dsp.period ∧ 1 * (withCons cons1).dsp.period < 3999 + 2)
      ∧ (let s : State := { withCons { closed1 (stage1 9) with whn := 2, entry := 4, dep := none } with
          slots := [(4, { ({} : Slot) with st := .active })] }
        s.consistOf Requester.pcie.id = some 1 ∧ (s.consist 1).st = .closed ∧ (s.consist 1).dep = none ∧ (s.consist 1).whn = 2
          ∧ (s.slot (s.consist 1).entry).st = .active ∧ (s.slot (s.consist 1).entry).acted = none) := by
  refine ⟨?_, ?_, ?_, ?_⟩ <;> decide +kernel

theorem wit_TakeoverLogEntry : sTake.mode = .standby ∧ sTake.twn.sw = some switch1 := by decide +kernel
/-! ### Ill-formed commands, one for each check of WellFormed -/

def hello0 : Hello :=
  { serial := 0, mcver0 := 0, mcver1 := 0, mcver2 := 0, shnver := 0, fltver := 0, period := 400, stepping := 0xA1, pref := false, state := 0 }
def beat0 : Heartbeat := { seq := 1, dep := 1, t1 := 0, t4 := 0, live := 0, rseq := 0, faults := 0 }
def ins0 : InsRec := { slot := 16383, park := false, req := 1, bits := 0 }
def bulk0 : BulkRec := { slot := 16383, state := 1, park := false, bits := 0 }

theorem test_ill_formed_accesses :
    ∀ c ∈ [Instr.pcieReadRequest 2 1, .pcieReadRequest 4 0, .pcieReadRequest 0xFFFFFC 2, .pcieWriteRequest 1 [(0, 15)], .pcieWriteRequest 4 [],
        .spiWrite 0x1000000 [0], .spiWrite 0 [], .spiRead 0 0, .spiQwrite 0 [], .spiQread 0x1000000 1, .spiUnknownCommand 0 0x1000000,
        .registerWrite .pcie 0x200000 0, .irqSetWrite .pcie 0x200000 0, .lockSeal .pcie 0x200000, .blockAbort .pcie 0x200000,
        .abortComplete 0x200000, .todMessage [] 0, .pcieLinkUp 3 1, .pcieLinkUp 1 0, .pcieLinkUp 1 4,
        .jtagTestAccess 10 0 0 false 0, .jtagTestAccess 9 0 0 true (2 ^ 128)], c.wf = false := by decide +kernel

theorem test_ill_formed_frames :
    ∀ c ∈ [Instr.helloFrame { hello0 with period := 2 ^ 16 }, .helloFrame { hello0 with serial := 2 ^ 64 },
        .helloFrame { hello0 with stepping := 256 }, .helloFrame { hello0 with state := 8 }, .heartbeatFrame { beat0 with seq := 2 ^ 32 } 0,
        .heartbeatFrame { beat0 with dep := 2 ^ 64 } 0, .heartbeatFrame { beat0 with live := 16385 } 0,
        .heartbeatFrame { beat0 with faults := 2 ^ 16 } 0, .ackFrame (2 ^ 32) 0, .insFrame 1 [{ ins0 with slot := 16384 }],
        .insFrame 1 [{ ins0 with req := 256 }], .insFrame 1 [{ ins0 with bits := 2 ^ 128 }], .canFrame 1 16384 false 0, .canFrame 1 0 false 256,
        .retFrame 1 [(0, 16)], .consFrame 1 4 0 0 0 true [], .consFrame 1 0 0 3 0 true [], .consFrame 1 0 0 0 0 true [(0x200000, 0)],
        .consAtFrame 1 4 0, .consEndFrame 1 0 16, .mapFrame 1 (2 ^ 64) 0, .mapFrame 1 0 (2 ^ 64), .bulkFrame 1 [{ bulk0 with state := 4 }] true,
        .switchFrame (2 ^ 64)], c.wf = false := by decide +kernel

theorem test_well_formed :
    ∀ c ∈ [Instr.pcieReadRequest 0xFFFFFC 1, .spiRead 3 1, .registerWrite .pcie 0x1FFFFC 0, .helloFrame hello0, .heartbeatFrame beat0 0,
        .insFrame 1 [ins0], .bulkFrame 1 [bulk0] true, .retFrame 1 [(16383, 15)], .consFrame 1 3 0 2 0 true [(0x140050, 0)], .pcieLinkUp 2 3,
        .jtagTestAccess 9 3 2047 true (2 ^ 128 - 1), .departureBoundary], c.wf = true := by decide +kernel

/-! ### Values that the manual's tables and worked examples give -/

/-- The next state of an outcome. -/
def nextOf (o : Host.Outcome State Fault Refusal) : State := match o with | .next t => t | _ => State.reset

/-- Ch. 7, table of the encoded routine: microwords. -/
theorem test_microwords :
    mSeq 0x608F08 = sqMwb ∧ mNp 0x608F08 = 0x047 ∧ mImm 0x608F08 = 0x108 ∧ mSeq 0x509000 = sqEnd ∧ mNp 0x509000 = 0x048
      ∧ mSeq 0x10010C = sqJump ∧ mImm 0x10010C = 0x10C ∧ mNp 0x008C67 = 0x046 ∧ mImm 0x008C67 = 0x067 := by decide +kernel

/-- Ch. 7, nanowords 0x040, 0x042, 0x043, 0x044, 0x045, 0x047 as decoded there. -/
theorem test_nanowords :
    let w (a b c d : Nat) : Nat := a * 2 ^ 96 + b * 2 ^ 64 + c * 2 ^ 32 + d
    let n40 := w 0x00000180 0x80400000 0x00000002 0
    let n42 := w 0x08982000 0 0 0
    let n43 := w 0x8E118800 0 0 0
    let n44 := w 0x92201000 0x00020000 0 0
    let n45 := w 0x085A1000 0 0 0xFFFFFD33
    let n47 := w 0 0x000018A0 0x00400000 0
    (nAcc n40 = 3 ∧ nAofs n40 = 0x100 ∧ nAdat n40 = 0x10 ∧ nAbs n40 = true)
      ∧ (nAlu n42 = 0x02 ∧ nSrcA n42 = 0x04 ∧ nSrcB n42 = 0x18 ∧ nDst n42 = 0x04)
      ∧ (nAlu n43 = 0x23 ∧ nSrcA n43 = 0x10 ∧ nSrcB n43 = 0x11 ∧ nDst n43 = 0x11)
      ∧ (nAlu n44 = 0x24 ∧ nSrcA n44 = 0x11 ∧ nDst n44 = 0x02 ∧ nFlagW n44 = 2)
      ∧ (nAlu n45 = 0x02 ∧ nSrcB n45 = 0x1A ∧ nK32 n45 = 0xFFFFFD33)
      ∧ (nCsel n47 0 = 3 ∧ nCsel n47 1 = 5 ∧ nNsel n47 = 1) := by decide +kernel

/-- Ch. 7: SDIFF of the two stamps is 774 units; SNAR keeps it; the sum with −717 compares below 103 with C = 1. -/
theorem test_flash_delay :
    (alu64 0x23 76800008662 76800007888).res = 774 ∧ (alu64 0x24 774 0).res = 774 ∧ (alu64 0x24 774 0).sat = false
      ∧ (alu32 0x02 774 0xFFFFFD33).res = 57 ∧ (alu32 0x16 57 103).c = true := by decide +kernel

/-- Ch. 10, the NMEA program: the operation of each word. -/
theorem test_nmea_program :
    [0x9C01, 0x6000, 0x8207, 0xA800, 0x2000, 0xC807, 0xA900, 0x4010, 0x180C, 0x1008, 0xB001, 0x0002].map shOp
      = [.ldi, .load, .copy, .add, .at_, .lcnt, .add, .send, .loop, .loop, .sig, .br] := by decide +kernel

/-- Ch. 10: T = 145,032,704 is extended to cycle 4,440,000,000 near 4,400,000,000. -/
theorem test_at_extends : extendT 145032704 4400000000 = 4440000000 := by decide +kernel

/-- Ch. 5: tooth 236 of 1,024, and tooth 1 of 48. -/
theorem test_tooth_angles : thetaOf 1024 236 = 3866624 ∧ thetaOf 1024 235 = 3850240 ∧ thetaOf 48 1 = 349525 := by decide +kernel

/-- Ch. 11, a collided handshake: the host's 1 and ME2's 0 meet in word 0x0200 / 4 of the interchange bank. -/
theorem test_collision :
    let t := nextOf (exec .icbAccess { withMem { ({} : Mem) with
      portA := [{ sid := 16, idx := 0x80, req := eng 2, kind := .engWrite 0, since := 420 }]
      portB := [{ req := some .pcie, idx := 0x80, val := 1, be := 15, write := true }] } with raw := 2000 })
    t.reg MEM.COLLIDE0.REQ.off = 0x01140200 ∧ t.icbPeek 0x80 = 0 ∧ t.f MEM.CNT_EVT.LO = 1 ∧ t.on MEM.IRQ_RAW.COLLIDE = true := by
  decide +kernel

/-- Ch. 11, a borrowed siding: the first commit word goes ahead of the reads issued in its cycle; after ME0 comes ME1, with its data
four cycles after its grant. -/
theorem test_borrowed_siding :
    let read (e : Fin 8) (i : Nat) : Wait := { sid := 5, idx := 5 * 32768 + i, req := eng e, kind := .engRead 1 2 1000, since := 1000 }
    let word1 : Wait := { sid := 5, idx := 5 * 32768 + 9, req := eng 6, kind := .commit 1, since := 1000 }
    let dma : Wait := { sid := 5, idx := 0, req := .tbu, kind := .dma 3, since := 1000 }
    let s (ws : List Wait) : State := { withMem { ({} : Mem) with bgtPhase := 1, bgtSid := 5, lastEng := [(5, 0)], waits := ws } with raw := 1000 }
    (nextOf (exec (.sidingGrant 5) (s [read 3 0x104, read 1 0x100, dma, word1]))).mem.waits = [read 3 0x104, read 1 0x100, dma]
      ∧ (nextOf (exec (.sidingGrant 5) (s [read 3 0x104, read 1 0x100, dma]))).mem.arrivals.map (fun a => (a.eng, a.time)) = [(1, 1004)] := by
  decide +kernel

/-- Ch. 12, the stamp stream: the descriptor's byte 6 of a slot closed by TIMEOUT, and the report's R. -/
theorem test_slot_descriptor :
    (slotHead 0 { idx := 10000, payload := List.replicate 32 0, opened := 0 } true false false 0).take 8
      = [0x10, 0x27, 0, 0, 32, 0, 0x08, 0] := by decide +kernel

/-- Ch. 15, the loss of a PRIMARY: at c′ = 4,000,002,000 the entry inside the ambiguous window is retired ABORTED, and LASTSW and the
logbook's DEP are as given. -/
theorem test_takeover :
    let bits (start : Nat) : Nat := start * 64
    let s : State := { withTwn .standby { twnS with sw := some { trig := 1, w := 4000001600, cv := 4000000000 } } with
      raw := 4000001700, dsp := { ({} : Dsp) with period := 400, bdep := 10000004 }
      slots := [(12, { ({} : Slot) with st := .queued, bits := bits 4000001000 }), (6, { ({} : Slot) with st := .queued, bits := bits 4000002500 })] }
    let t := nextOf (exec .switchoverTakeover (s.setF TWN.LASTSW.TRIGGER 1))
    t.reg TWN.LASTSW.TRIGGER.off = 0x10989685 ∧ t.f TWN.COUNT.AMBIG = 1 ∧ (t.slot 12).out = outAborted ∧ (t.slot 6).st = .queued
      ∧ t.raw = 4000002000 ∧ SMap.get (fun _ => 0) t.mem.book 3 = 0x00989685 := by decide +kernel

/-- Ch. 13, two illuminator drives: the COMMIT that completes at 1,200,150,000 closes K0 for departure 3,000,500; at 1,200,199,999 it
would be discarded. -/
theorem test_commit_deadline :
    let s (c : Nat) : State := ({ withCons {} with raw := c, cons := [(0, cons1)], dsp := { ({} : Dsp) with period := 400 } } : State).setPreg 1 CNS.CDEP_LO.V.off 0x002DC8B4
    ((nextOf (exec (.consistCommit .pcie 0x90000000) (s 1200150000))).consist 0).dep = some 3000500
      ∧ ((nextOf (exec (.consistCommit .pcie 0x90000000) (s 1200199999))).consist 0).st = .opened := by decide +kernel

/-- Ch. 17, an uncorrectable word: FLTACT 0x16 asks for a warm restart, KS_FAULT becomes 0x0002_0001. -/
theorem test_uncorrectable_restarts :
    let s : State := ((withMem { ({} : Mem) with waits := [engR], ecc := [(32773, 2)] }).setReg PWR.FLTACT.UNCORR.off 0x16)
    (nextOf (exec (.sidingGrant 1) s)).mode = .boot
      ∧ (nextOf (exec (.sidingGrant 1) s)).reg PWR.KS_FAULT.LAST.off = 0x00020001
      ∧ (nextOf (exec (.sidingGrant 1) s)).f PWR.KS_CAUSE.CAUSE = 4 := by decide +kernel

end Sys2Proof.Tests
end

section
/-! PROOFS. What follows a command in a quiet state: each part of `settle` that finds nothing owed leaves the state alone
(R384, R387, R40, R371, R275, R266, R292), and interrupt messages and keepers (R300, R85) change no register. -/

namespace Sys2Proof.Machine

variable (s : State)

theorem State.react_of_no_fault (h : s.pwr.faults = []) : s.react = s := by unfold State.react; rw [h]

theorem State.actHeld_of_none (h : s.pwr.heldFault = none) : s.actHeld = s := by unfold State.actHeld; rw [h]

theorem State.undoCmd_of_stays (h : s.stays) : s.undoCmd = s := by
  unfold State.undoCmd
  split
  · rfl
  · next c m ht =>
    have hno : (c = s.raw && s.mode = .configure && s.runMode ≠ m) = false := by
      by_contra hc
      simp only [Bool.not_eq_false, Bool.and_eq_true, decide_eq_true_eq] at hc
      obtain ⟨⟨hraw, hmode⟩, hne⟩ := hc
      exact hne (h c m ht hraw hmode)
    rw [hno]; rfl

theorem State.toMode_self : s.toMode s.mode = s := by unfold State.toMode; rw [if_pos rfl]

theorem State.autoMove_of_runMode (h : s.mode.running = true → s.runMode = s.mode) : s.autoMove = s := by
  unfold State.autoMove
  split
  · next hr => rw [h hr, s.toMode_self]
  · rfl

theorem State.copyTick_of_none (h : s.mem.copyReg = none) : s.copyTick = s := by
  simp [State.copyTick, State.copyFlush, h]

theorem State.writeAll_of_idle (hs : s.hst.stampOut = none) (ho : s.hst.optOut = none) (hq : s.twn.toRing = []) :
    s.writeAll = s := by
  simp [State.writeAll, State.writeOn, State.queueOn, State.writerOf, hs, ho, hq]

theorem State.fillAll_of_no_slot (h : s.hst.streams.any (fun e => e.2.slot.isSome) = false) : s.fillAll = s := by
  simp [State.fillAll, h]

/-- In a quiet state nothing but interrupt messages and the keepers follows a command. -/
theorem settle_of_quiet (h : s.Quiet) : settle s = s.notify.keepAll := by
  obtain ⟨hfaults, hheld, hstays, hrun, hcopy, hstamp, hopt, hring, hslots, -⟩ := h
  simp only [settle, State.autoMode, s.react_of_no_fault hfaults, s.undoCmd_of_stays hstays, s.autoMove_of_runMode hrun,
    s.actHeld_of_none hheld, s.copyTick_of_none hcopy, s.writeAll_of_idle hstamp hopt hring, s.fillAll_of_no_slot hslots]

@[simp] theorem State.message_regs (v : Nat) : (s.message v).regs = s.regs := by
  unfold State.message
  split
  · rfl
  · split <;> rfl

theorem State.foldl_message_regs (vs : List Nat) : (vs.foldl State.message s).regs = s.regs := by
  induction vs generalizing s with
  | nil => rfl
  | cons v vs ih => rw [List.foldl_cons, ih, State.message_regs]

@[simp] theorem State.notify_regs : s.notify.regs = s.regs := by
  unfold State.notify
  dsimp only
  split
  · rfl
  · exact s.foldl_message_regs _

@[simp] theorem State.keepAll_regs : s.keepAll.regs = s.regs := rfl

theorem settle_regs_of_quiet (h : s.Quiet) : (settle s).regs = s.regs := by
  rw [settle_of_quiet s h, State.keepAll_regs, State.notify_regs]

end Sys2Proof.Machine
end

section
/-! PROOFS. The words held per requester (R14): each requester has its own, and a read of DSP.DEP_HI answers it. -/

namespace Sys2Proof.Machine

theorem requesterOf_id (r : Requester) : requesterOf r.id = some r := by
  cases r with
  | engine e => revert e; decide
  | _ => rfl

/-- No two requesters share an identity (R78). -/
theorem Requester.id_injective : Function.Injective Requester.id := fun q r h =>
  Option.some.inj (by rw [← requesterOf_id q, h, requesterOf_id])

/-- Another requester's word at an address keeps its value. -/
theorem State.preg_setPreg_ne (s : State) (k j a : Nat) (v : Word) (h : j ≠ k) : (s.setPreg k a v).preg j a = s.preg j a :=
  SMap.get_put_ne (fun _ => 0) s.preqs (pkey k a) v (pkey j a) (by unfold pkey; omega)

/-- A requester's words depend on the copies alone. -/
theorem State.preg_congr {u t : State} (h : u.preqs = t.preqs) (k a : Nat) : u.preg k a = t.preg k a := by
  unfold State.preg; rw [h]

theorem State.read_depHi (s : State) (r : Requester) :
    (s.read r DSP.DEP_HI.V.off).2.1 = s.preg r.id DSP.DEP_HI.V.off := rfl

end Sys2Proof.Machine
end

section
open Sys2Proof Sys2Proof.Machine

/-- Settles O57: the read writes its requester's copy of DEP_HI and no other, and a read of DEP_HI answers the copy. -/
theorem depReadsAsPair : Obligations.DepReadsAsPair := by
  intro s r hr
  refine ⟨(s.depLo r).1.answer r DSP.DEP_LO.V.off (s.depLo r).2, ?_, rfl, ?_, ?_, rfl⟩
  · rw [exec_depLoRead, execDepLoRead, readAt_reach s r _ _ hr]
  · intro u hu
    rw [State.read_depHi, State.preg_congr hu]
    exact State.preg_setPreg_self s _ _ _
  · intro u q hu hq
    rw [State.read_depHi, State.read_depHi, State.preg_congr hu]
    exact State.preg_setPreg_ne s _ _ _ _ (Requester.id_injective.ne hq)

end

section
/-! PROOFS. A write of DSP.TICK in a state that notes bits of DSP.TICK as set by the hardware in this cycle. The common rule of
a register write (R9) takes noted bits out of the value for every access type, so that the RW field PERIOD takes the value
without them; the statement asks for the whole value on every state. `State.set1` notes bits of W1C fields alone: the state
below is one that the statement's quantifier admits, not one that `set1` makes. -/

namespace Sys2Proof.Machine

/-- Configure, every bit of DSP.TICK noted in the raw cycle now, with the register words `rs`. -/
def tickNoted (rs : SMap Word) : State :=
  { State.reset with mode := .configure, regs := rs, seenNow := { events := [(DSP.TICK.PERIOD.off, 0xFFFFFFFF)] } }

theorem tickNoted_quiet (rs : SMap Word) : (tickNoted rs).Quiet := by
  refine ⟨rfl, rfl, fun c m h => ?_, fun h => ?_, rfl, rfl, rfl, rfl, rfl, fun e h => ?_⟩ <;> cases h

theorem eq_tickNoted {t : State} (h : { t with regs := (tickNoted []).regs } = tickNoted []) : t = tickNoted t.regs :=
  calc t = { ({ t with regs := (tickNoted []).regs } : State) with regs := t.regs } := rfl
    _ = tickNoted t.regs := by rw [h]; rfl

/-- The write stores nothing of 100. -/
theorem tick_tickNoted : ((tickNoted []).tick .pcie 100).f DSP.TICK.PERIOD = 0 := by decide

theorem tick_tickNoted_quiet : ((tickNoted []).tick .pcie 100).Quiet := tickNoted_quiet _

end Sys2Proof.Machine
end

section
open Sys2Proof Sys2Proof.Machine

/-- Refutes O56: where every bit of DSP.TICK is noted in this cycle, a write of 100 in Configure leaves PERIOD 0. -/
theorem not_tickPeriod : ¬ Obligations.TickPeriod := by
  rintro ⟨hwrite, -, -⟩
  have hopens : (tickNoted []).opens .pcie DSP.TICK.PERIOD.off = true := by decide
  obtain ⟨hconf, -, -⟩ := hwrite (tickNoted []) .pcie 100 hopens
  obtain ⟨t, hexec, hperiod, -, -, hframe⟩ := hconf rfl (by decide) (by decide)
  rw [exec_tickWrite, execTickWrite, write_opens _ _ _ _ hopens] at hexec
  have hsettle : settle ((tickNoted []).tick .pcie 100) = settle t := Host.Outcome.next.inj hexec
  have hquiet : t.Quiet := eq_tickNoted hframe ▸ tickNoted_quiet t.regs
  have hregs : ((tickNoted []).tick .pcie 100).regs = t.regs := by
    rw [← settle_regs_of_quiet _ tick_tickNoted_quiet, hsettle, settle_regs_of_quiet t hquiet]
  have hsame : ((tickNoted []).tick .pcie 100).f DSP.TICK.PERIOD = t.f DSP.TICK.PERIOD := by
    simp only [State.f, State.reg, hregs]
  rw [tick_tickNoted, hperiod] at hsame
  exact absurd hsame (by decide)

end

section
/-! PROOFS. The raw clock and the timebase's own state through a change of mode (R43): of all that a mode's entry brings the other
blocks, nothing moves the clock or touches the timebase, so that Holdover counts its seconds from the cycle of its entry. -/

namespace Sys2Proof.Machine

variable (s : State)

/-- The raw clock and the timebase's own state, read together. -/
def State.timebase : Nat × Tbu := (s.raw, s.tbu)

theorem State.foldl_timebase {α : Type} {f : State → α → State} (h : ∀ t a, (f t a).timebase = t.timebase) (l : List α) :
    (l.foldl f s).timebase = s.timebase := by
  induction l generalizing s with
  | nil => rfl
  | cons a l ih => rw [List.foldl_cons, ih, h]

/-! ### The small operations -/

@[simp] theorem State.setF_timebase (g : Fld) (v i : Nat) : (s.setF g v i).timebase = s.timebase := rfl
@[simp] theorem State.set1_timebase (g : Fld) (i : Nat) : (s.set1 g i).timebase = s.timebase := rfl
@[simp] theorem State.bump_timebase (g : Fld) (n i : Nat) : (s.bump g n i).timebase = s.timebase := rfl
@[simp] theorem State.fault_timebase (c : Nat) : (s.fault c).timebase = s.timebase := rfl
@[simp] theorem State.setPreg_timebase (k a : Nat) (v : Word) : (s.setPreg k a v).timebase = s.timebase := rfl
@[simp] theorem State.setTrack_timebase (t : Nat) (x : Track) : (s.setTrack t x).timebase = s.timebase := rfl
@[simp] theorem State.setRuler_timebase (u : Nat) (x : Ruler) : (s.setRuler u x).timebase = s.timebase := rfl
@[simp] theorem State.setEngine_timebase (e : Nat) (x : Engine) : (s.setEngine e x).timebase = s.timebase := rfl
@[simp] theorem State.setConsist_timebase (k : Nat) (x : Consist) : (s.setConsist k x).timebase = s.timebase := rfl
@[simp] theorem State.setChan_timebase (c : Nat) (x : OptChan) : (s.setChan c x).timebase = s.timebase := rfl
@[simp] theorem State.hang_timebase (i : Nat) (p : Place) (t b : Nat) : (s.hang i p t b).timebase = s.timebase := rfl
@[simp] theorem State.lineEdge_timebase (c u : Nat) (v : Bool) (t : Nat) : (s.lineEdge c u v t).timebase = s.timebase := rfl
@[simp] theorem State.shnThaw_timebase (d : Nat) : (s.shnThaw d).timebase = s.timebase := rfl
@[simp] theorem State.ruPassed_timebase (u : Nat) (p : RuStart → Bool) : (s.ruPassed u p).timebase = s.timebase := rfl

@[simp] theorem State.acted_timebase (c : LoadSrc) (o : Nat) : (s.acted c o).timebase = s.timebase :=
  Prod.ext (s.acted_raw c o) (s.acted_tbu c o)

@[simp] theorem State.mirror_timebase (m : Mirror) : (s.mirror m).timebase = s.timebase :=
  Prod.ext (s.mirror_raw m) (s.mirror_tbu m)

@[simp] theorem State.memThaw_timebase (d : Nat) : (s.memThaw d).timebase = s.timebase := by
  unfold State.memThaw; split <;> rfl

@[simp] theorem State.ppsHalt_timebase : s.ppsHalt.timebase = s.timebase := by
  unfold State.ppsHalt; dsimp only; split <;> rfl

/-! ### Consists -/

@[simp] theorem State.noteOutcome_timebase (w o : Nat) : (s.noteOutcome w o).timebase = s.timebase := by
  simp [State.noteOutcome, apply_ite State.timebase]

@[simp] theorem State.consistEnd_timebase (k o : Nat) : (s.consistEnd k o).timebase = s.timebase := by
  have htwn (t : State) (w : Twn) : ({ t with twn := w } : State).timebase = t.timebase := rfl
  simp [State.consistEnd, apply_ite State.timebase, htwn]

@[simp] theorem State.missPassed_timebase : s.missPassed.timebase = s.timebase := by
  refine s.foldl_timebase (fun t k => ?_) _
  dsimp only
  split
  · split <;> simp
  · rfl

@[simp] theorem State.stepConsists_timebase (w : Nat) : (s.stepConsists w).timebase = s.timebase := by
  refine s.foldl_timebase (fun t k => ?_) _
  dsimp only
  split
  · rfl
  · simp [apply_ite State.timebase]

/-! ### The timetable -/

@[simp] theorem State.newPeriod_timebase (p : Nat) : (s.newPeriod p).timebase = s.timebase := by
  unfold State.newPeriod; split <;> rfl

@[simp] theorem State.leaveConfigure_timebase : s.leaveConfigure.timebase = s.timebase := by
  simp [State.leaveConfigure, apply_ite State.timebase]

@[simp] theorem State.placeTime_timebase (i t : Nat) : (s.placeTime i t).timebase = s.timebase := by
  simp [State.placeTime, apply_ite State.timebase]

@[simp] theorem State.hangAll_timebase (is : List Nat) (p : Place) : (s.hangAll is p).timebase = s.timebase :=
  s.foldl_timebase (fun t i => t.hang_timebase i p _ _) is

@[simp] theorem State.sweep_timebase (is : List Nat) : (s.sweep is).timebase = s.timebase :=
  s.foldl_timebase (fun t i => by simp [apply_ite State.timebase]) is

@[simp] theorem State.catchUp_timebase : s.catchUp.timebase = s.timebase := by
  simp [State.catchUp]

@[simp] theorem State.resumeMoves_timebase : s.resumeMoves.timebase = s.timebase := by
  rw [← s.catchUp_timebase]; unfold State.resumeMoves; dsimp only; split <;> rfl

@[simp] theorem State.startMoves_timebase : s.startMoves.timebase = s.timebase := by
  simp [State.startMoves, apply_ite State.timebase]

/-! ### Engines and ruling units -/

@[simp] theorem State.engResumeAll_timebase : s.engResumeAll.timebase = s.timebase :=
  s.foldl_timebase (fun t e => by simp [apply_ite State.timebase]) _

@[simp] theorem State.noteTrig_timebase (c u : Nat) (v : Bool) : (s.noteTrig c u v).timebase = s.timebase :=
  s.foldl_timebase (fun t n => by dsimp only; split <;> rfl) _

@[simp] theorem State.noteEdge_timebase (c u : Nat) (v : Bool) : (s.noteEdge c u v).timebase = s.timebase := by
  rw [← s.noteTrig_timebase c u v]
  exact (s.noteTrig c u v).foldl_timebase (fun t n => by simp [apply_ite State.timebase]) _

@[simp] theorem State.linkDelay_timebase (t low : Nat) : (s.linkDelay t low).1.timebase = s.timebase := by
  unfold State.linkDelay; dsimp only; split <;> rfl

@[simp] theorem State.linkEdge_timebase (c u : Nat) (v : Bool) : (s.linkEdge c u v).timebase = s.timebase :=
  s.foldl_timebase (fun t n => (State.setTrack_timebase _ n _).trans (t.linkDelay_timebase n 512)) _

@[simp] theorem State.ruShow_timebase (t : State) (u c : Nat) : (s.ruShow t u c).timebase = t.timebase := by
  simp [State.ruShow, apply_ite State.timebase]

@[simp] theorem State.ruDropStart_timebase (u o : Nat) : (s.ruDropStart u o).timebase = s.timebase := by
  unfold State.ruDropStart; dsimp only; split <;> simp

@[simp] theorem State.ruDropStop_timebase (u o : Nat) : (s.ruDropStop u o).timebase = s.timebase := by
  unfold State.ruDropStop; dsimp only; split <;> simp

@[simp] theorem State.ruLatch_timebase (u : Nat) : (s.ruLatch u).timebase = s.timebase := by
  simp [State.ruLatch, apply_ite State.timebase]

@[simp] theorem State.rulThaw_timebase (u : Nat) : (s.rulThaw u).timebase = s.timebase := by
  simp [State.rulThaw, apply_ite State.timebase]

/-! ### The change of mode -/

@[simp] theorem State.leaveHalt_timebase : s.leaveHalt.timebase = s.timebase := by
  have hthaw (t : State) (us : List Nat) : (us.foldl (fun s u => s.rulThaw u) t).timebase = t.timebase :=
    t.foldl_timebase (fun t u => t.rulThaw_timebase u) us
  simp [State.leaveHalt, apply_ite State.timebase, hthaw]

/-- An entry to Holdover: the count of R43 starts in its cycle, HOLD_LONG is not told yet. -/
theorem State.toMode_holdover_tbu (h : s.mode ≠ .holdover) :
    (s.toMode .holdover).tbu = { s.tbu with holdSince := some s.raw, holdTold := false, ppsStop := true } := by
  unfold State.toMode
  rw [if_neg h]
  extract_lets old entered missed _ kicked left started since _ counting halted resumed deaf
  have hkicked : kicked.timebase = missed.timebase := rfl
  have hbefore : started.timebase = s.timebase := by
    have hentered : entered.timebase = s.timebase := rfl
    simp only [started, left, hkicked, missed, hentered, apply_ite State.timebase, State.startMoves_timebase,
      State.leaveConfigure_timebase, State.missPassed_timebase, ite_self]
  have hafter : resumed.timebase = counting.timebase := by
    simp only [resumed, halted, apply_ite State.timebase, State.leaveHalt_timebase, State.ppsHalt_timebase, ite_self]
  have hraw : started.raw = s.raw := congrArg Prod.fst hbefore
  have htbu : started.tbu = s.tbu := congrArg Prod.snd hbefore
  calc resumed.tbu = counting.tbu := congrArg Prod.snd hafter
    _ = { started.tbu with holdSince := some started.raw, holdTold := false, ppsStop := true } := rfl
    _ = { s.tbu with holdSince := some s.raw, holdTold := false, ppsStop := true } := by rw [hraw, htbu]

/-! ### HOLD_LONG -/

theorem State.on_fault_ne (c : Nat) (g : Fld) (i : Nat) (h : g.off + i ≠ PWR.FLTSTS.FAULT.off) :
    (s.fault c).on g i = s.on g i :=
  congrArg (fun n => decide (n ≠ 0)) (s.f_setF_ne PWR.FLTSTS.FAULT g _ 0 i h)

/-- The state in which Holdover, entered in raw cycle `u`, has lasted TMAX seconds and the interrupt is told. -/
def State.heldLong (u : Nat) : State :=
  ({ s.advance (u + s.f TBU.HOLD.TMAX * 400000000) with tbu := { s.tbu with holdTold := true } } : State).set1
    TBU.IRQ_RAW.HOLD_LONG |>.fault 0x06

theorem execHoldLong_due {u : Nat} (hu : s.tbu.holdSince = some u) (hm : s.mode = .holdover) (ht : s.tbu.holdTold = false)
    (hn : s.f TBU.HOLD.TMAX ≠ 0) : execHoldLong s = .next (settle (s.heldLong u)) := by
  simp [execHoldLong, hu, hm, ht, hn, done, State.heldLong]

theorem execHoldLong_tmax_zero (hn : s.f TBU.HOLD.TMAX = 0) : execHoldLong s = .next (settle s) := by
  unfold execHoldLong
  cases s.tbu.holdSince with
  | none => rfl
  | some u => simp [hn, done]

theorem State.on_heldLong (u : Nat) : (s.heldLong u).on TBU.IRQ_RAW.HOLD_LONG = true := by
  rw [State.heldLong, State.on_fault_ne _ _ _ _ (by decide)]
  exact State.on_set1 _ _ _ (by decide) rfl

end Sys2Proof.Machine
end

section
open Sys2Proof Sys2Proof.Machine

/-- Settles O58: HOLD_LONG is told once the seconds from the entry to Holdover have passed, and nothing that the entry brings the
other blocks moves the cycle from which they are counted. -/
theorem holdoverTooLong : Obligations.HoldoverTooLong := by
  refine ⟨fun s u hu hm ht hn => ?due, fun s hm => ?entry, fun s hn => ?disabled⟩
  case due =>
    exact ⟨s.heldLong u, (exec_holdLong s).trans (execHoldLong_due s hu hm ht hn), s.on_heldLong u, hm, rfl, rfl, rfl⟩
  case entry => rw [s.toMode_holdover_tbu hm]; exact ⟨rfl, rfl⟩
  case disabled => rw [exec_holdLong, execHoldLong_tmax_zero s hn]

end

section
/-! PROOFS. What follows a command, and the fault register of engine 7. `settle` does not determine the state that it settles: a
statement that some settled state has a given outcome is refuted by what settling keeps of any state. The word at MEN.FAULT of
engine 7 and the engines' own state stay through all that follows a command (R40, R275, R266, R346, R292, R300, R85), unless a fault
reaction acts (R385, R375), and that one leaves engine 7 no pending event. -/

namespace Sys2Proof.Machine

variable (s : State)

/-- The address of MEN.FAULT of engine 7. -/
abbrev faultReg : Nat := MEN.FAULT.REASON.off + pgAt 7

/-- Engine 7's MEN.FAULT, and the state of the engines, read together. -/
def State.faultBook : Word × SMap Engine := (s.reg faultReg, s.eng)

theorem State.foldl_faultBook {α : Type} {f : State → α → State} (h : ∀ t a, (f t a).faultBook = t.faultBook) (l : List α) :
    (l.foldl f s).faultBook = s.faultBook := by
  induction l generalizing s with
  | nil => rfl
  | cons a l ih => rw [List.foldl_cons, ih, h]

theorem State.setReg_faultBook (a : Nat) (v : Word) (h : faultReg ≠ a) : (s.setReg a v).faultBook = s.faultBook :=
  congrArg (·, s.eng) (s.reg_setReg_ne a v _ h)

theorem State.setF_faultBook (g : Fld) (v i : Nat) (h : faultReg ≠ g.off + i) : (s.setF g v i).faultBook = s.faultBook :=
  s.setReg_faultBook _ _ h

theorem State.set1_faultBook (g : Fld) (i : Nat) (h : faultReg ≠ g.off + i) : (s.set1 g i).faultBook = s.faultBook :=
  s.setF_faultBook _ _ _ h

theorem State.bump_faultBook (g : Fld) (n i : Nat) (h : faultReg ≠ g.off + i) : (s.bump g n i).faultBook = s.faultBook :=
  s.setF_faultBook _ _ _ h

@[simp] theorem State.fault_faultBook (c : Nat) : (s.fault c).faultBook = s.faultBook :=
  s.setF_faultBook _ _ _ (by decide)

/-! ### The stores and the order of access -/

@[simp] theorem State.withMem_faultBook (x : Mem) : ({ s with mem := x } : State).faultBook = s.faultBook := rfl
@[simp] theorem State.withHst_faultBook (x : Hst) : ({ s with hst := x } : State).faultBook = s.faultBook := rfl
@[simp] theorem State.withTwn_faultBook (x : Twn) : ({ s with twn := x } : State).faultBook = s.faultBook := rfl
@[simp] theorem State.withPwr_faultBook (x : Pwr) : ({ s with pwr := x } : State).faultBook = s.faultBook := rfl
@[simp] theorem State.putHome_faultBook (i : Nat) (v : Word) : (s.putHome i v).faultBook = s.faultBook := rfl
@[simp] theorem State.putRelief_faultBook (i : Nat) (v : Word) : (s.putRelief i v).faultBook = s.faultBook := rfl
@[simp] theorem State.setEcc_faultBook (k i e : Nat) : (s.setEcc k i e).faultBook = s.faultBook := rfl
@[simp] theorem State.useBank_faultBook (d n : Nat) : (s.useBank d n).faultBook = s.faultBook := rfl
@[simp] theorem State.touch_faultBook (k : Nat) : (s.touch k).faultBook = s.faultBook := rfl

@[simp] theorem State.noteWait_faultBook (n : Nat) : (s.noteWait n).faultBook = s.faultBook :=
  s.setF_faultBook _ _ _ (by decide)

@[simp] theorem State.checked_faultBook (k i : Nat) : (s.checked k i).faultBook = s.faultBook := by
  have hcount (t : State) : ((t.bump MEM.ECCCNT.UNCORR).set1 MEM.IRQ_RAW.UNCORR).faultBook = t.faultBook := by
    rw [State.set1_faultBook _ _ _ (by decide), State.bump_faultBook _ _ _ _ (by decide)]
  have hcap (t : State) (b : Bool) (v : Word) : (if b then t else t.setReg MEM.UECAP.VALID.off v).faultBook = t.faultBook := by
    split
    · rfl
    · exact t.setReg_faultBook _ _ (by decide)
  unfold State.checked
  dsimp only
  split
  · rfl
  · split
    · split <;> rfl
    · rw [State.fault_faultBook, hcap, hcount]

@[simp] theorem State.copyFlush_faultBook : s.copyFlush.faultBook = s.faultBook := by
  unfold State.copyFlush
  split
  · rfl
  · dsimp only; split <;> rfl

@[simp] theorem State.copyTick_faultBook : s.copyTick.faultBook = s.faultBook := by
  simp [State.copyTick, apply_ite State.faultBook]

@[simp] theorem State.copyStep_faultBook (c : Nat) : (s.copyStep c).faultBook = s.faultBook := by
  unfold State.copyStep
  dsimp only
  split
  · exact s.copyFlush_faultBook
  · rw [State.withMem_faultBook, State.checked_faultBook, State.copyFlush_faultBook]

@[simp] theorem State.copyMeets_faultBook (d c : Nat) (m : Bool) : (s.copyMeets d c m).faultBook = s.faultBook := by
  simp [State.copyMeets, apply_ite State.faultBook]

@[simp] theorem State.passCopy_faultBook (d : Nat) (w : Wait) : (s.passCopy d w).faultBook = s.faultBook := by
  simp [State.passCopy, apply_ite State.faultBook]

@[simp] theorem State.noteGrant_faultBook (d : Nat) (w : Wait) : (s.noteGrant d w).faultBook = s.faultBook := by
  simp [State.noteGrant, apply_ite State.faultBook]

@[simp] theorem State.logWrite_faultBook (i : Nat) (v : Word) : (s.logWrite i v).faultBook = s.faultBook := by
  unfold State.logWrite
  extract_lets d m emptied
  have hboth (t : State) (h : t.faultBook = s.faultBook) : (if m.bgtPhase = 1 then t.putRelief (i % 32768) v
      else (t.putHome i v).putRelief (i % 32768) v).faultBook = s.faultBook := by
    split
    · exact h
    · exact h
  split
  · rfl
  · split
    · refine hboth _ ?_
      dsimp only [emptied]
      split
      · split <;> rfl
      · rfl
    · rfl

@[simp] theorem State.logRead_faultBook (i : Nat) : (s.logRead i).faultBook = s.faultBook := s.checked_faultBook _ _

theorem State.serve_dma_faultBook (w : Wait) (tag : Nat) (h : w.kind = .dma tag) : (s.serve w).faultBook = s.faultBook := by
  obtain ⟨sid, idx, req, kind, since⟩ := w
  cases h
  unfold State.serve
  dsimp only
  rw [State.withMem_faultBook, State.noteWait_faultBook]

theorem State.give_dma_faultBook (d : Nat) (w : Wait) (tag : Nat) (h : w.kind = .dma tag) :
    (s.give d w).faultBook = s.faultBook := by
  simp [State.give, State.serve_dma_faultBook _ w tag h]

@[simp] theorem State.dmaLone_faultBook (d : Nat) (w : Wait) (g : Nat) : (s.dmaLone d w g).1.faultBook = s.faultBook := by
  unfold State.dmaLone
  simp [apply_ite State.faultBook, apply_ite Prod.fst]

/-- The access of an internal DMA requester that waits for a siding is one of the DMA class, and so is a new one. -/
theorem dmaWait_kind (ws : List Wait) (d tag since : Nat) :
    ((ws.find? (fun w => w.sid = d && w.kind = .dma tag)).getD
      { sid := d, idx := 0, req := .tbu, kind := .dma tag, since := since }).kind = .dma tag := by
  cases hw : ws.find? (fun w => w.sid = d && w.kind = .dma tag) with
  | none => rfl
  | some w =>
    have hfound : w.sid = d ∧ w.kind = .dma tag := by simpa using List.find?_some hw
    exact hfound.2

@[simp] theorem State.dmaWord_faultBook (d tag since : Nat) : (s.dmaWord d tag since).1.faultBook = s.faultBook := by
  have hgive := s.give_dma_faultBook d _ tag (dmaWait_kind s.mem.waits d tag since)
  unfold State.dmaWord
  simp [apply_ite State.faultBook, apply_ite Prod.fst, hgive]

/-! ### The writers and the open slots -/

@[simp] theorem State.setWriter_faultBook (n : Nat) (w : Option Writer) : (s.setWriter n w).faultBook = s.faultBook := by
  unfold State.setWriter; split <;> rfl

@[simp] theorem State.ringAdvance_faultBook (n : Nat) : (s.ringAdvance n).faultBook = s.faultBook := by
  unfold State.ringAdvance; split <;> rfl

theorem State.dmaWord_faultBook_of {d tag since : Nat} {t : State} {g : Option Nat} (h : s.dmaWord d tag since = (t, g)) :
    t.faultBook = s.faultBook := by
  rw [← s.dmaWord_faultBook d tag since, h]

@[simp] theorem State.writeOn_faultBook (n k : Nat) : (s.writeOn n k).faultBook = s.faultBook := by
  induction k generalizing s with
  | zero => rfl
  | succ k ih =>
    unfold State.writeOn
    split
    · rfl
    · dsimp only
      split
      next hg => exact s.dmaWord_faultBook_of hg
      next hg => simp [apply_ite State.faultBook, ih, s.dmaWord_faultBook_of hg]

@[simp] theorem State.queueOn_faultBook (k : Nat) : (s.queueOn k).faultBook = s.faultBook := by
  induction k generalizing s with
  | zero => rfl
  | succ k ih =>
    unfold State.queueOn
    split
    · rfl
    · split
      next hg => exact s.dmaWord_faultBook_of hg
      next hg => simp [ih, s.dmaWord_faultBook_of hg]

@[simp] theorem State.writeAll_faultBook : s.writeAll.faultBook = s.faultBook := by simp [State.writeAll]

@[simp] theorem State.setHstream_faultBook (n : Nat) (x : Stream) : (s.setHstream n x).faultBook = s.faultBook := rfl
@[simp] theorem State.readIdle_faultBook (n : Nat) : (s.readIdle n).faultBook = s.faultBook := rfl
@[simp] theorem State.partTaken_faultBook (n : Nat) : (s.partTaken n).1.faultBook = s.faultBook := rfl
@[simp] theorem State.setWin_faultBook (n : Nat) (x : Window) : (s.setWin n x).faultBook = s.faultBook := rfl
@[simp] theorem State.withAdc_faultBook (x : Adc) : ({ s with adc := x } : State).faultBook = s.faultBook := rfl
@[simp] theorem State.setShunter_faultBook (n : Nat) (x : Shunter) : (s.setShunter n x).faultBook = s.faultBook := rfl

@[simp] theorem State.readPart_faultBook (n : Nat) (is : List Nat) : (s.readPart n is).1.faultBook = s.faultBook := by
  induction is generalizing s with
  | nil => rfl
  | cons i is ih =>
    unfold State.readPart
    dsimp only
    split
    next hg => exact s.dmaWord_faultBook_of hg
    next hg => simp [ih, s.dmaWord_faultBook_of hg]

theorem State.readPart_faultBook_of {n : Nat} {is : List Nat} {t : State} {b : Bool} (h : s.readPart n is = (t, b)) :
    t.faultBook = s.faultBook := by
  rw [← s.readPart_faultBook n is, h]

@[simp] theorem State.storeBytes_faultBook (k : Nat) (is : List Nat) (m : SMap Word) :
    (s.storeBytes k is m).1.faultBook = s.faultBook :=
  (s.touch k).foldl_faultBook (fun t i => t.checked_faultBook k i) is

theorem State.storeBytes_faultBook_of {k : Nat} {is : List Nat} {m : SMap Word} {t : State} {b : List Byte}
    (h : s.storeBytes k is m = (t, b)) : t.faultBook = s.faultBook := by
  rw [← s.storeBytes_faultBook k is m, h]

theorem State.takeUnit_faultBook (n shn room : Nat) : (s.takeUnit n shn room).1.faultBook = s.faultBook := by
  unfold State.takeUnit
  split
  · extract_lets p
    split
    · rfl
    · split
      next hr => exact s.readPart_faultBook_of hr
      next hr => simp [s.readPart_faultBook_of hr]
  · split
    · split
      · rfl
      · split
        extract_lets y
        split
        next hb => simp [s.storeBytes_faultBook_of hb]
    · split
      · extract_lets x
        split
        · rfl
        · split
          next hr => exact s.readPart_faultBook_of hr
          next hr => simp [s.readPart_faultBook_of hr]
      · split
        · extract_lets n
          split
          · rfl
          · split
            next hb => simp [s.storeBytes_faultBook_of hb]
        · split
          · split
            next hb => simp [s.storeBytes_faultBook_of hb]
          · rfl

@[simp] theorem State.fillSlot_faultBook (n k : Nat) : (s.fillSlot n k).faultBook = s.faultBook := by
  induction k generalizing s with
  | zero => rfl
  | succ k ih =>
    unfold State.fillSlot
    dsimp only
    split
    · rfl
    next p _ =>
      have htake {t : State} {o} (h : s.takeUnit n p.shn (p.size - 16 - p.payload.length) = (t, o)) : t.faultBook = s.faultBook := by
        rw [← s.takeUnit_faultBook n p.shn (p.size - 16 - p.payload.length), h]
      split
      · rfl
      · split
        · simp [ih]
        · split
          next hu => exact htake hu
          next hu => simp [ih, htake hu]

@[simp] theorem State.fillAll_faultBook : s.fillAll.faultBook = s.faultBook := by
  unfold State.fillAll
  split
  · exact s.foldl_faultBook (fun t n => by simp [apply_ite State.faultBook]) _
  · rfl

@[simp] theorem State.message_faultBook (v : Nat) : (s.message v).faultBook = s.faultBook := by
  simp [State.message, apply_ite State.faultBook]

@[simp] theorem State.notify_faultBook : s.notify.faultBook = s.faultBook := by
  unfold State.notify
  dsimp only
  split
  · rfl
  · exact s.foldl_faultBook (fun t v => t.message_faultBook v) _

@[simp] theorem State.keepAll_faultBook : s.keepAll.faultBook = s.faultBook := rfl

/-! ### The automatic move between Run and Holdover -/

@[simp] theorem State.undoCmd_faultBook : s.undoCmd.faultBook = s.faultBook := by
  unfold State.undoCmd
  split
  · rfl
  · split
    · exact State.setF_faultBook _ _ _ _ (by decide)
    · rfl

theorem State.runMode_running : s.runMode.running = true := by
  unfold State.runMode; split <;> rfl

@[simp] theorem State.ppsHalt_faultBook : s.ppsHalt.faultBook = s.faultBook := by
  unfold State.ppsHalt; dsimp only; split <;> rfl

/-- A change between Run and Holdover (R40): of what a change of mode brings, only MODE_CHG, the watchdog's period and the
timebase's books of Holdover concern it. -/
theorem State.toMode_running_faultBook {m : Mode} (hs : s.mode.running = true) (hm : m.running = true) :
    (s.toMode m).faultBook = s.faultBook := by
  have htbu (t : State) (x : Tbu) : ({ t with tbu := x } : State).faultBook = t.faultBook := rfl
  have hchg : (({ s with mode := m } : State).set1 PWR.IRQ_RAW.MODE_CHG).faultBook = s.faultBook :=
    State.set1_faultBook _ _ _ (by decide)
  have hold : s.mode = .run ∨ s.mode = .holdover := by revert hs; cases s.mode <;> decide
  have hnew : m = .run ∨ m = .holdover := by revert hm; cases m <;> decide
  have hpps (t : State) : (if m = .holdover then t.ppsHalt else t).faultBook = t.faultBook := by
    rw [apply_ite State.faultBook, t.ppsHalt_faultBook, ite_self]
  unfold State.toMode
  split
  · rfl
  · extract_lets old entered missed kept kicked left started since held counting halted resumed deaf
    have hmissed : missed = entered := by rcases hold with hold | hold <;> simp [missed, old, hold]
    have hstarted : started = kicked := by rcases hold with hold | hold <;> simp [started, left, old, hold]
    have hdeaf : deaf = halted := by
      rcases hold with hold | hold <;> rcases hnew with rfl | rfl <;> simp [deaf, resumed, old, hold]
    calc (if m = .halt then deaf.enterHalt else deaf).faultBook = halted.faultBook := by
          rcases hnew with rfl | rfl <;> simp [hdeaf]
      _ = counting.faultBook := hpps counting
      _ = started.faultBook := by simp only [counting, apply_ite State.faultBook, htbu, ite_self]
      _ = entered.faultBook := by simp only [hstarted, kicked, hmissed, apply_ite State.faultBook, State.withPwr_faultBook, ite_self]
      _ = s.faultBook := hchg

@[simp] theorem State.autoMode_faultBook : s.autoMode.faultBook = s.faultBook := by
  unfold State.autoMode State.autoMove
  split
  next h => rw [State.toMode_running_faultBook _ h (State.runMode_running _), State.undoCmd_faultBook]
  next => exact s.undoCmd_faultBook

/-! ### Fault reactions -/

theorem State.engine_congr {u t : State} (h : u.eng = t.eng) (e : Nat) : u.engine e = t.engine e := by
  unfold State.engine; rw [h]

theorem State.foldl_eng {α : Type} {f : State → α → State} (h : ∀ t a, (f t a).eng = t.eng) (l : List α) :
    (l.foldl f s).eng = s.eng := by
  induction l generalizing s with
  | nil => rfl
  | cons a l ih => rw [List.foldl_cons, ih, h]

theorem State.releaseAll_eng (id : Nat) : (s.releaseAll id).eng = s.eng := by
  unfold State.releaseAll
  refine s.foldl_eng (fun t e => ?_) _
  dsimp only
  rw [apply_ite State.eng, apply_ite State.eng, State.setReg_eng, State.setHolder_eng, ite_self, ite_self]

/-- An abort of an engine leaves no pending event (R174). -/
theorem State.menAbort_evs (e : Nat) : ((s.menAbort e).engine e).evs = [] := by
  unfold State.menAbort
  rw [State.engine_congr (State.releaseAll_eng _ _), State.engine_setEngine, if_pos rfl]

/-- The last page that entry to Safe-state aborts: engine 7's. -/
def lastSafePage : Nat := MEN.page.base + pgAt 7

theorem safePages_eq : safePages = safePages.dropLast ++ [lastSafePage] := by decide +kernel

theorem State.abortEffect_lastSafePage : s.abortEffect lastSafePage = s.menAbort 7 := by
  unfold State.abortEffect
  have h : pageOf lastSafePage = some (MEN.page, lastSafePage) := by decide +kernel
  rw [h]
  rfl

theorem State.enterSafe_evs (c n : Nat) (h : s.mode ≠ .safe) : ((s.enterSafe c n).engine 7).evs = [] := by
  unfold State.enterSafe
  rw [if_neg h, safePages_eq]
  dsimp only
  rw [List.foldl_concat, State.abortEffect_lastSafePage, State.menAbort_evs]

theorem State.toBoot_eng (c : Nat) (h : Option Nat) : (s.toBoot c h).eng = [] := by
  unfold State.toBoot
  extract_lets left lost named pwr held back
  have hheld : held.eng = [] := rfl
  have hback : back.eng = [] := by rw [← hheld]; simp only [back, apply_ite State.eng, State.setF_eng, ite_self]
  split
  · exact hback
  · exact hback

/-- State `t` has engine 7's MEN.FAULT and the engines of `s`, or no event is pending at its engine 7. -/
def State.FaultStays (s t : State) : Prop := (t.engine 7).evs = [] ∨ t.faultBook = s.faultBook

theorem State.FaultStays.trans {s t u : State} (h : s.FaultStays t) (k : t.FaultStays u) : s.FaultStays u := by
  rcases k with k | k
  · exact .inl k
  · rcases h with h | h
    · exact .inl (by rw [State.engine_congr (congrArg Prod.snd k : u.eng = t.eng), h])
    · exact .inr (k.trans h)

theorem State.act_stays (p : Nat × Nat) (c : Nat) : s.FaultStays (s.act p c) := by
  unfold State.act
  split
  · left; rw [State.warmRestart, State.engine, State.toBoot_eng]; rfl
  · by_cases h : s.mode = .safe
    · right; unfold State.enterSafe; rw [if_pos h]
    · exact .inl (s.enterSafe_evs _ _ h)

theorem State.act_withPwr_stays (x : Pwr) (p : Nat × Nat) (c : Nat) : s.FaultStays (({ s with pwr := x } : State).act p c) :=
  State.FaultStays.trans (.inr (s.withPwr_faultBook x)) (State.act_stays _ p c)

theorem State.react_stays : s.FaultStays s.react := by
  have hpwr (x : Pwr) : s.FaultStays ({ s with pwr := x } : State) := .inr (s.withPwr_faultBook x)
  unfold State.react
  split
  · exact .inr rfl
  · dsimp only
    split
    · exact hpwr _
    · split
      · exact hpwr _
      · split
        · exact hpwr _
        · split
          · exact hpwr _
          · exact s.act_withPwr_stays _ _ _

theorem State.actHeld_stays : s.FaultStays s.actHeld := by
  unfold State.actHeld
  split
  · exact .inr rfl
  · split
    · exact s.act_withPwr_stays _ _ _
    · exact .inr rfl

theorem State.settle_stays : s.FaultStays (settle s) := by
  have hafter (t : State) : (t.copyTick.writeAll.fillAll.notify.keepAll).faultBook = t.faultBook := by simp
  have hmoved : s.FaultStays s.react.autoMode := s.react_stays.trans (.inr s.react.autoMode_faultBook)
  exact (hmoved.trans s.react.autoMode.actHeld_stays).trans (.inr (hafter _))

/-! ### A word that stands outside the microstore -/

/-- A nanoword with SADD and DST = g5, which a stamp operation may not write. -/
def strayWord : Nat := 0x21 * 2 ^ 122 + 5 * 2 ^ 107

/-- An engine that runs at level 0 with the PC at 2^28, an event pending at the same level. -/
def strayEngine : Engine :=
  { st := .running, routines := [(0, some { cls := .call, pc := 2 ^ 28 })]
    evs := [(0, some { lvl := 0, addr := 0, g1 := 0, s0 := 0, since := 0 })] }

/-- Configure, engine 7 at that PC, where the microword reads as zero and names the nanoword. -/
def strayPc : State :=
  { State.reset with mode := .configure, eng := [(7, strayEngine)], stores := { nano := [(3 * 2048, strayWord)] } }

theorem strayPc_fetches : strayPc.fetches 7 0 (2 ^ 28) 0 strayWord 2 :=
  ⟨rfl, rfl, by decide, .inl rfl, rfl, ⟨_, rfl, rfl, by decide +kernel⟩, rfl, rfl, rfl, rfl, rfl⟩

/-- The capture of R171 adds reason, level and PC in their places: a PC of 2^28 makes reason 8 read as 9. -/
theorem strayPc_reason : (settle (strayPc.engWord 7 wordBad)).f MEN.FAULT.REASON (pgAt 7) = 9 := by decide +kernel

theorem strayPc_evs : ((settle (strayPc.engWord 7 wordBad)).engine 7).evs ≠ [] := by decide +kernel

end Sys2Proof.Machine
end

section
open Sys2Proof Sys2Proof.Machine

/-- Refutes O31: the clause on RESERVED_OP bounds neither the level nor the PC of the word, which the state holds as numbers of
any size. At a PC of 2^28, outside the microstore's 8192 words, the captured REASON is 9. The statement's quantifier admits that
state; nothing here says that a run reaches it. -/
theorem not_stampAluClamps : ¬ Obligations.StampAluClamps := by
  rintro ⟨-, -, hfault⟩
  obtain ⟨t, hexec, hreason⟩ :=
    hfault strayPc 7 0 (2 ^ 28) 0 strayWord 2 strayPc_fetches (by decide) (by decide) (by decide)
  have hsettle : settle (strayPc.engWord 7 wordBad) = settle t := Host.Outcome.next.inj hexec
  have hevs := strayPc_evs
  have hnine := strayPc_reason
  rw [hsettle] at hevs hnine
  rcases t.settle_stays with hlost | hstays
  · exact hevs hlost
  · have hreg : (settle t).reg faultReg = t.reg faultReg := congrArg Prod.fst hstays
    have height : (settle t).f MEN.FAULT.REASON (pgAt 7) = efReserved := by
      rw [State.f, hreg]
      exact hreason
    rw [hnine] at height
    exact absurd height (by decide)

end

section
/-! PROOFS. How a consist ends (R305), and which commands of its owner reach it: a ROLLBACK (R313). The end of a consist is its slot
given back, with the outcome told to the peer, to the entry that ordered it and to the owner. -/

namespace Sys2Proof.Machine

variable (s : State)

/-! ### A requester's own consist -/

theorem State.consist_congr {u t : State} (h : u.cons = t.cons) (k : Nat) : u.consist k = t.consist k := by
  unfold State.consist; rw [h]

/-- The consist found for a requester is its own (R304). -/
theorem State.consistOf_owner {id k : Nat} (h : s.consistOf id = some k) : (s.consist k).owner = id := by
  have hfound : (s.consist k).st ≠ .free ∧ (s.consist k).owner = id := by simpa using List.find?_some h
  exact hfound.2

/-- A write that controls a consist does what CNS.CMD's rules say where no abort of the page is in progress (R315). -/
theorem State.control_reach (r : Requester) (f : State → State) (hr : s.reaches r = true)
    (ha : s.aborting CNS.page.base = false) : s.control r f = .next (settle (f s)) := by
  have hpage : pageOf CNS.CMD.OP.off = some (CNS.page, CNS.page.base) := by decide +kernel
  rw [State.control, access_reach s r _ hr, State.unlessAborting, hpage]
  simp [State.abortBlocks, ha]

/-! ### Too near to its boundary -/

theorem State.committing_of_not_closed {k : Nat} (h : (s.consist k).st ≠ .closed) : s.committing k = false := by
  simp [State.committing, h]

theorem State.committing_of_unnamed {k : Nat} (h : (s.consist k).dep = none) : s.committing k = false := by
  simp [State.committing, h]

theorem State.committing_of_named {k d : Nat} (hst : (s.consist k).st = .closed) (hd : (s.consist k).dep = some d) :
    s.committing k = !decide (s.cyc + 2 ≤ d * s.dsp.period) := by
  simp [State.committing, State.tooNear, hst, hd, ← decide_not]

/-! ### The end of a consist -/

/-- A consist that has ended with outcome `out`; a BROKEN one keeps OVERFLOW where its owner rolls it back (R308). -/
def Consist.ended (x : Consist) (out : Nat) : Consist :=
  { x with st := .free, places := [], dep := none, passed := false, byp := false
           last := if out = coRolledBack ∧ x.st = .broken then x.last else out }

/-- The end of consist `k` told to the peer (R355). -/
def State.endMirrored (k out : Nat) : State :=
  let told := if (s.consist k).st = .closed ∧ out ≠ coCommitted then s.mirror (.consEnd k out) else s
  if told.twn.st = .primary then told.onTwn fun x => { x with cons := x.cons.filter (fun m => m.slot ≠ k) } else told

/-- The end of consist `k` told to the ACTIVE entry that ordered it. -/
def State.endOrdered (k out : Nat) : State :=
  if (s.consist k).st = .closed ∧ (s.consist k).whn = whEntry then
    s.acted (.slot (s.consist k).entry)
      (if out = coCommitted then outActed else if out = coAborted then outAborted else outDiscarded)
  else s

theorem State.endMirrored_field {α : Type} (f : State → α) (hmirror : ∀ m, f (s.mirror m) = f s)
    (htwn : ∀ (t : State) (w : Twn → Twn), f (t.onTwn w) = f t) (k out : Nat) : f (s.endMirrored k out) = f s := by
  simp only [State.endMirrored, apply_ite f, hmirror, htwn, ite_self]

@[simp] theorem State.endMirrored_cons (k out : Nat) : (s.endMirrored k out).cons = s.cons :=
  s.endMirrored_field State.cons s.mirror_cons (fun _ _ => rfl) k out

@[simp] theorem State.endMirrored_regs (k out : Nat) : (s.endMirrored k out).regs = s.regs :=
  s.endMirrored_field State.regs s.mirror_regs (fun _ _ => rfl) k out

@[simp] theorem State.endMirrored_slots (k out : Nat) : (s.endMirrored k out).slots = s.slots :=
  s.endMirrored_field State.slots s.mirror_slots (fun _ _ => rfl) k out

@[simp] theorem State.endOrdered_cons (k out : Nat) : (s.endOrdered k out).cons = s.cons := by
  simp [State.endOrdered, apply_ite State.cons]

@[simp] theorem State.endOrdered_regs (k out : Nat) : (s.endOrdered k out).regs = s.regs := by
  simp [State.endOrdered, apply_ite State.regs]

theorem State.endOrdered_of_unordered {k : Nat} (h : (s.consist k).st ≠ .closed ∨ (s.consist k).whn ≠ whEntry) (out : Nat) :
    s.endOrdered k out = s := by
  unfold State.endOrdered
  exact if_neg fun hc => h.elim (· hc.1) (· hc.2)

theorem State.slot_congr {u t : State} (h : u.slots = t.slots) (i : Nat) : u.slot i = t.slot i := by
  unfold State.slot; rw [h]

theorem State.slot_acted {i : Nat} (hst : (s.slot i).st = .active) (ha : (s.slot i).acted = none) {out : Nat}
    (ho : out ≠ outActed) : (s.acted (.slot i) out).slot i = { s.slot i with acted := some out } := by
  simp [State.acted, hst, ha, ho, State.slot_setSlot]

/-- A BROKEN consist rolled back gives its slot back and nothing else: its outcome has been told at its break (R308). -/
theorem State.consistEnd_broken {k : Nat} (h : (s.consist k).st = .broken) :
    s.consistEnd k coRolledBack = s.setConsist k ((s.consist k).ended coRolledBack) := by
  simp [State.consistEnd, Consist.ended, h]

/-- Any other end is told to the peer, to the entry and to the owner. -/
theorem State.consistEnd_told {k out : Nat} (h : ¬(out = coRolledBack ∧ (s.consist k).st = .broken)) :
    s.consistEnd k out = (((s.endMirrored k out).endOrdered k out).setConsist k ((s.consist k).ended out)).noteOutcome
      (s.consist k).owner out := by
  have hx : (s.endMirrored k out).consist k = s.consist k := State.consist_congr (s.endMirrored_cons k out) k
  unfold State.endOrdered
  rw [hx]
  simp only [State.consistEnd, Consist.ended, if_neg h]
  rfl

@[simp] theorem State.noteOutcome_cons (w out : Nat) : (s.noteOutcome w out).cons = s.cons := by
  simp [State.noteOutcome, apply_ite State.cons]

theorem State.noteOutcome_rolledBack (w : Nat) :
    s.noteOutcome w coRolledBack = s.setPreg w CNS.MYSTS.LAST.off (word (coRolledBack * 2 ^ 12)) := rfl

/-- The consist has ended, every other consist stays as it was. -/
theorem State.consist_consistEnd (k out j : Nat) :
    (s.consistEnd k out).consist j = if j = k then (s.consist k).ended out else s.consist j := by
  by_cases h : out = coRolledBack ∧ (s.consist k).st = .broken
  · obtain ⟨rfl, hst⟩ := h
    rw [s.consistEnd_broken hst, State.consist_setConsist]
  · have hkept : ((s.endMirrored k out).endOrdered k out).consist j = s.consist j := State.consist_congr (by simp) j
    rw [s.consistEnd_told h, State.consist_congr (State.noteOutcome_cons _ _ _), State.consist_setConsist, hkept]

/-! ### A consist rolled back by its owner (R313) -/

theorem State.consistEnd_rolledBack_regs (k : Nat) : (s.consistEnd k coRolledBack).regs = s.regs := by
  by_cases h : (s.consist k).st = .broken
  · rw [s.consistEnd_broken h, State.setConsist_regs]
  · rw [s.consistEnd_told (mt And.right h), State.noteOutcome_rolledBack]
    simp

theorem State.consistEnd_rolledBack_preg {k : Nat} (h : (s.consist k).st ≠ .broken) :
    (s.consistEnd k coRolledBack).preg (s.consist k).owner CNS.MYSTS.LAST.off = word (2 * 2 ^ 12) := by
  rw [s.consistEnd_told (mt And.right h), State.noteOutcome_rolledBack, State.preg_setPreg_self]

theorem State.consistEnd_rolledBack_slots {k : Nat} (h : (s.consist k).st ≠ .broken) :
    (s.consistEnd k coRolledBack).slots = ((s.endMirrored k coRolledBack).endOrdered k coRolledBack).slots := by
  rw [s.consistEnd_told (mt And.right h), State.noteOutcome_rolledBack, State.setPreg_slots, State.setConsist_slots]

theorem State.consistEnd_rolledBack_slots_unordered {k : Nat} (h : (s.consist k).st ≠ .closed ∨ (s.consist k).whn ≠ whEntry) :
    (s.consistEnd k coRolledBack).slots = s.slots := by
  by_cases hb : (s.consist k).st = .broken
  · rw [s.consistEnd_broken hb, State.setConsist_slots]
  · have hx := State.consist_congr (s.endMirrored_cons k coRolledBack) k
    rw [s.consistEnd_rolledBack_slots hb, State.endOrdered_of_unordered _ (by rw [hx]; exact h), State.endMirrored_slots]

/-- The ACTIVE entry that ordered the consist is discarded (log entry 25). -/
theorem State.consistEnd_rolledBack_slot {k : Nat} (hst : (s.consist k).st = .closed) (hwhn : (s.consist k).whn = whEntry)
    (he : (s.slot (s.consist k).entry).st = .active) (ha : (s.slot (s.consist k).entry).acted = none) :
    (s.consistEnd k coRolledBack).slot (s.consist k).entry
      = { s.slot (s.consist k).entry with acted := some outDiscarded } := by
  have hx := State.consist_congr (s.endMirrored_cons k coRolledBack) k
  have hi := State.slot_congr (s.endMirrored_slots k coRolledBack) (s.consist k).entry
  have hordered : (s.endMirrored k coRolledBack).endOrdered k coRolledBack
      = (s.endMirrored k coRolledBack).acted (.slot (s.consist k).entry) outDiscarded := by
    unfold State.endOrdered
    rw [hx, if_pos ⟨hst, hwhn⟩]
    rfl
  rw [State.slot_congr (s.consistEnd_rolledBack_slots (by simp [hst])), hordered,
    State.slot_acted _ (by rw [hi, he]) (by rw [hi, ha]) (by decide), hi]

end Sys2Proof.Machine
end

section
open Sys2Proof Sys2Proof.Machine

/-- Settles O59: a ROLLBACK that is not turned away ends the consist with ROLLED_BACK, and one is turned away with BUSY exactly
where the consist is `committing`. That the ordering entry is DISCARDED is the model's choice (log entry 25). -/
theorem rollbackUntilTwoBefore : Obligations.RollbackUntilTwoBefore := by
  refine ⟨fun s r hr ha k hk ends hends => ?held, fun s r hr ha hk => ?none⟩
  case none =>
    rw [exec_consistRollback, execConsistRollback, s.control_reach r _ hr ha, State.consRollback, hk]
  case held =>
    have hown : (s.consist k).owner = r.id := s.consistOf_owner hk
    have hnear : s.committing k = !ends := by
      subst hends
      by_cases hst : (s.consist k).st = .closed
      · cases hd : (s.consist k).dep with
        | none => simp [s.committing_of_unnamed hd]
        | some d => simp [s.committing_of_named hst hd, hst]
      · simp [s.committing_of_not_closed hst, hst]
    have hexec : exec (.consistRollback r) s
        = .next (settle (if s.committing k then s.discard CNS.CMD.OP.off r .busy else s.consistEnd k coRolledBack)) := by
      rw [exec_consistRollback, execConsistRollback, s.control_reach r _ hr ha, State.consRollback, hk]
    rw [hnear] at hexec
    have hended : (s.consistEnd k coRolledBack).consist k = (s.consist k).ended coRolledBack := by
      rw [State.consist_consistEnd, if_pos rfl]
    refine ⟨fun he => ⟨s.consistEnd k coRolledBack, by rw [hexec, he]; rfl, by rw [hended]; rfl, by rw [hended]; rfl, ?others,
      s.consistEnd_rolledBack_regs k, congrArg Prod.fst (s.consistEnd_timebase k coRolledBack), ?rolledBack, ?broken,
      s.consistEnd_rolledBack_slots_unordered, s.consistEnd_rolledBack_slot⟩, fun he => by rw [hexec, he]; rfl⟩
    case others => exact fun j hj => by rw [State.consist_consistEnd, if_neg hj]
    case rolledBack =>
      intro hb
      exact ⟨by simp [hended, Consist.ended, hb], hown ▸ s.consistEnd_rolledBack_preg hb⟩
    case broken =>
      intro hb
      exact ⟨by simp [hended, Consist.ended, hb], by rw [s.consistEnd_broken hb, State.setConsist_preqs]⟩

end

section
/-! PROOFS. The logbook entry of a switchover (R366). What the entry is made of, the clock, the period in force, the OTP and the
twin's state, stays through all that a takeover brings the servo, the mode, the interrupts and LASTSW before the entry; so does the
place in the logbook where it goes. What follows the entry, the copies treated at c′ and the consists taken over (R361, R362), leaves
the entry and its place alone. -/

namespace Sys2Proof.Machine

variable (s : State)

/-- What a logbook entry of a switchover is made of, and the logbook: the entries written and the count of them. -/
structure EntryView where
  raw : Nat
  vtOff : Int
  period : Nat
  otp : Otp
  st : TwnSt
  count : Nat
  book : SMap Word

def State.entryView : EntryView :=
  { raw := s.raw, vtOff := s.vtOff, period := s.dsp.period, otp := s.sec.otp, st := s.twn.st
    count := s.f SEC.LOGPOS.V, book := s.mem.book }

/-- A fold whose every step keeps a part of the state keeps it. -/
theorem State.foldl_keeps {α β : Type} (part : State → β) {f : State → α → State} (h : ∀ t a, part (f t a) = part t)
    (l : List α) : part (l.foldl f s) = part s := by
  rw [← List.foldl_hom part (g₂ := fun b _ => b) (fun t a => (h t a).symm), List.foldl_fixed]

/-- The view of the device as PRIMARY. -/
def EntryView.asPrimary (v : EntryView) : EntryView := { v with st := .primary }

/-! ### The small operations -/

theorem State.f_congr {u t : State} (h : u.regs = t.regs) (g : Fld) (i : Nat) : u.f g i = t.f g i := by
  rw [State.f, State.f, State.reg, State.reg, h]

theorem State.setF_entryView (g : Fld) (v i : Nat) (h : SEC.LOGPOS.V.off ≠ g.off + i) : (s.setF g v i).entryView = s.entryView :=
  congrArg (fun n => { s.entryView with count := n }) (s.f_setF_ne g SEC.LOGPOS.V v i 0 h)

theorem State.set1_entryView (g : Fld) (i : Nat) (h : SEC.LOGPOS.V.off ≠ g.off + i) : (s.set1 g i).entryView = s.entryView :=
  s.setF_entryView g 1 i h

theorem State.bump_entryView (g : Fld) (n i : Nat) (h : SEC.LOGPOS.V.off ≠ g.off + i) :
    (s.bump g n i).entryView = s.entryView :=
  s.setF_entryView g _ i h

@[simp] theorem State.fault_entryView (c : Nat) : (s.fault c).entryView = s.entryView :=
  s.setF_entryView PWR.FLTSTS.FAULT _ 0 (by decide)

@[simp] theorem State.setPreg_entryView (k a : Nat) (v : Word) : (s.setPreg k a v).entryView = s.entryView := rfl
@[simp] theorem State.setSlot_entryView (i : Nat) (x : Slot) : (s.setSlot i x).entryView = s.entryView := rfl
@[simp] theorem State.setConsist_entryView (k : Nat) (x : Consist) : (s.setConsist k x).entryView = s.entryView := rfl
@[simp] theorem State.signal_entryView (k i g t : Nat) : (s.signal k i g t).entryView = s.entryView := rfl
@[simp] theorem State.withTbu_entryView (x : Tbu) : ({ s with tbu := x } : State).entryView = s.entryView := rfl
@[simp] theorem State.withPwr_entryView (x : Pwr) : ({ s with pwr := x } : State).entryView = s.entryView := rfl

theorem State.becomePrimary_entryView {x : Twn → Twn} (h : (x s.twn).st = .primary) :
    (s.onTwn x).entryView = s.entryView.asPrimary :=
  congrArg (fun st => { s.entryView with st := st }) h

theorem State.withLastMove_entryView (n : Nat) :
    ({ s with dsp := { s.dsp with lastMove := n } } : State).entryView = s.entryView := rfl

@[simp] theorem State.hang_entryView (i : Nat) (p : Place) (t b : Nat) : (s.hang i p t b).entryView = s.entryView := rfl

@[simp] theorem State.acted_entryView (c : LoadSrc) (o : Nat) : (s.acted c o).entryView = s.entryView := by
  cases c with
  | direct => rfl
  | slot i => simp [State.acted, apply_ite State.entryView]

theorem Twn.intoRing_st (x : Twn) (m : Mirror) (c : Nat) : (x.intoRing m c).st = x.st := by cases m <;> rfl

@[simp] theorem State.mirror_entryView (m : Mirror) : (s.mirror m).entryView = s.entryView := by
  unfold State.mirror
  split
  · exact congrArg (fun st => { s.entryView with st := st }) (s.twn.intoRing_st m s.raw)
  · rfl

@[simp] theorem State.ppsHalt_entryView : s.ppsHalt.entryView = s.entryView := by
  unfold State.ppsHalt; dsimp only; split <;> rfl

/-! ### Consists and entries of the timetable -/

@[simp] theorem State.noteOutcome_entryView (w o : Nat) : (s.noteOutcome w o).entryView = s.entryView := by
  have hfailed (t : State) : ((t.set1 CNS.IRQ_RAW.FAILED).bump CNS.CNT_EVT.HI).entryView = t.entryView := by
    rw [State.bump_entryView _ _ _ _ (by decide), State.set1_entryView _ _ _ (by decide)]
  have hdone (t : State) : ((t.set1 CNS.IRQ_RAW.COMMITTED).bump CNS.CNT_EVT.LO).entryView = t.entryView := by
    rw [State.bump_entryView _ _ _ _ (by decide), State.set1_entryView _ _ _ (by decide)]
  simp [State.noteOutcome, apply_ite State.entryView, hfailed, hdone]

@[simp] theorem State.consistEnd_entryView (k o : Nat) : (s.consistEnd k o).entryView = s.entryView := by
  have hcons (t : State) (c : List MirCns) : ({ t with twn := { t.twn with cons := c } } : State).entryView = t.entryView := rfl
  simp [State.consistEnd, apply_ite State.entryView, hcons]

@[simp] theorem State.missPassed_entryView : s.missPassed.entryView = s.entryView := by
  refine s.foldl_keeps State.entryView (fun t k => ?_) _
  dsimp only
  split
  · simp [apply_ite State.entryView]
  · rfl

@[simp] theorem State.entryLost_entryView (i : Nat) : (s.entryLost i).entryView = s.entryView := by
  unfold State.entryLost; split <;> simp

@[simp] theorem State.retire_entryView (i o : Nat) (h : Bool) : (s.retire i o h).entryView = s.entryView := by
  simp [State.retire, apply_ite State.entryView]

@[simp] theorem State.placeTime_entryView (i t : Nat) : (s.placeTime i t).entryView = s.entryView := by
  simp [State.placeTime, apply_ite State.entryView]

@[simp] theorem State.hangAll_entryView (is : List Nat) (p : Place) : (s.hangAll is p).entryView = s.entryView :=
  s.foldl_keeps State.entryView (fun t i => t.hang_entryView i p _ _) is

@[simp] theorem State.sweep_entryView (is : List Nat) : (s.sweep is).entryView = s.entryView :=
  s.foldl_keeps State.entryView (fun t i => by simp [apply_ite State.entryView]) is

@[simp] theorem State.catchUp_entryView : s.catchUp.entryView = s.entryView := by simp [State.catchUp]

@[simp] theorem State.takeEntry_entryView (w : Switch) (i : Nat) : (s.takeEntry w i).entryView = s.entryView := by
  have hearly (b : Bool) : (if b then (s.set1 TWN.IRQ_RAW.DIVERGE).fault 9 else s).entryView = s.entryView := by
    rw [apply_ite State.entryView, State.fault_entryView, State.set1_entryView _ _ _ (by decide), ite_self]
  have hcount (t : State) : (t.bump TWN.COUNT.AMBIG).entryView = t.entryView := State.bump_entryView _ _ _ _ (by decide)
  unfold State.takeEntry
  extract_lets x t early marked counted
  have hcounted : counted.entryView = s.entryView := (hcount marked).trans (hearly early)
  simp [apply_ite State.entryView, hcounted]

@[simp] theorem State.takeConsist_entryView (m : MirCns) : (s.takeConsist m).entryView = s.entryView := by
  unfold State.takeConsist
  dsimp only
  split
  · rfl
  · split <;> rfl

@[simp] theorem State.takeConsists_entryView (ms : List MirCns) :
    (ms.foldl (fun t m => t.takeConsist m) s).entryView = s.entryView :=
  s.foldl_keeps State.entryView (fun t m => t.takeConsist_entryView m) ms

/-! ### The servo and the mode of the new PRIMARY -/

@[simp] theorem State.setSrv_entryView (n : Nat) : (s.setSrv n).entryView = s.entryView :=
  s.setF_entryView _ _ _ (by decide)

@[simp] theorem State.copyFreqHold_entryView : s.copyFreqHold.entryView = s.entryView := by
  unfold State.copyFreqHold
  dsimp only
  rw [State.setF_entryView _ _ _ _ (by decide), State.setF_entryView _ _ _ _ (by decide), State.setF_entryView _ _ _ _ (by decide)]

/-- Twin-standby left for Run or Holdover: of what a change of mode brings, only MODE_CHG, the consists whose boundary has passed,
the watchdog's period and the timebase's books of Holdover concern it. -/
theorem State.toMode_entryView_of_standby {m : Mode} (hs : s.mode = .standby) (hm : m.running = true) :
    (s.toMode m).entryView = s.entryView := by
  have hchg : (({ s with mode := m } : State).set1 PWR.IRQ_RAW.MODE_CHG).entryView = s.entryView :=
    State.set1_entryView _ _ _ (by decide)
  have hnew : m = .run ∨ m = .holdover := by revert hm; cases m <;> decide
  have hpps (t : State) : (if m = .holdover then t.ppsHalt else t).entryView = t.entryView := by
    rw [apply_ite State.entryView, t.ppsHalt_entryView, ite_self]
  unfold State.toMode
  split
  · rfl
  · extract_lets old entered missed kept kicked left started since held counting halted resumed deaf
    have hmissed : missed = entered.missPassed := by simp [missed, old, hs]
    have hstarted : started = kicked := by simp [started, left, old, hs]
    have hdeaf : deaf = halted := by rcases hnew with rfl | rfl <;> simp [deaf, resumed, old, hs]
    calc (if m = .halt then deaf.enterHalt else deaf).entryView = halted.entryView := by
          rcases hnew with rfl | rfl <;> simp [hdeaf]
      _ = counting.entryView := hpps counting
      _ = kicked.entryView := by simp only [counting, hstarted, apply_ite State.entryView, State.withTbu_entryView, ite_self]
      _ = missed.entryView := by simp only [kicked, apply_ite State.entryView, State.withPwr_entryView, ite_self]
      _ = entered.entryView := by rw [hmissed, State.missPassed_entryView]
      _ = s.entryView := hchg

/-! ### The entry in the logbook (R341) -/

/-- The view after an entry of content `e` has been written in its order. -/
def EntryView.logged (v : EntryView) (e : Nat) : EntryView :=
  { v with count := (v.count + 1) % 2 ^ 32, book := putEntry v.book (v.count % 1024 * 8) e }

theorem State.setLogpos_entryView (v : Nat) :
    (s.setF SEC.LOGPOS.V v).entryView = { s.entryView with count := v % 2 ^ 32 } :=
  congrArg (fun n => { s.entryView with count := n }) (s.f_setF SEC.LOGPOS.V v 0 (by decide))

theorem State.withMem_entryView (x : Mem) : ({ s with mem := x } : State).entryView = { s.entryView with book := x.book } := rfl

theorem State.log_entryView (kind : Nat) (role : Role) (req result addr old new : Nat) :
    (s.log kind role req result addr old new).entryView
      = s.entryView.logged (logEntry s.vt kind role req result addr old new) := by
  have hlost (t : State) : ((t.bump SEC.LOGLOST.V).set1 SEC.IRQ_RAW.LOG_OVW).entryView = t.entryView := by
    rw [State.set1_entryView _ _ _ (by decide), State.bump_entryView _ _ _ _ (by decide)]
  have hhst (t : State) (x : Hst) : ({ t with hst := x } : State).entryView = t.entryView := rfl
  unfold State.log State.logAt
  extract_lets n e ecc mem filled counted stream told hst
  have hcounted : counted.entryView = s.entryView.logged e := by
    rw [filled.setLogpos_entryView, s.withMem_entryView]; rfl
  split
  · rw [hhst, hlost, hcounted]
  · exact hcounted

/-- Word `w + j` of the logbook space after the first `k` words of an entry have been written at `w`. -/
theorem get_putWords (m : SMap Word) (w e j k : Nat) :
    SMap.get (fun _ => 0) ((List.range k).foldl (fun m j => SMap.put (fun _ => 0) m (w + j) (word (e / 2 ^ (32 * j)))) m) (w + j)
      = if j < k then word (e / 2 ^ (32 * j)) else SMap.get (fun _ => 0) m (w + j) := by
  induction k with
  | zero => rfl
  | succ k ih =>
    rw [List.range_succ, List.foldl_concat, SMap.get_put, ih]
    by_cases h : j = k
    · subst h; simp
    · have hlt : j < k + 1 ↔ j < k := by omega
      simp [h, hlt]

theorem get_putEntry (m : SMap Word) (w e : Nat) {j : Nat} (h : j < 8) :
    SMap.get (fun _ => 0) (putEntry m w e) (w + j) = word (e / 2 ^ (32 * j)) := by
  rw [putEntry, get_putWords, if_pos h]

/-- The content of a switchover's entry (R366): kind 0x09, no role, requester identity 0x21. -/
theorem logEntry_switchover (vt trig dep old new : Nat) :
    logEntry vt 0x09 .none 0x21 trig dep old new
      = vt % 2 ^ 64 + 0x09 * 2 ^ 64 + 0x21 * 2 ^ 80 + trig % 256 * 2 ^ 88 + dep % 2 ^ 32 * 2 ^ 96
        + old % 2 ^ 64 * 2 ^ 128 + new % 2 ^ 64 * 2 ^ 192 := by
  simp [logEntry, Role.code]

/-! ### The takeover -/

section
variable {s} {t : State} (h : s.entryView = t.entryView.asPrimary)
include h

theorem State.vt_of_asPrimary : s.vt = t.vt := by
  have hraw : s.raw = t.raw := congrArg EntryView.raw h
  have hoff : s.vtOff = t.vtOff := congrArg EntryView.vtOff h
  rw [State.vt, State.vt, State.vtAt, State.vtAt, hraw, hoff]

theorem State.dep_of_asPrimary : s.dep = t.dep := by
  have hperiod : s.dsp.period = t.dsp.period := congrArg EntryView.period h
  rw [State.dep, State.dep, State.cyc, State.cyc, State.vt_of_asPrimary h, hperiod]

theorem State.otp_of_asPrimary : s.sec.otp = t.sec.otp := congrArg EntryView.otp h

end

/-- A takeover leaves the new PRIMARY with one entry more: that of cycle c′, where the clock stands since its start. -/
theorem State.takeover_entryView {x : Switch} {a : State} (hs : s.mode = .standby) (hx : s.twn.sw = some x)
    (ha : a = s.advanceVt (s.boundary ((x.w + 200 + s.dsp.period - 1) / s.dsp.period))) :
    s.takeover.entryView = a.entryView.asPrimary.logged
      (logEntry a.vt 0x09 .none 0x21 x.trig a.dep (a.f TWN.PEERSER_LO.V + a.f TWN.PEERSER_HI.V * 2 ^ 32) a.sec.otp.serial) := by
  unfold State.takeover
  split
  next hnone => simp [hx] at hnone
  next w hw =>
    obtain rfl : x = w := Option.some.inj (hx.symm.trans hw)
    extract_lets +onlyGivenNames d arrived peer cons primary moving qual f acquiring _ holding _ averaged served moved told noted
      logged signalled treated caught
    subst ha
    have hserved : served.entryView = moving.entryView := by
      dsimp only [served]
      split
      · exact (acquiring.withTbu_entryView _).trans (moving.setSrv_entryView srvAcquire)
      · split
        · exact averaged.copyFreqHold_entryView.trans ((holding.withTbu_entryView _).trans (moving.setSrv_entryView srvHoldover))
        · exact moving.setSrv_entryView srvFree
    have hstandby : served.mode = .standby := by
      rw [← hs]
      dsimp only [served]
      split
      · rfl
      · split <;> rfl
    have hnoted : noted.entryView = arrived.entryView.asPrimary :=
      calc noted.entryView = (told.setF TWN.LASTSW.TRIGGER x.trig).entryView := State.setF_entryView _ TWN.LASTSW.DEP _ 0 (by decide)
        _ = told.entryView := told.setF_entryView _ _ _ (by decide)
        _ = (moved.set1 TWN.IRQ_RAW.TAKEOVER).entryView := State.bump_entryView _ TWN.COUNT.SWITCHES _ 0 (by decide)
        _ = moved.entryView := moved.set1_entryView _ _ (by decide)
        _ = served.entryView := served.toMode_entryView_of_standby hstandby served.runMode_running
        _ = moving.entryView := hserved
        _ = primary.entryView := primary.set1_entryView _ _ (by decide)
        _ = arrived.entryView.asPrimary := arrived.becomePrimary_entryView rfl
    have hlogged : logged.entryView = arrived.entryView.asPrimary.logged
        (logEntry arrived.vt 0x09 .none 0x21 x.trig arrived.dep peer arrived.sec.otp.serial) := by
      rw [← State.vt_of_asPrimary hnoted, ← State.dep_of_asPrimary hnoted, ← State.otp_of_asPrimary hnoted, ← hnoted]
      exact noted.log_entryView _ _ _ _ _ _ _
    have htreated : treated.entryView = signalled.entryView :=
      signalled.foldl_keeps State.entryView (fun t i => t.takeEntry_entryView x i) _
    have hcaught : caught.entryView = logged.entryView :=
      treated.catchUp_entryView.trans (htreated.trans (logged.signal_entryView _ _ _ _))
    -- of the state after the entry its view alone is needed
    clear_value caught
    rw [State.takeConsists_entryView, State.withLastMove_entryView, hcaught, hlogged]

theorem exec_switchoverTakeover_of_standby (hs : s.mode = .standby) : exec .switchoverTakeover s = .next (settle s.takeover) := by
  simp [exec_switchoverTakeover, execSwitchoverTakeover, State.twin, hs, Mode.alive, done]

end Sys2Proof.Machine
end

section
open Sys2Proof Sys2Proof.Machine

/-- Settles O60: up to the entry a takeover keeps all that the entry is made of, and what follows it keeps the entry. -/
theorem takeoverLogEntry : Obligations.TakeoverLogEntry := by
  rintro s x hs hx a ha n rfl peer rfl
  have hview := s.takeover_entryView hs hx ha
  have hregs : a.regs = s.regs := by rw [ha, State.advanceVt_regs]
  have hsec : a.sec = s.sec := by rw [ha, State.advanceVt_sec]
  have hf := State.f_congr hregs
  refine ⟨s.takeover, exec_switchoverTakeover_of_standby s hs, congrArg EntryView.st hview, ?count, fun j hj => ?entry⟩
  case count => rw [← hf]; exact congrArg EntryView.count hview
  case entry =>
    have hbook : s.takeover.mem.book = putEntry a.mem.book (a.f SEC.LOGPOS.V % 1024 * 8) _ := congrArg EntryView.book hview
    rw [← hf, ← hf, ← hf, ← hsec, hbook, get_putEntry _ _ _ hj, logEntry_switchover]

end

section
/-! PROOFS. What follows a command writes few registers (R275, R266, R346, R292, R300, R85): of the stages of `settle` that come after
the fault reactions and the automatic move, the count of waits and the uncorrectable words that they find are all that reaches a
register. In a state that owes no reaction, PWR.WDOG is then as the command left it. -/

namespace Sys2Proof.Machine

variable (s : State)

/-- The registers that the record writers, the mirror queue, the copy of the background test and the open slots write: the longest
wait (R268), and the count, the capture and the coded fault of an uncorrectable word (R263). -/
def storeRegs : List Nat :=
  [MEM.STARVE.MAXWAIT.off, MEM.ECCCNT.UNCORR.off, MEM.IRQ_RAW.UNCORR.off, MEM.UECAP.VALID.off, PWR.FLTSTS.FAULT.off]

/-- The registers apart from `storeRegs`. -/
def State.otherRegs (a : Nat) : Word := if a ∈ storeRegs then 0 else s.reg a

theorem State.otherRegs_congr {u t : State} (h : u.regs = t.regs) : u.otherRegs = t.otherRegs := by
  funext a; rw [State.otherRegs, State.otherRegs, State.reg, State.reg, h]

theorem State.reg_of_otherRegs {u t : State} (h : u.otherRegs = t.otherRegs) {a : Nat} (ha : a ∉ storeRegs) :
    u.reg a = t.reg a := by
  have hreg : u.otherRegs a = t.otherRegs a := congrFun h a
  rwa [State.otherRegs, State.otherRegs, if_neg ha, if_neg ha] at hreg

theorem State.setReg_otherRegs {a : Nat} (h : a ∈ storeRegs) (v : Word) : (s.setReg a v).otherRegs = s.otherRegs := by
  funext b
  unfold State.otherRegs
  split
  · rfl
  next hb => exact s.reg_setReg_ne a v b fun hba => hb (hba ▸ h)

theorem State.setF_otherRegs {g : Fld} (h : g.off ∈ storeRegs) (v : Nat) : (s.setF g v).otherRegs = s.otherRegs :=
  s.setReg_otherRegs h _

theorem State.set1_otherRegs {g : Fld} (h : g.off ∈ storeRegs) : (s.set1 g).otherRegs = s.otherRegs :=
  s.setF_otherRegs h 1

@[simp] theorem State.withMem_otherRegs (x : Mem) : ({ s with mem := x } : State).otherRegs = s.otherRegs := rfl
@[simp] theorem State.withHst_otherRegs (x : Hst) : ({ s with hst := x } : State).otherRegs = s.otherRegs := rfl
@[simp] theorem State.withTwn_otherRegs (x : Twn) : ({ s with twn := x } : State).otherRegs = s.otherRegs := rfl
@[simp] theorem State.withAdc_otherRegs (x : Adc) : ({ s with adc := x } : State).otherRegs = s.otherRegs := rfl
@[simp] theorem State.setHstream_otherRegs (n : Nat) (x : Stream) : (s.setHstream n x).otherRegs = s.otherRegs := rfl
@[simp] theorem State.setShunter_otherRegs (n : Nat) (x : Shunter) : (s.setShunter n x).otherRegs = s.otherRegs := rfl
@[simp] theorem State.setWin_otherRegs (n : Nat) (x : Window) : (s.setWin n x).otherRegs = s.otherRegs := rfl

/-! ### The stores -/

@[simp] theorem State.noteWait_otherRegs (n : Nat) : (s.noteWait n).otherRegs = s.otherRegs :=
  s.setF_otherRegs (by decide) _

@[simp] theorem State.checked_otherRegs (k i : Nat) : (s.checked k i).otherRegs = s.otherRegs := by
  have hcount (t : State) : ((t.bump MEM.ECCCNT.UNCORR).set1 MEM.IRQ_RAW.UNCORR).otherRegs = t.otherRegs := by
    rw [State.set1_otherRegs _ (by decide), State.bump, State.setF_otherRegs _ (by decide)]
  have hcap (t : State) (b : Bool) (v : Word) : (if b then t else t.setReg MEM.UECAP.VALID.off v).otherRegs = t.otherRegs := by
    rw [apply_ite State.otherRegs, t.setReg_otherRegs (by decide), ite_self]
  have hfault (t : State) : (t.fault 2).otherRegs = t.otherRegs := t.setF_otherRegs (g := PWR.FLTSTS.FAULT) (by decide) _
  unfold State.checked
  dsimp only
  split
  · rfl
  · split
    · split <;> rfl
    · rw [hfault, hcap, hcount]

theorem State.copyFlush_regs : s.copyFlush.regs = s.regs := by
  unfold State.copyFlush
  split
  · rfl
  · dsimp only; split <;> rfl

theorem State.copyTick_regs : s.copyTick.regs = s.regs := by
  unfold State.copyTick; split
  · exact s.copyFlush_regs
  · rfl

theorem State.copyMeets_regs (d c : Nat) (m : Bool) : (s.copyMeets d c m).regs = s.regs := by
  simp [State.copyMeets, apply_ite State.regs, State.copyFlush_regs]

@[simp] theorem State.copyMeets_otherRegs (d c : Nat) (m : Bool) : (s.copyMeets d c m).otherRegs = s.otherRegs :=
  State.otherRegs_congr (s.copyMeets_regs d c m)

theorem State.passCopy_regs (d : Nat) (w : Wait) : (s.passCopy d w).regs = s.regs := by
  simp [State.passCopy, apply_ite State.regs]

theorem State.noteGrant_regs (d : Nat) (w : Wait) : (s.noteGrant d w).regs = s.regs := by
  simp [State.noteGrant, apply_ite State.regs]

theorem State.logWrite_regs (i : Nat) (v : Word) : (s.logWrite i v).regs = s.regs := by
  have hput (t : State) (c : Prop) [Decidable c] :
      (if c then t.putRelief (i % 32768) v else (t.putHome i v).putRelief (i % 32768) v).regs = t.regs := by
    split <;> rfl
  unfold State.logWrite
  extract_lets d m emptied
  split
  · rfl
  · split
    · rw [hput]; dsimp only [emptied]; split
      · split <;> rfl
      · rfl
    · rfl

@[simp] theorem State.copyStep_otherRegs (c : Nat) : (s.copyStep c).otherRegs = s.otherRegs := by
  have hflush : s.copyFlush.otherRegs = s.otherRegs := State.otherRegs_congr s.copyFlush_regs
  unfold State.copyStep
  dsimp only
  split
  · exact hflush
  · rw [State.withMem_otherRegs, State.checked_otherRegs, hflush]

/-! ### The cycles that a siding gives -/

@[simp] theorem State.noteGrant_otherRegs (d : Nat) (w : Wait) : (s.noteGrant d w).otherRegs = s.otherRegs :=
  State.otherRegs_congr (s.noteGrant_regs d w)

theorem State.give_dma_otherRegs (d : Nat) (w : Wait) (tag : Nat) (h : w.kind = .dma tag) :
    (s.give d w).otherRegs = s.otherRegs := by
  have hserve (t : State) : (t.serve w).otherRegs = t.otherRegs := by
    unfold State.serve
    rw [h]
    exact t.noteWait_otherRegs _
  have hmet : (((s.useBank d w.kind.cycles).copyMeets d s.raw w.kind.stores).passCopy d w).regs = s.regs := by
    rw [State.passCopy_regs, State.copyMeets_regs]; rfl
  unfold State.give
  rw [State.noteGrant_otherRegs, hserve, State.withMem_otherRegs]
  exact State.otherRegs_congr hmet

@[simp] theorem State.dmaLone_otherRegs (d : Nat) (w : Wait) (g : Nat) : (s.dmaLone d w g).1.otherRegs = s.otherRegs := by
  unfold State.dmaLone
  simp [apply_ite State.otherRegs, apply_ite Prod.fst]

@[simp] theorem State.dmaWord_otherRegs (d tag since : Nat) : (s.dmaWord d tag since).1.otherRegs = s.otherRegs := by
  have hgive := s.give_dma_otherRegs d _ tag (dmaWait_kind s.mem.waits d tag since)
  unfold State.dmaWord
  simp [apply_ite State.otherRegs, apply_ite Prod.fst, hgive]

theorem State.dmaWord_otherRegs_of {d tag since : Nat} {t : State} {g : Option Nat} (h : s.dmaWord d tag since = (t, g)) :
    t.otherRegs = s.otherRegs := by
  rw [← s.dmaWord_otherRegs d tag since, h]

/-! ### The writers -/

@[simp] theorem State.logWrite_otherRegs (i : Nat) (v : Word) : (s.logWrite i v).otherRegs = s.otherRegs :=
  State.otherRegs_congr (s.logWrite_regs i v)

@[simp] theorem State.setWriter_otherRegs (n : Nat) (w : Option Writer) : (s.setWriter n w).otherRegs = s.otherRegs := by
  unfold State.setWriter; split <;> rfl

@[simp] theorem State.ringAdvance_otherRegs (n : Nat) : (s.ringAdvance n).otherRegs = s.otherRegs := by
  unfold State.ringAdvance; split <;> rfl

@[simp] theorem State.writeOn_otherRegs (n k : Nat) : (s.writeOn n k).otherRegs = s.otherRegs := by
  induction k generalizing s with
  | zero => rfl
  | succ k ih =>
    unfold State.writeOn
    split
    · rfl
    · dsimp only
      split
      next hg => exact s.dmaWord_otherRegs_of hg
      next hg => simp [apply_ite State.otherRegs, ih, s.dmaWord_otherRegs_of hg]

@[simp] theorem State.queueOn_otherRegs (k : Nat) : (s.queueOn k).otherRegs = s.otherRegs := by
  induction k generalizing s with
  | zero => rfl
  | succ k ih =>
    unfold State.queueOn
    split
    · rfl
    · split
      next hg => exact s.dmaWord_otherRegs_of hg
      next hg => simp [ih, s.dmaWord_otherRegs_of hg]

/-! ### The open slots -/

@[simp] theorem State.readIdle_otherRegs (n : Nat) : (s.readIdle n).otherRegs = s.otherRegs := rfl
@[simp] theorem State.partTaken_otherRegs (n : Nat) : (s.partTaken n).1.otherRegs = s.otherRegs := rfl

theorem State.readPart_otherRegs (n : Nat) (is : List Nat) : (s.readPart n is).1.otherRegs = s.otherRegs := by
  induction is generalizing s with
  | nil => rfl
  | cons i is ih =>
    unfold State.readPart
    dsimp only
    split
    next hg => exact s.dmaWord_otherRegs_of hg
    next hg => simp [ih, State.logRead, s.dmaWord_otherRegs_of hg]

theorem State.storeBytes_otherRegs (k : Nat) (is : List Nat) (m : SMap Word) :
    (s.storeBytes k is m).1.otherRegs = s.otherRegs :=
  (s.touch k).foldl_keeps State.otherRegs (fun t i => t.checked_otherRegs k i) is

theorem State.takeUnit_otherRegs (n shn room : Nat) : (s.takeUnit n shn room).1.otherRegs = s.otherRegs := by
  have hread {is : List Nat} {t : State} {b : Bool} (h : s.readPart n is = (t, b)) : t.otherRegs = s.otherRegs := by
    rw [← s.readPart_otherRegs n is, h]
  have hbytes {k : Nat} {is : List Nat} {m : SMap Word} {t : State} {b : List Byte} (h : s.storeBytes k is m = (t, b)) :
      t.otherRegs = s.otherRegs := by
    rw [← s.storeBytes_otherRegs k is m, h]
  unfold State.takeUnit
  split
  · extract_lets p
    split
    · rfl
    · split
      next h => exact hread h
      next h => simp [hread h]
  · split
    · split
      · rfl
      · split
        extract_lets y
        split
        next h => simp [hbytes h]
    · split
      · extract_lets x
        split
        · rfl
        · split
          next h => exact hread h
          next h => simp [hread h]
      · split
        · extract_lets n
          split
          · rfl
          · split
            next h => simp [hbytes h]
        · split
          · split
            next h => simp [hbytes h]
          · rfl

theorem State.fillSlot_otherRegs (n k : Nat) : (s.fillSlot n k).otherRegs = s.otherRegs := by
  induction k generalizing s with
  | zero => rfl
  | succ k ih =>
    unfold State.fillSlot
    dsimp only
    split
    · rfl
    next p _ =>
      have htake {t : State} {o} (h : s.takeUnit n p.shn (p.size - 16 - p.payload.length) = (t, o)) :
          t.otherRegs = s.otherRegs := by
        rw [← s.takeUnit_otherRegs n p.shn (p.size - 16 - p.payload.length), h]
      split
      · rfl
      · split
        · rw [ih, State.setHstream_otherRegs]
        · split
          next h => exact htake h
          next h => rw [ih, State.setHstream_otherRegs, htake h]

theorem State.fillAll_otherRegs : s.fillAll.otherRegs = s.otherRegs := by
  unfold State.fillAll
  split
  · exact s.foldl_keeps State.otherRegs (fun t n => by rw [apply_ite State.otherRegs, t.fillSlot_otherRegs, ite_self]) _
  · rfl

/-- The stages of `settle` that the stores, the streams and the interrupts have write no register apart from `storeRegs`. -/
theorem State.stores_otherRegs : s.copyTick.writeAll.fillAll.notify.keepAll.otherRegs = s.otherRegs := by
  have hwrite (t : State) : t.writeAll.otherRegs = t.otherRegs := by simp [State.writeAll]
  calc s.copyTick.writeAll.fillAll.notify.keepAll.otherRegs = s.copyTick.writeAll.fillAll.otherRegs :=
        State.otherRegs_congr (by rw [State.keepAll_regs, State.notify_regs])
    _ = s.copyTick.otherRegs := by rw [State.fillAll_otherRegs, hwrite]
    _ = s.otherRegs := State.otherRegs_congr s.copyTick_regs

/-! ### The automatic move -/

/-- A change between Run and Holdover writes MODE_CHG and restarts the watchdog's period; of the registers and PWR's own state the
rest stays (R40, R379). -/
theorem State.toMode_running {m : Mode} (hs : s.mode.running = true) (hm : m.running = true) (hne : s.mode ≠ m) :
    (s.toMode m).regs = (s.set1 PWR.IRQ_RAW.MODE_CHG).regs ∧ (s.toMode m).pwr = { s.pwr with kick := s.raw } := by
  have hpps (t : State) : t.ppsHalt.regs = t.regs ∧ t.ppsHalt.pwr = t.pwr := by
    unfold State.ppsHalt; dsimp only; split <;> exact ⟨rfl, rfl⟩
  have hold : s.mode = .run ∨ s.mode = .holdover := by revert hs; cases s.mode <;> decide
  have hnew : m = .run ∨ m = .holdover := by revert hm; cases m <;> decide
  rcases hold with hold | hold <;> rcases hnew with rfl | rfl
  case inl.inl | inr.inr => exact absurd hold hne
  case inl.inr =>
    simp [State.toMode, hold, Mode.watched, hpps]
    rfl
  case inr.inl =>
    simp [State.toMode, hold, Mode.watched]
    rfl

theorem State.autoMove_keeps (a : Nat) (h : a ≠ PWR.IRQ_RAW.MODE_CHG.off) :
    s.autoMove.reg a = s.reg a ∧ s.autoMove.pwr.heldFault = s.pwr.heldFault := by
  unfold State.autoMove
  split
  next hr =>
    by_cases hsame : s.mode = s.runMode
    · rw [← hsame, s.toMode_self]; exact ⟨rfl, rfl⟩
    · obtain ⟨hregs, hpwr⟩ := s.toMode_running hr s.runMode_running hsame
      refine ⟨?_, by rw [hpwr]⟩
      rw [State.reg, hregs]
      exact s.reg_setF_ne _ _ _ _ h
  next => exact ⟨rfl, rfl⟩

/-- Where no reaction is owed and no command has just left Run or Holdover, what follows a command leaves PWR.WDOG as it is. -/
theorem settle_wdog (hf : s.pwr.faults = []) (hh : s.pwr.heldFault = none) (ht : s.pwr.taken = none) :
    (settle s).reg PWR.WDOG.EN.off = s.reg PWR.WDOG.EN.off := by
  have hstays : s.stays := fun c m h => by rw [ht] at h; cases h
  obtain ⟨hreg, hheld⟩ := s.autoMove_keeps PWR.WDOG.EN.off (by decide)
  have hsettle : settle s = s.autoMove.copyTick.writeAll.fillAll.notify.keepAll := by
    rw [settle, s.react_of_no_fault hf, State.autoMode, s.undoCmd_of_stays hstays, State.actHeld_of_none _ (hheld.trans hh)]
  rw [hsettle, State.reg_of_otherRegs s.autoMove.stores_otherRegs (by decide), hreg]

theorem wdog_of_settle_eq {u t : State} (hu : u.pwr = {}) (ht : t.pwr = {}) (h : settle u = settle t) :
    u.reg PWR.WDOG.EN.off = t.reg PWR.WDOG.EN.off := by
  rw [← settle_wdog u (by rw [hu]) (by rw [hu]) (by rw [hu]), h, settle_wdog t (by rw [ht]) (by rw [ht]) (by rw [ht])]

end Sys2Proof.Machine
end

section
/-! PROOFS. A write of PWR.WDOG in a state that notes bits of PWR.WDOG as set by the hardware in this cycle. The common rule of a
register write (R9) takes noted bits out of the value for every access type, so that the RWL field EN takes none of a written 1; the
statement asks for EN = 1 on every state. `State.set1` notes bits of W1C fields alone: the state below is one that the statement's
quantifier admits, not one that `set1` makes. -/

namespace Sys2Proof.Machine

/-- Configure, an installer on PCIe, every bit of PWR.WDOG noted in the raw cycle now. -/
def wdogNoted : State :=
  ({ State.reset with mode := .configure, seenNow := { events := [(PWR.WDOG.EN.off, 0xFFFFFFFF)] } } : State).setSession .pcie
    { role := .installer }

/-- EN = 1, ACTION = 0, PERIOD = 100. -/
abbrev wdogEnable : Word := 0x80000064

/-- That state after PCIe has written `wdogEnable` to PWR.WDOG. -/
def wdogWritten : State := wdogNoted.write .pcie PWR.WDOG.EN.off wdogEnable

theorem exec_wdogEnable_wdogNoted :
    exec (.registerWrite .pcie PWR.WDOG.EN.off wdogEnable) wdogNoted = .next (settle wdogWritten) := by
  rw [exec_registerWrite, execRegisterWrite, busWrite]
  exact access_reach wdogNoted .pcie _ (by decide)

theorem wdogWritten_pwr : wdogWritten.pwr = {} := by decide +kernel

/-- The write stores no EN. -/
theorem wdogWritten_off : wdogWritten.on PWR.WDOG.EN = false := by decide +kernel

end Sys2Proof.Machine
end

section
open Sys2Proof Sys2Proof.Machine

/-- Refutes O54, in its clause on the enable: where every bit of PWR.WDOG is noted in this cycle, a write of EN = 1 by an installer
leaves EN 0, and what follows a command does not set it. The other clauses are not used. -/
theorem not_watchdog : ¬ Obligations.Watchdog := by
  rintro ⟨-, -, -, -, henable, -, -⟩
  have hopens : wdogNoted.opens .pcie PWR.WDOG.EN.off = true := by decide +kernel
  obtain ⟨t, hexec, hon, hpwr, -⟩ :=
    henable wdogNoted .pcie wdogEnable hopens (by decide) (by decide) (by decide) (by decide) (by decide)
  have hsettle : settle wdogWritten = settle t := Host.Outcome.next.inj (exec_wdogEnable_wdogNoted.symm.trans hexec)
  have hsame : wdogWritten.reg PWR.WDOG.EN.off = t.reg PWR.WDOG.EN.off := wdog_of_settle_eq wdogWritten_pwr hpwr hsettle
  have hoff : t.on PWR.WDOG.EN = false := by
    rw [← wdogWritten_off]
    simp [State.on, State.f, hsame]
  exact Bool.false_ne_true (hoff.symm.trans hon)

end

section
/-! PROOFS. How every command ends: in a state settled (`settle`), whose books of the asserted vectors hold (R299, R300). -/

namespace Sys2Proof.Machine

/-- The outcome is a settled state: the machine goes on. -/
def Settles (o : Out) : Prop := ∃ u, o = .next (settle u)

theorem settles_done (s : State) : Settles (done s) := ⟨s, rfl⟩

theorem settles_write (s : State) (r : Requester) (a : Nat) (k : State → State) : Settles (write s r a k) := ⟨_, rfl⟩

theorem settles_ite {c : Prop} [Decidable c] {o p : Out} (ho : Settles o) (hp : Settles p) : Settles (if c then o else p) := by
  split
  · exact ho
  · exact hp

/-! The commands that judge more than one thing before they settle. -/

theorem settles_todMessage (bs : List Byte) (b : Nat) (s : State) : Settles (execTodMessage bs b s) := by
  refine settles_ite ?_ (settles_done _)
  cases s.decodeTod bs
  · exact settles_done _
  · exact settles_done _

theorem settles_pulseWindowClose (s : State) : Settles (execPulseWindowClose s) := by
  unfold execPulseWindowClose
  cases s.tbu.pulses
  · exact settles_done _
  · exact settles_done _

theorem settles_loadComplete (s : State) : Settles (execLoadComplete s) := by
  unfold execLoadComplete
  cases s.sec.load
  · exact settles_done _
  · exact settles_ite (settles_done _) <| settles_ite (settles_done _) <| settles_ite (settles_done _) (settles_done _)

/-- Every command's outcome: most end in one access or one settled state; the others choose between such ends first. -/
theorem exec_settles (c : Instr) (s : State) : Settles (exec c s) := by
  cases c
  case todMessage bs b => exact settles_todMessage bs b s
  case pulseWindowClose => exact settles_pulseWindowClose s
  case loadComplete => exact settles_loadComplete s
  case ppsEdge | k32Measure | keeptimeLatch | calBuild | toothEdge | indexEdge | gapLineEdge | scrubRead
      | keeptimeResume | ppsoutLoad | bgtCopyEnd | pllLock | pllRelockRetry =>
    exact settles_ite (settles_done _) (settles_done _)
  case bgtTestEnd | bgtRestoreEnd | bootEntry =>
    exact settles_ite (settles_ite (settles_done _) (settles_done _)) (settles_done _)
  case refLoss => rw [exec_refLoss, execRefLoss]; split <;> exact settles_done _
  case dmaStarve => rw [exec_dmaStarve, execDmaStarve]; split <;> exact settles_done _
  case otpDone => rw [exec_otpDone, execOtpDone]; split <;> exact settles_done _
  case sessionExpiry => rw [exec_sessionExpiry, execSessionExpiry]; split <;> exact settles_done _
  case sessionLockoutEnd => rw [exec_sessionLockoutEnd, execSessionLockoutEnd]; split <;> exact settles_done _
  case abortComplete => rw [exec_abortComplete, execAbortComplete]; split <;> exact settles_done _
  case irqSetWrite => rw [exec_irqSetWrite, execIrqSetWrite]; split; exacts [settles_done _, settles_write _ _ _ _]
  case lockSeal => rw [exec_lockSeal, execLockSeal]; split; exacts [settles_done _, settles_write _ _ _ _]
  case blockAbort => rw [exec_blockAbort, execBlockAbort]; split; exacts [settles_done _, settles_write _ _ _ _]
  case stepTakeEffect => rw [exec_stepTakeEffect, execStepTakeEffect]; split; exacts [settles_done _, settles_ite (settles_done _) (settles_done _)]
  case stepDone => rw [exec_stepDone, execStepDone]; split; exacts [settles_done _, settles_ite (settles_done _) (settles_done _)]
  case gateClose => rw [exec_gateClose, execGateClose]; split; exacts [settles_done _, settles_ite (settles_done _) (settles_done _)]
  case sessionVerifyComplete => rw [exec_sessionVerifyComplete, execSessionVerifyComplete]; split; exacts [settles_done _, settles_ite (settles_done _) (settles_done _)]
  case holdLong => rw [exec_holdLong, execHoldLong]; split; exacts [settles_done _, settles_ite (settles_done _) (settles_done _)]
  all_goals exact ⟨_, rfl⟩

/-- A step ends so too, or lets the clock count. -/
theorem step_settles (s : State) : step s = .next s.idle ∨ Settles (step s) := by
  unfold step
  cases s.pending with
  | nil => exact .inl rfl
  | cons c cs => exact .inr (exec_settles c _)

/-! ### The books of the asserted vectors -/

/-- The asserted vectors are read from the registers alone. -/
theorem State.vectors_congr {s t : State} (h : t.regs = s.regs) : t.vectors = s.vectors := by
  have hreg (a : Nat) : t.reg a = s.reg a := by simp only [State.reg, h]
  have hsource : t.vectorOf = s.vectorOf := by funext x; simp only [State.vectorOf, hreg]
  simp only [State.vectors, State.sources, State.pendingPages, State.pendBits, hsource, hreg, h] <;> rfl

theorem State.told_notify (s : State) : s.notify.Told := by
  show s.notify.hst.asserted = s.notify.vectors
  rw [State.vectors_congr s.notify_regs]
  unfold State.notify
  dsimp only
  split
  · next h => exact h.symm
  · rfl

/-- The keepers change no register and no book. -/
theorem State.told_keepAll {s : State} (h : s.Told) : s.keepAll.Told :=
  (h : s.hst.asserted = s.vectors).trans (State.vectors_congr s.keepAll_regs).symm

theorem told_settle (s : State) : (settle s).Told := State.told_keepAll (State.told_notify _)

theorem State.told_idle {s : State} (h : s.Told) : s.idle.Told := by
  unfold State.idle
  split
  · exact h
  · exact h

end Sys2Proof.Machine
end

section
open Sys2Proof Sys2Proof.Machine

/-- Settles O4: what a command leaves is settled, and settling ends with the messages of the asserted vectors; the clock alone
moves neither the registers nor the books. -/
theorem vectorsTold : Obligations.VectorsTold := by
  intro s t hs hstep
  rcases step_settles s with h | ⟨u, h⟩
  · obtain rfl : s.idle = t := Host.Outcome.next.inj (h.symm.trans hstep)
    exact State.told_idle hs
  · obtain rfl : settle u = t := Host.Outcome.next.inj (h.symm.trans hstep)
    exact told_settle u

/-- Settles O5: no vector is asserted at reset. -/
theorem resetTold : Obligations.ResetTold := by
  unfold Obligations.ResetTold State.Told
  rfl

/-- Settles O2: every command ends in a settled state. -/
theorem noCommandStops : Obligations.NoCommandStops := by
  refine ⟨fun c s => ?_, fun s => ?_⟩
  · obtain ⟨u, h⟩ := exec_settles c s
    exact ⟨settle u, h⟩
  · rcases step_settles s with h | ⟨u, h⟩
    · exact ⟨s.idle, h⟩
    · exact ⟨settle u, h⟩

/-- Settles O1: the queue's rest is what stands behind the command taken. -/
theorem stepRunsFront : Obligations.StepRunsFront := by
  refine ⟨fun c s => rfl, fun s h => ?_⟩
  have hmax : max s.raw (s.raw + 1) = s.raw + 1 := Nat.max_eq_right s.raw.le_succ
  have hidle : step s = .next s.idle := by unfold step; rw [h]
  rw [hidle, State.idle, State.advance, hmax]

end

section
/-! PROOFS. The words held per requester, whatever their addresses (R14). -/

namespace Sys2Proof.Machine

/-- A word at another key keeps its value. -/
theorem State.preg_setPreg_other (s : State) {k a j b : Nat} (v : Word) (h : pkey j b ≠ pkey k a) :
    (s.setPreg k a v).preg j b = s.preg j b := SMap.get_put_ne _ _ _ _ _ h

/-- Addresses of registers have room beside the requester's identity. -/
theorem pkey_inj {j b k a : Nat} (hb : b < 2 ^ 28) (ha : a < 2 ^ 28) (h : pkey j b = pkey k a) : j = k ∧ b = a := by
  unfold pkey at h
  omega

/-- A copy taken by a requester leaves every other word (R14). -/
theorem copiesBut_of_preqs {s t : State} {r : Requester} {a : Nat} {v : Word} (ha : a < 2 ^ 28)
    (h : t.preqs = (s.setPreg r.id a v).preqs) : CopiesBut s t r [a] := by
  intro q b hb hne
  rw [State.preg_congr h]
  refine s.preg_setPreg_other v fun hkey => ?_
  obtain ⟨hid, hadr⟩ := pkey_inj hb ha hkey
  rcases hne with hq | hmem
  · exact hq (Requester.id_injective hid)
  · exact hmem (List.mem_singleton.mpr hadr)

theorem State.read_vtHi (s : State) (r : Requester) : (s.read r (adr TBU.VT_HI.V)).2.1 = s.preg r.id (adr TBU.VT_HI.V) := rfl

theorem State.read_nextsecHi (s : State) (r : Requester) :
    (s.read r (adr TBU.NEXTSEC_HI.NEXTSEC)).2.1 = s.preg r.id (adr TBU.NEXTSEC_HI.NEXTSEC) := rfl

theorem State.read_books1 (s : State) (r : Requester) :
    (s.read r (adr DSP.BOOKS1.ACTIVE)).2.1 = s.preg r.id (adr DSP.BOOKS1.ACTIVE) := rfl

end Sys2Proof.Machine
end

section
open Sys2Proof Sys2Proof.Machine

-- In order: each proof evaluates in the kernel, which waits for the proofs before it.
set_option Elab.async false

/-- Settles O8: each of the three reads is a copy and an answer, and a read of the high word answers the copy. -/
theorem lowWordReadsCopy : Obligations.LowWordReadsCopy := by
  intro r s hr
  refine ⟨?vt, ?nextsec, ?books, ?_⟩
  case vt => rw [exec_vtLoRead, execVtLoRead, readAt_reach s r _ _ hr]; rfl
  case nextsec => rw [exec_nextsecLoRead, execNextsecLoRead, readAt_reach s r _ _ hr]; rfl
  case books => rw [exec_books0Read, execBooks0Read, readAt_reach s r _ _ hr]; rfl
  intro a v w b ha t ht
  subst ht
  have hcopy : ((s.setPreg r.id a v).answer r b w).preg r.id a = v := State.preg_setPreg_self s _ _ _
  have hread : (((s.setPreg r.id a v).answer r b w).read r a).2.1 = ((s.setPreg r.id a v).answer r b w).preg r.id a := by
    simp only [List.mem_cons, List.not_mem_nil, or_false] at ha
    rcases ha with rfl | rfl | rfl
    · exact State.read_vtHi _ r
    · exact State.read_nextsecHi _ r
    · exact State.read_books1 _ r
  have hlow : a < 2 ^ 28 := by
    have hall : ∀ x ∈ [adr TBU.VT_HI.V, adr TBU.NEXTSEC_HI.NEXTSEC, adr DSP.BOOKS1.ACTIVE], x < 2 ^ 28 := by decide
    exact hall a ha
  exact ⟨hcopy, hread.trans hcopy, copiesBut_of_preqs hlow rfl, rfl, rfl⟩

/-- Settles O7: the reset state lists nothing, so that every word reads what an unlisted one does. -/
theorem resetState : Obligations.ResetState := by
  have hmode : ∀ t : TrackId, State.reset.tmode t.val = 0 ∧ State.reset.f TRK.MODE.EDGE (trkAt t.val) = 3
      ∧ State.reset.holderAt (trkReg TRK.OWN.HOLDER t) = 0 := by decide +kernel
  have hpeek (i : Nat) : State.reset.logPeek i = 0 := by unfold State.logPeek; split <;> rfl
  exact ⟨rfl, rfl, fun i => ⟨hpeek i, rfl⟩, rfl, fun _ => rfl, fun _ => rfl, fun _ => ⟨rfl, rfl⟩, hmode, fun _ _ => rfl,
    fun _ => ⟨rfl, rfl⟩, fun _ => ⟨rfl, rfl, rfl⟩, by decide, by decide, rfl, rfl, rfl, fun _ => rfl, rfl⟩

end

section
/-! PROOFS. The 32-bit ALU as arithmetic of 32-bit words (R182, R184). -/

namespace Sys2Proof.Machine

theorem signedOf_toNat (a : Word) : signedOf 32 a.toNat = a.toInt := by
  have ha := a.isLt
  unfold signedOf
  rw [BitVec.toInt_eq_toNat_cond, Nat.mod_eq_of_lt ha]
  dsimp only
  split <;> split <;> omega

theorem toNat_eq_bitsOfInt (a : Word) : a.toNat = bitsOfInt 32 a.toInt := by
  conv_lhs => rw [← BitVec.ofInt_toInt (x := a), BitVec.toNat_ofInt]
  rfl

/-- A 32-bit sum or difference is not the exact one where that one leaves the range. -/
theorem overflows_iff {x : Int} (hlo : -(2 ^ 32) ≤ x) (hhi : x < 2 ^ 32) : overflows x = true ↔ x.bmod (2 ^ 32) ≠ x := by
  simp only [overflows, Bool.or_eq_true, decide_eq_true_eq, Int.bmod]
  split <;> omega

theorem clampInt_sat {x : Int} (hlo : -(2 ^ 32) ≤ x) (hhi : x < 2 ^ 32) : (clampInt 32 x).2 = true ↔ x.bmod (2 ^ 32) ≠ x := by
  rw [← overflows_iff hlo hhi]
  unfold clampInt overflows
  dsimp only
  split
  · simp; omega
  · split
    · simp; omega
    · simp; omega

theorem toInt_clampInt (x : Int) :
    (BitVec.ofNat 32 (clampInt 32 x).1).toInt = max (-(2 ^ 31)) (min (2 ^ 31 - 1) x) := by
  have hbits (y : Int) (hlo : -(2 ^ 31) ≤ y) (hhi : y < 2 ^ 31) : (BitVec.ofNat 32 (bitsOfInt 32 y)).toInt = y := by
    have hword : BitVec.ofNat 32 (bitsOfInt 32 y) = BitVec.ofInt 32 y := by
      apply BitVec.eq_of_toNat_eq
      rw [BitVec.toNat_ofInt, BitVec.toNat_ofNat, bitsOfInt]
      omega
    rw [hword, BitVec.toInt_ofInt, Int.bmod]
    split <;> omega
  unfold clampInt
  dsimp only
  split
  · rw [hbits _ (by omega) (by omega)]; omega
  · split
    · rw [hbits _ (by omega) (by omega)]; omega
    · rw [hbits _ (by omega) (by omega)]; omega

theorem ror_eq (a : Word) (n : Nat) (hn : n < 32) :
    (a.toNat / 2 ^ n + a.toNat * 2 ^ (32 - n)) % 2 ^ 32 = (a.rotateRight n).toNat := by
  have hlt : a.toNat / 2 ^ n < 2 ^ (32 - n) := by
    rw [Nat.div_lt_iff_lt_mul (Nat.two_pow_pos n), ← Nat.pow_add, Nat.sub_add_cancel (le_of_lt hn)]
    exact a.isLt
  have hsplit : 2 ^ 32 = 2 ^ n * 2 ^ (32 - n) := by rw [← Nat.pow_add]; congr 1; omega
  have hhigh : a.toNat * 2 ^ (32 - n) % 2 ^ 32 = a.toNat % 2 ^ n * 2 ^ (32 - n) := by
    rw [hsplit, Nat.mul_mod_mul_right]
  have hsum : a.toNat % 2 ^ n * 2 ^ (32 - n) + a.toNat / 2 ^ n < 2 ^ 32 := by
    have hmod := Nat.mod_lt a.toNat (Nat.two_pow_pos n)
    calc _ < a.toNat % 2 ^ n * 2 ^ (32 - n) + 2 ^ (32 - n) := by omega
      _ = (a.toNat % 2 ^ n + 1) * 2 ^ (32 - n) := by ring
      _ ≤ _ := by rw [hsplit]; exact Nat.mul_le_mul_right _ hmod
  have hor : (a.rotateRight n).toNat = a.toNat % 2 ^ n * 2 ^ (32 - n) + a.toNat / 2 ^ n := by
    rw [BitVec.toNat_rotateRight, Nat.mod_eq_of_lt hn, Nat.shiftRight_eq_div_pow, Nat.shiftLeft_eq, hhigh, Nat.or_comm,
      ← Nat.shiftLeft_eq, Nat.shiftLeft_add_eq_or_of_lt hlt]
  have hlow : a.toNat / 2 ^ n % 2 ^ 32 = a.toNat / 2 ^ n := Nat.mod_eq_of_lt (lt_of_le_of_lt (Nat.div_le_self _ _) a.isLt)
  rw [hor, Nat.add_mod, hhigh, hlow, Nat.add_comm, Nat.mod_eq_of_lt hsum]

end Sys2Proof.Machine
end

section
open Sys2Proof Sys2Proof.Machine

/-- Settles O30: sums and differences through the exact integers, which overflow where they leave the 32-bit range; shifts and
products through the numbers of the words. -/
theorem aluComputes : Obligations.AluComputes := by
  intro a b
  have ha := a.isLt
  have hb := b.isLt
  have hsa := signedOf_toNat a
  have hsb := signedOf_toNat b
  have hra := a.toInt_lt
  have hla := a.le_toInt
  have hrb := b.toInt_lt
  have hlb := b.le_toInt
  have hn : b.toNat % 32 < 32 := Nat.mod_lt _ (by decide)
  have hadd : (a + b).toInt = (a.toInt + b.toInt).bmod (2 ^ 32) := BitVec.toInt_add a b
  have hsub : (a - b).toInt = (a.toInt - b.toInt).bmod (2 ^ 32) := BitVec.toInt_sub
  refine ⟨⟨?_, ?_, ?_⟩, ⟨?_, ?_, ?_⟩, ⟨?_, ?_⟩, ?_, ?_, ?_, ?_, ?_, ?_, ?_, ?_⟩
  case refine_1 => exact (BitVec.toNat_add a b).symm
  case refine_2 =>
    rw [BitVec.toNat_add]
    show decide (2 ^ 32 ≤ a.toNat + b.toNat) = true ↔ _
    rw [decide_eq_true_eq]
    omega
  case refine_3 =>
    show overflows (signedOf 32 a.toNat + signedOf 32 b.toNat) = true ↔ _
    rw [hsa, hsb, hadd, overflows_iff (by omega) (by omega)]
  case refine_4 =>
    rw [BitVec.toNat_sub, Nat.add_comm]
    rfl
  case refine_5 =>
    show decide (a.toNat < b.toNat) = true ↔ _
    rw [decide_eq_true_eq]
  case refine_6 =>
    show overflows (signedOf 32 a.toNat - signedOf 32 b.toNat) = true ↔ _
    rw [hsa, hsb, hsub, overflows_iff (by omega) (by omega)]
  case refine_7 =>
    show (BitVec.ofNat 32 (clampInt 32 (signedOf 32 a.toNat + signedOf 32 b.toNat)).1).toInt = _
    rw [hsa, hsb, toInt_clampInt]
  case refine_8 =>
    show (clampInt 32 (signedOf 32 a.toNat + signedOf 32 b.toNat)).2 = true ↔ _
    rw [hsa, hsb, hadd, clampInt_sat (by omega) (by omega)]
  case refine_9 =>
    show (BitVec.ofNat 32 (clampInt 32 (signedOf 32 a.toNat - signedOf 32 b.toNat)).1).toInt = _
    rw [hsa, hsb, toInt_clampInt]
  case refine_10 =>
    rw [BitVec.toNat_shiftLeft, Nat.shiftLeft_eq]
    rfl
  case refine_11 =>
    rw [BitVec.toNat_ushiftRight, Nat.shiftRight_eq_div_pow]
    rfl
  case refine_12 =>
    show bitsOfInt 32 (signedOf 32 a.toNat / ((2 ^ (b.toNat % 32) : Nat) : Int)) = _
    rw [toNat_eq_bitsOfInt (a.sshiftRight _), BitVec.toInt_sshiftRight, Int.shiftRight_eq_div_pow, hsa]
  case refine_13 => exact ror_eq a _ hn
  case refine_14 => exact (BitVec.toNat_mul a b).symm
  case refine_15 =>
    show a.toNat * b.toNat / 2 ^ 32 % 2 ^ 32 = _
    have hprod : a.toNat * b.toNat < 2 ^ 32 * 2 ^ 32 := Nat.mul_lt_mul'' ha hb
    exact Nat.mod_eq_of_lt (by rwa [Nat.div_lt_iff_lt_mul (by decide)])
  case refine_16 => rfl

end

section
/-! PROOFS. The memories after a stored word: which bank a word of the log store lands in and which one serves it (R263, R264, R274). -/

namespace Sys2Proof.Machine

variable (s : State)

/-- A memory of which one store changes, in canonical form. -/
theorem Mem.only_of {m n : Mem} {k : Nat} {f : Nat → Word} (hwf : n.wf = true) (hget : ∀ j, SMap.get (fun _ => 0) (n.store k) j = f j)
    (hlog : k ≠ stLog → n.log = m.log) (hrel : k ≠ stRelief → n.relief = m.relief) (hicb : k ≠ stIcb → n.icb = m.icb)
    (hadc : k ≠ stAdc → n.adcBuf = m.adcBuf) (hbook : k ≠ stBook → n.book = m.book) : m.only n k f := by
  refine ⟨hwf, hget, fun l hl hne => ?_⟩
  simp only [List.mem_cons, List.not_mem_nil, or_false] at hl
  rcases hl with rfl | rfl | rfl | rfl | rfl
  · exact hlog hne.symm
  · exact hrel hne.symm
  · exact hicb hne.symm
  · exact hadc hne.symm
  · exact hbook hne.symm

/-! ### What serves a word -/

theorem Mem.onRelief_iff (m : Mem) (d : Nat) :
    m.onRelief d = true ↔ m.retired = some d ∨ m.bgtSid = d ∧ (m.bgtPhase = 1 ∨ m.bgtPhase = 2) := by
  simp [Mem.onRelief]

/-- With one siding out at most, two sidings that the relief serves are one (R272, R277). -/
theorem Mem.onRelief_unique {m : Mem} (h : m.oneOut) {c d : Nat} (hc : m.onRelief c = true) (hd : m.onRelief d = true) : c = d := by
  rw [Mem.onRelief_iff] at hc hd
  obtain ⟨hone, -⟩ := h
  rcases hone with hnone | hphase
  · simp only [hnone, reduceCtorEq, false_or] at hc hd
    exact hc.1.symm.trans hd.1
  · simp only [hphase, OfNat.ofNat_ne_one, Nat.reduceEqDiff, or_self, and_false, or_false] at hc hd
    exact Option.some.inj (hc.symm.trans hd)

/-- The words and the siding served by the relief decide what a word of the log store reads. -/
theorem State.logPeek_congr {t : State} (hlog : t.mem.log = s.mem.log) (hrel : t.mem.relief = s.mem.relief)
    (hout : t.mem.onRelief = s.mem.onRelief) (j : Nat) : t.logPeek j = s.logPeek j := by
  unfold State.logPeek
  rw [hlog, hrel, hout]

/-- A word put into the bank that serves its siding reads back; a word that the other bank serves takes no part. -/
theorem State.logPeek_stored {t : State} {i : Nat} {v : Word} (hone : s.mem.oneOut) (hout : t.mem.onRelief = s.mem.onRelief)
    (hrel : s.mem.onRelief (i / 32768) = true → t.mem.relief = SMap.put (fun _ => 0) s.mem.relief (i % 32768) v)
    (hoff : s.mem.onRelief (i / 32768) = false → ∀ d, s.mem.onRelief d = true → t.mem.relief = s.mem.relief)
    (hlog : s.mem.onRelief (i / 32768) = false → t.mem.log = SMap.put (fun _ => 0) s.mem.log i v)
    (hkeep : s.mem.onRelief (i / 32768) = true →
      ∀ j, j ≠ i → SMap.get (fun _ => 0) t.mem.log j = SMap.get (fun _ => 0) s.mem.log j) (j : Nat) :
    t.logPeek j = if j = i then v else s.logPeek j := by
  unfold State.logPeek
  rw [hout]
  cases hj : s.mem.onRelief (j / 32768) <;> cases hi : s.mem.onRelief (i / 32768)
  · simp only [Bool.false_eq_true, if_false]
    rw [hlog hi, SMap.get_put]
  · have hne : j ≠ i := by rintro rfl; rw [hj] at hi; cases hi
    simp only [Bool.false_eq_true, if_false, if_neg hne]
    exact hkeep hi j hne
  · have hne : j ≠ i := by rintro rfl; rw [hj] at hi; cases hi
    simp only [if_true, if_neg hne]
    rw [hoff hi _ hj]
  · have hd := Mem.onRelief_unique hone hj hi
    have hsame : j % 32768 = i % 32768 ↔ j = i := by omega
    simp only [if_true]
    rw [hrel hi, SMap.get_put]
    simp only [hsame]

/-! ### A word of the log store written -/

/-- The copy register emptied where the write meets its word (R275). -/
def State.uncopied (k : Nat) : State :=
  match s.mem.copyReg with
  | some (j, _, _) => if j = k then { s with mem := { s.mem with copyReg := none } } else s
  | none => s

theorem State.uncopied_mem (k : Nat) : (s.uncopied k).mem = { s.mem with copyReg := (s.uncopied k).mem.copyReg } := by
  unfold State.uncopied
  split
  · split <;> rfl
  · rfl

/-- The three cases of a write: its siding is retired, under the background test, or at home. -/
theorem State.logWrite_cases (i : Nat) (v : Word) :
    (s.mem.retired = some (i / 32768) ∧ s.logWrite i v = s.putRelief (i % 32768) v)
      ∨ (s.mem.retired ≠ some (i / 32768) ∧ s.mem.bgtPhase ≠ 3 ∧ s.mem.bgtSid = i / 32768
        ∧ s.logWrite i v = if s.mem.bgtPhase = 1 then (s.uncopied (i % 32768)).putRelief (i % 32768) v
            else ((s.uncopied (i % 32768)).putHome i v).putRelief (i % 32768) v)
      ∨ (s.mem.onRelief (i / 32768) = false ∧ s.logWrite i v = s.putHome i v) := by
  unfold State.logWrite
  dsimp only
  by_cases hret : s.mem.retired = some (i / 32768)
  · exact .inl ⟨hret, if_pos hret⟩
  · rw [if_neg hret]
    by_cases hsid : (s.mem.borrowed && decide (s.mem.bgtSid = i / 32768)) = true
    · rw [if_pos hsid]
      simp only [Mem.borrowed, Bool.and_eq_true, decide_eq_true_eq] at hsid
      exact .inr (.inl ⟨hret, hsid.1, hsid.2, rfl⟩)
    · rw [if_neg hsid]
      refine .inr (.inr ⟨?_, rfl⟩)
      rw [Bool.eq_false_iff, Ne, Mem.onRelief_iff]
      simp only [Mem.borrowed, Bool.and_eq_true, decide_eq_true_eq] at hsid
      rintro (h | ⟨h, hphase⟩)
      · exact hret h
      · exact hsid ⟨by omega, h⟩

/-- Of the memories, a write of the log store changes the home banks, the relief and the copy register, and check bits. -/
theorem State.logWrite_mem (i : Nat) (v : Word) : (s.logWrite i v).mem = { s.mem with
    log := (s.logWrite i v).mem.log, relief := (s.logWrite i v).mem.relief
    ecc := (s.logWrite i v).mem.ecc, copyReg := (s.logWrite i v).mem.copyReg } := by
  rcases s.logWrite_cases i v with ⟨-, h⟩ | ⟨-, -, -, h⟩ | ⟨-, h⟩
  · rw [h]; rfl
  · rw [h]
    split
    · simp only [State.putRelief, State.setEcc]
      rw [s.uncopied_mem]
    · simp only [State.putRelief, State.putHome, State.setEcc]
      rw [s.uncopied_mem]
  · rw [h]; rfl

theorem State.logWrite_store (i : Nat) (v : Word) : ∀ k ∈ [stIcb, stAdc, stBook], (s.logWrite i v).mem.store k = s.mem.store k := by
  intro k hk
  rw [State.logWrite_mem]
  simp only [List.mem_cons, List.not_mem_nil, or_false] at hk
  rcases hk with rfl | rfl | rfl <;> rfl

/-- A write of the log store reads back from the bank that serves the word, and leaves every other word (R263, R274). -/
theorem State.logPeek_logWrite (i : Nat) (v : Word) (hone : s.mem.oneOut) (j : Nat) :
    (s.logWrite i v).logPeek j = if j = i then v else s.logPeek j := by
  have hout : (s.logWrite i v).mem.onRelief = s.mem.onRelief := by rw [State.logWrite_mem]; rfl
  have hlogged (m : SMap Word) (k : Nat) (hk : k ≠ i) :
      SMap.get (fun _ => 0) (SMap.put (fun _ => 0) m i v) k = SMap.get (fun _ => 0) m k := SMap.get_put_ne _ _ _ _ _ hk
  have hun := s.uncopied_mem (i % 32768)
  refine s.logPeek_stored hone hout ?_ ?_ ?_ ?_ j
  all_goals rcases s.logWrite_cases i v with ⟨hret, h⟩ | ⟨hret, hphase, hsid, h⟩ | ⟨hoff, h⟩
  all_goals rw [h]
  · exact fun _ => rfl
  · intro _
    split
    · simp only [State.putRelief, State.setEcc]; rw [hun]
    · simp only [State.putRelief, State.putHome, State.setEcc]; rw [hun]
  · intro hon; rw [hoff] at hon; cases hon
  · intro hoff
    rw [Bool.eq_false_iff, Ne, Mem.onRelief_iff] at hoff
    exact absurd (.inl hret) hoff
  · intro hoff d hd
    rw [Mem.onRelief_iff] at hd
    rw [Bool.eq_false_iff, Ne, Mem.onRelief_iff] at hoff
    rcases hone.1 with hnone | hthree
    · rcases hd with hd | ⟨hd, hp⟩
      · rw [hnone] at hd; cases hd
      · exact absurd (.inr ⟨hsid, hp⟩) hoff
    · exact absurd hthree hphase
  · exact fun _ _ _ => rfl
  · intro hoff
    rw [Bool.eq_false_iff, Ne, Mem.onRelief_iff] at hoff
    exact absurd (.inl hret) hoff
  · intro hoff
    rw [Bool.eq_false_iff, Ne, Mem.onRelief_iff] at hoff
    have hp : s.mem.bgtPhase ≠ 1 := fun hp => hoff (.inr ⟨hsid, .inl hp⟩)
    rw [if_neg hp]
    simp only [State.putRelief, State.putHome, State.setEcc]
    rw [hun]
  · exact fun _ => rfl
  · exact fun _ _ _ => rfl
  · intro _ k hk
    split
    · simp only [State.putRelief, State.setEcc]; rw [hun]
    · simp only [State.putRelief, State.putHome, State.setEcc]; rw [hun]; exact hlogged _ k hk
  · intro hon; rw [hoff] at hon; cases hon

/-! ### A part of a word merged -/

theorem mergeBe_all (w v : Word) : mergeBe w v 15 = v := by
  have hv := v.isLt
  apply BitVec.eq_of_toNat_eq
  have h0 : bitsAt 15 0 1 = 1 := by decide
  have h1 : bitsAt 15 1 1 = 1 := by decide
  have h2 : bitsAt 15 2 1 = 1 := by decide
  have h3 : bitsAt 15 3 1 = 1 := by decide
  simp only [mergeBe, h0, h1, h2, h3, if_true, bitsAt_eq, word, BitVec.toNat_ofNat]
  omega

theorem Mem.store_icb (m : Mem) : m.store stIcb = m.icb := rfl

theorem State.get_icbPut_lanes (i : Nat) (v : Word) (be j : Nat) : SMap.get (fun _ => 0) ((s.icbPut i v be).mem.store stIcb) j
    = if j = i then (if be = 15 then v else mergeBe (s.icbPeek i) v be) else s.icbPeek j := by
  rw [Mem.store_icb, ← State.icbPeek, s.get_icbPut]
  by_cases hbe : be = 15
  · rw [if_pos hbe, hbe, mergeBe_all]
  · rw [if_neg hbe]

/-- Of the memories, a write of the interchange bank leaves the other stores. -/
theorem State.storeIcb_mem (t : State) (i : Nat) (w : Word) : ∃ es, (({ t with mem := { t.mem with
    icb := SMap.put (fun _ => 0) t.mem.icb i w } } : State).setEcc stIcb i 0).mem
      = { t.mem with icb := SMap.put (fun _ => 0) t.mem.icb i w, ecc := es } := ⟨_, rfl⟩

/-- Of the memories, the check of a word changes the queue of rewrites alone (R263). -/
theorem State.checked_mem (k i : Nat) : (s.checked k i).mem = { s.mem with rewrites := (s.checked k i).mem.rewrites } := by
  have hset (t : State) (b : Bool) (a : Nat) (w : Word) : (if b then t else t.setReg a w).mem = t.mem := by
    rw [apply_ite State.mem, State.setReg_mem, ite_self]
  unfold State.checked
  extract_lets e m u v
  have hv : v.mem = s.mem := (hset u _ _ _).trans (by rw [State.set1_mem, State.bump_mem])
  clear_value v
  split
  · rfl
  · split
    · split <;> rfl
    · rw [State.fault_mem, hv]

theorem State.logPeek_checked (k i j : Nat) : (s.checked k i).logPeek j = s.logPeek j := by
  have h := s.checked_mem k i
  exact s.logPeek_congr (by rw [h]) (by rw [h]) (by rw [h]; rfl) j

theorem State.store_checked (k i l : Nat) : (s.checked k i).mem.store l = s.mem.store l := by
  rw [State.checked_mem]; rfl

theorem State.oneOut_checked (k i : Nat) (h : s.mem.oneOut) : (s.checked k i).mem.oneOut := by
  rw [State.checked_mem]; exact h

/-- A host write: the whole word, the lanes merged into a word that is no uncorrectable one, or a refusal (R264). -/
theorem State.logMerge_cases (r : Requester) (i : Nat) (v : Word) (be : Nat) :
    (be = 15 ∧ s.logMerge r i v be = s.logWrite i v)
      ∨ (be ≠ 15 ∧ s.ecc (s.logHome i).1 (s.logHome i).2 = 2
        ∧ s.logMerge r i v be = (s.checked (s.logHome i).1 (s.logHome i).2).capture MEM.page.base (i * 4) r .ecc)
      ∨ (be ≠ 15 ∧ s.ecc (s.logHome i).1 (s.logHome i).2 ≠ 2
        ∧ s.logMerge r i v be = (s.checked (s.logHome i).1 (s.logHome i).2).logWrite i (mergeBe (s.logPeek i) v be)) := by
  by_cases hbe : be = 15
  · exact .inl ⟨hbe, by rw [State.logMerge, if_pos hbe]⟩
  · by_cases he : s.ecc (s.logHome i).1 (s.logHome i).2 = 2
    · exact .inr (.inl ⟨hbe, he, by rw [State.logMerge, if_neg hbe, State.rmw, if_neg hbe, if_pos he]⟩)
    · exact .inr (.inr ⟨hbe, he, by rw [State.logMerge, if_neg hbe, State.rmw, if_neg hbe, if_neg he]⟩)

end Sys2Proof.Machine
end

section
open Sys2Proof Sys2Proof.Machine

/-- Settles O6: a word lands in the store that serves it, and the others keep their words. -/
theorem memoryWrites : Obligations.MemoryWrites := by
  intro s i v hwf
  refine ⟨?home, ?relief, ?icb, ?adc, ?book, ?log, ?merge⟩
  case home =>
    exact Mem.only_of (s.putHome_keeps i v hwf) (s.logPeek_putHome i v) (fun h => absurd rfl h) (fun _ => rfl) (fun _ => rfl)
      (fun _ => rfl) (fun _ => rfl)
  case relief =>
    exact Mem.only_of (s.putRelief_keeps i v hwf) (s.get_putRelief i v) (fun _ => rfl) (fun h => absurd rfl h) (fun _ => rfl)
      (fun _ => rfl) (fun _ => rfl)
  case icb =>
    intro be
    obtain ⟨es, h⟩ : ∃ es, (s.icbPut i v be).mem = _ := (s.icbNote i).storeIcb_mem i (mergeBe ((s.icbNote i).icbPeek i) v be)
    exact Mem.only_of (s.icbPut_keeps i v be hwf) (s.get_icbPut_lanes i v be) (fun _ => by rw [h]; rfl) (fun _ => by rw [h]; rfl)
      (fun h => absurd rfl h) (fun _ => by rw [h]; rfl) (fun _ => by rw [h]; rfl)
  case adc =>
    exact Mem.only_of (s.adcPut_keeps i v hwf) (s.get_adcPut i v) (fun _ => rfl) (fun _ => rfl) (fun _ => rfl)
      (fun h => absurd rfl h) (fun _ => rfl)
  case book =>
    exact Mem.only_of (s.bookPut_keeps i v hwf) (s.get_bookPut i v) (fun _ => rfl) (fun _ => rfl) (fun _ => rfl)
      (fun _ => rfl) (fun h => absurd rfl h)
  case log => exact fun hone => ⟨s.logWrite_keeps i v hwf, s.logPeek_logWrite i v hone, s.logWrite_store i v⟩
  case merge =>
    intro r be hone
    refine ⟨s.logMerge_keeps r i v be hwf, ?_⟩
    have hone' := s.oneOut_checked (s.logHome i).1 (s.logHome i).2 hone
    rcases s.logMerge_cases r i v be with ⟨hbe, h⟩ | ⟨hbe, hecc, h⟩ | ⟨hbe, hecc, h⟩
    · rw [h]
      refine ⟨s.logWrite_store i v, fun hne => absurd hbe hne, fun _ j => ?_⟩
      rw [s.logPeek_logWrite i v hone, if_pos hbe]
    · rw [h]
      refine ⟨fun k _ => s.store_checked _ _ k, fun _ _ j => s.logPeek_checked _ _ j, fun hor => ?_⟩
      exact (hor.elim hbe fun hne => hne hecc).elim
    · rw [h]
      refine ⟨fun k hk => (State.logWrite_store _ i _ k hk).trans (s.store_checked _ _ k), fun _ he => absurd he hecc,
        fun _ j => ?_⟩
      rw [State.logPeek_logWrite _ i _ hone', if_neg hbe, s.logPeek_checked]

end

section
/-! PROOFS. What follows a command, and the registers of a device with an event pending at engine 7. `settle` does not determine the
state that it settles, so that a statement that some settled state has a given register is refuted by what settling keeps of every
state. A fault reaction leaves no pending event at engine 7 (R174, R375, R385); where one is pending afterwards, no reaction has acted,
and the registers are as they were but for those of the stores, of the automatic move and of a command that it drops (R40, R371). -/

namespace Sys2Proof.Machine

variable (s : State)

/-- The registers that may change after a command though no reaction acts. -/
def settleRegs : List Nat := PWR.CMDSTS.RESULT.off :: PWR.IRQ_RAW.MODE_CHG.off :: storeRegs

/-- State `t` has the register at `a` and the engines of `s`, or no event is pending at its engine 7. -/
def State.RegStays (a : Nat) (s t : State) : Prop := (t.engine 7).evs = [] ∨ (t.reg a = s.reg a ∧ t.eng = s.eng)

variable {s} in
theorem State.RegStays.trans {a : Nat} {t u : State} (h : State.RegStays a s t) (k : State.RegStays a t u) :
    State.RegStays a s u := by
  rcases k with k | ⟨hreg, heng⟩
  · exact .inl k
  · rcases h with h | ⟨hreg', heng'⟩
    · exact .inl (by rw [State.engine_congr heng, h])
    · exact .inr ⟨hreg.trans hreg', heng.trans heng'⟩

theorem State.act_regStays (a : Nat) (x : Pwr) (p : Nat × Nat) (c : Nat) :
    State.RegStays a s (({ s with pwr := x } : State).act p c) := by
  unfold State.act
  split
  · left
    rw [State.warmRestart, State.engine, State.toBoot_eng]
    rfl
  · by_cases h : s.mode = .safe
    · right
      rw [State.enterSafe, if_pos h]
      exact ⟨rfl, rfl⟩
    · exact .inl (State.enterSafe_evs _ _ _ h)

theorem State.react_regStays (a : Nat) : State.RegStays a s s.react := by
  have hpwr (x : Pwr) : State.RegStays a s ({ s with pwr := x } : State) := .inr ⟨rfl, rfl⟩
  unfold State.react
  split
  · exact .inr ⟨rfl, rfl⟩
  · dsimp only
    split
    · exact hpwr _
    · split
      · exact hpwr _
      · split
        · exact hpwr _
        · split
          · exact hpwr _
          · exact s.act_regStays a _ _ _

theorem State.actHeld_regStays (a : Nat) : State.RegStays a s s.actHeld := by
  unfold State.actHeld
  split
  · exact .inr ⟨rfl, rfl⟩
  · split
    · exact s.act_regStays a _ _ _
    · exact .inr ⟨rfl, rfl⟩

theorem State.undoCmd_reg {a : Nat} (h : a ≠ PWR.CMDSTS.RESULT.off) : s.undoCmd.reg a = s.reg a := by
  unfold State.undoCmd
  split
  · rfl
  · split
    · exact State.reg_setF_ne _ _ _ _ _ h
    · rfl

variable {s}

theorem State.autoMode_regStays {a : Nat} (hcmd : a ≠ PWR.CMDSTS.RESULT.off) (hmode : a ≠ PWR.IRQ_RAW.MODE_CHG.off) :
    State.RegStays a s s.autoMode :=
  .inr ⟨((State.autoMove_keeps _ a hmode).1).trans (s.undoCmd_reg hcmd), congrArg Prod.snd s.autoMode_faultBook⟩

theorem settle_regStays {a : Nat} (h : a ∉ settleRegs) : State.RegStays a s (settle s) := by
  simp only [settleRegs, List.mem_cons, not_or] at h
  obtain ⟨hcmd, hmode, hstores⟩ := h
  have hafter (t : State) : State.RegStays a t t.copyTick.writeAll.fillAll.notify.keepAll := by
    have heng : t.copyTick.writeAll.fillAll.notify.keepAll.faultBook = t.faultBook := by simp
    exact .inr ⟨State.reg_of_otherRegs t.stores_otherRegs hstores, congrArg Prod.snd heng⟩
  exact ((s.react_regStays a).trans (State.autoMode_regStays hcmd hmode)).trans
    ((State.actHeld_regStays _ a).trans (hafter _))

/-- Two states that settle to one state with an event pending at engine 7 have the same registers before (but for `settleRegs`). -/
theorem reg_of_settle_eq {u t : State} {a : Nat} (h : settle u = settle t) (hevs : ((settle u).engine 7).evs ≠ [])
    (ha : a ∉ settleRegs) : t.reg a = u.reg a := by
  rcases settle_regStays (s := u) ha with hlost | ⟨hu, -⟩
  · exact absurd hlost hevs
  · rcases settle_regStays (s := t) ha with hlost | ⟨ht, -⟩
    · rw [h] at hevs
      exact absurd hlost hevs
    · rw [← ht, ← h, hu]

/-! ### Registers whose bits the state notes as set by the hardware in this cycle

The common rule of a register write (R9) takes noted bits out of the value for every access type, so that an RW or RWL field takes none
of a written 1. `State.set1` notes bits of W1C fields alone: the states below are ones that the statements' quantifiers allow, not ones
that `set1` makes. -/

/-- Configure, a maker on PCIe, an event pending at engine 7, the registers `rs`, every bit of the register at `a` noted in the raw
cycle now. -/
def noted (a : Nat) (rs : SMap Word := []) : State :=
  ({ State.reset with
    mode := .configure, regs := rs, seenNow := { events := [(a, 0xFFFFFFFF)] }
    eng := [(7, { evs := [(0, some { lvl := 0, addr := 0, g1 := 0, s0 := 0, since := 0 })] })] } : State).setSession .pcie
    { role := .maker }

/-- One outcome, two states that settle to it: a field reads the same in both. -/
theorem f_of_outcome {o : Out} {u t : State} {g : Fld} {i : Nat} (hu : o = .next (settle u)) (ht : o = .next (settle t))
    (hevs : ((settle u).engine 7).evs ≠ []) (ha : g.off + i ∉ settleRegs) : t.f g i = u.f g i := by
  rw [State.f, State.f, reg_of_settle_eq (Host.Outcome.next.inj (hu.symm.trans ht)) hevs ha]

theorem on_of_outcome {o : Out} {u t : State} {g : Fld} {i : Nat} (hu : o = .next (settle u)) (ht : o = .next (settle t))
    (hevs : ((settle u).engine 7).evs ≠ []) (ha : g.off + i ∉ settleRegs) : t.on g i = u.on g i := by
  rw [State.on, State.on, f_of_outcome hu ht hevs ha]

end Sys2Proof.Machine
end

section
open Sys2Proof Sys2Proof.Machine

-- In order: each proof evaluates in the kernel, which waits for the proofs before it.
set_option Elab.async false

/-- Refutes O11, in its clause on SRV_EN: where every bit of TBU.CTL is noted in this cycle, a write of SRV_EN = 1 leaves it 0. -/
theorem not_mappingServoAndSteps : ¬ Obligations.MappingServoAndSteps := by
  rintro ⟨-, -, -, hservo, -⟩
  have hopens : (noted TBU.CTL.SRV_EN.off).opens .pcie (adr TBU.CTL.SRV_EN) = true := by decide +kernel
  obtain ⟨t, hexec, hon, -⟩ := hservo _ .pcie 1 hopens (by decide +kernel) (by decide +kernel)
    (by decide +kernel)
  have hsame : t.on TBU.CTL.SRV_EN = _ := on_of_outcome (write_opens _ _ _ _ hopens) hexec (by decide +kernel) (by decide +kernel)
  have hoff : ((noted TBU.CTL.SRV_EN.off).tbuCtl .pcie 1).on TBU.CTL.SRV_EN = false := by decide +kernel
  exact absurd (hoff.symm.trans (hsame.symm.trans hon)) (by decide)

end

section
/-! PROOFS. Writes to registers with noted bits (R9): each statement below asks for a value that a state with such bits does not
take. -/

namespace Sys2Proof.Machine

theorem busWrite_reach (s : State) (r : Requester) (a : Nat) (v : Word) (h : s.reaches r = true) :
    busWrite r a v s = .next (settle (s.write r a v)) := access_reach s r _ h

end Sys2Proof.Machine
end

section
open Sys2Proof Sys2Proof.Machine

-- In order: each proof evaluates in the kernel, which waits for the proofs before it.
set_option Elab.async false

/-- Refutes O12, in its clause on PPSOUT: where every bit of TBU.PPSOUT is noted in this cycle, a write of EN = 1 that names a
free track leaves EN 0. -/
theorem not_secondPulseAndCalibration : ¬ Obligations.SecondPulseAndCalibration := by
  rintro ⟨hclaim, -⟩
  have hopens : (noted TBU.PPSOUT.EN.off).opens .pcie (adr TBU.PPSOUT.EN) = true := by decide +kernel
  obtain ⟨t, hexec, -, hon, -⟩ :=
    hclaim (noted TBU.PPSOUT.EN.off) .pcie (word (2 ^ TBU.PPSOUT.EN.lo)) hopens (by decide +kernel) (by decide +kernel) (by decide +kernel)
  have hsame : t.on TBU.PPSOUT.EN = _ :=
    on_of_outcome (write_opens _ _ _ _ hopens) hexec (by decide +kernel) (by decide +kernel)
  have hoff : ((noted TBU.PPSOUT.EN.off).ppsout .pcie (word (2 ^ TBU.PPSOUT.EN.lo))).on TBU.PPSOUT.EN = false := by decide +kernel
  exact absurd (hoff.symm.trans (hsame.symm.trans hon)) (by decide +kernel)

/-- Refutes O13, in its clause on TRK.MODE: where every bit of TRK.MODE of track 0 is noted in this cycle, a write of a mode
leaves it OFF. -/
theorem not_trackModeAndDirectLoads : ¬ Obligations.TrackModeAndDirectLoads := by
  rintro ⟨hmode, -⟩
  have hopens : (noted TRK.MODE.CODE.off).opens .pcie (trkReg TRK.MODE.CODE (0 : TrackId)) = true := by decide +kernel
  obtain ⟨t, hexec, hcode, -⟩ := hmode (noted TRK.MODE.CODE.off) .pcie 0 0x31 hopens (by decide +kernel) (by decide +kernel)
    (by decide +kernel) (by decide +kernel) (by decide +kernel)
  have hsame : t.f TRK.MODE.CODE = _ :=
    f_of_outcome (busWrite_reach (noted TRK.MODE.CODE.off) .pcie (trkReg TRK.MODE.CODE (0 : TrackId)) 0x31 (by decide +kernel)) hexec (by decide +kernel) (by decide +kernel)
  have hoff : ((noted TRK.MODE.CODE.off).write .pcie (trkReg TRK.MODE.CODE (0 : TrackId)) 0x31).f TRK.MODE.CODE = 0 :=
    by decide +kernel
  exact absurd (hoff.symm.trans (hsame.symm.trans hcode)) (by decide +kernel)

/-- Refutes O24, in its clause on RESYNC: where every bit of TTN.CTL of turntable 0 is noted in this cycle, a write of RESYNC
that keeps the other fields clears EN. -/
theorem not_turntableControl : ¬ Obligations.TurntableControl := by
  rintro ⟨-, -, -, hresync, -⟩
  have hopens : (noted TTN.CTL.EN.off [(TTN.CTL.EN.off, 1)]).opens .pcie (ttnCtlAt (0 : TurnId).val) = true := by decide +kernel
  obtain ⟨t, hexec, -, hon, -⟩ := hresync (noted TTN.CTL.EN.off [(TTN.CTL.EN.off, 1)]) .pcie 0 hopens
  have hsame : t.on TTN.CTL.EN = _ :=
    on_of_outcome (write_opens _ _ _ _ hopens) hexec (by decide +kernel) (by decide +kernel)
  have hoff : ((noted TTN.CTL.EN.off [(TTN.CTL.EN.off, 1)]).ttnCtl .pcie (0 : TurnId).val
      ((noted TTN.CTL.EN.off [(TTN.CTL.EN.off, 1)]).reg (ttnCtlAt (0 : TurnId).val) ||| 16)).on TTN.CTL.EN = false :=
    by decide +kernel
  exact absurd (hoff.symm.trans (hsame.symm.trans hon)) (by decide +kernel)

/-- Refutes O33, in its clause on RUL.MODE: where every bit of RUL.MODE of unit 0 is noted in this cycle, a write of a mode
leaves the unit OFF. -/
theorem not_rulerControl : ¬ Obligations.RulerControl := by
  rintro ⟨hmode, -⟩
  have hopens : (noted RUL.MODE.CODE.off).opens .pcie (rulReg RUL.MODE.CODE (0 : RulerId).val) = true := by decide +kernel
  obtain ⟨t, hexec, hcode, -⟩ := (hmode (noted RUL.MODE.CODE.off) .pcie 0 1 hopens).1 (by decide +kernel) (by decide +kernel)
    (by decide +kernel) (by decide +kernel) (by decide +kernel)
  have hsame : t.f RUL.MODE.CODE = _ :=
    f_of_outcome (write_opens _ _ _ _ hopens) hexec (by decide +kernel) (by decide +kernel)
  have hoff : ((noted RUL.MODE.CODE.off).ruModePut .pcie 0 1).f RUL.MODE.CODE = 0 := by decide +kernel
  exact absurd (hoff.symm.trans (hsame.symm.trans hcode)) (by decide +kernel)

/-- Refutes O35, in its clause on ADC.CTL: where every bit of ADC.CTL is noted in this cycle, a write of MMC_EN = 1 leaves it 0.
-/
theorem not_adcWindowsAndStamps : ¬ Obligations.AdcWindowsAndStamps := by
  rintro ⟨-, -, -, -, -, -, -, -, hctl, -⟩
  have hopens : (noted ADC.CTL.EN_A.off).opens .pcie (ADC.CTL.EN_A.off) = true := by decide +kernel
  obtain ⟨t, hexec, -, -, -, hon, -⟩ := (hctl (noted ADC.CTL.EN_A.off) .pcie 8 hopens).1 (by decide +kernel)
  have hsame : t.on ADC.CTL.MMC_EN = _ :=
    on_of_outcome (write_opens _ _ _ _ hopens) hexec (by decide +kernel) (by decide +kernel)
  have hoff : ((noted ADC.CTL.EN_A.off).adcCtl .pcie 8).on ADC.CTL.MMC_EN = false := by decide +kernel
  exact absurd (hoff.symm.trans (hsame.symm.trans hon)) (by decide +kernel)

/-- Refutes O42, in its clause on RUL.BCNT: where every bit of BCNT of unit 0 is noted in this cycle, a write of 1 leaves it 0. -/
theorem not_busAccesses : ¬ Obligations.BusAccesses := by
  rintro ⟨hstore, -⟩
  have hopens : (noted RUL.BCNT.V.off).opens .pcie (rulReg RUL.BCNT.V (0 : RulerId).val) = true := by decide +kernel
  obtain ⟨t, hexec, hval, -⟩ := hstore (noted RUL.BCNT.V.off) .pcie 0 1 hopens (by decide +kernel)
  have hsame : t.f RUL.BCNT.V = _ :=
    f_of_outcome (busWrite_reach (noted RUL.BCNT.V.off) .pcie (rulReg RUL.BCNT.V (0 : RulerId).val) 1 (by decide +kernel)) hexec (by decide +kernel) (by decide +kernel)
  have hoff : ((noted RUL.BCNT.V.off).write .pcie (rulReg RUL.BCNT.V (0 : RulerId).val) 1).f RUL.BCNT.V = 0 := by decide +kernel
  exact absurd (hoff.symm.trans (hsame.symm.trans hval)) (by decide +kernel)

/-- Refutes O47, in its clause on TWN.CTL: where every bit of TWN.CTL is noted in this cycle, a write of EN = 1 in Configure
leaves it 0. -/
theorem not_pairing : ¬ Obligations.Pairing := by
  rintro ⟨hen, -⟩
  have hopens : (noted TWN.CTL.EN.off).opens .pcie (TWN.CTL.EN.off) = true := by decide +kernel
  obtain ⟨t, hexec, hon, -⟩ := (hen (noted TWN.CTL.EN.off) .pcie 1 hopens _ rfl).1 (by decide +kernel) (by decide +kernel)
    (by decide +kernel) (by decide +kernel) (by decide +kernel)
  have hsame : t.on TWN.CTL.EN = _ :=
    on_of_outcome (write_opens _ _ _ _ hopens) hexec (by decide +kernel) (by decide +kernel)
  have hoff : ((noted TWN.CTL.EN.off).twnCtl .pcie 1).on TWN.CTL.EN = false := by decide +kernel
  exact absurd (hoff.symm.trans (hsame.symm.trans hon)) (by decide +kernel)

end

section
open Sys2Proof Sys2Proof.Machine

-- In order: each proof evaluates in the kernel, which waits for the proofs before it.
set_option Elab.async false

/-- Refutes O19, in its clause on RUN: where every bit of DSP.CTL is noted in this cycle (R9), a write of RUN = 1 leaves RUN 0. -/
theorem not_dispatcherControl : ¬ Obligations.DispatcherControl := by
  rintro ⟨-, hrun, -⟩
  have hopens : (noted DSP.CTL.RUN.off [(DSP.CTL.RUN.off, 1)]).opens .pcie DSP.CTL.RUN.off = true := by decide +kernel
  obtain ⟨-, hset, -⟩ := hrun _ .pcie 1 hopens
  obtain ⟨t, hexec, hon, -⟩ := hset (by decide +kernel) (.inl (by decide +kernel))
  have hsame : t.on DSP.CTL.RUN = _ := on_of_outcome (busWrite_reach _ .pcie DSP.CTL.RUN.off 1 (by decide +kernel)) hexec
    (by decide +kernel) (by decide +kernel)
  have hoff : ((noted DSP.CTL.RUN.off [(DSP.CTL.RUN.off, 1)]).write .pcie DSP.CTL.RUN.off 1).on DSP.CTL.RUN = false := by
    decide +kernel
  exact absurd (hoff.symm.trans (hsame.symm.trans hon)) (by decide +kernel)

end

section
/-! PROOFS. A word of engine 0 that stores 1 to RUL.BCNT of unit 0, all of whose bits are noted in the cycle in which it executes. -/

namespace Sys2Proof.Machine

-- In order: each proof evaluates in the kernel, which waits for the proofs before it.
set_option Elab.async false

/-- RUL.BCNT of unit 0. -/
def bcntAt : Nat := rulReg RUL.BCNT.V (0 : RulerId).val

/-- The nanoword: access 6 at an absolute address, the data K32 = 1. -/
def bcntWord : Nat := 6 * 2 ^ 103 + bcntAt % 4096 * 2 ^ 87 + 0x1A * 2 ^ 82 + bcntAt / 4096 * 2 ^ 34 + 2 ^ 33 + 1

/-- The routine that executes it in raw cycle 2. -/
def bcntEngine : Engine := { st := .idle, routines := [(0, some { cls := .event, pc := 0, first := false })] }

def bcntNoted : State :=
  { noted bcntAt with
    raw := 2, seenNow := { eventsAt := 2, events := [(bcntAt, 0xFFFFFFFF)] }
    eng := (0, bcntEngine) :: (noted bcntAt).eng, stores := { nano := [(0, bcntWord)] } }

theorem bcntNoted_executes : bcntNoted.executes (0 : EngineId).val 0 0 0 bcntWord 2 := by
  refine ⟨⟨by decide +kernel, by decide +kernel, by decide +kernel, .inl (by decide +kernel), by decide +kernel,
    ⟨{ cls := .event, pc := 0, first := false }, by decide +kernel, rfl, by decide +kernel⟩, ?_⟩, ?_⟩
  · decide +kernel
  · decide +kernel

theorem execWordNext_alive (s : State) (e : EngineId) (h : s.mode.alive = true) :
    execWordNext e s = .next (settle (s.engWord e fun m _ => mSeq m = sqNext)) := done_if_pos _ _ _ h

end Sys2Proof.Machine
end

section
open Sys2Proof Sys2Proof.Machine

-- In order: each proof evaluates in the kernel, which waits for the proofs before it.
set_option Elab.async false

/-- Refutes O28, in its clause on a register write outside a section: where every bit of RUL.BCNT of unit 0 is noted in the cycle of
the word (R9), a write of 1 leaves it 0. -/
theorem not_wordsAccess : ¬ Obligations.WordsAccess := by
  intro h
  obtain ⟨-, hregs, -⟩ := h bcntNoted 0 0 0 0 bcntWord 2 bcntNoted_executes (by decide +kernel)
  obtain ⟨-, hwrite, -⟩ := hregs (by decide +kernel)
  obtain ⟨t, hexec, -, -, hgood, -⟩ := hwrite bcntAt 0 (by decide +kernel) (by decide +kernel) rfl (by decide +kernel)
  obtain ⟨hval, -⟩ := hgood (by decide +kernel)
  have hsame : t.ruF (0 : RulerId).val RUL.BCNT.V = _ := f_of_outcome (execWordNext_alive bcntNoted 0 (by decide +kernel)) hexec
    (by decide +kernel) (by decide +kernel)
  have hzero : (bcntNoted.engWord (0 : EngineId) fun m _ => mSeq m = sqNext).ruF (0 : RulerId).val RUL.BCNT.V = 0 := by
    decide +kernel
  exact absurd (hzero.symm.trans (hsame.symm.trans hval)) (by decide +kernel)

end

section
/-! PROOFS. A consist that is due at boundary 1 and stages 1 for RUL.BCNT of unit 0, all of whose bits are noted in the boundary's
cycle. -/

namespace Sys2Proof.Machine

/-- The staged value. -/
def bcntStaged : Staged := { addr := bcntAt, val := 1, role := .maker }

def boundaryNoted : State :=
  { noted bcntAt with
    seenNow := { eventsAt := 400, events := [(bcntAt, 0xFFFFFFFF)] }
    cons := [(0, { st := .closed, dep := some 1, passed := true, mode := Mode.configure.code, places := [bcntStaged] })] }

theorem execDepartureBoundary_alive (s : State) (h : s.mode.alive = true) :
    execDepartureBoundary s = .next (settle s.departureBoundary) := done_if_pos _ _ _ h

end Sys2Proof.Machine
end

section
open Sys2Proof Sys2Proof.Machine

-- In order: each proof evaluates in the kernel, which waits for the proofs before it.
set_option Elab.async false

/-- Refutes O20, in its clause on a consist that commits: where every bit of RUL.BCNT of unit 0 is noted in the boundary's cycle (R9),
a staged 1 leaves it 0. -/
theorem not_boundaryAndHousekeeping : ¬ Obligations.BoundaryAndHousekeeping := by
  rintro ⟨-, -, -, hcons, -⟩
  obtain ⟨-, hdue, -⟩ := hcons boundaryNoted _ 1 (by decide +kernel) (by decide +kernel) rfl
  obtain ⟨-, hcommit, -⟩ := hdue 0 [] _ (by decide +kernel) rfl rfl (by decide +kernel)
  obtain ⟨t, hexec, -, -, -, hval, -⟩ := hcommit bcntStaged 0 (by decide +kernel) (by decide +kernel) (by decide +kernel)
    (by decide +kernel) rfl (by decide +kernel)
  have hsame : t.ruF (0 : RulerId).val RUL.BCNT.V = _ :=
    f_of_outcome (execDepartureBoundary_alive boundaryNoted (by decide +kernel)) hexec (by decide +kernel) (by decide +kernel)
  have hzero : boundaryNoted.departureBoundary.ruF (0 : RulerId).val RUL.BCNT.V = 0 := by decide +kernel
  exact absurd (hzero.symm.trans (hsame.symm.trans hval)) (by decide +kernel)

end

section
open Sys2Proof Sys2Proof.Machine

-- In order: each proof evaluates in the kernel, which waits for the proofs before it.
set_option Elab.async false

/-- Refutes O26, in its clause on RESUME of an engine that is not faulted: where every bit of MEN.CTL of engine 0 is noted in this
cycle (R9), the write of RESUME beside the fields as they are clears EN. -/
theorem not_enginesBetweenWords : ¬ Obligations.EnginesBetweenWords := by
  rintro ⟨-, -, -, -, -, -, -, -, -, -, hresume, -⟩
  have hopens : (noted MEN.CTL.EN.off [(MEN.CTL.EN.off, 1)]).opens .pcie (menReg MEN.CTL.EN (0 : EngineId).val) = true := by
    decide +kernel
  obtain ⟨t, hexec, hen, -⟩ := hresume _ .pcie 0 hopens (by decide +kernel)
  have hsame : t.enOn (0 : EngineId).val MEN.CTL.EN = _ := on_of_outcome (write_opens _ _ _ _ hopens) hexec (by decide +kernel)
    (by decide +kernel)
  have hoff : ((noted MEN.CTL.EN.off [(MEN.CTL.EN.off, 1)]).menCtl .pcie (0 : EngineId).val
      ((noted MEN.CTL.EN.off [(MEN.CTL.EN.off, 1)]).reg (menReg MEN.CTL.EN (0 : EngineId).val) ||| 8)).enOn (0 : EngineId).val
      MEN.CTL.EN = false := by decide +kernel
  exact absurd (hoff.symm.trans (hsame.symm.trans hen)) (by decide +kernel)

end

section
/-! PROOFS. A consist whose owner is no requester's code: the error capture of its check (R310) has no room for it. -/

namespace Sys2Proof.Machine

/-- A staged value whose parity is bad. -/
def badStaged : Staged := { addr := bcntAt, val := 1, role := .maker, parity := false }

/-- A CLOSED consist of owner 0x1000, due at boundary 1. -/
def ownerBeyond : State :=
  { noted bcntAt with cons := [(0, { st := .closed, owner := 0x1000, dep := some 1, places := [badStaged] })] }

theorem execConsistCheck_alive (s : State) (h : s.mode.alive = true) : execConsistCheck s = .next (settle s.consistCheck) :=
  done_if_pos _ _ _ h

end Sys2Proof.Machine
end

section
open Sys2Proof Sys2Proof.Machine

-- In order: each proof evaluates in the kernel, which waits for the proofs before it.
set_option Elab.async false

/-- Refutes O43, in its clause on the error capture of a check that fails: the owner 0x1000 carries into VALID, which reads 0. -/
theorem not_consistLife : ¬ Obligations.ConsistLife := by
  rintro ⟨-, -, -, -, hcheck, -⟩
  obtain ⟨-, -, -, hone⟩ := hcheck ownerBeyond (by decide +kernel) (by decide +kernel) _ rfl _ rfl
  obtain ⟨-, hfails, hparity, -⟩ := hone 0 [] (by decide +kernel) rfl (by decide +kernel) _ _ rfl
  have hbad := hparity badStaged (by decide +kernel)
  obtain ⟨t, hexec, -, -, hcap⟩ := hfails _ hbad
  obtain ⟨hvalid, -⟩ := hcap _ rfl RUL.page RUL.page.base (by decide +kernel) (by decide +kernel)
  have hu := execConsistCheck_alive ownerBeyond (by decide +kernel)
  have hsame : t.reg (RUL.page.base + 0x1C) = _ :=
    reg_of_settle_eq (Host.Outcome.next.inj (hu.symm.trans hexec)) (by decide +kernel) (by decide +kernel)
  have hzero : bitsAt (ownerBeyond.consistCheck.reg (RUL.page.base + 0x1C)).toNat 31 1 = 0 := by decide +kernel
  rw [hsame] at hvalid
  exact absurd (hzero.symm.trans hvalid) (by decide)

end

section
/-! PROOFS. An entry in a slot beyond the timetable, refused by a track that is being aborted: LASTEVT has no room for its index. -/

namespace Sys2Proof.Machine

/-- Slot 2 ^ 28 holds an entry that sets track 0, whose page is being aborted, at vehicle time 10000. -/
def slotBeyond : State :=
  { noted bcntAt [(TRK.page.base + trkAt 0 + 0x24, 2)] with
    mode := .factory, slots := [(2 ^ 28, { bits := 2 ^ 116 + 10000, st := .queued, place := .imm, start := 10000 })] }

theorem execDispatchMove_next (s : State) : execDispatchMove s = .next (settle s.dispatch) := rfl

end Sys2Proof.Machine
end

section
open Sys2Proof Sys2Proof.Machine

-- In order: each proof evaluates in the kernel, which waits for the proofs before it.
set_option Elab.async false

/-- Refutes O18, in its clause on a refused move: the slot number 2 ^ 28 carries into LASTEVT.OUTCOME. -/
theorem not_entriesMoveAndRetire : ¬ Obligations.EntriesMoveAndRetire := by
  rintro ⟨hmove, -⟩
  obtain ⟨-, -, hrefused, -⟩ := hmove slotBeyond _ rfl (by decide +kernel) (by decide +kernel) (by decide +kernel)
    (by decide +kernel) (2 ^ 28) (by decide +kernel) (by decide +kernel) _ rfl
  obtain ⟨t, hexec, -, -, -, -, -, hout⟩ := hrefused (by decide +kernel) (by decide +kernel) (by decide +kernel)
  have hsame : t.f DSP.LASTEVT.OUTCOME = _ :=
    f_of_outcome (execDispatchMove_next slotBeyond) hexec (by decide +kernel) (by decide +kernel)
  have hother : slotBeyond.dispatch.f DSP.LASTEVT.OUTCOME = 6 := by decide +kernel
  exact absurd (hother.symm.trans (hsame.symm.trans hout)) (by decide)

end

section
/-! PROOFS. What the stores do after a command (R275, R266, R346, R292, R300, R85), for all that they leave alone: the state but for
its registers, memories, streams, pins and the fault codes waiting for a reaction; and the bits noted in this cycle (R9) of every
register that they do not set. -/

namespace Sys2Proof.Machine

variable (s : State)

/-- What the stores leave alone after a command. -/
def State.core : State × (Nat → Word) :=
  ({ s with regs := [], mem := {}, hst := {}, adc := {}, shn := [], twn := {}, lines := []
            seenNow := { s.seenNow with eventsAt := 0, events := [] }, pwr := { s.pwr with faults := [] } },
   fun a => if a ∈ storeRegs then 0 else s.events a)

theorem State.foldl_core {α : Type} {f : State → α → State} (h : ∀ t a, (f t a).core = t.core) (l : List α) :
    (l.foldl f s).core = s.core := by
  induction l generalizing s with
  | nil => rfl
  | cons a l ih => rw [List.foldl_cons, ih, h]

theorem State.setReg_core (a : Nat) (v : Word) : (s.setReg a v).core = s.core := rfl

theorem State.setF_core (g : Fld) (v i : Nat) : (s.setF g v i).core = s.core := rfl

theorem State.bump_core (g : Fld) (n i : Nat) : (s.bump g n i).core = s.core := rfl

theorem Seen.noted_other (w : Seen) (c m : Nat) {a b : Nat} (h : b ≠ a) :
    SMap.get (fun _ => 0) (w.noted c a m).events b = if w.eventsAt = c then SMap.get (fun _ => 0) w.events b else 0 := by
  unfold Seen.noted
  dsimp only
  rw [SMap.get_put_ne _ _ _ _ _ h]
  split <;> rfl

theorem State.events_set1_other (g : Fld) (i : Nat) {b : Nat} (h : b ≠ g.off + i) : (s.set1 g i).events b = s.events b := by
  have hraw : (s.set1 g i).raw = s.raw := rfl
  unfold State.events
  rw [hraw]
  unfold State.set1
  dsimp only
  split
  · rw [Seen.noted_other _ _ _ h]
    exact if_pos rfl
  · rfl

theorem State.set1_core {g : Fld} (h : g.off ∈ storeRegs) : (s.set1 g).core = s.core := by
  have hevents : (fun a => if a ∈ storeRegs then 0 else (s.set1 g).events a) = fun a => if a ∈ storeRegs then 0 else s.events a := by
    funext a
    by_cases ha : a ∈ storeRegs
    · rw [if_pos ha, if_pos ha]
    · rw [if_neg ha, if_neg ha, s.events_set1_other g 0 fun hag : a = g.off + 0 => ha (by rw [hag]; exact h)]
  have hseen : ({ (s.set1 g).seenNow with eventsAt := 0, events := [] } : Seen) = { s.seenNow with eventsAt := 0, events := [] } := by
    unfold State.set1
    dsimp only
    split <;> rfl
  unfold State.core
  rw [hevents, hseen]
  rfl

@[simp] theorem State.fault_core (c : Nat) : (s.fault c).core = s.core := rfl

/-! ### The stores and the order of access -/

@[simp] theorem State.withMem_core (x : Mem) : ({ s with mem := x } : State).core = s.core := rfl
@[simp] theorem State.withHst_core (x : Hst) : ({ s with hst := x } : State).core = s.core := rfl
@[simp] theorem State.withTwn_core (x : Twn) : ({ s with twn := x } : State).core = s.core := rfl
@[simp] theorem State.putHome_core (i : Nat) (v : Word) : (s.putHome i v).core = s.core := rfl
@[simp] theorem State.putRelief_core (i : Nat) (v : Word) : (s.putRelief i v).core = s.core := rfl
@[simp] theorem State.setEcc_core (k i e : Nat) : (s.setEcc k i e).core = s.core := rfl
@[simp] theorem State.useBank_core (d n : Nat) : (s.useBank d n).core = s.core := rfl
@[simp] theorem State.touch_core (k : Nat) : (s.touch k).core = s.core := rfl

@[simp] theorem State.noteWait_core (n : Nat) : (s.noteWait n).core = s.core :=
  s.setF_core _ _ _

@[simp] theorem State.checked_core (k i : Nat) : (s.checked k i).core = s.core := by
  have hcount (t : State) : ((t.bump MEM.ECCCNT.UNCORR).set1 MEM.IRQ_RAW.UNCORR).core = t.core := by
    rw [State.set1_core _ (by decide), State.bump_core]
  have hcap (t : State) (b : Bool) (v : Word) : (if b then t else t.setReg MEM.UECAP.VALID.off v).core = t.core := by
    split
    · rfl
    · exact t.setReg_core _ _
  unfold State.checked
  dsimp only
  split
  · rfl
  · split
    · split <;> rfl
    · rw [State.fault_core, hcap, hcount]

@[simp] theorem State.copyFlush_core : s.copyFlush.core = s.core := by
  unfold State.copyFlush
  split
  · rfl
  · dsimp only; split <;> rfl

@[simp] theorem State.copyTick_core : s.copyTick.core = s.core := by
  simp [State.copyTick, apply_ite State.core]

@[simp] theorem State.copyStep_core (c : Nat) : (s.copyStep c).core = s.core := by
  unfold State.copyStep
  dsimp only
  split
  · exact s.copyFlush_core
  · rw [State.withMem_core, State.checked_core, State.copyFlush_core]

@[simp] theorem State.copyMeets_core (d c : Nat) (m : Bool) : (s.copyMeets d c m).core = s.core := by
  simp [State.copyMeets, apply_ite State.core]

@[simp] theorem State.passCopy_core (d : Nat) (w : Wait) : (s.passCopy d w).core = s.core := by
  simp [State.passCopy, apply_ite State.core]

@[simp] theorem State.noteGrant_core (d : Nat) (w : Wait) : (s.noteGrant d w).core = s.core := by
  simp [State.noteGrant, apply_ite State.core]

@[simp] theorem State.logWrite_core (i : Nat) (v : Word) : (s.logWrite i v).core = s.core := by
  unfold State.logWrite
  extract_lets d m emptied
  have hboth (t : State) (h : t.core = s.core) : (if m.bgtPhase = 1 then t.putRelief (i % 32768) v
      else (t.putHome i v).putRelief (i % 32768) v).core = s.core := by
    split
    · exact h
    · exact h
  split
  · rfl
  · split
    · refine hboth _ ?_
      dsimp only [emptied]
      split
      · split <;> rfl
      · rfl
    · rfl

@[simp] theorem State.logRead_core (i : Nat) : (s.logRead i).core = s.core := s.checked_core _ _

theorem State.serve_dma_core (w : Wait) (tag : Nat) (h : w.kind = .dma tag) : (s.serve w).core = s.core := by
  obtain ⟨sid, idx, req, kind, since⟩ := w
  cases h
  unfold State.serve
  dsimp only
  rw [State.withMem_core, State.noteWait_core]

theorem State.give_dma_core (d : Nat) (w : Wait) (tag : Nat) (h : w.kind = .dma tag) :
    (s.give d w).core = s.core := by
  simp [State.give, State.serve_dma_core _ w tag h]

@[simp] theorem State.dmaLone_core (d : Nat) (w : Wait) (g : Nat) : (s.dmaLone d w g).1.core = s.core := by
  unfold State.dmaLone
  simp [apply_ite State.core, apply_ite Prod.fst]

@[simp] theorem State.dmaWord_core (d tag since : Nat) : (s.dmaWord d tag since).1.core = s.core := by
  have hgive := s.give_dma_core d _ tag (dmaWait_kind s.mem.waits d tag since)
  unfold State.dmaWord
  simp [apply_ite State.core, apply_ite Prod.fst, hgive]

/-! ### The writers and the open slots -/

@[simp] theorem State.setWriter_core (n : Nat) (w : Option Writer) : (s.setWriter n w).core = s.core := by
  unfold State.setWriter; split <;> rfl

@[simp] theorem State.ringAdvance_core (n : Nat) : (s.ringAdvance n).core = s.core := by
  unfold State.ringAdvance; split <;> rfl

theorem State.dmaWord_core_of {d tag since : Nat} {t : State} {g : Option Nat} (h : s.dmaWord d tag since = (t, g)) :
    t.core = s.core := by
  rw [← s.dmaWord_core d tag since, h]

@[simp] theorem State.writeOn_core (n k : Nat) : (s.writeOn n k).core = s.core := by
  induction k generalizing s with
  | zero => rfl
  | succ k ih =>
    unfold State.writeOn
    split
    · rfl
    · dsimp only
      split
      next hg => exact s.dmaWord_core_of hg
      next hg => simp [apply_ite State.core, ih, s.dmaWord_core_of hg]

@[simp] theorem State.queueOn_core (k : Nat) : (s.queueOn k).core = s.core := by
  induction k generalizing s with
  | zero => rfl
  | succ k ih =>
    unfold State.queueOn
    split
    · rfl
    · split
      next hg => exact s.dmaWord_core_of hg
      next hg => simp [ih, s.dmaWord_core_of hg]

@[simp] theorem State.writeAll_core : s.writeAll.core = s.core := by simp [State.writeAll]

@[simp] theorem State.setHstream_core (n : Nat) (x : Stream) : (s.setHstream n x).core = s.core := rfl
@[simp] theorem State.readIdle_core (n : Nat) : (s.readIdle n).core = s.core := rfl
@[simp] theorem State.partTaken_core (n : Nat) : (s.partTaken n).1.core = s.core := rfl
@[simp] theorem State.setWin_core (n : Nat) (x : Window) : (s.setWin n x).core = s.core := rfl
@[simp] theorem State.withAdc_core (x : Adc) : ({ s with adc := x } : State).core = s.core := rfl
@[simp] theorem State.setShunter_core (n : Nat) (x : Shunter) : (s.setShunter n x).core = s.core := rfl

@[simp] theorem State.readPart_core (n : Nat) (is : List Nat) : (s.readPart n is).1.core = s.core := by
  induction is generalizing s with
  | nil => rfl
  | cons i is ih =>
    unfold State.readPart
    dsimp only
    split
    next hg => exact s.dmaWord_core_of hg
    next hg => simp [ih, s.dmaWord_core_of hg]

theorem State.readPart_core_of {n : Nat} {is : List Nat} {t : State} {b : Bool} (h : s.readPart n is = (t, b)) :
    t.core = s.core := by
  rw [← s.readPart_core n is, h]

@[simp] theorem State.storeBytes_core (k : Nat) (is : List Nat) (m : SMap Word) :
    (s.storeBytes k is m).1.core = s.core :=
  (s.touch k).foldl_core (fun t i => t.checked_core k i) is

theorem State.storeBytes_core_of {k : Nat} {is : List Nat} {m : SMap Word} {t : State} {b : List Byte}
    (h : s.storeBytes k is m = (t, b)) : t.core = s.core := by
  rw [← s.storeBytes_core k is m, h]

theorem State.takeUnit_core (n shn room : Nat) : (s.takeUnit n shn room).1.core = s.core := by
  unfold State.takeUnit
  split
  · extract_lets p
    split
    · rfl
    · split
      next hr => exact s.readPart_core_of hr
      next hr => simp [s.readPart_core_of hr]
  · split
    · split
      · rfl
      · split
        extract_lets y
        split
        next hb => simp [s.storeBytes_core_of hb]
    · split
      · extract_lets x
        split
        · rfl
        · split
          next hr => exact s.readPart_core_of hr
          next hr => simp [s.readPart_core_of hr]
      · split
        · extract_lets n
          split
          · rfl
          · split
            next hb => simp [s.storeBytes_core_of hb]
        · split
          · split
            next hb => simp [s.storeBytes_core_of hb]
          · rfl

@[simp] theorem State.fillSlot_core (n k : Nat) : (s.fillSlot n k).core = s.core := by
  induction k generalizing s with
  | zero => rfl
  | succ k ih =>
    unfold State.fillSlot
    dsimp only
    split
    · rfl
    next p _ =>
      have htake {t : State} {o} (h : s.takeUnit n p.shn (p.size - 16 - p.payload.length) = (t, o)) : t.core = s.core := by
        rw [← s.takeUnit_core n p.shn (p.size - 16 - p.payload.length), h]
      split
      · rfl
      · split
        · simp [ih]
        · split
          next hu => exact htake hu
          next hu => simp [ih, htake hu]

@[simp] theorem State.fillAll_core : s.fillAll.core = s.core := by
  unfold State.fillAll
  split
  · exact s.foldl_core (fun t n => by simp [apply_ite State.core]) _
  · rfl

@[simp] theorem State.message_core (v : Nat) : (s.message v).core = s.core := by
  simp [State.message, apply_ite State.core]

@[simp] theorem State.notify_core : s.notify.core = s.core := by
  unfold State.notify
  dsimp only
  split
  · rfl
  · exact s.foldl_core (fun t v => t.message_core v) _

@[simp] theorem State.keepAll_core : s.keepAll.core = s.core := rfl


theorem State.stores_core : s.copyTick.writeAll.fillAll.notify.keepAll.core = s.core := by simp

end Sys2Proof.Machine
end

section
/-! PROOFS. What settling keeps of every state in which an event is pending at engine 7 afterwards, so that no fault reaction has acted:
all but the registers, the memories, the streams, the pins, the power books, the timebase, the tracks and the mode; and the bits noted
in this cycle of a register that settling does not set. -/

namespace Sys2Proof.Machine

variable (s : State)

/-- What settling leaves alone unless a fault reaction acts, for the noted bits of the register at `a`. -/
def State.calmPart (a : Nat) : State × Word :=
  ({ s with regs := [], mem := {}, hst := {}, adc := {}, shn := [], twn := {}, lines := [], tbu := {}, trk := [], mode := .boot, pwr := {}
            seenNow := { s.seenNow with eventsAt := 0, events := [] } }, s.events a)

/-- State `t` has the calm part of `s`, or no event is pending at its engine 7. -/
def State.CalmStays (a : Nat) (s t : State) : Prop := (t.engine 7).evs = [] ∨ (t.calmPart a = s.calmPart a ∧ t.eng = s.eng)

theorem State.calmPart_of_core {s t : State} {a : Nat} (h : t.core = s.core) (ha : a ∉ storeRegs) : t.calmPart a = s.calmPart a := by
  have hstate := congrArg Prod.fst h
  have hbits : (if a ∈ storeRegs then 0 else t.events a) = if a ∈ storeRegs then 0 else s.events a := congrFun (congrArg Prod.snd h) a
  rw [if_neg ha, if_neg ha] at hbits
  have hrest : (t.calmPart a).1 = (s.calmPart a).1 :=
    congrArg (fun u : State => ({ u with tbu := {}, trk := [], mode := .boot, pwr := {} } : State)) hstate
  exact Prod.ext hrest hbits

variable {s} in
theorem State.CalmStays.trans {a : Nat} {t u : State} (h : State.CalmStays a s t) (k : State.CalmStays a t u) :
    State.CalmStays a s u := by
  rcases k with k | ⟨hpart, heng⟩
  · exact .inl k
  · rcases h with h | ⟨hpart', heng'⟩
    · exact .inl (by rw [State.engine_congr heng, h])
    · exact .inr ⟨hpart.trans hpart', heng.trans heng'⟩

theorem State.act_calmStays (a : Nat) (x : Pwr) (p : Nat × Nat) (c : Nat) :
    State.CalmStays a s (({ s with pwr := x } : State).act p c) := by
  unfold State.act
  split
  · left
    rw [State.warmRestart, State.engine, State.toBoot_eng]
    rfl
  · by_cases h : s.mode = .safe
    · right
      rw [State.enterSafe, if_pos h]
      exact ⟨rfl, rfl⟩
    · exact .inl (State.enterSafe_evs _ _ _ h)

theorem State.react_calmStays (a : Nat) : State.CalmStays a s s.react := by
  have hpwr (x : Pwr) : State.CalmStays a s ({ s with pwr := x } : State) := .inr ⟨rfl, rfl⟩
  unfold State.react
  split
  · exact .inr ⟨rfl, rfl⟩
  · dsimp only
    split
    · exact hpwr _
    · split
      · exact hpwr _
      · split
        · exact hpwr _
        · split
          · exact hpwr _
          · exact s.act_calmStays a _ _ _

theorem State.actHeld_calmStays (a : Nat) : State.CalmStays a s s.actHeld := by
  unfold State.actHeld
  split
  · exact .inr ⟨rfl, rfl⟩
  · split
    · exact s.act_calmStays a _ _ _
    · exact .inr ⟨rfl, rfl⟩

theorem State.undoCmd_calmPart (a : Nat) : s.undoCmd.calmPart a = s.calmPart a := by
  unfold State.undoCmd
  split
  · rfl
  · split <;> rfl

theorem State.calmPart_set1 (g : Fld) {a : Nat} (h : a ≠ g.off) : (s.set1 g).calmPart a = s.calmPart a := by
  have hbits := s.events_set1_other g 0 h
  have hseen : ({ (s.set1 g).seenNow with eventsAt := 0, events := [] } : Seen) = { s.seenNow with eventsAt := 0, events := [] } := by
    unfold State.set1
    dsimp only
    split <;> rfl
  unfold State.calmPart
  rw [hbits, hseen]
  rfl

theorem State.ppsHalt_calmPart (a : Nat) : s.ppsHalt.calmPart a = s.calmPart a := by
  unfold State.ppsHalt; dsimp only; split <;> rfl

theorem State.toMode_running_calmPart {m : Mode} (hs : s.mode.running = true) (hm : m.running = true) {a : Nat}
    (ha : a ≠ PWR.IRQ_RAW.MODE_CHG.off) : (s.toMode m).calmPart a = s.calmPart a := by
  let part (t : State) : State × Word := t.calmPart a
  have htbu (t : State) (x : Tbu) : part { t with tbu := x } = part t := rfl
  have hpwr (t : State) (x : Pwr) : part { t with pwr := x } = part t := rfl
  have hchg : part (({ s with mode := m } : State).set1 PWR.IRQ_RAW.MODE_CHG) = part s := State.calmPart_set1 _ _ ha
  have hold : s.mode = .run ∨ s.mode = .holdover := by revert hs; cases s.mode <;> decide
  have hnew : m = .run ∨ m = .holdover := by revert hm; cases m <;> decide
  have hpps (t : State) : part (if m = .holdover then t.ppsHalt else t) = part t := by
    rw [apply_ite part, show part t.ppsHalt = part t from t.ppsHalt_calmPart a, ite_self]
  change part (s.toMode m) = part s
  unfold State.toMode
  split
  · rfl
  · extract_lets old entered missed kept kicked left started since held counting halted resumed deaf
    have hmissed : missed = entered := by rcases hold with hold | hold <;> simp [missed, old, hold]
    have hstarted : started = kicked := by rcases hold with hold | hold <;> simp [started, left, old, hold]
    have hdeaf : deaf = halted := by
      rcases hold with hold | hold <;> rcases hnew with rfl | rfl <;> simp [deaf, resumed, old, hold]
    calc part (if m = .halt then deaf.enterHalt else deaf) = part halted := by
          rcases hnew with rfl | rfl <;> simp [hdeaf]
      _ = part counting := hpps counting
      _ = part started := by simp only [counting, apply_ite part, htbu, ite_self]
      _ = part entered := by simp only [hstarted, kicked, hmissed, apply_ite part, hpwr, ite_self]
      _ = part s := hchg

theorem State.autoMode_calmStays {a : Nat} (ha : a ≠ PWR.IRQ_RAW.MODE_CHG.off) : State.CalmStays a s s.autoMode := by
  refine .inr ⟨?_, congrArg Prod.snd s.autoMode_faultBook⟩
  rw [State.autoMode, State.autoMove]
  split
  next hr => rw [State.toMode_running_calmPart _ hr (State.runMode_running _) ha, s.undoCmd_calmPart]
  next => exact s.undoCmd_calmPart a

theorem settle_calmStays {a : Nat} (h : a ∉ settleRegs) : State.CalmStays a s (settle s) := by
  simp only [settleRegs, List.mem_cons, not_or] at h
  obtain ⟨-, hmode, hstores⟩ := h
  have hafter (t : State) : State.CalmStays a t t.copyTick.writeAll.fillAll.notify.keepAll :=
    .inr ⟨State.calmPart_of_core t.stores_core hstores, congrArg (fun u => u.1.eng) t.stores_core⟩
  exact ((s.react_calmStays a).trans (State.autoMode_calmStays _ hmode)).trans ((State.actHeld_calmStays _ a).trans (hafter _))

/-- One outcome, two states that settle to it, an event pending at engine 7: they have the same calm part. -/
theorem calmPart_of_outcome {o : Out} {u t : State} {a : Nat} (hu : o = .next (settle u)) (ht : o = .next (settle t))
    (hevs : ((settle u).engine 7).evs ≠ []) (ha : a ∉ settleRegs) : t.calmPart a = u.calmPart a := by
  have heq : settle u = settle t := Host.Outcome.next.inj (hu.symm.trans ht)
  rcases settle_calmStays u ha with hlost | ⟨hpart, -⟩
  · exact absurd hlost hevs
  · rcases settle_calmStays t ha with hlost | ⟨hpart', -⟩
    · rw [heq] at hevs
      exact absurd hlost hevs
    · rw [← hpart', ← heq, hpart]

theorem raw_of_outcome {o : Out} {u t : State} (hu : o = .next (settle u)) (ht : o = .next (settle t))
    (hevs : ((settle u).engine 7).evs ≠ []) : t.raw = u.raw :=
  congrArg (fun p => p.1.raw) (calmPart_of_outcome (a := 0) hu ht hevs (by decide))

theorem glb_of_outcome {o : Out} {u t : State} (hu : o = .next (settle u)) (ht : o = .next (settle t))
    (hevs : ((settle u).engine 7).evs ≠ []) : t.glb = u.glb :=
  congrArg (fun p => p.1.glb) (calmPart_of_outcome (a := 0) hu ht hevs (by decide))

theorem events_of_outcome {o : Out} {u t : State} {a : Nat} (hu : o = .next (settle u)) (ht : o = .next (settle t))
    (hevs : ((settle u).engine 7).evs ≠ []) (ha : a ∉ settleRegs) : t.events a = u.events a :=
  congrArg Prod.snd (calmPart_of_outcome hu ht hevs ha)

end Sys2Proof.Machine
end

section
/-! PROOFS. States refuting statements by the clock, by the roll call and by the bits noted in the cycle. -/

namespace Sys2Proof.Machine

/-- Turntable 0 enabled with its index line, whose edges are no marks. -/
def indexed : State :=
  noted bcntAt [(TTN.CTL.EN.off, word (2 ^ TTN.CTL.EN.lo)), (TTN.INSEL.IDX_EN.off, word (2 ^ TTN.INSEL.IDX_EN.lo)),
    (TTN.INCFG.SYNCSRC.off, word (2 ^ TTN.INCFG.SYNCSRC.lo))]

/-- A train of track 0 between two pulses, and a stop that has come. -/
def trainStopped : State :=
  { noted bcntAt with
    seenNow := {}, trk := [(0, { stop := some (0, .direct), train := some { next := 640, left := none, width := 128, per := 640 } })] }

theorem execIndexEdge_idle (s : State) (n : TurnId) (cyc : Nat) (code : Fin 128) (h : s.ttActive n.val = true)
    (hi : s.ttOn n.val TTN.INSEL.IDX_EN = true) (hsync : ((((s.advance cyc).hit (vernIndex n.val) code.val cyc).linkTooth (0x48 + n.val)
      ((s.advance cyc).edgeU (vernIndex n.val) cyc code.val)).ttF n.val TTN.INCFG.SYNCSRC ≠ 0)) :
    execIndexEdge n cyc code s = .next (settle (((s.advance cyc).hit (vernIndex n.val) code.val cyc).linkTooth (0x48 + n.val)
      ((s.advance cyc).edgeU (vernIndex n.val) cyc code.val))) := by
  unfold execIndexEdge
  rw [if_pos (by rw [h, hi]; rfl)]
  dsimp only
  rw [if_neg hsync]
  rfl

theorem execStopMatch_next (s : State) (t : TrackId) : execStopMatch t s = .next (settle (s.stopMatch t.val)) := rfl

end Sys2Proof.Machine
end

section
open Sys2Proof Sys2Proof.Machine

-- In order: each proof evaluates in the kernel, which waits for the proofs before it.
set_option Elab.async false

/-- Refutes O21, in its clause on an index edge that is no mark: code 127 of a vernier without a table stands for an instant in the
cycle after (R57), which the clock does not reach. -/
theorem not_turntableInputsAndReads : ¬ Obligations.TurntableInputsAndReads := by
  rintro ⟨-, -, hindex, -⟩
  obtain ⟨t, ks, hexec, -, -, -, -, hraw, -⟩ := hindex indexed 0 0 127 (by decide +kernel) (by decide +kernel)
  have hu := execIndexEdge_idle indexed 0 0 127 (by decide +kernel) (by decide +kernel) (by decide +kernel)
  have hsame : t.raw = _ := raw_of_outcome hu hexec (by decide +kernel)
  have hzero : (((indexed.advance 0).hit (vernIndex (0 : TurnId).val) (127 : Fin 128).val 0).linkTooth (0x48 + (0 : TurnId).val)
      ((indexed.advance 0).edgeU (vernIndex (0 : TurnId).val) 0 (127 : Fin 128).val)).raw = 0 := by decide +kernel
  exact absurd (hzero.symm.trans (hsame.symm.trans hraw)) (by decide +kernel)

/-- Refutes O14, in its clause on the stop of an output track: the end of a train between two pulses notes DONE in this cycle (R9),
which the statement's frame leaves out. -/
theorem not_trackActs : ¬ Obligations.TrackActs := by
  rintro ⟨-, -, -, -, -, -, hstop, -⟩
  obtain ⟨t, hexec, -, -, -, -, -, -, -, -, -, -, hframe⟩ :=
    hstop trainStopped 0 0 .direct (by decide +kernel) (by decide +kernel) (by decide +kernel)
  have hseen : t.seenNow = {} := congrArg State.seenNow hframe
  have hnone : t.events TRK.IRQ_RAW.DONE.off = 0 := by
    rw [State.events, hseen]
    exact ite_self _
  have hsame : t.events TRK.IRQ_RAW.DONE.off = _ :=
    events_of_outcome (execStopMatch_next trainStopped 0) hexec (by decide +kernel) (by decide +kernel)
  exact absurd (hsame.symm.trans hnone) (by decide +kernel)

/-- Refutes O44, in its clause on the request of a roll call: where every bit of GLB.ROLLCALL is noted in this cycle (R9), DEST = 1
is not stored, and the roll call goes to the interchange bank. -/
theorem not_abortsAndRollCalls : ¬ Obligations.AbortsAndRollCalls := by
  rintro ⟨-, -, -, -, -, -, -, -, -, hcall, -⟩
  have hopens : (noted GLB.ROLLCALL.GO.off).opens .pcie GLB.ROLLCALL.GO.off = true := by decide +kernel
  obtain ⟨hgo, -⟩ := hcall (noted GLB.ROLLCALL.GO.off) .pcie 0xC0000000 hopens
  obtain ⟨t, hexec, hrc, -⟩ := hgo rfl (by decide +kernel)
  have hsame : t.glb = _ := glb_of_outcome (write_opens _ _ _ _ hopens) hexec (by decide +kernel)
  rw [hsame] at hrc
  exact absurd hrc (by decide +kernel)

end

section
/-! PROOFS. A track that follows an output of a ruling unit by less than LINKDLY's least value. -/

namespace Sys2Proof.Machine

/-- The rise that unit 0 is about to place. -/
def followedRise : RuEdge := { time := 0, up := true }

/-- Unit 0 before that rise, and track 0, which follows it with LINKDLY = 0. -/
def followedRuler : State :=
  { noted bcntAt [(TRK.LINKDLY.V.off, 0)] with
    seenNow := {}, rul := [(0, { st := .running, hi := { edges := [followedRise] } })], trk := [(0, { following := true })] }

theorem forall_eq_some_of_eq_none {α : Type} {o : Option α} {p : α → Prop} (h : o = none) : ∀ a, o = some a → p a :=
  fun _ ha => nomatch h.symm.trans ha

theorem forall_eq_cons_of_eq_nil {α : Type} {l : List α} {p : α → List α → Prop} (h : l = []) : ∀ a as, l = a :: as → p a as :=
  fun _ _ ha => nomatch h.symm.trans ha

theorem execRuOutputEdge_next (s : State) (u : RulerId) (hi : Bool) :
    execRuOutputEdge u hi s = .next (settle (s.ruEdge u.val hi)) := rfl

end Sys2Proof.Machine
end

section
open Sys2Proof Sys2Proof.Machine

-- In order: each proof evaluates in the kernel, which waits for the proofs before it.
set_option Elab.async false

/-- Refutes O32, in its clause on a rise that is placed: a LINKED track that follows the output with a LINKDLY below its least value
notes CLAMP in this cycle (R76, R9), which the statement's frame leaves out. -/
theorem not_rulerPeriodsAndEdges : ¬ Obligations.RulerPeriodsAndEdges := by
  rintro ⟨-, -, houtput, -⟩
  obtain ⟨-, -, hrise, -⟩ := houtput followedRuler 0 true _ rfl followedRise [] (by decide +kernel) (by decide +kernel)
    (forall_eq_cons_of_eq_nil (by decide +kernel)) _ rfl
  obtain ⟨hplaced, -⟩ := hrise rfl (by decide +kernel) (by decide +kernel) (forall_eq_some_of_eq_none (by decide +kernel))
  obtain ⟨t, hexec, -, -, -, -, -, -, -, hframe⟩ := hplaced (forall_eq_some_of_eq_none (by decide +kernel))
  have hseen : t.seenNow = {} := congrArg State.seenNow hframe
  have hnone : t.events TRK.IRQ_RAW.CLAMP.off = 0 := by
    rw [State.events, hseen]
    exact ite_self _
  have hsame : t.events TRK.IRQ_RAW.CLAMP.off = _ :=
    events_of_outcome (execRuOutputEdge_next followedRuler 0 true) hexec (by decide +kernel) (by decide +kernel)
  exact absurd (hsame.symm.trans hnone) (by decide +kernel)

end

section
/-! PROOFS. A sample whose step finds a raw code at the rail. -/

namespace Sys2Proof.Machine

/-- A step of one unfiltered sample, which is about to be made. -/
def railStep : StepRun :=
  { k := 0, first := 0, dec := 1, len := 1, settle := 0, filt := 0, chan := none, win := none, input := 0, gain := 0, g := 0, sub := 0, late := false
    trig := false, tag := 0, epoch := 0, seq := 0 }

/-- The one sequence of converter A, in that step. -/
def railRun : SeqRun :=
  { first := 0, count := 1, start := 0, step := some railStep, tag := 0, trig := false, late := false, num := 0 }

/-- Converter A enabled, with the code 2047 at instant 0. -/
def railSampled : State :=
  { noted bcntAt [(ADC.CTL.EN_A.off, word (2 ^ ADC.CTL.EN_A.lo))] with
    seenNow := {}, adc := { seqs := [(0, { run := some railRun })], streams := [(0, { idx := 1, raws := [2047] })] } }

theorem execAdcSample_ready (s : State) (b : Bool) (code : BitVec 12)
    (h : (s.mode.alive && s.sqReady (if s.on ADC.CTL.PAIR then 2 else if b then 1 else 0)) = true) :
    execAdcSample b code s = .next (settle (s.adcSample (if s.on ADC.CTL.PAIR then 2 else if b then 1 else 0) code.toInt)) := by
  unfold execAdcSample
  dsimp only
  rw [if_pos h]
  rfl

end Sys2Proof.Machine
end

section
open Sys2Proof Sys2Proof.Machine

-- In order: each proof evaluates in the kernel, which waits for the proofs before it.
set_option Elab.async false

/-- Refutes O34, in its clause on a sample of a sequencer at work: a sample that the step makes from a code at the rail notes OVR in
this cycle (R219, R9), which the statement's frame leaves out. -/
theorem not_adcSequences : ¬ Obligations.AdcSequences := by
  rintro ⟨hsample, -⟩
  obtain ⟨-, hwork, -⟩ := hsample railSampled false 0 _ rfl
  obtain ⟨t, -, hexec, -, -, -, -, -, -, -, -, hframe⟩ := hwork (by decide +kernel) (by decide +kernel) (.inl (by decide +kernel))
  have hseen : t.seenNow = {} := congrArg State.seenNow hframe
  have hnone : t.events ADC.IRQ_RAW.OVR.off = 0 := by
    rw [State.events, hseen]
    exact ite_self _
  have hsame : t.events ADC.IRQ_RAW.OVR.off = _ :=
    events_of_outcome (execAdcSample_ready railSampled false 0 (by decide +kernel)) hexec (by decide +kernel) (by decide +kernel)
  exact absurd (hsame.symm.trans hnone) (by decide +kernel)

end

section
/-! PROOFS. In a mode in which no reaction acts, with no word of a writer, a queue or a slot on its way, settling notes nothing: a read of TX DMA that finds a
word without good check bits shows in the events of the cycle. -/

namespace Sys2Proof.Machine

variable (s : State)

/-- Outside the modes in which a reaction to a coded fault acts or waits (R384), and those that follow the servo (R40). -/
def Mode.inert (m : Mode) : Bool := !m.powered || m = .boot || m = .provision

variable {s} in
theorem Mode.inert_cases (h : s.mode.inert = true) : s.mode.running = false ∧ s.mode ≠ .configure := by
  constructor <;> revert h <;> cases s.mode <;> decide

theorem State.react_of_inert (h : s.mode.inert = true) : ∃ x : Pwr, s.react = { s with pwr := x } := by
  simp only [Mode.inert, Bool.or_eq_true, Bool.not_eq_true', decide_eq_true_eq, or_assoc] at h
  unfold State.react
  split
  · exact ⟨s.pwr, rfl⟩
  · dsimp only
    split
    · exact ⟨_, rfl⟩
    · rw [if_pos (by simpa using h)]
      exact ⟨_, rfl⟩

theorem State.autoMode_of_inert (h : s.mode.inert = true) : s.autoMode = s := by
  obtain ⟨hrun, hconf⟩ := Mode.inert_cases h
  have hundo : s.undoCmd = s := by
    unfold State.undoCmd
    split
    · rfl
    · exact if_neg (by simp [hconf])
  rw [State.autoMode, hundo, State.autoMove, if_neg (by rw [hrun]; decide)]

theorem State.actHeld_of_inert (h : s.mode.inert = true) : s.actHeld = s := by
  unfold State.actHeld
  split
  · rfl
  · rw [if_neg (by rw [(Mode.inert_cases h).1]; decide)]

/-- In such a mode a command is followed by the stores, the streams, the vectors and the keepers alone. -/
theorem settle_of_inert (h : s.mode.inert = true) :
    ∃ x : Pwr, settle s = ({ s with pwr := x } : State).copyTick.writeAll.fillAll.notify.keepAll := by
  obtain ⟨x, hreact⟩ := s.react_of_inert h
  refine ⟨x, ?_⟩
  rw [settle, hreact, State.autoMode_of_inert { s with pwr := x } h, State.actHeld_of_inert { s with pwr := x } h]

theorem settle_reg_of_inert (h : s.mode.inert = true) {a : Nat} (ha : a ∉ storeRegs) : (settle s).reg a = s.reg a := by
  obtain ⟨x, hsettle⟩ := settle_of_inert s h
  rw [hsettle]
  exact State.reg_of_otherRegs (State.stores_otherRegs _) ha

/-- With the copy register's cycle to come, no host stream and no twin frame, the stores and the streams do nothing. -/
theorem State.stores_still (hcopy : s.raw ≤ s.mem.copyAt + 1) (hhst : s.hst = {}) (htwn : s.twn = {}) :
    s.copyTick.writeAll.fillAll = s := by
  have hcopy : s.copyTick = s := if_neg (by omega)
  have hwrite : s.writeAll = s :=
    s.writeAll_of_idle (congrArg Hst.stampOut hhst) (congrArg Hst.optOut hhst) (congrArg Twn.toRing htwn)
  have hfill : s.fillAll = s := s.fillAll_of_no_slot (by rw [hhst]; rfl)
  rw [hcopy, hwrite, hfill]

theorem settle_of_still (h : s.mode.inert = true) (hcopy : s.raw ≤ s.mem.copyAt + 1) (hhst : s.hst = {}) (htwn : s.twn = {}) :
    ∃ x : Pwr, settle s = ({ s with pwr := x } : State).notify.keepAll := by
  obtain ⟨x, hsettle⟩ := settle_of_inert s h
  exact ⟨x, by rw [hsettle, State.stores_still { s with pwr := x } hcopy hhst htwn]⟩

/-- What is stored, and the events of the cycle. -/
def State.stored : Mem × Seen := (s.mem, s.seenNow)

theorem State.stored_eq {s t : State} (h : t.stored = s.stored) : t.mem = s.mem ∧ t.seenNow = s.seenNow := Prod.mk.inj h

theorem State.message_stored (v : Nat) : (s.message v).stored = s.stored := by
  unfold State.message
  split
  · rfl
  · split <;> rfl

theorem State.notify_stored : s.notify.stored = s.stored := by
  unfold State.notify
  dsimp only
  split
  · rfl
  · exact s.foldl_keeps State.stored State.message_stored _

theorem State.keepAll_stored : s.keepAll.stored = s.stored := rfl

theorem settle_stored_of_still (h : s.mode.inert = true) (hcopy : s.raw ≤ s.mem.copyAt + 1) (hhst : s.hst = {}) (htwn : s.twn = {}) :
    (settle s).stored = s.stored := by
  obtain ⟨x, hsettle⟩ := settle_of_still s h hcopy hhst htwn
  rw [hsettle, State.keepAll_stored, State.notify_stored]
  rfl

/-- Shunter 0 with TX DMA from word 0 of the log store, which is uncorrectable, and its read granted. -/
def badWordDma : State :=
  { noted bcntAt [(SHN.TXDMA_LEN.EN.off, word (2 ^ SHN.TXDMA_LEN.EN.lo + 1))] with
    mode := .provision, seenNow := {}, hst := {}, mem := { ecc := [(eccKey stLog 0, 2)], granted := [(0, 9)] } }

theorem execTxdmaRead_next (n : ShunterId) : execTxdmaRead n s = .next (settle (s.txIssue n.val)) := rfl

end Sys2Proof.Machine
end

section
open Sys2Proof Sys2Proof.Machine

-- In order: each proof evaluates in the kernel, which waits for the proofs before it.
set_option Elab.async false

/-- Refutes O37, in its clause on a read of TX DMA that its siding serves: an uncorrectable word notes UNCORR in this cycle (R263, R9),
which the statement's frame leaves out. -/
theorem not_shunterWaitsAndFifos : ¬ Obligations.ShunterWaitsAndFifos := by
  rintro ⟨-, -, -, -, -, -, -, hread, -⟩
  obtain ⟨-, hgo⟩ := hread badWordDma 0 _ rfl
  obtain ⟨hserved, -⟩ := hgo (by decide +kernel) _ rfl _ rfl
  obtain ⟨t, hexec, -, -, hframe⟩ := hserved (by decide +kernel)
  have hmode : t.mode = .provision := congrArg State.mode hframe
  have hraw : t.raw = 0 := congrArg State.raw hframe
  obtain ⟨-, hseen⟩ := State.stored_eq (settle_stored_of_still t (by rw [hmode]; decide) (by rw [hraw]; exact Nat.zero_le _)
    (congrArg State.hst hframe) (congrArg State.twn hframe))
  have hseen : (settle t).seenNow = {} := hseen.trans (congrArg State.seenNow hframe)
  have hsame : settle (badWordDma.txIssue (0 : ShunterId).val) = settle t :=
    Host.Outcome.next.inj ((execTxdmaRead_next badWordDma 0).symm.trans hexec)
  have hnoted : (settle (badWordDma.txIssue (0 : ShunterId).val)).seenNow ≠ {} := by decide +kernel
  exact hnoted ((congrArg State.seenNow hsame).trans hseen)

end

section
open Sys2Proof Sys2Proof.Machine

-- In order: each proof evaluates in the kernel, which waits for the proofs before it.
set_option Elab.async false

/-- Refutes O38, in its clause on CLKRST: where every bit of SHN.CTL of shunter 0 is noted in this cycle (R9), the write of CLKRST beside
KEEP_SHIFT as it is clears KEEP_SHIFT. -/
theorem not_shunterControl : ¬ Obligations.ShunterControl := by
  rintro ⟨-, -, -, hctl, -⟩
  have hopens : (noted SHN.CTL.START.off [(SHN.CTL.START.off, word (2 ^ SHN.CTL.KEEP_SHIFT.lo))]).opens .pcie
      (shnReg SHN.CTL.START (0 : ShunterId).val) = true := by
    decide +kernel
  obtain ⟨-, -, -, -, -, hclk, -⟩ := hctl _ .pcie 0 hopens _ rfl _ rfl
  obtain ⟨t, hexec, -, -, -, hregs, -⟩ := hclk
  have hsame : t.shOn (0 : ShunterId).val SHN.CTL.KEEP_SHIFT = _ :=
    on_of_outcome (write_opens _ _ _ _ hopens) hexec (by decide +kernel) (by decide +kernel)
  have hkept : t.shOn (0 : ShunterId).val SHN.CTL.KEEP_SHIFT = true := by
    rw [State.shOn, State.on, State.f, hregs _ (by decide +kernel)]
    decide +kernel
  have hcleared : ((noted SHN.CTL.START.off [(SHN.CTL.START.off, word (2 ^ SHN.CTL.KEEP_SHIFT.lo))]).shnCtlBit .pcie
      (0 : ShunterId).val 8).on SHN.CTL.KEEP_SHIFT (pgAt (0 : ShunterId).val) = false := by
    decide +kernel
  exact absurd (hcleared.symm.trans (hsame.symm.trans hkept)) (by decide)

end

section
/-! PROOFS. A slot of stream 3 that serves a shunter beyond the sixteen. -/

namespace Sys2Proof.Machine

/-- The open slot. -/
def strayOpen : OpenSlot := { idx := 0, payload := [], opened := 0, shn := 99, polled := false, size := 64 }

/-- Stream 3 with the slot, and a word in the ring of shunter 99, which serves stream 3. -/
def strayServed : State :=
  { noted (SHN.RXDMA_CFG.SIZE.off + pgAt 99) [(stReg HST.SCFG.EN 3, word (2 ^ HST.SCFG.EN.lo + 2 ^ HST.SCFG.COAL.lo)),
      (SHN.RXDMA_CFG.SIZE.off + pgAt 99, word (2 ^ SHN.RXDMA_CFG.STRM.lo + 2 * 2 ^ SHN.RXDMA_CFG.SIZE.lo))] with
    shn := [(99, { wp := 1 })], hst := { streams := [(3, { slot := some strayOpen })] } }

end Sys2Proof.Machine
end

section
open Sys2Proof Sys2Proof.Machine

-- In order: each proof evaluates in the kernel, which waits for the proofs before it.
set_option Elab.async false

/-- Refutes O41, in its clause on TIMEOUT: the source of stream 3 is said to hold nothing where none of the sixteen shunters feeds it,
but the open slot takes what the shunter that it names holds. -/
theorem not_hostStreams : ¬ Obligations.HostStreams := by
  rintro ⟨-, -, hslot, -⟩
  obtain ⟨-, -, htimeout, -⟩ := hslot strayServed 3 strayOpen (by decide +kernel) _ rfl _ rfl
  obtain ⟨-, q, -, hslot', -, -, -, -, -, -, hsame⟩ := htimeout (by decide +kernel) (by decide +kernel) (by decide +kernel) _ _ rfl rfl
  rw [hsame (by decide +kernel) (by decide +kernel)] at hslot'
  exact absurd hslot' (by decide +kernel)

end

section
/-! PROOFS. A test access that comes after an access of JTAG at the interchange bank. -/

namespace Sys2Proof.Machine

/-- Factory-test, JTAG with the maker role, which has a write at port B of the interchange bank; the bank is free from cycle 5 on. -/
def portBusy : State :=
  ({ State.reset with
    mode := .factory
    mem := { bankAt := [(16, 5)], portB := [{ req := some .jtag, idx := 5, val := 1, be := 15, write := true }] } } : State).setSession
      .jtag { role := .maker }

theorem execJtagTestAccess_ordered (s : State) (k n a v : Nat) (w : Bool) (h : s.reachable .jtag = true) :
    execJtagTestAccess k n a w v s = .next (settle ((s.afterOwn .jtag).testAccess k n a w v)) := access_order s .jtag _ h

end Sys2Proof.Machine
end

section
open Sys2Proof Sys2Proof.Machine

-- In order: each proof evaluates in the kernel, which waits for the proofs before it.
set_option Elab.async false

/-- Refutes O55, in its clause on a read: JTAG's access to the interchange bank that came before it is made first (R284), so that the
clock moves to the bank's next free cycle. -/
theorem not_testAccess : ¬ Obligations.TestAccess := by
  rintro ⟨haccess, -⟩
  obtain ⟨-, hread, -⟩ := haccess portBusy stLog 0 0 0 (by decide +kernel) (by decide +kernel) (by decide +kernel) 0 (by decide +kernel)
  have hserved := execJtagTestAccess_ordered portBusy stLog 0 0 0 false (by decide +kernel)
  have hsame := Host.Outcome.next.inj (hserved.symm.trans (hread (by decide +kernel)))
  exact absurd (congrArg State.raw hsame) (by decide +kernel)

end

section
/-! PROOFS. The exit from Hibernate. -/

namespace Sys2Proof.Machine

/-- Hibernate, with a flag of vehicle time kept. -/
def flagKept : State := { State.reset with mode := .hibernate, regs := [(TBU.KS_FLAGS.V.off, 1)] }

theorem execCoreSupplyGood_on (s : State) (h : s.mode ≠ .off) : execCoreSupplyGood s = .next (settle s.coreGood) := by
  unfold execCoreSupplyGood
  rw [if_neg h]
  rfl

end Sys2Proof.Machine
end

section
open Sys2Proof Sys2Proof.Machine

-- In order: each proof evaluates in the kernel, which waits for the proofs before it.
set_option Elab.async false

/-- Refutes O52, in its clause on the supplies that come good in Hibernate: the exit from Hibernate clears VT_VALID in TBU.KS_FLAGS
(R50), a register that keeps its value by the statement. -/
theorem not_resetsAndWakes : ¬ Obligations.ResetsAndWakes := by
  intro h
  obtain ⟨-, -, -, -, -, -, -, -, -, -, -, -, hgood, -⟩ := h flagKept
  obtain ⟨hboot, -⟩ := hgood (by decide +kernel) (some 0) (by decide +kernel)
  obtain ⟨t, hexec, hmode, -, -, -, -, -, -, -, -, -, -, -, hkeeps⟩ := hboot 0 rfl (by decide +kernel)
  have hsame := Host.Outcome.next.inj ((execCoreSupplyGood_on flagKept (by decide +kernel)).symm.trans hexec)
  have hnone : TBU.KS_FLAGS.V.off ∉ storeRegs := by decide
  have hkept : (settle t).reg TBU.KS_FLAGS.V.off = 1 := by
    rw [settle_reg_of_inert t (by rw [hmode]; decide) hnone, hkeeps _ (by decide) (by decide)]
    decide +kernel
  rw [← hsame, settle_reg_of_inert _ (by decide +kernel) hnone] at hkept
  exact absurd hkept (by decide +kernel)

end

section
/-! PROOFS. Keep-time entered from Configure: the core keeps what it holds until the first crystal edge (R376). -/

namespace Sys2Proof.Machine

theorem State.core_slots (s : State) : s.core.1.slots = s.slots := rfl

theorem settle_slots_of_inert (s : State) (h : s.mode.inert = true) : (settle s).slots = s.slots := by
  obtain ⟨x, hsettle⟩ := settle_of_inert s h
  rw [hsettle, ← State.core_slots, State.stores_core, State.core_slots]

/-- Configure, a maker on PCIe, the crystal within its limits, a queued entry. -/
def entryHeld : State :=
  ({ State.reset with mode := .configure, pwr := { State.reset.pwr with xtalOk := true }, slots := [(0, { st := .queued })] } :
    State).setSession .pcie { role := .maker }

end Sys2Proof.Machine
end

section
open Sys2Proof Sys2Proof.Machine

-- In order: each proof evaluates in the kernel, which waits for the proofs before it.
set_option Elab.async false

/-- Refutes O51, in its clause on Keep-time from Configure: the timetable is not empty with the command, but from the first crystal
edge on (R376). -/
theorem not_powerCommands : ¬ Obligations.PowerCommands := by
  rintro ⟨-, hcmd⟩
  have hopens : entryHeld.opens .pcie PWR.CMD.OP.off = true := by decide +kernel
  obtain ⟨-, -, -, -, hlow, -⟩ := hcmd entryHeld .pcie hopens (by decide +kernel)
  obtain ⟨t, hexec, hmode, -, hslots, -⟩ := hlow (.pwrKeeptime .pcie, .keeptime) (by simp) (by decide +kernel) (by decide +kernel)
    (.inr (by decide +kernel))
  have hsame := Host.Outcome.next.inj ((write_opens entryHeld .pcie PWR.CMD.OP.off (fun s => s.pwrCmd .pcie opKeeptime) hopens).symm.trans
    hexec)
  have hempty : (settle t).slots = [] := by rw [settle_slots_of_inert t (by rw [hmode]; decide), hslots]
  rw [← hsame, settle_slots_of_inert _ (by decide +kernel)] at hempty
  exact absurd hempty (by decide +kernel)

end

section
/-! PROOFS. A copy register whose word lies beyond the siding: the marks of the words of two stores share their keys. -/

namespace Sys2Proof.Machine

/-- Siding 0 copied back from the relief, word 0 next, which is uncorrectable; the copy register holds a word numbered 2^20. -/
def strayCopy : State :=
  { State.reset with
    mode := .provision, hst := {}, twn := {}
    mem := { bgtPhase := 2, bgtSid := 0, bgtPtr := 0, copyReg := some (2 ^ 20, 0, 0), ecc := [(eccKey stRelief 0, 2)], bankAt := [(0, 1)] } }

theorem execSidingGrant_next (d : SidingId) (s : State) : execSidingGrant d s = .next (settle (s.grant d.val)) := rfl

end Sys2Proof.Machine
end

section
open Sys2Proof Sys2Proof.Machine

-- In order: each proof evaluates in the kernel, which waits for the proofs before it.
set_option Elab.async false

/-- Refutes O39, in its clause on a cycle that the copy takes: the word of the copy register is written to the home bank with fresh
check bits, and its number makes them those of the relief's word that is read next. -/
theorem not_memoryAccesses : ¬ Obligations.MemoryAccesses := by
  rintro ⟨-, hgrant, -⟩
  obtain ⟨-, hcopy, -⟩ := hgrant strayCopy 0 1 (by decide +kernel) none (by decide +kernel) true (by decide +kernel) 0 rfl
  obtain ⟨t, hexec, hraw, -, -, hnext, -, hframe⟩ := hcopy rfl (by decide +kernel)
  obtain ⟨-, -, hat, hreg⟩ := hnext (by decide)
  have hsame := Host.Outcome.next.inj ((execSidingGrant_next 0 strayCopy).symm.trans hexec)
  have hmode : t.mode = .provision := congrArg State.mode hframe
  obtain ⟨hstored, -⟩ := State.stored_eq (settle_stored_of_still t (by rw [hmode]; decide) (by rw [hraw, hat]; decide)
    (congrArg State.hst hframe) (congrArg State.twn hframe))
  have hkept : (settle t).mem.copyReg = some _ := (congrArg Mem.copyReg hstored).trans hreg
  rw [← hsame] at hkept
  exact absurd hkept (by decide +kernel)

end

section
/-! PROOFS. An overtaken NOP whose books hold an outcome: its start stays (R136). -/

namespace Sys2Proof.Machine

/-- Turntable 0 has overtaken the NOP in slot 0, which has start 64 and outcome 0. -/
def overtakenNop : State :=
  { noted bcntAt with
    ttn := [(0, { behind := [0] })]
    slots := [(0, { st := .queued, place := .nowhere, acted := some 0, start := 64, bits := 2 ^ 115 })] }

end Sys2Proof.Machine
end

section
open Sys2Proof Sys2Proof.Machine

-- In order: each proof evaluates in the kernel, which waits for the proofs before it.
set_option Elab.async false

/-- Refutes O23, in its clause on an overtaken entry that fires: a NOP whose slot holds an outcome keeps its start, where the statement
gives it vehicle time. The statement's quantifier admits that state; nothing here says that a run reaches it. -/
theorem not_angleEntries : ¬ Obligations.AngleEntries := by
  rintro ⟨hovertaken, -⟩
  obtain ⟨t, hexec, -, hstart, -⟩ := (hovertaken overtakenNop 0 0 [] (by decide +kernel) (by decide +kernel) (by decide +kernel)).2.2
    (.inl (by decide +kernel))
  have hcalm : t.calmPart 0 = (overtakenNop.overtake 0 0).calmPart 0 :=
    calmPart_of_outcome (show execOvertaken 0 0 overtakenNop = .next (settle (overtakenNop.overtake 0 0)) from rfl) hexec
      (by decide +kernel) (by decide)
  have hslot : (t.slot 0).start = ((overtakenNop.overtake 0 0).slot 0).start := congrArg (fun p => (p.1.slot 0).start) hcalm
  have hvt : t.vt = (overtakenNop.overtake 0 0).vt := congrArg (fun p => p.1.vt) hcalm
  have hne : ((overtakenNop.overtake 0 0).slot 0).start ≠ (overtakenNop.overtake 0 0).vt := by decide +kernel
  exact hne (hslot.symm.trans (hstart.trans hvt))

end

section
/-! PROOFS. A gate whose DUE lies half the range of vehicle time in the past when it opens (R75). -/

namespace Sys2Proof.Machine

theorem State.core_trk (s : State) : s.core.1.trk = s.trk := rfl

theorem settle_trk_of_inert (s : State) (h : s.mode.inert = true) : (settle s).trk = s.trk := by
  obtain ⟨x, hsettle⟩ := settle_of_inert s h
  rw [hsettle, ← State.core_trk, State.stores_core, State.core_trk]

/-- Boot, a gate in the active half of track 0 with DUE at 2^63, at vehicle time 0; it opens in raw cycle 3, for which that DUE lies
ahead. -/
def farGate : State :=
  { State.reset with trk := [(0, { aAct := some { time := 2 ^ 63, act := .gate, since := 1 } })] }

theorem execGateOpen_next (t : TrackId) (s : State) : execGateOpen t s = .next (settle (s.inputEvent t.val 2)) := rfl

end Sys2Proof.Machine
end

section
open Sys2Proof Sys2Proof.Machine

-- In order: each proof evaluates in the kernel, which waits for the proofs before it.
set_option Elab.async false

/-- Refutes O15, in its clause on a gate that opens: raw time of DUE is the representative nearest to the clock, so that the one after
the opening need not be the one before it. The statement's quantifier admits that state; nothing here says that a run reaches it. -/
theorem not_trackCaptures : ¬ Obligations.TrackCaptures := by
  rintro ⟨-, hopen, -⟩
  obtain ⟨t, g, hexec, hgate, -, hclose, -, -, hframe⟩ := hopen farGate 0 192 { time := 2 ^ 63, act := .gate, since := 1 }
    (by decide +kernel) (by decide +kernel)
  have hmode : t.mode = .boot := congrArg State.mode hframe
  have hsame := Host.Outcome.next.inj ((execGateOpen_next 0 farGate).symm.trans hexec)
  have htrk : t.trk = (farGate.inputEvent (0 : TrackId).val 2).trk := by
    rw [← settle_trk_of_inert t (by rw [hmode]; decide), ← hsame, settle_trk_of_inert _ (by decide +kernel)]
  rw [State.track, htrk] at hgate
  have hsome : ((farGate.inputEvent (0 : TrackId).val 2).track (0 : TrackId).val).gate.bind Gate.close = some 192 := by
    rw [State.track, hgate, Option.bind_some, hclose]
    decide +kernel
  exact absurd hsome (by decide +kernel)

end

section
/-! PROOFS. A WAIT whose tick is half the range of vehicle time ahead of the clock (R246). -/

namespace Sys2Proof.Machine

/-- Shunter 0 at a WAIT for pin 0 low with a deadline 2^30 cycles after its tick, which is 2^57 + 10 cycles ahead of the clock. -/
def farWait : State :=
  { noted bcntAt with
    stores := { prog := [(0, 0x3080)] }
    shn := [(0, { st := .running, tick := (2 ^ 57 + 10) * 256, t := word (2 ^ 30 + 10) })] }

theorem execShWait_shunts (s : State) (n : ShunterId) (w : Nat) (pins : Byte) (h : s.shunts n.val .wait w) :
    execShWait n pins s = .next (settle (((s.shRead n.val).shWait n.val w pins.toNat (s.shunter n.val)).pinsOutside n.val pins.toNat)) := by
  obtain ⟨hrun, hmode, hw, hop⟩ := h
  unfold execShWait State.shExec
  rw [if_pos ⟨hrun, hmode, hw.symm ▸ hop⟩, hw]
  rfl

end Sys2Proof.Machine
end

section
open Sys2Proof Sys2Proof.Machine

-- In order: each proof evaluates in the kernel, which waits for the proofs before it.
set_option Elab.async false

/-- Refutes O36, in its clause on WAIT: the deadline's raw cycle is the one nearest to the clock at the tick, which need not be the one
nearest to the clock before it. The statement's quantifier admits that state; nothing here says that a run reaches it. -/
theorem not_shunterInstructions : ¬ Obligations.ShunterInstructions := by
  intro h
  obtain ⟨-, -, -, -, hwait, -⟩ := h farWait 0 0x3080 0
  have hshunts : farWait.shunts (0 : ShunterId).val .wait 0x3080 :=
    ⟨by decide +kernel, by decide +kernel, by decide +kernel, by decide +kernel⟩
  obtain ⟨t, hexec, -, hseen, -⟩ := hwait hshunts
  obtain ⟨-, -, -, hrace⟩ := hseen (by decide +kernel)
  have hon := hrace (2 ^ 57 + 2 ^ 30 + 10) (by decide +kernel) (by decide +kernel)
  have hsame : t.on SHN.IRQ_RAW.TIMEOUT_RACE (pgAt (0 : ShunterId).val) = _ :=
    on_of_outcome (execShWait_shunts farWait 0 0x3080 0 hshunts) hexec (by decide +kernel) (by decide +kernel)
  exact absurd (hsame.symm.trans hon) (by decide +kernel)

end

section
/-! PROOFS. Fields and registers read after the operations on registers: what an operation writes is one field, so that every other field
reads as before. The side conditions are about the register map alone. -/

namespace Sys2Proof.Machine

section
variable (s : State) (g k : Fld) (i j : Nat)

@[simp] theorem State.f_set1_eq : (s.set1 g i).f k j = (s.setF g 1 i).f k j := rfl
@[simp] theorem State.f_clr_eq : (s.clr g i).f k j = (s.setF g 0 i).f k j := rfl
@[simp] theorem State.f_incr_eq : (s.incr g i).f k j = (s.setF g (s.f g i + 1) i).f k j := rfl
@[simp] theorem State.f_bump_eq (n : Nat) :
    (s.bump g n i).f k j = (s.setF g (satAdd (2 ^ g.wid - 1) (s.f g i) n) i).f k j := rfl
@[simp] theorem State.f_fault_eq (c : Nat) :
    (s.fault c).f k j = (s.setF PWR.FLTSTS.FAULT (s.f PWR.FLTSTS.FAULT ||| 2 ^ (c - 1))).f k j := rfl
@[simp] theorem State.f_advance (c : Nat) : (s.advance c).f k j = s.f k j := rfl
@[simp] theorem State.f_advanceU (c : Nat) : (s.advanceU c).f k j = s.f k j := rfl
@[simp] theorem State.f_advanceVt (c : Nat) : (s.advanceVt c).f k j = s.f k j := rfl
@[simp] theorem State.f_setVt (c : Nat) : (s.setVt c).f k j = s.f k j := rfl
@[simp] theorem State.f_withTbu (x : Tbu) : ({ s with tbu := x } : State).f k j = s.f k j := rfl
@[simp] theorem State.f_withDsp (x : Dsp) : ({ s with dsp := x } : State).f k j = s.f k j := rfl
@[simp] theorem State.f_withMem (x : Mem) : ({ s with mem := x } : State).f k j = s.f k j := rfl
@[simp] theorem State.f_withHst (x : Hst) : ({ s with hst := x } : State).f k j = s.f k j := rfl
@[simp] theorem State.f_withTwn (x : Twn) : ({ s with twn := x } : State).f k j = s.f k j := rfl
@[simp] theorem State.f_withPwr (x : Pwr) : ({ s with pwr := x } : State).f k j = s.f k j := rfl
@[simp] theorem State.f_withSec (x : Sec) : ({ s with sec := x } : State).f k j = s.f k j := rfl
@[simp] theorem State.f_withAdc (x : Adc) : ({ s with adc := x } : State).f k j = s.f k j := rfl
@[simp] theorem State.f_withGlb (x : Glb) : ({ s with glb := x } : State).f k j = s.f k j := rfl
@[simp] theorem State.f_withSlots (x : SMap Slot) : ({ s with slots := x } : State).f k j = s.f k j := rfl
@[simp] theorem State.f_setSlot (n : Nat) (x : Slot) : (s.setSlot n x).f k j = s.f k j := rfl
@[simp] theorem State.f_setTrack (n : Nat) (x : Track) : (s.setTrack n x).f k j = s.f k j := rfl
@[simp] theorem State.f_setTurn (n : Nat) (x : Turntable) : (s.setTurn n x).f k j = s.f k j := rfl
@[simp] theorem State.f_setEngine (n : Nat) (x : Engine) : (s.setEngine n x).f k j = s.f k j := rfl
@[simp] theorem State.f_setShunter (n : Nat) (x : Shunter) : (s.setShunter n x).f k j = s.f k j := rfl
@[simp] theorem State.f_setHstream (n : Nat) (x : Stream) : (s.setHstream n x).f k j = s.f k j := rfl
@[simp] theorem State.f_setConsist (n : Nat) (x : Consist) : (s.setConsist n x).f k j = s.f k j := rfl
@[simp] theorem State.f_signal (a b c d : Nat) : (s.signal a b c d).f k j = s.f k j := rfl
@[simp] theorem State.f_setSession (r : Requester) (x : Session) : (s.setSession r x).f k j = s.f k j := rfl
@[simp] theorem State.f_setPreg (n a : Nat) (v : Word) : (s.setPreg n a v).f k j = s.f k j := rfl

@[simp] theorem State.f_setF_self (v : Nat) (h : g.lo + g.wid ≤ 32) : (s.setF g v i).f g i = v % 2 ^ g.wid := s.f_setF g v i h

@[simp] theorem State.f_setF_other (v : Nat) (h : k.off + j ≠ g.off + i) : (s.setF g v i).f k j = s.f k j :=
  s.f_setF_ne g k v i j h

@[simp] theorem State.f_setF_beside (v : Nat)
    (h : k.off + j = g.off + i ∧ g.lo + g.wid ≤ 32 ∧ (g.lo + g.wid ≤ k.lo ∨ k.lo + k.wid ≤ g.lo)) :
    (s.setF g v i).f k j = s.f k j := s.f_setF_apart g k v i j h.2.1 h.1 h.2.2

theorem State.f_lt : s.f k j < 2 ^ k.wid := by
  rw [State.f, bitsAt_eq]
  exact Nat.mod_lt _ (Nat.two_pow_pos _)

theorem State.counted_eq (n : Nat) : satAdd (2 ^ g.wid - 1) (s.f g i) n % 2 ^ g.wid = counted s g n i := by
  have := Nat.two_pow_pos g.wid
  rw [counted, satAdd, Nat.mod_eq_of_lt]
  omega

theorem State.on_eq : s.on k j = decide (s.f k j ≠ 0) := rfl
end

/-- A write of a field leaves all else as it was. -/
theorem State.butRegs_setF {s t : State} {r : SMap Word} {g : Fld} {v i : Nat} (h : ({ t with regs := r } : State) = s) :
    ({ t.setF g v i with regs := r } : State) = s := h

/-! ### Registers but for some -/

theorem RegsBut.refl (s : State) (as : List Nat) : RegsBut s s as := fun _ _ => rfl

variable {s t : State} {as : List Nat}

theorem RegsBut.of_regs (h : RegsBut s t as) {u : State} (hu : u.regs = t.regs) : RegsBut s u as := fun a ha => by
  rw [← h a ha, State.reg, hu, State.reg]

theorem RegsBut.setReg (h : RegsBut s t as) {a : Nat} {v : Word} (ha : a ∈ as) : RegsBut s (t.setReg a v) as := fun b hb =>
  (t.reg_setReg_ne a v b fun hba => hb (hba ▸ ha)).trans (h b hb)

theorem RegsBut.setF (h : RegsBut s t as) {g : Fld} {v i : Nat} (ha : g.off + i ∈ as) : RegsBut s (t.setF g v i) as :=
  RegsBut.setReg h ha

theorem RegsBut.set1 (h : RegsBut s t as) {g : Fld} {i : Nat} (ha : g.off + i ∈ as) : RegsBut s (t.set1 g i) as :=
  (RegsBut.setF (v := 1) h ha).of_regs rfl

theorem RegsBut.clr (h : RegsBut s t as) {g : Fld} {i : Nat} (ha : g.off + i ∈ as) : RegsBut s (t.clr g i) as := RegsBut.setF h ha

theorem RegsBut.bump (h : RegsBut s t as) {g : Fld} {n i : Nat} (ha : g.off + i ∈ as) : RegsBut s (t.bump g n i) as :=
  RegsBut.setF h ha

theorem RegsBut.fault (h : RegsBut s t as) {c : Nat} (ha : PWR.FLTSTS.FAULT.off ∈ as) : RegsBut s (t.fault c) as :=
  (RegsBut.setF (g := PWR.FLTSTS.FAULT) (i := 0) h ha).of_regs rfl

end Sys2Proof.Machine
end

section
/-! PROOFS. FREQ_HOLD kept, and the Keep-time books of the timebase (R41, R48, R49, R376). -/

namespace Sys2Proof.Machine

variable (s : State)

/-- A word at a key that a filter by keys lets through. -/
theorem SMap.get_filter {α : Type} (d : Nat → α) (p : Nat → Bool) (m : SMap α) (k : Nat) :
    SMap.get d (m.filter (fun e => p e.1)) k = if p k then SMap.get d m k else d k := by
  induction m with
  | nil => simp [SMap.get]
  | cons e m ih =>
    obtain ⟨i, v⟩ := e
    by_cases hk : k = i
    · subst hk
      by_cases hp : p k = true
      · simp [hp, SMap.get]
      · simpa [hp, SMap.get] using ih
    · by_cases hp : p i = true
      · simpa [hp, hk, SMap.get] using ih
      · simpa [hp, hk, SMap.get] using ih

theorem State.reg_coreLost (m : Mode) (a : Nat) : (s.coreLost m).reg a = if keepsake a then s.reg a else resetWord a :=
  SMap.get_filter resetWord keepsake s.regs a

theorem State.reg_toLow (m : Mode) {a : Nat} (h : keepsake a = true) : (s.toLow m).reg a = s.reg a :=
  (s.reg_coreLost m a).trans (if_pos h)

theorem State.f_toLow (m : Mode) (g : Fld) (i : Nat) (h : keepsake (g.off + i) = true) : (s.toLow m).f g i = s.f g i := by
  rw [State.f, State.f, s.reg_toLow m h]

/-- Setting bit `k` of KS_FLAGS. -/
theorem ksFlag_set : ∀ x < 8, ∀ k < 3, bitsAt ((x ||| 2 ^ k) % 2 ^ TBU.KS_FLAGS.V.wid) k 1 = 1 := by decide

/-- VT_VALID taken out of KS_FLAGS. -/
theorem ksFlag_drop : ∀ x < 8, bitsAt ((x &&& 6) % 2 ^ TBU.KS_FLAGS.V.wid) 0 1 ≠ 1 := by decide

theorem State.ksFlags_lt : s.f TBU.KS_FLAGS.V < 8 := s.f_lt _ _

theorem bitsOfInt_lt (n : Nat) (x : Int) : bitsOfInt n x < 2 ^ n := by
  have h : ((2 ^ n : Nat) : Int) ≠ 0 := by have := Nat.two_pow_pos n; omega
  have h0 := Int.emod_nonneg x h
  have h1 := Int.emod_lt_of_pos x (b := ((2 ^ n : Nat) : Int)) (by have := Nat.two_pow_pos n; omega)
  unfold bitsOfInt
  omega

theorem State.ksTicks_putTicks (n : Nat) : (s.putTicks n).ksTicks = n % 2 ^ (TBU.KS_TICKS_HI.V.wid + 32) := by
  have hw : TBU.KS_TICKS_HI.V.wid = 16 := rfl
  have hw' : TBU.KS_TICKS_LO.V.wid = 32 := rfl
  unfold State.ksTicks State.putTicks
  simp (disch := decide) only [State.f_setF_self, State.f_setF_other]
  rw [hw, hw']
  omega

/-- Vehicle time after it is set (R28, R49). -/
theorem State.vt_setVt (n : Nat) : (s.setVt n).vt = n % 2 ^ 64 := by
  show bitsOfInt 64 (((s.raw * 64 : Nat) : Int) + ((n : Int) - ((s.raw * 64 : Nat) : Int))) = n % 2 ^ 64
  rw [add_sub_cancel]
  unfold bitsOfInt
  omega

theorem State.reg_withTbu (x : Tbu) (a : Nat) : ({ s with tbu := x } : State).reg a = s.reg a := rfl

/-- The registers as the latch finds them written (R48). -/
def State.latchRegs (v : Nat) : State :=
  let t := ((s.setF TBU.KS_VT_LO.V v).setF TBU.KS_VT_HI.V (v / 2 ^ 32)).putTicks 0
  t.setF TBU.KS_FLAGS.V (t.f TBU.KS_FLAGS.V ||| 1)

/-- The state in which the latch leaves the always-on part (R48, R376). -/
def State.latchDone (v : Nat) : State := { (s.latchRegs v).toLow .keeptime with tbu := { latched := true } }

theorem execKeeptimeLatch_first (delay : Nat) (hm : s.mode = .keeptime) (hl : s.tbu.latched = false) :
    execKeeptimeLatch delay s = .next (settle (s.latchDone ((s.vt + delay) % 2 ^ 64))) := by
  unfold execKeeptimeLatch
  rw [if_pos (by rw [hm, hl]; rfl)]
  rfl

theorem State.reg_latchDone (v : Nat) {a : Nat} (h : keepsake a = true) : (s.latchDone v).reg a = (s.latchRegs v).reg a :=
  by rw [State.latchDone, State.reg_withTbu, State.reg_toLow _ _ h]

theorem State.f_latchDone (v : Nat) (g : Fld) (h : keepsake (g.off + 0) = true) : (s.latchDone v).f g = (s.latchRegs v).f g := by
  rw [State.latchDone, State.f_withTbu, State.f_toLow _ _ _ _ h]

theorem State.latchRegs_ksTicks (v : Nat) : (s.latchRegs v).ksTicks = 0 := by
  have h := State.ksTicks_putTicks ((s.setF TBU.KS_VT_LO.V v).setF TBU.KS_VT_HI.V (v / 2 ^ 32)) 0
  rw [State.ksTicks, State.latchRegs]
  simp (disch := decide) only [State.f_setF_other]
  exact h

theorem State.reg_latchRegs (v a : Nat) (h : a ∉ [adr TBU.KS_VT_LO.V, adr TBU.KS_VT_HI.V, adr TBU.KS_TICKS_LO.V, adr TBU.KS_TICKS_HI.V,
    adr TBU.KS_FLAGS.V]) : (s.latchRegs v).reg a = s.reg a :=
  (((((RegsBut.refl s _).setF (by decide)).setF (by decide)).setF (by decide)).setF (by decide)).setF (by decide) a h

/-- What the core's supplies take away and what they leave (R376). -/
theorem State.toLow_keeps (m : Mode) : (s.toLow m).mode = m ∧ (s.toLow m).raw = s.raw ∧ (s.toLow m).vtOff = s.vtOff
    ∧ (s.toLow m).slots = [] ∧ (s.toLow m).mem = {} ∧ (s.toLow m).pwr.pmicEn = s.pwr.waking.isSome
    ∧ (s.toLow m).pwr.waking = s.pwr.waking := ⟨rfl, rfl, rfl, rfl, rfl, rfl, rfl⟩

theorem State.latchRegs_clock (v : Nat) :
    (s.latchRegs v).raw = s.raw ∧ (s.latchRegs v).vtOff = s.vtOff ∧ (s.latchRegs v).pwr = s.pwr := by
  simp only [State.latchRegs, State.putTicks, State.setF_raw, State.setF_vtOff, State.setF_pwr, and_self]

theorem State.latchDone_keeps (v : Nat) : (s.latchDone v).tbu = { latched := true } ∧ (s.latchDone v).mode = .keeptime
    ∧ (s.latchDone v).raw = s.raw ∧ (s.latchDone v).vtOff = s.vtOff ∧ (s.latchDone v).slots = [] ∧ (s.latchDone v).mem = {}
    ∧ (s.latchDone v).pwr.pmicEn = s.pwr.waking.isSome ∧ (s.latchDone v).pwr.waking = s.pwr.waking := by
  obtain ⟨hraw, hoff, hpwr⟩ := s.latchRegs_clock v
  obtain ⟨hmode, hraw', hoff', hslots, hmem, hpmic, hwake⟩ := (s.latchRegs v).toLow_keeps .keeptime
  dsimp only [State.latchDone]
  exact ⟨rfl, hmode, hraw'.trans hraw, hoff'.trans hoff, hslots, hmem, by rw [hpmic, hpwr], by rw [hwake, hpwr]⟩

theorem State.latchDone_lo (v : Nat) : (s.latchDone v).f TBU.KS_VT_LO.V = v % 2 ^ 32 := by
  rw [s.f_latchDone v _ (by decide), State.latchRegs, State.putTicks]
  simp (disch := decide) only [State.f_setF_self, State.f_setF_other]
  rfl

theorem State.latchDone_hi (v : Nat) : (s.latchDone v).f TBU.KS_VT_HI.V = v / 2 ^ 32 % 2 ^ 32 := by
  rw [s.f_latchDone v _ (by decide), State.latchRegs, State.putTicks]
  simp (disch := decide) only [State.f_setF_self, State.f_setF_other]
  rfl

theorem State.latchDone_ticks (v : Nat) : (s.latchDone v).ksTicks = 0 := by
  rw [State.ksTicks, s.f_latchDone v _ (by decide), s.f_latchDone v _ (by decide)]
  exact s.latchRegs_ksTicks v

theorem State.latchDone_valid (v : Nat) : (s.latchDone v).vtValid = true := by
  rw [State.vtValid, s.f_latchDone v _ (by decide), State.latchRegs]
  simp (disch := decide) only [State.f_setF_self]
  rw [decide_eq_true_eq]
  exact ksFlag_set _ (State.ksFlags_lt _) 0 (by decide)

/-- The state in which vehicle time goes on after Keep-time (R49). -/
def State.resumedAt : State :=
  let nom := bitsAt (s.f TBU.KS_FLAGS.V) 2 1 = 0
  let t := s.setVt s.resumed
  let t := (t.setF TBU.KS_FLAGS.V (t.f TBU.KS_FLAGS.V &&& 6)).set1 TBU.STS.COARSE
  if nom then t.set1 TBU.STS.K32_NOM else t

/-- The books of the return, before the boundary follows it. -/
def State.resumeBooks (s : State) : State :=
  let t := s.setVt s.resumed
  (t.setF TBU.KS_FLAGS.V (t.f TBU.KS_FLAGS.V &&& 6)).set1 TBU.STS.COARSE

theorem State.resumedAt_eq : s.resumedAt = s.resumeBooks ∨ s.resumedAt = s.resumeBooks.set1 TBU.STS.K32_NOM := by
  unfold State.resumedAt State.resumeBooks
  extract_lets nom t u
  split
  · exact .inr rfl
  · exact .inl rfl

theorem State.vt_congr {s t : State} (hr : t.raw = s.raw) (ho : t.vtOff = s.vtOff) : t.vt = s.vt := by
  rw [State.vt, State.vt, State.vtAt, State.vtAt, hr, ho]

theorem State.resumeBooks_vt : s.resumeBooks.vt = s.resumed % 2 ^ 64 :=
  (State.vt_congr (s := s.setVt s.resumed) (by simp only [State.resumeBooks, State.set1_raw, State.setF_raw])
    (by simp only [State.resumeBooks, State.set1_vtOff, State.setF_vtOff])).trans (s.vt_setVt s.resumed)

theorem State.resumeBooks_flags : bitsAt (s.resumeBooks.f TBU.KS_FLAGS.V) 0 1 ≠ 1 := by
  have hflags := ksFlag_drop _ s.ksFlags_lt
  unfold State.resumeBooks
  simp (disch := decide) only [State.f_set1_eq, State.f_setF_other, State.f_setF_self, State.f_setVt]
  exact hflags

theorem State.resumeBooks_coarse : s.resumeBooks.on TBU.STS.COARSE = true := by
  unfold State.resumeBooks
  simp (disch := decide) only [State.on_eq, State.f_set1_eq, State.f_setF_self]
  decide

theorem State.resumedAt_flags : bitsAt (s.resumedAt.f TBU.KS_FLAGS.V) 0 1 ≠ 1 := by
  rcases s.resumedAt_eq with h | h
  · exact h ▸ s.resumeBooks_flags
  · rw [h, State.f_set1_eq, State.f_setF_other _ _ _ _ _ _ (by decide)]
    exact s.resumeBooks_flags

theorem State.resumedAt_coarse : s.resumedAt.on TBU.STS.COARSE = true := by
  rcases s.resumedAt_eq with h | h
  · exact h ▸ s.resumeBooks_coarse
  · rw [h, State.on_eq, State.f_set1_eq, State.f_setF_beside _ _ _ _ _ _ (by decide)]
    exact s.resumeBooks_coarse

theorem State.resumeBooks_clock : s.resumeBooks.raw = s.raw ∧ s.resumeBooks.slots = s.slots ∧ s.resumeBooks.mem = s.mem := by
  simp only [State.resumeBooks, State.set1_raw, State.setF_raw, State.set1_slots, State.setF_slots, State.set1_mem, State.setF_mem]
  exact ⟨rfl, rfl, rfl⟩

theorem State.resumedAt_vt : s.resumedAt.vt = s.resumed % 2 ^ 64 := by
  refine Eq.trans ?_ s.resumeBooks_vt
  rcases s.resumedAt_eq with h | h
  · rw [h]
  · rw [h]
    exact State.vt_congr (State.set1_raw _ _ _) (State.set1_vtOff _ _ _)

theorem State.resumedAt_clock : s.resumedAt.raw = s.raw ∧ s.resumedAt.slots = s.slots ∧ s.resumedAt.mem = s.mem := by
  rcases s.resumedAt_eq with h | h
  · rw [h]
    exact s.resumeBooks_clock
  · rw [h, State.set1_raw, State.set1_slots, State.set1_mem]
    exact s.resumeBooks_clock

/-- The state in which the blocks follow vehicle time again. -/
def State.resumedOn : State := ({ s.resumedAt with dsp := { s.resumedAt.dsp with bdep := s.resumedAt.dep } } : State).nextSec

theorem execKeeptimeResume_due (hp : s.mode.powered = true) (hl : s.f PWR.KS_CAUSE.LASTMODE = 2) (hk : s.on TBU.STS.PLL_LOCK = true)
    (hv : s.vtValid = true) : execKeeptimeResume s = .next (settle s.resumedOn) := by
  unfold execKeeptimeResume
  rw [if_pos (by simp [hp, hl, hk, hv])]
  rfl

theorem State.nextSec_keeps (t : State) : t.nextSec.vt = t.vt ∧ t.nextSec.dsp = t.dsp ∧ t.nextSec.dep = t.dep ∧ t.nextSec.raw = t.raw
    ∧ t.nextSec.slots = t.slots ∧ t.nextSec.mem = t.mem := ⟨rfl, rfl, rfl, rfl, rfl, rfl⟩

theorem State.f_nextSec (t : State) (g : Fld) (h : g.off ∉ [adr TBU.NEXTSEC_LO.NEXTSEC, adr TBU.NEXTSEC_HI.NEXTSEC]) :
    t.nextSec.f g = t.f g := by
  have hreg : RegsBut t t.nextSec [adr TBU.NEXTSEC_LO.NEXTSEC, adr TBU.NEXTSEC_HI.NEXTSEC] := by
    unfold State.nextSec
    exact ((RegsBut.refl t _).setF (by decide)).setF (by decide)
  rw [State.f, State.f, hreg (g.off + 0) h]

theorem State.resumedOn_keeps : s.resumedOn.vt = s.resumed % 2 ^ 64 ∧ s.resumedOn.vtValid = false
    ∧ s.resumedOn.on TBU.STS.COARSE = true ∧ s.resumedOn.dsp.bdep = s.resumedOn.dep ∧ s.resumedOn.raw = s.raw
    ∧ s.resumedOn.slots = s.slots ∧ s.resumedOn.mem = s.mem := by
  obtain ⟨hraw, hslots, hmem⟩ := s.resumedAt_clock
  unfold State.resumedOn
  obtain ⟨hvt, hdsp, hdep, hraw', hslots', hmem'⟩ := State.nextSec_keeps
    ({ s.resumedAt with dsp := { s.resumedAt.dsp with bdep := s.resumedAt.dep } } : State)
  refine ⟨hvt.trans s.resumedAt_vt, ?_, ?_, ?_, hraw'.trans hraw, hslots'.trans hslots, hmem'.trans hmem⟩
  · rw [State.vtValid, State.f_nextSec _ _ (by decide), State.f_withDsp]
    exact decide_eq_false s.resumedAt_flags
  · rw [State.on_eq, State.f_nextSec _ _ (by decide), State.f_withDsp]
    exact s.resumedAt_coarse
  · rw [hdsp, hdep]
    rfl

/-- Each of these writes registers and nothing else. -/
theorem State.putTicks_butRegs (n : Nat) : ({ s.putTicks n with regs := s.regs } : State) = s :=
  State.butRegs_setF (State.butRegs_setF rfl)

theorem State.copyFreqHold_butRegs : ({ s.copyFreqHold with regs := s.regs } : State) = s :=
  State.butRegs_setF (State.butRegs_setF (State.butRegs_setF rfl))

theorem execKsFreqCopy_locked (h : s.srv = srvLocked) : execKsFreqCopy s = .next (settle s.copyFreqHold) := done_if_pos _ _ _ h

theorem execKsTick_latched (hm : s.mode = .keeptime) (hl : s.tbu.latched = true) :
    execKsTick s = .next (settle (s.putTicks (s.ksTicks + 1))) := done_if_pos _ _ _ (by rw [hm, hl]; rfl)

/-- The crystal as it was measured (R48). -/
def State.measured (n : Nat) : State :=
  let t := (s.setF TBU.K32.V n).setF TBU.KS_K32.V n
  t.setF TBU.KS_FLAGS.V (t.f TBU.KS_FLAGS.V ||| 4)

theorem State.measured_butRegs (n : Nat) : ({ s.measured n with regs := s.regs } : State) = s :=
  State.butRegs_setF (State.butRegs_setF (State.butRegs_setF rfl))

theorem execK32Measure_locked (n : Nat) (h : s.srv = srvLocked) (hx : s.pwr.xtalOk = true) :
    execK32Measure n s = .next (settle (s.measured n)) := by
  unfold execK32Measure
  rw [if_pos (by rw [h, hx]; rfl)]
  rfl

end Sys2Proof.Machine
end

section
open Sys2Proof Sys2Proof.Machine

/-- Settles O10: each of the five commands writes fields of its own registers; the latch then takes the core's supplies away. -/
theorem holdoverAndKeepTime : Obligations.HoldoverAndKeepTime := by
  refine ⟨fun s hs => ?copy, fun s delay hm hl => ?latch, fun s hm hl => ?tick, fun s n hs hx => ?k32, fun s hp hl hk hv => ?resume⟩
  case copy =>
    refine ⟨s.copyFreqHold, (exec_ksFreqCopy s).trans (execKsFreqCopy_locked s hs), ?_, ?_, s.copyFreqHold_butRegs⟩
    · unfold State.copyFreqHold
      simp (disch := decide) only [State.f_setF_self, State.f_setF_other]
      exact Nat.mod_eq_of_lt (bitsOfInt_lt 32 _)
    · unfold State.copyFreqHold
      simp (disch := decide) only [State.f_setF_self, State.f_setF_other]
      exact ksFlag_set _ s.ksFlags_lt 1 (by decide)
  case latch =>
    obtain ⟨htbu, hmode, hraw, hoff, hslots, hmem, hpmic, hwake⟩ := s.latchDone_keeps ((s.vt + delay) % 2 ^ 64)
    refine ⟨s.latchDone _, (exec_keeptimeLatch s delay).trans (execKeeptimeLatch_first s delay hm hl), (s.latchDone_lo _).trans ?_,
      (s.latchDone_hi _).trans ?_, s.latchDone_ticks _, s.latchDone_valid _, htbu, hmode, hraw, hoff, hslots, hmem, hpmic, hwake,
      fun a ha hne => (s.reg_latchDone _ ha).trans (s.reg_latchRegs _ a hne)⟩
    · omega
    · omega
  case tick =>
    exact ⟨s.putTicks (s.ksTicks + 1), (exec_ksTick s).trans (execKsTick_latched s hm hl), s.ksTicks_putTicks _, s.putTicks_butRegs _⟩
  case k32 =>
    refine ⟨s.measured n, (exec_k32Measure s n).trans (execK32Measure_locked s n hs hx), ?_, ?_, ?_, s.measured_butRegs n⟩
      <;> unfold State.measured <;> simp (disch := decide) only [State.f_setF_self, State.f_setF_other]
    · rfl
    · rfl
    · exact ksFlag_set _ s.ksFlags_lt 2 (by decide)
  case resume =>
    exact ⟨_, (exec_keeptimeResume s).trans (execKeeptimeResume_due s hp hl hk hv), s.resumedOn_keeps⟩

end

section
/-! PROOFS. A word with a reserved code faults (R171, R178). -/

namespace Sys2Proof.Machine

variable (s : State) (e l out : Nat)

/-! ### What the end of a routine and the end of a section leave -/

theorem State.routineEnd_regs : (s.routineEnd e l out).regs = s.regs := by
  unfold State.routineEnd State.unhold
  dsimp only
  split
  · rfl
  · split
    · split <;> rfl
    · split
      · exact State.acted_regs _ _ _
      · rfl

theorem State.routineEnd_raw : (s.routineEnd e l out).raw = s.raw := by
  unfold State.routineEnd State.unhold
  dsimp only
  split
  · rfl
  · split
    · split <;> rfl
    · split
      · exact State.acted_raw _ _ _
      · rfl

theorem State.routineEnd_pwr : (s.routineEnd e l out).pwr = s.pwr := by
  unfold State.routineEnd State.unhold
  dsimp only
  split
  · rfl
  · split
    · split <;> rfl
    · split
      · exact State.acted_pwr _ _ _
      · rfl

theorem State.routinesEnd_regs : (s.routinesEnd e out).regs = s.regs :=
  s.foldl_keeps State.regs (fun t l => t.routineEnd_regs e l out) _

theorem State.routinesEnd_raw : (s.routinesEnd e out).raw = s.raw :=
  s.foldl_keeps State.raw (fun t l => t.routineEnd_raw e l out) _

theorem State.routinesEnd_pwr : (s.routinesEnd e out).pwr = s.pwr :=
  s.foldl_keeps State.pwr (fun t l => t.routineEnd_pwr e l out) _

theorem Engine.settled_at (x : Engine) (k : Nat) : x.settled.at_ k = x.at_ k := by
  unfold Engine.settled
  split
  · rfl
  · split <;> rfl

theorem Engine.settled_sect (x : Engine) : x.settled.sect = x.sect := by
  unfold Engine.settled
  split
  · rfl
  · split <;> rfl

/-- The end of a routine leaves its level empty and touches nothing else of the engines (R161). -/
theorem State.engine_routineEnd : (s.routineEnd e l out).engine e
    = match (s.engine e).at_ l with | none => s.engine e | some _ => ((s.engine e).setAt l none).settled := by
  unfold State.routineEnd State.unhold
  dsimp only
  cases (s.engine e).at_ l with
  | none => rfl
  | some r =>
    have h : (s.setEngine e ((s.engine e).setAt l none).settled).engine e = ((s.engine e).setAt l none).settled := by
      rw [State.engine_setEngine, if_pos rfl]
    dsimp only
    split
    · split <;> exact h
    · split
      · exact (State.engine_congr (State.acted_eng _ _ _) e).trans h
      · exact h

theorem State.at_routineEnd (k : Nat) :
    ((s.routineEnd e l out).engine e).at_ k = if k = l then none else (s.engine e).at_ k := by
  rw [State.engine_routineEnd]
  cases h : (s.engine e).at_ l with
  | none =>
    show (s.engine e).at_ k = _
    split
    · subst k; exact h
    · rfl
  | some r => exact (Engine.settled_at _ k).trans (Engine.at_setAt _ l k none)

theorem State.sect_routineEnd : ((s.routineEnd e l out).engine e).sect = (s.engine e).sect := by
  rw [State.engine_routineEnd]
  cases (s.engine e).at_ l with
  | none => rfl
  | some r => exact Engine.settled_sect _

theorem State.sect_routinesEnd : ((s.routinesEnd e out).engine e).sect = (s.engine e).sect :=
  s.foldl_keeps (fun t : State => (t.engine e).sect) (fun t l => t.sect_routineEnd e l out) _

/-- Ending the routines of some levels leaves those levels empty. -/
theorem State.at_foldl_routineEnd (k : Nat) (ls : List Nat) : ∀ t : State,
    ((ls.foldl (fun s l => s.routineEnd e l out) t).engine e).at_ k = if k ∈ ls then none else (t.engine e).at_ k := by
  induction ls with
  | nil => simp
  | cons a ls ih =>
    intro t
    rw [List.foldl_cons, ih, State.at_routineEnd]
    by_cases hk : k = a <;> simp [hk]

theorem State.at_routinesEnd (hl : l < 8) : ((s.routinesEnd e out).engine e).at_ l = none :=
  (State.at_foldl_routineEnd e out l (List.range 8) s).trans (if_pos (List.mem_range.mpr hl))

theorem State.dropSection_regs : (s.dropSection e).regs = s.regs := by
  unfold State.dropSection
  dsimp only
  split
  · rfl
  · exact s.foldl_keeps (f := fun s i => s.setSlot i { s.slot i with st := .free, place := .nowhere }) State.regs
      (fun _ _ => rfl) _

theorem State.dropSection_raw : (s.dropSection e).raw = s.raw := by
  unfold State.dropSection
  dsimp only
  split
  · rfl
  · exact s.foldl_keeps (f := fun s i => s.setSlot i { s.slot i with st := .free, place := .nowhere }) State.raw
      (fun _ _ => rfl) _

theorem State.dropSection_pwr : (s.dropSection e).pwr = s.pwr := by
  unfold State.dropSection
  dsimp only
  split
  · rfl
  · exact s.foldl_keeps (f := fun s i => s.setSlot i { s.slot i with st := .free, place := .nowhere }) State.pwr
      (fun _ _ => rfl) _

theorem State.sect_dropSection : ((s.dropSection e).engine e).sect = none := by
  unfold State.dropSection
  dsimp only
  cases h : (s.engine e).sect with
  | none => exact h
  | some c =>
    dsimp only
    rw [State.engine_setEngine, if_pos rfl]
    rfl

/-! ### The fault of a word -/

/-- The word of MEN.FAULT for a reserved code at a level and an address (R171). -/
def trapWord (l pc : Nat) : Word := word (efReserved * 2 ^ 28 + l * 2 ^ 24 + pc)

/-- What a fault writes into the books of its engine (R171). -/
def State.trapBooks (w : Word) : State :=
  let s := s.setReg (MEN.FAULT.REASON.off + pgAt e) w
  (s.bump MEN.CNT_EVT.LO 1 (pgAt e)).enIrq e MEN.IRQ_RAW.FAULT

/-- The fault's word, field by field. -/
theorem State.trapBooks_word {g : Fld} {pc : Nat} (hg : g.off = MEN.FAULT.REASON.off) (hl : l < 8) (hpc : pc < 8192) :
    (s.trapBooks e (trapWord l pc)).f g (pgAt e) = bitsAt (efReserved * 2 ^ 28 + l * 2 ^ 24 + pc) g.lo g.wid := by
  have h1 : g.off + pgAt e ≠ MEN.IRQ_RAW.FAULT.off + pgAt e := by rw [hg]; simp [MEN.FAULT.REASON, MEN.IRQ_RAW.FAULT]
  have h2 : g.off + pgAt e ≠ MEN.CNT_EVT.LO.off + pgAt e := by rw [hg]; simp [MEN.FAULT.REASON, MEN.CNT_EVT.LO]
  unfold State.trapBooks State.enIrq
  dsimp only
  rw [State.f_set1_eq, State.f_setF_other _ _ _ _ _ _ h1, State.f_bump_eq, State.f_setF_other _ _ _ _ _ _ h2, State.f, hg,
    State.reg_setReg, if_pos rfl]
  exact congrArg (bitsAt · g.lo g.wid) ((BitVec.toNat_ofNat _ 32).trans (Nat.mod_eq_of_lt (by unfold efReserved; omega)))

theorem State.trapBooks_count (w : Word) :
    (s.trapBooks e w).f MEN.CNT_EVT.LO (pgAt e) = counted s MEN.CNT_EVT.LO 1 (pgAt e) := by
  have h1 : MEN.CNT_EVT.LO.off + pgAt e ≠ MEN.IRQ_RAW.FAULT.off + pgAt e := by simp [MEN.CNT_EVT.LO, MEN.IRQ_RAW.FAULT]
  have h2 : MEN.FAULT.REASON.off + pgAt e ≠ MEN.CNT_EVT.LO.off + pgAt e := by simp [MEN.FAULT.REASON, MEN.CNT_EVT.LO]
  unfold State.trapBooks State.enIrq
  dsimp only
  rw [State.f_set1_eq, State.f_setF_other _ _ _ _ _ _ h1, State.f_bump_eq, State.f_setF_self _ _ _ _ (by decide), State.f,
    State.reg_setReg_ne _ _ _ _ h2.symm]
  exact State.counted_eq s MEN.CNT_EVT.LO (pgAt e) 1

theorem State.trapBooks_irq (w : Word) : (s.trapBooks e w).on MEN.IRQ_RAW.FAULT (pgAt e) = true := by
  unfold State.trapBooks State.enIrq
  dsimp only
  rw [State.on_eq, State.f_set1_eq, State.f_setF_self _ _ _ _ (by decide)]
  rfl

theorem State.trapBooks_pol (w : Word) : (s.trapBooks e w).enOn e MEN.CTL.FAULTPOL = s.enOn e MEN.CTL.FAULTPOL := by
  have h1 : MEN.CTL.FAULTPOL.off + pgAt e ≠ MEN.IRQ_RAW.FAULT.off + pgAt e := by simp [MEN.CTL.FAULTPOL, MEN.IRQ_RAW.FAULT]
  have h2 : MEN.CTL.FAULTPOL.off + pgAt e ≠ MEN.CNT_EVT.LO.off + pgAt e := by simp [MEN.CTL.FAULTPOL, MEN.CNT_EVT.LO]
  have h3 : MEN.CTL.FAULTPOL.off + pgAt e ≠ MEN.FAULT.REASON.off + pgAt e := by simp [MEN.CTL.FAULTPOL, MEN.FAULT.REASON]
  unfold State.trapBooks State.enIrq State.enOn
  dsimp only
  rw [State.on_eq, State.f_set1_eq, State.f_setF_other _ _ _ _ _ _ h1, State.f_bump_eq, State.f_setF_other _ _ _ _ _ _ h2, State.f,
    State.reg_setReg_ne _ _ _ _ h3]
  rfl

/-- Where the fault of a reserved code leads: its books, then the engine stopped or the routine ended, by FAULTPOL. -/
theorem State.engFault_reserved (pc : Nat) : s.engFault e l pc efReserved
    = if s.enOn e MEN.CTL.FAULTPOL then ((s.trapBooks e (trapWord l pc)).dropSection e).engStop e
      else ((s.trapBooks e (trapWord l pc)).dropSection e).routineEnd e l outDiscarded := by
  have hpol : ((s.trapBooks e (trapWord l pc)).dropSection e).enOn e MEN.CTL.FAULTPOL = s.enOn e MEN.CTL.FAULTPOL := by
    rw [← s.trapBooks_pol e (trapWord l pc)]
    unfold State.enOn State.on State.f State.reg
    rw [State.dropSection_regs]
  rw [← hpol]
  unfold State.engFault
  exact if_congr (or_iff_right (by decide)) rfl rfl

/-! ### An engine stopped by a fault -/

theorem Engine.stopped_at (x : Engine) : ({ x with st := .faulted, evs := [], dbs := [] } : Engine).at_ l = x.at_ l := rfl

theorem Engine.stopped_sect (x : Engine) : ({ x with st := .faulted, evs := [], dbs := [] } : Engine).sect = x.sect := rfl

theorem State.engine_fault (c : Nat) : (s.fault c).engine e = s.engine e := State.engine_congr rfl e

theorem State.raw_fault (c : Nat) : (s.fault c).raw = s.raw := rfl

theorem State.faults_fault (c : Nat) : (s.fault c).pwr.faults = s.pwr.faults ++ [c] := rfl

theorem State.engine_engStop : (s.engStop e).engine e
    = { (s.routinesEnd e outDiscarded).engine e with st := .faulted, evs := [], dbs := [] } := by
  unfold State.engStop
  dsimp only
  rw [State.engine_fault, State.engine_setEngine, if_pos rfl]

theorem State.f_engStop (g : Fld) (i : Nat) (h : g.off + i ≠ PWR.FLTSTS.FAULT.off) : (s.engStop e).f g i = s.f g i := by
  unfold State.engStop
  dsimp only
  rw [State.f_fault_eq, State.f_setF_other _ _ _ _ _ _ h, State.f_setEngine, State.f, State.reg, State.routinesEnd_regs]
  rfl

theorem State.raw_engStop : (s.engStop e).raw = s.raw := by
  unfold State.engStop
  dsimp only
  rw [State.raw_fault, State.setEngine_raw, State.routinesEnd_raw]

theorem State.faults_engStop : (s.engStop e).pwr.faults = s.pwr.faults ++ [3] := by
  unfold State.engStop
  dsimp only
  rw [State.faults_fault, State.setEngine_pwr, State.routinesEnd_pwr]

theorem State.at_engStop (hl : l < 8) : ((s.engStop e).engine e).at_ l = none := by
  rw [State.engine_engStop, Engine.stopped_at, State.at_routinesEnd s e l outDiscarded hl]

theorem State.sect_engStop : ((s.engStop e).engine e).sect = (s.engine e).sect := by
  rw [State.engine_engStop, Engine.stopped_sect, State.sect_routinesEnd]

section
variable (pc : Nat)

theorem State.trapBooks_keeps (w : Word) : (s.trapBooks e w).raw = s.raw ∧ (s.trapBooks e w).pwr = s.pwr := by
  unfold State.trapBooks State.enIrq
  simp only [State.set1_raw, State.bump_raw, State.setReg_raw, State.set1_pwr, State.bump_pwr, State.setReg_pwr, and_self]

/-- The books of a fault stand in the registers that it leaves, whatever the engine does next. -/
theorem State.f_engFault (g : Fld) (i : Nat) (h : g.off + i ≠ PWR.FLTSTS.FAULT.off) :
    (s.engFault e l pc efReserved).f g i = (s.trapBooks e (trapWord l pc)).f g i := by
  rw [State.engFault_reserved]
  split
  · rw [State.f_engStop _ _ _ _ h, State.f, State.reg, State.dropSection_regs]
    rfl
  · rw [State.f, State.reg, State.routineEnd_regs, State.dropSection_regs]
    rfl

theorem State.raw_engFault : (s.engFault e l pc efReserved).raw = s.raw := by
  rw [State.engFault_reserved, ← (s.trapBooks_keeps e (trapWord l pc)).1]
  split
  · rw [State.raw_engStop, State.dropSection_raw]
  · rw [State.routineEnd_raw, State.dropSection_raw]

theorem State.at_engFault (hl : l < 8) : ((s.engFault e l pc efReserved).engine e).at_ l = none := by
  rw [State.engFault_reserved]
  split
  · exact State.at_engStop _ _ _ hl
  · rw [State.at_routineEnd, if_pos rfl]

theorem State.sect_engFault : ((s.engFault e l pc efReserved).engine e).sect = none := by
  rw [State.engFault_reserved]
  split
  · rw [State.sect_engStop, State.sect_dropSection]
  · rw [State.sect_routineEnd, State.sect_dropSection]

theorem State.pwr_engFault_routine (h : s.enOn e MEN.CTL.FAULTPOL = false) : (s.engFault e l pc efReserved).pwr = s.pwr := by
  rw [State.engFault_reserved, if_neg (by rw [h]; exact Bool.false_ne_true), State.routineEnd_pwr, State.dropSection_pwr,
    (s.trapBooks_keeps e (trapWord l pc)).2]

theorem State.engFault_stops (h : s.enOn e MEN.CTL.FAULTPOL = true) : ((s.engFault e l pc efReserved).engine e).st = .faulted
    ∧ (s.engFault e l pc efReserved).pwr.faults = s.pwr.faults ++ [3] := by
  rw [State.engFault_reserved, if_pos h]
  constructor
  · rw [State.engine_engStop]
  · rw [State.faults_engStop, State.dropSection_pwr, (s.trapBooks_keeps e (trapWord l pc)).2]
end

/-! ### The word that is fetched -/

theorem State.fetch_of_fetches {pc m w c : Nat} (h : s.fetches e l pc m w c) :
    s.fetch e pc = { st := s, stall := 0, nano := w, bad := none } := by
  obtain ⟨-, -, -, -, -, -, hmic, hnan, hm, hw, -⟩ := h
  unfold State.fetch State.fetchNano State.micFix State.nanFix
  dsimp only
  simp only [hmic, hm, hnan, hw, zero_ne_one, OfNat.zero_ne_ofNat, if_false, Nat.add_zero]

theorem State.engWord_bad {e : EngineId} {pc m w c : Nat} (h : s.fetches e.val l pc m w c) (hb : wordBad m w = true) :
    s.engWord e wordBad = (s.advance c).wordTrap e.val l pc efReserved := by
  have hf := s.fetch_of_fetches e.val l h
  obtain ⟨-, hcl, hst, hsect, hruns, ⟨r, hat, hpc, hc⟩, -, -, hm, -, hstart⟩ := h
  unfold State.engWord
  dsimp only
  rw [if_neg (by rcases hsect with hs | hs <;> simp [hcl, hst, hs, Option.isNone_iff_eq_none])]
  simp only [hruns, hat, hpc, hf, hm, hstart, hb]
  rw [hc]
  rfl

/-- The state in which the fault of a reserved word leaves the machine. -/
def State.reservedTrap (e l pc c : Nat) : State :=
  ((s.advance c).setEngine e { (s.advance c).engine e with cur := l, next := (s.advance c).raw + 1 }).engFault e l pc efReserved

theorem execWordReserved_bad {e : EngineId} {pc m w c : Nat} (h : s.fetches e.val l pc m w c) (hb : wordBad m w = true) :
    execWordReserved e s = .next (settle (s.reservedTrap e.val l pc c)) := by
  unfold execWordReserved
  rw [if_pos h.1, s.engWord_bad l h hb]
  rfl

theorem State.raw_of_fetches {pc m w c : Nat} (h : s.fetches e l pc m w c) : (s.advance c).raw = c := by
  obtain ⟨-, -, -, -, -, ⟨r, -, -, hc⟩, -⟩ := h
  have hle : s.raw ≤ c := by rw [hc]; unfold Engine.wordAt; omega
  exact Nat.max_eq_right hle

/-- A fault is written into its own word, whose parts read back (R171). -/
theorem trapWord_fields (pc : Nat) (hl : l < 8) (hpc : pc < 8192) :
    bitsAt (efReserved * 2 ^ 28 + l * 2 ^ 24 + pc) 28 4 = efReserved ∧ bitsAt (efReserved * 2 ^ 28 + l * 2 ^ 24 + pc) 24 3 = l
      ∧ bitsAt (efReserved * 2 ^ 28 + l * 2 ^ 24 + pc) 0 13 = pc := by
  simp only [bitsAt_eq, efReserved]
  omega

end Sys2Proof.Machine
end

section
open Sys2Proof Sys2Proof.Machine

/-- Settles O29: the trap books the fault in its own registers, drops the section, and ends the routine or stops the engine. -/
theorem reservedWordsFault : Obligations.ReservedWordsFault := by
  unfold Obligations.ReservedWordsFault
  intro s e l pc m w c hf hb hl hpc
  obtain ⟨hreason, hlevel, hpcs⟩ := trapWord_fields l pc hl hpc
  have hapart : ∀ g : Fld, 0x180000 ≤ g.off → g.off + pgAt e.val ≠ PWR.FLTSTS.FAULT.off := fun g h => by
    have : PWR.FLTSTS.FAULT.off = 0x1058 := rfl
    omega
  refine ⟨s.reservedTrap e.val l pc c, execWordReserved_bad s l hf hb, ?_, ?_, ?_, ?_, ?_, ?_, ?_, ?_, ?_, ?_⟩ <;>
    unfold State.reservedTrap
  · rw [State.enF, State.f_engFault _ _ _ _ _ _ (hapart _ (by decide)), State.trapBooks_word (g := MEN.FAULT.REASON) _ _ _ rfl hl hpc]
    exact hreason
  · rw [State.enF, State.f_engFault _ _ _ _ _ _ (hapart _ (by decide)), State.trapBooks_word (g := MEN.FAULT.LEVEL) _ _ _ rfl hl hpc]
    exact hlevel
  · rw [State.enF, State.f_engFault _ _ _ _ _ _ (hapart _ (by decide)), State.trapBooks_word (g := MEN.FAULT.PC) _ _ _ rfl hl hpc]
    exact hpcs
  · rw [State.f_engFault _ _ _ _ _ _ (hapart _ (by decide)), State.trapBooks_count]
    rfl
  · rw [State.on_eq, State.f_engFault _ _ _ _ _ _ (hapart _ (by decide)), ← State.on_eq, State.trapBooks_irq]
  · exact State.at_engFault _ _ _ _ hl
  · exact State.sect_engFault _ _ _ _
  · rw [State.raw_engFault]
    exact s.raw_of_fetches _ _ hf
  · exact fun h => State.pwr_engFault_routine _ _ _ _ h
  · exact fun h => State.engFault_stops _ _ _ _ h

end

section
/-! PROOFS. The phases of the background test (R274 to R278, R280). -/

namespace Sys2Proof.Machine

variable (s : State)

section
variable (m : Mem) (c : Nat) (q : Seen) (r : SMap Word) (g : Fld) (v i : Nat)

theorem State.books_setF : { s.setF g v i with raw := c, mem := m, seenNow := q, regs := r }
    = { s with raw := c, mem := m, seenNow := q, regs := r } := rfl

theorem State.books_set1 : { s.set1 g i with raw := c, mem := m, seenNow := q, regs := r }
    = { s with raw := c, mem := m, seenNow := q, regs := r } := rfl

theorem State.books_incr : { s.incr g i with raw := c, mem := m, seenNow := q, regs := r }
    = { s with raw := c, mem := m, seenNow := q, regs := r } := rfl
end

/-! ### The copy's end -/

/-- The cycle after the copy's last word is written. -/
def State.copyEnd : Nat := max s.raw (s.mem.copyAt + if s.mem.copyReg.isSome then 2 else 1)

theorem State.copyDone_none (h : s.mem.copyReg = none) : s.copyDone = { s with raw := s.copyEnd } := by
  unfold State.copyDone State.copyEnd State.advance
  simp only [h, Option.isSome_none, Bool.false_eq_true, if_false]

section
variable (k : Nat) (v : Word) (e : Nat)

/-- The memories once the copy's last word stands in the relief. -/
def Mem.copied (m : Mem) : Mem :=
  { m with copyReg := none, copyAt := m.copyAt + 1, relief := SMap.put (fun _ => 0) m.relief k v
           ecc := SMap.put (fun _ => 0) (SMap.put (fun _ => 0) m.ecc (eccKey stRelief k) 0) (eccKey stRelief k) e }

/-- The memories once the copy's last word stands in the home bank. -/
def Mem.restored (m : Mem) : Mem :=
  let i := m.bgtSid * 32768 + k
  { m with copyReg := none, copyAt := m.copyAt + 1, log := SMap.put (fun _ => 0) m.log i v
           ecc := SMap.put (fun _ => 0) (SMap.put (fun _ => 0) m.ecc (eccKey stLog i) 0) (eccKey stLog i) e }

theorem State.copyEnd_some (h : s.mem.copyReg = some (k, v, e)) :
    max (max s.raw (s.mem.copyAt + 1)) (s.mem.copyAt + 1 + 1) = s.copyEnd := by
  unfold State.copyEnd
  rw [h, Option.isSome_some, if_pos rfl]
  omega

theorem State.copyDone_copied (h : s.mem.copyReg = some (k, v, e)) (hp : s.mem.bgtPhase = 0) :
    s.copyDone = { s with raw := s.copyEnd, mem := s.mem.copied k v e } := by
  rw [← s.copyEnd_some k v e h]
  unfold State.copyDone State.copyFlush State.advance State.putRelief State.setEcc Mem.copied
  simp only [h, hp, Option.isSome_some, if_true]

theorem State.copyDone_restored (h : s.mem.copyReg = some (k, v, e)) (hp : s.mem.bgtPhase = 2) :
    s.copyDone = { s with raw := s.copyEnd, mem := s.mem.restored k v e } := by
  rw [← s.copyEnd_some k v e h]
  unfold State.copyDone State.copyFlush State.advance State.putHome State.setEcc Mem.restored
  simp only [h, hp, Option.isSome_some, if_true, OfNat.ofNat_ne_zero, if_false]
end

/-- What the copy's end leaves as it was: all but the clock and the memories, and of these the bank copied from. -/
theorem State.copyDone_keeps (hp : s.mem.bgtPhase = 0 ∨ s.mem.bgtPhase = 2) :
    ∃ m : Mem, s.copyDone = { s with raw := s.copyEnd, mem := m } ∧ m.bgtSid = s.mem.bgtSid ∧ m.copyReg = none
      ∧ (s.mem.bgtPhase = 0 → m.log = s.mem.log
        ∧ ∀ p, s.mem.copyReg = some p → SMap.get (fun _ => 0) m.relief p.1 = p.2.1
          ∧ SMap.get (fun _ => 0) m.ecc (eccKey stRelief p.1) = p.2.2)
      ∧ (s.mem.bgtPhase = 2 → m.relief = s.mem.relief
        ∧ ∀ p, s.mem.copyReg = some p → SMap.get (fun _ => 0) m.log (s.mem.bgtSid * 32768 + p.1) = p.2.1
          ∧ SMap.get (fun _ => 0) m.ecc (eccKey stLog (s.mem.bgtSid * 32768 + p.1)) = p.2.2) := by
  cases h : s.mem.copyReg with
  | none =>
    refine ⟨s.mem, s.copyDone_none h, rfl, h, fun _ => ⟨rfl, ?_⟩, fun _ => ⟨rfl, ?_⟩⟩ <;> simp
  | some q =>
    obtain ⟨k, v, e⟩ := q
    rcases hp with hp | hp
    · refine ⟨s.mem.copied k v e, s.copyDone_copied k v e h hp, rfl, rfl, fun _ => ⟨rfl, ?_⟩, by simp [hp]⟩
      rintro p ⟨⟩
      exact ⟨(SMap.get_put _ _ _ _ _).trans (if_pos rfl), (SMap.get_put _ _ _ _ _).trans (if_pos rfl)⟩
    · refine ⟨s.mem.restored k v e, s.copyDone_restored k v e h hp, rfl, rfl, by simp [hp], fun _ => ⟨rfl, ?_⟩⟩
      rintro p ⟨⟩
      exact ⟨(SMap.get_put _ _ _ _ _).trans (if_pos rfl), (SMap.get_put _ _ _ _ _).trans (if_pos rfl)⟩

/-! ### The march -/

theorem State.get_zeroHome (d i : Nat) :
    SMap.get (fun _ => 0) (s.zeroHome d).mem.log i = if i / 32768 = d then 0 else SMap.get (fun _ => (0 : Word)) s.mem.log i := by
  refine (SMap.get_filter (fun _ => (0 : Word)) (fun k => decide (k / 32768 ≠ d)) s.mem.log i).trans ?_
  by_cases h : i / 32768 = d <;> simp [h]

/-- A march that passes: the bank is zero, and the restore begins (R276). -/
def State.marchPassed : State :=
  let s := (s.advance s.mem.testEnds).zeroHome s.mem.bgtSid
  { s with mem := { s.mem with bgtPhase := 2, bgtPtr := 0, copyReg := none, copyAt := s.raw - 1 } }

/-- A siding that fails its march is retired (R277), before the flags are set. -/
def State.marchRetired : State :=
  let t := (s.advance s.mem.testEnds).zeroHome s.mem.bgtSid
  { t with mem := { t.mem with bgtPhase := 3, retired := some s.mem.bgtSid } }

/-- A march that fails: the siding retired, with its flags and its fault (R277). -/
def State.marchFailed : State :=
  (((s.marchRetired.set1 MEM.IRQ_RAW.BGT_FAIL).set1 MEM.STS.RETIRED).setF MEM.BGT_STS.RSIDING s.mem.bgtSid).fault 0x08

theorem execBgtTestEnd_passed (hp : s.mem.bgtPhase = 1) (hm : s.mode ≠ .halt) :
    execBgtTestEnd true s = .next (settle s.marchPassed) := by
  unfold execBgtTestEnd
  rw [if_pos (by simp [hp, hm])]
  rfl

theorem execBgtTestEnd_failed (hp : s.mem.bgtPhase = 1) (hm : s.mode ≠ .halt) :
    execBgtTestEnd false s = .next (settle s.marchFailed) := by
  unfold execBgtTestEnd
  rw [if_pos (by simp [hp, hm])]
  rfl

theorem State.marchFailed_fail : s.marchFailed.on MEM.IRQ_RAW.BGT_FAIL = true := by
  unfold State.marchFailed
  rw [State.on_eq, State.f_fault_eq, State.f_setF_other _ _ _ _ _ _ (by decide), State.f_setF_other _ _ _ _ _ _ (by decide),
    State.f_set1_eq, State.f_setF_other _ _ _ _ _ _ (by decide), State.f_set1_eq, State.f_setF_self _ _ _ _ (by decide)]
  rfl

theorem State.marchFailed_retired : s.marchFailed.on MEM.STS.RETIRED = true := by
  unfold State.marchFailed
  rw [State.on_eq, State.f_fault_eq, State.f_setF_other _ _ _ _ _ _ (by decide), State.f_setF_other _ _ _ _ _ _ (by decide),
    State.f_set1_eq, State.f_setF_self _ _ _ _ (by decide)]
  rfl

theorem State.marchFailed_sid : s.marchFailed.f MEM.BGT_STS.RSIDING = s.mem.bgtSid % 2 ^ MEM.BGT_STS.RSIDING.wid := by
  unfold State.marchFailed
  rw [State.f_fault_eq, State.f_setF_other _ _ _ _ _ _ (by decide), State.f_setF_self _ _ _ _ (by decide)]

theorem State.marchFailed_keeps : s.marchFailed.raw = max s.raw s.mem.testEnds ∧ s.marchFailed.mem = s.marchRetired.mem
    ∧ s.marchFailed.pwr.faults = s.pwr.faults ++ [8]
    ∧ { s.marchFailed with raw := s.raw, mem := s.mem, seenNow := s.seenNow, regs := s.regs, pwr := s.pwr } = s := by
  unfold State.marchFailed
  exact ⟨rfl, rfl, rfl, rfl⟩

/-! ### The restore's end -/

/-- The rotation counted where the restored siding is the last (R278). -/
def State.rotated : State := if s.mem.bgtSid = 15 then (s.incr MEM.BGT_ROT.V).set1 MEM.IRQ_RAW.ROTATION else s

/-- Where the restore's end leads: the next siding, or a stop (R278). -/
def State.restoreEnds : State :=
  if s.on MEM.BGT.EN then s.bgtNext else { s with mem := { s.mem with bgtPhase := 3, bgtPtr := 0 } }

theorem execBgtRestoreEnd_over (h : s.copyOver 2 = true) :
    execBgtRestoreEnd s = .next (settle s.copyDone.rotated.restoreEnds) := by
  unfold execBgtRestoreEnd State.restoreEnds
  rw [if_pos h]
  dsimp only
  by_cases hen : s.copyDone.rotated.on MEM.BGT.EN = true
  · rw [if_pos hen]
    exact if_pos hen
  · rw [if_neg hen]
    exact if_neg hen

theorem State.rotated_keeps : s.rotated.raw = s.raw ∧ s.rotated.mem = s.mem
    ∧ ∀ (m : Mem) (c : Nat) (q : Seen) (r : SMap Word), { s.rotated with raw := c, mem := m, seenNow := q, regs := r }
      = { s with raw := c, mem := m, seenNow := q, regs := r } := by
  unfold State.rotated
  split
  · refine ⟨?_, ?_, fun m c q r => ?_⟩
    · rw [State.set1_raw, State.incr_raw]
    · rw [State.set1_mem, State.incr_mem]
    · rw [State.books_set1, State.books_incr]
  · exact ⟨rfl, rfl, fun _ _ _ _ => rfl⟩

theorem State.rotated_en : s.rotated.on MEM.BGT.EN = s.on MEM.BGT.EN := by
  unfold State.rotated
  split
  · rw [State.on_eq, State.f_set1_eq, State.f_setF_other _ _ _ _ _ _ (by decide), State.f_incr_eq,
      State.f_setF_other _ _ _ _ _ _ (by decide), ← State.on_eq]
  · rfl

theorem State.rotated_last (h : s.mem.bgtSid = 15) : s.rotated.on MEM.IRQ_RAW.ROTATION = true := by
  unfold State.rotated
  rw [if_pos h, State.on_eq, State.f_set1_eq, State.f_setF_self _ _ _ _ (by decide)]
  rfl

theorem State.rotated_other (h : s.mem.bgtSid ≠ 15) : s.rotated = s := if_neg h

theorem State.restoreEnds_regs : s.restoreEnds.regs = s.regs := by
  unfold State.restoreEnds
  split <;> rfl

theorem State.restoreEnds_keeps : s.restoreEnds.raw = s.raw ∧ s.restoreEnds.mem.log = s.mem.log
    ∧ s.restoreEnds.mem.relief = s.mem.relief ∧ s.restoreEnds.mem.ecc = s.mem.ecc
    ∧ ∀ (m : Mem) (c : Nat) (q : Seen) (r : SMap Word), { s.restoreEnds with raw := c, mem := m, seenNow := q, regs := r }
      = { s with raw := c, mem := m, seenNow := q, regs := r } := by
  unfold State.restoreEnds
  split <;> exact ⟨rfl, rfl, rfl, rfl, fun _ _ _ _ => rfl⟩

theorem State.restoreEnds_next (h : s.on MEM.BGT.EN = true) : s.restoreEnds = s.bgtNext := if_pos h

theorem State.restoreEnds_stop (h : s.on MEM.BGT.EN = false) :
    s.restoreEnds = { s with mem := { s.mem with bgtPhase := 3, bgtPtr := 0 } } := if_neg (by rw [h]; exact Bool.false_ne_true)

/-! ### The enable -/

/-- What a change logged leaves of the memories: all but the logbook's words, their marks and their bank's cycle (R341). -/
theorem State.mem_log {α : Type} (part : Mem → α) (h : ∀ m b c k, part { m with book := b, ecc := c, bankAt := k } = part m)
    (kind : Nat) (role : Role) (req result addr old new : Nat) :
    part (s.log kind role req result addr old new).mem = part s.mem := by
  unfold State.log State.logAt
  dsimp only
  split <;> simp only [State.set1_mem, State.bump_mem, State.setF_mem] <;> exact h _ _ _ _

theorem State.raw_log (kind : Nat) (role : Role) (req result addr old new : Nat) :
    (s.log kind role req result addr old new).raw = s.raw := by
  unfold State.log State.logAt
  dsimp only
  split <;> simp only [State.set1_raw, State.bump_raw, State.setF_raw]

/-- A field of no register of the logbook reads as before after a change is logged. -/
theorem State.f_log (kind : Nat) (role : Role) (req result addr old new : Nat) (g : Fld) (i : Nat)
    (h : g.off + i ∉ [adr SEC.LOGPOS.V, adr SEC.LOGLOST.V, adr SEC.IRQ_RAW.LOG_OVW]) :
    (s.log kind role req result addr old new).f g i = s.f g i := by
  simp only [List.mem_cons, List.not_mem_nil, or_false, not_or] at h
  obtain ⟨hpos, hlost, hovw⟩ := h
  unfold State.log State.logAt
  dsimp only
  split
  · rw [State.f_withHst, State.f_set1_eq, State.f_setF_other _ _ _ _ _ _ hovw, State.f_bump_eq, State.f_setF_other _ _ _ _ _ _ hlost,
      State.f_setF_other _ _ _ _ _ _ hpos, State.f_withMem]
  · rw [State.f_setF_other _ _ _ _ _ _ hpos, State.f_withMem]

/-- EN written and the change logged. -/
def State.bgtEnWritten (r : Requester) (v : Word) : State :=
  (s.setF MEM.BGT.EN (bitsAt v.toNat 31 1)).log 1 ((s.setF MEM.BGT.EN (bitsAt v.toNat 31 1)).role r) r.id 0 MEM.BGT.EN.off
    (s.reg MEM.BGT.EN.off).toNat ((s.setF MEM.BGT.EN (bitsAt v.toNat 31 1)).reg MEM.BGT.EN.off).toNat

/-- EN = 1 starts the copy of the next siding where the test has stopped and no siding is retired (R278). -/
def State.bgtEnStarts : State :=
  if s.on MEM.BGT.EN && s.mem.bgtPhase = 3 && !s.on MEM.STS.RETIRED then s.bgtNext else s

theorem bit31_eq (v : Word) (n : Nat) (hn : n < 2) : bitsAt v.toNat 31 1 = n ↔ v.getLsbD 31 = decide (n ≠ 0) := by
  have hb : bitsAt v.toNat 31 1 = (v.getLsbD 31).toNat := by
    rw [bitsAt_eq, BitVec.getLsbD, Nat.testBit_eq_decide_div_mod_eq]
    have : v.toNat / 2 ^ 31 % 2 < 2 := Nat.mod_lt _ (by decide)
    interval_cases h : v.toNat / 2 ^ 31 % 2 <;> simp_all
  rw [hb]
  interval_cases n <;> cases v.getLsbD 31 <;> decide

theorem State.bgtEn_unchanged {v : Word} : bitsAt v.toNat 31 1 = s.f MEM.BGT.EN ↔ s.on MEM.BGT.EN = v.getLsbD 31 := by
  rw [bit31_eq v _ (s.f_lt MEM.BGT.EN 0), State.on_eq]
  exact eq_comm

theorem State.bgtEn_same (r : Requester) {v : Word} (h : s.on MEM.BGT.EN = v.getLsbD 31) : s.bgtEn r v = s :=
  if_pos (s.bgtEn_unchanged.mpr h)

theorem State.bgtEn_operator (r : Requester) {v : Word} (h : s.on MEM.BGT.EN ≠ v.getLsbD 31) (hr : s.hasRole r .maker = false) :
    s.bgtEn r v = s.discard MEM.BGT.EN.off r .role := by
  unfold State.bgtEn
  rw [if_neg (mt s.bgtEn_unchanged.mp h), if_neg (by rw [hr]; exact Bool.false_ne_true)]

theorem State.bgtEn_maker (r : Requester) {v : Word} (h : s.on MEM.BGT.EN ≠ v.getLsbD 31) (hr : s.hasRole r .maker = true) :
    s.bgtEn r v = (s.bgtEnWritten r v).bgtEnStarts := by
  unfold State.bgtEn
  rw [if_neg (mt s.bgtEn_unchanged.mp h), if_pos hr]
  rfl

theorem State.bgtEnWritten_en (r : Requester) (v : Word) : (s.bgtEnWritten r v).on MEM.BGT.EN = v.getLsbD 31 := by
  have hw : bitsAt v.toNat 31 1 < 2 := by rw [bitsAt_eq]; exact Nat.mod_lt _ (by decide)
  unfold State.bgtEnWritten
  rw [State.on_eq, State.f_log _ _ _ _ _ _ _ _ _ _ (by decide), State.f_setF_self _ _ _ _ (by decide),
    Nat.mod_eq_of_lt (show _ < 2 ^ MEM.BGT.EN.wid from hw)]
  exact ((bit31_eq v _ hw).mp rfl).symm

theorem State.bgtEnWritten_retired (r : Requester) (v : Word) :
    (s.bgtEnWritten r v).on MEM.STS.RETIRED = s.on MEM.STS.RETIRED := by
  unfold State.bgtEnWritten
  rw [State.on_eq, State.f_log _ _ _ _ _ _ _ _ _ _ (by decide), State.f_setF_other _ _ _ _ _ _ (by decide), ← State.on_eq]

theorem State.bgtEnWritten_raw (r : Requester) (v : Word) : (s.bgtEnWritten r v).raw = s.raw := by
  unfold State.bgtEnWritten
  rw [State.raw_log, State.setF_raw]

theorem State.bgtEnWritten_mem {α : Type} (part : Mem → α)
    (h : ∀ m b c k, part { m with book := b, ecc := c, bankAt := k } = part m) (r : Requester) (v : Word) :
    part (s.bgtEnWritten r v).mem = part s.mem := by
  unfold State.bgtEnWritten
  rw [State.mem_log _ part h, State.setF_mem]

theorem State.bgtEnStarts_regs : s.bgtEnStarts.regs = s.regs := by
  unfold State.bgtEnStarts
  split <;> rfl

theorem State.bgtEnStarts_keeps : s.bgtEnStarts.raw = s.raw ∧ s.bgtEnStarts.mem.log = s.mem.log
    ∧ s.bgtEnStarts.mem.relief = s.mem.relief ∧ s.bgtEnStarts.regs = s.regs := by
  unfold State.bgtEnStarts
  split <;> exact ⟨rfl, rfl, rfl, rfl⟩

theorem State.bgtEnStarts_starts (he : s.on MEM.BGT.EN = true) (hp : s.mem.bgtPhase = 3) (hr : s.on MEM.STS.RETIRED = false) :
    s.bgtEnStarts = s.bgtNext := if_pos (by simp [he, hp, hr])

theorem State.bgtEnStarts_not (h : s.on MEM.BGT.EN = false ∨ s.mem.bgtPhase ≠ 3 ∨ s.on MEM.STS.RETIRED = true) :
    s.bgtEnStarts = s := if_neg (by rcases h with h | h | h <;> simp [h])

/-! ### The abort -/

theorem Wait.aborted_dma (w : Wait) (now : Nat) {x : Wait} (h : w.aborted now = some x) (hx : x.kind.isDma = true) :
    x.since = now ∧ x.counted = false ∧ ∀ tag, x.kind ≠ .dma tag := by
  unfold Wait.aborted at h
  split at h
  · cases h
  · next hk =>
    split at h
    · cases h
      exact ⟨rfl, rfl, fun tag => hk tag⟩
    · next hd =>
      cases h
      exact absurd hx hd

/-- An abort leaves the accesses that are no DMA as they wait. -/
theorem Wait.filter_aborted (now : Nat) (ws : List Wait) :
    (ws.filterMap (fun w => w.aborted now)).filter (fun w => !w.kind.isDma) = ws.filter (fun w => !w.kind.isDma) := by
  induction ws with
  | nil => rfl
  | cons w ws ih =>
    rw [List.filterMap_cons, List.filter_cons]
    unfold Wait.aborted at ih ⊢
    split
    · next hn =>
      have hd : w.kind.isDma = true := by
        split at hn
        · next h => rw [h]; rfl
        · split at hn
          · assumption
          · cases hn
      simpa [hd] using ih
    · next x hx =>
      split at hx
      · cases hx
      · split at hx
        · next hd =>
          cases hx
          simpa [hd] using ih
        · next hd =>
          cases hx
          simpa [hd] using ih

theorem execMemAbort_aborting (h : s.aborting MEM.page.base = true) : execMemAbort s = .next (settle s.memAbort) := done_if_pos _ _ _ h

theorem State.memAbort_regs : s.memAbort.reg MEM.COLLIDE0.REQ.off = 0 ∧ s.memAbort.reg MEM.COLLIDE1.DEP.off = 0
    ∧ s.memAbort.reg MEM.UECAP.VALID.off = 0
    ∧ RegsBut s s.memAbort [MEM.COLLIDE0.REQ.off, MEM.COLLIDE1.DEP.off, MEM.UECAP.VALID.off] := by
  unfold State.memAbort
  dsimp only
  refine ⟨?_, ?_, ?_, ?_⟩
  · rw [State.reg_setReg_ne _ _ _ _ (by decide), State.reg_setReg_ne _ _ _ _ (by decide), State.reg_setReg, if_pos rfl]
  · rw [State.reg_setReg_ne _ _ _ _ (by decide), State.reg_setReg, if_pos rfl]
  · rw [State.reg_setReg, if_pos rfl]
  · exact ((((RegsBut.refl s _).of_regs rfl).setReg (by simp)).setReg (by simp)).setReg (by simp)

theorem State.memAbort_waits : s.memAbort.mem.waits = s.mem.waits.filterMap (fun w => w.aborted s.raw) := rfl

theorem State.memAbort_frame : { s.memAbort with regs := s.regs, mem := { s.memAbort.mem with waits := s.mem.waits } } = s := rfl

/-! ### Where nothing happens -/

theorem execBgtCopyEnd_not (h : s.copyOver 0 = false) : execBgtCopyEnd s = .next (settle s) := by
  unfold execBgtCopyEnd
  rw [if_neg (by rw [h]; exact Bool.false_ne_true)]
  rfl

theorem execBgtRestoreEnd_not (h : s.copyOver 2 = false) : execBgtRestoreEnd s = .next (settle s) := by
  unfold execBgtRestoreEnd
  rw [if_neg (by rw [h]; exact Bool.false_ne_true)]
  rfl

theorem execBgtTestEnd_not (passed : Bool) (h : s.mem.bgtPhase ≠ 1 ∨ s.mode = .halt) : execBgtTestEnd passed s = .next (settle s) := by
  unfold execBgtTestEnd
  rw [if_neg (by rcases h with h | h <;> simp [h])]
  rfl

theorem execMemAbort_not (h : s.aborting MEM.page.base = false) : execMemAbort s = .next (settle s) := by
  unfold execMemAbort
  rw [if_neg (by rw [h]; exact Bool.false_ne_true)]
  rfl

/-- Service on the relief, and the march begun (R274, R276). -/
def State.testBegins : State := { s with mem := { s.mem with bgtPhase := 1, bgtPtr := 0, testEnds := s.raw + 327680 } }

theorem execBgtCopyEnd_over (h : s.copyOver 0 = true) : execBgtCopyEnd s = .next (settle s.copyDone.testBegins) := by
  unfold execBgtCopyEnd
  rw [if_pos h]
  rfl

theorem State.phase_of_copyOver {p : Nat} (h : s.copyOver p = true) : s.mem.bgtPhase = p := by
  unfold State.copyOver at h
  simp only [Bool.and_eq_true, decide_eq_true_eq] at h
  exact h.1.1

end Sys2Proof.Machine
end

section
open Sys2Proof Sys2Proof.Machine

/-- Settles O40: the copy's end, the march, the restore's end, the enable and the abort, each by what it leaves. -/
theorem backgroundTest : Obligations.BackgroundTest := by
  unfold Obligations.BackgroundTest
  refine ⟨fun s => ⟨execBgtCopyEnd_not s, execBgtRestoreEnd_not s, fun h passed => execBgtTestEnd_not s passed h⟩, fun s h => ?_,
    fun s passed hp hm => ?_, fun s h => ?_, fun s r v ho => ⟨fun h => ?_, fun h hr => ?_, fun h hr => ?_⟩, execMemAbort_not,
    fun s h => ?_⟩
  · obtain ⟨m, hm, hsid, hreg, hcopied, -⟩ := s.copyDone_keeps (.inl (s.phase_of_copyOver h))
    obtain ⟨hlog, hword⟩ := hcopied (s.phase_of_copyOver h)
    refine ⟨s.copyDone.testBegins, execBgtCopyEnd_over s h, ?_⟩
    rw [hm]
    exact ⟨rfl, rfl, hreg, rfl, rfl, hsid, hword, hlog, rfl⟩
  · have hz : ∀ i, SMap.get (fun _ => 0) s.marchPassed.mem.log i
        = if i / 32768 = s.mem.bgtSid then 0 else SMap.get (fun _ => (0 : Word)) s.mem.log i :=
      (s.advance s.mem.testEnds).get_zeroHome s.mem.bgtSid
    cases passed with
    | true =>
      exact ⟨s.marchPassed, execBgtTestEnd_passed s hp hm, rfl, fun i hi => (hz i).trans (if_pos hi), rfl,
        fun i hi => (hz i).trans (if_neg hi), fun _ => ⟨rfl, rfl, rfl, rfl⟩, nofun⟩
    | false =>
      obtain ⟨hraw, hmem, hfaults, hframe⟩ := s.marchFailed_keeps
      refine ⟨s.marchFailed, execBgtTestEnd_failed s hp hm, hraw, ?_⟩
      rw [hmem]
      exact ⟨fun i hi => (hz i).trans (if_pos hi), rfl, fun i hi => (hz i).trans (if_neg hi), nofun, fun _ =>
        ⟨rfl, rfl, s.marchFailed_fail, s.marchFailed_retired,
          fun h16 => s.marchFailed_sid.trans (Nat.mod_eq_of_lt h16), hfaults, hframe⟩⟩
  · obtain ⟨m, hm, hsid, -, -, hrestored⟩ := s.copyDone_keeps (.inr (s.phase_of_copyOver h))
    obtain ⟨hrelief, hword⟩ := hrestored (s.phase_of_copyOver h)
    obtain ⟨hraw, hmem, hframe⟩ := s.copyDone.rotated_keeps
    obtain ⟨hraw', hlog', hrelief', hecc', hframe'⟩ := s.copyDone.rotated.restoreEnds_keeps
    have hsid' : s.copyDone.mem.bgtSid = s.mem.bgtSid := by rw [hm]; exact hsid
    have hen : s.copyDone.rotated.on MEM.BGT.EN = s.on MEM.BGT.EN := by rw [State.rotated_en, hm]; rfl
    refine ⟨s.copyDone.rotated.restoreEnds, execBgtRestoreEnd_over s h, ?_, fun he => ?_, fun he => ?_, fun p hpr => ?_, fun hl => ?_,
      fun hl => ?_, ?_, ?_⟩
    · rw [hraw', hraw, hm]
      rfl
    · rw [State.restoreEnds_next _ (hen.trans he)]
      unfold State.bgtNext
      rw [hmem, hsid']
      exact ⟨rfl, rfl, rfl, rfl⟩
    · rw [State.restoreEnds_stop _ (hen.trans he)]
      exact ⟨rfl, by rw [← hsid', ← hmem]⟩
    · rw [State.ecc, hlog', hecc', hmem, hm]
      exact hword p hpr
    · rw [State.on_eq, State.f, State.reg, State.restoreEnds_regs]
      exact s.copyDone.rotated_last (hsid'.trans hl)
    · rw [State.restoreEnds_regs, State.rotated_other _ (hsid' ▸ hl), hm]
    · rw [hrelief', hmem, hm]
      exact hrelief
    · rw [hframe', hframe, hm]
  · exact (write_opens s r _ _ ho).trans (by rw [s.bgtEn_same r h])
  · exact (write_opens s r _ _ ho).trans (by rw [s.bgtEn_operator r h hr])
  · obtain ⟨hraw, hlog, hrelief, -⟩ := (s.bgtEnWritten r v).bgtEnStarts_keeps
    refine ⟨(s.bgtEnWritten r v).bgtEnStarts, (write_opens s r _ _ ho).trans (by rw [s.bgtEn_maker r h hr]), ?_, fun hv hp hret => ?_,
      fun hn => ?_, ?_, ?_, ?_⟩
    · rw [← s.bgtEnWritten_en r v, State.on_eq, State.f, State.reg, State.bgtEnStarts_regs]
      rfl
    · rw [State.bgtEnStarts_starts _ ((s.bgtEnWritten_en r v).trans hv)
        ((s.bgtEnWritten_mem Mem.bgtPhase (fun _ _ _ _ => rfl) r v).trans hp) ((s.bgtEnWritten_retired r v).trans hret)]
      exact ⟨rfl, by rw [← s.bgtEnWritten_mem Mem.bgtSid (fun _ _ _ _ => rfl) r v]; rfl, rfl, rfl⟩
    · rw [← s.bgtEnWritten_en r v, ← s.bgtEnWritten_mem Mem.bgtPhase (fun _ _ _ _ => rfl) r v,
        ← s.bgtEnWritten_retired r v] at hn
      rw [State.bgtEnStarts_not _ hn]
      exact ⟨s.bgtEnWritten_mem Mem.bgtPhase (fun _ _ _ _ => rfl) r v, s.bgtEnWritten_mem Mem.bgtSid (fun _ _ _ _ => rfl) r v,
        s.bgtEnWritten_mem Mem.bgtPtr (fun _ _ _ _ => rfl) r v⟩
    · exact hlog.trans (s.bgtEnWritten_mem Mem.log (fun _ _ _ _ => rfl) r v)
    · exact hrelief.trans (s.bgtEnWritten_mem Mem.relief (fun _ _ _ _ => rfl) r v)
    · exact hraw.trans (s.bgtEnWritten_raw r v)
  · exact ⟨s.memAbort, execMemAbort_aborting s h, s.memAbort_regs.1, s.memAbort_regs.2.1, s.memAbort_regs.2.2.1,
      s.memAbort_regs.2.2.2, Wait.filter_aborted s.raw s.mem.waits, fun w hw hd => by
        rw [s.memAbort_waits] at hw
        obtain ⟨x, -, hx⟩ := List.mem_filterMap.mp hw
        exact x.aborted_dma s.raw hx hd, s.memAbort_frame⟩

end

section
/-! PROOFS. Nonces, tokens, sessions and lockouts (R337 to R339). -/

namespace Sys2Proof.Machine

variable (s : State)

/-! ### What a change logged leaves (R341) -/

section
variable (kind : Nat) (role : Role) (req result addr old new : Nat)

theorem State.sec_log : (s.log kind role req result addr old new).sec = s.sec := by
  unfold State.log State.logAt
  dsimp only
  split <;> simp only [State.set1_sec, State.bump_sec, State.setF_sec]

theorem State.trk_log : (s.log kind role req result addr old new).trk = s.trk := by
  unfold State.log State.logAt
  dsimp only
  split <;> simp only [State.set1_trk, State.bump_trk, State.setF_trk]

/-- A change logged moves the logbook's end on by one entry. -/
theorem State.logpos_log : (s.log kind role req result addr old new).f SEC.LOGPOS.V = (s.f SEC.LOGPOS.V + 1) % 2 ^ 32 := by
  have hself : ∀ m : Mem, (({ s with mem := m } : State).setF SEC.LOGPOS.V (s.f SEC.LOGPOS.V + 1)).f SEC.LOGPOS.V
      = (s.f SEC.LOGPOS.V + 1) % 2 ^ 32 := fun m => State.f_setF_self _ _ _ _ (by decide)
  unfold State.log State.logAt
  dsimp only
  split
  · rw [State.f_withHst, State.f_set1_eq, State.f_setF_other _ _ _ _ _ _ (by decide), State.f_bump_eq,
      State.f_setF_other _ _ _ _ _ _ (by decide), hself]
  · exact hself _

theorem State.session_log (r : Requester) : (s.log kind role req result addr old new).session r = s.session r := by
  unfold State.session
  rw [State.sec_log]
end

/-! ### The sessions of the other requesters -/

theorem State.session_setSession_ne {q r : Requester} (x : Session) (h : q ≠ r) : (s.setSession r x).session q = s.session q :=
  SMap.get_put_ne _ _ _ _ _ (mt (Requester.id_injective ·) h)

theorem State.session_congr {t : State} (h : t.sec = s.sec) (q : Requester) : t.session q = s.session q := by
  unfold State.session
  rw [h]

/-! ### The nonce -/

/-- What a read of the nonce's low word leaves (R337). -/
def State.nonceRead (r : Requester) : State := (s.nonceLo r).1.answer r SEC.NONCE_LO.V.off (s.nonceLo r).2

theorem execNonceLoRead_reach {r : Requester} (h : s.reaches r = true) :
    execNonceLoRead r s = .next (settle (s.nonceRead r)) := by
  unfold execNonceLoRead State.nonceRead
  rw [readAt_reach s r _ _ h]

theorem State.nonceRead_replies (r : Requester) : (s.nonceRead r).hst.replies
    = { req := r, addr := SEC.NONCE_LO.V.off, data := word (s.drawn % 2 ^ 64), poison := false } :: s.hst.replies := by
  unfold State.nonceRead State.nonceLo
  rfl

theorem State.nonceRead_sec (r : Requester) : (s.nonceRead r).sec
    = (s.setSession r { s.session r with nonce := some (s.drawn % 2 ^ 64, s.raw) }).sec := rfl

theorem State.nonceRead_session (r : Requester) :
    (s.nonceRead r).session r = { s.session r with nonce := some (s.drawn % 2 ^ 64, s.raw) } := by
  rw [State.session_congr _ (s.nonceRead_sec r), State.session_setSession]

theorem State.nonceRead_preg (r : Requester) :
    (s.nonceRead r).preg r.id SEC.NONCE_HI.V.off = word (s.drawn % 2 ^ 64 / 2 ^ 32) := State.preg_setPreg_self _ _ _ _

theorem State.nonceRead_frame (r : Requester) : { s.nonceRead r with
    free := s.free, sec := s.sec, preqs := s.preqs, hst := { (s.nonceRead r).hst with replies := s.hst.replies } } = s := rfl

/-! ### A session opened -/

/-- The session of a requester whose lockout has ended (R338). -/
def State.unlocked (r : Requester) : Session :=
  let x := s.session r
  { x with lockout := none, fails := if x.lockout.isSome then 0 else x.fails }

/-- The nonce that goes to verification with a token: the one given less than 60 s before. -/
def State.freshNonce (r : Requester) : Option (Nat × Nat) := (s.session r).nonce.filter (fun n => s.raw < n.2 + minuteCycles)

/-- The token of a requester in verification (R338). -/
def State.verifying (r : Requester) : State :=
  s.setSession r { s.unlocked r with verify := some (s.tokenOf r, s.freshNonce r), nonce := none }

section
variable {r : Requester}

theorem State.sessOpen_unable (h : hasSession r = false) : s.sessOpen r = s.discard SEC.SESS.OP.off r .role := by
  unfold State.sessOpen
  rw [h]
  rfl

theorem State.sessOpen_locked (h : hasSession r = true) (hl : s.lockedOut r = true) :
    s.sessOpen r = (s.setSession r { s.session r with result := 8 }).discard SEC.SESS.OP.off r .busy := by
  have hx : (s.session r).lockout.map (fun t => decide (t ≤ s.raw)) ≠ some true := by
    unfold State.lockedOut at hl
    cases hk : (s.session r).lockout with
    | none => simp
    | some t =>
      rw [hk] at hl
      simpa using hl
  unfold State.sessOpen
  dsimp only
  rw [if_neg hx, if_neg (by simp [h]), if_pos hl]

/-- Once no lockout is in force, none is left. -/
theorem State.unlocked_eq (hl : s.lockedOut r = false) :
    (if (s.session r).lockout.map (fun t => decide (t ≤ s.raw)) = some true then { s.session r with lockout := none, fails := 0 }
      else s.session r) = s.unlocked r := by
  unfold State.lockedOut at hl
  unfold State.unlocked
  generalize s.session r = x at hl ⊢
  obtain ⟨role, stop, nonce, fails, lockout, verify, result⟩ := x
  cases lockout with
  | none => rfl
  | some t =>
    have ht : t ≤ s.raw := by simpa using hl
    simp [ht]

theorem State.sessOpen_pending (h : hasSession r = true) (hl : s.lockedOut r = false) (hv : (s.session r).verify.isSome = true) :
    s.sessOpen r = s.discard SEC.SESS.OP.off r .busy := by
  unfold State.sessOpen
  dsimp only
  rw [s.unlocked_eq hl, if_neg (by simp [h]), if_neg (by simp [hl])]
  exact if_pos hv

theorem State.sessOpen_verifying (h : hasSession r = true) (hl : s.lockedOut r = false) (hv : (s.session r).verify = none) :
    s.sessOpen r = s.verifying r := by
  unfold State.sessOpen
  dsimp only
  rw [s.unlocked_eq hl, if_neg (by simp [h]), if_neg (by simp [hl])]
  exact if_neg (by show ¬ (s.session r).verify.isSome = true; simp [hv])

/-! ### A session ended -/

/-- The session of a requester back at its operator's role. -/
def State.sessEnded (r : Requester) (cause : Nat) : State :=
  (s.log 4 (s.session r).role r.id cause 0 (s.session r).role.code 0).setSession r
    { s.session r with role := .operator, stop := none }

theorem State.endSession_held (cause : Nat) (h : (s.session r).role = .installer ∨ (s.session r).role = .maker) :
    s.endSession r cause = s.sessEnded r cause := by
  unfold State.endSession
  exact if_pos (by rcases h with h | h <;> rw [h] <;> decide)

theorem State.endSession_none (cause : Nat) (h : (s.session r).role.code ≤ Role.operator.code) : s.endSession r cause = s :=
  if_neg (Nat.not_lt.mpr h)

theorem State.sessEnded_keeps (cause : Nat) :
    (s.sessEnded r cause).session r = { s.session r with role := .operator, stop := none }
      ∧ (∀ q, q ≠ r → (s.sessEnded r cause).session q = s.session q)
      ∧ (s.sessEnded r cause).f SEC.LOGPOS.V = (s.f SEC.LOGPOS.V + 1) % 2 ^ 32 ∧ (s.sessEnded r cause).raw = s.raw
      ∧ (s.sessEnded r cause).trk = s.trk := by
  unfold State.sessEnded
  refine ⟨State.session_setSession _ _ _, fun q hq => ?_, ?_, ?_, ?_⟩
  · rw [State.session_setSession_ne _ _ hq, State.session_log]
  · rw [State.f_setSession, State.logpos_log]
  · rw [State.setSession_raw, State.raw_log]
  · rw [State.setSession_trk, State.trk_log]

/-- The end of a session leaves the tracks, the clock and the other requesters' sessions. -/
theorem State.endSession_keeps (cause : Nat) : (s.endSession r cause).raw = s.raw ∧ (s.endSession r cause).trk = s.trk
    ∧ ∀ q, q ≠ r → (s.endSession r cause).session q = s.session q := by
  unfold State.endSession
  dsimp only
  split
  · obtain ⟨-, hother, -, hraw, htrk⟩ := s.sessEnded_keeps (r := r) cause
    exact ⟨hraw, htrk, hother⟩
  · exact ⟨rfl, rfl, fun _ _ => rfl⟩

/-! ### The end of a verification -/

/-- The session with the role of a token that is good (R338), logged. -/
def State.raised (b : List Byte) (old : Role) : State :=
  (s.setSession r { s.session r with
    role := Role.ofCode (numAt b 4 1), stop := some (s.raw + numAt b 6 2 * minuteCycles), fails := 0, result := 0, verify := none }).log
      3 (Role.ofCode (numAt b 4 1)) r.id 0 0 old.code (numAt b 4 1 + numAt b 6 2 * 2 ^ 16)

/-- The session that a raised role ends first, where the role changes. -/
def State.roleLeft (r : Requester) (b : List Byte) : State :=
  if (s.session r).role = Role.ofCode (numAt b 4 1) then s else s.endSession r 4

theorem State.openSession_eq (b : List Byte) :
    s.openSession r b = (State.raised (r := r) (s.roleLeft r b) b (s.session r).role).set1 SEC.IRQ_RAW.SESS_OPEN := rfl

theorem State.roleLeft_keeps (b : List Byte) : (s.roleLeft r b).raw = s.raw ∧ (s.roleLeft r b).trk = s.trk
    ∧ ∀ q, q ≠ r → (s.roleLeft r b).session q = s.session q := by
  unfold State.roleLeft
  split
  · exact ⟨rfl, rfl, fun _ _ => rfl⟩
  · exact s.endSession_keeps 4

theorem State.session_set1 (g : Fld) (i : Nat) (q : Requester) : (s.set1 g i).session q = s.session q := rfl

theorem State.session_bump (g : Fld) (n i : Nat) (q : Requester) : (s.bump g n i).session q = s.session q := rfl

theorem State.openSession_session (b : List Byte) : (s.openSession r b).session r = { (s.roleLeft r b).session r with
    role := Role.ofCode (numAt b 4 1), stop := some (s.raw + numAt b 6 2 * minuteCycles), fails := 0, result := 0, verify := none } := by
  rw [s.openSession_eq, State.session_set1, State.raised, State.session_log, State.session_setSession, (s.roleLeft_keeps b).1]

theorem State.openSession_keeps (b : List Byte) : (s.openSession r b).raw = s.raw ∧ (s.openSession r b).trk = s.trk
    ∧ ∀ q, q ≠ r → (s.openSession r b).session q = s.session q := by
  obtain ⟨hraw, htrk, hother⟩ := s.roleLeft_keeps (r := r) b
  rw [s.openSession_eq]
  refine ⟨?_, ?_, fun q hq => ?_⟩
  · rw [State.set1_raw, State.raised, State.raw_log, State.setSession_raw, hraw]
  · rw [State.set1_trk, State.raised, State.trk_log, State.setSession_trk, htrk]
  · rw [State.session_set1, State.raised, State.session_log, State.session_setSession_ne _ _ hq, hother q hq]

theorem State.openSession_irq (b : List Byte) : (s.openSession r b).on SEC.IRQ_RAW.SESS_OPEN = true := by
  rw [s.openSession_eq, State.on_eq, State.f_set1_eq, State.f_setF_self _ _ _ _ (by decide)]
  rfl

/-- A session after a token that failed (R338): the fourth failure locks the requester out. -/
def State.failed (r : Requester) (res : Nat) : Session :=
  let x := s.session r
  let y : Session := { x with result := res, verify := none, fails := x.fails + 1 }
  if 4 ≤ x.fails + 1 then { y with result := 8, lockout := some (s.raw + minuteCycles) } else y

theorem State.failSession_eq (b : List Byte) (res : Nat) : s.failSession r b res
    = (((s.setSession r (s.failed r res)).log 5 (s.failed r res).role r.id res 0 (numAt b 4 1) 0).set1
        SEC.IRQ_RAW.SESS_FAIL).bump SEC.CNT_EVT.LO := rfl

theorem State.failed_keeps (res : Nat) : (s.failed r res).role = (s.session r).role ∧ (s.failed r res).stop = (s.session r).stop
    ∧ (s.failed r res).verify = none ∧ (s.failed r res).fails = (s.session r).fails + 1 := by
  unfold State.failed
  dsimp only
  split <;> exact ⟨rfl, rfl, rfl, rfl⟩

theorem State.failed_few (res : Nat) (h : (s.session r).fails < 3) :
    (s.failed r res).result = res ∧ (s.failed r res).lockout = (s.session r).lockout := by
  unfold State.failed
  dsimp only
  rw [if_neg (by omega)]
  exact ⟨rfl, rfl⟩

theorem State.failed_fourth (res : Nat) (h : 3 ≤ (s.session r).fails) :
    (s.failed r res).result = 8 ∧ (s.failed r res).lockout = some (s.raw + minuteCycles) := by
  unfold State.failed
  dsimp only
  rw [if_pos (by omega)]
  exact ⟨rfl, rfl⟩

theorem State.failSession_session (b : List Byte) (res : Nat) : (s.failSession r b res).session r = s.failed r res := by
  rw [s.failSession_eq, State.session_bump, State.session_set1, State.session_log, State.session_setSession]

theorem State.failSession_keeps (b : List Byte) (res : Nat) : (s.failSession r b res).raw = s.raw
    ∧ (s.failSession r b res).trk = s.trk ∧ ∀ q, q ≠ r → (s.failSession r b res).session q = s.session q := by
  rw [s.failSession_eq]
  refine ⟨?_, ?_, fun q hq => ?_⟩
  · rw [State.bump_raw, State.set1_raw, State.raw_log, State.setSession_raw]
  · rw [State.bump_trk, State.set1_trk, State.trk_log, State.setSession_trk]
  · rw [State.session_bump, State.session_set1, State.session_log, State.session_setSession_ne _ _ hq]

theorem State.failSession_irq (b : List Byte) (res : Nat) : (s.failSession r b res).on SEC.IRQ_RAW.SESS_FAIL = true := by
  rw [s.failSession_eq, State.on_eq, State.f_bump_eq, State.f_setF_other _ _ _ _ _ _ (by decide), State.f_set1_eq,
    State.f_setF_self _ _ _ _ (by decide)]
  rfl

theorem State.failSession_count (b : List Byte) (res : Nat) :
    (s.failSession r b res).f SEC.CNT_EVT.LO = counted s SEC.CNT_EVT.LO := by
  rw [s.failSession_eq, State.f_bump_eq, State.f_setF_self _ _ _ _ (by decide), State.f_set1_eq,
    State.f_setF_other _ _ _ _ _ _ (by decide), State.f_log _ _ _ _ _ _ _ _ _ _ (by decide), State.f_setSession, State.counted_eq]
end

end Sys2Proof.Machine
end

section
open Sys2Proof Sys2Proof.Machine

/-- Settles O46: each instruction of the sessions by the session it leaves and by what it leaves alone. -/
theorem sessions : Obligations.Sessions := by
  unfold Obligations.Sessions
  refine ⟨fun s r h => ?_, fun s r ho => ⟨fun h => ?_, fun h hl => ?_, fun h hl hv => ?_, fun h hl hv => ?_⟩,
    fun s r => ⟨fun h => ?_, fun h => ?_, fun h => ?_⟩, fun s r b n hv => ⟨fun hres => ?_, fun hres => ?_⟩,
    fun s r ho => ⟨fun hr => ?_, fun hr => ?_⟩, fun s r u hu => ⟨fun hr => ?_, fun hr => ?_⟩, fun s r u hu => ?_⟩
  · refine ⟨s.nonceRead r, s.drawn % 2 ^ 64, execNonceLoRead_reach s h, ?_, s.nonceRead_replies r, s.nonceRead_preg r,
      copiesBut_of_preqs (by decide) rfl, rfl, ?_, fun q hq => ?_, s.nonceRead_frame r⟩
    · rw [s.nonceRead_session]
    · rw [s.nonceRead_session]
    · rw [State.session_congr _ (s.nonceRead_sec r), State.session_setSession_ne _ _ hq]
  · exact (write_opens s r _ _ ho).trans (by rw [s.sessOpen_unable h])
  · exact (write_opens s r _ _ ho).trans (by rw [s.sessOpen_locked h hl])
  · exact (write_opens s r _ _ ho).trans (by rw [s.sessOpen_pending h hl hv])
  · refine ⟨s.verifying r, s.freshNonce r, (write_opens s r _ _ ho).trans (by rw [s.sessOpen_verifying h hl hv]),
      State.session_setSession _ _ _, fun hn => ?_, fun x hx => ?_, fun q hq => State.session_setSession_ne _ _ hq, rfl⟩
    · rw [State.freshNonce, hn]
      rfl
    · rw [State.freshNonce, hx, Option.filter_some]
      simp only [decide_eq_true_eq]
  · show execSessionVerifyComplete r s = _
    rw [execSessionVerifyComplete, h]
    rfl
  · show execSessionExpiry r s = _
    rw [execSessionExpiry, h]
    rfl
  · show execSessionLockoutEnd r s = _
    rw [execSessionLockoutEnd, h]
    rfl
  · obtain ⟨hraw, htrk, hother⟩ := s.openSession_keeps (r := r) b
    refine ⟨s.openSession r b, ?_, ?_⟩
    · show execSessionVerifyComplete r s = _
      rw [execSessionVerifyComplete, hv]
      exact if_pos hres
    · rw [s.openSession_session]
      exact ⟨rfl, rfl, rfl, rfl, rfl, s.openSession_irq b, hother, hraw, htrk⟩
  · obtain ⟨hraw, htrk, hother⟩ := s.failSession_keeps (r := r) b (s.tokenResult b n)
    obtain ⟨hrole, hstop, hver, hfails⟩ := s.failed_keeps (r := r) (s.tokenResult b n)
    refine ⟨s.failSession r b (s.tokenResult b n), ?_, ?_⟩
    · show execSessionVerifyComplete r s = _
      rw [execSessionVerifyComplete, hv]
      exact if_neg hres
    · rw [s.failSession_session]
      exact ⟨hrole, hstop, hver, hfails, s.failed_few _, s.failed_fourth _, s.failSession_irq b _, s.failSession_count b _, hother,
        hraw, htrk⟩
  · exact ⟨s.sessEnded r 1, (write_opens s r _ _ ho).trans (by rw [s.endSession_held 1 hr]), s.sessEnded_keeps 1⟩
  · exact (write_opens s r _ _ ho).trans (by rw [s.endSession_none 1 hr])
  · obtain ⟨hsess, hother, hpos, hraw, htrk⟩ := (s.advance u).sessEnded_keeps (r := r) 2
    refine ⟨(s.advance u).sessEnded r 2, ?_, hraw, hsess, hother, hpos, htrk⟩
    show execSessionExpiry r s = _
    rw [execSessionExpiry, hu, ← (s.advance u).endSession_held 2 hr]
    rfl
  · show execSessionExpiry r s = _
    rw [execSessionExpiry, hu]
    exact congrArg (fun t => done t) ((s.advance u).endSession_none 2 hr)
  · refine ⟨(s.advance u).setSession r { (s.advance u).session r with lockout := none, fails := 0 }, ?_, rfl,
      State.session_setSession _ _ _, fun q hq => State.session_setSession_ne _ _ hq, rfl⟩
    show execSessionLockoutEnd r s = _
    rw [execSessionLockoutEnd, hu]
    rfl

end

section
/-! PROOFS. What the steps of a received heartbeat leave of the pair's books (R349 to R354, R359). -/

namespace Sys2Proof.Machine

variable (s : State)

theorem State.f_onTwn (f : Twn → Twn) (k : Fld) (j : Nat) : (s.onTwn f).f k j = s.f k j := rfl

/-! ### Interrupt bits stay set -/

/-- A bit of an interrupt register. -/
structure Fld.OneBit (g : Fld) : Prop where
  wid : g.wid = 1
  lo : g.lo < 32

theorem State.on_set1_rises {g k : Fld} {i j : Nat} (hg : g.OneBit) (hk : k.OneBit) (h : s.on k j = true) :
    (s.set1 g i).on k j = true := by
  obtain ⟨hgw, hgl⟩ := hg
  obtain ⟨hkw, hkl⟩ := hk
  rw [State.on_eq, State.f_set1_eq]
  by_cases ho : k.off + j = g.off + i
  · by_cases hl : k.lo = g.lo
    · have hself : (s.setF g 1 i).f k j = (s.setF g 1 i).f g i := by
        rw [State.f, State.f, ho, hl, hkw, hgw]
      rw [hself, State.f_setF_self _ _ _ _ (by omega), hgw]
      rfl
    · rw [State.f_setF_beside _ _ _ _ _ _ ⟨ho, by omega, by omega⟩, ← State.on_eq, h]
  · rw [State.f_setF_other _ _ _ _ _ _ ho, ← State.on_eq, h]

theorem State.on_fault_rises {k : Fld} {j : Nat} (c : Nat) (hk : k.off + j ≠ PWR.FLTSTS.FAULT.off) (h : s.on k j = true) :
    (s.fault c).on k j = true := by rw [State.on_fault_ne _ _ _ _ hk, h]

theorem State.on_onTwn (f : Twn → Twn) (k : Fld) (j : Nat) : (s.onTwn f).on k j = s.on k j := rfl

/-! ### The books that the verification of a heartbeat leaves alone -/

/-- The pair's books without its state, its switchover, its comparisons and its frames. -/
def Twn.heard (x : Twn) : Twn :=
  { x with st := .solo, sw := none, out := [], check := [], cv := 0, differ := 0, agree := 0, cons := [] }

/-- The parts of the machine that no step of a received heartbeat touches once the heartbeat is booked. -/
structure HbRest where
  raw : Nat
  vtOff : Int
  slots : SMap Slot
  mode : Mode
  signals : List Signal
  dsp : Dsp
  twn : Twn

def State.hbRest : HbRest :=
  { raw := s.raw, vtOff := s.vtOff, slots := s.slots, mode := s.mode, signals := s.signals, dsp := s.dsp, twn := s.twn.heard }

theorem State.hbRest_set1 (g : Fld) (i : Nat) : (s.set1 g i).hbRest = s.hbRest := rfl

theorem State.hbRest_setF (g : Fld) (v i : Nat) : (s.setF g v i).hbRest = s.hbRest := rfl

theorem State.hbRest_fault (c : Nat) : (s.fault c).hbRest = s.hbRest := rfl

theorem State.hbRest_onTwn (f : Twn → Twn) (h : (f s.twn).heard = s.twn.heard) : (s.onTwn f).hbRest = s.hbRest :=
  congrArg (fun x => { s.hbRest with twn := x }) h

theorem State.hbRest_sendHello : s.sendHello.hbRest = s.hbRest := by
  unfold State.sendHello State.send
  split
  · exact s.hbRest_onTwn _ rfl
  · rfl

theorem State.hbRest_notReady : s.notReady.hbRest = s.hbRest := by
  unfold State.notReady
  split
  · rw [State.hbRest_sendHello, State.hbRest_set1]
    exact s.hbRest_onTwn _ rfl
  · rfl

theorem State.hbRest_peerLost : s.peerLost.hbRest = s.hbRest := by
  unfold State.peerLost
  rw [State.hbRest_fault, State.hbRest_set1]

/-- A switchover goes before one with trigger `trig` (R359, R360). -/
def State.swBegun (trig : Nat) : Bool :=
  match s.twn.sw with | none => false | some x => trig = 3 || x.trig ≠ 3 || decide (x.w ≤ s.cyc)

/-- A switchover begun at cycle `w`, recorded where it is not commanded. -/
def State.swBegins (trig w : Nat) : State :=
  let t := s.onTwn fun x => { x with sw := some { trig := trig, w := w, cv := x.cv } }
  if trig = 3 then t else t.setF TWN.LASTSW.TRIGGER trig

theorem State.trigger_ready {trig w : Nat} (h : s.twn.st = .ready) :
    s.trigger trig w = if s.swBegun trig then s else s.swBegins trig w := by
  unfold State.trigger
  rw [if_pos h]
  rfl

theorem State.trigger_standby {trig w : Nat} (h : s.twn.st = .joining ∨ s.twn.st = .notReady) : s.trigger trig w = s.peerLost := by
  unfold State.trigger
  rw [if_neg (by rcases h with h | h <;> simp [h]), if_pos (by rcases h with h | h <;> rw [h] <;> rfl)]

theorem State.trigger_other {trig w : Nat} (h : s.twn.st.standby = false) : s.trigger trig w = s := by
  unfold State.trigger
  rw [if_neg (fun hr => by rw [hr] at h; cases h), if_neg (by rw [h]; exact Bool.false_ne_true)]

theorem State.hbRest_swBegins (trig w : Nat) : (s.swBegins trig w).hbRest = s.hbRest := by
  unfold State.swBegins
  dsimp only
  split
  · exact s.hbRest_onTwn _ rfl
  · rw [State.hbRest_setF]
    exact s.hbRest_onTwn _ rfl

theorem State.hbRest_trigger (trig w : Nat) : (s.trigger trig w).hbRest = s.hbRest := by
  cases h : s.twn.st with
  | ready =>
    rw [s.trigger_ready h]
    split
    · rfl
    · exact s.hbRest_swBegins trig w
  | joining => rw [s.trigger_standby (.inl h), s.hbRest_peerLost]
  | notReady => rw [s.trigger_standby (.inr h), s.hbRest_peerLost]
  | solo => rw [s.trigger_other (by rw [h]; rfl)]
  | primary => rw [s.trigger_other (by rw [h]; rfl)]

theorem State.hbRest_diverge : s.diverge.hbRest = s.hbRest := by
  unfold State.diverge
  rw [State.hbRest_notReady, State.hbRest_fault, State.hbRest_set1]

theorem State.hbRest_joinDone : s.joinDone.hbRest = s.hbRest := by
  unfold State.joinDone
  dsimp only
  split
  · rw [State.hbRest_sendHello, State.hbRest_set1]
    exact s.hbRest_onTwn _ rfl
  · rfl

theorem State.hbRest_settleCons : s.settleCons.hbRest = s.hbRest := by
  unfold State.settleCons
  dsimp only
  split
  · rw [State.hbRest_diverge]
    exact s.hbRest_onTwn _ rfl
  · exact s.hbRest_onTwn _ rfl

/-- The books after a comparison (R354), in cycle `now`. -/
def Twn.compared (x : Twn) (c now : Nat) (same : Bool) : Twn :=
  { x with
    cv := c, differ := if same then 0 else x.differ + 1, agree := if same then x.agree + 1 else 0
    sw := x.sw.map fun w => if now < w.w then { w with cv := c } else w }

/-- The queued entries of this device are as many as the heartbeat says. -/
def State.sameLive (live : Nat) : Bool := decide (s.countBooks.2.1 = live)

/-- The second comparison in a row that differs (R354). -/
def State.divergeTwice : State := if s.twn.differ = 2 then s.diverge else s

theorem State.verified_eq (c live : Nat) :
    s.verified c live = (s.onTwn fun x => x.compared c s.cyc (s.sameLive live)).settleCons.divergeTwice.joinDone := rfl

theorem State.hbRest_divergeTwice : s.divergeTwice.hbRest = s.hbRest := by
  unfold State.divergeTwice
  split
  · exact s.hbRest_diverge
  · rfl

theorem State.hbRest_verified (c live : Nat) : (s.verified c live).hbRest = s.hbRest := by
  rw [s.verified_eq, State.hbRest_joinDone, State.hbRest_divergeTwice, State.hbRest_settleCons]
  exact s.hbRest_onTwn _ rfl

/-- The waiting heartbeats whose records have all been applied (R354). -/
def State.metHbs : List (Nat × Nat × Nat) := if s.twn.copied then s.twn.check.filter (fun h => h.2.1 ≤ s.twn.rxSeq) else []

/-- The waiting heartbeats once those that are met have left. -/
def State.unmetHbs : State := s.onTwn fun x => { x with check := stillWaiting s.twn.rxSeq x.check }

theorem State.verify_eq : s.verify
    = if s.metHbs = [] then s else s.metHbs.foldl (fun s h => s.verified h.1 h.2.2) s.unmetHbs := rfl

theorem State.hbRest_unmetHbs : s.unmetHbs.hbRest = s.hbRest := s.hbRest_onTwn _ rfl

theorem State.hbRest_foldl_verified (hs : List (Nat × Nat × Nat)) : ∀ t : State,
    (hs.foldl (fun s h => s.verified h.1 h.2.2) t).hbRest = t.hbRest := by
  induction hs with
  | nil => exact fun _ => rfl
  | cons e hs ih => exact fun t => (ih (t.verified e.1 e.2.2)).trans (t.hbRest_verified e.1 e.2.2)

theorem State.hbRest_verify : s.verify.hbRest = s.hbRest := by
  rw [s.verify_eq]
  split
  · rfl
  · rw [State.hbRest_foldl_verified, State.hbRest_unmetHbs]

theorem State.hbRest_awaitCheck (h : Nat × Nat × Nat) : (s.awaitCheck h).hbRest = s.hbRest := by
  unfold State.awaitCheck
  split
  · rfl
  · exact s.hbRest_onTwn _ rfl


/-! ### Bits of the pair's interrupt register that the verification leaves set -/

section
variable {s : State} {k : Fld} (hk : k.OneBit) (ho : k.off + 0 ≠ PWR.FLTSTS.FAULT.off) (h : s.on k = true)
include h

theorem State.on_sendHello_rises : s.sendHello.on k = true := by
  unfold State.sendHello State.send
  split
  · exact h
  · exact h

theorem State.on_awaitCheck_rises (e : Nat × Nat × Nat) : (s.awaitCheck e).on k = true := by
  unfold State.awaitCheck
  split <;> exact h

include hk

theorem State.on_notReady_rises : s.notReady.on k = true := by
  unfold State.notReady
  split
  · exact State.on_sendHello_rises (State.on_set1_rises _ ⟨rfl, by decide⟩ hk h)
  · exact h

theorem State.on_joinDone_rises : s.joinDone.on k = true := by
  unfold State.joinDone
  dsimp only
  split
  · exact State.on_sendHello_rises (State.on_set1_rises _ ⟨rfl, by decide⟩ hk h)
  · exact h

include ho

theorem State.on_peerLost_rises : s.peerLost.on k = true :=
  State.on_fault_rises _ _ ho (State.on_set1_rises _ ⟨rfl, by decide⟩ hk h)

theorem State.on_diverge_rises : s.diverge.on k = true :=
  State.on_notReady_rises hk (State.on_fault_rises _ _ ho (State.on_set1_rises _ ⟨rfl, by decide⟩ hk h))

theorem State.on_settleCons_rises : s.settleCons.on k = true := by
  unfold State.settleCons
  dsimp only
  split
  · exact State.on_diverge_rises hk ho (by rw [State.on_onTwn]; exact h)
  · exact h

theorem State.on_divergeTwice_rises : s.divergeTwice.on k = true := by
  unfold State.divergeTwice
  split
  · exact State.on_diverge_rises hk ho h
  · exact h

theorem State.on_verified_rises (c live : Nat) : (s.verified c live).on k = true := by
  rw [s.verified_eq]
  exact State.on_joinDone_rises hk (State.on_divergeTwice_rises hk ho (State.on_settleCons_rises hk ho
    (by rw [State.on_onTwn]; exact h)))

theorem State.on_verify_rises : s.verify.on k = true := by
  have hfold : ∀ (hs : List (Nat × Nat × Nat)) (t : State), t.on k = true →
      (hs.foldl (fun s h => s.verified h.1 h.2.2) t).on k = true := by
    intro hs
    induction hs with
    | nil => exact fun t ht => ht
    | cons e hs ih => exact fun t ht => ih _ (State.on_verified_rises (s := t) hk ho ht e.1 e.2.2)
  rw [s.verify_eq]
  split
  · exact h
  · exact hfold _ _ (by rw [State.unmetHbs, State.on_onTwn]; exact h)
end

/-! ### A heartbeat received, step by step -/

/-- The STANDBY steered by a heartbeat in order (R350). -/
def State.hbSteered (h : Heartbeat) (u : Nat) : State :=
  if s.twn.st.standby && h.seq = s.twn.rxNext && s.twn.rxAt.isSome then s.steer h (s.vtAt u) else s

/-- A heartbeat that repeats a SEQ. -/
def State.hbAgain (h : Heartbeat) : Bool := h.seq < s.twn.rxNext && s.twn.rxAt.isSome

/-- The heartbeat in the books, and the signal of its receipt (R351). -/
def State.hbBooked (h : Heartbeat) (t2 : Nat) (again : Bool) : State :=
  (if again then s else s.onTwn fun x => x.received h.seq t2 (s.f TWN.HBWIN.V)).signal 6 0 h.seq t2

/-- The peer's fault flags (R359). -/
def State.hbFlagged (h : Heartbeat) : State :=
  if h.faults &&& s.f TWN.FLTSEL.V = 0 then s else (s.set1 TWN.IRQ_RAW.PEER_FAULT).trigger 2 s.cyc

/-- What a STANDBY does with the heartbeat's RSEQ (R354, R365). -/
def State.hbCompared (h : Heartbeat) : State :=
  if !s.twn.st.standby then s
  else if h.rseq = rseqNever then s.notReady
  else (s.awaitCheck (h.dep * s.dsp.period, h.rseq, h.live)).verify.joinDone

theorem State.rxHeartbeat_eq (h : Heartbeat) (u : Nat) (hl : s.linked = true) (hs : s.twn.st ≠ .solo) : s.rxHeartbeat h u
    = ((((s.advanceU u).hbSteered h u).hbBooked h (s.vtAt u) (s.hbAgain h)).hbFlagged h).hbCompared h := by
  unfold State.rxHeartbeat
  rw [if_neg (by simp [hl, hs])]
  rfl

theorem State.hbRest_hbFlagged (h : Heartbeat) : (s.hbFlagged h).hbRest = s.hbRest := by
  unfold State.hbFlagged
  split
  · rfl
  · rw [State.hbRest_trigger, State.hbRest_set1]

theorem State.hbRest_hbCompared (h : Heartbeat) : (s.hbCompared h).hbRest = s.hbRest := by
  unfold State.hbCompared
  split
  · rfl
  · split
    · exact s.hbRest_notReady
    · rw [State.hbRest_joinDone, State.hbRest_verify, State.hbRest_awaitCheck]

theorem State.on_hbCompared_rises {k : Fld} (hk : k.OneBit) (ho : k.off + 0 ≠ PWR.FLTSTS.FAULT.off) (hon : s.on k = true)
    (h : Heartbeat) : (s.hbCompared h).on k = true := by
  unfold State.hbCompared
  split
  · exact hon
  · split
    · exact State.on_notReady_rises hk hon
    · exact State.on_joinDone_rises hk (State.on_verify_rises hk ho (State.on_awaitCheck_rises hon _))

/-! ### The steering -/

/-- The pair's books without what the steering writes. -/
def Twn.unsteered (x : Twn) : Twn :=
  { x with theta := 0, trip := none, aligned := false, integ := {}, lockCnt := 0, lock := false }

/-- The parts of the machine that the steering leaves. -/
structure SteerRest where
  rest : HbRest
  twn : Twn
  pwr : Pwr

def State.steerRest : SteerRest := { rest := { s.hbRest with twn := {} }, twn := s.twn.unsteered, pwr := s.pwr }

theorem State.steerRest_setF (g : Fld) (v i : Nat) : (s.setF g v i).steerRest = s.steerRest := rfl

theorem State.steerRest_set1 (g : Fld) (i : Nat) : (s.set1 g i).steerRest = s.steerRest := rfl

theorem State.steerRest_onTwn (f : Twn → Twn) (h : (f s.twn).unsteered = s.twn.unsteered) : (s.onTwn f).steerRest = s.steerRest :=
  congrArg (fun x => { s.steerRest with twn := x }) h

theorem State.steerRest_alignStep (e : Int) (shift : Bool) : (s.alignStep e shift).steerRest = s.steerRest := by
  unfold State.alignStep
  dsimp only
  split <;> rfl

theorem State.steerRest_follow (e dt : Int) : (s.follow e dt).steerRest = s.steerRest := by
  unfold State.follow
  refine (State.steerRest_onTwn _ _ rfl).trans ?_
  unfold State.putFreq
  rw [State.steerRest_setF]

theorem State.steerRest_steer (h : Heartbeat) (t2 : Nat) : (s.steer h t2).steerRest = s.steerRest := by
  unfold State.steer
  split
  · rfl
  · dsimp only
    split
    · refine (State.steerRest_onTwn _ _ rfl).trans ((State.steerRest_alignStep _ _ _).trans ?_)
      exact s.steerRest_onTwn _ rfl
    · exact (State.steerRest_follow _ _ _).trans (s.steerRest_onTwn _ rfl)

theorem State.steerRest_hbSteered (h : Heartbeat) (u : Nat) : (s.hbSteered h u).steerRest = s.steerRest := by
  unfold State.hbSteered
  split
  · exact s.steerRest_steer h _
  · rfl

end Sys2Proof.Machine
end

section
/-! PROOFS. Heartbeats received, compared and missed (R349 to R351, R354, R359). -/

namespace Sys2Proof.Machine

variable (s : State)

/-! ### The pair's books before a comparison -/

/-- The pair's books without what the steering and the receipt of a heartbeat write. -/
def Twn.unheard (x : Twn) : Twn :=
  { x.unsteered with rxAt := none, rxNext := 0, missed := 0, expect := [], early := [], expSeq := 0 }

section
variable (x : Twn) (k t2 win : Nat)

theorem Twn.received_stamp : (x.received k t2 win).rxAt = some t2 ∧ (x.received k t2 win).missed = 0
    ∧ (x.received k t2 win).rxNext = k + 1 := by
  unfold Twn.received
  exact ⟨rfl, rfl, rfl⟩

theorem Twn.received_unheard : (x.received k t2 win).unheard = x.unheard := by
  unfold Twn.received
  dsimp only
  split <;> rfl

theorem Twn.received_theta : (x.received k t2 win).theta = x.theta ∧ (x.received k t2 win).trip = x.trip := by
  unfold Twn.received
  dsimp only
  split <;> exact ⟨rfl, rfl⟩

/-- A heartbeat that an own launch expects leaves the next one to expect as it was (R351). -/
theorem Twn.received_expected (hr : x.rxAt ≠ none) (hk : k ∈ x.expect.map (fun e => e.1)) :
    (x.received k t2 win).expSeq = x.expSeq ∧ (x.received k t2 win).expect = x.expect.filter (fun e => e.1 ≠ k) := by
  have hany : x.expect.any (fun e => e.1 = k) = true := by
    obtain ⟨e, he, hek⟩ := List.mem_map.mp hk
    exact List.any_eq_true.mpr ⟨e, he, by simpa using hek⟩
  unfold Twn.received
  dsimp only
  rw [if_neg (by simp [hany, hr])]
  exact ⟨rfl, rfl⟩

/-- The first heartbeat of a pairing (R351). -/
theorem Twn.received_first (hr : x.rxAt = none) : (x.received k t2 win).expect = []
    ∧ ∀ l, x.txAt = some l →
      (vtDiff t2 l ≤ (win * 64 : Nat) → (x.received k t2 win).expSeq = k + 1 ∧ (x.received k t2 win).early = [])
      ∧ ((win * 64 : Nat) < vtDiff t2 l → (x.received k t2 win).expSeq = k ∧ (x.received k t2 win).early = [k]) := by
  have hc : (x.rxAt.isNone || (k < x.expSeq && !x.expect.any (fun e => e.1 = k))) = true := by rw [hr]; rfl
  unfold Twn.received
  dsimp only
  rw [if_pos hc]
  refine ⟨rfl, fun l hl => ⟨fun h => ?_, fun h => ?_⟩⟩ <;> dsimp only <;> rw [hl]
  · exact ⟨if_pos (decide_eq_true h), if_pos (decide_eq_true h)⟩
  · exact ⟨if_neg (by simpa using h), if_neg (by simpa using h)⟩
end

/-- The books that neither the steering nor the receipt of a heartbeat writes. -/
structure Twn.SameBut (x y : Twn) : Prop where
  st : x.st = y.st
  sw : x.sw = y.sw
  check : x.check = y.check
  copied : x.copied = y.copied
  rxSeq : x.rxSeq = y.rxSeq
  cv : x.cv = y.cv
  differ : x.differ = y.differ
  cons : x.cons = y.cons
  queue : x.queue = y.queue

theorem Twn.of_unheard {x y : Twn} (h : x.unheard = y.unheard) : x.SameBut y := by
  have hst := congrArg Twn.st h
  have hsw := congrArg Twn.sw h
  have hcheck := congrArg Twn.check h
  have hcopied := congrArg Twn.copied h
  have hseq := congrArg Twn.rxSeq h
  have hcv := congrArg Twn.cv h
  have hdiffer := congrArg Twn.differ h
  have hcons := congrArg Twn.cons h
  have hqueue := congrArg Twn.queue h
  exact ⟨hst, hsw, hcheck, hcopied, hseq, hcv, hdiffer, hcons, hqueue⟩

theorem Twn.unheard_of_unsteered {x y : Twn} (h : x.unsteered = y.unsteered) : x.unheard = y.unheard :=
  congrArg (fun z : Twn => { z with rxAt := none, rxNext := 0, missed := 0, expect := [], early := [], expSeq := 0 }) h

/-! ### The books once the heartbeat is in them -/

section
variable (h : Heartbeat) (u : Nat)

/-- The machine with the heartbeat in the books (R351). -/
def State.hbIn : State := ((s.advanceU u).hbSteered h u).hbBooked h (s.vtAt u) (s.hbAgain h)

theorem State.hbSteered_rest : ((s.advanceU u).hbSteered h u).steerRest = (s.advanceU u).steerRest := State.steerRest_hbSteered _ h u

theorem State.hbSteered_twn : ((s.advanceU u).hbSteered h u).twn.unsteered = s.twn.unsteered :=
  congrArg SteerRest.twn (s.hbSteered_rest h u)

theorem State.f_steer (t2 : Nat) (g : Fld) (hg : g.off + 0 ≠ TBU.FREQ.CORR.off ∧ g.off + 0 ≠ TBU.STS.STEP_BUSY.off) :
    (s.steer h t2).f g = s.f g := by
  unfold State.steer
  split
  · rfl
  · dsimp only
    split
    · unfold State.alignStep
      dsimp only
      rw [State.f_onTwn]
      split
      · rfl
      · rw [State.f_withTbu, State.f_set1_eq, State.f_setF_other _ _ _ _ _ _ hg.2, State.f_onTwn]
    · unfold State.follow State.putFreq
      dsimp only
      rw [State.f_onTwn, State.f_setF_other _ _ _ _ _ _ hg.1, State.f_onTwn]

theorem State.f_hbSteered (g : Fld) (hg : g.off + 0 ≠ TBU.FREQ.CORR.off ∧ g.off + 0 ≠ TBU.STS.STEP_BUSY.off) :
    (s.hbSteered h u).f g = s.f g := by
  unfold State.hbSteered
  split
  · exact s.f_steer h _ g hg
  · rfl

theorem State.hbBooked_twn (t2 : Nat) (again : Bool) : (s.hbBooked h t2 again).twn
    = if again then s.twn else s.twn.received h.seq t2 (s.f TWN.HBWIN.V) := by
  unfold State.hbBooked
  split <;> rfl

theorem State.hbIn_twn : (s.hbIn h u).twn = if s.hbAgain h then ((s.advanceU u).hbSteered h u).twn
    else ((s.advanceU u).hbSteered h u).twn.received h.seq (s.vtAt u) (s.f TWN.HBWIN.V) := by
  unfold State.hbIn
  rw [State.hbBooked_twn, State.f_hbSteered _ h u TWN.HBWIN.V (by decide)]
  rfl

theorem State.hbIn_unheard : (s.hbIn h u).twn.unheard = s.twn.unheard := by
  have hst := Twn.unheard_of_unsteered (s.hbSteered_twn h u)
  rw [s.hbIn_twn]
  split
  · exact hst
  · rw [Twn.received_unheard, hst]

/-- What the receipt of a heartbeat leaves beside the pair's books. -/
theorem State.hbBooked_keeps (t2 : Nat) (again : Bool) : (s.hbBooked h t2 again).raw = s.raw
    ∧ (s.hbBooked h t2 again).vtOff = s.vtOff ∧ (s.hbBooked h t2 again).slots = s.slots ∧ (s.hbBooked h t2 again).mode = s.mode
    ∧ (s.hbBooked h t2 again).dsp = s.dsp ∧ (s.hbBooked h t2 again).pwr = s.pwr ∧ (s.hbBooked h t2 again).regs = s.regs
    ∧ (s.hbBooked h t2 again).signals = s.signals ++ [{ kind := 6, idx := 0, g1 := h.seq, s0 := t2, since := s.raw }] := by
  unfold State.hbBooked
  split <;> exact ⟨rfl, rfl, rfl, rfl, rfl, rfl, rfl, rfl⟩

theorem State.hbIn_keeps : (s.hbIn h u).raw = max s.raw ((u + 63) / 64) ∧ (s.hbIn h u).vtOff = s.vtOff
    ∧ (s.hbIn h u).slots = s.slots ∧ (s.hbIn h u).mode = s.mode ∧ (s.hbIn h u).dsp = s.dsp ∧ (s.hbIn h u).pwr = s.pwr
    ∧ (s.hbIn h u).signals
      = s.signals ++ [{ kind := 6, idx := 0, g1 := h.seq, s0 := s.vtAt u, since := max s.raw ((u + 63) / 64) }] := by
  have hr := s.hbSteered_rest h u
  obtain ⟨hraw, hoff, hslots, hmode, hdsp, hpwr, -, hsig⟩ :=
    ((s.advanceU u).hbSteered h u).hbBooked_keeps h (s.vtAt u) (s.hbAgain h)
  have hraw' : ((s.advanceU u).hbSteered h u).raw = max s.raw ((u + 63) / 64) := congrArg (fun r => r.rest.raw) hr
  have hsig' : ((s.advanceU u).hbSteered h u).signals = s.signals := congrArg (fun r => r.rest.signals) hr
  unfold State.hbIn
  refine ⟨hraw.trans hraw', hoff.trans (congrArg (fun r => r.rest.vtOff) hr), hslots.trans (congrArg (fun r => r.rest.slots) hr),
    hmode.trans (congrArg (fun r => r.rest.mode) hr), hdsp.trans (congrArg (fun r => r.rest.dsp) hr),
    hpwr.trans (congrArg SteerRest.pwr hr), ?_⟩
  rw [hsig, hsig', hraw']

theorem State.f_hbIn (g : Fld) (hg : g.off + 0 ≠ TBU.FREQ.CORR.off ∧ g.off + 0 ≠ TBU.STS.STEP_BUSY.off) :
    (s.hbIn h u).f g = s.f g := by
  obtain ⟨-, -, -, -, -, -, hregs, -⟩ := ((s.advanceU u).hbSteered h u).hbBooked_keeps h (s.vtAt u) (s.hbAgain h)
  rw [State.hbIn, State.f, State.reg, hregs]
  exact (State.f_hbSteered _ h u g hg).trans rfl

theorem State.steer_theta (t2 : Nat) {e r : Int} (hth : s.thetaOf h = some (e, r)) (hst : s.twn.st ≠ .joining) :
    (s.steer h t2).twn.theta = e ∧ (s.steer h t2).twn.trip = some r := by
  unfold State.steer
  rw [hth]
  dsimp only
  split
  · next hj => exact absurd hj.1 hst
  · exact ⟨rfl, rfl⟩

/-- θ of the exchange, and its round trip, once a heartbeat in order has steered a STANDBY that follows (R349). -/
theorem State.hbIn_theta {e r : Int} (hth : s.thetaOf h = some (e, r)) (hst : s.twn.st = .ready ∨ s.twn.st = .notReady)
    (hseq : h.seq = s.twn.rxNext) : (s.hbIn h u).twn.theta = e ∧ (s.hbIn h u).twn.trip = some r := by
  have hrx : s.twn.rxAt.isSome = true := by
    unfold State.thetaOf at hth
    cases hn : s.twn.rxAt with
    | none => rw [hn] at hth; cases hth
    | some t => rfl
  have hsb : s.twn.st.standby = true := by rcases hst with h | h <;> rw [h] <;> rfl
  have hc : ((s.advanceU u).twn.st.standby && h.seq = (s.advanceU u).twn.rxNext && (s.advanceU u).twn.rxAt.isSome) = true := by
    show (s.twn.st.standby && h.seq = s.twn.rxNext && s.twn.rxAt.isSome) = true
    simp [hrx, hsb, hseq]
  have hsteer : ((s.advanceU u).hbSteered h u).twn.theta = e ∧ ((s.advanceU u).hbSteered h u).twn.trip = some r := by
    unfold State.hbSteered
    rw [if_pos hc]
    exact State.steer_theta _ h _ hth (show s.twn.st ≠ .joining by rcases hst with h | h <;> simp [h])
  rw [s.hbIn_twn]
  split
  · exact hsteer
  · rw [(Twn.received_theta _ _ _ _).1, (Twn.received_theta _ _ _ _).2]
    exact hsteer

end

/-! ### The peer's fault flags, and the comparison -/

theorem State.swBegins_twn (trig w : Nat) :
    (s.swBegins trig w).twn = { s.twn with sw := some { trig := trig, w := w, cv := s.twn.cv } } := by
  unfold State.swBegins
  dsimp only
  split
  · rfl
  · rw [State.setF_twn]
    rfl

theorem State.peerLost_twn : s.peerLost.twn = s.twn := by
  unfold State.peerLost
  rw [State.fault_twn, State.set1_twn]

/-- The start of a switchover changes no more of the pair's books than the switchover itself. -/
theorem State.trigger_twn (trig w : Nat) : ∃ x, (s.trigger trig w).twn = { s.twn with sw := x } := by
  cases hst : s.twn.st with
  | ready =>
    rw [s.trigger_ready hst]
    split
    · exact ⟨s.twn.sw, rfl⟩
    · exact ⟨_, s.swBegins_twn trig w⟩
  | joining => exact ⟨s.twn.sw, by rw [s.trigger_standby (.inl hst), State.peerLost_twn]⟩
  | notReady => exact ⟨s.twn.sw, by rw [s.trigger_standby (.inr hst), State.peerLost_twn]⟩
  | solo => exact ⟨s.twn.sw, by rw [s.trigger_other (by rw [hst]; rfl)]⟩
  | primary => exact ⟨s.twn.sw, by rw [s.trigger_other (by rw [hst]; rfl)]⟩

theorem State.on_trigger_rises {trig w : Nat} {k : Fld} (hk : k.OneBit) (ho : k.off + 0 ≠ PWR.FLTSTS.FAULT.off)
    (hl : k.off + 0 ≠ TWN.LASTSW.TRIGGER.off) (h : s.on k = true) : (s.trigger trig w).on k = true := by
  cases hst : s.twn.st with
  | ready =>
    rw [s.trigger_ready hst]
    split
    · exact h
    · unfold State.swBegins
      dsimp only
      split
      · exact h
      · rw [State.on_eq, State.f_setF_other _ _ _ _ _ _ hl, State.f_onTwn, ← State.on_eq, h]
  | joining => rw [s.trigger_standby (.inl hst)]; exact State.on_peerLost_rises hk ho h
  | notReady => rw [s.trigger_standby (.inr hst)]; exact State.on_peerLost_rises hk ho h
  | solo => rw [s.trigger_other (by rw [hst]; rfl)]; exact h
  | primary => rw [s.trigger_other (by rw [hst]; rfl)]; exact h

theorem State.on_peerLost : s.peerLost.on TWN.IRQ_RAW.PEER_LOST = true := by
  unfold State.peerLost
  rw [State.on_fault_ne _ _ _ _ (by decide)]
  exact State.on_set1 _ _ _ (by decide) rfl

section
variable (h : Heartbeat)

theorem State.hbFlagged_none (hf : h.faults &&& s.f TWN.FLTSEL.V = 0) : s.hbFlagged h = s := if_pos hf

theorem State.hbFlagged_some (hf : h.faults &&& s.f TWN.FLTSEL.V ≠ 0) :
    s.hbFlagged h = (s.set1 TWN.IRQ_RAW.PEER_FAULT).trigger 2 s.cyc := if_neg hf

theorem State.hbFlagged_twn : ∃ x, (s.hbFlagged h).twn = { s.twn with sw := x } := by
  by_cases hf : h.faults &&& s.f TWN.FLTSEL.V = 0
  · exact ⟨s.twn.sw, by rw [s.hbFlagged_none h hf]⟩
  · rw [s.hbFlagged_some h hf]
    obtain ⟨x, hx⟩ := (s.set1 TWN.IRQ_RAW.PEER_FAULT).trigger_twn 2 s.cyc
    exact ⟨x, by rw [hx, State.set1_twn]⟩

theorem State.hbCompared_primary (hs : s.twn.st.standby = false) : s.hbCompared h = s := if_pos (by rw [hs]; rfl)

theorem State.hbCompared_never (hs : s.twn.st.standby = true) (hr : h.rseq = rseqNever) : s.hbCompared h = s.notReady := by
  unfold State.hbCompared
  rw [if_neg (by rw [hs]; decide), if_pos hr]

theorem State.hbCompared_other (hs : s.twn.st.standby = true) (hr : h.rseq ≠ rseqNever) :
    s.hbCompared h = (s.awaitCheck (h.dep * s.dsp.period, h.rseq, h.live)).verify.joinDone := by
  unfold State.hbCompared
  rw [if_neg (by rw [hs]; decide), if_neg hr]
end

theorem State.sendHello_st : s.sendHello.twn.st = s.twn.st := by
  unfold State.sendHello State.send
  split <;> rfl

theorem State.on_sendHello (k : Fld) (j : Nat) : s.sendHello.on k j = s.on k j := by
  unfold State.sendHello State.send
  split <;> rfl

theorem State.notReady_standby (h : s.twn.st = .joining ∨ s.twn.st = .ready) :
    s.notReady.twn.st = .notReady ∧ s.notReady.on TWN.IRQ_RAW.NOT_READY = true := by
  unfold State.notReady
  rw [if_pos h, State.sendHello_st, State.on_sendHello]
  exact ⟨rfl, State.on_set1 _ _ _ (by decide) rfl⟩

theorem State.sendHello_pwr : s.sendHello.pwr = s.pwr := by
  unfold State.sendHello State.send
  split <;> rfl

theorem State.notReady_pwr : s.notReady.pwr = s.pwr := by
  unfold State.notReady
  split
  · rw [State.sendHello_pwr, State.set1_pwr, State.onTwn_pwr]
  · rfl

theorem State.diverge_faults : s.diverge.pwr.faults = s.pwr.faults ++ [9] := by
  unfold State.diverge
  rw [State.notReady_pwr]
  rfl

theorem State.diverge_ready (h : s.twn.st = .ready) : s.diverge.twn.st = .notReady
    ∧ s.diverge.on TWN.IRQ_RAW.DIVERGE = true ∧ s.diverge.on TWN.IRQ_RAW.NOT_READY = true := by
  have hst : ((s.set1 TWN.IRQ_RAW.DIVERGE).fault 9).twn.st = .ready := by rw [State.fault_twn, State.set1_twn, h]
  obtain ⟨hnr, hirq⟩ := ((s.set1 TWN.IRQ_RAW.DIVERGE).fault 9).notReady_standby (.inr hst)
  refine ⟨hnr, ?_, hirq⟩
  refine State.on_notReady_rises ⟨rfl, by decide⟩ ?_
  rw [State.on_fault_ne _ _ _ _ (by decide)]
  exact State.on_set1 _ _ _ (by decide) rfl

theorem State.joinDone_of_not_joining (h : s.twn.st ≠ .joining) : s.joinDone = s := if_neg fun hj => h hj.1

/-- A device that verifies a heartbeat with no consist on its books only compares (R354). -/
theorem State.settleCons_of_none (h : s.twn.cons = []) : s.settleCons = s := by
  unfold State.settleCons State.onTwn
  dsimp only
  rw [h]
  exact congrArg (fun x => { s with twn := { s.twn with cons := x } }) h.symm

theorem State.awaitCheck_copied (e : Nat × Nat × Nat) (hc : s.twn.copied = true) :
    s.awaitCheck e = s.onTwn fun x => { x with check := x.check ++ [e] } := if_neg (by rw [hc]; simp)

/-- The one waiting heartbeat, whose records are not yet applied. -/
theorem State.verify_unmet {e : Nat × Nat × Nat} (hc : s.twn.check = [e]) (he : s.twn.rxSeq < e.2.1) : s.verify = s := by
  rw [s.verify_eq, if_pos]
  unfold State.metHbs
  rw [hc]
  split
  · simpa using he
  · rfl

/-- Nothing waits to be verified. -/
theorem State.verify_idle (hc : s.twn.check = []) : s.verify = s := by
  rw [s.verify_eq, if_pos]
  unfold State.metHbs
  rw [hc]
  split <;> rfl

theorem stillWaiting_met {n : Nat} {e : Nat × Nat × Nat} (he : e.2.1 ≤ n) : stillWaiting n [e] = [] := by
  simp [stillWaiting, Nat.not_lt.mpr he]

/-- The one waiting heartbeat, whose records are all applied. -/
theorem State.verify_met {e : Nat × Nat × Nat} (hd : s.twn.copied = true) (hc : s.twn.check = [e]) (he : e.2.1 ≤ s.twn.rxSeq) :
    s.verify = (s.onTwn fun x => { x with check := [] }).verified e.1 e.2.2 := by
  have hm : s.metHbs = [e] := by
    unfold State.metHbs
    rw [if_pos hd, hc]
    simp [he]
  have hu : s.unmetHbs = s.onTwn fun x => { x with check := [] } := by
    unfold State.unmetHbs State.onTwn
    dsimp only
    rw [hc, stillWaiting_met he]
  rw [s.verify_eq, hm, hu, if_neg (List.cons_ne_nil _ _)]
  rfl

/-- A heartbeat verified by a READY device with no consist on its books (R354). -/
theorem State.verified_ready {c live : Nat} (hst : s.twn.st = .ready) (hc : s.twn.cons = []) :
    s.verified c live = (s.onTwn fun x => x.compared c s.cyc (s.sameLive live)).divergeTwice := by
  rw [s.verified_eq, State.settleCons_of_none (s.onTwn fun x => x.compared c s.cyc (s.sameLive live)) hc]
  refine State.joinDone_of_not_joining _ ?_
  unfold State.divergeTwice
  split
  · rw [(State.diverge_ready (s.onTwn fun x => x.compared c s.cyc (s.sameLive live)) hst).1]
    decide
  · show s.twn.st ≠ .joining
    rw [hst]
    decide

/-- What a received heartbeat leaves (R349 to R354, R359). -/
def State.hbTaken (h : Heartbeat) (u : Nat) : State := ((s.hbIn h u).hbFlagged h).hbCompared h

section
variable (h : Heartbeat) (u : Nat)

theorem State.twin_alive (k : State → State) (ha : s.mode.alive = true) : s.twin k = .next (settle (k s)) := by
  unfold State.twin
  rw [if_pos ha]
  rfl

theorem State.twin_dead (k : State → State) (ha : s.mode.alive = false) : s.twin k = .next (settle s) := by
  unfold State.twin
  rw [if_neg (by rw [ha]; exact Bool.false_ne_true)]
  rfl

theorem State.rxHeartbeat_none (hn : s.linked = false ∨ s.twn.st = .solo) : s.rxHeartbeat h u = s :=
  if_pos (by rcases hn with hn | hn <;> simp [hn])

theorem execHeartbeatFrame_taken (ha : s.mode.alive = true) (hl : s.linked = true) (hs : s.twn.st ≠ .solo) :
    execHeartbeatFrame h u s = .next (settle (s.hbTaken h u)) :=
  (s.twin_alive _ ha).trans (by rw [s.rxHeartbeat_eq h u hl hs]; rfl)

theorem execHeartbeatFrame_not (hn : s.mode.alive = false ∨ s.linked = false ∨ s.twn.st = .solo) :
    execHeartbeatFrame h u s = .next (settle s) := by
  cases ha : s.mode.alive with
  | true => exact (s.twin_alive _ ha).trans (by rw [s.rxHeartbeat_none h u (hn.resolve_left (by simp [ha]))])
  | false => exact s.twin_dead _ ha

theorem State.hbTaken_rest : (s.hbTaken h u).hbRest = (s.hbIn h u).hbRest := by
  unfold State.hbTaken
  rw [State.hbRest_hbCompared, State.hbRest_hbFlagged]

theorem State.hbIn_st : (s.hbIn h u).twn.st = s.twn.st := (Twn.of_unheard (s.hbIn_unheard h u)).st

/-- The state of the pair, once the peer's fault flags have been looked at, is as it was. -/
theorem State.hbFlagged_hbIn_st : ((s.hbIn h u).hbFlagged h).twn.st = s.twn.st := by
  obtain ⟨x, hx⟩ := (s.hbIn h u).hbFlagged_twn h
  rw [hx]
  exact s.hbIn_st h u

theorem State.fltsel_hbIn : (s.hbIn h u).f TWN.FLTSEL.V = s.f TWN.FLTSEL.V := s.f_hbIn h u _ (by decide)

theorem State.on_hbFlagged_peerFault (hf : h.faults &&& s.f TWN.FLTSEL.V ≠ 0) :
    (s.hbFlagged h).on TWN.IRQ_RAW.PEER_FAULT = true := by
  rw [s.hbFlagged_some h hf]
  exact State.on_trigger_rises _ ⟨rfl, by decide⟩ (by decide) (by decide) (State.on_set1 _ _ _ (by decide) rfl)

theorem State.on_hbFlagged_peerLost (hf : h.faults &&& s.f TWN.FLTSEL.V ≠ 0) (hs : s.twn.st = .joining ∨ s.twn.st = .notReady) :
    (s.hbFlagged h).on TWN.IRQ_RAW.PEER_LOST = true := by
  rw [s.hbFlagged_some h hf, State.trigger_standby (s.set1 TWN.IRQ_RAW.PEER_FAULT) hs]
  exact State.on_peerLost _

theorem State.on_hbTaken_rises {k : Fld} (hk : k.OneBit) (ho : k.off + 0 ≠ PWR.FLTSTS.FAULT.off)
    (hon : ((s.hbIn h u).hbFlagged h).on k = true) : (s.hbTaken h u).on k = true := State.on_hbCompared_rises _ hk ho hon h

/-- On a PRIMARY a heartbeat is booked, and no more (R351). -/
theorem State.hbTaken_primary (hp : s.twn.st = .primary) : s.hbTaken h u = (s.hbIn h u).hbFlagged h :=
  State.hbCompared_primary _ h (by rw [s.hbFlagged_hbIn_st h u, hp]; rfl)

theorem State.hbIn_primary (hp : s.twn.st = .primary) :
    { s.hbIn h u with raw := s.raw, signals := s.signals, twn := s.twn } = s := by
  have hs : (s.advanceU u).hbSteered h u = s.advanceU u := by
    unfold State.hbSteered
    exact if_neg (by show ¬ (s.twn.st.standby && _ && _) = true; rw [hp]; exact Bool.false_ne_true)
  unfold State.hbIn State.hbBooked
  rw [hs]
  split <;> rfl

/-- The fault flags of the peer leave the switchover of a PRIMARY (R359). -/
theorem State.hbFlagged_primary (hp : s.twn.st = .primary) : (s.hbFlagged h).twn = s.twn := by
  by_cases hf : h.faults &&& s.f TWN.FLTSEL.V = 0
  · rw [s.hbFlagged_none h hf]
  · rw [s.hbFlagged_some h hf, State.trigger_other (s.set1 TWN.IRQ_RAW.PEER_FAULT) (by rw [State.set1_twn, hp]; rfl), State.set1_twn]
end

/-- The books of the receipts, as the comparison leaves them. -/
structure Twn.SameReceipts (x y : Twn) : Prop where
  rxAt : x.rxAt = y.rxAt
  rxNext : x.rxNext = y.rxNext
  missed : x.missed = y.missed
  expect : x.expect = y.expect
  expSeq : x.expSeq = y.expSeq
  early : x.early = y.early
  txAt : x.txAt = y.txAt

theorem Twn.receipts_of_heard {x y : Twn} (h : x.heard = y.heard) : x.SameReceipts y := by
  have hat := congrArg Twn.rxAt h
  have hnext := congrArg Twn.rxNext h
  have hmissed := congrArg Twn.missed h
  have hexpect := congrArg Twn.expect h
  have hseq := congrArg Twn.expSeq h
  have hearly := congrArg Twn.early h
  have htx := congrArg Twn.txAt h
  exact ⟨hat, hnext, hmissed, hexpect, hseq, hearly, htx⟩

theorem Twn.receipts_of_unsteered {x y : Twn} (h : x.unsteered = y.unsteered) : x.SameReceipts y := by
  have hat := congrArg Twn.rxAt h
  have hnext := congrArg Twn.rxNext h
  have hmissed := congrArg Twn.missed h
  have hexpect := congrArg Twn.expect h
  have hseq := congrArg Twn.expSeq h
  have hearly := congrArg Twn.early h
  have htx := congrArg Twn.txAt h
  exact ⟨hat, hnext, hmissed, hexpect, hseq, hearly, htx⟩

section
variable (h : Heartbeat) (u : Nat)

theorem State.hbTaken_receipts : (s.hbTaken h u).twn.SameReceipts (s.hbIn h u).twn :=
  Twn.receipts_of_heard (congrArg HbRest.twn (s.hbTaken_rest h u))

theorem State.hbTaken_theta : (s.hbTaken h u).twn.theta = (s.hbIn h u).twn.theta ∧ (s.hbTaken h u).twn.trip = (s.hbIn h u).twn.trip := by
  have hth : (s.hbTaken h u).twn.heard = (s.hbIn h u).twn.heard := congrArg HbRest.twn (s.hbTaken_rest h u)
  have htheta := congrArg Twn.theta hth
  have htrip := congrArg Twn.trip hth
  exact ⟨htheta, htrip⟩

theorem State.hbAgain_iff : s.hbAgain h = true ↔ h.seq < s.twn.rxNext ∧ s.twn.rxAt ≠ none := by
  unfold State.hbAgain
  rw [Bool.and_eq_true, decide_eq_true_eq, Option.isSome_iff_ne_none]

/-- A heartbeat that repeats a SEQ changes none of the receipts (R351). -/
theorem State.hbIn_again (hseq : h.seq < s.twn.rxNext) (hat : s.twn.rxAt ≠ none) : (s.hbIn h u).twn.SameReceipts s.twn := by
  rw [s.hbIn_twn, if_pos ((s.hbAgain_iff h).mpr ⟨hseq, hat⟩)]
  exact Twn.receipts_of_unsteered (s.hbSteered_twn h u)

/-- Any other heartbeat is received (R351). -/
theorem State.hbIn_received (hn : s.twn.rxNext ≤ h.seq ∨ s.twn.rxAt = none) : (s.hbIn h u).twn
    = ((s.advanceU u).hbSteered h u).twn.received h.seq (s.vtAt u) (s.f TWN.HBWIN.V) := by
  rw [s.hbIn_twn, if_neg]
  intro ha
  obtain ⟨hseq, hat⟩ := (s.hbAgain_iff h).mp ha
  rcases hn with hn | hn
  · omega
  · exact hat hn

/-- The receipts once a heartbeat is received, from those before it (R351). -/
theorem State.hbIn_receipts (hn : s.twn.rxNext ≤ h.seq ∨ s.twn.rxAt = none) :
    (s.hbIn h u).twn.rxAt = some (s.vtAt u) ∧ (s.hbIn h u).twn.missed = 0 ∧ (s.hbIn h u).twn.rxNext = h.seq + 1
      ∧ (s.twn.rxAt ≠ none → h.seq ∈ s.twn.expect.map (fun e => e.1) → (s.hbIn h u).twn.expSeq = s.twn.expSeq
        ∧ (s.hbIn h u).twn.expect = s.twn.expect.filter (fun e => e.1 ≠ h.seq))
      ∧ (s.twn.rxAt = none → (s.hbIn h u).twn.expect = []
        ∧ ∀ l, s.twn.txAt = some l →
          (vtDiff (s.vtAt u) l ≤ (s.f TWN.HBWIN.V * 64 : Nat) → (s.hbIn h u).twn.expSeq = h.seq + 1 ∧ (s.hbIn h u).twn.early = [])
          ∧ ((s.f TWN.HBWIN.V * 64 : Nat) < vtDiff (s.vtAt u) l → (s.hbIn h u).twn.expSeq = h.seq
            ∧ (s.hbIn h u).twn.early = [h.seq])) := by
  have hr := Twn.receipts_of_unsteered (s.hbSteered_twn h u)
  rw [s.hbIn_received h u hn, ← hr.rxAt, ← hr.expect, ← hr.expSeq, ← hr.txAt]
  obtain ⟨hat, hmissed, hnext⟩ :=
    ((s.advanceU u).hbSteered h u).twn.received_stamp h.seq (s.vtAt u) (s.f TWN.HBWIN.V)
  exact ⟨hat, hmissed, hnext, Twn.received_expected _ _ _ _, Twn.received_first _ _ _ _⟩

/-- A READY device that waits for the records before the heartbeat (R354). -/
theorem State.hbTaken_waits (hst : s.twn.st = .ready) (hc : s.twn.copied = true) (hck : s.twn.check = []) (hn : h.rseq ≠ rseqNever)
    (hseq : s.twn.rxSeq < h.rseq) : (s.hbTaken h u).twn.check = [(h.dep * s.dsp.period, h.rseq, h.live)]
      ∧ (s.hbTaken h u).twn.cv = s.twn.cv ∧ (s.hbTaken h u).twn.st = .ready := by
  obtain ⟨x, hx⟩ := (s.hbIn h u).hbFlagged_twn h
  have hb := Twn.of_unheard (s.hbIn_unheard h u)
  have hdsp : ((s.hbIn h u).hbFlagged h).dsp = s.dsp :=
    (congrArg HbRest.dsp ((s.hbIn h u).hbRest_hbFlagged h)).trans (s.hbIn_keeps h u).2.2.2.2.1
  have hst' : ((s.hbIn h u).hbFlagged h).twn.st = .ready := (s.hbFlagged_hbIn_st h u).trans hst
  have hcop : ((s.hbIn h u).hbFlagged h).twn.copied = true := by rw [hx]; exact hb.copied.trans hc
  have hck' : ((s.hbIn h u).hbFlagged h).twn.check = [] := by rw [hx]; exact hb.check.trans hck
  have hrx : ((s.hbIn h u).hbFlagged h).twn.rxSeq = s.twn.rxSeq := by rw [hx]; exact hb.rxSeq
  have hcv : ((s.hbIn h u).hbFlagged h).twn.cv = s.twn.cv := by rw [hx]; exact hb.cv
  unfold State.hbTaken
  generalize (s.hbIn h u).hbFlagged h = t at hst' hcop hck' hrx hcv hdsp ⊢
  have ht : t.hbCompared h = t.onTwn fun x => { x with check := x.check ++ [(h.dep * t.dsp.period, h.rseq, h.live)] } := by
    rw [t.hbCompared_other h (by rw [hst']; rfl) hn, t.awaitCheck_copied _ hcop, State.verify_unmet _
      (e := (h.dep * t.dsp.period, h.rseq, h.live)) (by show t.twn.check ++ _ = _; rw [hck']; rfl) (by rw [← hrx] at hseq; exact hseq)]
    exact State.joinDone_of_not_joining _ (by show t.twn.st ≠ _; rw [hst']; decide)
  rw [ht]
  refine ⟨?_, hcv, hst'⟩
  show t.twn.check ++ _ = _
  rw [hck', hdsp]
  rfl
end

/-! ### A comparison made by a READY device -/

theorem State.sameLive_congr {t : State} (h : t.slots = s.slots) (live : Nat) : t.sameLive live = s.sameLive live := by
  unfold State.sameLive State.countBooks
  rw [h]

theorem State.cyc_congr {t : State} (hr : t.raw = s.raw) (ho : t.vtOff = s.vtOff) : t.cyc = s.cyc := by
  unfold State.cyc State.vt State.vtAt
  rw [hr, ho]

/-- The heartbeats that wait to be verified, as given. -/
def State.waitingHbs (hs : List (Nat × Nat × Nat)) : State := { s with twn := { s.twn with check := hs } }

theorem State.awaitCheck_first (e : Nat × Nat × Nat) (hc : s.twn.copied = true) (hck : s.twn.check = []) :
    s.awaitCheck e = s.waitingHbs [e] := by
  rw [s.awaitCheck_copied e hc]
  unfold State.onTwn State.waitingHbs
  dsimp only
  rw [hck, List.nil_append]

theorem State.awaitCheck_any (e : Nat × Nat × Nat) : ∃ hs, s.awaitCheck e = s.waitingHbs hs := by
  unfold State.awaitCheck
  split
  · exact ⟨s.twn.check, rfl⟩
  · exact ⟨s.twn.check ++ [e], rfl⟩

/-- Before the copy of a join nothing is verified (R364). -/
theorem State.verify_uncopied (hc : s.twn.copied = false) : s.verify = s := by
  rw [s.verify_eq, if_pos]
  unfold State.metHbs
  exact if_neg (by rw [hc]; exact Bool.false_ne_true)

/-- The one waiting heartbeat compared, and no other left waiting (R354). -/
def State.comparedOne (c live : Nat) : State :=
  { s with twn := { s.twn with check := [] }.compared c s.cyc (s.sameLive live) }

theorem State.verify_one {e : Nat × Nat × Nat} (hst : s.twn.st = .ready) (hcons : s.twn.cons = []) (hc : s.twn.copied = true)
    (hck : s.twn.check = []) (he : e.2.1 ≤ s.twn.rxSeq) :
    (s.awaitCheck e).verify = (s.comparedOne e.1 e.2.2).divergeTwice := by
  rw [s.awaitCheck_first e hc hck, (s.waitingHbs [e]).verify_met hc rfl he]
  exact State.verified_ready _ hst hcons

theorem State.divergeTwice_not (h : s.twn.differ ≠ 2) : s.divergeTwice = s := if_neg h

theorem State.divergeTwice_second (h : s.twn.differ = 2) : s.divergeTwice = s.diverge := if_pos h

theorem State.notReady_twn (h : s.twn.st = .joining ∨ s.twn.st = .ready) :
    ∃ o, s.notReady.twn = { s.twn with st := .notReady, sw := none, out := o } := by
  unfold State.notReady
  rw [if_pos h]
  unfold State.sendHello State.send
  split
  · exact ⟨_, rfl⟩
  · exact ⟨s.twn.out, rfl⟩

theorem State.diverge_twn (h : s.twn.st = .ready) : ∃ o, s.diverge.twn = { s.twn with st := .notReady, sw := none, out := o } := by
  have hst : ((s.set1 TWN.IRQ_RAW.DIVERGE).fault 9).twn = s.twn := by rw [State.fault_twn, State.set1_twn]
  obtain ⟨o, ho⟩ := ((s.set1 TWN.IRQ_RAW.DIVERGE).fault 9).notReady_twn (.inr (by rw [hst, h]))
  exact ⟨o, by unfold State.diverge; rw [ho, hst]⟩

section
variable (h : Heartbeat)

/-- A READY device compares the heartbeat whose records it has applied (R354). -/
theorem State.hbCompared_one (hst : s.twn.st = .ready) (hcons : s.twn.cons = []) (hc : s.twn.copied = true)
    (hck : s.twn.check = []) (he : h.rseq ≤ s.twn.rxSeq) (hn : h.rseq ≠ rseqNever) :
    s.hbCompared h = (s.comparedOne (h.dep * s.dsp.period) h.live).divergeTwice := by
  rw [s.hbCompared_other h (by rw [hst]; rfl) hn, s.verify_one (e := (h.dep * s.dsp.period, h.rseq, h.live)) hst hcons hc hck he]
  refine State.joinDone_of_not_joining _ ?_
  unfold State.divergeTwice
  split
  · rw [(State.diverge_ready (s.comparedOne (h.dep * s.dsp.period) h.live) hst).1]
    decide
  · show s.twn.st ≠ .joining
    rw [hst]
    decide

/-- A comparison that does not differ twice leaves a READY device and its switchover (R354, R360). -/
theorem State.hbCompared_switching {x : Switch} (hst : s.twn.st = .ready) (hcons : s.twn.cons = []) (hck : s.twn.check = [])
    (hd : s.twn.differ ≠ 1) (hn : h.rseq ≠ rseqNever) (hsw : s.twn.sw = some x) (hx : x.w ≤ s.cyc) :
    ∃ y : Twn, s.hbCompared h = { s with twn := y } ∧ y.st = .ready ∧ y.sw = some x := by
  have hnj : ∀ y : Twn, y.st = .ready → ({ s with twn := y } : State).joinDone = { s with twn := y } := fun y hy =>
    State.joinDone_of_not_joining _ (by show y.st ≠ _; rw [hy]; decide)
  rw [s.hbCompared_other h (by rw [hst]; rfl) hn]
  by_cases hc : s.twn.copied = true
  · by_cases he : h.rseq ≤ s.twn.rxSeq
    · refine ⟨{ s.twn with check := [] }.compared (h.dep * s.dsp.period) s.cyc (s.sameLive h.live), ?_, hst, ?_⟩
      · rw [s.verify_one (e := (h.dep * s.dsp.period, h.rseq, h.live)) hst hcons hc hck he, State.divergeTwice_not]
        · exact hnj _ hst
        · show (if s.sameLive h.live then 0 else s.twn.differ + 1) ≠ 2
          split <;> omega
      · show s.twn.sw.map _ = _
        rw [hsw]
        exact congrArg some (if_neg (by omega))
    · refine ⟨{ s.twn with check := [(h.dep * s.dsp.period, h.rseq, h.live)] }, ?_, hst, hsw⟩
      rw [s.awaitCheck_first _ hc hck, (s.waitingHbs [(h.dep * s.dsp.period, h.rseq, h.live)]).verify_unmet rfl (Nat.not_le.mp he)]
      exact hnj _ hst
  · obtain ⟨hs, hw⟩ := s.awaitCheck_any (h.dep * s.dsp.period, h.rseq, h.live)
    refine ⟨{ s.twn with check := hs }, ?_, hst, hsw⟩
    rw [hw, (s.waitingHbs hs).verify_uncopied (Bool.eq_false_iff.mpr hc)]
    exact hnj _ hst
end

/-! ### A switchover begun -/

theorem State.swBegun_free {trig : Nat} (ht : trig ≠ 3)
    (h : s.twn.sw = none ∨ ∃ y, s.twn.sw = some y ∧ y.trig = 3 ∧ s.cyc < y.w) : s.swBegun trig = false := by
  unfold State.swBegun
  rcases h with h | ⟨y, h, hy, hw⟩ <;> rw [h]
  simp [ht, hy, hw]

theorem State.swBegun_taken {trig : Nat} {y : Switch} (h : s.twn.sw = some y) (hy : y.trig ≠ 3 ∨ y.w ≤ s.cyc) :
    s.swBegun trig = true := by
  unfold State.swBegun
  rw [h]
  rcases hy with hy | hy <;> simp [hy]

theorem State.swBegins_trigger {trig w : Nat} (ht : trig ≠ 3) (hlt : trig < 16) : (s.swBegins trig w).f TWN.LASTSW.TRIGGER = trig := by
  unfold State.swBegins
  dsimp only
  rw [if_neg ht, State.f_setF_self _ _ _ _ (by decide)]
  exact Nat.mod_eq_of_lt hlt

theorem State.swBegins_pwr (trig w : Nat) : (s.swBegins trig w).pwr = s.pwr := by
  unfold State.swBegins
  dsimp only
  split
  · rfl
  · rw [State.setF_pwr, State.onTwn_pwr]

theorem State.peerLost_faults : s.peerLost.pwr.faults = s.pwr.faults ++ [10] := by
  unfold State.peerLost
  rw [State.faults_fault, State.set1_pwr]

/-! ### A heartbeat missed (R351) -/

section
variable (d : Nat) (ds : List (Nat × Nat))

/-- The miss in the books: the counter, the flag and the signal. -/
def State.missBooked : State :=
  let s := (s.advance d).onTwn fun x => { x with expect := ds, missed := x.missed + 1 }
  ((s.signal 7 0 s.twn.missed (s.vtAt (d * 64))).bump TWN.CNT_EVT.LO).set1 TWN.IRQ_RAW.HB_MISS

/-- What the third miss in a row brings (R348, R359). -/
def State.thirdMiss : State :=
  if s.twn.missed ≠ 3 then s else if s.twn.st = .primary then s.peerLost else s.trigger 1 s.cyc

theorem State.missBooked_twn : (s.missBooked d ds).twn = { s.twn with expect := ds, missed := s.twn.missed + 1 } := by
  unfold State.missBooked
  dsimp only
  rw [State.set1_twn, State.bump_twn]
  rfl

theorem State.missHb_eq {k : Nat} (h : s.twn.expect = (k, d) :: ds) : s.missHb = (s.missBooked d ds).thirdMiss := by
  unfold State.missHb State.thirdMiss
  rw [s.missBooked_twn d ds, h]
  rfl

theorem State.missBooked_rest : (s.missBooked d ds).raw = max s.raw d ∧ (s.missBooked d ds).mode = s.mode
    ∧ (s.missBooked d ds).slots = s.slots ∧ (s.missBooked d ds).pwr = s.pwr
    ∧ (s.missBooked d ds).signals
      = s.signals ++ [{ kind := 7, idx := 0, g1 := s.twn.missed + 1, s0 := s.vtAt (d * 64), since := max s.raw d }] := by
  unfold State.missBooked
  dsimp only
  rw [State.set1_raw, State.bump_raw, State.set1_mode, State.bump_mode, State.set1_slots, State.bump_slots, State.set1_pwr,
    State.bump_pwr, State.set1_signals, State.bump_signals]
  exact ⟨rfl, rfl, rfl, rfl, rfl⟩

theorem State.missBooked_frame : { s.missBooked d ds with
    raw := s.raw, signals := s.signals, twn := s.twn, seenNow := s.seenNow, regs := s.regs } = s := rfl

theorem State.missBooked_count : (s.missBooked d ds).f TWN.CNT_EVT.LO = counted s TWN.CNT_EVT.LO := by
  unfold State.missBooked
  dsimp only
  rw [State.f_set1_eq, State.f_setF_other _ _ _ _ _ _ (by decide), State.f_bump_eq, State.f_setF_self _ _ _ _ (by decide),
    State.counted_eq]
  rfl

theorem State.missBooked_irq : (s.missBooked d ds).on TWN.IRQ_RAW.HB_MISS = true := State.on_set1 _ _ _ (by decide) rfl

/-- What the third miss leaves whatever it brings. -/
theorem State.hbRest_thirdMiss : s.thirdMiss.hbRest = s.hbRest := by
  unfold State.thirdMiss
  split
  · rfl
  · split
    · exact s.hbRest_peerLost
    · exact s.hbRest_trigger 1 _

theorem State.thirdMiss_twn : ∃ x, s.thirdMiss.twn = { s.twn with sw := x } := by
  unfold State.thirdMiss
  split
  · exact ⟨s.twn.sw, rfl⟩
  · split
    · exact ⟨s.twn.sw, s.peerLost_twn⟩
    · exact s.trigger_twn 1 _

theorem State.f_peerLost (g : Fld) (h1 : g.off + 0 ≠ PWR.FLTSTS.FAULT.off) (h2 : g.off + 0 ≠ TWN.IRQ_RAW.PEER_LOST.off) :
    s.peerLost.f g = s.f g := by
  unfold State.peerLost
  rw [State.f_fault_eq, State.f_setF_other _ _ _ _ _ _ h1, State.f_set1_eq, State.f_setF_other _ _ _ _ _ _ h2]

theorem State.f_trigger (trig w : Nat) (g : Fld) (h1 : g.off + 0 ≠ PWR.FLTSTS.FAULT.off)
    (h2 : g.off + 0 ≠ TWN.IRQ_RAW.PEER_LOST.off) (h3 : g.off + 0 ≠ TWN.LASTSW.TRIGGER.off) : (s.trigger trig w).f g = s.f g := by
  cases hst : s.twn.st with
  | ready =>
    rw [s.trigger_ready hst]
    split
    · rfl
    · unfold State.swBegins
      dsimp only
      split
      · rfl
      · rw [State.f_setF_other _ _ _ _ _ _ h3, State.f_onTwn]
  | joining => rw [s.trigger_standby (.inl hst), s.f_peerLost g h1 h2]
  | notReady => rw [s.trigger_standby (.inr hst), s.f_peerLost g h1 h2]
  | solo => rw [s.trigger_other (by rw [hst]; rfl)]
  | primary => rw [s.trigger_other (by rw [hst]; rfl)]

theorem State.thirdMiss_count : s.thirdMiss.f TWN.CNT_EVT.LO = s.f TWN.CNT_EVT.LO := by
  unfold State.thirdMiss
  split
  · rfl
  · split
    · exact s.f_peerLost _ (by decide) (by decide)
    · exact s.f_trigger 1 _ _ (by decide) (by decide) (by decide)

theorem State.on_thirdMiss_rises {k : Fld} (hk : k.OneBit) (ho : k.off + 0 ≠ PWR.FLTSTS.FAULT.off)
    (hl : k.off + 0 ≠ TWN.LASTSW.TRIGGER.off) (h : s.on k = true) : s.thirdMiss.on k = true := by
  unfold State.thirdMiss
  split
  · exact h
  · split
    · exact State.on_peerLost_rises hk ho h
    · exact State.on_trigger_rises _ hk ho hl h

theorem State.thirdMiss_primary (hm : s.twn.missed = 3) (hst : s.twn.st = .primary) : s.thirdMiss = s.peerLost := by
  unfold State.thirdMiss
  rw [if_neg (by simp [hm]), if_pos hst]

theorem State.thirdMiss_standby (hm : s.twn.missed = 3) (hst : s.twn.st ≠ .primary) : s.thirdMiss = s.trigger 1 s.cyc := by
  unfold State.thirdMiss
  rw [if_neg (by simp [hm]), if_neg hst]

theorem State.cyc_thirdMiss : s.thirdMiss.cyc = s.cyc :=
  State.cyc_congr s (congrArg HbRest.raw s.hbRest_thirdMiss) (congrArg HbRest.vtOff s.hbRest_thirdMiss)
end

theorem execHeartbeatMiss_not (h : s.mode.alive = false ∨ (s.linked = false ∧ s.twn.st = .solo) ∨ s.twn.expect = []) :
    execHeartbeatMiss s = .next (settle s) := by
  cases ha : s.mode.alive with
  | false => exact s.twin_dead _ ha
  | true =>
    refine (s.twin_alive _ ha).trans ?_
    rcases h.resolve_left (by simp [ha]) with ⟨hl, hs⟩ | he
    · rw [if_neg (by simp [hl, hs])]
    · have hmiss : s.missHb = s := by
        unfold State.missHb
        rw [he]
      rw [hmiss, ite_self]

theorem execHeartbeatMiss_missed (ha : s.mode.alive = true) (hl : s.linked = true ∨ s.twn.st ≠ .solo) {k d : Nat}
    {ds : List (Nat × Nat)} (he : s.twn.expect = (k, d) :: ds) :
    execHeartbeatMiss s = .next (settle (s.missBooked d ds).thirdMiss) := by
  refine (s.twin_alive _ ha).trans ?_
  rw [if_pos (by rcases hl with h | h <;> simp [h]), s.missHb_eq d ds he]

end Sys2Proof.Machine
end

section
open Sys2Proof Sys2Proof.Machine

/-- Settles O48: the receipt of a heartbeat in its steps (the steering, the books, the peer's flags, the comparison), and a miss. -/
theorem heartbeats : Obligations.Heartbeats := by
  unfold Obligations.Heartbeats
  refine ⟨fun s h u hn => execHeartbeatFrame_not s h u hn, fun s h u ha hl hs => ?_, fun s h u ha hl hf hst hc hck hcons hr hn => ?_,
    fun s h u ha hl hf hst hsw hcons hck hd hn => ?_, execHeartbeatMiss_not, fun s ha hl k d ds he => ?_⟩
  · obtain ⟨hraw, -, hslots, hmode, -, hpwr, hsig⟩ := s.hbIn_keeps h u
    have hrest := s.hbTaken_rest h u
    have hR := s.hbTaken_receipts h u
    have hraw' : (s.hbTaken h u).raw = max s.raw ((u + 63) / 64) := (congrArg HbRest.raw hrest).trans hraw
    have hsolo : (s.hbIn h u).f TWN.FLTSEL.V = s.f TWN.FLTSEL.V := s.fltsel_hbIn h u
    refine ⟨s.hbTaken h u, execHeartbeatFrame_taken s h u ha hl hs, hraw', fun hseq hat => ?_, fun hn => ?_, ?_,
      (congrArg HbRest.slots hrest).trans hslots, (congrArg HbRest.mode hrest).trans hmode, fun hf => ?_, fun e r hth hst hseq => ?_,
      fun hf hst => ?_, fun hp => ?_, fun hr hst => ?_, fun hst hc hck hr hseq => s.hbTaken_waits h u hst hc hck hr hseq⟩
    · have hA := s.hbIn_again h u hseq hat
      exact ⟨hR.rxAt.trans hA.rxAt, hR.rxNext.trans hA.rxNext, hR.missed.trans hA.missed, hR.expect.trans hA.expect⟩
    · rw [hR.rxAt, hR.missed, hR.rxNext, hR.expSeq, hR.expect, hR.early]
      exact s.hbIn_receipts h u hn
    · rw [hraw']
      exact (congrArg HbRest.signals hrest).trans hsig
    · exact s.on_hbTaken_rises h u ⟨rfl, by decide⟩ (by decide) (State.on_hbFlagged_peerFault _ h (by rw [hsolo]; exact hf))
    · obtain ⟨htheta, htrip⟩ := s.hbTaken_theta h u
      obtain ⟨hi, hi'⟩ := s.hbIn_theta h u hth hst hseq
      exact ⟨htheta.trans hi, htrip.trans hi'⟩
    · exact s.on_hbTaken_rises h u ⟨rfl, by decide⟩ (by decide)
        (State.on_hbFlagged_peerLost _ h (by rw [hsolo]; exact hf) (by rw [s.hbIn_st h u]; exact hst))
    · have hb := Twn.of_unheard (s.hbIn_unheard h u)
      rw [s.hbTaken_primary h u hp, State.hbFlagged_primary _ h ((s.hbIn_st h u).trans hp)]
      refine ⟨hb.st.trans hp, hb.sw, hb.queue, fun hf => ?_⟩
      rw [State.hbFlagged_none _ h (by rw [hsolo]; exact hf)]
      exact s.hbIn_primary h u hp
    · have hst' := s.hbFlagged_hbIn_st h u
      have hsb : ((s.hbIn h u).hbFlagged h).twn.st.standby = true := by rw [hst']; rcases hst with h | h <;> rw [h] <;> rfl
      unfold State.hbTaken
      rw [State.hbCompared_never _ h hsb hr]
      exact State.notReady_standby _ (by rw [hst']; exact hst.symm)
  · obtain ⟨-, -, hslots, -, hdsp, hpwr, -⟩ := s.hbIn_keeps h u
    have hb := Twn.of_unheard (s.hbIn_unheard h u)
    have hlive : (s.hbIn h u).sameLive h.live = decide (s.countBooks.2.1 = h.live) := s.sameLive_congr hslots h.live
    have ht : s.hbTaken h u = ((s.hbIn h u).comparedOne (h.dep * s.dsp.period) h.live).divergeTwice := by
      unfold State.hbTaken
      rw [State.hbFlagged_none _ h (by rw [s.fltsel_hbIn]; exact hf), State.hbCompared_one _ h (hb.st.trans hst) (hb.cons.trans hcons)
        (hb.copied.trans hc) (hb.check.trans hck) (by rw [hb.rxSeq]; exact hr) hn, hdsp]
    have hcst : ((s.hbIn h u).comparedOne (h.dep * s.dsp.period) h.live).twn.st = .ready := hb.st.trans hst
    have hdiffer : ((s.hbIn h u).comparedOne (h.dep * s.dsp.period) h.live).twn.differ
        = if s.countBooks.2.1 = h.live then 0 else s.twn.differ + 1 := by
      show (if (s.hbIn h u).sameLive h.live = true then 0 else (s.hbIn h u).twn.differ + 1) = _
      rw [hlive, hb.differ]
      simp only [decide_eq_true_eq]
    refine ⟨s.hbTaken h u, execHeartbeatFrame_taken s h u ha hl (by rw [hst]; decide), ?_⟩
    rw [ht]
    by_cases h2 : ((s.hbIn h u).comparedOne (h.dep * s.dsp.period) h.live).twn.differ = 2
    · obtain ⟨o, ho⟩ := State.diverge_twn _ hcst
      obtain ⟨hnst, hdiv, hnr⟩ := State.diverge_ready _ hcst
      rw [State.divergeTwice_second _ h2, ho]
      rw [hdiffer] at h2
      have hne : s.countBooks.2.1 ≠ h.live := fun heq => by rw [if_pos heq] at h2; cases h2
      rw [if_neg hne] at h2 hdiffer
      refine ⟨rfl, rfl, fun heq => absurd heq hne, fun _ => ⟨hdiffer, fun h0 => by omega, fun _ => ⟨rfl, hdiv, hnr, ?_⟩⟩⟩
      rw [State.diverge_faults]
      exact congrArg (fun p => p.faults ++ [9]) hpwr
    · rw [State.divergeTwice_not _ h2]
      refine ⟨rfl, rfl, fun heq => ⟨hcst, hdiffer.trans (if_pos heq), hpwr⟩, fun hne => ⟨hdiffer.trans (if_neg hne),
        fun _ => ⟨hcst, hpwr⟩, fun h1 => absurd (hdiffer.trans ((if_neg hne).trans (by rw [h1]))) h2⟩⟩
  · obtain ⟨hraw, hoff, -, -, -, -, -⟩ := s.hbIn_keeps h u
    have hb := Twn.of_unheard (s.hbIn_unheard h u)
    have hcyc : (s.hbIn h u).cyc = ({ s with raw := max s.raw ((u + 63) / 64) } : State).cyc := State.cyc_congr _ hraw hoff
    have hst' : ((s.hbIn h u).set1 TWN.IRQ_RAW.PEER_FAULT).twn.st = .ready := by rw [State.set1_twn, hb.st, hst]
    have hcyc' : ((s.hbIn h u).set1 TWN.IRQ_RAW.PEER_FAULT).cyc = (s.hbIn h u).cyc :=
      State.cyc_congr _ (State.set1_raw _ _ _) (State.set1_vtOff _ _ _)
    have hflag : (s.hbIn h u).hbFlagged h
        = ((s.hbIn h u).set1 TWN.IRQ_RAW.PEER_FAULT).swBegins 2 (s.hbIn h u).cyc := by
      rw [State.hbFlagged_some _ h (by rw [s.fltsel_hbIn]; exact hf), State.trigger_ready _ hst', State.swBegun_free _ (by decide)]
      · rfl
      · rw [State.set1_twn, hb.sw, hcyc', hcyc]
        exact hsw
    have hf2 : ((s.hbIn h u).hbFlagged h).f TWN.LASTSW.TRIGGER = 2 := by
      rw [hflag]
      exact State.swBegins_trigger _ (by decide) (by decide)
    have htwn : ((s.hbIn h u).hbFlagged h).twn
        = { (s.hbIn h u).twn with sw := some { trig := 2, w := (s.hbIn h u).cyc, cv := (s.hbIn h u).twn.cv } } := by
      rw [hflag, State.swBegins_twn, State.set1_twn]
    have hfc : ((s.hbIn h u).hbFlagged h).cyc = (s.hbIn h u).cyc :=
      State.cyc_congr _ (congrArg HbRest.raw (State.hbRest_hbFlagged _ h)) (congrArg HbRest.vtOff (State.hbRest_hbFlagged _ h))
    obtain ⟨y, hy, hyst, hysw⟩ := ((s.hbIn h u).hbFlagged h).hbCompared_switching h
      (x := { trig := 2, w := (s.hbIn h u).cyc, cv := (s.hbIn h u).twn.cv }) (by rw [htwn]; exact hb.st.trans hst)
      (by rw [htwn]; exact hb.cons.trans hcons) (by rw [htwn]; exact hb.check.trans hck)
      (by rw [htwn]; exact fun h1 => hd (hb.differ.symm.trans h1)) hn (by rw [htwn]) (by rw [hfc])
    refine ⟨s.hbTaken h u, { trig := 2, w := (s.hbIn h u).cyc, cv := (s.hbIn h u).twn.cv },
      execHeartbeatFrame_taken s h u ha hl (by rw [hst]; decide), ?_⟩
    unfold State.hbTaken
    rw [hy]
    exact ⟨hyst, hysw, rfl, hfc.symm, hb.cv, hf2⟩
  · obtain ⟨hraw, hmode, hslots, hpwr, hsig⟩ := s.missBooked_rest d ds
    have htwn := s.missBooked_twn d ds
    obtain ⟨x, hx⟩ := (s.missBooked d ds).thirdMiss_twn
    have hrest := (s.missBooked d ds).hbRest_thirdMiss
    have hraw' : (s.missBooked d ds).thirdMiss.raw = max s.raw d := (congrArg HbRest.raw hrest).trans hraw
    have hcyc := (s.missBooked d ds).cyc_thirdMiss
    have h3 : s.twn.missed = 2 → (s.missBooked d ds).twn.missed = 3 := fun h => by rw [htwn]; exact congrArg (· + 1) h
    have hst : (s.missBooked d ds).twn.st = s.twn.st := by rw [htwn]
    have hsw : (s.missBooked d ds).twn.sw = s.twn.sw := by rw [htwn]
    have hcv : (s.missBooked d ds).twn.cv = s.twn.cv := by rw [htwn]
    refine ⟨(s.missBooked d ds).thirdMiss, execHeartbeatMiss_missed s ha hl he, hraw', (congrArg HbRest.mode hrest).trans hmode,
      (congrArg HbRest.slots hrest).trans hslots, ?_, (State.thirdMiss_count _).trans (s.missBooked_count d ds),
      State.on_thirdMiss_rises _ ⟨rfl, by decide⟩ (by decide) (by decide) (s.missBooked_irq d ds), by rw [hx, htwn], by rw [hx, htwn],
      by rw [hx, htwn], by rw [hx, htwn], fun hm => ?_, fun hm hp => ?_, fun hm hr hfree => ?_, fun hm hr y hy htk => ?_,
      fun hm hsb => ?_⟩
    · rw [hraw']
      exact (congrArg HbRest.signals hrest).trans hsig
    · have hn : (s.missBooked d ds).thirdMiss = s.missBooked d ds :=
        if_pos (by rw [htwn]; exact fun h => hm (Nat.succ.inj h))
      rw [hn]
      exact ⟨htwn, s.missBooked_frame d ds⟩
    · rw [State.thirdMiss_primary _ (h3 hm) (hst.trans hp), State.peerLost_twn, htwn, hm]
      exact ⟨rfl, State.on_peerLost _, by rw [State.peerLost_faults, hpwr]⟩
    · rw [hcyc] at hfree ⊢
      rw [State.thirdMiss_standby _ (h3 hm) (by rw [hst, hr]; decide), State.trigger_ready _ (hst.trans hr),
        State.swBegun_free _ (by decide) (by rw [hsw]; exact hfree), if_neg Bool.false_ne_true, State.swBegins_twn, hcv,
        State.swBegins_pwr, hpwr]
      exact ⟨rfl, State.swBegins_trigger _ (by decide) (by decide), rfl⟩
    · rw [hcyc] at htk
      rw [State.thirdMiss_standby _ (h3 hm) (by rw [hst, hr]; decide), State.trigger_ready _ (hst.trans hr),
        State.swBegun_taken _ (hsw.trans hy) htk, if_pos rfl, hsw]
    · rw [State.thirdMiss_standby _ (h3 hm) (by rw [hst]; rcases hsb with h | h <;> rw [h] <;> decide),
        State.trigger_standby _ (by rw [hst]; exact hsb), State.peerLost_twn, hsw]
      exact ⟨State.on_peerLost _, rfl, by rw [State.peerLost_faults, hpwr]⟩

end

section
/-! PROOFS. Claims and releases of tracks, aborts, banks' supplies, line configuration (R78 to R88). -/

namespace Sys2Proof.Machine

variable (s : State)

/-! ### Holders -/

theorem bitsAt_word_putBits (w : Word) (lo n v : Nat) (h : lo + n ≤ 32) : bitsAt (word (putBits w.toNat lo n v)).toNat lo n = v % 2 ^ n := by
  rw [word_toNat_putBits _ _ _ _ h, bitsAt_putBits]

theorem State.holderAt_setHolder (a id role : Nat) : (s.setHolder a id role).holderAt a = id % 256 := by
  have hlt : putBits (putBits (s.reg a).toNat 8 8 id) 16 2 role < 2 ^ 32 :=
    putBits_lt _ _ _ _ (putBits_lt _ _ _ _ (s.reg a).isLt (by decide)) (by decide)
  unfold State.holderAt State.setHolder
  dsimp only
  rw [State.reg_setReg, if_pos rfl, BitVec.toNat_ofNat, Nat.mod_eq_of_lt hlt, bitsAt_putBits_below _ _ _ _ _ _ (by decide),
    bitsAt_putBits]
  rfl

theorem State.holderAt_setHolder_ne (a b id role : Nat) (h : b ≠ a) : (s.setHolder a id role).holderAt b = s.holderAt b := by
  unfold State.holderAt State.setHolder
  dsimp only
  rw [State.reg_setReg_ne _ _ _ _ h]

theorem State.holderAt_lt (a : Nat) : s.holderAt a < 256 := by
  unfold State.holderAt
  rw [bitsAt_eq]
  exact Nat.mod_lt _ (by decide)

theorem State.holderAt_congr {t : State} {a : Nat} (h : t.reg a = s.reg a) : t.holderAt a = s.holderAt a := by
  unfold State.holderAt
  rw [h]

theorem State.setHolder_regsBut (a id role : Nat) : RegsBut s (s.setHolder a id role) [a] :=
  (RegsBut.refl s _).setReg (List.mem_singleton.mpr rfl)

theorem State.setHolder_frame (a id role : Nat) : { s.setHolder a id role with regs := s.regs } = s := rfl

section
variable (r : Requester) (a kind idx : Nat)

theorem State.claim_free (h : s.holderAt a = 0) : s.claim r a kind idx = s.setHolder a r.id (s.holderRole r) := if_pos h

theorem State.claim_own (h : s.holderAt a = r.id) : s.claim r a kind idx = s := by
  have h0 : s.holderAt a ≠ 0 := by rw [h]; cases r <;> simp [Requester.id]
  unfold State.claim
  rw [if_neg h0, if_pos h]

theorem State.claim_held (h0 : s.holderAt a ≠ 0) (h : s.holderAt a ≠ r.id) :
    s.claim r a kind idx = s.refuseClaim r a kind idx (s.holderAt a) 0 0 := by
  unfold State.claim
  rw [if_neg h0, if_neg h]

theorem State.release_own (h : s.holderAt a = r.id) : s.release r a kind idx = s.setHolder a 0 0 := by
  have h0 : s.holderAt a ≠ 0 := by rw [h]; cases r <;> simp [Requester.id]
  unfold State.release
  rw [if_neg h0, if_pos h]

theorem State.release_held (h0 : s.holderAt a ≠ 0) (h : s.holderAt a ≠ r.id) :
    s.release r a kind idx = s.refuseClaim r a kind idx (s.holderAt a) 0 0 := by
  unfold State.release
  rw [if_neg h0, if_neg h]
end

/-! ### What a refusal leaves -/

theorem pages_aligned : ∀ p ∈ pages, p.base % 0x100 = 0 ∧ p.stride % 0x100 = 0 := by decide

/-- A page begins at a multiple of 256, whichever of its copies it is. -/
theorem pageOf_aligned {a b : Nat} {p : Page} (h : pageOf a = some (p, b)) : b % 0x100 = 0 := by
  unfold pageOf at h
  obtain ⟨q, hq, he⟩ := Option.map_eq_some_iff.mp h
  obtain ⟨rfl, rfl⟩ := Prod.mk.inj he
  obtain ⟨hbase, hstride⟩ := pages_aligned q (List.mem_of_find?_eq_some hq)
  rw [Nat.add_mod, hbase, Nat.mul_mod, hstride, Nat.mul_zero, Nat.zero_mod]

theorem State.reg_capture_ne (base ofs : Nat) (r : Requester) (why : Reason) (k : Nat) (h : k ≠ base + 0x1C) :
    (s.capture base ofs r why).reg k = s.reg k := by
  unfold State.capture
  show SMap.get resetWord _ k = _
  split
  · rfl
  · exact s.reg_setReg_ne _ _ _ h

/-- A refusal is recorded in an ERR_CAP, the word at 0x1C of a page. -/
theorem State.reg_discard_ne (a : Nat) (r : Requester) (why : Reason) (k : Nat) (h : k % 0x100 ≠ 0x1C) :
    (s.discard a r why).reg k = s.reg k := by
  unfold State.discard
  cases hp : pageOf a with
  | none => rfl
  | some p =>
    obtain ⟨p, b⟩ := p
    refine s.reg_capture_ne b _ r why k fun hk => h ?_
    have := pageOf_aligned hp
    omega

theorem State.flags_setReg (q : Seen) (x : SMap Word) (k : Nat) (v : Word) :
    { s.setReg k v with seenNow := q, regs := x } = { s with seenNow := q, regs := x } := rfl

theorem State.flags_set1 (q : Seen) (x : SMap Word) (g : Fld) (i : Nat) :
    { s.set1 g i with seenNow := q, regs := x } = { s with seenNow := q, regs := x } := rfl

theorem State.discard_frame (a : Nat) (r : Requester) (why : Reason) :
    { s.discard a r why with seenNow := s.seenNow, regs := s.regs } = s := by
  unfold State.discard
  cases pageOf a with
  | none => rfl
  | some p => rfl

/-- The word of CONFCAP0 (R78). -/
def confWord (kind idx role id holder : Nat) : Word :=
  word (kind * 2 ^ 28 + idx % 2 ^ 10 * 2 ^ 18 + role * 2 ^ 16 + id % 2 ^ 8 * 2 ^ 8 + holder % 2 ^ 8)

theorem roleCode_lt (r : Role) : r.code < 4 := by cases r <;> decide

theorem confWord_fields {kind idx role id holder : Nat} (hk : kind < 16) (hr : role < 4) :
    bitsAt (confWord kind idx role id holder).toNat 0 8 = holder % 256 ∧ bitsAt (confWord kind idx role id holder).toNat 8 8 = id % 256
      ∧ bitsAt (confWord kind idx role id holder).toNat 28 4 = kind
      ∧ bitsAt (confWord kind idx role id holder).toNat 18 10 = idx % 1024 := by
  unfold confWord
  simp only [BitVec.toNat_ofNat, bitsAt_eq]
  omega

section
variable (r : Requester) (a kind idx holder held want : Nat)

/-- The conflict recorded, before the refusal itself. -/
def State.conflicted : State := (s.set1 JNC.IRQ_RAW.CONFLICT).conflictCap kind idx (s.role r) r.id holder held want

theorem State.refuseClaim_eq : s.refuseClaim r a kind idx holder held want
    = ((s.conflicted r kind idx holder held want).discard a r .conflict).firstRefusal r a .conflict := rfl

theorem State.reg_refuseClaim (k : Nat) (h : k % 0x100 ≠ 0x1C) :
    (s.refuseClaim r a kind idx holder held want).reg k = (s.conflicted r kind idx holder held want).reg k := by
  rw [s.refuseClaim_eq, State.firstRefusal, State.reg_capture_ne _ _ _ _ _ _ fun hk => h (by rw [hk]; rfl),
    State.reg_discard_ne _ _ _ _ _ h]

theorem State.f_refuseClaim (g : Fld) (h : (g.off + 0) % 0x100 ≠ 0x1C) :
    (s.refuseClaim r a kind idx holder held want).f g = (s.conflicted r kind idx holder held want).f g := by
  unfold State.f
  rw [s.reg_refuseClaim r a kind idx holder held want _ h]

theorem State.conflicted_word : (s.conflicted r kind idx holder held want).reg JNC.CONFCAP0.KIND.off
    = confWord kind idx (s.role r).code r.id holder := by
  unfold State.conflicted State.conflictCap
  dsimp only
  rw [State.reg_setReg_ne _ _ _ _ (by decide), State.reg_setReg_ne _ _ _ _ (by decide), State.reg_setReg_ne _ _ _ _ (by decide),
    State.reg_setReg, if_pos rfl, confWord]

theorem State.conflicted_irq : (s.conflicted r kind idx holder held want).on JNC.IRQ_RAW.CONFLICT = true := by
  unfold State.conflicted State.conflictCap
  dsimp only
  unfold State.on State.f
  rw [State.reg_setReg_ne _ _ _ _ (by decide), State.reg_setReg_ne _ _ _ _ (by decide), State.reg_setReg_ne _ _ _ _ (by decide),
    State.reg_setReg_ne _ _ _ _ (by decide)]
  exact State.on_set1 s _ _ (by decide) rfl

/-- Another register reads as before a conflict is recorded. -/
theorem State.reg_conflicted (k : Nat) (h : k ∉ [JNC.IRQ_RAW.CONFLICT.off, JNC.CONFCAP0.KIND.off, JNC.CONFCAP1.HELD_SRC.off,
    JNC.CONFCAP2.DEP.off, JNC.CNT_EVT.LO.off]) : (s.conflicted r kind idx holder held want).reg k = s.reg k :=
  ((((RegsBut.set1 (g := JNC.IRQ_RAW.CONFLICT) (i := 0) (RegsBut.refl s _) (by decide)).setReg (by decide)).setReg (by decide)).setReg
    (by decide)).setReg (by decide) k h

theorem State.conflicted_frame : { s.conflicted r kind idx holder held want with seenNow := s.seenNow, regs := s.regs } = s := by
  unfold State.conflicted State.conflictCap
  dsimp only
  rw [State.flags_setReg, State.flags_setReg, State.flags_setReg, State.flags_setReg, State.flags_set1]

theorem State.refuseClaim_frame : { s.refuseClaim r a kind idx holder held want with seenNow := s.seenNow, regs := s.regs } = s := by
  have hd : ∀ t : State, { (t.discard a r .conflict).firstRefusal r a .conflict with seenNow := s.seenNow, regs := s.regs }
      = { t with seenNow := s.seenNow, regs := s.regs } := fun t =>
    congrArg (fun u : State => { u with seenNow := s.seenNow, regs := s.regs }) (t.discard_frame a r .conflict)
  rw [s.refuseClaim_eq, hd, s.conflicted_frame]

/-- What the refusal of a claim records (R78). -/
theorem State.refuseClaim_records (hk : kind < 16) :
    (s.refuseClaim r a kind idx holder held want).on JNC.IRQ_RAW.CONFLICT = true
      ∧ (s.refuseClaim r a kind idx holder held want).f JNC.CONFCAP0.HOLDER = holder % 256
      ∧ (s.refuseClaim r a kind idx holder held want).f JNC.CONFCAP0.CLAIMANT = r.id % 256
      ∧ (s.refuseClaim r a kind idx holder held want).f JNC.CONFCAP0.KIND = kind
      ∧ (s.refuseClaim r a kind idx holder held want).f JNC.CONFCAP0.INDEX = idx % 1024 := by
  have hw := s.conflicted_word r kind idx holder held want
  have hf : ∀ g : Fld, g.off + 0 = JNC.CONFCAP0.KIND.off → (s.refuseClaim r a kind idx holder held want).f g
      = bitsAt (confWord kind idx (s.role r).code r.id holder).toNat g.lo g.wid := fun g hg => by
    rw [s.f_refuseClaim r a kind idx holder held want g (by rw [hg]; decide), State.f, hg, hw]
  obtain ⟨hholder, hid, hkind, hidx⟩ := confWord_fields (idx := idx) (id := r.id) (holder := holder) hk (roleCode_lt (s.role r))
  refine ⟨?_, (hf _ rfl).trans hholder, (hf _ rfl).trans hid, (hf _ rfl).trans hkind, (hf _ rfl).trans hidx⟩
  rw [State.on_eq, s.f_refuseClaim r a kind idx holder held want _ (by decide), ← State.on_eq]
  exact s.conflicted_irq r kind idx holder held want
end

/-! ### The installer's release of a track (R80) -/

theorem State.reg_log (kind : Nat) (role : Role) (req result addr old new : Nat) (k : Nat)
    (h : k ∉ [adr SEC.LOGPOS.V, adr SEC.LOGLOST.V, adr SEC.IRQ_RAW.LOG_OVW]) :
    (s.log kind role req result addr old new).reg k = s.reg k := by
  have hf := s.f_log kind role req result addr old new { off := k, lo := 0, wid := 32 } 0 h
  simp only [State.f, Nat.add_zero, bitsAt_eq, Nat.pow_zero, Nat.div_one] at hf
  rw [Nat.mod_eq_of_lt (BitVec.isLt _), Nat.mod_eq_of_lt (BitVec.isLt _)] at hf
  exact BitVec.eq_of_toNat_eq hf

theorem State.slots_log (kind : Nat) (role : Role) (req result addr old new : Nat) :
    (s.log kind role req result addr old new).slots = s.slots := by
  unfold State.log State.logAt
  dsimp only
  split <;> simp only [State.set1_slots, State.bump_slots, State.setF_slots]

theorem State.lines_log (kind : Nat) (role : Role) (req result addr old new : Nat) :
    (s.log kind role req result addr old new).lines = s.lines := by
  unfold State.log State.logAt
  dsimp only
  split <;> simp only [State.set1_lines, State.bump_lines, State.setF_lines]

/-- A track's holder register is none of the logbook's. -/
theorem trkHolder_apart (n : Nat) :
    TRK.OWN.HOLDER.off + trkAt n ∉ [adr SEC.LOGPOS.V, adr SEC.LOGLOST.V, adr SEC.IRQ_RAW.LOG_OVW] := by
  have h1 : TRK.OWN.HOLDER.off = 0x100048 := rfl
  have h2 : adr SEC.LOGPOS.V = 0x2074 := rfl
  have h3 : adr SEC.LOGLOST.V = 0x2078 := rfl
  have h4 : adr SEC.IRQ_RAW.LOG_OVW = 0x2010 := rfl
  simp only [List.mem_cons, List.not_mem_nil, or_false, not_or]
  omega

/-- The release of a held track by the installer, logged. -/
def State.trackFreed (r : Requester) (n : Nat) : State :=
  let a := TRK.OWN.HOLDER.off + trkAt n
  let t := s.setHolder a 0 0
  t.log 1 (t.role r) r.id 0 a (s.reg a).toNat (t.reg a).toNat

theorem State.jncFree_track (r : Requester) {v : Word} (hk : bitsAt v.toNat 28 4 = kindTrack) (hn : bitsAt v.toNat 18 10 < 256)
    (hr : s.hasRole r .installer = true) (hs : s.sealed JNC.page.base = false) : s.jncFree r v
      = if s.holderAt (TRK.OWN.HOLDER.off + trkAt (bitsAt v.toNat 18 10)) = 0 then s else s.trackFreed r (bitsAt v.toNat 18 10) := by
  unfold State.jncFree
  simp only [hk, hs, kindTrack, kindLine, kindFanout, kindRuler]
  rw [if_neg (by simp; omega)]
  simp only [OfNat.ofNat_ne_zero, Nat.reduceEqDiff, Bool.false_eq_true, if_false, if_true, hr, Bool.not_true]
  rfl

theorem State.trackFreed_keeps (r : Requester) (n : Nat) : (s.trackFreed r n).holderAt (TRK.OWN.HOLDER.off + trkAt n) = 0
    ∧ (s.trackFreed r n).trk = s.trk ∧ (s.trackFreed r n).slots = s.slots ∧ (s.trackFreed r n).lines = s.lines := by
  unfold State.trackFreed
  dsimp only
  refine ⟨?_, ?_, ?_, ?_⟩
  · rw [State.holderAt_congr _ (State.reg_log _ _ _ _ _ _ _ _ _ (trkHolder_apart n)), State.holderAt_setHolder]
  · rw [State.trk_log, State.setHolder_trk]
  · rw [State.slots_log, State.setHolder_slots]
  · rw [State.lines_log, State.setHolder_lines]

/-! ### The abort of a track (R82) -/

theorem State.dropLoads_keeps (xs : List LoadSrc) (out : Nat) : ∃ x, s.dropLoads xs out = { s with slots := x } := by
  unfold State.dropLoads
  induction xs generalizing s with
  | nil => exact ⟨s.slots, rfl⟩
  | cons x xs ih =>
    have h : ∃ y, s.acted x out = { s with slots := y } := by
      cases x with
      | direct => exact ⟨s.slots, rfl⟩
      | slot i =>
        unfold State.acted
        dsimp only
        split
        · exact ⟨_, rfl⟩
        · exact ⟨s.slots, rfl⟩
    obtain ⟨y, hy⟩ := h
    rw [List.foldl_cons, hy]
    obtain ⟨z, hz⟩ := ih ({ s with slots := y } : State)
    exact ⟨z, hz⟩

/-- A track at rest after an abort: nothing loaded, armed or open; its stamps stay (R82). -/
def Track.cleared (x : Track) (u : Option Nat) : Track :=
  { x with
    aAct := none, aShd := none, bAct := none, bShd := none, stop := none, marks := [], train := none
    armed := false, left := none, gate := none, prevSel := none, openEdge := none, following := false, owed := []
    edgeAt := u, lvl := false }

theorem State.clearTrack_keeps (t out : Nat) : ∃ x y u,
    s.clearTrack t out = { s.setTrack t ((s.track t).cleared u) with slots := x, lines := y } := by
  unfold State.clearTrack
  dsimp only
  generalize (s.track t).loads ++ _ ++ _ = xs
  obtain ⟨z, hz⟩ := s.dropLoads_keeps xs out
  rw [hz]
  split
  · exact ⟨z, _, _, rfl⟩
  · exact ⟨z, s.lines, _, rfl⟩

theorem State.trkAbort_track (t : Nat) : (∃ u, (s.trkAbort t).track t = (s.track t).cleared u)
    ∧ (∀ j, j ≠ t → (s.trkAbort t).track j = s.track j)
    ∧ { s.trkAbort t with regs := s.regs, trk := s.trk, slots := s.slots, lines := s.lines } = s := by
  obtain ⟨x, y, u, hc⟩ := s.clearTrack_keeps t outAborted
  have htrk : (s.trkAbort t).trk = (s.setTrack t ((s.track t).cleared u)).trk := by
    unfold State.trkAbort
    dsimp only
    rw [State.setHolder_trk, State.setF_trk, hc]
  have htrack : ∀ j, (s.trkAbort t).track j = (s.setTrack t ((s.track t).cleared u)).track j := fun j =>
    congrArg (fun m => SMap.get (fun _ => ({} : Track)) m j) htrk
  refine ⟨⟨u, ?_⟩, fun j hj => ?_, ?_⟩
  · rw [htrack, State.track_setTrack, if_pos rfl]
  · rw [htrack, State.track_setTrack, if_neg hj]
  · unfold State.trkAbort
    dsimp only
    rw [hc]
    rfl

theorem State.trkAbort_mode (t : Nat) : (s.trkAbort t).tmode t = mdOff := by
  have hne : TRK.MODE.CODE.off + trkAt t ≠ TRK.OWN.HOLDER.off + trkAt t := by simp [TRK.MODE.CODE, TRK.OWN.HOLDER]
  unfold State.trkAbort State.tmode
  dsimp only
  rw [State.f, (State.setHolder_regsBut _ _ _ _) _ (by simpa using hne)]
  exact State.f_setF_self _ _ _ _ (by decide)

theorem State.trkAbort_holder (t : Nat) : (s.trkAbort t).holderAt (TRK.OWN.HOLDER.off + trkAt t) = 0 :=
  State.holderAt_setHolder _ _ _ _

/-! ### The abort of the junction matrix (R316) -/

/-- One register freed by an abort of JNC. -/
def State.holderFreed (e : Nat × Word) : State :=
  if holderReg e.1 then
    let s := s.setHolder e.1 0 0
    if 0x140000 ≤ e.1 ∧ e.1 < 0x160000 then s.setReg e.1 (word (putBits (s.reg e.1).toNat RUL.OWN.TTACC.lo 1 0)) else s
  else s

theorem State.jncAbort_eq : s.jncAbort = s.regs.foldl State.holderFreed s := rfl

theorem State.holderFreed_keeps (e : Nat × Word) :
    (s.holderFreed e).slots = s.slots ∧ (s.holderFreed e).mem = s.mem ∧ (s.holderFreed e).raw = s.raw := by
  unfold State.holderFreed
  dsimp only
  split
  · split
    · rw [State.setReg_slots, State.setReg_mem, State.setReg_raw]
      exact ⟨State.setHolder_slots _ _ _ _, State.setHolder_mem _ _ _ _, State.setHolder_raw _ _ _ _⟩
    · exact ⟨State.setHolder_slots _ _ _ _, State.setHolder_mem _ _ _ _, State.setHolder_raw _ _ _ _⟩
  · exact ⟨rfl, rfl, rfl⟩

theorem State.foldl_holderFreed_keeps (es : List (Nat × Word)) : (es.foldl State.holderFreed s).slots = s.slots
    ∧ (es.foldl State.holderFreed s).mem = s.mem ∧ (es.foldl State.holderFreed s).raw = s.raw := by
  induction es generalizing s with
  | nil => exact ⟨rfl, rfl, rfl⟩
  | cons e es ih =>
    obtain ⟨hslots, hmem, hraw⟩ := ih (s.holderFreed e)
    obtain ⟨hslots', hmem', hraw'⟩ := s.holderFreed_keeps e
    exact ⟨hslots.trans hslots', hmem.trans hmem', hraw.trans hraw'⟩

/-- A track's holder register, below the ruling units. -/
theorem State.holderAt_holderFreed (e : Nat × Word) {a : Nat} (ha : holderReg a = true) (hlt : a < 0x140000) :
    (s.holderFreed e).holderAt a = if e.1 = a then 0 else s.holderAt a := by
  unfold State.holderFreed
  dsimp only
  by_cases he : e.1 = a
  · rw [he, if_pos ha, if_neg (by omega), State.holderAt_setHolder, if_pos rfl]
  · rw [if_neg he]
    split
    · split
      · rw [State.holderAt, State.reg_setReg_ne _ _ _ _ (Ne.symm he)]
        exact s.holderAt_setHolder_ne e.1 a 0 0 (Ne.symm he)
      · exact s.holderAt_setHolder_ne e.1 a 0 0 (Ne.symm he)
    · rfl

theorem State.holderAt_foldl (es : List (Nat × Word)) {a : Nat} (ha : holderReg a = true) (hlt : a < 0x140000) :
    (es.foldl State.holderFreed s).holderAt a = if a ∈ es.map Prod.fst then 0 else s.holderAt a := by
  induction es generalizing s with
  | nil => rfl
  | cons e es ih =>
    rw [List.foldl_cons, ih, s.holderAt_holderFreed e ha hlt, List.map_cons]
    by_cases h1 : a ∈ es.map Prod.fst
    · rw [if_pos h1, if_pos (List.mem_cons_of_mem _ h1)]
    · by_cases h2 : e.1 = a
      · rw [if_neg h1, if_pos h2, if_pos (List.mem_cons.mpr (.inl h2.symm))]
      · rw [if_neg h1, if_neg h2, if_neg (by rw [List.mem_cons]; rintro (h | h); exacts [h2 h.symm, h1 h])]

theorem SMap.get_of_not_mem {α : Type} (d : Nat → α) (m : SMap α) (k : Nat) (h : k ∉ m.map Prod.fst) : SMap.get d m k = d k := by
  induction m with
  | nil => rfl
  | cons e m ih =>
    obtain ⟨i, v⟩ := e
    rw [List.map_cons, List.mem_cons, not_or] at h
    exact (if_neg h.1).trans (ih h.2)

/-- After an abort of JNC no track has a holder. -/
theorem State.jncAbort_holder {a : Nat} (ha : holderReg a = true) (hlt : a < 0x140000) (hz : bitsAt (resetWord a).toNat 8 8 = 0) :
    s.jncAbort.holderAt a = 0 := by
  rw [s.jncAbort_eq, s.holderAt_foldl _ ha hlt]
  split
  · rfl
  · next hn => rw [State.holderAt, State.reg, SMap.get_of_not_mem _ _ _ hn, hz]

/-! ### A bank's supply (R83) -/

section
variable (b : Nat) (v : Supply)

/-- A bank's monitor shows another level. -/
def State.supplied : State := { s with banks := SMap.put (fun _ => Supply.absent) s.banks b v }

theorem State.supply_supplied (j : Nat) : (s.supplied b v).supply j = if j = b then v else s.supply j := SMap.get_put _ _ _ _ _

/-- The supply agrees with VSEL as before a bank fault. -/
theorem State.bankOk_fault : ((s.set1 JNC.IRQ_RAW.BANK_FAULT).fault 0x04).bankOk b = s.bankOk b := by
  have hne : JNC.BANK.VSEL.off + 4 * b ≠ JNC.IRQ_RAW.BANK_FAULT.off + 0 := by
    have : JNC.BANK.VSEL.off = 0x120040 := rfl
    have : JNC.IRQ_RAW.BANK_FAULT.off = 0x120010 := rfl
    omega
  have hne' : JNC.BANK.VSEL.off + 4 * b ≠ PWR.FLTSTS.FAULT.off + 0 := by
    have : JNC.BANK.VSEL.off = 0x120040 := rfl
    have : PWR.FLTSTS.FAULT.off = 0x1058 := rfl
    omega
  have hon : ((s.set1 JNC.IRQ_RAW.BANK_FAULT).fault 0x04).on JNC.BANK.VSEL (4 * b) = s.on JNC.BANK.VSEL (4 * b) := by
    rw [State.on_eq, State.f_fault_eq, State.f_setF_other _ _ _ _ _ _ hne', State.f_set1_eq, State.f_setF_other _ _ _ _ _ _ hne,
      ← State.on_eq]
  have hsup : ((s.set1 JNC.IRQ_RAW.BANK_FAULT).fault 0x04).supply b = s.supply b := rfl
  unfold State.bankOk
  rw [hon, hsup]

theorem State.banks_fault : ((s.set1 JNC.IRQ_RAW.BANK_FAULT).fault 0x04).banks = s.banks := by
  rw [State.fault_banks, State.set1_banks]

theorem execBankSupplyChange_bad (b : BankId) (hp : s.mode.powered = true) (hb : (s.supplied b.val v).bankOk b.val = false) :
    execBankSupplyChange b v s = .next (settle (((s.supplied b.val v).set1 JNC.IRQ_RAW.BANK_FAULT).fault 0x04)) := by
  unfold execBankSupplyChange
  dsimp only
  rw [if_pos]
  · rfl
  · show (s.mode.powered && !(s.supplied b.val v).bankOk b.val) = true
    rw [hp, hb]
    rfl

theorem execBankSupplyChange_good (b : BankId) (hb : (s.supplied b.val v).bankOk b.val = true) :
    execBankSupplyChange b v s = .next (settle (s.supplied b.val v)) := by
  unfold execBankSupplyChange
  dsimp only
  rw [if_neg]
  · rfl
  · show ¬ (s.mode.powered && !(s.supplied b.val v).bankOk b.val) = true
    rw [hb, Bool.not_true, Bool.and_false]
    exact Bool.false_ne_true
end

/-! ### A line's configuration (R88) -/

section
variable (r : Requester) (v : Word)

/-- A write of a staged register by a requester with no consist open (R305). -/
theorem State.write_opens (a : Nat) {g : Reg} {o : Nat} (hr : regAt a = some (g, o)) (hc : g.cons ≠ 0) (h : s.opens r a = true) :
    s.write r a v = s.put r a v none := by
  unfold State.opens at h
  simp only [Bool.and_eq_true, Option.isNone_iff_eq_none] at h
  obtain ⟨⟨⟨-, hcons⟩, hown⟩, habort⟩ := h
  unfold State.write
  rw [hr]
  dsimp only
  rw [if_pos hc]
  unfold State.gate
  rw [hcons]
  dsimp only
  unfold State.direct
  cases hp : pageOf a with
  | none => rw [hp] at habort; cases habort
  | some p =>
    rw [hp] at habort
    dsimp only at habort ⊢
    rw [if_neg (by simpa using habort), hown, s.bypass_none r hcons]

theorem State.reaches_of_opens {a : Nat} (h : s.opens r a = true) : s.reaches r = true := by
  unfold State.opens at h
  simp only [Bool.and_eq_true] at h
  exact h.1.1.1

theorem lnCfg_at : ∀ n : Fin 128, regAt (lnReg n.val false) = some (JNC.LN_CFG, 16 * n.val)
    ∧ pageOf (lnReg n.val false) = some (JNC.page, JNC.page.base) := by decide +kernel

/-- The word of LN_CFG with each of its fields written. -/
def lnWord (w v : Nat) : Nat := JNC.LN_CFG.fields.foldl (fun w g => putBits w g.lo g.wid (bitsAt v g.lo g.wid)) w

/-- A line configured, its change logged, and claimed where it takes another source (R88). -/
def State.lineSet (n : Nat) : State :=
  let a := lnReg n false
  let w := (s.reg a).toNat
  let t := if lnWord w v.toNat = w then s else (s.setReg a (word (lnWord w v.toNat))).log 1 (s.role r) r.id 0 a w (lnWord w v.toNat)
  if bitsAt w 16 10 ≠ bitsAt v.toNat 16 10 then t.claimLine n r.id (s.role r).code else t

theorem State.lnWrite_free {n : Nat} (hn : n < 128) (hr : s.hasRole r .installer = true) (hs : s.sealed JNC.page.base = false)
    (hodd : s.oddOfPair n = false) (hrange : rangeBad JNC.LN_CFG.fields v.toNat = false) (hsrc : srcOk (bitsAt v.toNat 16 10) = true)
    (h0 : bitsAt (s.reg (lnReg n false)).toNat 16 10 = 0) : s.lnWrite r n false v none = s.lineSet r v n := by
  have hf : fieldsAt (lnReg n false) = JNC.LN_CFG.fields := by
    unfold fieldsAt
    rw [(lnCfg_at ⟨n, hn⟩).1]
  have hal : s.allows r JNC.page.base JNC.LN_CFG.SRC = true := by
    unfold State.allows
    rw [hs]
    exact hr
  unfold State.lnWrite State.lineSet lnWord
  simp only [hodd, hf, hrange, hsrc, hal, h0]
  simp
theorem bitsAt_lt (w lo n : Nat) : bitsAt w lo n < 2 ^ n := by
  rw [bitsAt_eq]
  exact Nat.mod_lt _ (Nat.two_pow_pos _)

theorem lnWord_eq (w v : Nat) : lnWord w v = putBits (putBits (putBits (putBits (putBits (putBits (putBits (putBits w 16 10 (bitsAt v 16 10))
    14 2 (bitsAt v 14 2)) 12 2 (bitsAt v 12 2)) 10 2 (bitsAt v 10 2)) 8 2 (bitsAt v 8 2)) 7 1 (bitsAt v 7 1)) 6 1 (bitsAt v 6 1)) 5 1
    (bitsAt v 5 1) := rfl

theorem lnWord_src (w v : Nat) : bitsAt (lnWord w v) 16 10 = bitsAt v 16 10 := by
  rw [lnWord_eq]
  simp (disch := decide) only [bitsAt_putBits_above, bitsAt_putBits]
  exact Nat.mod_eq_of_lt (bitsAt_lt v 16 10)

theorem lnWord_pull (w v : Nat) : bitsAt (lnWord w v) 10 2 = bitsAt v 10 2 := by
  rw [lnWord_eq]
  simp (disch := decide) only [bitsAt_putBits_above, bitsAt_putBits]
  exact Nat.mod_eq_of_lt (bitsAt_lt v 10 2)

theorem lnWord_lt {w : Nat} (v : Nat) (hw : w < 2 ^ 32) : lnWord w v < 2 ^ 32 := by
  rw [lnWord_eq]
  iterate 8 refine putBits_lt _ _ _ _ ?_ (by decide)
  exact hw

theorem lnReg_apart (n : Nat) : lnReg n false ∉ [adr SEC.LOGPOS.V, adr SEC.LOGLOST.V, adr SEC.IRQ_RAW.LOG_OVW] := by
  have h1 : lnReg n false = 0x120800 + 16 * n := rfl
  have h2 : adr SEC.LOGPOS.V = 0x2074 := rfl
  have h3 : adr SEC.LOGLOST.V = 0x2078 := rfl
  have h4 : adr SEC.IRQ_RAW.LOG_OVW = 0x2010 := rfl
  simp only [List.mem_cons, List.not_mem_nil, or_false, not_or]
  omega

theorem State.claimLine_reg (n id role k : Nat) : (s.claimLine n id role).reg k = s.reg k := rfl

theorem State.lineSet_reg (n : Nat) : (s.lineSet r v n).reg (lnReg n false) = word (lnWord (s.reg (lnReg n false)).toNat v.toNat) := by
  have ht : (if lnWord (s.reg (lnReg n false)).toNat v.toNat = (s.reg (lnReg n false)).toNat then s
      else (s.setReg (lnReg n false) (word (lnWord (s.reg (lnReg n false)).toNat v.toNat))).log 1 (s.role r) r.id 0 (lnReg n false)
        (s.reg (lnReg n false)).toNat (lnWord (s.reg (lnReg n false)).toNat v.toNat)).reg (lnReg n false)
      = word (lnWord (s.reg (lnReg n false)).toNat v.toNat) := by
    split
    · next hw => exact BitVec.eq_of_toNat_eq (by rw [BitVec.toNat_ofNat, hw, Nat.mod_eq_of_lt (BitVec.isLt _)])
    · rw [State.reg_log _ _ _ _ _ _ _ _ _ (lnReg_apart n), State.reg_setReg, if_pos rfl]
  unfold State.lineSet
  dsimp only
  split
  · rw [State.claimLine_reg]
    exact ht
  · exact ht

theorem State.lineSet_f (n : Nat) (g : Fld) (h : g.off + lnAt n = lnReg n false) :
    (s.lineSet r v n).f g (lnAt n) = bitsAt (lnWord (s.reg (lnReg n false)).toNat v.toNat) g.lo g.wid := by
  rw [State.f, h, State.lineSet_reg, BitVec.toNat_ofNat, Nat.mod_eq_of_lt (lnWord_lt v.toNat (s.reg (lnReg n false)).isLt)]

/-- The change of a line's configuration before the claim. -/
def State.lineLogged (n : Nat) : State :=
  let a := lnReg n false
  let w := (s.reg a).toNat
  if lnWord w v.toNat = w then s else (s.setReg a (word (lnWord w v.toNat))).log 1 (s.role r) r.id 0 a w (lnWord w v.toNat)

theorem State.lineLogged_keeps (n : Nat) : (s.lineLogged r v n).lines = s.lines ∧ (s.lineLogged r v n).trk = s.trk
    ∧ (s.lineLogged r v n).slots = s.slots := by
  unfold State.lineLogged
  dsimp only
  split
  · exact ⟨rfl, rfl, rfl⟩
  · rw [State.lines_log, State.trk_log, State.slots_log]
    exact ⟨rfl, rfl, rfl⟩

theorem State.lineSet_eq (n : Nat) : s.lineSet r v n = if bitsAt (s.reg (lnReg n false)).toNat 16 10 ≠ bitsAt v.toNat 16 10
    then (s.lineLogged r v n).claimLine n r.id (s.role r).code else s.lineLogged r v n := rfl

theorem State.line_congr {t : State} (h : t.lines = s.lines) (j : Nat) : t.line j = s.line j := by
  unfold State.line
  rw [h]

theorem State.line_claimLine (n id role j : Nat) : (s.claimLine n id role).line j
    = if j = n then { s.line n with claimant := id, crole := role } else s.line j := s.line_setLine _ _ _

/-- What a line's configuration leaves: the configuration in force, the other lines, tracks and entries (R88). -/
theorem State.lineSet_keeps (n : Nat) : ((s.lineSet r v n).line n).cfg = (s.line n).cfg
    ∧ (bitsAt (s.reg (lnReg n false)).toNat 16 10 ≠ bitsAt v.toNat 16 10 → ((s.lineSet r v n).line n).claimant = r.id)
    ∧ (∀ j, j ≠ n → (s.lineSet r v n).line j = s.line j) ∧ (s.lineSet r v n).trk = s.trk ∧ (s.lineSet r v n).slots = s.slots := by
  obtain ⟨hlines, htrk, hslots⟩ := s.lineLogged_keeps r v n
  rw [s.lineSet_eq]
  split
  · refine ⟨?_, fun _ => ?_, fun j hj => ?_, htrk, hslots⟩
    · rw [State.line_claimLine, if_pos rfl, s.line_congr hlines]
    · rw [State.line_claimLine, if_pos rfl]
    · rw [State.line_claimLine, if_neg hj, s.line_congr hlines]
  · next hn =>
    exact ⟨by rw [s.line_congr hlines], fun h => absurd h hn, fun j _ => s.line_congr hlines j, htrk, hslots⟩

/-- A write of LN_CFG that R88 lets through. -/
theorem execLnCfgWrite_free (n : Fin 128) (ho : s.opens r (lnReg n.val false) = true) (hr : s.hasRole r .installer = true)
    (hs : s.sealed JNC.page.base = false) (hodd : s.oddOfPair n.val = false)
    (hrange : rangeBad JNC.LN_CFG.fields v.toNat = false) (hsrc : srcOk (bitsAt v.toNat 16 10) = true)
    (h0 : bitsAt (s.reg (lnReg n.val false)).toNat 16 10 = 0) :
    execLnCfgWrite r n false v s = .next (settle (s.lineSet r v n.val)) := by
  obtain ⟨hreg, hpage⟩ := lnCfg_at n
  have hput : s.put r (lnReg n.val false) v none = s.lnWrite r n.val false v none := by
    have ho : lnReg n.val false - JNC.page.base = 0x800 + 16 * n.val := by
      show 0x120800 + 16 * n.val - 0x120000 = _
      omega
    unfold State.put
    rw [hpage]
    dsimp only
    rw [ho]
    have hn := n.isLt
    rw [if_neg (by omega), if_neg (by omega), if_neg (by omega), if_neg (by omega)]
    show s.jncPut r (0x800 + 16 * n.val) v none = _
    unfold State.jncPut
    dsimp only
    rw [if_neg (by simp; omega), if_neg (by omega), if_pos (by simp; omega), if_pos (by omega),
      show (0x800 + 16 * n.val - 0x800) / 16 = n.val by omega]
  unfold execLnCfgWrite busWrite
  rw [access_reach s r _ (s.reaches_of_opens r ho), s.write_opens r v _ hreg (by decide) ho, hput,
    s.lnWrite_free r v n.isLt hr hs hodd hrange hsrc h0]

end

end Sys2Proof.Machine
end

section
open Sys2Proof Sys2Proof.Machine

-- In order: each proof evaluates in the kernel, which waits for the proofs before it.
set_option Elab.async false

/-- Settles O16: claims by the holder's register, aborts by what they clear, a line's write through the page to the line. -/
theorem claimsAndLines : Obligations.ClaimsAndLines := by
  unfold Obligations.ClaimsAndLines
  refine ⟨fun s r t ho h0 => ?_, fun s r t ho h0 h => ?_, fun s r t ho h => ?_, fun s r v ho hr hs hk hn => ?_, fun s t ha => ?_,
    fun s ha => ?_, fun s b v hp => ?_, fun s r n v ho hr hs hodd hrange hsrc h0 => ?_⟩
  · exact ⟨s.setHolder (trkReg TRK.OWN.HOLDER t) r.id (s.holderRole r),
      (write_opens s r _ _ ho).trans (by rw [s.claim_free r _ _ _ h0]), s.holderAt_setHolder _ _ _, s.setHolder_regsBut _ _ _,
      s.setHolder_frame _ _ _⟩
  · obtain ⟨hirq, hholder, hid, hkind, hidx⟩ :=
      s.refuseClaim_records r (trkReg TRK.OWN.HOLDER t) kindTrack t.val (s.holderAt (trkReg TRK.OWN.HOLDER t)) 0 0 (by decide)
    have hoff : (trkReg TRK.OWN.HOLDER t) = 0x100048 + t.val * 0x100 := rfl
    refine ⟨s.refuseClaim r (trkReg TRK.OWN.HOLDER t) kindTrack t.val (s.holderAt (trkReg TRK.OWN.HOLDER t)) 0 0,
      (write_opens s r _ _ ho).trans (by rw [s.claim_held r _ _ _ h0 h]), (write_opens s r _ _ ho).trans (by rw [s.release_held r _ _ _ h0 h]),
      State.holderAt_congr _ ?_, hirq, hholder.trans (Nat.mod_eq_of_lt (s.holderAt_lt _)), hid, hkind,
      hidx.trans (Nat.mod_eq_of_lt (by omega)), s.refuseClaim_frame _ _ _ _ _ _ _⟩
    rw [State.reg_refuseClaim _ _ _ _ _ _ _ _ _ (by rw [hoff]; omega), State.reg_conflicted]
    rw [hoff]
    have h1 : JNC.IRQ_RAW.CONFLICT.off = 0x120010 := rfl
    have h2 : JNC.CONFCAP0.KIND.off = 0x120070 := rfl
    have h3 : JNC.CONFCAP1.HELD_SRC.off = 0x120074 := rfl
    have h4 : JNC.CONFCAP2.DEP.off = 0x120078 := rfl
    have h5 : JNC.CNT_EVT.LO.off = 0x12002C := rfl
    simp only [List.mem_cons, List.not_mem_nil, or_false, not_or]
    omega
  · exact ⟨s.setHolder (trkReg TRK.OWN.HOLDER t) 0 0, (write_opens s r _ _ ho).trans (by rw [s.release_own r _ _ _ h]),
      s.holderAt_setHolder _ _ _, (write_opens s r _ _ ho).trans (by rw [s.claim_own r _ _ _ h]), s.setHolder_regsBut _ _ _,
      s.setHolder_frame _ _ _⟩
  · refine ⟨s.jncFree r v, write_opens s r _ _ ho, ?_⟩
    rw [s.jncFree_track r hk hn hr hs]
    split
    · next h0 => exact ⟨h0, rfl, rfl, rfl⟩
    · exact s.trackFreed_keeps r _
  · obtain ⟨⟨u, hu⟩, hother, hframe⟩ := s.trkAbort_track t.val
    refine ⟨s.trkAbort t.val, done_if_pos _ _ _ ha, s.trkAbort_mode _, s.trkAbort_holder _, ?_⟩
    rw [hu]
    exact ⟨rfl, rfl, rfl, rfl, rfl, rfl, rfl, rfl, rfl, rfl, rfl, hother, hframe⟩
  · obtain ⟨hslots, hmem, hraw⟩ := s.foldl_holderFreed_keeps s.regs
    have hz : ∀ i : Fin 256, holderReg (TRK.OWN.HOLDER.off + trkAt i.val) = true
        ∧ bitsAt (resetWord (TRK.OWN.HOLDER.off + trkAt i.val)).toNat 8 8 = 0 := by decide +kernel
    refine ⟨s.jncAbort, done_if_pos _ _ _ ha, fun i => s.jncAbort_holder (hz i).1 ?_ (hz i).2, hslots, hmem, hraw⟩
    show 0x100048 + i.val * 0x100 < 0x140000
    omega
  · have hsup := s.supply_supplied b.val v
    cases hb : (s.supplied b.val v).bankOk b.val with
    | false =>
      have hbanks := (s.supplied b.val v).banks_fault
      have hsup' : ∀ j, (((s.supplied b.val v).set1 JNC.IRQ_RAW.BANK_FAULT).fault 0x04).supply j = (s.supplied b.val v).supply j :=
        fun j => congrArg (fun m => SMap.get (fun _ => Supply.absent) m j) hbanks
      refine ⟨((s.supplied b.val v).set1 JNC.IRQ_RAW.BANK_FAULT).fault 0x04, execBankSupplyChange_bad s v b hp hb, ?_, fun j hj => ?_,
        fun _ => ⟨?_, rfl⟩, fun hok => ?_⟩
      · rw [hsup', hsup, if_pos rfl]
      · rw [hsup', hsup, if_neg hj]
      · rw [State.on_fault_ne _ _ _ _ (by decide)]
        exact State.on_set1 _ _ _ (by decide) rfl
      · rw [State.bankOk_fault, hb] at hok
        cases hok
    | true =>
      refine ⟨s.supplied b.val v, execBankSupplyChange_good s v b hb, ?_, fun j hj => ?_, fun hbad => ?_, fun _ => rfl⟩
      · rw [hsup, if_pos rfl]
      · rw [hsup, if_neg hj]
      · rw [hb] at hbad
        cases hbad
  · have h0' : bitsAt (s.reg (lnReg n.val false)).toNat 16 10 = 0 := h0
    obtain ⟨hcfg, hclaim, hother, htrk, hslots⟩ := s.lineSet_keeps r v n.val
    refine ⟨s.lineSet r v n.val, execLnCfgWrite_free s r v n ho hr hs hodd hrange hsrc h0',
      (s.lineSet_f r v n.val JNC.LN_CFG.SRC rfl).trans (lnWord_src _ _), (s.lineSet_f r v n.val JNC.LN_CFG.PULL rfl).trans (lnWord_pull _ _),
      hcfg, fun hne => hclaim (by rw [h0']; exact hne.symm), hother, htrk, hslots⟩

end

section
/-! PROOFS. Calls, signals, doorbells and the start of a routine (R147 to R152). -/

namespace Sys2Proof.Machine

variable (s : State)

/-! ### A signal at the vectors (R148) -/

/-- What the signals' way through the vectors leaves as it was: all but the vectors' pending places, EVOVR and EV_OVR. -/
structure State.EvKeeps (s t : State) : Prop where
  raw : t.raw = s.raw
  mode : t.mode = s.mode
  reg : ∀ k, k % 0x1000 ≠ 0x4C → k % 0x1000 ≠ 0x10 → t.reg k = s.reg k
  st : ∀ j, (t.engine j).st = (s.engine j).st
  evOn : ∀ j, (t.engine j).evOn = (s.engine j).evOn
  irq : ∀ j, s.on MEN.IRQ_RAW.EV_OVR (pgAt j) = true → t.on MEN.IRQ_RAW.EV_OVR (pgAt j) = true
  frame : { t with eng := s.eng, seenNow := s.seenNow, regs := s.regs } = s

theorem State.EvKeeps.refl : s.EvKeeps s := ⟨rfl, rfl, fun _ _ _ => rfl, fun _ => rfl, fun _ => rfl, fun _ h => h, rfl⟩

variable {s} in
theorem State.EvKeeps.trans {t u : State} (h : s.EvKeeps t) (k : t.EvKeeps u) : s.EvKeeps u where
  raw := k.raw.trans h.raw
  mode := k.mode.trans h.mode
  reg := fun a h1 h2 => (k.reg a h1 h2).trans (h.reg a h1 h2)
  st := fun j => (k.st j).trans (h.st j)
  evOn := fun j => (k.evOn j).trans (h.evOn j)
  irq := fun j hj => k.irq j (h.irq j hj)
  frame := by
    have hk := congrArg (fun x : State => { x with eng := s.eng, seenNow := s.seenNow, regs := s.regs }) k.frame
    exact hk.trans h.frame

variable {s} in
/-- A field of a register that the signals leave. -/
theorem State.EvKeeps.f {t : State} (h : s.EvKeeps t) (g : Fld) (i : Nat) (h1 : (g.off + i) % 0x1000 ≠ 0x4C)
    (h2 : (g.off + i) % 0x1000 ≠ 0x10) : t.f g i = s.f g i := by
  rw [State.f, h.reg _ h1 h2, State.f]

variable {s} in
theorem State.EvKeeps.ctl {t : State} (h : s.EvKeeps t) (e : Nat) : t.enOn e MEN.CTL.EN = s.enOn e MEN.CTL.EN := by
  have ho : MEN.CTL.EN.off = 0x180008 := rfl
  rw [State.enOn, State.on_eq, h.f _ _ (by rw [ho]; unfold pgAt; omega) (by rw [ho]; unfold pgAt; omega)]
  rfl

variable {s} in
theorem State.EvKeeps.closed {t : State} (h : s.EvKeeps t) (e : Nat) : (t.engine e).closed = (s.engine e).closed := by
  unfold Engine.closed
  rw [h.st]

variable {s} in
theorem State.EvKeeps.hears {t : State} (h : s.EvKeeps t) (k : Nat) : t.hears k = s.hears k := by
  unfold State.hears
  rw [h.mode]

variable {s} in
/-- The fields of a vector's register (R148). -/
theorem State.EvKeeps.vector {t : State} (h : s.EvKeeps t) (e v : Nat) (hv : v < 8) (g : Fld) (hg : g.off = MEN.EV.EN.off) :
    t.f g (pgAt e + 4 * v) = s.f g (pgAt e + 4 * v) := by
  have ho : MEN.EV.EN.off = 0x180060 := rfl
  exact h.f _ _ (by rw [hg, ho]; unfold pgAt; omega) (by rw [hg, ho]; unfold pgAt; omega)

variable {s} in
theorem State.EvKeeps.names {t : State} (h : s.EvKeeps t) (e v : Nat) (hv : v < 8) (g : Signal) : t.names e v g = s.names e v g := by
  unfold State.names State.on
  dsimp only
  rw [h.vector e v hv MEN.EV.EN rfl, h.vector e v hv MEN.EV.KIND rfl, h.vector e v hv MEN.EV.INDEX rfl]

theorem State.evKeeps_setEv (e v : Nat) (p : Option VecPend) : s.EvKeeps (s.setEngine e ((s.engine e).setEv v p)) := by
  refine ⟨rfl, rfl, fun _ _ _ => rfl, fun j => ?_, fun j => ?_, fun _ h => h, rfl⟩ <;> rw [State.engine_setEngine] <;> split
  · next h => subst h; rfl
  · rfl
  · next h => subst h; rfl
  · rfl

theorem State.evKeeps_setF (g : Fld) (n e : Nat) (hg : g.off = MEN.EVOVR.VEC.off) : s.EvKeeps (s.setF g n (pgAt e)) := by
  have ho : MEN.EVOVR.VEC.off = 0x18004C := rfl
  have hi : MEN.IRQ_RAW.EV_OVR.off = 0x180010 := rfl
  refine ⟨rfl, rfl, fun k h1 _ => s.reg_setReg_ne _ _ _ fun hk => h1 ?_, fun _ => rfl, fun _ => rfl, fun j hj => ?_, rfl⟩
  · rw [hk, hg, ho]
    unfold pgAt
    omega
  · rw [State.on_eq, State.f_setF_other _ _ _ _ _ _ (by rw [hg, ho, hi]; unfold pgAt; omega), ← State.on_eq, hj]

theorem State.evKeeps_enIrq (e : Nat) : s.EvKeeps (s.enIrq e MEN.IRQ_RAW.EV_OVR) := by
  have hi : MEN.IRQ_RAW.EV_OVR.off = 0x180010 := rfl
  refine ⟨rfl, rfl, fun k _ h2 => s.reg_setReg_ne _ _ _ fun hk => h2 ?_, fun _ => rfl, fun _ => rfl, fun j hj => ?_, rfl⟩
  · rw [hk, hi]
    unfold pgAt
    omega
  · exact s.on_set1_rises ⟨rfl, by decide⟩ ⟨rfl, by decide⟩ hj

/-- The overrun of a vector in its books. -/
def State.evOverrun (e v : Nat) : State :=
  ((s.bump MEN.EVOVR.COALESCED 1 (pgAt e)).setF MEN.EVOVR.VEC v (pgAt e)).enIrq e MEN.IRQ_RAW.EV_OVR

theorem State.evKeeps_evOverrun (e v : Nat) : s.EvKeeps (s.evOverrun e v) :=
  ((s.evKeeps_setF MEN.EVOVR.COALESCED _ e rfl).trans (State.evKeeps_setF _ MEN.EVOVR.VEC v e rfl)).trans (State.evKeeps_enIrq _ e)

theorem State.engine_evOverrun (e v j : Nat) : (s.evOverrun e v).engine j = s.engine j := rfl

theorem State.on_evOverrun (e v : Nat) : (s.evOverrun e v).on MEN.IRQ_RAW.EV_OVR (pgAt e) = true := State.on_set1 _ _ _ (by decide) rfl

section
variable (e v : Nat) (g : Signal)

/-- A vector that the signal reaches. -/
def State.reached : Prop := s.names e v g = true ∧ SMap.get (fun _ => 0) (s.engine e).evOn v ≤ s.raw

theorem State.raiseEv_not (h : ¬ s.reached e v g) : s.raiseEv e v g = s := by
  refine if_pos ?_
  by_contra hc
  rw [not_or, Nat.not_lt] at hc
  exact h ⟨by simpa using hc.1, hc.2⟩

theorem State.raiseEv_pending (h : s.reached e v g) {p : VecPend} (hp : (s.engine e).ev v = some p) : s.raiseEv e v g
    = (s.setEngine e ((s.engine e).setEv v (some { p with count := min 15 (p.count + 1) }))).evOverrun e v := by
  unfold State.raiseEv
  dsimp only
  rw [if_neg (by rw [not_or]; exact ⟨by simpa using h.1, Nat.not_lt.mpr h.2⟩), hp]
  rfl

/-- What a signal leaves in a free vector that it reaches. -/
def State.evTaken : VecPend where
  lvl := s.f MEN.EV.LEVEL (pgAt e + 4 * v)
  addr := s.f MEN.EV.ADDR (pgAt e + 4 * v)
  idx := g.idx
  g1 := g.g1
  s0 := g.s0
  since := s.raw

theorem State.raiseEv_free (h : s.reached e v g) (hp : (s.engine e).ev v = none) : s.raiseEv e v g
    = s.setEngine e ((s.engine e).setEv v (some (s.evTaken e v g))) := by
  unfold State.raiseEv
  dsimp only
  rw [if_neg (by rw [not_or]; exact ⟨by simpa using h.1, Nat.not_lt.mpr h.2⟩), hp]
  rfl

theorem Engine.ev_setEv (x : Engine) (w : Nat) (p : Option VecPend) : (x.setEv v p).ev w = if w = v then p else x.ev w :=
  SMap.get_put _ _ _ _ _

theorem State.ev_setEv (j w : Nat) (p : Option VecPend) :
    ((s.setEngine e ((s.engine e).setEv v p)).engine j).ev w = if j = e ∧ w = v then p else (s.engine j).ev w := by
  rw [State.engine_setEngine]
  by_cases hj : j = e
  · subst hj
    rw [if_pos rfl, Engine.ev_setEv]
    simp
  · rw [if_neg hj, if_neg fun h => hj h.1]

theorem State.evKeeps_raiseEv : s.EvKeeps (s.raiseEv e v g) := by
  by_cases h : s.reached e v g
  · cases hp : (s.engine e).ev v with
    | none => rw [s.raiseEv_free e v g h hp]; exact s.evKeeps_setEv e v _
    | some p => rw [s.raiseEv_pending e v g h hp]; exact (s.evKeeps_setEv e v _).trans (State.evKeeps_evOverrun _ e v)
  · rw [s.raiseEv_not e v g h]; exact .refl s

/-- A signal reaches one vector at a time. -/
theorem State.raiseEv_other {j w : Nat} (hne : ¬ (j = e ∧ w = v)) : ((s.raiseEv e v g).engine j).ev w = (s.engine j).ev w := by
  by_cases h : s.reached e v g
  · cases hp : (s.engine e).ev v with
    | none => rw [s.raiseEv_free e v g h hp, State.ev_setEv, if_neg hne]
    | some p => rw [s.raiseEv_pending e v g h hp, State.engine_evOverrun, State.ev_setEv, if_neg hne]
  · rw [s.raiseEv_not e v g h]

end

/-! ### The vectors of an engine in their order, and the engines in theirs -/

theorem State.EvKeeps.foldl {f : State → Nat → State} (hf : ∀ (t : State) (n : Nat), t.EvKeeps (f t n)) (l : List Nat) : ∀ t : State, t.EvKeeps (l.foldl f t) := by
  induction l with
  | nil => exact fun t => .refl t
  | cons a l ih => exact fun t => (hf t a).trans (ih (f t a))

/-- A pending place that no step of a run touches. -/
theorem State.foldl_ev_same {f : State → Nat → State} (hk : ∀ (t : State) (n : Nat), t.EvKeeps (f t n)) (e v : Nat) (l : List Nat)
    (hf : ∀ (t : State) (n : Nat), n ∈ l → s.EvKeeps t → ((f t n).engine e).ev v = (t.engine e).ev v) :
    ∀ t : State, s.EvKeeps t → ((l.foldl f t).engine e).ev v = (t.engine e).ev v := by
  induction l with
  | nil => exact fun _ _ => rfl
  | cons a l ih =>
    intro t ht
    rw [List.foldl_cons, ih (fun t n hn => hf t n (List.mem_cons_of_mem _ hn)) (f t a) (ht.trans (hk t a)),
      hf t a List.mem_cons_self ht]

/-- A pending place that one step alone of a run touches: the place before that step and after it. -/
theorem State.foldl_ev_once {f : State → Nat → State} (hk : ∀ (t : State) (n : Nat), t.EvKeeps (f t n)) (e v i : Nat) {l : List Nat} (hi : i ∈ l)
    (hl : l.Nodup) (hf : ∀ (t : State) (n : Nat), n ≠ i → ((f t n).engine e).ev v = (t.engine e).ev v) :
    ∃ t : State, s.EvKeeps t ∧ (t.engine e).ev v = (s.engine e).ev v ∧ (f t i).EvKeeps (l.foldl f s)
      ∧ ((l.foldl f s).engine e).ev v = ((f t i).engine e).ev v := by
  obtain ⟨l1, l2, rfl⟩ := List.append_of_mem hi
  obtain ⟨-, h2, hdis⟩ := List.nodup_append.mp hl
  have hn1 : ∀ n ∈ l1, n ≠ i := fun n hn => hdis n hn i List.mem_cons_self
  have hn2 : ∀ n ∈ l2, n ≠ i := fun n hn h => (List.nodup_cons.mp h2).1 (h ▸ hn)
  rw [List.foldl_append, List.foldl_cons]
  refine ⟨l1.foldl f s, State.EvKeeps.foldl hk l1 s, ?_, State.EvKeeps.foldl hk l2 _, ?_⟩
  · exact s.foldl_ev_same hk e v l1 (fun t n hn _ => hf t n (hn1 n hn)) s (.refl s)
  · exact State.foldl_ev_same _ hk e v l2 (fun t n hn _ => hf t n (hn2 n hn)) _ (.refl _)

section
variable (g : Signal)

/-- An engine that takes signals of this kind. -/
def State.listens (e : Nat) : Prop := (s.engine e).closed = false ∧ s.enOn e MEN.CTL.EN = true ∧ s.hears g.kind = true

theorem State.raise1_not {e : Nat} (h : ¬ s.listens g e) : s.raise1 g e = s := by
  refine if_pos ?_
  by_contra hc
  rw [not_or, not_or] at hc
  exact h ⟨by simpa using hc.1, by simpa using hc.2.1, by simpa using hc.2.2⟩

theorem State.raise1_listens {e : Nat} (h : s.listens g e) : s.raise1 g e = (List.range 8).foldl (fun s v => s.raiseEv e v g) s := by
  unfold State.raise1
  exact if_neg (by simp [h.1, h.2.1, h.2.2])

theorem State.evKeeps_raise1 (e : Nat) : s.EvKeeps (s.raise1 g e) := by
  by_cases h : s.listens g e
  · rw [s.raise1_listens g h]
    exact State.EvKeeps.foldl (fun t v => t.evKeeps_raiseEv e v g) _ s
  · rw [s.raise1_not g h]
    exact .refl s

theorem State.raise1_other {e j : Nat} (w : Nat) (hj : j ≠ e) : ((s.raise1 g e).engine j).ev w = (s.engine j).ev w := by
  by_cases h : s.listens g e
  · rw [s.raise1_listens g h]
    exact s.foldl_ev_same (fun t v => t.evKeeps_raiseEv e v g) j w _ (fun t v _ _ => t.raiseEv_other e v g fun hc => hj hc.1) s (.refl s)
  · rw [s.raise1_not g h]

/-- The machine before its engines hear the next signal. -/
def State.signalOut (gs : List Signal) : State := ({ s with signals := gs } : State).advance (g.since + 1)

/-- The machine once its engines have heard it. -/
def State.signalHeard (gs : List Signal) : State := (List.range 8).foldl (fun s e => s.raise1 g e) (s.signalOut g gs)

theorem execEventSignal_heard {gs : List Signal} (h : s.signals = g :: gs) :
    execEventSignal s = .next (settle (s.signalHeard g gs)) := by
  unfold execEventSignal State.eventSignal
  rw [h]
  rfl

theorem State.evKeeps_signalHeard (gs : List Signal) : (s.signalOut g gs).EvKeeps (s.signalHeard g gs) :=
  State.EvKeeps.foldl (fun t e => t.evKeeps_raise1 g e) _ _

theorem State.signalHeard_rest (gs : List Signal) : (s.signalHeard g gs).signals = gs
    ∧ (s.signalHeard g gs).raw = max s.raw (g.since + 1)
    ∧ { s.signalHeard g gs with raw := s.raw, signals := s.signals, eng := s.eng, seenNow := s.seenNow, regs := s.regs } = s := by
  have hk := s.evKeeps_signalHeard g gs
  generalize s.signalHeard g gs = t at hk ⊢
  refine ⟨congrArg State.signals hk.frame, hk.raw, ?_⟩
  have hf := congrArg (fun t : State => { t with raw := s.raw, signals := s.signals }) hk.frame
  exact hf

/-- A vector that the signal does not reach keeps its place. -/
theorem State.signalHeard_deaf (gs : List Signal) {e v : Nat} (hv : v < 8) (h : ¬ s.listens g e ∨ s.names e v g = false) :
    ((s.signalHeard g gs).engine e).ev v = (s.engine e).ev v := by
  have hout : ∀ t : State, (s.signalOut g gs).EvKeeps t → ¬ s.listens g e → ¬ t.listens g e := fun t ht hn hl =>
    hn ⟨(ht.closed e).symm.trans hl.1, (ht.ctl e).symm.trans hl.2.1, (ht.hears g.kind).symm.trans hl.2.2⟩
  refine (State.foldl_ev_same (s.signalOut g gs) (fun t e => t.evKeeps_raise1 g e) e v _ (fun t n _ ht => ?_) _ (.refl _)).trans rfl
  by_cases hn : e = n
  · subst hn
    rcases h with h | h
    · rw [t.raise1_not g (hout t ht h)]
    · by_cases hl : t.listens g e
      · rw [t.raise1_listens g hl]
        refine t.foldl_ev_same (fun u w => u.evKeeps_raiseEv e w g) e v _ (fun u w _ hu => ?_) t (.refl t)
        by_cases hw : v = w
        · subst hw
          rw [u.raiseEv_not e v g]
          rintro ⟨hnm, -⟩
          rw [hu.names e v hv, ht.names e v hv] at hnm
          exact Bool.false_ne_true (h.symm.trans hnm)
        · exact u.raiseEv_other e w g fun hc => hw hc.2
      · rw [t.raise1_not g hl]
  · exact t.raise1_other g v hn

/-- A vector that the signal reaches: the place as the signal finds it, and what it leaves (R148). -/
theorem State.signalHeard_reached (gs : List Signal) {e v : Nat} (he : e < 8) (hv : v < 8) (hl : s.listens g e)
    (hn : s.names e v g = true) (hon : SMap.get (fun _ => 0) (s.engine e).evOn v ≤ max s.raw (g.since + 1)) :
    ∃ t : State, (s.signalOut g gs).EvKeeps t ∧ (t.engine e).ev v = (s.engine e).ev v ∧ t.reached e v g
      ∧ (t.raiseEv e v g).EvKeeps (s.signalHeard g gs)
      ∧ ((s.signalHeard g gs).engine e).ev v = ((t.raiseEv e v g).engine e).ev v := by
  obtain ⟨t, ht, hev, hafter, hevAfter⟩ := State.foldl_ev_once (s.signalOut g gs) (fun t e => t.evKeeps_raise1 g e) e v e
    (List.mem_range.mpr he) List.nodup_range (fun t n hne => t.raise1_other g v (Ne.symm hne))
  have htl : t.listens g e :=
    ⟨(ht.closed e).trans hl.1, (ht.ctl e).trans hl.2.1, (ht.hears g.kind).trans hl.2.2⟩
  rw [t.raise1_listens g htl] at hafter hevAfter
  obtain ⟨u, hu, huev, huafter, huevAfter⟩ := State.foldl_ev_once t (fun u w => u.evKeeps_raiseEv e w g) e v v
    (List.mem_range.mpr hv) List.nodup_range (fun u w hne => u.raiseEv_other e w g fun hc => hne hc.2.symm)
  refine ⟨u, ht.trans hu, huev.trans hev, ⟨?_, ?_⟩, huafter.trans hafter, hevAfter.trans huevAfter⟩
  · rw [hu.names e v hv, ht.names e v hv]
    exact hn
  · rw [hu.evOn, ht.evOn, hu.raw, ht.raw]
    exact hon
end

/-! ### A doorbell (R149) -/

section
variable (r : Requester) (e : Nat) (v : Word)

/-- The doorbell's field of its vector's register. -/
theorem State.dbv_field (k : Nat) (g : Fld) (h : g.off = MEN.DBV.EN.off) :
    bitsAt (s.reg (menReg MEN.DBV.EN e + 4 * k)).toNat g.lo g.wid = s.f g (pgAt e + 4 * k) := by
  rw [State.f, h, menReg, Nat.add_assoc]

theorem State.ring_closed (h : s.on MEN.DBV.EN (pgAt e + 4 * bitsAt v.toNat 30 2) = false ∨ s.enOn e MEN.CTL.EN = false
    ∨ (s.engine e).closed = true ∨ s.mode = .standby) : s.ring r e v = s.discard (menReg MEN.DB.VEC e) r .mode := by
  refine if_pos ?_
  rcases h with h | h | h | h
  · left
    have hf := s.dbv_field e (bitsAt v.toNat 30 2) MEN.DBV.EN rfl
    rw [State.on_eq, decide_eq_false_iff_not, not_not] at h
    exact hf.trans h
  · exact .inr (.inl (by rw [h]; rfl))
  · exact .inr (.inr (.inl h))
  · exact .inr (.inr (.inr h))

/-- What a doorbell leaves at its vector. -/
def State.bellTaken : VecPend where
  lvl := s.f MEN.DBV.LEVEL (pgAt e + 4 * bitsAt v.toNat 30 2)
  addr := s.f MEN.DBV.ADDR (pgAt e + 4 * bitsAt v.toNat 30 2)
  g1 := v.toNat % 2 ^ 24
  s0 := s.vt
  since := s.raw

theorem State.ring_open (hon : s.on MEN.DBV.EN (pgAt e + 4 * bitsAt v.toNat 30 2) = true) (hen : s.enOn e MEN.CTL.EN = true)
    (hc : (s.engine e).closed = false) (hm : s.mode ≠ .standby) : s.ring r e v
      = if ((s.engine e).db (bitsAt v.toNat 30 2)).isSome then s.discard (menReg MEN.DB.VEC e) r .busy
        else s.setEngine e ((s.engine e).setDb (bitsAt v.toNat 30 2) (some (s.bellTaken e v))) := by
  have hbit : bitsAt (s.reg (menReg MEN.DBV.EN e + 4 * bitsAt v.toNat 30 2)).toNat 31 1 ≠ 0 := by
    have hf := s.dbv_field e (bitsAt v.toNat 30 2) MEN.DBV.EN rfl
    rw [State.on_eq, decide_eq_true_eq] at hon
    exact fun h => hon (hf.symm.trans h)
  have hp : ({ lvl := bitsAt (s.reg (menReg MEN.DBV.EN e + 4 * bitsAt v.toNat 30 2)).toNat 16 3
               addr := bitsAt (s.reg (menReg MEN.DBV.EN e + 4 * bitsAt v.toNat 30 2)).toNat 0 13
               g1 := bitsAt v.toNat 0 24, s0 := s.vt, since := s.raw } : VecPend) = s.bellTaken e v := by
    have hl := s.dbv_field e (bitsAt v.toNat 30 2) MEN.DBV.LEVEL rfl
    have ha := s.dbv_field e (bitsAt v.toNat 30 2) MEN.DBV.ADDR rfl
    have hg : bitsAt v.toNat 0 24 = v.toNat % 2 ^ 24 := by rw [bitsAt_eq, Nat.pow_zero, Nat.div_one]
    unfold State.bellTaken
    rw [← hl, ← ha, ← hg]
    rfl
  unfold State.ring
  dsimp only
  rw [if_neg (by simp [hbit, hen, hc, hm]), hp]

theorem Engine.db_setDb (x : Engine) (k w : Nat) (p : Option VecPend) : (x.setDb k p).db w = if w = k then p else x.db w :=
  SMap.get_put _ _ _ _ _
end

/-! ### The start of a routine (R151 to R153) -/

section
variable (e : Nat) (i : Inv)

/-- A routine at its start (R151). -/
def Inv.routine : Routine where
  cls := i.cls
  slot := i.num
  pc := i.addr
  dep := i.dep

/-- The engine once the routine has started in cycle `c`. -/
def Engine.started (x : Engine) (c : Nat) : Engine :=
  { ((x.without i).setBank i.lvl ((x.bank i.lvl).begin_ i.addr (x.given i))).setAt i.lvl (some i.routine) with
    cur := i.lvl, next := c + 1, st := .running }

/-- The cycle in which the invocation starts. -/
def State.startCycle : Nat := max s.raw (max (i.since + 1) (s.engine e).next)

/-- The machine once the invocation has started. -/
def State.routineStarted : State :=
  (s.advance (max (i.since + 1) (s.engine e).next)).setEngine e ((s.engine e).started i (s.startCycle e i))

theorem State.startRoutine_eq (h : (s.engine e).startable = some i) : s.startRoutine e = s.routineStarted e i := by
  unfold State.startRoutine
  rw [h]
  rfl

theorem Engine.bank_without (x : Engine) (k : Nat) : (x.without i).bank k = x.bank k := by
  unfold Engine.without
  split <;> rfl

theorem Engine.bank_started (x : Engine) (c k : Nat) :
    (x.started i c).bank k = if k = i.lvl then (x.bank i.lvl).begin_ i.addr (x.given i) else x.bank k := by
  refine ((x.without i).bank_setBank i.lvl k _).trans ?_
  rw [Engine.bank_without]

theorem Engine.at_started (x : Engine) (c : Nat) : (x.started i c).at_ i.lvl = some i.routine :=
  (Engine.at_setAt ((x.without i).setBank i.lvl ((x.bank i.lvl).begin_ i.addr (x.given i))) i.lvl i.lvl
    (some i.routine)).trans (if_pos rfl)

/-- A bank at the start of its routine (R151). -/
theorem Bank.begin_keeps (b : Bank) (addr : Nat) (g : Word × Nat × Nat) : (b.begin_ addr g).page = addr / 512
    ∧ (b.begin_ addr g).stack = [] ∧ (b.begin_ addr g).z = false ∧ (b.begin_ addr g).f0 = false
    ∧ (∀ k, 1 < k → (b.begin_ addr g).gr k = b.gr k) ∧ ∀ k, 0 < k → (b.begin_ addr g).sr k = b.sr k := by
  refine ⟨rfl, rfl, rfl, rfl, fun k hk => ?_, fun k hk => ?_⟩
  · refine (SMap.get_put_ne _ _ _ _ _ (by omega)).trans ?_
    exact SMap.get_put_ne _ _ _ _ _ (by omega)
  · exact SMap.get_put_ne _ _ _ _ _ (by omega)
end

/-! ### A call (R147) -/

/-- A call pending from its cycle on, at its level, with its departure. -/
def State.callTaken (e : Nat) (c : Call) : State :=
  let t := s.advance (s.callDue c)
  t.setEngine e { s.engine e with
    calls := (s.engine e).calls.map (fun d => if d = c then { d with pend := some (s.callLevel e c.prio, t.raw, t.dep) } else d) }

theorem State.callPends_eq {e : Nat} {c : Call} (h : s.nextCall (s.engine e) = some c) : s.callPends e = s.callTaken e c := by
  unfold State.callPends
  rw [h]
  rfl

end Sys2Proof.Machine
end

section
open Sys2Proof Sys2Proof.Machine

/-- Settles O25: a signal goes through the vectors one by one, each of which it leaves or takes; calls, doorbells and starts each change
one engine. -/
theorem invocationsAndStarts : Obligations.InvocationsAndStarts := by
  unfold Obligations.InvocationsAndStarts
  refine ⟨fun s e c ha hc => ?_, fun s g gs e v hs hcl hen hh hn hon => ?_, fun s g gs hs => ?_, fun s r e v ho h => ?_,
    fun s r e v ho hon hen hcl hm => ⟨fun hdb => ?_, fun hdb => ?_⟩, fun s e i ha hi => ?_⟩
  · refine ⟨s.callTaken e.val c, (done_if_pos _ _ _ ha).trans (by rw [s.callPends_eq hc]), rfl, ?_, fun j hj => ?_, rfl⟩
    · unfold State.callTaken
      dsimp only
      rw [State.engine_setEngine, if_pos rfl]
      rfl
    · unfold State.callTaken
      dsimp only
      rw [State.engine_setEngine, if_neg hj]
      rfl
  · obtain ⟨hsig, hraw, hframe⟩ := s.signalHeard_rest g gs
    obtain ⟨t, ht, hev, hreach, hafter, hevAfter⟩ := s.signalHeard_reached g gs e.isLt v.isLt ⟨hcl, hen, hh⟩ hn hon
    refine ⟨s.signalHeard g gs, execEventSignal_heard s g hs, hsig, hraw, fun hnone => ?_, fun p hp => ?_, hframe⟩
    · rw [hevAfter, t.raiseEv_free e.val v.val g hreach (hev.trans hnone), State.ev_setEv, if_pos ⟨rfl, rfl⟩]
      unfold State.evTaken
      rw [ht.vector e.val v.val v.isLt MEN.EV.LEVEL rfl, ht.vector e.val v.val v.isLt MEN.EV.ADDR rfl, ht.raw, hraw]
      rfl
    · rw [t.raiseEv_pending e.val v.val g hreach (hev.trans hp)] at hafter hevAfter
      refine ⟨?_, hafter.irq e.val (State.on_evOverrun _ _ _)⟩
      rw [hevAfter, State.engine_evOverrun, State.ev_setEv, if_pos ⟨rfl, rfl⟩]
  · obtain ⟨hsig, hraw, hframe⟩ := s.signalHeard_rest g gs
    refine ⟨s.signalHeard g gs, execEventSignal_heard s g hs, hsig, hraw, fun e v h => s.signalHeard_deaf g gs v.isLt ?_, hframe⟩
    rcases h with h | h | h | h
    · exact .inl fun hl => Bool.false_ne_true (hl.1.symm.trans h)
    · exact .inl fun hl => Bool.false_ne_true (h.symm.trans hl.2.1)
    · exact .inl fun hl => Bool.false_ne_true (h.symm.trans hl.2.2)
    · exact .inr h
  · exact (write_opens s r _ _ ho).trans (by rw [s.ring_closed r e.val v h])
  · refine ⟨s.setEngine e.val ((s.engine e.val).setDb (bitsAt v.toNat 30 2) (some (s.bellTaken e.val v))), s.bellTaken e.val v,
      (write_opens s r _ _ ho).trans ?_, ?_, rfl, rfl, rfl, rfl, rfl, fun j hj => ?_, rfl⟩
    · rw [s.ring_open r e.val v hon hen hcl hm, hdb]
      rfl
    · rw [State.engine_setEngine, if_pos rfl, Engine.db_setDb, if_pos rfl]
    · rw [State.engine_setEngine, if_neg hj]
  · exact (write_opens s r _ _ ho).trans
      (by rw [s.ring_open r e.val v hon hen hcl hm, if_pos (Option.isSome_iff_ne_none.mpr hdb)])
  · have heng : (s.routineStarted e.val i).engine e.val = (s.engine e.val).started i (s.startCycle e.val i) := by
      unfold State.routineStarted
      rw [State.engine_setEngine, if_pos rfl]
    obtain ⟨hpage, hstack, hz, hf0, hgr, hsr⟩ :=
      ((s.engine e.val).bank i.lvl).begin_keeps i.addr ((s.engine e.val).given i)
    refine ⟨s.routineStarted e.val i, i.routine, (done_if_pos _ _ _ ha).trans (by rw [s.startRoutine_eq e.val i hi]), ?_⟩
    rw [heng, Engine.bank_started, if_pos rfl]
    refine ⟨Engine.at_started i _ _, rfl, rfl, rfl, rfl, rfl, rfl, rfl, rfl, rfl, rfl, hpage, hstack, hz, hf0, hgr, hsr,
      fun k hk => ?_, fun j hj => ?_, rfl⟩
    · rw [Engine.bank_started, if_neg hk]
    · unfold State.routineStarted
      rw [State.engine_setEngine, if_neg hj]
      rfl

end

section
/-! PROOFS. Where each sequencing operation leads (R153, R154, R156 to R159, R161, R163, R179). -/

namespace Sys2Proof.Machine

/-- What a word of level `l` of engine `e` has done since state `a`: nothing but the engine, the accesses on their way to
memory and slot `i` have changed; the level's routine is `r`, its bank `b`, the section `k`; memory waits as in `m`. -/
structure State.Reached (a : State) (e l i : Nat) (m : Mem) (r : Option Routine) (b : Bank) (k : Option SealSect) (t : State) :
    Prop where
  beside : { t with eng := a.eng, slots := a.slots, mem := a.mem } = a
  mem : t.mem = m
  at_ : (t.engine e).at_ l = r
  bank : (t.engine e).bank l = b
  sect : (t.engine e).sect = k
  banks : ∀ j, j ≠ l → (t.engine e).bank j = (a.engine e).bank j
  engines : ∀ j, j ≠ e → t.engine j = a.engine j
  slots : ∀ j, j ≠ i → t.slot j = a.slot j

section
variable {a t : State} {e l i : Nat} {m : Mem} {r : Option Routine} {b : Bank} {k : Option SealSect}

theorem State.Reached.start {rt : Routine} (hat : (a.engine e).at_ l = some rt) (i : Nat) :
    a.Reached e l i a.mem (some rt) ((a.engine e).bank l) (a.engine e).sect a where
  beside := rfl
  mem := rfl
  at_ := hat
  bank := rfl
  sect := rfl
  banks _ _ := rfl
  engines _ _ := rfl
  slots _ _ := rfl

theorem State.Reached.raw (h : a.Reached e l i m r b k t) : t.raw = a.raw := by
  have hr := congrArg State.raw h.beside
  exact hr

/-- A change of the engine that keeps the other levels' banks. -/
theorem State.Reached.setEngine (h : a.Reached e l i m r b k t) {x : Engine} {r' : Option Routine} {b' : Bank}
    {k' : Option SealSect} (hat : x.at_ l = r') (hb : x.bank l = b') (hk : x.sect = k')
    (hbs : ∀ j, j ≠ l → x.bank j = (t.engine e).bank j) : a.Reached e l i m r' b' k' (t.setEngine e x) where
  beside := h.beside
  mem := h.mem
  at_ := by rw [State.engine_setEngine, if_pos rfl, hat]
  bank := by rw [State.engine_setEngine, if_pos rfl, hb]
  sect := by rw [State.engine_setEngine, if_pos rfl, hk]
  banks j hj := by rw [State.engine_setEngine, if_pos rfl, hbs j hj, h.banks j hj]
  engines j hj := by rw [State.engine_setEngine, if_neg hj, h.engines j hj]
  slots j hj := h.slots j hj

theorem State.Reached.setSlot (h : a.Reached e l i m r b k t) (x : Slot) : a.Reached e l i m r b k (t.setSlot i x) where
  beside := h.beside
  mem := h.mem
  at_ := h.at_
  bank := h.bank
  sect := h.sect
  banks := h.banks
  engines := h.engines
  slots j hj := by rw [State.slot_setSlot, if_neg hj, h.slots j hj]

theorem State.Reached.setMem (h : a.Reached e l i m r b k t) (m' : Mem) :
    a.Reached e l i m' r b k { t with mem := m' } where
  beside := h.beside
  mem := rfl
  at_ := h.at_
  bank := h.bank
  sect := h.sect
  banks := h.banks
  engines := h.engines
  slots := h.slots

/-- The target of an entry acts: its slot alone changes. -/
theorem State.Reached.acted (h : a.Reached e l i m r b k t) (o : Nat) : a.Reached e l i m r b k (t.acted (.slot i) o) := by
  unfold State.acted
  dsimp only
  split
  · exact h.setSlot _
  · exact h

theorem State.Reached.unhold (h : a.Reached e l i m r b k t) : a.Reached e l i m r b k (t.unhold i) := by
  unfold State.unhold
  dsimp only
  split
  · exact h.setSlot _
  · exact h

theorem Engine.settled_bank (x : Engine) (j : Nat) : x.settled.bank j = x.bank j := by
  unfold Engine.settled
  split
  · rfl
  · split <;> rfl

/-! ### The first word of a call, and the section that SEAL opens -/

theorem State.Reached.firstWord {rt : Routine} (h : a.Reached e l rt.slot m (some rt) b k t) :
    a.Reached e l rt.slot m (some { rt with first := false }) b k (t.firstWord e l) := by
  unfold State.firstWord
  simp only [h.at_]
  split
  case isTrue hf =>
    have hrt : rt = { rt with first := false } := by cases rt; simp_all
    exact hrt ▸ h
  case isFalse =>
    have h' := h.setEngine (x := (t.engine e).setAt l (some { rt with first := false })) (Engine.at_setAt _ l l _ |>.trans (if_pos rfl))
      h.bank h.sect fun _ _ => rfl
    split
    · exact h'.acted outActed
    · exact h'

/-- The section that a word of SEQ code `q` acts in: SEAL opens one. -/
def sectOpened (q l raw : Nat) (k : Option SealSect) : Option SealSect :=
  if q = sqSeal then some { lvl := l, words := 0, since := raw } else k

theorem State.Reached.openSeal (h : a.Reached e l i m r b k t) (mw : Nat) :
    a.Reached e l i m r b (sectOpened (mSeq mw) l t.raw k) (t.openSeal e l mw) := by
  unfold State.openSeal sectOpened
  split
  · exact h.setEngine h.at_ h.bank rfl fun _ _ => rfl
  · exact h

/-! ### The nanoword -/

/-- What an operation computes depends on the bank and the clocks alone. -/
theorem State.Reached.opCtx (h : a.Reached e l i m r ((a.engine e).bank l) k t) (mw w : Nat) :
    t.opCtx e l mw w = a.opCtx e l mw w := by
  have hclock : ∀ u : State, ({ u with eng := a.eng, slots := a.slots, mem := a.mem } : State).cyc = u.cyc
      ∧ ({ u with eng := a.eng, slots := a.slots, mem := a.mem } : State).boundary = u.boundary
      ∧ ({ u with eng := a.eng, slots := a.slots, mem := a.mem } : State).dep = u.dep := fun _ => ⟨rfl, rfl, rfl⟩
  obtain ⟨hc, hb, hd⟩ := hclock t
  rw [h.beside] at hc hb hd
  unfold State.opCtx
  rw [h.bank, hc, hb, hd]

/-- A read of the log store or of the interchange bank changes what is on its way to memory, and nothing else (R168, R187). -/
theorem State.engRead_memory (t : State) (e : EngineId) (l w : Nat) (b0 : Bank) (hacc : nAcc w = 1 ∨ nAcc w = 3) :
    ∃ m', t.engRead e l w b0 = { t with mem := m' } := by
  unfold State.engRead
  rcases hacc with h1 | h3
  · simp only [h1, if_true]
    split <;> exact ⟨_, rfl⟩
  · simp only [h3, if_true, OfNat.ofNat_ne_one, if_false]
    split <;> exact ⟨_, rfl⟩

/-- So does a write of them outside a section. -/
theorem State.engWrite_memory (t : State) (e : EngineId) (l w : Nat) (b0 : Bank) (v : Word) (hacc : nAcc w = 2 ∨ nAcc w = 4)
    (hs : (t.engine e.val).openSect = none) : ∃ m', t.engWrite e l w b0 v = { t with mem := m' } := by
  unfold State.engWrite
  simp only [hs, Option.isSome_none, Bool.false_eq_true, if_false]
  rcases hacc with h2 | h4
  · simp only [h2, if_true]
    exact ⟨_, rfl⟩
  · simp only [h4, if_true, Nat.reduceEqDiff, if_false]
    exact ⟨_, rfl⟩

/-- A word whose access is one of memory, outside a section where it writes, changes nothing but memory's waits. -/
theorem State.Reached.engAccess {e : EngineId} (h : a.Reached e.val l i m r b k t) (w : Nat) (b0 : Bank) (v : Word)
    (hacc : nAcc w = 0 ∨ nAcc w = 1 ∨ nAcc w = 3 ∨ (nAcc w = 2 ∨ nAcc w = 4) ∧ (t.engine e.val).openSect = none) :
    ∃ m', a.Reached e.val l i m' r b k (t.engAccess e l w b0 v) ∧ (nAcc w = 0 → m' = m) := by
  have hread : nAcc w = 1 ∨ nAcc w = 3 → ∃ m', t.engAccess e l w b0 v = { t with mem := m' } := fun hw => by
    unfold State.engAccess
    rw [if_pos (by rcases hw with hw | hw <;> simp [accRead, hw])]
    exact t.engRead_memory e l w b0 hw
  have hwrite : (nAcc w = 2 ∨ nAcc w = 4) → (t.engine e.val).openSect = none →
      ∃ m', t.engAccess e l w b0 v = { t with mem := m' } := fun hw hs => by
    unfold State.engAccess
    rw [if_neg (by rcases hw with hw | hw <;> simp [accRead, hw]), if_pos (by rcases hw with hw | hw <;> simp [accWrite, hw])]
    exact t.engWrite_memory e l w b0 v hw hs
  rcases hacc with h0 | h1 | h3 | ⟨hw, hs⟩
  · refine ⟨m, ?_, fun _ => rfl⟩
    unfold State.engAccess
    simpa [accRead, accWrite, accTt, accIns, accCan, h0] using h
  · obtain ⟨m', hm⟩ := hread (.inl h1)
    exact ⟨m', hm ▸ h.setMem m', fun h0 => absurd h0 (by omega)⟩
  · obtain ⟨m', hm⟩ := hread (.inr h3)
    exact ⟨m', hm ▸ h.setMem m', fun h0 => absurd h0 (by omega)⟩
  · obtain ⟨m', hm⟩ := hwrite hw hs
    exact ⟨m', hm ▸ h.setMem m', fun h0 => absurd h0 (by omega)⟩

/-- The bank that a nanoword leaves, from the operands it finds. -/
def OpCtx.left (c : OpCtx) (w : Nat) : Bank := ((c.bank.flagged w (c.alu w)).userFlag w).result w (c.alu w)

/-- The nanoword: its operation writes the level's bank, its access is on its way. -/
theorem State.Reached.actNano {e : EngineId} (h : a.Reached e.val l i m r ((a.engine e.val).bank l) k t) (mw w : Nat)
    (hacc : nAcc w = 0 ∨ nAcc w = 1 ∨ nAcc w = 3 ∨ (nAcc w = 2 ∨ nAcc w = 4) ∧ (t.engine e.val).openSect = none) :
    ∃ m', a.Reached e.val l i m' r ((a.opCtx e.val l mw w).left w) k (t.actNano e l mw w) ∧ (nAcc w = 0 → m' = m) := by
  unfold State.actNano
  dsimp only
  rw [h.opCtx, h.bank]
  refine State.Reached.engAccess (h.setEngine ?_ ?_ ?_ ?_) w _ _ ?_
  · exact h.at_
  · exact (Engine.bank_setBank _ l l _).trans (if_pos rfl)
  · exact h.sect
  · exact fun j hj => (Engine.bank_setBank _ l j _).trans (if_neg hj)
  · rw [State.engine_setEngine, if_pos rfl]
    exact hacc

/-! ### The sequencing operations -/

theorem State.Reached.goOn {rt : Routine} (h : a.Reached e l i m (some rt) b k t) (pc : Nat) :
    a.Reached e l i m (some { rt with pc := pc }) b k (t.goOn e l pc) := by
  unfold State.goOn
  simp only [h.at_]
  exact h.setEngine ((Engine.at_setAt _ l l _).trans (if_pos rfl)) h.bank h.sect fun _ _ => rfl

theorem State.Reached.onBank (h : a.Reached e l i m r b k t) (f : Bank → Bank) :
    a.Reached e l i m r (f b) k (t.onBank e l f) := by
  unfold State.onBank
  dsimp only
  rw [h.bank]
  exact h.setEngine h.at_ ((Engine.bank_setBank _ l l _).trans (if_pos rfl)) h.sect
    fun j hj => (Engine.bank_setBank _ l j _).trans (if_neg hj)

theorem State.Reached.routineEnd {rt : Routine} (h : a.Reached e l rt.slot m (some rt) b k t) (o : Nat) :
    a.Reached e l rt.slot m none b k (t.routineEnd e l o) := by
  unfold State.routineEnd
  simp only [h.at_]
  have h' := h.setEngine (x := ((t.engine e).setAt l none).settled) (r' := none)
    ((Engine.settled_at _ l).trans ((Engine.at_setAt _ l l _).trans (if_pos rfl)))
    ((Engine.settled_bank _ l).trans h.bank) ((Engine.settled_sect _).trans h.sect) fun j _ => Engine.settled_bank _ j
  split
  · exact h'.unhold
  · split
    · exact h'.acted o
    · exact h'

/-- The routine waits. -/
theorem State.Reached.waits {rt : Routine} (h : a.Reached e l i m (some rt) b k t) (x : EngWait) :
    a.Reached e l i m (some { rt with wait := some x }) b k
      (t.setEngine e ((t.engine e).setAt l (some { rt with wait := some x })).settled) :=
  h.setEngine ((Engine.settled_at _ l).trans ((Engine.at_setAt _ l l _).trans (if_pos rfl)))
    ((Engine.settled_bank _ l).trans h.bank) ((Engine.settled_sect _).trans h.sect) fun j _ => Engine.settled_bank _ j

/-- The section is closed, to commit in the next cycle. -/
theorem State.Reached.unseals (h : a.Reached e l i m r b k t) :
    a.Reached e l i m r b (k.map fun c => { c with done := some t.raw })
      (t.setEngine e { t.engine e with sect := (t.engine e).sect.map fun c => { c with done := some t.raw } }) :=
  h.setEngine h.at_ h.bank (by rw [h.sect]) fun _ _ => rfl

/-- The level has had its word: the engine goes on in the next cycle (R152). -/
theorem State.Reached.wordDone (h : a.Reached e l i m r b k t) :
    a.Reached e l i m r b (k.map fun c => { c with words := c.words + 1 }) (t.wordDone e l)
      ∧ ((t.wordDone e l).engine e).cur = l ∧ ((t.wordDone e l).engine e).next = a.raw + 1 := by
  refine ⟨h.setEngine h.at_ h.bank (by rw [h.sect]) fun _ _ => rfl, ?_, ?_⟩
  · unfold State.wordDone
    rw [State.engine_setEngine, if_pos rfl]
  · unfold State.wordDone
    rw [State.engine_setEngine, if_pos rfl, h.raw]

end

/-- A bank's stack and page, which no operation touches. -/
theorem OpCtx.left_stack (c : OpCtx) (w : Nat) : (c.left w).stack = c.bank.stack ∧ (c.left w).page = c.bank.page := by
  have hf : ∀ (x : Bank) (o : AluOut), (x.flagged w o).stack = x.stack ∧ (x.flagged w o).page = x.page := fun x o => by
    unfold Bank.flagged; dsimp only; split_ifs <;> exact ⟨rfl, rfl⟩
  have hu : ∀ x : Bank, (x.userFlag w).stack = x.stack ∧ (x.userFlag w).page = x.page := fun x => by
    unfold Bank.userFlag; dsimp only; split_ifs <;> exact ⟨rfl, rfl⟩
  have hr : ∀ (x : Bank) (o : AluOut), (x.result w o).stack = x.stack ∧ (x.result w o).page = x.page := fun x o => by
    unfold Bank.result Bank.put Bank.setG Bank.setS; dsimp only; split_ifs <;> exact ⟨rfl, rfl⟩
  unfold OpCtx.left
  exact ⟨by rw [(hr _ _).1, (hu _).1, (hf _ _).1], by rw [(hr _ _).2, (hu _).2, (hf _ _).2]⟩

/-! ### A word that executes -/

section
variable {s : State} {e : EngineId} {l pc m w c : Nat}

/-- The word that is fetched runs, where the command names its SEQ code. -/
theorem State.engWord_runs (h : s.executes e.val l pc m w c) {is : Nat → Nat → Bool} (his : is m w = true) :
    s.engWord e is = (s.advance c).runWord e l pc m w := by
  obtain ⟨hf, hbad, hwaits, hfault⟩ := h
  have hfetch := s.fetch_of_fetches e.val l hf
  obtain ⟨-, hcl, hst, hsect, hruns, ⟨r, hat, hpc, hc⟩, -, -, hm, -, hstart⟩ := hf
  have hc' : max ((s.engine e.val).wordAt l r s.raw + 0) ((s.engine e.val).mulAt l m w) = c := hc.symm
  unfold State.engWord
  dsimp only
  rw [if_neg (by rcases hsect with hs | hs <;> simp [hcl, hst, hs, Option.isNone_iff_eq_none])]
  simp only [hruns, hat, hpc, hfetch, hm, hstart, his, hbad, hwaits, hc', hfault]
  rfl

theorem seqWord_runs (h : s.executes e.val l pc m w c) {q : Nat} (hq : mSeq m = q) :
    seqWord e q s = .next (settle ((s.advance c).runWord e l pc m w)) := by
  unfold seqWord
  rw [if_pos h.1.1, State.engWord_runs h (decide_eq_true hq)]
  rfl

/-- Where a word of level `l` leaves the machine: the routine and the bank of its level, the clock one cycle on, nothing else of
the engines, of the timetable but its own slot, or of the device. -/
def State.WentOn (s : State) (e : EngineId) (l w c i : Nat) (t : State) (r : Option Routine) (b : Bank) : Prop :=
  t.raw = c ∧ (t.engine e.val).at_ l = r ∧ (t.engine e.val).bank l = b ∧ (t.engine e.val).cur = l ∧ (t.engine e.val).next = c + 1
    ∧ (∀ k, k ≠ l → (t.engine e.val).bank k = (s.engine e.val).bank k) ∧ (∀ j, j ≠ e.val → t.engine j = s.engine j)
    ∧ (∀ j, j ≠ i → t.slot j = s.slot j) ∧ (nAcc w = 0 → t.mem = s.mem)
    ∧ { t with raw := s.raw, eng := s.eng, slots := s.slots, mem := s.mem } = s

/-- The access of the word is one of memory, or none. -/
def State.plainAccess (s : State) (e : EngineId) (m w : Nat) : Prop :=
  nAcc w = 0 ∨ nAcc w = 1 ∨ nAcc w = 3
    ∨ ((nAcc w = 2 ∨ nAcc w = 4) ∧ (s.engine e.val).openSect = none ∧ mSeq m ≠ sqSeal)

/-- The state after the nanoword of a word. -/
theorem State.Reached.nanoword {rt : Routine} (hacc : s.plainAccess e m w) (hat : (s.engine e.val).at_ l = some rt) :
    ∃ m', (s.advance c).Reached e.val l rt.slot m' (some { rt with first := false }) (s.worked e.val l m w c)
        (sectOpened (mSeq m) l (s.advance c).raw (s.engine e.val).sect)
        ((((s.advance c).firstWord e.val l).openSeal e.val l m).actNano e l m w) ∧ (nAcc w = 0 → m' = s.mem) := by
  have h1 := (State.Reached.start (a := s.advance c) hat rt.slot).firstWord
  have h2 := h1.openSeal m
  rw [h1.raw] at h2
  refine h2.actNano m w ?_
  rcases hacc with h | h | h | ⟨h, hs, hq⟩
  · exact .inl h
  · exact .inr (.inl h)
  · exact .inr (.inr (.inl h))
  · refine .inr (.inr (.inr ⟨h, ?_⟩))
    unfold Engine.openSect at hs ⊢
    rw [h2.sect]
    unfold sectOpened
    rw [if_neg hq]
    exact hs

/-- A word that executes, by what its sequencing operation does after its nanoword. -/
theorem State.runWord_wentOn {rt : Routine} {r : Option Routine} {b : Bank} {k : Option SealSect} (h : s.executes e.val l pc m w c)
    (hacc : s.plainAccess e m w) (hat : (s.engine e.val).at_ l = some rt)
    (hseq : ∀ m' t, (s.advance c).Reached e.val l rt.slot m' (some { rt with first := false }) (s.worked e.val l m w c)
        (sectOpened (mSeq m) l c (s.engine e.val).sect) t →
      (s.advance c).Reached e.val l rt.slot m' r b k (t.sequence (s.advance c) e.val l pc m w)) :
    s.WentOn e l w c rt.slot ((s.advance c).runWord e l pc m w) r b
      ∧ (((s.advance c).runWord e l pc m w).engine e.val).sect = k.map fun x => { x with words := x.words + 1 } := by
  obtain ⟨m', hn, hm⟩ := State.Reached.nanoword (c := c) hacc hat
  rw [s.raw_of_fetches _ _ h.1] at hn
  obtain ⟨hd, hcur, hnext⟩ := (hseq m' _ hn).wordDone
  have hraw : ((s.advance c).runWord e l pc m w).raw = c := hd.raw.trans (s.raw_of_fetches _ _ h.1)
  rw [s.raw_of_fetches _ _ h.1] at hnext
  refine ⟨⟨hraw, hd.at_, hd.bank, hcur, hnext, hd.banks, hd.engines, hd.slots, fun h0 => hd.mem.trans (hm h0), ?_⟩, hd.sect⟩
  exact congrArg (fun x : State => { x with raw := s.raw }) hd.beside

end

/-! ### What each sequencing operation does -/

section
variable (t a : State) (e l pc m w : Nat)

theorem State.sequence_next (hq : mSeq m = sqNext) : t.sequence a e l pc m w = t.goOn e l (pc + 1) := by
  unfold State.sequence; rw [hq]; rfl

theorem State.sequence_jump (hq : mSeq m = sqJump) :
    t.sequence a e l pc m w = t.goOn e l (paged ((a.engine e).bank l) (mImm m)) := by
  unfold State.sequence; rw [hq]; rfl

theorem State.sequence_jumpC (hq : mSeq m = sqJumpC) : t.sequence a e l pc m w
    = t.goOn e l (if a.condOf e l w 0 then paged ((a.engine e).bank l) (mImm m) else pc + 1) := by
  unfold State.sequence; rw [hq]; rfl

theorem State.sequence_call (hq : mSeq m = sqCall) : t.sequence a e l pc m w
    = (t.onBank e l fun b => { b with stack := (pc + 1, b.page) :: b.stack }).goOn e l (paged ((a.engine e).bank l) (mImm m)) := by
  unfold State.sequence; rw [hq]; rfl

theorem State.sequence_ret (hq : mSeq m = sqRet) : t.sequence a e l pc m w
    = match ((a.engine e).bank l).stack with
      | [] => t.routineEnd e l outActed
      | (i, p) :: st => (t.onBank e l fun b => { b with stack := st, page := p }).goOn e l i := by
  unfold State.sequence; rw [hq]; rfl

theorem State.sequence_end (hq : mSeq m = sqEnd) : t.sequence a e l pc m w = t.routineEnd e l outActed := by
  unfold State.sequence; rw [hq]; rfl

theorem State.sequence_mwb (hq : mSeq m = sqMwb) : t.sequence a e l pc m w = t.goOn e l (a.mwbTarget e l m w) := by
  unfold State.sequence; rw [hq]; rfl

theorem State.sequence_page (hq : mSeq m = sqPage) : t.sequence a e l pc m w
    = (t.onBank e l fun b => { b with page := mImm m % 16 }).goOn e l (pc + 1) := by
  unfold State.sequence; rw [hq]; rfl

theorem State.sequence_wait (hq : mSeq m = sqWait) {rt : Routine} (hat : (t.engine e).at_ l = some rt) :
    t.sequence a e l pc m w = t.setEngine e
      ((t.engine e).setAt l (some { rt with wait := some (t.waitFor ((a.engine e).bank l) w) })).settled := by
  unfold State.sequence; rw [hq]; simp only [hat]; rfl

theorem State.sequence_seal (hq : mSeq m = sqSeal) : t.sequence a e l pc m w = t.goOn e l (pc + 1) := by
  unfold State.sequence; rw [hq]; rfl

theorem State.sequence_unseal (hq : mSeq m = sqUnseal) : t.sequence a e l pc m w
    = (t.setEngine e { t.engine e with sect := (t.engine e).sect.map fun c => { c with done := some t.raw } }).goOn e l (pc + 1) := by
  unfold State.sequence; rw [hq]; rfl

end

/-! ### Where they lead -/

section
variable {s : State} {e : EngineId} {l pc m w c q : Nat} {rt : Routine}

/-- A routine that goes on at `n` in the bank that its nanoword leaves. -/
theorem seqWord_goesOn (h : s.executes e.val l pc m w c) (hacc : s.plainAccess e m w) (hat : (s.engine e.val).at_ l = some rt)
    (hq : mSeq m = q) (n : Nat) (hs : ∀ t : State, t.sequence (s.advance c) e.val l pc m w = t.goOn e.val l n) :
    ∃ t, seqWord e q s = .next (settle t)
      ∧ s.WentOn e l w c rt.slot t (some { rt with pc := n, first := false }) (s.worked e.val l m w c)
      ∧ (t.engine e.val).sect = (sectOpened (mSeq m) l c (s.engine e.val).sect).map fun x => { x with words := x.words + 1 } := by
  refine ⟨_, seqWord_runs h hq, State.runWord_wentOn h hacc hat fun _ t ht => ?_⟩
  rw [hs]
  exact ht.goOn n

/-- A routine that goes on at `n`, its stack or page changed. -/
theorem seqWord_banked (h : s.executes e.val l pc m w c) (hacc : s.plainAccess e m w) (hat : (s.engine e.val).at_ l = some rt)
    (hq : mSeq m = q) (n : Nat) (f : Bank → Bank)
    (hs : ∀ t : State, t.sequence (s.advance c) e.val l pc m w = (t.onBank e.val l f).goOn e.val l n) :
    ∃ t, seqWord e q s = .next (settle t)
      ∧ s.WentOn e l w c rt.slot t (some { rt with pc := n, first := false }) (f (s.worked e.val l m w c)) := by
  have hw := State.runWord_wentOn h hacc hat (r := some { rt with pc := n, first := false }) (b := f (s.worked e.val l m w c))
    fun _ t ht => by rw [hs]; exact (ht.onBank f).goOn n
  exact ⟨_, seqWord_runs h hq, hw.1⟩

/-- A routine that ends. -/
theorem seqWord_ends (h : s.executes e.val l pc m w c) (hacc : s.plainAccess e m w) (hat : (s.engine e.val).at_ l = some rt)
    (hq : mSeq m = q) (hs : ∀ t : State, t.sequence (s.advance c) e.val l pc m w = t.routineEnd e.val l outActed) :
    ∃ t, seqWord e q s = .next (settle t) ∧ s.WentOn e l w c rt.slot t none (s.worked e.val l m w c) := by
  have hw := State.runWord_wentOn h hacc hat (r := none) (b := s.worked e.val l m w c)
    fun _ t ht => by rw [hs]; exact State.Reached.routineEnd (rt := { rt with first := false }) ht outActed
  exact ⟨_, seqWord_runs h hq, hw.1⟩

/-- A routine that waits. -/
theorem seqWord_waits (h : s.executes e.val l pc m w c) (hacc : s.plainAccess e m w) (hat : (s.engine e.val).at_ l = some rt)
    (hq : mSeq m = sqWait) :
    ∃ t, seqWord e sqWait s = .next (settle t)
      ∧ s.WentOn e l w c rt.slot t (some { rt with first := false, wait := some ((s.advance c).waitFor ((s.engine e.val).bank l) w) })
          (s.worked e.val l m w c) := by
  have hwait : ∀ t : State, t.raw = (s.advance c).raw → ∀ b, t.waitFor b w = (s.advance c).waitFor b w := fun t ht b => by
    unfold State.waitFor
    rw [ht]
  have hw := State.runWord_wentOn h hacc hat
    (r := some { rt with first := false, wait := some ((s.advance c).waitFor ((s.engine e.val).bank l) w) })
    (b := s.worked e.val l m w c) fun _ t ht => by
      rw [t.sequence_wait _ _ _ _ _ _ hq ht.at_, hwait t ht.raw]
      exact ht.waits _
  exact ⟨_, seqWord_runs h hq, hw.1⟩

/-- A section closed. -/
theorem seqWord_unseals (h : s.executes e.val l pc m w c) (hacc : s.plainAccess e m w) (hat : (s.engine e.val).at_ l = some rt)
    (hq : mSeq m = sqUnseal) {k : SealSect} (hk : (s.engine e.val).sect = some k) :
    ∃ t, seqWord e sqUnseal s = .next (settle t)
      ∧ s.WentOn e l w c rt.slot t (some { rt with pc := pc + 1, first := false }) (s.worked e.val l m w c)
      ∧ (t.engine e.val).sect = some { k with words := k.words + 1, done := some c } := by
  have hopened : sectOpened (mSeq m) l c (s.engine e.val).sect = some k := by
    unfold sectOpened
    rw [if_neg (by rw [hq]; decide), hk]
  have hw := State.runWord_wentOn h hacc hat (r := some { rt with pc := pc + 1, first := false }) (b := s.worked e.val l m w c)
    (k := some { k with done := some c }) fun _ t ht => by
      rw [hopened] at ht
      have hu := ht.unseals
      rw [ht.raw, s.raw_of_fetches _ _ h.1] at hu
      rw [t.sequence_unseal _ _ _ _ _ _ hq, ht.raw, s.raw_of_fetches _ _ h.1]
      exact hu.goOn _
  exact ⟨_, seqWord_runs h hq, hw⟩

/-- The bank that CALL leaves, its return address and PAGE from the start of the word (R157). -/
theorem State.worked_call (s : State) (e l pc m w c : Nat) :
    ({ s.worked e l m w c with stack := (pc + 1, (s.worked e l m w c).page) :: (s.worked e l m w c).stack } : Bank)
      = { s.worked e l m w c with stack := (pc + 1, ((s.engine e).bank l).page) :: ((s.engine e).bank l).stack } := by
  obtain ⟨hst, hpg⟩ := ((s.advance c).opCtx e l m w).left_stack w
  have hst' : (s.worked e l m w c).stack = ((s.engine e).bank l).stack := hst
  have hpg' : (s.worked e l m w c).page = ((s.engine e).bank l).page := hpg
  rw [hst', hpg']

end

end Sys2Proof.Machine
end

section
open Sys2Proof Sys2Proof.Machine

/-- Settles O27: a word changes its engine, its slot and what waits for memory in four steps, each of which keeps the rest. -/
theorem wordsSequence : Obligations.WordsSequence := by
  unfold Obligations.WordsSequence
  refine ⟨fun s e l pc m w c h => ?_, fun s e l pc m w c h hacc rt hat => ?_⟩
  · refine ⟨?_, ?_, ?_, ?_, ?_, ?_, ?_, ?_, ?_, ?_, ?_⟩ <;> exact fun hq => seqWord_runs h hq
  have hraw := s.raw_of_fetches _ _ h.1
  intro good b on old
  refine ⟨fun hq => ?next, fun hq => ?jump, fun hq => ?jumpC, fun hq => ?call, fun hq i p st hst => ?ret, fun hq hst => ?retEmpty,
    fun hq => ?endOf, fun hq => ?mwb, fun hq => ?page, fun hq => ?wait, fun hq => ?opens, fun hq k hk => seqWord_unseals h hacc hat hq hk⟩
  case next =>
    obtain ⟨t, hx, hg, -⟩ := seqWord_goesOn h hacc hat hq (pc + 1) fun t => t.sequence_next _ _ _ _ _ _ hq
    exact ⟨t, hx, hg⟩
  case jump =>
    obtain ⟨t, hx, hg, -⟩ := seqWord_goesOn h hacc hat hq _ fun t => t.sequence_jump _ _ _ _ _ _ hq
    exact ⟨t, hx, hg⟩
  case jumpC =>
    obtain ⟨t, hx, hg, -⟩ := seqWord_goesOn h hacc hat hq _ fun t => t.sequence_jumpC _ _ _ _ _ _ hq
    exact ⟨t, hx, hg⟩
  case call =>
    obtain ⟨t, hx, hg⟩ := seqWord_banked h hacc hat hq _ _ fun t => t.sequence_call _ _ _ _ _ _ hq
    exact ⟨t, hx, s.worked_call e.val l pc m w c ▸ hg⟩
  case ret =>
    have hst' : (((s.advance c).engine e.val).bank l).stack = (i, p) :: st := hst
    exact seqWord_banked h hacc hat hq i (fun b => { b with stack := st, page := p })
      fun t => by rw [t.sequence_ret _ _ _ _ _ _ hq, hst']
  case retEmpty =>
    have hst' : (((s.advance c).engine e.val).bank l).stack = [] := hst
    exact seqWord_ends h hacc hat hq fun t => by rw [t.sequence_ret _ _ _ _ _ _ hq, hst']
  case endOf => exact seqWord_ends h hacc hat hq fun t => t.sequence_end _ _ _ _ _ _ hq
  case mwb =>
    obtain ⟨t, hx, hg, -⟩ := seqWord_goesOn h hacc hat hq _ fun t => t.sequence_mwb _ _ _ _ _ _ hq
    exact ⟨t, hx, hg⟩
  case page => exact seqWord_banked h hacc hat hq _ _ fun t => t.sequence_page _ _ _ _ _ _ hq
  case wait =>
    obtain ⟨t, hx, hg⟩ := seqWord_waits h hacc hat hq
    unfold State.waitFor at hg
    rw [hraw] at hg
    exact ⟨t, hx, hg⟩
  case opens =>
    obtain ⟨t, hx, hg, hs⟩ := seqWord_goesOn h hacc hat hq (pc + 1) fun t => t.sequence_seal _ _ _ _ _ _ hq
    unfold sectOpened at hs
    rw [if_pos hq] at hs
    exact ⟨t, hx, hg, hs⟩

end

section
/-! PROOFS. What a change of mode and the aborts of an entry to Safe-state leave of PWR's own books (R369 to R371, R387). -/

namespace Sys2Proof.Machine

-- In order: each proof evaluates in the kernel, which waits for the proofs before it.
set_option Elab.async false

variable (s : State)

/-- The words that are followed: DSP.CTL where `r` is set, the registers of PWR, but PWR.FLTSTS, where it is not. -/
def pwrWord (r : Bool) (a : Nat) : Bool :=
  if r then a = DSP.CTL.RUN.off else 0x1000 ≤ a && a < 0x2000 && a ≠ PWR.FLTSTS.FAULT.off

/-- What the blocks leave alone: the clock, the mode, PWR's state but for the fault codes that wait, the twin's own standing, and
the words that are followed. -/
def State.pwrBook (r : Bool) : (Nat × Int) × Mode × Pwr × (TwnSt × Option Switch × Bool × Bool) × (Nat → Word) :=
  ((s.raw, s.vtOff), s.mode, { s.pwr with faults := [] }, (s.twn.st, s.twn.sw, s.twn.killIn, s.twn.killOut),
    fun a => if pwrWord r a then s.reg a else 0)

variable {r : Bool}

theorem State.foldl_pwrBook {α : Type} {f : State → α → State} (h : ∀ t a, (f t a).pwrBook r = t.pwrBook r) (l : List α) :
    (l.foldl f s).pwrBook r = s.pwrBook r :=
  s.foldl_keeps (State.pwrBook · r) h l

/-! ### The small operations -/

theorem State.setReg_pwrBook {a : Nat} (v : Word) (h : pwrWord r a = false) : (s.setReg a v).pwrBook r = s.pwrBook r := by
  have hreg : (fun b => if pwrWord r b then (s.setReg a v).reg b else 0) = fun b => if pwrWord r b then s.reg b else 0 := by
    funext b
    split
    next hb =>
      refine s.reg_setReg_ne a v b fun hba => ?_
      rw [hba, h] at hb
      cases hb
    next => rfl
  unfold State.pwrBook
  rw [hreg]
  rfl

theorem pwrWord_far {a : Nat} (h : 0x100000 ≤ a) : pwrWord r a = false := by
  have hrun : DSP.CTL.RUN.off = 0x8008 := rfl
  unfold pwrWord
  cases r <;> simp <;> omega

/-- A field outside the words that are followed, in the pages of one unit. -/
def nearField (g : Fld) : Bool := !pwrWord true g.off && !pwrWord false g.off

theorem nearField_word {g : Fld} (h : nearField g = true) : pwrWord r g.off = false := by
  simp only [nearField, Bool.and_eq_true, Bool.not_eq_true'] at h
  cases r
  · exact h.2
  · exact h.1

theorem State.setF_pwrBook {g : Fld} (v : Nat) (h : nearField g = true) : (s.setF g v).pwrBook r = s.pwrBook r :=
  s.setReg_pwrBook (a := g.off + 0) _ (nearField_word h)

theorem State.setF_far_pwrBook {g : Fld} (v i : Nat) (h : 0x100000 ≤ g.off) : (s.setF g v i).pwrBook r = s.pwrBook r :=
  s.setReg_pwrBook _ (pwrWord_far (by omega))

theorem State.withSeen_pwrBook (w : Seen) : ({ s with seenNow := w } : State).pwrBook r = s.pwrBook r := rfl

@[simp] theorem State.set1_pwrBook {g : Fld} (h : nearField g = true) : (s.set1 g).pwrBook r = s.pwrBook r :=
  (State.withSeen_pwrBook _ _).trans (s.setF_pwrBook 1 h)

theorem State.set1_far_pwrBook {g : Fld} (i : Nat) (h : 0x100000 ≤ g.off) : (s.set1 g i).pwrBook r = s.pwrBook r :=
  (State.withSeen_pwrBook _ _).trans (s.setF_far_pwrBook 1 i h)

theorem State.clr_far_pwrBook {g : Fld} (i : Nat) (h : 0x100000 ≤ g.off) : (s.clr g i).pwrBook r = s.pwrBook r :=
  s.setF_far_pwrBook 0 i h

@[simp] theorem State.bump_pwrBook {g : Fld} (n : Nat) (h : nearField g = true) : (s.bump g n).pwrBook r = s.pwrBook r :=
  s.setF_pwrBook _ h

theorem State.setHolder_pwrBook {a : Nat} (id role : Nat) (h : 0x100000 ≤ a) : (s.setHolder a id role).pwrBook r = s.pwrBook r :=
  s.setReg_pwrBook _ (pwrWord_far h)

@[simp] theorem State.fault_pwrBook (c : Nat) : (s.fault c).pwrBook r = s.pwrBook r := by
  have hreg : (fun b => if pwrWord r b then (s.fault c).reg b else 0) = fun b => if pwrWord r b then s.reg b else 0 := by
    funext b
    split
    next hb =>
      refine s.reg_setReg_ne _ _ b fun hba => ?_
      have hno : pwrWord r (PWR.FLTSTS.FAULT.off + 0) = false := by cases r <;> decide
      rw [hba, hno] at hb
      cases hb
    next => rfl
  unfold State.pwrBook
  rw [hreg]
  rfl

@[simp] theorem State.setPreg_pwrBook (k a : Nat) (v : Word) : (s.setPreg k a v).pwrBook r = s.pwrBook r := rfl
@[simp] theorem State.setTrack_pwrBook (t : Nat) (x : Track) : (s.setTrack t x).pwrBook r = s.pwrBook r := rfl
@[simp] theorem State.setRuler_pwrBook (u : Nat) (x : Ruler) : (s.setRuler u x).pwrBook r = s.pwrBook r := rfl
@[simp] theorem State.setEngine_pwrBook (e : Nat) (x : Engine) : (s.setEngine e x).pwrBook r = s.pwrBook r := rfl
@[simp] theorem State.setConsist_pwrBook (k : Nat) (x : Consist) : (s.setConsist k x).pwrBook r = s.pwrBook r := rfl
@[simp] theorem State.setShunter_pwrBook (n : Nat) (x : Shunter) : (s.setShunter n x).pwrBook r = s.pwrBook r := rfl
@[simp] theorem State.setChan_pwrBook (c : Nat) (x : OptChan) : (s.setChan c x).pwrBook r = s.pwrBook r := rfl
@[simp] theorem State.setSqr_pwrBook (q : Nat) (x : Sequencer) : (s.setSqr q x).pwrBook r = s.pwrBook r := rfl
@[simp] theorem State.setWin_pwrBook (w : Nat) (x : Window) : (s.setWin w x).pwrBook r = s.pwrBook r := rfl
@[simp] theorem State.setSlot_pwrBook (i : Nat) (x : Slot) : (s.setSlot i x).pwrBook r = s.pwrBook r := rfl
@[simp] theorem State.withAdc_pwrBook (x : Adc) : ({ s with adc := x } : State).pwrBook r = s.pwrBook r := rfl
@[simp] theorem State.withDsp_pwrBook (x : Dsp) : ({ s with dsp := x } : State).pwrBook r = s.pwrBook r := rfl
@[simp] theorem State.withTbu_pwrBook (x : Tbu) : ({ s with tbu := x } : State).pwrBook r = s.pwrBook r := rfl
@[simp] theorem State.hang_pwrBook (i : Nat) (p : Place) (t b : Nat) : (s.hang i p t b).pwrBook r = s.pwrBook r := rfl
@[simp] theorem State.lineEdge_pwrBook (c u : Nat) (v : Bool) (t : Nat) : (s.lineEdge c u v t).pwrBook r = s.pwrBook r := rfl
@[simp] theorem State.shnThaw_pwrBook (d : Nat) : (s.shnThaw d).pwrBook r = s.pwrBook r := rfl
@[simp] theorem State.ruPassed_pwrBook (u : Nat) (p : RuStart → Bool) : (s.ruPassed u p).pwrBook r = s.pwrBook r := rfl
@[simp] theorem State.adcPut_pwrBook (i : Nat) (v : Word) : (s.adcPut i v).pwrBook r = s.pwrBook r := rfl

@[simp] theorem State.acted_pwrBook (c : LoadSrc) (o : Nat) : (s.acted c o).pwrBook r = s.pwrBook r := by
  unfold State.acted
  cases c <;> simp [apply_ite (State.pwrBook · r)]

@[simp] theorem State.unhold_pwrBook (i : Nat) : (s.unhold i).pwrBook r = s.pwrBook r := by
  simp [State.unhold, apply_ite (State.pwrBook · r)]

/-- A change of the twin that keeps its standing. -/
theorem State.withTwn_pwrBook {x : Twn} (h : (x.st, x.sw, x.killIn, x.killOut) = (s.twn.st, s.twn.sw, s.twn.killIn, s.twn.killOut)) :
    ({ s with twn := x } : State).pwrBook r = s.pwrBook r := by
  unfold State.pwrBook
  rw [← h]
  rfl

@[simp] theorem State.mirror_pwrBook (m : Mirror) : (s.mirror m).pwrBook r = s.pwrBook r := by
  unfold State.mirror
  split
  · refine s.withTwn_pwrBook ?_
    unfold Twn.intoRing
    dsimp only
    split <;> rfl
  · rfl

@[simp] theorem State.memThaw_pwrBook (d : Nat) : (s.memThaw d).pwrBook r = s.pwrBook r := by
  unfold State.memThaw; split <;> rfl

@[simp] theorem State.ppsHalt_pwrBook : s.ppsHalt.pwrBook r = s.pwrBook r := by
  unfold State.ppsHalt; dsimp only; split <;> rfl

/-! ### Consists -/

@[simp] theorem State.noteOutcome_pwrBook (w o : Nat) : (s.noteOutcome w o).pwrBook r = s.pwrBook r := by
  simp (disch := decide) [State.noteOutcome, apply_ite (State.pwrBook · r)]

@[simp] theorem State.consistEnd_pwrBook (k o : Nat) : (s.consistEnd k o).pwrBook r = s.pwrBook r := by
  have htwn (t : State) (l : List MirCns) : ({ t with twn := { t.twn with cons := l } } : State).pwrBook r = t.pwrBook r := rfl
  simp [State.consistEnd, apply_ite (State.pwrBook · r), htwn]

@[simp] theorem State.missPassed_pwrBook : s.missPassed.pwrBook r = s.pwrBook r := by
  refine s.foldl_pwrBook (fun t k => ?_) _
  dsimp only
  split
  · split <;> simp
  · rfl

@[simp] theorem State.stepConsists_pwrBook (w : Nat) : (s.stepConsists w).pwrBook r = s.pwrBook r := by
  refine s.foldl_pwrBook (fun t k => ?_) _
  dsimp only
  split
  · rfl
  · simp [apply_ite (State.pwrBook · r)]

/-! ### The timetable -/

@[simp] theorem State.newPeriod_pwrBook (p : Nat) : (s.newPeriod p).pwrBook r = s.pwrBook r := by
  unfold State.newPeriod; split <;> rfl

@[simp] theorem State.leaveConfigure_pwrBook : s.leaveConfigure.pwrBook r = s.pwrBook r := by
  simp [State.leaveConfigure, apply_ite (State.pwrBook · r)]

@[simp] theorem State.placeTime_pwrBook (i t : Nat) : (s.placeTime i t).pwrBook r = s.pwrBook r := by
  simp [State.placeTime, apply_ite (State.pwrBook · r)]

@[simp] theorem State.hangAll_pwrBook (is : List Nat) (p : Place) : (s.hangAll is p).pwrBook r = s.pwrBook r :=
  s.foldl_pwrBook (fun t i => t.hang_pwrBook i p _ _) is

@[simp] theorem State.sweep_pwrBook (is : List Nat) : (s.sweep is).pwrBook r = s.pwrBook r :=
  s.foldl_pwrBook (fun t i => by simp [apply_ite (State.pwrBook · r)]) is

@[simp] theorem State.catchUp_pwrBook : s.catchUp.pwrBook r = s.pwrBook r := by
  simp [State.catchUp]

@[simp] theorem State.resumeMoves_pwrBook : s.resumeMoves.pwrBook r = s.pwrBook r := by
  rw [← s.catchUp_pwrBook]; unfold State.resumeMoves; dsimp only; split <;> rfl

@[simp] theorem State.startMoves_pwrBook : s.startMoves.pwrBook false = s.pwrBook false := by
  have hrun (t : State) : (t.set1 DSP.CTL.RUN).pwrBook false = t.pwrBook false :=
    (State.withSeen_pwrBook _ _).trans (t.setReg_pwrBook (a := DSP.CTL.RUN.off + 0) _ (by decide))
  simp (disch := decide) [State.startMoves, apply_ite (State.pwrBook · false), hrun]

/-! ### Tracks and ruling units -/

@[simp] theorem State.noteTrig_pwrBook (c u : Nat) (v : Bool) : (s.noteTrig c u v).pwrBook r = s.pwrBook r :=
  s.foldl_pwrBook (fun t n => by dsimp only; split <;> rfl) _

@[simp] theorem State.noteEdge_pwrBook (c u : Nat) (v : Bool) : (s.noteEdge c u v).pwrBook r = s.pwrBook r := by
  rw [← s.noteTrig_pwrBook c u v]
  exact (s.noteTrig c u v).foldl_pwrBook (fun t n => by simp [apply_ite (State.pwrBook · r)]) _

@[simp] theorem State.linkDelay_pwrBook (t low : Nat) : (s.linkDelay t low).1.pwrBook r = s.pwrBook r := by
  unfold State.linkDelay
  dsimp only
  split
  · exact s.set1_far_pwrBook _ (by decide)
  · rfl

@[simp] theorem State.linkEdge_pwrBook (c u : Nat) (v : Bool) : (s.linkEdge c u v).pwrBook r = s.pwrBook r :=
  s.foldl_pwrBook (fun t n => (State.setTrack_pwrBook _ n _).trans (t.linkDelay_pwrBook n 512)) _

@[simp] theorem State.ruShow_pwrBook (t : State) (u c : Nat) : (s.ruShow t u c).pwrBook r = t.pwrBook r := by
  simp [State.ruShow, apply_ite (State.pwrBook · r)]

@[simp] theorem State.ruDropStart_pwrBook (u o : Nat) : (s.ruDropStart u o).pwrBook r = s.pwrBook r := by
  unfold State.ruDropStart; dsimp only; split <;> simp

@[simp] theorem State.ruDropStop_pwrBook (u o : Nat) : (s.ruDropStop u o).pwrBook r = s.pwrBook r := by
  unfold State.ruDropStop; dsimp only; split <;> simp

@[simp] theorem State.ruLatch_pwrBook (u : Nat) : (s.ruLatch u).pwrBook r = s.pwrBook r := by
  simp [State.ruLatch, apply_ite (State.pwrBook · r)]

@[simp] theorem State.rulThaw_pwrBook (u : Nat) : (s.rulThaw u).pwrBook r = s.pwrBook r := by
  simp [State.rulThaw, apply_ite (State.pwrBook · r)]

@[simp] theorem State.ruHalt_pwrBook (u : Nat) : (s.ruHalt u).pwrBook r = s.pwrBook r := by
  unfold State.ruHalt State.ruStopHard
  dsimp only
  split
  · rfl
  · exact (State.setRuler_pwrBook _ _ _).trans (State.set1_far_pwrBook _ _ (by decide))

@[simp] theorem State.rulFreeze_pwrBook (u : Nat) : (s.rulFreeze u).pwrBook r = s.pwrBook r := by
  simp [State.rulFreeze, apply_ite (State.pwrBook · r)]

theorem State.rulFreezeAll_pwrBook (us : List Nat) : (us.foldl (fun s u => s.rulFreeze u) s).pwrBook r = s.pwrBook r :=
  s.foldl_pwrBook (fun t u => t.rulFreeze_pwrBook u) us

/-! ### Engines -/

@[simp] theorem State.engResumeAll_pwrBook : s.engResumeAll.pwrBook r = s.pwrBook r :=
  s.foldl_pwrBook (fun t e => by simp [apply_ite (State.pwrBook · r)]) _

@[simp] theorem State.engHaltAll_pwrBook : s.engHaltAll.pwrBook r = s.pwrBook r :=
  s.foldl_pwrBook (fun t e => by simp [apply_ite (State.pwrBook · r)]) _

@[simp] theorem State.engDeaf_pwrBook (e : Nat) : (s.engDeaf e).pwrBook r = s.pwrBook r := by
  unfold State.engDeaf
  exact (State.foldl_pwrBook _ (fun t c => by simp [apply_ite (State.pwrBook · r)]) _).trans (State.setEngine_pwrBook _ _ _)

theorem State.engDeafAll_pwrBook (m : SMap Engine) : (m.foldl (fun s e => s.engDeaf e.1) s).pwrBook r = s.pwrBook r :=
  s.foldl_pwrBook (fun t e => t.engDeaf_pwrBook e.1) m

@[simp] theorem State.leaveHalt_pwrBook : s.leaveHalt.pwrBook r = s.pwrBook r := by
  have hthaw (t : State) (us : List Nat) : (us.foldl (fun s u => s.rulThaw u) t).pwrBook r = t.pwrBook r :=
    t.foldl_pwrBook (fun t u => t.rulThaw_pwrBook u) us
  simp [State.leaveHalt, apply_ite (State.pwrBook · r), hthaw]

/-! ### The aborts of an entry to Safe-state -/

@[simp] theorem State.clearTrack_pwrBook (t o : Nat) : (s.clearTrack t o).pwrBook r = s.pwrBook r := by
  have hdrop (xs : List LoadSrc) : (s.dropLoads xs o).pwrBook r = s.pwrBook r := s.foldl_pwrBook (fun t x => t.acted_pwrBook x o) xs
  simp [State.clearTrack, apply_ite (State.pwrBook · r), hdrop]

theorem State.trkAbort_pwrBook (t : Nat) : (s.trkAbort t).pwrBook r = s.pwrBook r := by
  have hown : 0x100000 ≤ TRK.OWN.HOLDER.off + trkAt t := Nat.le_trans (by decide) (Nat.le_add_right _ _)
  unfold State.trkAbort
  dsimp only
  rw [State.setHolder_pwrBook _ _ _ hown, State.setF_far_pwrBook _ _ _ (by decide), State.clearTrack_pwrBook]

theorem State.rulAbort_pwrBook (u : Nat) : (s.rulAbort u).pwrBook r = s.pwrBook r := by
  have hown : 0x100000 ≤ RUL.OWN.HOLDER.off + pgAt u := Nat.le_trans (by decide) (Nat.le_add_right _ _)
  unfold State.rulAbort
  dsimp only
  rw [State.ruLatch_pwrBook, State.setF_far_pwrBook _ _ _ (by decide), State.setHolder_pwrBook _ _ _ hown, State.setRuler_pwrBook,
    State.ruHalt_pwrBook, State.ruDropStop_pwrBook, State.ruDropStart_pwrBook]

theorem State.endChans_pwrBook (cs : List Nat) : (s.endChans cs false).pwrBook r = s.pwrBook r := by
  refine s.foldl_pwrBook (fun t c => ?_) _
  dsimp only
  split <;> rfl

theorem State.closeFrame_pwrBook (q : Nat) (x : StepRun) : (s.closeFrame q x).pwrBook r = s.pwrBook r := by
  have hput (t : State) (y : Window) (u : Nat) (ws : List Word) : (t.winPut y u ws).pwrBook r = t.pwrBook r :=
    t.foldl_pwrBook (fun t p => t.adcPut_pwrBook _ _) _
  unfold State.closeFrame
  split
  · rfl
  · exact (State.withAdc_pwrBook _ _).trans ((State.setWin_pwrBook _ _ _).trans (hput _ _ _ _))

theorem State.sqAbort_pwrBook (q : Nat) : (s.sqAbort q).pwrBook r = s.pwrBook r := by
  have hdrop : (s.adcDropLoads q outAborted).pwrBook r = s.pwrBook r :=
    (State.setSqr_pwrBook _ _ _).trans (s.foldl_pwrBook (fun t x => t.acted_pwrBook x _) _)
  have htails (t : State) (l : List Tail) :
      (l.foldl (fun s t => (s.closeFrame q { t.step with trunc := true }).endChans t.chans false) t).pwrBook r = t.pwrBook r :=
    t.foldl_pwrBook (fun t x => (State.endChans_pwrBook _ _).trans (State.closeFrame_pwrBook _ _ _)) l
  unfold State.sqAbort
  dsimp only
  rw [State.setSqr_pwrBook]
  split
  · rw [State.endChans_pwrBook]
    split
    · rw [State.closeFrame_pwrBook, htails, hdrop]
    · rw [htails, hdrop]
  · rw [htails, hdrop]

theorem State.adcAbort_pwrBook : s.adcAbort.pwrBook r = s.pwrBook r := by
  unfold State.adcAbort
  dsimp only
  rw [State.foldl_pwrBook _ (fun t w => t.setHolder_pwrBook _ _ (Nat.le_trans (by decide) (Nat.le_add_right _ _))),
    State.endChans_pwrBook, State.sqAbort_pwrBook, State.sqAbort_pwrBook, State.sqAbort_pwrBook]

theorem State.shnAbort_pwrBook (n : Nat) : (s.shnAbort n).pwrBook r = s.pwrBook r := by
  unfold State.shnAbort State.shDropStart State.shHalt
  dsimp only
  rw [State.clr_far_pwrBook _ _ (by decide), State.clr_far_pwrBook _ _ (by decide)]
  split <;> simp

theorem State.routineEnd_pwrBook (e l o : Nat) : (s.routineEnd e l o).pwrBook r = s.pwrBook r := by
  unfold State.routineEnd
  dsimp only
  split
  · rfl
  · simp [apply_ite (State.pwrBook · r)]

theorem State.dropSection_pwrBook (e : Nat) : (s.dropSection e).pwrBook r = s.pwrBook r := by
  unfold State.dropSection
  dsimp only
  split
  · rfl
  · rw [State.setEngine_pwrBook, State.withDsp_pwrBook]
    exact s.foldl_pwrBook (f := fun s i => s.setSlot i { s.slot i with st := .free, place := .nowhere }) (fun _ _ => rfl) _

theorem State.releaseAll_pwrBook (id : Nat) : (s.releaseAll id).pwrBook r = s.pwrBook r := by
  have hhigh (a : Nat) (h : holderReg a) : 0x100000 ≤ a := by
    simp only [holderReg, Bool.or_eq_true, Bool.and_eq_true, decide_eq_true_eq] at h
    omega
  refine s.foldl_pwrBook (fun t e => ?_) _
  dsimp only
  split
  next h =>
    split
    · rw [State.setReg_pwrBook _ _ (pwrWord_far (hhigh _ h.1)), State.setHolder_pwrBook _ _ _ (hhigh _ h.1)]
    · exact t.setHolder_pwrBook _ _ (hhigh _ h.1)
  next => rfl

theorem State.menAbort_pwrBook (e : Nat) : (s.menAbort e).pwrBook r = s.pwrBook r := by
  have hcut : (s.cutSection e).pwrBook r = s.pwrBook r := by
    unfold State.cutSection
    split
    · rw [apply_ite (State.pwrBook · r), State.dropSection_pwrBook, ite_self]
    · exact s.dropSection_pwrBook e
  have hends (t : State) : (t.routinesEnd e outAborted).pwrBook r = t.pwrBook r :=
    t.foldl_pwrBook (fun t l => t.routineEnd_pwrBook e l _) _
  have hcalls (t : State) : (t.dropCalls e outAborted).pwrBook r = t.pwrBook r :=
    (State.setEngine_pwrBook _ _ _).trans (t.foldl_pwrBook (fun t c => by simp [apply_ite (State.pwrBook · r)]) _)
  unfold State.menAbort
  dsimp only
  rw [State.releaseAll_pwrBook, State.setEngine_pwrBook, hcalls, hends, hcut]

/-- A page whose abort is part of an entry to Safe-state (R371), and leaves the words that are followed. -/
def safeCode (r : Bool) (c : Nat) : Bool := (!r && c = 0x08) || c = 0x10 || c = 0x13 || c = 0x14 || c = 0x15 || c = 0x16

theorem State.blockEffect_pwrBook {c : Nat} (n : Nat) (h : safeCode r c = true) : (s.blockEffect c n).pwrBook r = s.pwrBook r := by
  have hdsp : s.blockEffect 0x08 n = s.dspAbort := by simp [State.blockEffect]
  have htrk : s.blockEffect 0x10 n = s.trkAbort n := by simp [State.blockEffect]
  have hrul : s.blockEffect 0x13 n = s.rulAbort n := by simp [State.blockEffect]
  have hadc : s.blockEffect 0x14 n = s.adcAbort := by simp [State.blockEffect]
  have hshn : s.blockEffect 0x15 n = s.shnAbort n := by simp [State.blockEffect]
  have hmen : s.blockEffect 0x16 n = s.menAbort n := by simp [State.blockEffect]
  simp only [safeCode, Bool.or_eq_true, Bool.and_eq_true, Bool.not_eq_true', decide_eq_true_eq] at h
  rcases h with ((((⟨rfl, rfl⟩ | rfl) | rfl) | rfl) | rfl) | rfl
  · rw [hdsp]; exact s.setReg_pwrBook (a := DSP.CTL.RUN.off + 0) _ (by decide)
  · rw [htrk, s.trkAbort_pwrBook n]
  · rw [hrul, s.rulAbort_pwrBook n]
  · rw [hadc, s.adcAbort_pwrBook]
  · rw [hshn, s.shnAbort_pwrBook n]
  · rw [hmen, s.menAbort_pwrBook n]

/-- A page whose abort leaves the words that are followed. -/
def safePage (r : Bool) (b : Nat) : Bool :=
  !pwrWord r (b + 0x24) && match pageOf b with | some (p, _) => safeCode r p.code | none => true

theorem State.abortPages_pwrBook : ∀ (bs : List Nat) (s : State), bs.all (safePage r) = true →
    (bs.foldl (fun s b => (s.abortBegin b).abortEffect b) s).pwrBook r = s.pwrBook r
  | [], _, _ => rfl
  | b :: bs, s, h => by
    simp only [List.all_cons, Bool.and_eq_true, safePage, Bool.not_eq_true'] at h
    obtain ⟨⟨hword, hcode⟩, hrest⟩ := h
    have hbegin : (s.abortBegin b).pwrBook r = s.pwrBook r := s.setReg_pwrBook _ hword
    rw [List.foldl_cons, State.abortPages_pwrBook bs _ hrest, ← hbegin]
    unfold State.abortEffect
    split
    · rfl
    next p base hp =>
      rw [hp] at hcode
      exact State.blockEffect_pwrBook _ _ hcode

theorem safePages_book : safePages.all (safePage false) = true := by decide +kernel

theorem State.abortSafe_pwrBook :
    (safePages.foldl (fun s b => (s.abortBegin b).abortEffect b) s).pwrBook false = s.pwrBook false :=
  State.abortPages_pwrBook safePages s safePages_book

end Sys2Proof.Machine
end

section
/-! PROOFS. Changes of mode, entries to Safe-state and to Boot, and what follows them in their cycle (R369 to R371, R385, R387). -/

namespace Sys2Proof.Machine

-- In order: each proof evaluates in the kernel, which waits for the proofs before it.
set_option Elab.async false

variable {s t : State} {r : Bool}

/-! ### What the kept books of PWR say -/

theorem State.raw_of_pwrBook (h : t.pwrBook r = s.pwrBook r) : t.raw = s.raw := congrArg (fun p => p.1.1) h

theorem State.mode_of_pwrBook (h : t.pwrBook r = s.pwrBook r) : t.mode = s.mode := congrArg (fun p => p.2.1) h

theorem State.pwr_of_pwrBook (h : t.pwrBook r = s.pwrBook r) : { t.pwr with faults := [] } = { s.pwr with faults := [] } :=
  congrArg (fun p => p.2.2.1) h

theorem State.killIn_of_pwrBook (h : t.pwrBook r = s.pwrBook r) : t.twn.killIn = s.twn.killIn :=
  congrArg (fun p => p.2.2.2.1.2.2.1) h

theorem State.reg_of_pwrBook (h : t.pwrBook r = s.pwrBook r) {a : Nat} (ha : pwrWord r a = true) : t.reg a = s.reg a := by
  have hreg := congrFun (congrArg (fun p => p.2.2.2.2) h) a
  dsimp only [State.pwrBook] at hreg
  rwa [if_pos ha, if_pos ha] at hreg

theorem State.f_of_pwrBook (h : t.pwrBook r = s.pwrBook r) {g : Fld} (ha : pwrWord r g.off = true) : t.f g = s.f g := by
  unfold State.f
  rw [State.reg_of_pwrBook h (a := g.off + 0) ha]

theorem State.on_of_pwrBook (h : t.pwrBook r = s.pwrBook r) {g : Fld} (ha : pwrWord r g.off = true) : t.on g = s.on g := by
  unfold State.on
  rw [State.f_of_pwrBook h ha]

variable (s)

/-! ### A change of mode -/

/-- PWR's state changed. -/
def State.putPwr (f : Pwr → Pwr) : State := { s with pwr := f s.pwr }

theorem State.putPwr_pwrBook {u t : State} (h : u.pwrBook r = t.pwrBook r) (f : Pwr → Pwr)
    (hf : ∀ x y : Pwr, { x with faults := [] } = { y with faults := [] } → { f x with faults := [] } = { f y with faults := [] }) :
    (u.putPwr f).pwrBook r = (t.putPwr f).pwrBook r := by
  have hp := hf _ _ (State.pwr_of_pwrBook h)
  simp only [State.pwrBook, Prod.mk.injEq] at h ⊢
  exact ⟨h.1, h.2.1, hp, h.2.2.2.1, h.2.2.2.2⟩

/-- The watchdog's period, which an entry to a watched mode restarts (R379). -/
def Pwr.kicked (x : Pwr) (m : Mode) (c : Nat) : Pwr := { x with kick := if m.watched then c else x.kick }

/-- An entry to Debug-halt notes its cycle (R373). -/
def Pwr.haltedAt (x : Pwr) (m : Mode) (c : Nat) : Pwr := { x with haltAt := if m = .halt then c else x.haltAt }

/-- The mode changed, with what PWR books of it: the interrupt, the watchdog's period, the entry to Debug-halt. -/
def State.entered (m : Mode) : State :=
  ((({ s with mode := m } : State).set1 PWR.IRQ_RAW.MODE_CHG).putPwr fun x => x.kicked m s.raw).putPwr fun x => x.haltedAt m s.raw

theorem State.entered_of_ne_halt {m : Mode} (h : m ≠ .halt) :
    s.entered m = (({ s with mode := m } : State).set1 PWR.IRQ_RAW.MODE_CHG).putPwr fun x => x.kicked m s.raw := by
  unfold State.entered Pwr.haltedAt
  simp only [if_neg h]
  rfl

theorem Pwr.kicked_faults (m : Mode) (c : Nat) (x y : Pwr) (h : { x with faults := [] } = { y with faults := [] }) :
    { x.kicked m c with faults := [] } = { y.kicked m c with faults := [] } :=
  congrArg (fun p => Pwr.kicked p m c) h

theorem Pwr.haltedAt_faults (m : Mode) (c : Nat) (x y : Pwr) (h : { x with faults := [] } = { y with faults := [] }) :
    { x.haltedAt m c with faults := [] } = { y.haltedAt m c with faults := [] } :=
  congrArg (fun p => Pwr.haltedAt p m c) h

theorem State.enterHalt_pwrBook : s.enterHalt.pwrBook r = (s.putPwr fun x => x.haltedAt .halt s.raw).pwrBook r := by
  have hstill : (s.engHaltAll.rulers.foldl (fun s u => s.rulFreeze u) s.engHaltAll).pwrBook r = s.pwrBook r :=
    (State.rulFreezeAll_pwrBook _ _).trans s.engHaltAll_pwrBook
  have henter : s.enterHalt = (s.engHaltAll.rulers.foldl (fun s u => s.rulFreeze u) s.engHaltAll).putPwr
      fun x => x.haltedAt .halt (s.engHaltAll.rulers.foldl (fun s u => s.rulFreeze u) s.engHaltAll).raw := rfl
  rw [henter, State.raw_of_pwrBook hstill]
  exact State.putPwr_pwrBook hstill _ (Pwr.haltedAt_faults _ _)

theorem State.toMode_book {m : Mode} (hr : r = true → m.moves = false) (h : s.mode ≠ m) :
    (s.toMode m).pwrBook r = (s.entered m).pwrBook r := by
  unfold State.toMode
  rw [if_neg h]
  extract_lets old entered missed pwr kicked left started since tbu counting halted resumed deaf
  have hmissed : missed.pwrBook r = entered.pwrBook r := by
    simp only [missed, apply_ite (State.pwrBook · r), State.missPassed_pwrBook, ite_self]
  have hkicked : kicked = missed.putPwr fun x => x.kicked m missed.raw := by
    simp only [kicked, pwr, State.putPwr, Pwr.kicked]
    split <;> rfl
  have hstarted : started.pwrBook r = left.pwrBook r := by
    cases r with
    | true => simp only [started, hr rfl, Bool.and_false, Bool.false_eq_true, if_false]
    | false => simp only [started, apply_ite (State.pwrBook · false), State.startMoves_pwrBook, ite_self]
  have hafter : deaf.pwrBook r = kicked.pwrBook r := by
    simp only [deaf, resumed, halted, counting, left, apply_ite (State.pwrBook · r), State.withTbu_pwrBook, hstarted,
      State.engDeafAll_pwrBook, State.leaveHalt_pwrBook, State.ppsHalt_pwrBook, State.leaveConfigure_pwrBook, ite_self]
  have hraw : missed.raw = s.raw := (State.raw_of_pwrBook hmissed).trans rfl
  have hbook : deaf.pwrBook r = (entered.putPwr fun x => x.kicked m s.raw).pwrBook r := by
    rw [hafter, hkicked, hraw]
    exact State.putPwr_pwrBook hmissed _ (Pwr.kicked_faults _ _)
  have hraw' : deaf.raw = s.raw := (State.raw_of_pwrBook hbook).trans rfl
  by_cases hm : m = .halt
  · rw [if_pos hm, State.enterHalt_pwrBook, hraw', State.putPwr_pwrBook hbook _ (Pwr.haltedAt_faults _ _), ← hm]
    rfl
  · rw [if_neg hm, hbook, s.entered_of_ne_halt hm]

theorem State.toMode_pwrBook {m : Mode} (h : s.mode ≠ m) : (s.toMode m).pwrBook false = (s.entered m).pwrBook false :=
  s.toMode_book (fun hr => nomatch hr) h

theorem State.entered_raw (m : Mode) : (s.entered m).raw = s.raw := rfl

theorem State.entered_mode (m : Mode) : (s.entered m).mode = m := rfl

theorem State.entered_twn (m : Mode) : (s.entered m).twn = s.twn := rfl

theorem State.entered_regs (m : Mode) : (s.entered m).regs = (s.set1 PWR.IRQ_RAW.MODE_CHG).regs := rfl

theorem State.f_of_regs {u t : State} (h : u.regs = t.regs) (g : Fld) (i : Nat) : u.f g i = t.f g i := by
  unfold State.f State.reg
  rw [h]

/-- What a change of mode comes to, in the terms of PWR's books. -/
theorem State.toMode_facts {m : Mode} (h : s.mode ≠ m) : (s.toMode m).mode = m ∧ (s.toMode m).raw = s.raw
    ∧ (s.toMode m).on PWR.IRQ_RAW.MODE_CHG = true
    ∧ (∀ g : Fld, pwrWord false g.off = true → g.off ≠ PWR.IRQ_RAW.MODE_CHG.off → (s.toMode m).f g = s.f g)
    ∧ (s.toMode m).twn.killIn = s.twn.killIn := by
  have hb := s.toMode_pwrBook h
  refine ⟨(State.mode_of_pwrBook hb).trans (s.entered_mode m), (State.raw_of_pwrBook hb).trans (s.entered_raw m), ?_, fun g hg hne => ?_,
    (State.killIn_of_pwrBook hb).trans (congrArg Twn.killIn (s.entered_twn m))⟩
  · rw [State.on_of_pwrBook hb (by decide), State.on_eq, State.f_of_regs (s.entered_regs m), ← State.on_eq]
    exact s.on_set1 _ _ (by decide) rfl
  · rw [State.f_of_pwrBook hb hg, State.f_of_regs (s.entered_regs m), State.f_set1_eq]
    exact s.f_setF_other _ _ _ _ _ hne

/-- A change to a mode without moves leaves DSP.CTL. -/
theorem State.toMode_run {m : Mode} (hm : m.moves = false) : (s.toMode m).on DSP.CTL.RUN = s.on DSP.CTL.RUN := by
  by_cases h : s.mode = m
  · rw [← h, s.toMode_self]
  · have hb := s.toMode_book (r := true) (fun _ => hm) h
    rw [State.on_of_pwrBook hb (by decide), State.on_eq, State.f_of_regs (s.entered_regs m), State.f_set1_eq,
      State.f_setF_other _ _ _ _ _ _ (by decide), ← State.on_eq]

theorem State.mode_toMode (m : Mode) : (s.toMode m).mode = m := by
  by_cases h : s.mode = m
  · rw [← h, s.toMode_self]
  · exact (s.toMode_facts h).1

theorem State.pwr_toMode {m : Mode} (h : s.mode ≠ m) : { (s.toMode m).pwr with faults := [] }
    = { s.pwr with faults := [], kick := if m.watched then s.raw else s.pwr.kick, haltAt := if m = .halt then s.raw else s.pwr.haltAt } :=
  State.pwr_of_pwrBook (s.toMode_pwrBook h)

/-! ### A PWR.CMD dropped -/

theorem State.preempt_mode : s.preempt.mode = s.mode := by unfold State.preempt; split <;> rfl

theorem State.preempt_raw : s.preempt.raw = s.raw := by unfold State.preempt; split <;> rfl

theorem State.preempt_twn : s.preempt.twn = s.twn := by unfold State.preempt; split <;> rfl

theorem State.preempt_eng : s.preempt.eng = s.eng := by unfold State.preempt; split <;> rfl

theorem State.preempt_pwr : s.preempt.pwr = { s.pwr with cmd := none } := by
  unfold State.preempt
  split
  next => rfl
  next h =>
    simp only [Bool.not_eq_true, Option.isSome_eq_false_iff, Option.isNone_iff_eq_none] at h
    rw [← h]

theorem State.preempt_result (h : s.pwr.cmd.isSome = true) : s.preempt.f PWR.CMDSTS.RESULT = 2 := by
  unfold State.preempt
  rw [if_pos h]
  exact s.f_setF_self PWR.CMDSTS.RESULT 0 2 (by decide)

theorem State.preempt_f {g : Fld} (h : g.off ≠ PWR.CMDSTS.RESULT.off) : s.preempt.f g = s.f g := by
  unfold State.preempt
  split
  · exact s.f_setF_other _ _ 0 0 2 h
  · rfl

/-! ### An entry to Safe-state -/

/-- What an entry to Safe-state books (R371). -/
def State.safeBooks (prev c n : Nat) : State :=
  (((((s.putPwr fun x => { x with prev := prev }).setF PWR.SAFECAUSE.CAUSE c).setF PWR.SAFECAUSE.FAULT n).set1
    PWR.IRQ_RAW.SAFE).bump PWR.CNT_EVT.LO).onTwn fun x => { x with safeFlag := true }

theorem State.safeBooks_cause (p c n : Nat) : (s.safeBooks p c n).f PWR.SAFECAUSE.CAUSE = c % 2 ^ PWR.SAFECAUSE.CAUSE.wid := by
  unfold State.safeBooks State.onTwn
  rw [State.f_withTwn, State.f_bump_eq, State.f_setF_other _ _ _ _ _ _ (by decide), State.f_set1_eq,
    State.f_setF_other _ _ _ _ _ _ (by decide), State.f_setF_beside _ _ _ _ _ _ (by decide), State.f_setF_self _ _ _ _ (by decide)]

theorem State.safeBooks_fault (p c n : Nat) : (s.safeBooks p c n).f PWR.SAFECAUSE.FAULT = n % 2 ^ PWR.SAFECAUSE.FAULT.wid := by
  unfold State.safeBooks State.onTwn
  rw [State.f_withTwn, State.f_bump_eq, State.f_setF_other _ _ _ _ _ _ (by decide), State.f_set1_eq,
    State.f_setF_other _ _ _ _ _ _ (by decide), State.f_setF_self _ _ _ _ (by decide)]

theorem State.safeBooks_irq (p c n : Nat) : (s.safeBooks p c n).on PWR.IRQ_RAW.SAFE = true := by
  unfold State.safeBooks State.onTwn
  rw [State.on_eq, State.f_withTwn, State.f_bump_eq, State.f_setF_other _ _ _ _ _ _ (by decide), ← State.on_eq]
  exact State.on_set1 _ _ _ (by decide) rfl

theorem State.safeBooks_result (p c n : Nat) : (s.safeBooks p c n).f PWR.CMDSTS.RESULT = s.f PWR.CMDSTS.RESULT := by
  unfold State.safeBooks State.onTwn
  rw [State.f_withTwn, State.f_bump_eq, State.f_setF_other _ _ _ _ _ _ (by decide), State.f_set1_eq,
    State.f_setF_other _ _ _ _ _ _ (by decide), State.f_setF_other _ _ _ _ _ _ (by decide), State.f_setF_other _ _ _ _ _ _ (by decide)]
  exact State.f_withPwr _ _ _ _

theorem State.onTwn_keeps (f : Twn → Twn) : (s.onTwn f).mode = s.mode ∧ (s.onTwn f).raw = s.raw ∧ (s.onTwn f).pwr = s.pwr
    ∧ (s.onTwn f).twn = f s.twn := ⟨rfl, rfl, rfl, rfl⟩

theorem State.putPwr_keeps (f : Pwr → Pwr) : (s.putPwr f).mode = s.mode ∧ (s.putPwr f).raw = s.raw
    ∧ (s.putPwr f).pwr = f s.pwr ∧ (s.putPwr f).twn = s.twn := ⟨rfl, rfl, rfl, rfl⟩

theorem State.safeBooks_mode (p c n : Nat) : (s.safeBooks p c n).mode = s.mode := by
  unfold State.safeBooks
  rw [(State.onTwn_keeps _ _).1, State.bump_mode, State.set1_mode, State.setF_mode, State.setF_mode, (State.putPwr_keeps _ _).1]

theorem State.safeBooks_raw (p c n : Nat) : (s.safeBooks p c n).raw = s.raw := by
  unfold State.safeBooks
  rw [(State.onTwn_keeps _ _).2.1, State.bump_raw, State.set1_raw, State.setF_raw, State.setF_raw, (State.putPwr_keeps _ _).2.1]

theorem State.safeBooks_pwr (p c n : Nat) : (s.safeBooks p c n).pwr = { s.pwr with prev := p } := by
  unfold State.safeBooks
  rw [(State.onTwn_keeps _ _).2.2.1, State.bump_pwr, State.set1_pwr, State.setF_pwr, State.setF_pwr, (State.putPwr_keeps _ _).2.2.1]

theorem State.safeBooks_killIn (p c n : Nat) : (s.safeBooks p c n).twn.killIn = s.twn.killIn := by
  unfold State.safeBooks
  rw [(State.onTwn_keeps _ _).2.2.2, State.bump_twn, State.set1_twn, State.setF_twn, State.setF_twn, (State.putPwr_keeps _ _).2.2.2]

/-- The mode that Safe-state was entered from, as PREV holds it. -/
def State.prevOf : Nat := if s.mode = .halt then s.pwr.prev else s.mode.code

theorem State.enterSafe_pwrBook (c n : Nat) (h : s.mode ≠ .safe) :
    (s.enterSafe c n).pwrBook false = ((s.preempt.toMode .safe).safeBooks s.prevOf c n).pwrBook false := by
  unfold State.enterSafe
  rw [if_neg h]
  exact State.abortSafe_pwrBook _

theorem State.enterSafe_facts (c n : Nat) (h : s.mode ≠ .safe) : (s.enterSafe c n).mode = .safe ∧ (s.enterSafe c n).raw = s.raw
    ∧ (s.enterSafe c n).f PWR.SAFECAUSE.CAUSE = c % 2 ^ PWR.SAFECAUSE.CAUSE.wid
    ∧ (s.enterSafe c n).f PWR.SAFECAUSE.FAULT = n % 2 ^ PWR.SAFECAUSE.FAULT.wid
    ∧ (s.enterSafe c n).on PWR.IRQ_RAW.SAFE = true ∧ (s.enterSafe c n).twn.killIn = s.twn.killIn := by
  have hb := s.enterSafe_pwrBook c n h
  obtain ⟨hmode, hraw, -, -, hkill⟩ := s.preempt.toMode_facts (m := .safe) (s.preempt_mode ▸ h)
  refine ⟨?_, ?_, ?_, ?_, ?_, ?_⟩
  · rw [State.mode_of_pwrBook hb, State.safeBooks_mode, hmode]
  · rw [State.raw_of_pwrBook hb, State.safeBooks_raw, hraw, s.preempt_raw]
  · rw [State.f_of_pwrBook hb (by decide), State.safeBooks_cause]
  · rw [State.f_of_pwrBook hb (by decide), State.safeBooks_fault]
  · rw [State.on_of_pwrBook hb (by decide), State.safeBooks_irq]
  · rw [State.killIn_of_pwrBook hb, State.safeBooks_killIn, hkill, s.preempt_twn]

theorem State.enterSafe_pwr (c n : Nat) (h : s.mode ≠ .safe) : (s.enterSafe c n).pwr.haltFault = s.pwr.haltFault
    ∧ (s.enterSafe c n).pwr.cmd = none := by
  have hp := State.pwr_of_pwrBook (s.enterSafe_pwrBook c n h)
  have hm := s.preempt.pwr_toMode (m := .safe) (s.preempt_mode ▸ h)
  rw [State.safeBooks_pwr] at hp
  rw [s.preempt_pwr] at hm
  have hhalt := congrArg Pwr.haltFault hm
  have hcmd := congrArg Pwr.cmd hm
  exact ⟨(congrArg Pwr.haltFault hp).trans hhalt, (congrArg Pwr.cmd hp).trans hcmd⟩

/-- An entry to Safe-state aborts the dispatcher, whose RUN ends, and after it blocks that leave DSP.CTL. -/
theorem State.enterSafe_run (c n : Nat) (h : s.mode ≠ .safe) : (s.enterSafe c n).on DSP.CTL.RUN = false := by
  have hpages : safePages = DSP.page.base :: safePages.tail := by decide +kernel
  have hrest : safePages.tail.all (safePage true) = true := by decide +kernel
  have hdsp (t : State) : (t.abortBegin DSP.page.base).abortEffect DSP.page.base = (t.abortBegin DSP.page.base).dspAbort := by
    have hpage : pageOf DSP.page.base = some (DSP.page, DSP.page.base) := by decide +kernel
    unfold State.abortEffect
    rw [hpage]
    simp [State.blockEffect, DSP.page]
  unfold State.enterSafe
  rw [if_neg h, hpages, List.foldl_cons, hdsp]
  rw [State.on_of_pwrBook (State.abortPages_pwrBook _ _ hrest) (by decide)]
  unfold State.dspAbort
  rw [State.on_eq, State.f_clr_eq, State.f_setF_self]
  · rfl
  all_goals decide

/-! ### An entry to Boot -/

theorem State.coreLost_reg (m : Mode) {a : Nat} (h : keepsake a = true) : (s.coreLost m).reg a = s.reg a :=
  (s.reg_coreLost m a).trans (if_pos h)

theorem State.toBoot_mode (c : Nat) (h : Option Nat) : (s.toBoot c h).mode = .boot := by
  unfold State.toBoot
  extract_lets left lost booked pwr held told
  have htold : told.mode = .boot := by simp only [told, apply_ite State.mode, State.setF_mode]; exact ite_self _
  split
  · exact htold
  · exact htold

theorem State.toBoot_haltFault (c : Nat) (h : Option Nat) : (s.toBoot c h).pwr.haltFault = none := by
  unfold State.toBoot
  extract_lets left lost booked pwr held told
  have htold : told.pwr.haltFault = none := by simp only [told, apply_ite State.pwr, State.setF_pwr]; exact congrArg _ (ite_self _)
  split
  · exact htold
  · exact htold

/-- A Keep-time word, but KS_CAUSE and KS_FLAGS, is what it was; KS_CAUSE holds the cause. -/
theorem State.toBoot_f (c : Nat) (h : Option Nat) :
    (s.toBoot c h).f PWR.KS_CAUSE.CAUSE = c % 2 ^ PWR.KS_CAUSE.CAUSE.wid
      ∧ ∀ g : Fld, keepsake g.off = true → g.off ≠ PWR.KS_CAUSE.CAUSE.off → g.off ≠ TBU.KS_FLAGS.V.off →
        (s.toBoot c h).f g = s.f g := by
  unfold State.toBoot
  extract_lets left lost booked pwr held told
  have htold {g : Fld} (hg : g.off ≠ TBU.KS_FLAGS.V.off) : told.f g = booked.f g := by
    simp only [told]
    split
    · exact (State.f_setF_other _ _ _ 0 0 _ hg).trans (State.f_withPwr _ _ _ _)
    · exact State.f_withPwr _ _ _ _
  have hend {g : Fld} : (if left = 2 then told else told.setVt 0).f g = told.f g := by
    split
    · rfl
    · exact State.f_setVt _ _ _ _
  constructor
  · rw [hend, htold (by decide)]
    exact State.f_setF_self _ _ _ _ (by decide)
  · intro g hk hc hf
    rw [hend, htold hf]
    simp only [booked]
    rw [State.f_setF_other _ _ _ 0 0 _ hc, State.f_setF_other _ _ _ 0 0 _ hc]
    unfold State.f
    rw [State.coreLost_reg _ _ (a := g.off + 0) hk]

theorem State.warmRestart_facts (n : Nat) : (s.warmRestart n).mode = .boot ∧ (s.warmRestart n).pwr.haltFault = none
    ∧ (s.warmRestart n).f PWR.KS_CAUSE.CAUSE = 4 ∧ (s.warmRestart n).f PWR.KS_FAULT.LAST = n % 2 ^ PWR.KS_FAULT.LAST.wid
    ∧ (s.warmRestart n).f PWR.KS_FAULT.COUNT = counted s PWR.KS_FAULT.COUNT := by
  unfold State.warmRestart
  obtain ⟨hcause, hf⟩ := State.toBoot_f ((s.setF PWR.KS_FAULT.LAST n).bump PWR.KS_FAULT.COUNT) 4 none
  refine ⟨State.toBoot_mode _ _ _, State.toBoot_haltFault _ _ _, hcause, ?_, ?_⟩
  · rw [hf _ (by decide) (by decide) (by decide), State.f_bump_eq, State.f_setF_beside _ _ _ _ _ _ (by decide),
      State.f_setF_self _ _ _ _ (by decide)]
  · rw [hf _ (by decide) (by decide) (by decide), State.f_bump_eq, State.f_setF_self _ _ _ _ (by decide),
      State.f_setF_beside _ _ _ _ _ _ (by decide)]
    exact s.counted_eq _ _ 1

/-! ### What follows a command in its cycle -/

/-- The mode and the registers that a command leaves, once the reactions and the servo's moves have had their turn. -/
def State.moved : State := s.react.autoMode.actHeld

theorem settle_moved : settle s = s.moved.copyTick.writeAll.fillAll.notify.keepAll := rfl

theorem State.mode_of_core {s t : State} (h : t.core = s.core) : t.mode = s.mode := congrArg (fun p => p.1.mode) h

theorem settle_mode : (settle s).mode = s.moved.mode := by
  rw [settle_moved]
  exact State.mode_of_core s.moved.stores_core

theorem settle_pwr : { (settle s).pwr with faults := [] } = { s.moved.pwr with faults := [] } := by
  rw [settle_moved]
  have h := congrArg (fun p => p.1.pwr) s.moved.stores_core
  exact h

theorem settle_f (g : Fld) (h : g.off ∉ storeRegs) : (settle s).f g = s.moved.f g := by
  rw [settle_moved]
  unfold State.f
  rw [State.reg_of_otherRegs s.moved.stores_otherRegs (a := g.off + 0) h]

theorem settle_on (g : Fld) (h : g.off ∉ storeRegs) : (settle s).on g = s.moved.on g := by
  rw [State.on_eq, State.on_eq, settle_f s g h]

/-- Neither the servo nor a reaction held for Twin-standby moves a mode that is none of theirs. -/
theorem State.moved_still (hrun : s.react.mode.running = false) (hcfg : s.react.mode ≠ .configure) : s.moved = s.react := by
  have hauto : s.react.autoMode = s.react := by
    have hundo : s.react.undoCmd = s.react := State.undoCmd_of_stays _ fun _ _ _ _ hm => absurd hm hcfg
    unfold State.autoMode
    rw [hundo, State.autoMove, if_neg (by rw [hrun]; exact Bool.false_ne_true)]
  unfold State.moved
  rw [hauto]
  unfold State.actHeld
  split
  · rfl
  · rw [if_neg (by rw [hrun]; exact Bool.false_ne_true)]

end Sys2Proof.Machine
end

section
/-! PROOFS. Debug-halt entered and left (R371, R373, R385). -/

namespace Sys2Proof.Machine

variable (s : State)

/-! ### The engines in a change of mode to Debug-halt -/

theorem State.noteOutcome_eng (w o : Nat) : (s.noteOutcome w o).eng = s.eng := by
  simp [State.noteOutcome, apply_ite State.eng]

theorem State.consistEnd_eng (k o : Nat) : (s.consistEnd k o).eng = s.eng := by
  simp [State.consistEnd, apply_ite State.eng, State.noteOutcome_eng]

theorem State.missPassed_eng : s.missPassed.eng = s.eng := by
  refine s.foldl_eng (fun t k => ?_) _
  dsimp only
  split
  · split
    · exact t.consistEnd_eng k _
    · rfl
  · rfl

theorem State.leaveConfigure_eng : s.leaveConfigure.eng = s.eng := by
  have hstep (t : State) (w : Nat) : (t.stepConsists w).eng = t.eng := by
    refine t.foldl_eng (fun t k => ?_) _
    dsimp only
    split
    · rfl
    · simp [apply_ite State.eng, State.consistEnd_eng]
  have hperiod (p : Nat) : (s.newPeriod p).eng = s.eng := by
    unfold State.newPeriod
    split <;> rfl
  simp [State.leaveConfigure, apply_ite State.eng, hstep, hperiod]

theorem State.rulFreeze_eng (u : Nat) : (s.rulFreeze u).eng = s.eng := by
  have hhalt : (s.ruHalt u).eng = s.eng := by
    unfold State.ruHalt State.ruStopHard
    dsimp only
    split <;> rfl
  simp [State.rulFreeze, apply_ite State.eng, hhalt]

/-- What Debug-halt makes of an engine (R373). -/
def Engine.halt (x : Engine) : Engine := if x.st = .held then x else { x with st := .halted, prior := x.st }

theorem State.engHaltAll_eq : s.engHaltAll
    = engines.foldl (fun s e => if (s.engine e).st = .held then s else s.setEngine e (s.engine e).halt) s := by
  refine List.foldl_ext _ _ s fun t e _ => ?_
  unfold Engine.halt
  dsimp only
  split <;> rfl

theorem State.engine_engHaltAll (e : EngineId) : s.engHaltAll.engine e.val = (s.engine e.val).halt := by
  have hone (t : State) (i j : Nat) : (if (t.engine i).st = .held then t else t.setEngine i (t.engine i).halt).engine j
      = if j = i then (t.engine j).halt else t.engine j := by
    by_cases h : j = i
    · subst h
      rw [if_pos rfl]
      split
      next hh => rw [Engine.halt, if_pos hh]
      next => rw [State.engine_setEngine, if_pos rfl]
    · rw [if_neg h]
      split
      · rfl
      · rw [State.engine_setEngine, if_neg h]
  have hall (js : List Nat) : ∀ t : State, js.Nodup →
      (js.foldl (fun s e => if (s.engine e).st = .held then s else s.setEngine e (s.engine e).halt) t).engine e.val
        = if e.val ∈ js then (t.engine e.val).halt else t.engine e.val := by
    induction js with
    | nil => exact fun _ _ => rfl
    | cons j js ih =>
      intro t hnd
      obtain ⟨hj, hnd'⟩ := List.nodup_cons.mp hnd
      rw [List.foldl_cons, ih _ hnd', hone]
      by_cases h : e.val = j
      · simp [h, hj]
      · simp [h]
  have hin : e.val ∈ engines := List.mem_range.mpr e.isLt
  rw [State.engHaltAll_eq, hall engines s (by decide), if_pos hin]

theorem State.engine_enterHalt (e : EngineId) : s.enterHalt.engine e.val = (s.engine e.val).halt := by
  have henter : s.enterHalt.eng = (s.engHaltAll.rulers.foldl (fun s u => s.rulFreeze u) s.engHaltAll).eng := by
    unfold State.enterHalt
    dsimp only
  rw [State.engine_congr henter, State.engine_congr (s.engHaltAll.foldl_eng (fun t u => t.rulFreeze_eng u) _),
    State.engine_engHaltAll]

/-- Before the engines halt, an entry to Debug-halt has not touched them. -/
theorem State.engine_toHalt (h : s.mode ≠ .halt) (e : EngineId) : (s.toMode .halt).engine e.val = (s.engine e.val).halt := by
  unfold State.toMode
  rw [if_neg h]
  extract_lets old entered missed pwr kicked left started since tbu counting halted resumed deaf
  have hold : old ≠ .halt := h
  have hdeaf : deaf.eng = s.eng := by
    have hentered : entered.eng = s.eng := rfl
    have hkicked : kicked.eng = missed.eng := by simp only [kicked, apply_ite State.eng, ite_self]
    have hstarted : started = left := by simp only [started, Mode.moves, Bool.and_false, Bool.false_eq_true, if_false]
    have hdeaf' : deaf = counting := by simp [deaf, resumed, halted, hold]
    rw [hdeaf']
    simp only [counting, hstarted, left, hkicked, missed, apply_ite State.eng, State.leaveConfigure_eng, State.missPassed_eng,
      hentered, ite_self]
  rw [if_pos rfl, State.engine_enterHalt, State.engine_congr hdeaf]

/-- The state in which an entry to Debug-halt leaves the device. -/
def State.jtagHalted : State := (s.preempt.putPwr fun x => { x with prev := s.mode.code }).toMode .halt

theorem State.mode_ne_halt (h : (decide (s.mode = .configure) || s.mode.running || decide (s.mode = .standby)
    || decide (s.mode = .safe)) = true) : s.mode ≠ .halt := fun hm => by
  rw [hm] at h
  exact absurd h (by decide)

theorem State.execJtagHalt_enters (h : (decide (s.mode = .configure) || s.mode.running || decide (s.mode = .standby)
      || decide (s.mode = .safe)) = true) (hrole : s.hasRole .jtag .installer = true) (hheld : s.pwr.held = none) :
    exec .jtagHalt s = .next (settle s.jtagHalted) := by
  have hcond : (s.mode.haltable && s.hasRole .jtag .installer && decide (s.pwr.held = none)) = true := by
    rw [hrole, hheld, Mode.haltable, h]
    rfl
  show execJtagHalt s = _
  unfold execJtagHalt
  rw [if_pos hcond]
  rfl

theorem State.execJtagHalt_stays (h : (decide (s.mode = .configure) || s.mode.running || decide (s.mode = .standby)
      || decide (s.mode = .safe)) = false ∨ s.hasRole .jtag .installer = false ∨ s.pwr.held ≠ none) :
    exec .jtagHalt s = .next (settle s) := by
  have hcond : ¬(s.mode.haltable && s.hasRole .jtag .installer && decide (s.pwr.held = none)) = true := by
    unfold Mode.haltable
    rcases h with h | h | h <;> simp [h]
  show execJtagHalt s = _
  unfold execJtagHalt
  rw [if_neg hcond]
  rfl

theorem State.jtagHalted_facts (h : s.mode ≠ .halt) : s.jtagHalted.mode = .halt ∧ s.jtagHalted.raw = s.raw
    ∧ s.jtagHalted.on PWR.IRQ_RAW.MODE_CHG = true ∧ (s.pwr.cmd.isSome = true → s.jtagHalted.f PWR.CMDSTS.RESULT = 2) := by
  unfold State.jtagHalted
  have hput := State.putPwr_keeps s.preempt fun x => { x with prev := s.mode.code }
  obtain ⟨hm, hr, hchg, hf, -⟩ := State.toMode_facts (s.preempt.putPwr fun x => { x with prev := s.mode.code }) (m := .halt)
    (by rw [hput.1, s.preempt_mode]; exact h)
  refine ⟨hm, by rw [hr, hput.2.1, s.preempt_raw], hchg, fun hc => ?_⟩
  rw [hf _ (by decide) (by decide), ← s.preempt_result hc]
  exact State.f_withPwr _ _ _ _

theorem State.jtagHalted_pwr (h : s.mode ≠ .halt) : s.jtagHalted.pwr.prev = s.mode.code ∧ s.jtagHalted.pwr.cmd = none
    ∧ s.jtagHalted.pwr.haltAt = s.raw := by
  unfold State.jtagHalted
  have hput := State.putPwr_keeps s.preempt fun x => { x with prev := s.mode.code }
  have hp := State.pwr_toMode (s.preempt.putPwr fun x => { x with prev := s.mode.code }) (m := .halt)
    (by rw [hput.1, s.preempt_mode]; exact h)
  rw [if_pos rfl, hput.2.1, hput.2.2.1, s.preempt_pwr, s.preempt_raw] at hp
  have hprev := congrArg Pwr.prev hp
  have hcmd := congrArg Pwr.cmd hp
  have hat := congrArg Pwr.haltAt hp
  exact ⟨hprev, hcmd, hat⟩

theorem State.jtagHalted_engine (h : s.mode ≠ .halt) (e : EngineId) (he : (s.engine e.val).st ≠ .held) :
    (s.jtagHalted.engine e.val).st = .halted := by
  have heng : (s.preempt.putPwr fun x => { x with prev := s.mode.code }).eng = s.eng := s.preempt_eng
  have hput := State.putPwr_keeps s.preempt fun x => { x with prev := s.mode.code }
  unfold State.jtagHalted
  rw [State.engine_toHalt _ (by rw [hput.1, s.preempt_mode]; exact h), State.engine_congr heng, Engine.halt, if_neg he]

/-! ### The end of Debug-halt -/

theorem State.execJtagResume_eq (hm : s.mode = .halt) (hrole : s.hasRole .jtag .installer = true) :
    exec .jtagResume s = .next (settle s.resumeMode) := by
  show execJtagResume s = _
  unfold execJtagResume
  rw [if_pos (by rw [hm, hrole]; rfl)]
  rfl

theorem State.execJtagResume_mode (hm : s.mode = .halt) (hrole : s.hasRole .jtag .installer = true) (hnone : s.pwr.haltFault = none) :
    exec .jtagResume s = .next (settle (s.toMode (modeOf s.pwr.prev))) := by
  rw [s.execJtagResume_eq hm hrole, State.resumeMode, State.leaveBy, hnone]

theorem State.resumed_facts : (s.toMode (modeOf s.pwr.prev)).mode = modeOf s.pwr.prev
    ∧ (s.toMode (modeOf s.pwr.prev)).raw = s.raw ∧ (s.toMode (modeOf s.pwr.prev)).pwr.prev = s.pwr.prev := by
  generalize modeOf s.pwr.prev = m
  by_cases h : s.mode = m
  · rw [← h, s.toMode_self]
    exact ⟨rfl, rfl, rfl⟩
  · obtain ⟨hmode, hraw, -⟩ := s.toMode_facts h
    have hprev := congrArg Pwr.prev (s.pwr_toMode h)
    exact ⟨hmode, hraw, hprev⟩

/-- A reaction held in Debug-halt, taken up. -/
def State.reacted (p : Nat × Nat) : State := (s.putPwr fun x => { x with haltFault := none }).act p 5

theorem State.execJtagResume_reaction (hm : s.mode = .halt) (hrole : s.hasRole .jtag .installer = true) {k c : Nat}
    (hsome : s.pwr.haltFault = some (k, c)) : exec .jtagResume s = .next (settle (s.reacted (k, c))) := by
  rw [s.execJtagResume_eq hm hrole, State.resumeMode, State.leaveBy, hsome]
  rfl

theorem State.reacted_of_ne {k : Nat} (c : Nat) (hk : k ≠ 2) :
    s.reacted (k, c) = (s.putPwr fun x => { x with haltFault := none }).enterSafe 5 c := by
  unfold State.reacted State.act
  rw [if_neg hk]

theorem State.reacted_two (c : Nat) : s.reacted (2, c) = (s.putPwr fun x => { x with haltFault := none }).warmRestart c := rfl

theorem State.putPwr_mode_ne (hm : s.mode = .halt) (f : Pwr → Pwr) : (s.putPwr f).mode ≠ .safe := by
  rw [(s.putPwr_keeps f).1, hm]
  decide

theorem State.reacted_safe (hm : s.mode = .halt) {k : Nat} (c : Nat) (hk : k ≠ 2) : (s.reacted (k, c)).mode = .safe
    ∧ (s.reacted (k, c)).f PWR.SAFECAUSE.CAUSE = 5 ∧ (s.reacted (k, c)).on PWR.IRQ_RAW.SAFE = true := by
  rw [s.reacted_of_ne c hk]
  obtain ⟨hmode, -, hcause, -, hirq, -⟩ := State.enterSafe_facts _ 5 c (s.putPwr_mode_ne hm fun x => { x with haltFault := none })
  exact ⟨hmode, hcause, hirq⟩

theorem State.reacted_boot (c : Nat) : (s.reacted (2, c)).mode = .boot ∧ (s.reacted (2, c)).f PWR.KS_CAUSE.CAUSE = 4
    ∧ (s.reacted (2, c)).f PWR.KS_FAULT.COUNT = counted s PWR.KS_FAULT.COUNT
    ∧ (s.reacted (2, c)).f PWR.KS_FAULT.LAST = c % 2 ^ PWR.KS_FAULT.LAST.wid := by
  rw [s.reacted_two c]
  obtain ⟨hmode, -, hcause, hlast, hcount⟩ := State.warmRestart_facts (s.putPwr fun x => { x with haltFault := none }) c
  have hf : counted (s.putPwr fun x => { x with haltFault := none }) PWR.KS_FAULT.COUNT = counted s PWR.KS_FAULT.COUNT := rfl
  exact ⟨hmode, hcause, hcount.trans hf, hlast⟩

theorem State.reacted_haltFault (hm : s.mode = .halt) (k c : Nat) : (s.reacted (k, c)).pwr.haltFault = none := by
  by_cases hk : k = 2
  · subst hk
    rw [s.reacted_two c]
    exact (State.warmRestart_facts _ c).2.1
  · rw [s.reacted_of_ne c hk, (State.enterSafe_pwr _ 5 c (s.putPwr_mode_ne hm _)).1]
    rfl

theorem State.execJtagResume_stays (h : s.mode ≠ .halt ∨ s.hasRole .jtag .installer = false) :
    exec .jtagResume s = .next (settle s) := by
  show execJtagResume s = _
  unfold execJtagResume
  rw [if_neg (by rcases h with h | h <;> simp [h])]
  rfl

end Sys2Proof.Machine
end

section
open Sys2Proof Sys2Proof.Machine

/-- Settles O53: an entry to Debug-halt and its end, by what a change of mode and an entry to Safe-state or Boot come to. -/
theorem debugHalt : Obligations.DebugHalt := by
  unfold Obligations.DebugHalt
  refine ⟨fun s may hmay => ⟨fun hm hrole hheld => ?_, fun hno => ?_⟩, fun s hm hrole => ⟨fun hnone => ?_, fun k c hsome => ?_⟩,
    fun s hno => ?_⟩
  · have hexec : exec .jtagHalt s = .next (settle s.jtagHalted) := s.execJtagHalt_enters (hmay ▸ hm) hrole hheld
    have hne : s.mode ≠ .halt := s.mode_ne_halt (hmay ▸ hm)
    obtain ⟨hmode, hraw, hchg, hresult⟩ := s.jtagHalted_facts hne
    obtain ⟨hprev, hcmd, hat⟩ := s.jtagHalted_pwr hne
    exact ⟨_, hexec, hmode, hprev, hcmd, hat, hraw, hchg, fun e he => s.jtagHalted_engine hne e he, hresult⟩
  · exact s.execJtagHalt_stays (hmay ▸ hno)
  · obtain ⟨hmode, hraw, hprev⟩ := s.resumed_facts
    exact ⟨_, s.execJtagResume_mode hm hrole hnone, hmode, hraw, hprev⟩
  · have hb := s.execJtagResume_reaction hm hrole hsome
    refine ⟨_, hb, ?_, fun hk => ?_, fun hk => ?_⟩
    · exact s.reacted_haltFault hm k c
    · exact s.reacted_safe hm c hk
    · subst hk
      exact s.reacted_boot c
  · exact s.execJtagResume_stays hno

end

section
/-! PROOFS. What follows a command in its cycle (R384, R387, R40, R371, R292, R300). -/

namespace Sys2Proof.Machine

variable (s : State)

/-! ### The worst reaction among fault codes (R384) -/

theorem lowest_eq {c : Nat} {cs : List Nat} (hc : c ∈ cs) (hmin : ∀ d ∈ cs, c ≤ d) : lowest cs = some c := by
  induction cs with
  | nil => cases hc
  | cons d cs ih =>
    unfold lowest
    have hd := hmin d List.mem_cons_self
    have hrest : ∀ e ∈ cs, c ≤ e := fun e he => hmin e (List.mem_cons_of_mem d he)
    by_cases hin : c ∈ cs
    · rw [ih hin hrest]
      exact congrArg some (Nat.min_eq_right hd)
    · have hcd : c = d := (List.mem_cons.mp hc).resolve_right hin
      subst hcd
      cases hl : lowest cs with
      | none => rfl
      | some e =>
        have he : ∀ (l : List Nat) (e : Nat), lowest l = some e → e ∈ l := by
          intro l
          induction l with
          | nil => simp [lowest]
          | cons a l ih =>
            intro e h
            unfold lowest at h
            split at h
            · simp_all
            next d hd =>
              have hmem := ih d hd
              simp only [Option.some.injEq] at h
              rw [← h, List.mem_cons]
              rcases Nat.le_total a d with hle | hle
              · exact .inl (Nat.min_eq_left hle)
              · exact .inr ((Nat.min_eq_right hle).symm ▸ hmem)
        exact congrArg some (Nat.min_eq_left (hrest e (he cs e hl)))

theorem State.worst_restart {cs : List Nat} {c : Nat} (hc : c ∈ cs) (h2 : s.reaction c = 2)
    (hmin : ∀ d ∈ cs, s.reaction d = 2 → c ≤ d) : s.worst cs = some (2, c) := by
  unfold State.worst
  rw [lowest_eq (List.mem_filter.mpr ⟨hc, decide_eq_true h2⟩) fun d hd => ?_]
  obtain ⟨hd, hr⟩ := List.mem_filter.mp hd
  exact hmin d hd (of_decide_eq_true hr)

theorem State.worst_safe {cs : List Nat} {c : Nat} (hc : c ∈ cs) (h1 : s.reaction c = 1)
    (hmin : ∀ d ∈ cs, s.reaction d = 1 → c ≤ d) (hno : ∀ d ∈ cs, s.reaction d ≠ 2) : s.worst cs = some (1, c) := by
  have hnil : cs.filter (fun c => decide (s.reaction c = 2)) = [] :=
    List.filter_eq_nil_iff.mpr fun d hd => by simpa using hno d hd
  unfold State.worst
  rw [hnil, lowest_eq (cs := cs.filter _) (List.mem_filter.mpr ⟨hc, decide_eq_true h1⟩) fun d hd => ?_]
  · rfl
  · obtain ⟨hd, hr⟩ := List.mem_filter.mp hd
    exact hmin d hd (of_decide_eq_true hr)

theorem State.worst_none {cs : List Nat} (h : ∀ c ∈ cs, s.reaction c = 0) : s.worst cs = none := by
  have hnil (k : Nat) (hk : k ≠ 0) : cs.filter (fun c => decide (s.reaction c = k)) = [] :=
    List.filter_eq_nil_iff.mpr fun d hd => by simpa [h d hd] using hk.symm
  unfold State.worst
  rw [hnil 2 (by decide), hnil 1 (by decide)]
  rfl

/-! ### The reaction -/

/-- The fault codes taken up. -/
def State.heard : State := s.putPwr fun x => { x with faults := [] }

theorem State.heard_keeps : s.heard.mode = s.mode ∧ s.heard.regs = s.regs ∧ s.heard.pwr = { s.pwr with faults := [] } :=
  ⟨rfl, rfl, rfl⟩

theorem State.react_none (h : s.mode = .boot ∨ s.mode = .provision ∨ ∀ c ∈ s.pwr.faults, s.reaction c = 0) : s.react = s.heard := by
  unfold State.react
  split
  next hnil =>
    unfold State.heard State.putPwr
    dsimp only
    rw [← hnil]
  next =>
    dsimp only
    split
    next => rfl
    next p hp =>
      rw [if_pos]
      · rfl
      · rcases h with h | h | h
        · exact .inr (.inl h)
        · exact .inr (.inr h)
        · rw [s.worst_none h] at hp
          cases hp

theorem State.react_some {p : Nat × Nat} (hw : s.worst s.pwr.faults = some p) (hpow : s.mode.powered = true) (hboot : s.mode ≠ .boot)
    (hprov : s.mode ≠ .provision) : s.react =
      if s.mode = .halt then s.heard.putPwr fun x => { x with haltFault := holdFault x.haltFault p }
      else if s.mode = .standby ∧ p.1 = 1 then s.heard.putPwr fun x => { x with heldFault := holdFault x.heldFault p }
      else s.heard.act p 4 := by
  unfold State.react
  split
  next hnil =>
    rw [hnil] at hw
    cases hw
  next =>
    dsimp only
    rw [hw]
    dsimp only
    rw [if_neg (by simp [hpow, hboot, hprov])]
    rfl

/-! ### Where a reaction is the end of it -/

theorem settle_of_react {t : State} (h : s.react = t) (hrun : t.mode.running = false) (hcfg : t.mode ≠ .configure) :
    (settle s).mode = t.mode ∧ (∀ g : Fld, g.off ∉ storeRegs → (settle s).f g = t.f g)
      ∧ (settle s).pwr.haltFault = t.pwr.haltFault ∧ (settle s).pwr.heldFault = t.pwr.heldFault := by
  have hmoved : s.moved = t := by
    rw [← h] at hrun hcfg ⊢
    exact s.moved_still hrun hcfg
  have hp := settle_pwr s
  rw [hmoved] at hp
  have hhalt := congrArg Pwr.haltFault hp
  have hheld := congrArg Pwr.heldFault hp
  exact ⟨by rw [settle_mode, hmoved], fun g hg => by rw [settle_f s g hg, hmoved], hhalt, hheld⟩

theorem settle_restart {c : Nat} (hw : s.worst s.pwr.faults = some (2, c)) (hpow : s.mode.powered = true) (hboot : s.mode ≠ .boot)
    (hprov : s.mode ≠ .provision) (hne : s.mode ≠ .halt) : (settle s).mode = .boot
      ∧ (settle s).f PWR.KS_FAULT.LAST = c % 2 ^ PWR.KS_FAULT.LAST.wid
      ∧ (settle s).f PWR.KS_FAULT.COUNT = counted s PWR.KS_FAULT.COUNT ∧ (settle s).f PWR.KS_CAUSE.CAUSE = 4 := by
  have hr := s.react_some hw hpow hboot hprov
  rw [if_neg hne, if_neg (by simp), State.act, if_pos rfl] at hr
  obtain ⟨hmode, -, hcause, hlast, hcount⟩ := s.heard.warmRestart_facts c
  obtain ⟨hm, hf, -⟩ := settle_of_react s hr (by rw [hmode]; rfl) (by rw [hmode]; decide)
  exact ⟨hm.trans hmode, (hf _ (by decide)).trans hlast, (hf _ (by decide)).trans hcount, (hf _ (by decide)).trans hcause⟩

theorem settle_haltHeld {p : Nat × Nat} (hw : s.worst s.pwr.faults = some p) (hm : s.mode = .halt) :
    (settle s).mode = .halt ∧ (settle s).pwr.haltFault = holdFault s.pwr.haltFault p := by
  have hr := s.react_some hw (by rw [hm]; rfl) (by rw [hm]; decide) (by rw [hm]; decide)
  rw [if_pos hm] at hr
  have hmode : (s.heard.putPwr fun x => { x with haltFault := holdFault x.haltFault p }).mode = .halt := hm
  obtain ⟨hm', -, hh, -⟩ := settle_of_react s hr (by rw [hmode]; rfl) (by rw [hmode]; decide)
  exact ⟨hm'.trans hmode, hh⟩

theorem settle_standbyHeld {c : Nat} (hw : s.worst s.pwr.faults = some (1, c)) (hm : s.mode = .standby) :
    (settle s).mode = .standby ∧ (settle s).pwr.heldFault = holdFault s.pwr.heldFault (1, c) := by
  have hr := s.react_some hw (by rw [hm]; rfl) (by rw [hm]; decide) (by rw [hm]; decide)
  rw [if_neg (by rw [hm]; decide), if_pos ⟨hm, rfl⟩] at hr
  have hmode : (s.heard.putPwr fun x => { x with heldFault := holdFault x.heldFault (1, c) }).mode = .standby := hm
  obtain ⟨hm', -, -, hh⟩ := settle_of_react s hr (by rw [hmode]; rfl) (by rw [hmode]; decide)
  exact ⟨hm'.trans hmode, hh⟩

theorem settle_safe {c : Nat} (hw : s.worst s.pwr.faults = some (1, c)) (hpow : s.mode.powered = true) (hboot : s.mode ≠ .boot)
    (hprov : s.mode ≠ .provision) (hne : s.mode ≠ .halt) (hst : s.mode ≠ .standby) (hsafe : s.mode ≠ .safe) :
    (settle s).mode = .safe ∧ (settle s).f PWR.SAFECAUSE.CAUSE = 4
      ∧ (settle s).f PWR.SAFECAUSE.FAULT = c % 2 ^ PWR.SAFECAUSE.FAULT.wid ∧ (settle s).on PWR.IRQ_RAW.SAFE = true := by
  have hr := s.react_some hw hpow hboot hprov
  rw [if_neg hne, if_neg (fun h => hst h.1), State.act, if_neg (by simp)] at hr
  obtain ⟨hmode, -, hcause, hfault, hirq, -⟩ := s.heard.enterSafe_facts 4 c hsafe
  obtain ⟨hm, hf, -⟩ := settle_of_react s hr (by rw [hmode]; rfl) (by rw [hmode]; decide)
  refine ⟨hm.trans hmode, (hf _ (by decide)).trans hcause, (hf _ (by decide)).trans hfault, ?_⟩
  rw [State.on_eq, hf _ (by decide), ← State.on_eq, hirq]

theorem State.enterSafe_of_safe (hm : s.mode = .safe) (c n : Nat) : s.enterSafe c n = s := by
  unfold State.enterSafe
  exact if_pos hm

theorem settle_stillSafe {c : Nat} (hw : s.worst s.pwr.faults = some (1, c)) (hm : s.mode = .safe) :
    (settle s).mode = .safe ∧ (settle s).f PWR.SAFECAUSE.CAUSE = s.f PWR.SAFECAUSE.CAUSE
      ∧ (settle s).f PWR.SAFECAUSE.FAULT = s.f PWR.SAFECAUSE.FAULT := by
  have hr := s.react_some hw (by rw [hm]; rfl) (by rw [hm]; decide) (by rw [hm]; decide)
  rw [if_neg (by rw [hm]; decide), if_neg (by rw [hm]; simp), State.act, if_neg (by simp),
    s.heard.enterSafe_of_safe hm] at hr
  have hmode : s.heard.mode = .safe := hm
  obtain ⟨hm', hf, -⟩ := settle_of_react s hr (by rw [hmode]; rfl) (by rw [hmode]; decide)
  have hheard (g : Fld) : s.heard.f g = s.f g := State.f_of_regs s.heard_keeps.2.1 g 0
  exact ⟨hm'.trans hmode, (hf _ (by decide)).trans (hheard _), (hf _ (by decide)).trans (hheard _)⟩

/-! ### The moves of the servo and the reaction held for Twin-standby -/

theorem State.undoCmd_of_running (h : s.mode.running = true) : s.undoCmd = s :=
  State.undoCmd_of_stays _ fun _ _ _ _ hm => by rw [hm] at h; cases h

theorem State.moved_running (hf : s.pwr.faults = []) (hrun : s.mode.running = true) :
    s.moved = (s.toMode s.runMode).actHeld ∧ (s.toMode s.runMode).pwr.heldFault = s.pwr.heldFault := by
  have hauto : s.autoMove = s.toMode s.runMode := if_pos hrun
  constructor
  · rw [State.moved, s.react_of_no_fault hf, State.autoMode, s.undoCmd_of_running hrun, hauto]
  · rw [← hauto]
    exact (s.autoMove_keeps PWR.WDOG.EN.off (by decide)).2

theorem settle_heldFault {c : Nat} (hf : s.pwr.faults = []) (hh : s.pwr.heldFault = some (1, c)) (hrun : s.mode.running = true) :
    (settle s).mode = .safe ∧ (settle s).f PWR.SAFECAUSE.CAUSE = 4
      ∧ (settle s).f PWR.SAFECAUSE.FAULT = c % 2 ^ PWR.SAFECAUSE.FAULT.wid := by
  obtain ⟨hmoved, hheld⟩ := s.moved_running hf hrun
  have hrun' : (s.toMode s.runMode).mode.running = true := by rw [s.mode_toMode]; exact s.runMode_running
  have hact : (s.toMode s.runMode).actHeld = ((s.toMode s.runMode).putPwr fun x => { x with heldFault := none }).enterSafe 4 c := by
    unfold State.actHeld
    rw [hheld.trans hh]
    dsimp only
    rw [if_pos hrun', State.act, if_neg (by simp)]
    rfl
  have hne : ((s.toMode s.runMode).putPwr fun x => { x with heldFault := none }).mode ≠ .safe := by
    rw [(State.putPwr_keeps _ _).1]
    intro hs
    rw [hs] at hrun'
    cases hrun'
  obtain ⟨hmode, -, hcause, hfault, -, -⟩ := State.enterSafe_facts _ 4 c hne
  rw [settle_mode, settle_f s _ (by decide), settle_f s _ (by decide), hmoved, hact]
  exact ⟨hmode, hcause, hfault⟩

theorem settle_runMode (hf : s.pwr.faults = []) (hh : s.pwr.heldFault = none) (hrun : s.mode.running = true)
    (hne : s.runMode ≠ s.mode) : (settle s).mode = s.runMode ∧ (settle s).on PWR.IRQ_RAW.MODE_CHG = true := by
  obtain ⟨hmoved, hheld⟩ := s.moved_running hf hrun
  rw [State.actHeld_of_none _ (hheld.trans hh)] at hmoved
  obtain ⟨hmode, -, hirq, -⟩ := s.toMode_facts hne.symm
  rw [settle_mode, settle_on s _ (by decide), hmoved]
  exact ⟨hmode, hirq⟩

/-- A command that has left Run or Holdover for Configure, undone (R371). -/
def State.undone (m : Mode) : State :=
  ({ s with mode := m, pwr := { s.pwr with taken := none } } : State).setF PWR.CMDSTS.RESULT 2

theorem State.undone_runMode (m : Mode) : (s.undone m).runMode = s.runMode := by
  have hf (g : Fld) (h : g.off ≠ PWR.CMDSTS.RESULT.off) : (s.undone m).f g = s.f g :=
    (State.f_setF_other _ PWR.CMDSTS.RESULT g 0 0 2 h).trans rfl
  unfold State.runMode State.srvOn State.srv State.on
  rw [hf _ (by decide), hf _ (by decide)]

theorem State.undone_heldFault (m : Mode) : (s.undone m).pwr.heldFault = s.pwr.heldFault := rfl

theorem State.undone_mode (m : Mode) : (s.undone m).mode = m := rfl

theorem settle_undone {m : Mode} (hf : s.pwr.faults = []) (hh : s.pwr.heldFault = none) (ht : s.pwr.taken = some (s.raw, m))
    (hc : s.mode = .configure) (hrun : m.running = true) (hne : s.runMode ≠ m) :
    (settle s).mode = s.runMode ∧ (settle s).f PWR.CMDSTS.RESULT = 2 := by
  have hundo : s.undoCmd = s.undone m := by
    unfold State.undoCmd
    rw [ht]
    dsimp only
    rw [if_pos (by rw [hc]; simpa using hne)]
    rfl
  have hrun' : (s.undone m).mode.running = true := hrun
  have hauto : (s.undone m).autoMove = (s.undone m).toMode s.runMode := by
    rw [State.autoMove, if_pos hrun', s.undone_runMode]
  have hheld : ((s.undone m).toMode s.runMode).pwr.heldFault = none := by
    rw [← hauto, ((s.undone m).autoMove_keeps PWR.WDOG.EN.off (by decide)).2, s.undone_heldFault, hh]
  have hmoved : s.moved = (s.undone m).toMode s.runMode := by
    rw [State.moved, s.react_of_no_fault hf, State.autoMode, hundo, hauto, State.actHeld_of_none _ hheld]
  obtain ⟨hmode, -, -, hkeep, -⟩ := (s.undone m).toMode_facts (m := s.runMode) (s.undone_mode m ▸ hne.symm)
  rw [settle_mode, settle_f s _ (by decide), hmoved, hmode, hkeep _ (by decide) (by decide)]
  exact ⟨rfl, State.f_setF_self _ PWR.CMDSTS.RESULT 0 2 (by decide)⟩

/-! ### Interrupt messages (R300) -/

/-- Vector `v` sends its message where it is asserted: the link is up, the vector not masked. -/
def State.sendsVec (v : Nat) : Bool := s.on HST.LINK.UP && s.hst.unmasked.contains v

theorem State.sendsVec_iff {v : Nat} : s.sendsVec v = true ↔ s.on HST.LINK.UP = true ∧ v ∈ s.hst.unmasked := by
  simp [State.sendsVec]

/-- The message of vector `v`. -/
def State.msgOf (v : Nat) : Msg :=
  { vec := v, addr := (s.msixWord v 0).toNat + (s.msixWord v 1).toNat * 2 ^ 32, data := s.msixWord v 2 }

/-- Messages and withheld vectors, as `ms` and `pb`. -/
def State.notified (ms : List Msg) (pb : List Nat) : State := { s with hst := { s.hst with msgs := ms, pba := pb } }

theorem State.message_notified (ms : List Msg) (pb : List Nat) (v : Nat) : (s.notified ms pb).message v
    = if s.sendsVec v then s.notified (s.msgOf v :: ms) pb else s.notified ms (if pb.contains v then pb else v :: pb) := by
  unfold State.message
  have hsend : ((s.notified ms pb).on HST.LINK.UP && (s.notified ms pb).hst.unmasked.contains v) = s.sendsVec v := rfl
  rw [hsend]
  split
  · rfl
  · split
    next h =>
      have h' : pb.contains v = true := h
      rw [if_pos h']
    next h =>
      have h' : ¬pb.contains v = true := h
      rw [if_neg h']
      rfl

theorem State.foldl_message (vs : List Nat) : ∀ (ms : List Msg) (pb : List Nat), ∃ pb',
    vs.foldl State.message (s.notified ms pb) = s.notified (((vs.filter s.sendsVec).map s.msgOf).reverse ++ ms) pb'
      ∧ (∀ v ∈ pb, v ∈ pb') ∧ ∀ v ∈ vs, s.sendsVec v = false → v ∈ pb' := by
  induction vs with
  | nil => exact fun ms pb => ⟨pb, rfl, fun _ h => h, fun _ h => absurd h List.not_mem_nil⟩
  | cons v vs ih =>
    intro ms pb
    rw [List.foldl_cons, s.message_notified]
    cases hv : s.sendsVec v with
    | true =>
      rw [if_pos rfl]
      obtain ⟨pb', heq, hold, hnew⟩ := ih (s.msgOf v :: ms) pb
      refine ⟨pb', ?_, hold, fun u hu hs => ?_⟩
      · rw [heq, List.filter_cons_of_pos hv, List.map_cons, List.reverse_cons, List.append_assoc]
        rfl
      · rcases List.mem_cons.mp hu with rfl | hu
        · rw [hv] at hs; cases hs
        · exact hnew u hu hs
    | false =>
      rw [if_neg (by simp)]
      obtain ⟨pb', heq, hold, hnew⟩ := ih ms (if pb.contains v then pb else v :: pb)
      refine ⟨pb', ?_, fun u hu => hold u ?_, fun u hu hs => ?_⟩
      · rw [heq, List.filter_cons_of_neg (by simp [hv])]
      · split
        · exact hu
        · exact List.mem_cons_of_mem v hu
      · rcases List.mem_cons.mp hu with rfl | hu
        · refine hold u ?_
          split
          next h => simpa using h
          next => exact List.mem_cons_self
        · exact hnew u hu hs

/-- The vectors newly asserted. -/
def State.newVectors : List Nat := s.vectors.filter fun v => !s.hst.asserted.contains v

/-- What `notify` does: the messages of the vectors newly asserted, the others withheld. -/
theorem State.notify_eq : ∃ pb, s.notify = { s with hst := { s.hst with
      msgs := ((s.newVectors.filter s.sendsVec).map s.msgOf).reverse ++ s.hst.msgs, pba := pb, asserted := s.vectors } }
    ∧ ∀ v ∈ s.newVectors, s.sendsVec v = false → v ∈ pb := by
  unfold State.notify
  dsimp only
  split
  next h =>
    have hnil : s.newVectors = [] := by
      unfold State.newVectors
      rw [h]
      exact List.filter_eq_nil_iff.mpr fun v hv => by simpa using hv
    refine ⟨s.hst.pba, ?_, fun v hv => ?_⟩
    · rw [hnil, h]
      rfl
    · rw [hnil] at hv
      cases hv
  next =>
    obtain ⟨pb, heq, -, hnew⟩ := s.foldl_message s.newVectors s.hst.msgs s.hst.pba
    have heq' : s.newVectors.foldl State.message s
        = s.notified (((s.newVectors.filter s.sendsVec).map s.msgOf).reverse ++ s.hst.msgs) pb := heq
    refine ⟨pb, ?_, hnew⟩
    unfold State.newVectors at heq'
    rw [heq']
    rfl

/-! A line's pad does not depend on the host's books. -/

/-- The host's books changed. -/
def State.putHst (x : Hst) : State := { s with hst := x }

@[simp] theorem State.putHst_raw (x : Hst) : (s.putHst x).raw = s.raw := rfl
@[simp] theorem State.putHst_mode (x : Hst) : (s.putHst x).mode = s.mode := rfl
@[simp] theorem State.putHst_twn (x : Hst) : (s.putHst x).twn = s.twn := rfl

theorem State.ruSeen_hst (x : Hst) (u : Nat) (y : Ruler) : (s.putHst x).ruSeen u y = s.ruSeen u y := by
  have hview : (s.putHst x).ruView u y = s.ruView u y := rfl
  have hsync (r : RuRun) : (s.putHst x).ruUnsynced u y r = s.ruUnsynced u y r := rfl
  have hstop (t : Nat) : (s.putHst x).ruStopBy y t = s.ruStopBy y t := rfl
  have hform (t k : Nat) (v : Ruler) : (s.putHst x).ruForm u t k v = s.ruForm u t k v := rfl
  unfold State.ruSeen
  simp only [hview, hsync, hstop, hform]

theorem State.ruNext_hst (x : Hst) (u : Nat) (y : Ruler) (o up : Bool) : (s.putHst x).ruNext u y o up = s.ruNext u y o up := by
  unfold State.ruNext
  simp only [s.ruSeen_hst x]

theorem State.ruRise_hst (x : Hst) (u : Nat) (y : Ruler) (o : Bool) (e : RuEdge) :
    (s.putHst x).ruRise u y o e = s.ruRise u y o e := by
  have hview : (s.putHst x).ruView u y = s.ruView u y := rfl
  have hfield (g : Fld) : (s.putHst x).ruF u g = s.ruF u g := rfl
  have hon (g : Fld) : (s.putHst x).ruOn u g = s.ruOn u g := rfl
  have hr : (s.putHst x).ruDtr u = s.ruDtr u := rfl
  have hf : (s.putHst x).ruDtf u = s.ruDtf u := rfl
  unfold State.ruRise
  simp only [s.ruNext_hst x, hview, hfield, hon, hr, hf]

theorem State.ruFall_hst (x : Hst) (u : Nat) (y : Ruler) (o : Bool) (e : RuEdge) :
    (s.putHst x).ruFall u y o e = s.ruFall u y o e := by
  have hfield (g : Fld) : (s.putHst x).ruF u g = s.ruF u g := rfl
  have hhigh (y : Ruler) (o : Bool) (a b : Nat) : (s.putHst x).ruHighIn u y o a b = s.ruHighIn u y o a b := rfl
  unfold State.ruFall
  simp only [s.ruNext_hst x, s.ruSeen_hst x, hfield, hhigh]

theorem State.foldl_hst (x : Hst) {α : Type} {f : State → α → State} (h : ∀ t a, f (t.putHst x) a = (f t a).putHst x) (l : List α) :
    ∀ t : State, l.foldl f (t.putHst x) = (l.foldl f t).putHst x := by
  induction l with
  | nil => exact fun _ => rfl
  | cons a l ih =>
    intro t
    rw [List.foldl_cons, List.foldl_cons, h, ih]

theorem State.noteEdge_hst (x : Hst) (c u : Nat) (v : Bool) : (s.putHst x).noteEdge c u v = (s.noteEdge c u v).putHst x := by
  have htrig : (s.putHst x).noteTrig c u v = (s.noteTrig c u v).putHst x :=
    State.foldl_hst x (fun t n => by
      have hf (g : Fld) : (t.putHst x).f g (4 * n) = t.f g (4 * n) := rfl
      have hon (g : Fld) : (t.putHst x).on g (4 * n) = t.on g (4 * n) := rfl
      simp only [hf, hon]
      split <;> rfl) _ s
  unfold State.noteEdge
  rw [htrig]
  exact State.foldl_hst x (fun t n => by
    have hf (g : Fld) : (t.putHst x).f g (32 * n) = t.f g (32 * n) := rfl
    have hon (g : Fld) : (t.putHst x).on g (32 * n) = t.on g (32 * n) := rfl
    simp only [hf, hon]
    split <;> rfl) _ _

theorem State.linkEdge_hst (x : Hst) (c u : Nat) (v : Bool) : (s.putHst x).linkEdge c u v = (s.linkEdge c u v).putHst x := by
  have hfollow : (s.putHst x).followers c = s.followers c := rfl
  unfold State.linkEdge
  rw [hfollow]
  refine State.foldl_hst x (fun t n => ?_) _ s
  have hf : (t.putHst x).f TRK.LINKDLY.V (trkAt n) = t.f TRK.LINKDLY.V (trkAt n) := rfl
  unfold State.linkDelay
  simp only [hf]
  split <;> rfl

/-- The output of one side shown, where it has changed since state `s`. -/
def State.ruShown (t : State) (u c : Nat) (o : Bool) : State :=
  if t.ruOutput u o = s.ruOutput u o then t
  else ((t.lineEdge (ruCode u o) c (t.ruOutput u o) 0).noteEdge (ruCode u o) c (t.ruOutput u o)).linkEdge (ruCode u o - 0x200) c
    (t.ruOutput u o)

theorem State.ruShow_eq (t : State) (u c : Nat) : s.ruShow t u c = s.ruShown (s.ruShown t u c true) u c false := rfl

theorem State.ruShow_hst (x : Hst) (t : State) (u c : Nat) :
    (s.putHst x).ruShow (t.putHst x) u c = (s.ruShow t u c).putHst x := by
  have hout (t : State) (o : Bool) : (t.putHst x).ruOutput u o = t.ruOutput u o := rfl
  have hline (t : State) (n : Nat) (v : Bool) : (t.putHst x).lineEdge n c v 0 = (t.lineEdge n c v 0).putHst x := rfl
  have hone (t : State) (o : Bool) : (s.putHst x).ruShown (t.putHst x) u c o = (s.ruShown t u c o).putHst x := by
    unfold State.ruShown
    rw [hout, hout, hline, State.noteEdge_hst, State.linkEdge_hst]
    split <;> rfl
  rw [State.ruShow_eq, State.ruShow_eq, hone, hone]

/-- The outputs as they were before an edge at `t`, a mask that has ended gone. -/
def State.ruUnmasked (u t : Nat) : State :=
  match (s.ruler u).resume with
  | some c => if c < t then s.setRuler u { s.ruler u with mask := none, resume := none } else s
  | none => s

theorem State.ruUnmasked_hst (x : Hst) (u t : Nat) : (s.putHst x).ruUnmasked u t = (s.ruUnmasked u t).putHst x := by
  have hruler : (s.putHst x).ruler u = s.ruler u := rfl
  unfold State.ruUnmasked
  rw [hruler]
  split
  · split <;> rfl
  · rfl

/-- The device just before an edge is shown: the clock there, a cut counted. -/
def State.ruAtEdge (u : Nat) (e : RuEdge) : State :=
  if e.up then s.advance (e.time / 64)
  else if e.cut then (s.advance (e.time / 64)).ruIrq u RUL.IRQ_RAW.LIMIT else s.advance (e.time / 64)

theorem State.ruAtEdge_hst (x : Hst) (u : Nat) (e : RuEdge) : (s.putHst x).ruAtEdge u e = (s.ruAtEdge u e).putHst x := by
  unfold State.ruAtEdge
  split
  · rfl
  · split <;> rfl

/-- The unit that an edge leaves. -/
def State.ruPlaced (u : Nat) (x : Ruler) (hi : Bool) (e : RuEdge) : Ruler :=
  let y := x.setLevel hi e.up e.time
  if e.up then s.ruLimit u e.time hi (y.setOut hi { y.out hi with least := e.time + s.ruF u RUL.MINP.V })
  else
    let y := if hi then y.onEdges true (fun es => es.filter (fun e => !e.cut)) else y
    if e.cut then y.onEdges false (insEdge { time := e.time + s.ruDtf u, up := true, cut := true }) else y

theorem State.ruPlace_eq (u : Nat) (x : Ruler) (hi : Bool) (e : RuEdge) : s.ruPlace u x hi e
    = (s.ruUnmasked u e.time).ruShow ((s.ruAtEdge u e).setRuler u ((s.ruAtEdge u e).ruPlaced u x hi e)) u e.time := by
  unfold State.ruPlace State.ruAtEdge State.ruPlaced
  cases hup : e.up with
  | true =>
    simp only [if_true]
    rfl
  | false =>
    cases hcut : e.cut <;> simp only [if_true, Bool.false_eq_true, if_false] <;> rfl

theorem State.ruPlace_hst (x : Hst) (u : Nat) (y : Ruler) (o : Bool) (e : RuEdge) :
    (s.putHst x).ruPlace u y o e = (s.ruPlace u y o e).putHst x := by
  have hplaced (t : State) : (t.putHst x).ruPlaced u y o e = t.ruPlaced u y o e := by
    have hlimit (y : Ruler) : (t.putHst x).ruLimit u e.time o y = t.ruLimit u e.time o y := rfl
    have hfield : (t.putHst x).ruF u RUL.MINP.V = t.ruF u RUL.MINP.V := rfl
    have hdead : (t.putHst x).ruDtf u = t.ruDtf u := rfl
    unfold State.ruPlaced
    simp only [hlimit, hfield, hdead]
  have hset (t : State) (y : Ruler) : (t.putHst x).setRuler u y = (t.setRuler u y).putHst x := rfl
  rw [State.ruPlace_eq, State.ruPlace_eq, State.ruUnmasked_hst, State.ruAtEdge_hst, hplaced, hset, State.ruShow_hst]

theorem State.ruEdge_hst (x : Hst) (u : Nat) (o : Bool) : (s.putHst x).ruEdge u o = (s.ruEdge u o).putHst x := by
  have hview : (s.putHst x).ruView u = s.ruView u := rfl
  have hruler : (s.putHst x).ruler u = s.ruler u := rfl
  unfold State.ruEdge
  simp only [hview, hruler, s.ruRise_hst x, s.ruFall_hst x]
  split
  · rfl
  · -- the other output's first edge, then whether the edge is taken, then its fate
    have hfilter : (s.putHst x).ruFiltered u = (s.ruFiltered u).putHst x := rfl
    simp only [hfilter, State.ruPlace_hst]
    split <;> split
    · rfl
    · split <;> rfl
    · rfl
    · split <;> rfl

theorem State.rulerSoon_hst (x : Hst) (u : Nat) (hi : Bool) (t n : Nat) : (s.putHst x).rulerSoon u hi t n = s.rulerSoon u hi t n := by
  induction n generalizing s with
  | zero => rfl
  | succ n ih =>
    have hview : (s.putHst x).ruView u = s.ruView u := rfl
    have hruler : (s.putHst x).ruler u = s.ruler u := rfl
    have hout (t : State) (o : Bool) : (t.putHst x).ruOutput u o = t.ruOutput u o := rfl
    unfold State.rulerSoon
    simp only [s.ruEdge_hst x, ih, hview, hruler, hout]

theorem State.soonAt_hst (x : Hst) (y : Line) : (s.putHst x).soonAt y = s.soonAt y := by
  have htrack (t : Nat) : (s.putHst x).trackSoon t = s.trackSoon t := rfl
  unfold State.soonAt
  simp only [s.rulerSoon_hst x, htrack, s.putHst_raw]

theorem State.ballLevel_hst (x : Hst) (y : Line) : (s.putHst x).ballLevel y = s.ballLevel y := by
  have hsource (c : Nat) (i : Int) : (s.putHst x).sourceLevel c i = s.sourceLevel c i := by
    unfold State.sourceLevel
    rfl
  unfold State.ballLevel
  simp only [s.soonAt_hst x, hsource, s.putHst_raw]
  rfl

theorem State.ordered_hst (x : Hst) (n : Nat) : (s.putHst x).ordered n = s.ordered n := by
  have hline : (s.putHst x).line n = s.line n := rfl
  have hbank : (s.putHst x).bankOk (n / 16) = s.bankOk (n / 16) := rfl
  have hforced (c : Nat) : (s.putHst x).forcedLevel c = s.forcedLevel c := rfl
  have hyield : (s.putHst x).yielded = s.yielded := rfl
  have hover : (s.putHst x).handover n = s.handover n := rfl
  unfold State.ordered
  simp only [hline, hbank, hforced, hyield, hover, s.ballLevel_hst x, s.putHst_mode, s.putHst_twn]

theorem State.driven_hst (x : Hst) (n : Nat) : (s.putHst x).driven n = s.driven n := by
  have hline (n : Nat) : (s.putHst x).line n = s.line n := rfl
  have hodd : (s.putHst x).oddOfPair n = s.oddOfPair n := rfl
  unfold State.driven
  simp only [s.ordered_hst x, hline, hodd]

theorem State.showLine_hst (x : Hst) (n : Nat) (y : Line) : (s.putHst x).showLine n y = s.showLine n y := by
  have hpinned : (s.putHst x).pinned n = s.pinned n := rfl
  have hchanges : (s.putHst x).changesAt y = s.changesAt y := by
    have hshunter (n : Nat) : (s.putHst x).shunter n = s.shunter n := rfl
    unfold State.changesAt
    simp only [s.soonAt_hst x, hshunter]
  have hlater : (fun c => (c, ({ s.putHst x with raw := c } : State).driven n)) = fun c => (c, ({ s with raw := c } : State).driven n) :=
    funext fun c => congrArg (Prod.mk c) (State.driven_hst { s with raw := c } x n)
  dsimp only at hlater
  unfold State.showLine
  simp only [s.driven_hst x, hpinned, hchanges, s.putHst_raw, hlater]
  rfl

theorem State.keepLine_hst (x : Hst) (n : Nat) (y : Line) : (s.putHst x).keepLine n y = s.keepLine n y := by
  have hput : (s.putHst x).putLevel n = s.putLevel n := by
    unfold State.putLevel
    rw [s.driven_hst x n]
    rfl
  have hbank : (s.putHst x).bankOk (n / 16) = s.bankOk (n / 16) := rfl
  unfold State.keepLine
  rw [s.showLine_hst x n y, hput, hbank]
  rfl

theorem State.keepAll_of_kept (h : ∀ e ∈ s.lines, s.keepLine e.1 e.2 = e.2) (x : Hst) :
    ({ s with hst := x } : State).keepAll = { s with hst := x } := by
  have hmap : s.lines.map (fun e => (e.1, s.keepLine e.1 e.2)) = s.lines :=
    (List.map_congr_left fun e he => by rw [h e he]; rfl).trans (List.map_id s.lines)
  have hkeep : (s.putHst x).keepAll = { s.putHst x with lines := s.lines.map (fun e => (e.1, s.keepLine e.1 e.2)) } := by
    unfold State.keepAll
    simp only [s.keepLine_hst x]
    rfl
  have hput : ({ s with hst := x } : State) = s.putHst x := rfl
  rw [hput, hkeep, hmap]
  rfl

theorem settle_quiet (h : s.Quiet) : ∃ pb, settle s = { s with hst := { s.hst with
      msgs := ((s.newVectors.filter s.sendsVec).map s.msgOf).reverse ++ s.hst.msgs, pba := pb, asserted := s.vectors } }
    ∧ ∀ v ∈ s.newVectors, s.sendsVec v = false → v ∈ pb := by
  obtain ⟨pb, heq, hpb⟩ := s.notify_eq
  obtain ⟨-, -, -, -, -, -, -, -, -, hkept⟩ := id h
  refine ⟨pb, ?_, hpb⟩
  rw [settle_of_quiet s h, heq, s.keepAll_of_kept hkept]

theorem settle_calm (h : s.Calm) : settle s = s := by
  obtain ⟨-, -, -, -, -, -, -, -, -, hkept⟩ := h.1
  have hnotify : s.notify = s := by
    unfold State.notify
    dsimp only
    rw [if_pos h.2.symm]
  rw [settle_of_quiet s h.1, hnotify]
  exact s.keepAll_of_kept hkept s.hst

end Sys2Proof.Machine
end

section
open Sys2Proof Sys2Proof.Machine

/-- Settles O3: each stage of what follows a command does nothing where nothing is owed, and one thing where one thing is. -/
theorem calmSettles : Obligations.CalmSettles := by
  unfold Obligations.CalmSettles
  refine ⟨settle_calm, fun s cs c hcs hpow hboot hprov hc h2 hmin hlt => ?_,
    fun s cs c hcs hpow hboot hprov hc h1 hmin hno hlt => ?_, fun s h hcalm => ?_, fun s c hf hh hrun hlt => ?_,
    settle_runMode, fun s m hf hh ht hc hrun hne => settle_undone s hf hh ht hc hrun hne, fun s hq => ?_⟩
  · subst hcs
    have hw := s.worst_restart hc h2 hmin
    have hsmall : c % 2 ^ PWR.KS_FAULT.LAST.wid = c := Nat.mod_eq_of_lt hlt
    refine ⟨fun hne => ?_, fun hm => settle_haltHeld s hw hm⟩
    have hr := settle_restart s hw hpow hboot hprov hne
    rwa [hsmall] at hr
  · subst hcs
    have hw := s.worst_safe hc h1 hmin hno
    have hsmall : c % 2 ^ PWR.SAFECAUSE.FAULT.wid = c := Nat.mod_eq_of_lt hlt
    refine ⟨fun hne hst hsafe => ?_, fun hm => settle_stillSafe s hw hm, fun hm => settle_haltHeld s hw hm,
      fun hm => settle_standbyHeld s hw hm⟩
    have hr := settle_safe s hw hpow hboot hprov hne hst hsafe
    rwa [hsmall] at hr
  · have hsame : settle s = settle s.heard := by
      rw [settle_moved, settle_moved, State.moved, State.moved, s.react_none h, State.react_of_no_fault s.heard rfl]
    rw [hsame]
    exact settle_calm s.heard hcalm
  · have hr := settle_heldFault s hf hh hrun
    rwa [show c % 2 ^ PWR.SAFECAUSE.FAULT.wid = c from Nat.mod_eq_of_lt hlt] at hr
  · obtain ⟨pb, heq, hpb⟩ := settle_quiet s hq
    have hnew {v : Nat} (hv : v ∈ s.vectors) (hno : v ∉ s.hst.asserted) : v ∈ s.newVectors :=
      List.mem_filter.mpr ⟨hv, by simpa using hno⟩
    rw [heq]
    refine ⟨rfl, rfl, fun v hv hno hup hun => ?_, fun v hv hno hdown => ?_, ?_⟩
    · refine List.mem_append_left _ (List.mem_reverse.mpr (List.mem_map.mpr ⟨v, List.mem_filter.mpr ⟨hnew hv hno, ?_⟩, rfl⟩))
      exact s.sendsVec_iff.mpr ⟨hup, hun⟩
    · refine hpb v (hnew hv hno) (Bool.eq_false_iff.mpr fun hs => ?_)
      obtain ⟨hup, hun⟩ := s.sendsVec_iff.mp hs
      rcases hdown with h | h
      · rw [h] at hup; cases hup
      · exact h hun
    · have hsent : s.newVectors.filter s.sendsVec = s.vectors.filter
          (fun v => v ∉ s.hst.asserted ∧ s.on HST.LINK.UP = true ∧ v ∈ s.hst.unmasked) := by
        unfold State.newVectors
        rw [List.filter_filter]
        refine List.filter_congr fun v _ => ?_
        rw [Bool.eq_iff_iff]
        simp [s.sendsVec_iff]
        tauto
      dsimp only
      rw [List.length_append, List.length_reverse, List.length_map, hsent, Nat.add_comm]

end

section
/-! PROOFS. What a takeover leaves: its books, its signal, its servo, and the entries of the ambiguous window (R358 to R361). -/

namespace Sys2Proof.Machine

variable (s : State)

/-! ### The fields and the signals that the end of a takeover leaves alone -/

/-- What a takeover writes, and AMBIG, which it reads. -/
def handFields : List Fld :=
  [TWN.IRQ_RAW.TAKEOVER, TWN.COUNT.SWITCHES, TWN.LASTSW.TRIGGER, TWN.LASTSW.DEP, DSP.CTL.RUN, TBU.STS.SRV_STATE, TWN.CTL.AMBIG]

/-- Field `g` shares no bit with a field of the takeover. -/
def besideHand (g : Fld) : Bool := handFields.all fun k =>
  decide (k.off ≠ g.off) || (decide (g.lo + g.wid ≤ 32) && (decide (g.lo + g.wid ≤ k.lo) || decide (k.lo + k.wid ≤ g.lo)))

/-- The takeover's fields, and the signals presented. -/
def State.handBook : List Nat × List Signal := (handFields.map fun k => s.f k, s.signals)

variable {s} in
theorem State.f_of_handBook {t : State} (h : t.handBook = s.handBook) {k : Fld} (hk : k ∈ handFields) : t.f k = s.f k := by
  have hfst : handFields.map (fun k => t.f k) = handFields.map (fun k => s.f k) := congrArg Prod.fst h
  exact List.map_inj_left.mp hfst k hk

variable {s} in
theorem State.signals_of_handBook {t : State} (h : t.handBook = s.handBook) : t.signals = s.signals := congrArg Prod.snd h

theorem State.setF_handBook {g : Fld} (v : Nat) (h : besideHand g = true) : (s.setF g v).handBook = s.handBook := by
  have hfields : handFields.map (fun k => (s.setF g v).f k) = handFields.map (fun k => s.f k) := List.map_congr_left fun k hk => by
    have hg := List.all_eq_true.mp h k hk
    simp only [Bool.or_eq_true, Bool.and_eq_true, decide_eq_true_eq] at hg
    by_cases hoff : k.off = g.off
    · rcases hg with hne | ⟨hfit, hapart⟩
      · exact absurd hoff hne
      · exact s.f_setF_beside g k 0 0 v ⟨by rw [hoff], hfit, hapart⟩
    · exact s.f_setF_other g k 0 0 v hoff
  exact Prod.ext hfields rfl

theorem State.withSeen_handBook (w : Seen) : ({ s with seenNow := w } : State).handBook = s.handBook := rfl

@[simp] theorem State.set1_handBook {g : Fld} (h : besideHand g = true) : (s.set1 g).handBook = s.handBook :=
  (State.withSeen_handBook _ _).trans (s.setF_handBook 1 h)

@[simp] theorem State.bump_handBook {g : Fld} (n : Nat) (h : besideHand g = true) : (s.bump g n).handBook = s.handBook :=
  s.setF_handBook _ h

@[simp] theorem State.fault_handBook (c : Nat) : (s.fault c).handBook = s.handBook := s.setF_handBook (g := PWR.FLTSTS.FAULT) _ (by decide)

@[simp] theorem State.setPreg_handBook (k a : Nat) (v : Word) : (s.setPreg k a v).handBook = s.handBook := rfl
@[simp] theorem State.setSlot_handBook (i : Nat) (x : Slot) : (s.setSlot i x).handBook = s.handBook := rfl
@[simp] theorem State.setConsist_handBook (k : Nat) (x : Consist) : (s.setConsist k x).handBook = s.handBook := rfl
@[simp] theorem State.withTbu_handBook (x : Tbu) : ({ s with tbu := x } : State).handBook = s.handBook := rfl
@[simp] theorem State.withPwr_handBook (x : Pwr) : ({ s with pwr := x } : State).handBook = s.handBook := rfl
@[simp] theorem State.withDsp_handBook (x : Dsp) : ({ s with dsp := x } : State).handBook = s.handBook := rfl
@[simp] theorem State.withTwn_handBook (x : Twn) : ({ s with twn := x } : State).handBook = s.handBook := rfl
@[simp] theorem State.withHst_handBook (x : Hst) : ({ s with hst := x } : State).handBook = s.handBook := rfl
@[simp] theorem State.withMem_handBook (x : Mem) : ({ s with mem := x } : State).handBook = s.handBook := rfl
@[simp] theorem State.hang_handBook (i : Nat) (p : Place) (t b : Nat) : (s.hang i p t b).handBook = s.handBook := rfl

@[simp] theorem State.acted_handBook (c : LoadSrc) (o : Nat) : (s.acted c o).handBook = s.handBook := by
  cases c with
  | direct => rfl
  | slot i => simp [State.acted, apply_ite State.handBook]

@[simp] theorem State.mirror_handBook (m : Mirror) : (s.mirror m).handBook = s.handBook := by
  unfold State.mirror; split <;> rfl

@[simp] theorem State.ppsHalt_handBook : s.ppsHalt.handBook = s.handBook := by
  unfold State.ppsHalt; dsimp only; split <;> rfl

@[simp] theorem State.noteOutcome_handBook (w o : Nat) : (s.noteOutcome w o).handBook = s.handBook := by
  simp (disch := decide) [State.noteOutcome, apply_ite State.handBook]

@[simp] theorem State.consistEnd_handBook (k o : Nat) : (s.consistEnd k o).handBook = s.handBook := by
  simp [State.consistEnd, apply_ite State.handBook]

@[simp] theorem State.missPassed_handBook : s.missPassed.handBook = s.handBook := by
  refine s.foldl_keeps State.handBook (fun t k => ?_) _
  dsimp only
  split
  · simp [apply_ite State.handBook]
  · rfl

@[simp] theorem State.entryLost_handBook (i : Nat) : (s.entryLost i).handBook = s.handBook := by
  unfold State.entryLost; split <;> simp

@[simp] theorem State.retire_handBook (i o : Nat) (h : Bool) : (s.retire i o h).handBook = s.handBook := by
  simp [State.retire, apply_ite State.handBook]

@[simp] theorem State.placeTime_handBook (i t : Nat) : (s.placeTime i t).handBook = s.handBook := by
  simp [State.placeTime, apply_ite State.handBook]

@[simp] theorem State.catchUp_handBook : s.catchUp.handBook = s.handBook := by
  have hhang (t : State) (is : List Nat) (p : Place) : (t.hangAll is p).handBook = t.handBook :=
    t.foldl_keeps State.handBook (fun t i => t.hang_handBook i p _ _) is
  have hsweep (t : State) (is : List Nat) : (t.sweep is).handBook = t.handBook :=
    t.foldl_keeps State.handBook (fun t i => by simp [apply_ite State.handBook]) is
  simp [State.catchUp, hhang, hsweep]

@[simp] theorem State.takeEntry_handBook (w : Switch) (i : Nat) : (s.takeEntry w i).handBook = s.handBook := by
  simp (disch := decide) [State.takeEntry, apply_ite State.handBook]

theorem State.takeConsists_handBook (ms : List MirCns) : (ms.foldl (fun t m => t.takeConsist m) s).handBook = s.handBook := by
  refine s.foldl_keeps State.handBook (fun t m => ?_) _
  unfold State.takeConsist
  dsimp only
  split
  · rfl
  · split <;> rfl

theorem State.log_handBook (kind : Nat) (role : Role) (req result addr old new : Nat) :
    (s.log kind role req result addr old new).handBook = s.handBook := by
  unfold State.log State.logAt
  extract_lets n e ecc mem filled counted stream told hst
  have hcounted : counted.handBook = s.handBook := (filled.setF_handBook _ (by decide)).trans (s.withMem_handBook _)
  have htold : told.handBook = s.handBook := by rw [State.set1_handBook _ (by decide), State.bump_handBook _ _ (by decide), hcounted]
  split
  · exact (told.withHst_handBook _).trans htold
  · exact hcounted

/-- The end of Twin-standby writes none of the takeover's fields, and signals nothing. -/
theorem State.toMode_handBook_of_standby {m : Mode} (hs : s.mode = .standby) (hm : m.running = true) :
    (s.toMode m).handBook = s.handBook := by
  have hchg : (({ s with mode := m } : State).set1 PWR.IRQ_RAW.MODE_CHG).handBook = s.handBook := State.set1_handBook _ (by decide)
  have hnew : m = .run ∨ m = .holdover := by revert hm; cases m <;> decide
  have hpps (t : State) : (if m = .holdover then t.ppsHalt else t).handBook = t.handBook := by
    rw [apply_ite State.handBook, t.ppsHalt_handBook, ite_self]
  unfold State.toMode
  split
  · rfl
  · extract_lets old entered missed pwr kicked left started since tbu counting halted resumed deaf
    have hmissed : missed = entered.missPassed := by simp [missed, old, hs]
    have hstarted : started = kicked := by simp [started, left, old, hs]
    have hdeaf : deaf = halted := by rcases hnew with rfl | rfl <;> simp [deaf, resumed, old, hs]
    calc (if m = .halt then deaf.enterHalt else deaf).handBook = halted.handBook := by
          rcases hnew with rfl | rfl <;> simp [hdeaf]
      _ = counting.handBook := hpps counting
      _ = kicked.handBook := by simp only [counting, hstarted, apply_ite State.handBook, State.withTbu_handBook, ite_self]
      _ = missed.handBook := by simp only [kicked, apply_ite State.handBook, State.withPwr_handBook, ite_self]
      _ = entered.handBook := by rw [hmissed, State.missPassed_handBook]
      _ = s.handBook := hchg

/-! ### The slots of entries that are not active -/

/-- From `s` to `t`, entry `i` stays as it is unless it is active. -/
def State.SlotStays (s t : State) (i : Nat) : Prop := (s.slot i).st ≠ .active → t.slot i = s.slot i

variable {s} in
theorem State.SlotStays.trans {t u : State} {i : Nat} (h : s.SlotStays t i) (k : t.SlotStays u i) : s.SlotStays u i := fun hs => by
  rw [k (by rw [h hs]; exact hs), h hs]

theorem State.slotStays_of_slots {t : State} (h : t.slots = s.slots) (i : Nat) : s.SlotStays t i := fun _ => by
  unfold State.slot
  rw [h]

theorem State.slotStays_acted (c : LoadSrc) (o i : Nat) : s.SlotStays (s.acted c o) i := fun hs => by
  unfold State.acted
  cases c with
  | direct => rfl
  | slot j =>
    dsimp only
    split
    next hj =>
      rw [State.slot_setSlot, if_neg]
      rintro rfl
      exact hs hj.1
    next => rfl

theorem State.noteOutcome_slots (w o : Nat) : (s.noteOutcome w o).slots = s.slots := by
  simp [State.noteOutcome, apply_ite State.slots]

theorem State.slotStays_consistEnd (k o i : Nat) : s.SlotStays (s.consistEnd k o) i := by
  unfold State.consistEnd
  extract_lets x y ended twn forgotten told
  split
  · exact s.slotStays_of_slots rfl i
  · have hforgotten : s.SlotStays forgotten i :=
      s.slotStays_of_slots (by simp only [forgotten, ended, apply_ite State.slots, State.mirror_slots, ite_self]) i
    have htold : forgotten.SlotStays told i := by
      simp only [told]
      split
      · exact forgotten.slotStays_acted _ _ i
      · exact fun _ => rfl
    exact (hforgotten.trans htold).trans (State.slotStays_of_slots _
      ((State.noteOutcome_slots (told.setConsist k { y with last := o }) x.owner o).trans (State.setConsist_slots _ _ _)) i)

theorem State.slotStays_foldl {α : Type} {f : State → α → State} {i : Nat} (h : ∀ t a, State.SlotStays t (f t a) i) (l : List α) :
    ∀ t : State, t.SlotStays (l.foldl f t) i := by
  induction l with
  | nil => exact fun t _ => rfl
  | cons a l ih => exact fun t => (h t a).trans (ih (f t a))

theorem State.slotStays_missPassed (i : Nat) : s.SlotStays s.missPassed i := by
  refine State.slotStays_foldl (fun t k => ?_) _ s
  dsimp only
  split
  · split
    · exact t.slotStays_consistEnd k _ i
    · exact fun _ => rfl
  · exact fun _ => rfl

theorem State.slotStays_entryLost (j i : Nat) : s.SlotStays (s.entryLost j) i := by
  unfold State.entryLost
  split
  · exact fun _ => rfl
  · exact s.slotStays_consistEnd _ _ i

theorem State.slotStays_toMode_of_standby {m : Mode} (hs : s.mode = .standby) (hm : m.running = true) (i : Nat) :
    s.SlotStays (s.toMode m) i := by
  have hnew : m = .run ∨ m = .holdover := by revert hm; cases m <;> decide
  have hpps (t : State) : (if m = .holdover then t.ppsHalt else t).slots = t.slots := by
    unfold State.ppsHalt
    dsimp only
    split
    · split <;> rfl
    · rfl
  unfold State.toMode
  split
  · exact fun _ => rfl
  · extract_lets old entered missed pwr kicked left started since tbu counting halted resumed deaf
    have hmissed : missed = entered.missPassed := by simp [missed, old, hs]
    have hstarted : started = kicked := by simp [started, left, old, hs]
    have hdeaf : deaf = halted := by rcases hnew with rfl | rfl <;> simp [deaf, resumed, old, hs]
    have hslots : (if m = .halt then deaf.enterHalt else deaf).slots = missed.slots :=
      calc (if m = .halt then deaf.enterHalt else deaf).slots = halted.slots := by
            rcases hnew with rfl | rfl <;> simp [hdeaf]
        _ = counting.slots := hpps counting
        _ = kicked.slots := by simp only [counting, hstarted, apply_ite State.slots, ite_self]
        _ = missed.slots := by simp only [kicked, apply_ite State.slots, ite_self]
    have hentered : s.SlotStays entered i := s.slotStays_of_slots rfl i
    rw [hmissed] at hslots
    exact (hentered.trans (entered.slotStays_missPassed i)).trans (State.slotStays_of_slots _ hslots i)

/-! ### The entries of the ambiguous window -/

theorem State.slotStays_retire (j o : Nat) {i : Nat} (h : i ≠ j) : s.SlotStays (s.retire j o) i := by
  unfold State.retire
  extract_lets x lost freed
  have hlost : s.SlotStays lost i := by
    simp only [lost]
    split
    · exact fun _ => rfl
    · exact s.slotStays_entryLost j i
  refine (hlost.trans fun _ => ?_).trans (State.slotStays_of_slots _ (State.mirror_slots _ _) i)
  exact (State.slot_setSlot _ _ _ _).trans (if_neg h)

theorem State.retire_fate (j o : Nat) : ((s.retire j o).slot j).st = .retiring ∧ ((s.retire j o).slot j).out = o := by
  unfold State.retire
  extract_lets x lost freed
  have hslot : (freed.mirror (.ret j o)).slot j = freed.slot j := by
    unfold State.slot
    rw [State.mirror_slots]
  rw [hslot, State.slot_setSlot, if_pos rfl]
  exact ⟨rfl, rfl⟩

theorem State.hang_fate (j : Nat) (p : Place) (t b i : Nat) :
    ((s.hang j p t b).slot i).st = (s.slot i).st ∧ ((s.hang j p t b).slot i).out = (s.slot i).out := by
  have hslot : (s.hang j p t b).slot i = if i = j then { s.slot j with place := p, start := t, bkt := b, ord := s.dsp.ord } else s.slot i :=
    State.slot_setSlot s j i _
  rw [hslot]
  split
  next h => subst h; exact ⟨rfl, rfl⟩
  next => exact ⟨rfl, rfl⟩

theorem State.slotStays_hang (j : Nat) (p : Place) (t b : Nat) {i : Nat} (h : i ≠ j) : s.SlotStays (s.hang j p t b) i := fun _ =>
  (State.slot_setSlot s j i _).trans (if_neg h)

theorem State.placeTime_hangs (j t : Nat) : ∃ p, s.placeTime j t = s.hang j p t (s.depOf t) := by
  unfold State.placeTime
  dsimp only
  split
  · exact ⟨_, rfl⟩
  · split <;> exact ⟨_, rfl⟩

/-- An entry taken, in its cases: left, of the window, placed again. -/
theorem State.takeEntry_cases (w : Switch) (j : Nat) : s.takeEntry w j = s
    ∨ (∃ t : State, t.slots = s.slots ∧ (s.takeEntry w j = t.retire j outAborted ∨ ∃ u b, s.takeEntry w j = t.hang j .catchup u b))
    ∨ ∃ p u b, s.takeEntry w j = s.hang j p u b := by
  unfold State.takeEntry
  extract_lets x t early marked counted
  split
  · exact .inl rfl
  · split
    · refine .inr (.inl ⟨counted, ?_, ?_⟩)
      · simp only [counted, marked, State.bump_slots, apply_ite State.slots, State.fault_slots, State.set1_slots, ite_self]
      · split
        · exact .inr ⟨_, _, rfl⟩
        · exact .inl rfl
    · split
      · exact .inl rfl
      · obtain ⟨p, hp⟩ := s.placeTime_hangs j t
        exact .inr (.inr ⟨p, _, _, hp⟩)

theorem State.slotStays_takeEntry (w : Switch) {i j : Nat} (h : i ≠ j) : s.SlotStays (s.takeEntry w j) i := by
  rcases s.takeEntry_cases w j with heq | ⟨t, ht, heq | ⟨u, b, heq⟩⟩ | ⟨p, u, b, heq⟩ <;> rw [heq]
  · exact fun _ => rfl
  · exact (s.slotStays_of_slots ht i).trans (t.slotStays_retire j _ h)
  · exact (s.slotStays_of_slots ht i).trans (t.slotStays_hang j _ _ _ h)
  · exact s.slotStays_hang j _ _ _ h

/-- Entry `i` is RETIRING, aborted. -/
def State.AbortedAt (t : State) (i : Nat) : Prop := (t.slot i).st = .retiring ∧ (t.slot i).out = outAborted

variable {s} in
theorem State.AbortedAt.takeEntry {i : Nat} (h : s.AbortedAt i) (w : Switch) (j : Nat) : (s.takeEntry w j).AbortedAt i := by
  have hne : (s.slot i).st ≠ .active := by rw [h.1]; decide
  by_cases hij : i = j
  · subst hij
    rcases s.takeEntry_cases w i with heq | ⟨t, ht, heq | ⟨u, b, heq⟩⟩ | ⟨p, u, b, heq⟩ <;> rw [heq]
    · exact h
    · exact t.retire_fate i _
    · have hslot := s.slotStays_of_slots ht i hne
      obtain ⟨hst, hout⟩ := t.hang_fate i .catchup u b i
      exact ⟨by rw [hst, hslot, h.1], by rw [hout, hslot, h.2]⟩
    · obtain ⟨hst, hout⟩ := s.hang_fate i p u b i
      exact ⟨by rw [hst, h.1], by rw [hout, h.2]⟩
  · have hslot := s.slotStays_takeEntry w hij hne
    exact ⟨by rw [hslot, h.1], by rw [hslot, h.2]⟩

/-- Entry `x` is of the ambiguous window of switch `w` (R360). -/
def inWindow (w : Switch) (x : Slot) : Prop :=
  ∃ u, ((eAngle x.bits = false ∧ x.place ≠ .parked ∧ u = startOf x.bits) ∨ (eAngle x.bits = true ∧ x.place = .lane ∧ u = x.start))
    ∧ (w.cv - 1) * 64 ≤ u ∧ u < (w.w + 10) * 64

theorem State.takeEntry_window {w : Switch} {i : Nat} (htrig : w.trig ≠ 3) (hw : inWindow w (s.slot i)) (hamb : s.on TWN.CTL.AMBIG = false) :
    (s.takeEntry w i).AbortedAt i := by
  obtain ⟨u, hu, hlo, hhi⟩ := hw
  have hplace : ¬((decide ((s.slot i).place = .parked) || (eAngle (s.slot i).bits && decide ((s.slot i).place ≠ .lane))) = true) := by
    rcases hu with ⟨ha, hp, -⟩ | ⟨ha, hp, -⟩ <;> simp [ha, hp]
  have ht : (if eAngle (s.slot i).bits then (s.slot i).start else startOf (s.slot i).bits) = u := by
    rcases hu with ⟨ha, -, rfl⟩ | ⟨ha, -, rfl⟩ <;> simp [ha]
  have hearly : decide (u < (w.cv - 1) * 64) = false := decide_eq_false (by omega)
  have hwin : w.window = ((w.cv - 1) * 64, (w.w + 10) * 64) := if_neg htrig
  have hcounted : (s.bump TWN.COUNT.AMBIG).on TWN.CTL.AMBIG = false := by
    rw [State.on_eq, State.f_bump_eq, State.f_setF_other _ _ _ _ _ _ (by decide), ← State.on_eq, hamb]
  unfold State.takeEntry
  dsimp only
  rw [if_neg hplace, ht, hearly, hwin, if_pos (by simp [hlo, hhi]), if_neg Bool.false_ne_true, hcounted, if_neg Bool.false_ne_true]
  exact State.retire_fate _ i outAborted

/-- The entries taken in turn: one of the window is aborted, in whatever order its turn comes. -/
theorem State.takeEntries_window {w : Switch} {i : Nat} (htrig : w.trig ≠ 3) (is : List Nat) : ∀ t : State, i ∈ is →
    (t.slot i).st = .queued → inWindow w (t.slot i) → t.on TWN.CTL.AMBIG = false →
    (is.foldl (fun s i => s.takeEntry w i) t).AbortedAt i := by
  have hrest (js : List Nat) : ∀ t : State, t.AbortedAt i → (js.foldl (fun s i => s.takeEntry w i) t).AbortedAt i := by
    induction js with
    | nil => exact fun _ h => h
    | cons j js ih => exact fun t h => ih _ (h.takeEntry w j)
  induction is with
  | nil => exact fun _ h => absurd h List.not_mem_nil
  | cons j is ih =>
    intro t hin hq hw hamb
    rw [List.foldl_cons]
    by_cases hij : i = j
    · subst hij
      exact hrest is _ (t.takeEntry_window htrig hw hamb)
    · have hslot := t.slotStays_takeEntry w hij (by rw [hq]; decide)
      have hon : (t.takeEntry w j).on TWN.CTL.AMBIG = t.on TWN.CTL.AMBIG := by
        rw [State.on_eq, State.f_of_handBook (t.takeEntry_handBook w j) (by decide), ← State.on_eq]
      exact ih _ ((List.mem_cons.mp hin).resolve_left hij) (by rw [hslot, hq]) (by rw [hslot]; exact hw) (by rw [hon, hamb])

/-- What is due once the moves are resumed keeps its entry's standing. -/
theorem State.catchUp_fate (i : Nat) : (s.catchUp.slot i).st = (s.slot i).st ∧ (s.catchUp.slot i).out = (s.slot i).out := by
  have hhang (t : State) (is : List Nat) (p : Place) :
      (((t.hangAll is p).slot i).st, ((t.hangAll is p).slot i).out) = ((t.slot i).st, (t.slot i).out) :=
    t.foldl_keeps (fun t : State => ((t.slot i).st, (t.slot i).out)) (fun t j => Prod.ext (t.hang_fate j _ _ _ i).1 (t.hang_fate j _ _ _ i).2) is
  have hsweep (t : State) (is : List Nat) :
      (((t.sweep is).slot i).st, ((t.sweep is).slot i).out) = ((t.slot i).st, (t.slot i).out) := by
    refine t.foldl_keeps (fun t : State => ((t.slot i).st, (t.slot i).out)) (fun t j => ?_) is
    dsimp only
    split
    · obtain ⟨p, hp⟩ := t.placeTime_hangs j (t.slot j).start
      rw [hp]
      exact Prod.ext (t.hang_fate j _ _ _ i).1 (t.hang_fate j _ _ _ i).2
    · rfl
  have h : ((s.catchUp.slot i).st, (s.catchUp.slot i).out) = ((s.slot i).st, (s.slot i).out) := by
    unfold State.catchUp
    dsimp only
    rw [hsweep, hhang]
  exact ⟨congrArg Prod.fst h, congrArg Prod.snd h⟩

end Sys2Proof.Machine
end

section
/-! PROOFS. The takeover, stage by stage (R358 to R361). -/

namespace Sys2Proof.Machine

variable (s : State) (w : Switch)

/-! ### The stages of a takeover -/

/-- The device is PRIMARY from cycle c′, its moves on. -/
def State.assumed : State :=
  ((s.advanceVt (s.boundary ((w.w + 200 + s.dsp.period - 1) / s.dsp.period))).onTwn fun x => { x with
    st := .primary, sw := none, killOut := true, peerSt := .solo, queue := [], unacked := [], toRing := [], cons := [], expect := [],
    early := [], missed := 0, check := [], owesCopy := false }).set1 DSP.CTL.RUN

/-- The servo of the new PRIMARY (R359). -/
def State.servoTaken : State :=
  if s.on TBU.STS.REF_QUAL && s.srvOn then
    { s.setSrv srvAcquire with tbu := { (s.setSrv srvAcquire).tbu with integ := s.freqNow.neg, lockCnt := 0, overCnt := 0 } }
  else if s.srvOn then
    ({ s.setSrv srvHoldover with tbu := { (s.setSrv srvHoldover).tbu with avg := [s.freqNow] } } : State).copyFreqHold
  else s.setSrv srvFree

/-- The switchover counted. -/
def State.counts : State := (s.set1 TWN.IRQ_RAW.TAKEOVER).bump TWN.COUNT.SWITCHES

/-- Its trigger and its departure noted. -/
def State.dates : State := (s.setF TWN.LASTSW.TRIGGER w.trig).setF TWN.LASTSW.DEP s.dep

/-- The entry in the logbook, and the signal. -/
def State.tells (peer : Nat) : State :=
  (s.log 9 .none 0x21 w.trig s.dep peer s.sec.otp.serial).signal 7 0 0 (s.log 9 .none 0x21 w.trig s.dep peer s.sec.otp.serial).vt

/-- The entries and consists taken up. -/
def State.takesUp (cons : List MirCns) : State :=
  let t := ((s.queuedSlots (fun _ => true)).foldl (fun s i => s.takeEntry w i) s).catchUp
  cons.foldl (fun s m => s.takeConsist m) { t with dsp := { t.dsp with lastMove := t.raw + 15 } }

/-- The mode of the new PRIMARY, its books. -/
def State.handed : State :=
  ((s.assumed w).servoTaken.toMode (s.assumed w).servoTaken.runMode).counts.dates w

theorem State.takeover_eq (h : s.twn.sw = some w) : ∃ peer, s.takeover = ((s.handed w).tells w peer).takesUp w s.twn.cons := by
  unfold State.takeover
  split
  next hnone => simp [h] at hnone
  next v hv =>
    obtain rfl : w = v := Option.some.inj (h.symm.trans hv)
    -- stage by stage: each is named, and what made it is then forgotten
    extract_lets +onlyGivenNames d arrived peer cons primary moving
    have hmoving : moving = s.assumed w := rfl
    clear_value moving peer
    extract_lets +onlyGivenNames qual f acquiring tbu holding tbu' averaged served
    have hserved : served = moving.servoTaken := rfl
    clear_value served
    extract_lets +onlyGivenNames moved told noted
    have hnoted : noted = (served.toMode served.runMode).counts.dates w := rfl
    clear_value noted
    extract_lets +onlyGivenNames logged signalled
    have hsignalled : signalled = noted.tells w peer := rfl
    clear_value signalled
    refine ⟨peer, ?_⟩
    rw [State.handed, ← hmoving, ← hserved, ← hnoted, ← hsignalled]
    rfl

/-! ### The clock, the mode, the twin's standing -/

theorem State.withMem_pwrBook (x : Mem) : ({ s with mem := x } : State).pwrBook false = s.pwrBook false := rfl

theorem State.withHst_pwrBook (x : Hst) : ({ s with hst := x } : State).pwrBook false = s.pwrBook false := rfl

theorem State.log_pwrBook (kind : Nat) (role : Role) (req result addr old new : Nat) :
    (s.log kind role req result addr old new).pwrBook false = s.pwrBook false := by
  unfold State.log State.logAt
  extract_lets n e ecc mem filled counted stream told hst
  have hcounted : counted.pwrBook false = s.pwrBook false := (filled.setF_pwrBook _ (by decide)).trans (s.withMem_pwrBook _)
  have htold : told.pwrBook false = s.pwrBook false := by
    rw [State.set1_pwrBook _ (by decide), State.bump_pwrBook _ _ (by decide), hcounted]
  split
  · exact (told.withHst_pwrBook _).trans htold
  · exact hcounted

theorem State.tells_pwrBook (peer : Nat) : (s.tells w peer).pwrBook false = s.pwrBook false := by
  have hsignal (t : State) (k i g u : Nat) : (t.signal k i g u).pwrBook false = t.pwrBook false := rfl
  unfold State.tells
  rw [hsignal, State.log_pwrBook]

theorem State.takesUp_pwrBook (cons : List MirCns) : (s.takesUp w cons).pwrBook false = s.pwrBook false := by
  have hretire (t : State) (i o : Nat) : (t.retire i o).pwrBook false = t.pwrBook false := by
    have hlost : (t.entryLost i).pwrBook false = t.pwrBook false := by unfold State.entryLost; split <;> simp
    simp [State.retire, apply_ite (State.pwrBook · false), hlost]
  have htake (t : State) (i : Nat) : (t.takeEntry w i).pwrBook false = t.pwrBook false := by
    simp (disch := decide) [State.takeEntry, apply_ite (State.pwrBook · false), hretire]
  have hcons (t : State) (m : MirCns) : (t.takeConsist m).pwrBook false = t.pwrBook false := by
    unfold State.takeConsist
    dsimp only
    split
    · rfl
    · split <;> rfl
  unfold State.takesUp
  dsimp only
  rw [State.foldl_pwrBook _ hcons, State.withDsp_pwrBook, State.catchUp_pwrBook, State.foldl_pwrBook _ htake]

theorem State.setF_frame (g : Fld) (v i : Nat) (r : SMap Word) (x : Tbu) :
    ({ s.setF g v i with regs := r, tbu := x } : State) = { s with regs := r, tbu := x } := rfl

theorem State.withTbu_frame (y : Tbu) (r : SMap Word) (x : Tbu) :
    ({ ({ s with tbu := y } : State) with regs := r, tbu := x } : State) = { s with regs := r, tbu := x } := rfl

theorem State.servoTaken_frame : { s.servoTaken with regs := s.regs, tbu := s.tbu } = s := by
  unfold State.servoTaken
  split
  · exact (State.withTbu_frame _ _ _ _).trans (s.setF_frame _ _ _ _ _)
  · split
    · unfold State.copyFreqHold
      dsimp only
      rw [State.setF_frame, State.setF_frame, State.setF_frame, State.withTbu_frame]
      exact s.setF_frame _ _ _ _ _
    · exact s.setF_frame _ _ _ _ _

theorem State.servoTaken_entryView : s.servoTaken.entryView = s.entryView := by
  unfold State.servoTaken
  split
  · exact (State.withTbu_entryView _ _).trans (s.setSrv_entryView _)
  · split
    · exact (State.copyFreqHold_entryView _).trans ((State.withTbu_entryView _ _).trans (s.setSrv_entryView _))
    · exact s.setSrv_entryView _

theorem State.servoTaken_mode : s.servoTaken.mode = s.mode := by
  have h := congrArg State.mode s.servoTaken_frame
  exact h

theorem State.assumed_mode : (s.assumed w).mode = s.mode := by unfold State.assumed; rw [State.set1_mode]; rfl

theorem State.assumed_raw :
    (s.assumed w).raw = (s.advanceVt (s.boundary ((w.w + 200 + s.dsp.period - 1) / s.dsp.period))).raw := by
  unfold State.assumed; rw [State.set1_raw]; rfl

theorem State.assumed_twn : (s.assumed w).twn.st = .primary ∧ (s.assumed w).twn.sw = none ∧ (s.assumed w).twn.killOut = true := by
  unfold State.assumed; rw [State.set1_twn]; exact ⟨rfl, rfl, rfl⟩

theorem State.assumed_slots : (s.assumed w).slots = s.slots := by unfold State.assumed; rw [State.set1_slots]; rfl

theorem State.assumed_signals : (s.assumed w).signals = s.signals := by unfold State.assumed; rw [State.set1_signals]; rfl

/-- Of the registers, the assumption of the primary's part sets DSP.CTL.RUN alone. -/
theorem State.assumed_f (k : Fld) (h : k.off ≠ DSP.CTL.RUN.off) : (s.assumed w).f k = s.f k := by
  unfold State.assumed
  rw [State.f_set1_eq, State.f_setF_other _ _ _ 0 0 _ h]
  exact (State.f_withTwn _ _ _ _).trans (State.f_advanceVt _ _ _ _)

theorem State.assumed_run : (s.assumed w).f DSP.CTL.RUN = 1 := by
  unfold State.assumed
  rw [State.f_set1_eq, State.f_setF_self _ _ _ _ (by decide)]
  rfl

/-- The state just before the books of the takeover: the servo has its state, the mode is Run or Holdover. -/
def State.inCharge : State := (s.assumed w).servoTaken.toMode (s.assumed w).servoTaken.runMode

theorem State.handed_eq : s.handed w = (s.inCharge w).counts.dates w := rfl

section
variable {s} (hs : s.mode = .standby)
include hs

theorem State.inCharge_standby : (s.assumed w).servoTaken.mode = .standby := by
  rw [State.servoTaken_mode, State.assumed_mode, hs]

theorem State.inCharge_pwrBook : (s.inCharge w).pwrBook false = ((s.assumed w).servoTaken.entered (s.assumed w).servoTaken.runMode).pwrBook false := by
  refine State.toMode_pwrBook _ fun h => ?_
  have hrun := State.runMode_running (s.assumed w).servoTaken
  rw [← h, State.inCharge_standby w hs] at hrun
  cases hrun

omit hs in
theorem State.handed_pwrBook : (s.handed w).pwrBook false = (s.inCharge w).pwrBook false := by
  rw [s.handed_eq w]
  unfold State.dates State.counts
  rw [State.setF_pwrBook _ _ (by decide), State.setF_pwrBook _ _ (by decide), State.bump_pwrBook _ _ (by decide),
    State.set1_pwrBook _ (by decide)]

omit hs in
theorem State.takeover_pwrBook (hw : s.twn.sw = some w) : s.takeover.pwrBook false = (s.inCharge w).pwrBook false := by
  obtain ⟨peer, heq⟩ := s.takeover_eq w hw
  rw [heq, State.takesUp_pwrBook, State.tells_pwrBook, State.handed_pwrBook]

theorem State.takeover_standing (hw : s.twn.sw = some w) : s.takeover.twn.st = .primary ∧ s.takeover.twn.sw = none
    ∧ s.takeover.twn.killOut = true ∧ s.takeover.mode.running = true
    ∧ s.takeover.raw = (s.advanceVt (s.boundary ((w.w + 200 + s.dsp.period - 1) / s.dsp.period))).raw := by
  have hb := (State.takeover_pwrBook w hw).trans (State.inCharge_pwrBook w hs)
  have htwn : (s.assumed w).servoTaken.twn = (s.assumed w).twn := by
    have h := congrArg State.twn (s.assumed w).servoTaken_frame
    exact h
  obtain ⟨hst, hsw, hkill⟩ := s.assumed_twn w
  have hstand := congrArg (fun p => p.2.2.2.1) hb
  simp only [State.pwrBook, Prod.mk.injEq, State.entered_twn, htwn] at hstand
  refine ⟨hstand.1.trans hst, hstand.2.1.trans hsw, hstand.2.2.2.trans hkill, ?_, ?_⟩
  · rw [State.mode_of_pwrBook hb, State.entered_mode]
    exact State.runMode_running _
  · have hraw := congrArg State.raw (s.assumed w).servoTaken_frame
    rw [State.raw_of_pwrBook hb, State.entered_raw, ← s.assumed_raw w, ← hraw]

/-! ### The books of the takeover -/

theorem State.inCharge_f {k : Fld} (hk : k ∈ handFields) : (s.inCharge w).f k = (s.assumed w).servoTaken.f k :=
  State.f_of_handBook (State.toMode_handBook_of_standby _ (State.inCharge_standby w hs) (State.runMode_running _)) hk

theorem State.inCharge_signals : (s.inCharge w).signals = s.signals := by
  have hserved := congrArg State.signals (s.assumed w).servoTaken_frame
  have hmode : (s.inCharge w).signals = (s.assumed w).servoTaken.signals :=
    State.signals_of_handBook (State.toMode_handBook_of_standby _ (State.inCharge_standby w hs) (State.runMode_running _))
  rw [hmode, ← s.assumed_signals w, ← hserved]

end

theorem State.servoTaken_f (k : Fld) (h1 : k.off ≠ TBU.STS.SRV_STATE.off) (h2 : k.off ≠ TBU.KS_FREQ.V.off)
    (h3 : k.off ≠ TBU.KS_FLAGS.V.off) (h4 : k.off ≠ TBU.HOLD.FREQ_HOLD.off) : s.servoTaken.f k = s.f k := by
  have hsrv (n : Nat) : (s.setSrv n).f k = s.f k := s.f_setF_other _ k 0 0 n h1
  unfold State.servoTaken
  split
  · exact (State.f_withTbu _ _ _ _).trans (hsrv _)
  · split
    · unfold State.copyFreqHold
      dsimp only
      rw [State.f_setF_other _ _ _ 0 0 _ h4, State.f_setF_other _ _ _ 0 0 _ h3, State.f_setF_other _ _ _ 0 0 _ h2, State.f_withTbu]
      exact hsrv _
    · exact hsrv _

theorem State.servoTaken_srv : s.servoTaken.srv = if s.srvOn then (if s.on TBU.STS.REF_QUAL then srvAcquire else srvHoldover) else srvFree := by
  have hsrv (n : Nat) (hn : n < 8) : (s.setSrv n).f TBU.STS.SRV_STATE = n :=
    (s.f_setF_self TBU.STS.SRV_STATE 0 n (by decide)).trans (Nat.mod_eq_of_lt hn)
  unfold State.servoTaken State.srv
  cases hq : s.on TBU.STS.REF_QUAL <;> cases hon : s.srvOn
  · exact hsrv _ (by decide)
  · simp only [Bool.false_and, Bool.false_eq_true, if_false, if_true]
    unfold State.copyFreqHold
    dsimp only
    rw [State.f_setF_other _ _ _ _ _ _ (by decide), State.f_setF_other _ _ _ _ _ _ (by decide),
      State.f_setF_other _ _ _ _ _ _ (by decide), State.f_withTbu]
    exact hsrv _ (by decide)
  · exact hsrv _ (by decide)
  · simp only [Bool.and_self, if_true]
    exact (State.f_withTbu _ _ _ _).trans (hsrv _ (by decide))

theorem State.noted_takeover : (s.counts.dates w).on TWN.IRQ_RAW.TAKEOVER = true := by
  unfold State.dates State.counts
  rw [State.on_eq, State.f_setF_other _ _ _ _ _ _ (by decide), State.f_setF_other _ _ _ _ _ _ (by decide), State.f_bump_eq,
    State.f_setF_other _ _ _ _ _ _ (by decide), ← State.on_eq]
  exact State.on_set1 _ _ _ (by decide) rfl

theorem State.noted_switches : (s.counts.dates w).f TWN.COUNT.SWITCHES = counted s TWN.COUNT.SWITCHES := by
  unfold State.dates State.counts
  rw [State.f_setF_other _ _ _ _ _ _ (by decide), State.f_setF_other _ _ _ _ _ _ (by decide), State.f_bump_eq,
    State.f_setF_self _ _ _ _ (by decide), State.f_set1_eq, State.f_setF_other _ _ _ _ _ _ (by decide)]
  exact s.counted_eq TWN.COUNT.SWITCHES 0 1

theorem State.noted_trigger : (s.counts.dates w).f TWN.LASTSW.TRIGGER = w.trig % 16 := by
  unfold State.dates
  rw [State.f_setF_beside _ _ _ _ _ _ (by decide), State.f_setF_self _ _ _ _ (by decide)]
  rfl

theorem State.noted_dep : (s.counts.dates w).f TWN.LASTSW.DEP = s.counts.dep % 2 ^ TWN.LASTSW.DEP.wid := by
  unfold State.dates
  rw [State.f_setF_self _ _ _ _ (by decide)]

theorem State.noted_other (k : Fld) (h1 : k.off ≠ TWN.LASTSW.DEP.off) (h2 : k.off ≠ TWN.COUNT.SWITCHES.off)
    (h3 : k.off ≠ TWN.IRQ_RAW.TAKEOVER.off) : (s.counts.dates w).f k = s.f k := by
  unfold State.dates State.counts
  rw [State.f_setF_other _ _ _ 0 0 _ h1, State.f_setF_other _ TWN.LASTSW.TRIGGER _ 0 0 _ h1, State.f_bump_eq,
    State.f_setF_other _ _ _ 0 0 _ h2, State.f_set1_eq, State.f_setF_other _ _ _ 0 0 _ h3]

theorem State.noted_signals : (s.counts.dates w).signals = s.signals := by
  unfold State.dates State.counts
  rw [State.setF_signals, State.setF_signals, State.bump_signals, State.set1_signals]

theorem State.noted_slots : (s.counts.dates w).slots = s.slots := by
  unfold State.dates State.counts
  rw [State.setF_slots, State.setF_slots, State.bump_slots, State.set1_slots]

theorem SMap.mem_of_get {α : Type} (d : Nat → α) (m : SMap α) (k : Nat) (h : SMap.get d m k ≠ d k) : (k, SMap.get d m k) ∈ m := by
  induction m with
  | nil => exact absurd rfl h
  | cons e m ih =>
    obtain ⟨i, v⟩ := e
    unfold SMap.get at h ⊢
    by_cases hk : k = i
    · subst hk
      rw [if_pos rfl]
      exact List.mem_cons_self
    · rw [if_neg hk] at h ⊢
      exact List.mem_cons_of_mem _ (ih h)

/-- A queued entry is among the queued slots. -/
theorem State.mem_queuedSlots {i : Nat} (h : (s.slot i).st = .queued) : i ∈ s.queuedSlots (fun _ => true) := by
  have hne : s.slot i ≠ {} := fun he => by rw [he] at h; cases h
  have hmem : (i, s.slot i) ∈ s.slots := SMap.mem_of_get (fun _ => ({} : Slot)) s.slots i hne
  exact List.mem_map.mpr ⟨_, List.mem_filter.mpr ⟨hmem, by simp [h]⟩, rfl⟩

/-! ### Together -/

theorem State.takesUp_handBook (cons : List MirCns) : (s.takesUp w cons).handBook = s.handBook := by
  unfold State.takesUp
  dsimp only
  rw [State.takeConsists_handBook, State.withDsp_handBook, State.catchUp_handBook]
  exact s.foldl_keeps State.handBook (fun t i => t.takeEntry_handBook w i) _

theorem State.tells_f (peer : Nat) {k : Fld} (hk : k ∈ handFields) : (s.tells w peer).f k = s.f k := by
  unfold State.tells
  rw [State.f_signal, State.f_of_handBook (s.log_handBook _ _ _ _ _ _ _) hk]

theorem State.tells_slots (peer : Nat) : (s.tells w peer).slots = s.slots := by
  have hsignal (t : State) (k i g u : Nat) : (t.signal k i g u).slots = t.slots := rfl
  unfold State.tells
  rw [hsignal, State.slots_log]

theorem State.tells_signals (peer : Nat) : ∃ e, (s.tells w peer).signals = s.signals ++ [e] ∧ e.kind = 7 := by
  have hsignal (t : State) (k i g u : Nat) :
      (t.signal k i g u).signals = t.signals ++ [{ kind := k, idx := i, g1 := g, s0 := u, since := t.raw }] := rfl
  unfold State.tells
  rw [hsignal, State.signals_of_handBook (s.log_handBook _ _ _ _ _ _ _)]
  exact ⟨_, rfl, rfl⟩

theorem State.dep_congr {u t : State} (hr : u.raw = t.raw) (ho : u.vtOff = t.vtOff) (hp : u.dsp.period = t.dsp.period) : u.dep = t.dep := by
  rw [State.dep, State.dep, State.cyc, State.cyc, State.vt, State.vt, State.vtAt, State.vtAt, hr, ho, hp]

section
variable {s} (hs : s.mode = .standby) (hw : s.twn.sw = some w)
include hs hw

omit hs in
theorem State.takeover_f {k : Fld} (hk : k ∈ handFields) : s.takeover.f k = ((s.inCharge w).counts.dates w).f k := by
  obtain ⟨peer, heq⟩ := s.takeover_eq w hw
  rw [heq, State.f_of_handBook (State.takesUp_handBook _ w _) hk, State.tells_f _ _ _ hk, s.handed_eq w]

theorem State.takeover_irq : s.takeover.on TWN.IRQ_RAW.TAKEOVER = true ∧ s.takeover.on DSP.CTL.RUN = true := by
  constructor
  · rw [State.on_eq, State.takeover_f w hw (by decide), ← State.on_eq, State.noted_takeover]
  · rw [State.on_eq, State.takeover_f w hw (by decide), State.noted_other _ _ _ (by decide) (by decide) (by decide),
      State.inCharge_f w hs (by decide), State.servoTaken_f _ _ (by decide) (by decide) (by decide) (by decide), s.assumed_run w]
    rfl

theorem State.takeover_count : s.takeover.f TWN.COUNT.SWITCHES = counted s TWN.COUNT.SWITCHES
    ∧ s.takeover.f TWN.LASTSW.TRIGGER = w.trig % 16 := by
  constructor
  · rw [State.takeover_f w hw (by decide), State.noted_switches, counted, counted, State.inCharge_f w hs (by decide),
      State.servoTaken_f _ _ (by decide) (by decide) (by decide) (by decide), s.assumed_f w _ (by decide)]
  · rw [State.takeover_f w hw (by decide), State.noted_trigger]

theorem State.takeover_dep : s.takeover.f TWN.LASTSW.DEP = s.takeover.dep % 2 ^ TWN.LASTSW.DEP.wid := by
  have hview := s.takeover_entryView hs hw rfl
  have hcharge : (s.inCharge w).entryView = (s.assumed w).entryView := by
    unfold State.inCharge
    rw [State.toMode_entryView_of_standby _ (State.inCharge_standby w hs) (State.runMode_running _), State.servoTaken_entryView]
  have hdep : s.takeover.dep = (s.inCharge w).counts.dep := by
    have h1 := congrArg EntryView.raw hview
    have h2 := congrArg EntryView.vtOff hview
    have h3 := congrArg EntryView.period hview
    have k1 := congrArg EntryView.raw hcharge
    have k2 := congrArg EntryView.vtOff hcharge
    have k3 := congrArg EntryView.period hcharge
    have hcounts : (s.inCharge w).counts.dep = (s.inCharge w).dep := rfl
    rw [hcounts]
    exact (State.dep_congr h1 h2 h3).trans (State.dep_congr k1 k2 k3).symm
  rw [State.takeover_f w hw (by decide), State.noted_dep, hdep]

theorem State.takeover_srv :
    s.takeover.srv = if s.srvOn then (if s.on TBU.STS.REF_QUAL then srvAcquire else srvHoldover) else srvFree := by
  have hsrv : (s.assumed w).servoTaken.srv
      = if (s.assumed w).srvOn then (if (s.assumed w).on TBU.STS.REF_QUAL then srvAcquire else srvHoldover) else srvFree :=
    State.servoTaken_srv _
  have hon : (s.assumed w).srvOn = s.srvOn := by
    unfold State.srvOn State.on
    rw [s.assumed_f w _ (by decide)]
  have hqual : (s.assumed w).on TBU.STS.REF_QUAL = s.on TBU.STS.REF_QUAL := by
    unfold State.on
    rw [s.assumed_f w _ (by decide)]
  rw [hon, hqual] at hsrv
  rw [← hsrv]
  unfold State.srv
  rw [State.takeover_f w hw (by decide), State.noted_other _ _ _ (by decide) (by decide) (by decide), State.inCharge_f w hs (by decide)]

theorem State.takeover_signal : ∃ e, s.takeover.signals = s.signals ++ [e] ∧ e.kind = 7 := by
  obtain ⟨peer, heq⟩ := s.takeover_eq w hw
  obtain ⟨e, he, hkind⟩ := (s.handed w).tells_signals w peer
  have hnoted : (s.handed w).signals = (s.inCharge w).signals := (s.inCharge w).noted_signals w
  refine ⟨e, ?_, hkind⟩
  rw [heq, State.signals_of_handBook (State.takesUp_handBook _ w _), he, hnoted, State.inCharge_signals w hs]

omit hs hw in
/-- The entries taken up in their turn: one of the window ends aborted. -/
theorem State.takesUp_window (cons : List MirCns) (htrig : w.trig ≠ 3) (hamb : s.on TWN.CTL.AMBIG = false) {i : Nat}
    (hq : (s.slot i).st = .queued) (hin : inWindow w (s.slot i)) : (s.takesUp w cons).AbortedAt i := by
  have hab := State.takeEntries_window htrig (s.queuedSlots (fun _ => true)) s (s.mem_queuedSlots hq) hq hin hamb
  have hcons (t : State) (ms : List MirCns) : (ms.foldl (fun s m => s.takeConsist m) t).slots = t.slots := by
    refine t.foldl_keeps State.slots (fun t m => ?_) ms
    unfold State.takeConsist
    dsimp only
    split
    · rfl
    · split <;> rfl
  unfold State.takesUp
  generalize (s.queuedSlots (fun _ => true)).foldl (fun s i => s.takeEntry w i) s = e at hab
  obtain ⟨hst, hout⟩ := e.catchUp_fate i
  dsimp only
  generalize e.catchUp = u at hst hout
  have hslot (ms : List MirCns) (x : Dsp) : (ms.foldl (fun s m => s.takeConsist m) ({ u with dsp := x } : State)).slot i = u.slot i := by
    unfold State.slot
    rw [hcons]
  unfold State.AbortedAt
  rw [hslot, hst, hout]
  exact hab

omit hs hw in
theorem State.servoTaken_slots : (s.assumed w).servoTaken.slots = s.slots := by
  have h := congrArg State.slots (s.assumed w).servoTaken_frame
  exact h.trans (s.assumed_slots w)

omit hw in
theorem State.inCharge_slot {i : Nat} (hne : (s.slot i).st ≠ .active) : (s.inCharge w).slot i = s.slot i :=
  ((s.slotStays_of_slots (State.servoTaken_slots w) i).trans
    (State.slotStays_toMode_of_standby _ (State.inCharge_standby w hs) (State.runMode_running _) i)) hne

omit hw in
theorem State.handed_slot (peer : Nat) {i : Nat} (hne : (s.slot i).st ≠ .active) : ((s.handed w).tells w peer).slot i = s.slot i := by
  rw [State.slot_congr ((s.handed w).tells_slots w peer), s.handed_eq w, State.slot_congr ((s.inCharge w).noted_slots w),
    State.inCharge_slot w hs hne]

omit hw in
theorem State.handed_ambig (peer : Nat) : ((s.handed w).tells w peer).on TWN.CTL.AMBIG = s.on TWN.CTL.AMBIG := by
  rw [State.on_eq, State.tells_f _ _ _ (by decide), s.handed_eq w,
    State.noted_other _ _ _ (by decide) (by decide) (by decide), State.inCharge_f w hs (by decide),
    State.servoTaken_f _ _ (by decide) (by decide) (by decide) (by decide), s.assumed_f w _ (by decide), ← State.on_eq]

/-- An entry of the ambiguous window ends aborted (R360). -/
theorem State.takeover_window (htrig : w.trig ≠ 3) (hamb : s.on TWN.CTL.AMBIG = false) {i : Nat} (hq : (s.slot i).st = .queued)
    (hin : inWindow w (s.slot i)) : s.takeover.AbortedAt i := by
  obtain ⟨peer, heq⟩ := s.takeover_eq w hw
  have hslot := State.handed_slot w hs peer (i := i) (by rw [hq]; decide)
  rw [heq]
  exact State.takesUp_window w _ htrig (by rw [State.handed_ambig w hs, hamb]) (by rw [hslot, hq]) (by rw [hslot]; exact hin)

end

end Sys2Proof.Machine
end

section
/-! PROOFS. The switchover: the frame that commands it, the lines driven, the kill input, REJOIN, the abort of TWN (R358 to R365). -/

namespace Sys2Proof.Machine

set_option Elab.async false

variable (s : State)

/-! ### The frame that commands a switchover -/

theorem State.switchFrame_live (w : Nat) (ha : s.mode.alive = true) (hl : s.linked = true) (hst : s.twn.st.standby = true) :
    exec (.switchFrame w) s = .next (settle (s.trigger 3 w)) := by
  refine (s.twin_alive _ ha).trans ?_
  rw [hl, hst]
  rfl

theorem State.switchFrame_idle (w : Nat)
    (h : s.mode.alive = false ∨ s.linked = false ∨ s.twn.st.standby = false ∨ (s.twn.st = .ready ∧ s.twn.sw.isSome = true)) :
    exec (.switchFrame w) s = .next (settle s) := by
  cases ha : s.mode.alive with
  | false => exact s.twin_dead _ ha
  | true =>
    refine (s.twin_alive _ ha).trans ?_
    cases hl : s.linked with
    | false => rfl
    | true =>
      cases hst : s.twn.st.standby with
      | false => rfl
      | true =>
        obtain ⟨hr, hsw⟩ : s.twn.st = .ready ∧ s.twn.sw.isSome = true := by simpa [ha, hl, hst] using h
        have hbegun : s.swBegun 3 = true := by
          unfold State.swBegun
          split
          next hn => rw [hn] at hsw; cases hsw
          next => rfl
        rw [Bool.and_self, if_pos rfl, s.trigger_ready hr, if_pos hbegun]

theorem State.switchFrame_ready (w : Nat) (ha : s.mode.alive = true) (hl : s.linked = true) (hr : s.twn.st = .ready)
    (hsw : s.twn.sw = none) :
    exec (.switchFrame w) s = .next (settle { s with twn := { s.twn with sw := some { trig := 3, w := w, cv := s.twn.cv } } }) := by
  have hbegun : s.swBegun 3 = false := by
    unfold State.swBegun
    rw [hsw]
  rw [s.switchFrame_live w ha hl (by rw [hr]; rfl), s.trigger_ready hr, if_neg (by rw [hbegun]; exact Bool.false_ne_true)]
  rfl

/-! ### The lines driven -/

/-- The state after the lines are driven by switch `x` (R358). -/
def State.drives (x : Switch) : State :=
  ((s.advanceVt ((x.w + 10) * 64)).setF TWN.LASTSW.TRIGGER x.trig).onTwn fun y => { y with sw := some { x with driven := true }, killOut := true }

theorem State.switchDrive_done (h : ∀ x, s.twn.sw = some x → x.driven = true) : s.switchDrive = s := by
  unfold State.switchDrive
  split
  · rfl
  next w hw => rw [if_pos (h w hw)]

theorem State.switchDrive_waiting {x : Switch} (h : s.twn.sw = some x) (hd : x.driven = false) : s.switchDrive = s.drives x := by
  unfold State.switchDrive
  rw [h]
  dsimp only
  rw [hd]
  rfl

theorem State.drives_trigger (x : Switch) : (s.drives x).f TWN.LASTSW.TRIGGER = x.trig % 16 := by
  unfold State.drives
  rw [State.f_onTwn, State.f_setF_self _ _ _ _ (by decide)]
  rfl

theorem State.drives_regs (x : Switch) : RegsBut s (s.drives x) [TWN.LASTSW.TRIGGER.off] := by
  have h : RegsBut s (s.advanceVt ((x.w + 10) * 64)) [TWN.LASTSW.TRIGGER.off] := RegsBut.of_regs (RegsBut.refl s _) rfl
  exact (RegsBut.setF (g := TWN.LASTSW.TRIGGER) (i := 0) h (List.mem_singleton.mpr rfl)).of_regs rfl

theorem State.drives_twn (x : Switch) : (s.drives x).twn = { s.twn with sw := some { x with driven := true }, killOut := true } := rfl

theorem State.drives_frame (x : Switch) : ({ s.drives x with raw := s.raw, regs := s.regs, twn := s.twn } : State) = s := rfl

theorem State.drives_raw (x : Switch) : (s.drives x).raw = (s.advanceVt ((x.w + 10) * 64)).raw := rfl

/-! ### The takeover -/

theorem State.exec_takeover_other (h : s.mode ≠ .standby) : exec .switchoverTakeover s = .next (settle s) := by
  cases ha : s.mode.alive with
  | false => exact s.twin_dead _ ha
  | true =>
    refine (s.twin_alive _ ha).trans ?_
    rw [if_neg h]

theorem State.takeover_none (h : s.twn.sw = none) : s.takeover = s := by
  unfold State.takeover
  split
  · rfl
  next w hw => rw [h] at hw; cases hw

theorem State.slot_of_mem {e : Nat × Slot} (he : e ∈ s.slots) (hp : s.slots.Pairwise (fun a b => a.1 < b.1)) : s.slot e.1 = e.2 := by
  unfold State.slot
  generalize s.slots = m at he hp
  induction m with
  | nil => cases he
  | cons a m ih =>
    obtain ⟨i, v⟩ := a
    obtain ⟨hlt, hp⟩ := List.pairwise_cons.mp hp
    rcases List.mem_cons.mp he with rfl | hm
    · exact if_pos rfl
    · exact (if_neg (by have := hlt e hm; dsimp only at this; omega)).trans (ih hm hp)

/-! ### The kill input -/

/-- The kill input taken: it is held, and the dispatcher does not run. -/
def State.killed : State := (s.onTwn fun x => { x with killIn := true }).clr DSP.CTL.RUN

theorem State.killed_run : s.killed.on DSP.CTL.RUN = false := by
  unfold State.killed
  rw [State.on_eq, State.f_clr_eq, State.f_setF_self _ _ _ _ (by decide)]
  rfl

theorem State.killed_keeps : s.killed.mode = s.mode ∧ s.killed.pwr = s.pwr ∧ s.killed.twn = { s.twn with killIn := true } := ⟨rfl, rfl, rfl⟩

theorem State.exec_killInput (ha : s.mode.alive = true) :
    exec .killInput s = .next (settle (if s.twn.st = .primary then s.killed.depose else s.killed)) := by
  have hexec : exec .killInput s = .next (settle (if s.mode.alive then s.kill else s.onTwn fun x => { x with killIn := true })) := rfl
  rw [hexec, if_pos ha]
  rfl

/-- The PRIMARY's standing lost: nothing to mirror, NOT_READY, DEPOSED, HELLO (R361). -/
def State.deposes : State :=
  ((s.dropMirror.onTwn fun x => { x with
    st := .notReady, yieldAt := none, released := false, peerSt := .primary, copied := false, check := [] }).set1 TWN.IRQ_RAW.DEPOSED).sendHello

/-- To Standby, following the peer. -/
def State.follows : State := (s.preempt.toMode .standby).enterFollow

/-- What ends the PRIMARY's part, once it has left its mode. -/
def State.endsPrimary : State := if s.mode = .boot then s else s.deposes

theorem State.depose_eq : s.depose = (if s.mode = .halt then s.leaveBy State.follows else s.follows).endsPrimary := rfl

theorem State.depose_halted {p : Nat × Nat} (hm : s.mode = .halt) (hp : s.pwr.haltFault = some p) :
    s.depose = (({ s with pwr := { s.pwr with haltFault := none } } : State).act p 5).endsPrimary := by
  rw [s.depose_eq, if_pos hm]
  unfold State.leaveBy
  rw [hp]

theorem State.depose_follows (h : s.mode ≠ .halt ∨ s.pwr.haltFault = none) : s.depose = s.follows.endsPrimary := by
  rw [s.depose_eq]
  by_cases hm : s.mode = .halt
  · have hn : s.pwr.haltFault = none := h.resolve_left (fun hne => hne hm)
    rw [if_pos hm]
    unfold State.leaveBy
    rw [hn]
  · rw [if_neg hm]

theorem State.sendHello_twn : ∃ o, s.sendHello.twn = { s.twn with out := o } := by
  unfold State.sendHello State.send
  split
  · exact ⟨_, rfl⟩
  · exact ⟨s.twn.out, rfl⟩

theorem State.sendHello_mode : s.sendHello.mode = s.mode := by
  unfold State.sendHello State.send
  split <;> rfl

theorem State.f_sendHello (k : Fld) (j : Nat) : s.sendHello.f k j = s.f k j := by
  unfold State.sendHello State.send
  split <;> rfl

theorem State.deposes_twn : s.deposes.twn.st = .notReady ∧ s.deposes.twn.killIn = s.twn.killIn ∧ s.deposes.twn.queue = [] := by
  unfold State.deposes
  generalize hu : State.set1 _ TWN.IRQ_RAW.DEPOSED = u
  obtain ⟨o, ho⟩ := u.sendHello_twn
  rw [ho, ← hu, State.set1_twn]
  exact ⟨rfl, rfl, rfl⟩

theorem State.deposes_mode : s.deposes.mode = s.mode := by
  unfold State.deposes
  rw [State.sendHello_mode, State.set1_mode]
  rfl

theorem State.deposes_pwr : s.deposes.pwr = s.pwr := by
  unfold State.deposes
  rw [State.sendHello_pwr, State.set1_pwr]
  rfl

theorem State.deposes_irq : s.deposes.on TWN.IRQ_RAW.DEPOSED = true := by
  unfold State.deposes
  rw [State.on_sendHello]
  exact State.on_set1 _ _ _ (by decide) rfl

theorem State.deposes_f {k : Fld} (h : k.off ≠ TWN.IRQ_RAW.DEPOSED.off) : s.deposes.f k = s.f k := by
  unfold State.deposes
  rw [State.f_sendHello, State.f_set1_eq, State.f_setF_other _ _ _ 0 0 _ h, State.f_onTwn]
  rfl

theorem State.follows_mode : s.follows.mode = .standby := by
  unfold State.follows State.enterFollow
  exact s.preempt.mode_toMode .standby

theorem State.follows_killIn : s.follows.twn.killIn = s.twn.killIn := by
  have hkill : (s.preempt.toMode .standby).twn.killIn = s.preempt.twn.killIn := by
    by_cases h : s.preempt.mode = .standby
    · rw [← h, State.toMode_self]
    · exact (s.preempt.toMode_facts h).2.2.2.2
  unfold State.follows State.enterFollow
  rw [(State.onTwn_keeps _ _).2.2.2, ← s.preempt_twn, ← hkill]
  rfl

theorem State.follows_cmd : s.follows.pwr.cmd = none := by
  have hcmd : (s.preempt.toMode .standby).pwr.cmd = none := by
    by_cases h : s.preempt.mode = .standby
    · rw [← h, State.toMode_self, s.preempt_pwr]
    · have hp := congrArg Pwr.cmd (s.preempt.pwr_toMode h)
      rw [s.preempt_pwr] at hp
      exact hp
  exact hcmd

/-- A register that neither the servo's state nor a switchover's clock of TBU writes. -/
theorem State.enterFollow_f {k : Fld} (h : k.off ≠ TBU.STS.SRV_STATE.off) : s.enterFollow.f k = s.f k := by
  unfold State.enterFollow
  rw [State.f_onTwn]
  exact State.f_setF_other _ _ _ _ _ _ h

theorem State.enterFollow_srv : s.enterFollow.srv = srvFollow := by
  unfold State.srv State.enterFollow
  rw [State.f_onTwn]
  exact (State.f_setF_self _ _ _ _ (by decide)).trans (by decide)

theorem State.follows_run : s.follows.on DSP.CTL.RUN = s.on DSP.CTL.RUN := by
  unfold State.follows
  rw [State.on_eq, State.enterFollow_f _ (by decide), ← State.on_eq, State.toMode_run _ rfl, State.on_eq,
    State.preempt_f _ (by decide), ← State.on_eq]

theorem State.follows_result (h : s.pwr.cmd.isSome = true) : s.follows.f PWR.CMDSTS.RESULT = 2 := by
  unfold State.follows
  rw [State.enterFollow_f _ (by decide)]
  by_cases hm : s.preempt.mode = .standby
  · rw [← hm, State.toMode_self, s.preempt_result h]
  · rw [(s.preempt.toMode_facts hm).2.2.2.1 _ (by decide) (by decide), s.preempt_result h]

/-- The kill input of a PRIMARY in Debug-halt with a held reaction: the reaction is what comes (R361, R373). -/
theorem State.depose_reacts {p : Nat × Nat} (hm : s.mode = .halt) (hp : s.pwr.haltFault = some p) :
    s.depose.pwr.haltFault = none ∧ (p.1 = 2 → s.depose.mode = .boot)
      ∧ (p.1 ≠ 2 → s.depose.mode = .safe ∧ s.depose.twn.killIn = s.twn.killIn ∧ s.depose.on DSP.CTL.RUN = false
        ∧ s.depose.twn.st = .notReady ∧ s.depose.on TWN.IRQ_RAW.DEPOSED = true) := by
  rw [s.depose_halted hm hp]
  generalize hu : ({ s with pwr := { s.pwr with haltFault := none } } : State) = u
  have humode : u.mode = .halt := by rw [← hu]; exact hm
  have huhalt : u.pwr.haltFault = none := by rw [← hu]
  have hutwn : u.twn = s.twn := by rw [← hu]
  unfold State.act State.endsPrimary
  by_cases h2 : p.1 = 2
  · obtain ⟨hboot, hnone, -⟩ := u.warmRestart_facts p.2
    rw [if_pos h2, if_pos hboot]
    exact ⟨hnone, fun _ => hboot, fun hne => absurd h2 hne⟩
  · have hsafe : u.mode ≠ .safe := by rw [humode]; decide
    obtain ⟨hmode, -, -, -, -, hkill⟩ := u.enterSafe_facts 5 p.2 hsafe
    rw [if_neg h2, if_neg (by rw [hmode]; decide)]
    refine ⟨by rw [State.deposes_pwr, (u.enterSafe_pwr 5 p.2 hsafe).1, huhalt], fun h => absurd h h2, fun _ => ⟨?_, ?_, ?_, ?_, ?_⟩⟩
    · rw [State.deposes_mode, hmode]
    · rw [(State.deposes_twn _).2.1, hkill, hutwn]
    · rw [State.on_eq, State.deposes_f _ (by decide), ← State.on_eq, u.enterSafe_run 5 p.2 hsafe]
    · exact (State.deposes_twn _).1
    · exact State.deposes_irq _

/-- The kill input of a PRIMARY otherwise (R361). -/
theorem State.depose_facts (h : s.mode ≠ .halt ∨ s.pwr.haltFault = none) :
    (s.depose.twn.killIn = s.twn.killIn ∧ s.depose.on DSP.CTL.RUN = s.on DSP.CTL.RUN ∧ s.depose.twn.st = .notReady
      ∧ s.depose.mode = .standby ∧ s.depose.on TWN.IRQ_RAW.DEPOSED = true) ∧ s.depose.srv = srvFollow ∧ s.depose.twn.queue = []
      ∧ s.depose.pwr.cmd = none ∧ (s.pwr.cmd.isSome = true → s.depose.f PWR.CMDSTS.RESULT = 2) := by
  rw [s.depose_follows h]
  unfold State.endsPrimary
  rw [if_neg (by rw [s.follows_mode]; decide)]
  obtain ⟨hst, hkill, hqueue⟩ := s.follows.deposes_twn
  refine ⟨⟨by rw [hkill, s.follows_killIn], ?_, hst, by rw [State.deposes_mode, s.follows_mode], s.follows.deposes_irq⟩, ?_, hqueue, ?_,
    fun hc => ?_⟩
  · rw [State.on_eq, State.deposes_f _ (by decide), ← State.on_eq, s.follows_run]
  · have hsrv : s.follows.srv = srvFollow := State.enterFollow_srv _
    rw [← hsrv]
    exact State.deposes_f _ (by decide)
  · rw [State.deposes_pwr, s.follows_cmd]
  · rw [State.deposes_f _ (by decide), s.follows_result hc]

/-! ### The commands of TWN.CMD -/

theorem State.switchAt_eq {w : Nat} (hlater : ∀ v, s.twn.yieldAt = some v → s.cyc < v → w = v)
    (hnow : s.twn.yieldAt = none ∨ (∃ v, s.twn.yieldAt = some v ∧ v ≤ s.cyc) → w = (s.dep + 2) * s.dsp.period) : s.switchAt = w := by
  unfold State.switchAt
  split
  next v hv =>
    split
    next hlt => exact (hlater v hv hlt).symm
    next hge => exact (hnow (.inr ⟨v, hv, Nat.le_of_not_lt hge⟩)).symm
  next hn => exact (hnow (.inl hn)).symm

section
variable (r : Requester) {op : Nat}

/-- A command that its standing does not allow. -/
theorem State.twnCmd_mode (h1 : ¬(op = 1 ∧ s.twn.st = .primary ∧ s.twn.peerSt = .ready))
    (h2 : ¬(op = 2 ∧ s.twn.st = .notReady ∧ s.mode = .standby)) : s.twnCmd r op = s.discard TWN.CMD.OP.off r .mode :=
  if_pos ⟨h1, h2⟩

/-- A command that its maker's role does not allow. -/
theorem State.twnCmd_role (h : (op = 1 ∧ s.twn.st = .primary ∧ s.twn.peerSt = .ready) ∨ (op = 2 ∧ s.twn.st = .notReady ∧ s.mode = .standby))
    (hmay : s.hasRole r (if s.sealed TWN.page.base then .maker else .installer) = false) :
    s.twnCmd r op = s.discard TWN.CMD.OP.off r .role := by
  unfold State.twnCmd
  extract_lets a x y
  rw [if_neg fun hn => h.elim hn.1 hn.2, if_pos (by rw [hmay]; rfl)]

theorem State.twnCmd_switch (h1 : s.twn.st = .primary) (h2 : s.twn.peerSt = .ready)
    (hmay : s.hasRole r (if s.sealed TWN.page.base then .maker else .installer) = true) : s.twnCmd r 1
      = { s with twn := { s.twn with out := .switch s.switchAt :: s.twn.out, yieldAt := some s.switchAt, released := s.yielded } } := by
  have hsw : (1 : Nat) = 1 ∧ s.twn.st = .primary ∧ s.twn.peerSt = .ready := ⟨rfl, h1, h2⟩
  unfold State.twnCmd
  extract_lets a x y w
  rw [if_neg fun hn => hn.1 hsw, if_neg (by rw [hmay]; exact Bool.false_ne_true), if_pos hsw]
  rfl

theorem State.twnCmd_rejoin (h1 : s.twn.st = .notReady) (h2 : s.mode = .standby)
    (hmay : s.hasRole r (if s.sealed TWN.page.base then .maker else .installer) = true) : s.twnCmd r 2 = s.enterJoining := by
  unfold State.twnCmd
  extract_lets a x y w
  rw [if_neg fun hn => hn.2 ⟨rfl, h1, h2⟩, if_neg (by rw [hmay]; exact Bool.false_ne_true), if_neg fun hn => absurd hn.1 (by decide)]
end

theorem State.shDropStart_mode (n out : Nat) : (s.shDropStart n out).mode = s.mode := by
  unfold State.shDropStart
  dsimp only
  split
  · rfl
  · exact (State.setShunter_mode _ _ _).trans (s.acted_mode _ out)

theorem State.withdraw_mode (i out : Nat) : (s.withdraw i out).mode = s.mode := by
  have hstart (t : State) (n : Nat) : (t.ruDropStart n out).mode = t.mode := State.mode_of_pwrBook (t.ruDropStart_pwrBook (r := false) n out)
  have hstop (t : State) (n : Nat) : (t.ruDropStop n out).mode = t.mode := State.mode_of_pwrBook (t.ruDropStop_pwrBook (r := false) n out)
  unfold State.withdraw
  simp [apply_ite State.mode, State.trkDrop, State.promote, State.shDropStart_mode, hstart, hstop]

/-- A device that rejoins: JOINING, its timetable empty, following the peer (R364). -/
def State.joins : State := s.emptySlots.enterFollow.onTwn fun x => { x with
  st := .joining, aligned := false, copied := false, check := [], differ := 0, agree := 0, cv := 0, rxSeq := 0
  cons := [], sw := none, yieldAt := none, released := false }

theorem State.enterJoining_of_standby (h : s.mode = .standby) : s.enterJoining = s.joins.sendHello := by
  unfold State.enterJoining
  rw [← h, State.toMode_self]
  rfl

theorem State.sendHello_slots : s.sendHello.slots = s.slots := by
  unfold State.sendHello State.send
  split <;> rfl

theorem State.emptySlots_mode : s.emptySlots.mode = s.mode := by
  unfold State.emptySlots
  exact s.foldl_keeps State.mode (fun t i => t.withdraw_mode i outCancelled) _

theorem State.joins_facts : s.joins.twn.st = .joining ∧ s.joins.slots = [] ∧ s.joins.twn.copied = false ∧ s.joins.twn.lock = false :=
  ⟨rfl, rfl, rfl, rfl⟩

theorem State.enterJoining_facts (h : s.mode = .standby) : s.enterJoining.twn.st = .joining ∧ s.enterJoining.mode = .standby
    ∧ s.enterJoining.slots = [] ∧ s.enterJoining.srv = srvFollow ∧ s.enterJoining.twn.copied = false ∧ s.enterJoining.twn.lock = false := by
  obtain ⟨hst, hslots, hcopied, hlock⟩ := s.joins_facts
  obtain ⟨o, ho⟩ := s.joins.sendHello_twn
  have hsrv : s.joins.srv = srvFollow := s.emptySlots.enterFollow_srv
  rw [s.enterJoining_of_standby h, ho]
  refine ⟨hst, ?_, ?_, ?_, hcopied, hlock⟩
  · rw [State.sendHello_mode, ← h, ← s.emptySlots_mode]; rfl
  · rw [State.sendHello_slots, hslots]
  · rw [← hsrv]; exact State.f_sendHello _ _ _

/-! ### The abort of TWN (R316) -/

/-- What the release of everything `id` holds does to one register. -/
def State.releasedOf (id : Nat) (e : Nat × Word) : State := if holderReg e.1 = true ∧ s.holderAt e.1 = id then s.holderFreed e else s

theorem State.releaseAll_eq (id : Nat) : s.releaseAll id = s.regs.foldl (State.releasedOf · id) s := by
  unfold State.releaseAll
  congr 1
  funext t e
  unfold State.releasedOf State.holderFreed
  by_cases h : holderReg e.1 = true ∧ t.holderAt e.1 = id
  · rw [if_pos h, if_pos h, if_pos h.1]
  · rw [if_neg h, if_neg h]

theorem State.holderAt_freed (e : Nat × Word) (a : Nat) (he : holderReg e.1 = true) :
    (s.holderFreed e).holderAt a = if e.1 = a then 0 else s.holderAt a := by
  unfold State.holderFreed
  dsimp only
  rw [if_pos he]
  by_cases hea : e.1 = a
  · subst hea
    rw [if_pos rfl]
    split
    · have hset := s.holderAt_setHolder e.1 0 0
      unfold State.holderAt at hset ⊢
      rw [State.reg_setReg, if_pos rfl, word_toNat_putBits _ _ _ _ (by decide), bitsAt_putBits_below _ _ _ _ _ _ (by decide)]
      exact hset
    · exact s.holderAt_setHolder e.1 0 0
  · rw [if_neg hea]
    split
    · rw [State.holderAt, State.reg_setReg_ne _ _ _ _ (Ne.symm hea)]
      exact s.holderAt_setHolder_ne e.1 a 0 0 (Ne.symm hea)
    · exact s.holderAt_setHolder_ne e.1 a 0 0 (Ne.symm hea)

theorem State.holderAt_releasedOf (id : Nat) (e : Nat × Word) (a : Nat) :
    (s.releasedOf id e).holderAt a = if e.1 = a ∧ holderReg a = true ∧ s.holderAt a = id then 0 else s.holderAt a := by
  unfold State.releasedOf
  by_cases hea : e.1 = a
  · subst hea
    by_cases h : holderReg e.1 = true ∧ s.holderAt e.1 = id
    · rw [if_pos h, if_pos ⟨rfl, h⟩, s.holderAt_freed e _ h.1, if_pos rfl]
    · rw [if_neg h, if_neg fun hn => h hn.2]
  · rw [if_neg (c := e.1 = a ∧ _) fun hn => hea hn.1]
    split
    next h => rw [s.holderAt_freed e _ h.1, if_neg hea]
    next => rfl

/-- A register that `id` holds, and is among those released, has no holder after it. -/
theorem State.holderAt_released {id a : Nat} (ha : holderReg a = true) : ∀ (es : List (Nat × Word)) (s : State),
    s.holderAt a = 0 ∨ (s.holderAt a = id ∧ a ∈ es.map Prod.fst) → (es.foldl (State.releasedOf · id) s).holderAt a = 0
  | [], _, h => h.elim (fun h => h) fun hn => nomatch hn.2
  | e :: es, s, h => by
    refine State.holderAt_released ha es _ ?_
    rw [s.holderAt_releasedOf id e a]
    split
    · exact .inl rfl
    next hn =>
      rcases h with h | ⟨hid, hm⟩
      · exact .inl h
      · rcases List.mem_cons.mp hm with rfl | hm
        · exact absurd ⟨rfl, ha, hid⟩ hn
        · exact .inr ⟨hid, hm⟩

theorem State.releaseAll_holder (id : Nat) (e : Nat × Word) (he : e ∈ s.regs) (ha : holderReg e.1 = true) (hid : s.holderAt e.1 = id) :
    (s.releaseAll id).holderAt e.1 = 0 := by
  rw [s.releaseAll_eq]
  exact State.holderAt_released ha s.regs s (.inr ⟨hid, List.mem_map_of_mem he⟩)

theorem State.releasedOf_regs (id : Nat) (e : Nat × Word) : ∃ m, s.releasedOf id e = { s with regs := m } := by
  unfold State.releasedOf State.holderFreed
  dsimp only
  split
  · split
    · split
      · exact ⟨_, rfl⟩
      · exact ⟨_, rfl⟩
    · exact ⟨s.regs, rfl⟩
  · exact ⟨s.regs, rfl⟩

theorem State.releasedAll_regs (id : Nat) : ∀ (es : List (Nat × Word)) (s : State), ∃ m, es.foldl (State.releasedOf · id) s = { s with regs := m }
  | [], s => ⟨s.regs, rfl⟩
  | e :: es, s => by
    obtain ⟨m, hm⟩ := s.releasedOf_regs id e
    obtain ⟨n, hn⟩ := State.releasedAll_regs id es (s.releasedOf id e)
    refine ⟨n, hn.trans ?_⟩
    rw [hm]

theorem State.releaseAll_regs (id : Nat) : ∃ m, s.releaseAll id = { s with regs := m } := by
  rw [s.releaseAll_eq]
  exact State.releasedAll_regs id s.regs s

/-- A register that holds no holder stays. -/
theorem State.releaseAll_reg (id : Nat) {a : Nat} (ha : holderReg a = false) : (s.releaseAll id).reg a = s.reg a := by
  have hne {b : Nat} (hb : holderReg b = true) : a ≠ b := fun h => by rw [h, hb] at ha; cases ha
  rw [s.releaseAll_eq]
  refine s.foldl_keeps (State.reg · a) (fun t e => ?_) s.regs
  unfold State.releasedOf State.holderFreed State.setHolder
  dsimp only
  split
  next h =>
    rw [if_pos h.1]
    split
    · rw [State.reg_setReg_ne _ _ _ _ (hne h.1), State.reg_setReg_ne _ _ _ _ (hne h.1)]
    · rw [State.reg_setReg_ne _ _ _ _ (hne h.1)]
  next => rfl

/-- What the twin holds, released. -/
def State.twnFreed : State := s.releaseAll Requester.twn.id

theorem State.twnFreed_regs : ∃ m, s.twnFreed = { s with regs := m } := s.releaseAll_regs _

theorem State.twnFreed_linked : s.twnFreed.linked = s.linked := by
  obtain ⟨m, hm⟩ := s.twnFreed_regs
  have htwn : s.twnFreed.twn = s.twn := by rw [hm]
  have hreg : s.twnFreed.reg (TWN.CTL.EN.off + 0) = s.reg (TWN.CTL.EN.off + 0) := s.releaseAll_reg _ (by decide)
  unfold State.linked State.on State.f
  rw [hreg, htwn]

/-- The books of the mirror emptied by an abort of a PRIMARY. -/
def State.unmirrored : State := s.onTwn fun x => { x with queue := [], unacked := [], toRing := [] }

theorem State.twnAbort_primary (h : s.twn.st = .primary) :
    s.twnAbort = if s.linked then s.twnFreed.unmirrored.finalHb else s.twnFreed.unmirrored := by
  obtain ⟨m, hm⟩ := s.twnFreed_regs
  have hst : s.twnFreed.twn.st = .primary := by rw [hm]; exact h
  have hlinked : s.twnFreed.unmirrored.linked = s.linked := s.twnFreed_linked
  have hab : s.twnAbort = if s.twnFreed.twn.st = .primary then
    (if s.twnFreed.unmirrored.linked then s.twnFreed.unmirrored.finalHb else s.twnFreed.unmirrored) else s.twnFreed.notReady := rfl
  rw [hab, if_pos hst, hlinked]

theorem State.twnAbort_other (h : s.twn.st ≠ .primary) : s.twnAbort = s.twnFreed.notReady := by
  obtain ⟨m, hm⟩ := s.twnFreed_regs
  have hst : s.twnFreed.twn.st ≠ .primary := by rw [hm]; exact h
  have hab : s.twnAbort = if s.twnFreed.twn.st = .primary then
    (if s.twnFreed.unmirrored.linked then s.twnFreed.unmirrored.finalHb else s.twnFreed.unmirrored) else s.twnFreed.notReady := rfl
  rw [hab, if_neg hst]

/-- After an abort of a PRIMARY: the twin's books but those of the mirror, and what was sent. -/
theorem State.twnAbort_primary_facts (h : s.twn.st = .primary) :
    s.twnAbort.regs = s.twnFreed.regs ∧ { s.twnAbort with regs := s.regs, twn := s.twn } = s
      ∧ (s.twnAbort.twn.queue = [] ∧ s.twnAbort.twn.unacked = [] ∧ s.twnAbort.twn.toRing = [] ∧ s.twnAbort.twn.st = .primary
        ∧ s.twnAbort.twn.expect = s.twn.expect ∧ s.twnAbort.twn.txAt = s.twn.txAt)
      ∧ (s.linked = true → ∃ b, s.twnAbort.twn.out = .heartbeat b :: s.twn.out ∧ b.rseq = rseqNever ∧ b.seq = s.twn.txSeq)
      ∧ (s.linked = false → s.twnAbort.twn.out = s.twn.out) := by
  rw [s.twnAbort_primary h]
  obtain ⟨m, hm⟩ := s.twnFreed_regs
  rw [hm]
  cases hl : s.linked with
  | true =>
    rw [if_pos rfl]
    exact ⟨rfl, rfl, ⟨rfl, rfl, rfl, h, rfl, rfl⟩, fun _ => ⟨_, rfl, rfl, rfl⟩, fun hn => nomatch hn⟩
  | false =>
    rw [if_neg Bool.false_ne_true]
    exact ⟨rfl, rfl, ⟨rfl, rfl, rfl, h, rfl, rfl⟩, (fun hn => nomatch hn), fun _ => rfl⟩

theorem State.notReady_keeps_holder {a : Nat} (ha : holderReg a = true) : s.notReady.holderAt a = s.holderAt a := by
  have hsend (t : State) : t.sendHello.holderAt a = t.holderAt a := by
    unfold State.sendHello State.send
    split <;> rfl
  have hne : a ≠ TWN.IRQ_RAW.NOT_READY.off + 0 := fun h => by rw [h] at ha; exact absurd ha (by decide)
  unfold State.notReady
  split
  · rw [hsend]
    exact State.holderAt_congr _ (State.reg_setReg_ne _ _ _ _ hne)
  · rfl

theorem State.holderAt_of_regs {t : State} (h : t.regs = s.regs) (a : Nat) : t.holderAt a = s.holderAt a := by
  unfold State.holderAt State.reg
  rw [h]

theorem State.twnFreed_holder (e : Nat × Word) (he : e ∈ s.regs) (ha : holderReg e.1 = true) (hid : s.holderAt e.1 = 0x21) :
    s.twnFreed.holderAt e.1 = 0 := s.releaseAll_holder _ e he ha hid

theorem State.twnAbort_standby_facts (h : s.twn.st = .ready ∨ s.twn.st = .joining) :
    s.twnAbort.twn.st = .notReady ∧ s.twnAbort.on TWN.IRQ_RAW.NOT_READY = true ∧ s.twnAbort.twn.linkUp = s.twn.linkUp := by
  obtain ⟨m, hm⟩ := s.twnFreed_regs
  have hst : s.twnFreed.twn.st = .joining ∨ s.twnFreed.twn.st = .ready := by rw [hm]; exact h.symm
  have hlink : s.twnFreed.twn.linkUp = s.twn.linkUp := by rw [hm]
  rw [s.twnAbort_other (by rcases h with h | h <;> rw [h] <;> decide)]
  obtain ⟨hnot, hirq⟩ := s.twnFreed.notReady_standby hst
  obtain ⟨o, ho⟩ := s.twnFreed.notReady_twn hst
  exact ⟨hnot, hirq, by rw [ho]; exact hlink⟩

theorem State.twnAbort_alone (h : s.twn.st = .solo ∨ s.twn.st = .notReady) : s.twnAbort = s.twnFreed := by
  obtain ⟨m, hm⟩ := s.twnFreed_regs
  have hst : ¬(s.twnFreed.twn.st = .joining ∨ s.twnFreed.twn.st = .ready) := by
    rw [hm]
    rcases h with h | h <;> simp [h]
  rw [s.twnAbort_other (by rcases h with h | h <;> rw [h] <;> decide)]
  unfold State.notReady
  rw [if_neg hst]

theorem State.exec_twnAbort (h : s.aborting TWN.page.base = true) : exec .twnAbort s = .next (settle s.twnAbort) := by
  have hexec : exec .twnAbort s = .next (settle (if s.aborting TWN.page.base then s.twnAbort else s)) := rfl
  rw [hexec, if_pos h]

end Sys2Proof.Machine
end

section
open Sys2Proof Sys2Proof.Machine

theorem switchover_frame (s : State) (w : Nat) :
    (s.mode.alive = false ∨ s.linked = false ∨ s.twn.st.standby = false ∨ (s.twn.st = .ready ∧ s.twn.sw.isSome = true) →
      exec (.switchFrame w) s = .next (settle s))
    ∧ (s.mode.alive = true → s.linked = true → s.twn.st = .ready → s.twn.sw = none →
      exec (.switchFrame w) s = .next (settle { s with twn := { s.twn with sw := some { trig := 3, w := w, cv := s.twn.cv } } }))
    ∧ (s.mode.alive = true → s.linked = true → s.twn.st = .joining ∨ s.twn.st = .notReady →
      ∃ t : State, exec (.switchFrame w) s = .next (settle t) ∧ t.on TWN.IRQ_RAW.PEER_LOST = true
        ∧ t.pwr.faults = s.pwr.faults ++ [10] ∧ t.twn = s.twn ∧ t.mode = s.mode) := by
  refine ⟨s.switchFrame_idle w, s.switchFrame_ready w, fun ha hl hst => ?_⟩
  have hstandby : s.twn.st.standby = true := by rcases hst with h | h <;> rw [h] <;> rfl
  refine ⟨s.peerLost, ?_, s.on_peerLost, s.peerLost_faults, s.peerLost_twn, ?_⟩
  · rw [s.switchFrame_live w ha hl hstandby, s.trigger_standby hst]
  · unfold State.peerLost
    rw [State.fault_mode, State.set1_mode]

theorem switchover_none (s : State) (h : s.twn.sw = none) :
    exec .switchoverDrive s = .next (settle s) ∧ exec .switchoverTakeover s = .next (settle s) := by
  constructor
  · cases ha : s.mode.alive with
    | false => exact s.twin_dead _ ha
    | true =>
      refine (s.twin_alive _ ha).trans ?_
      rw [s.switchDrive_done fun x hx => by rw [h] at hx; cases hx]
  · by_cases hm : s.mode = .standby
    · rw [exec_switchoverTakeover_of_standby s hm, s.takeover_none h]
    · exact s.exec_takeover_other hm

theorem switchover_drive (s : State) (x : Switch) (hx : s.twn.sw = some x) :
    (s.mode.alive = false ∨ x.driven = true → exec .switchoverDrive s = .next (settle s))
    ∧ (s.mode.alive = true → x.driven = false →
      ∃ t : State, exec .switchoverDrive s = .next (settle t) ∧ t.raw = (s.advanceVt ((x.w + 10) * 64)).raw
        ∧ t.twn = { s.twn with sw := some { x with driven := true }, killOut := true }
        ∧ t.f TWN.LASTSW.TRIGGER = x.trig % 16 ∧ RegsBut s t [TWN.LASTSW.TRIGGER.off]
        ∧ { t with raw := s.raw, regs := s.regs, twn := s.twn } = s) := by
  refine ⟨fun h => ?_, fun ha hd => ⟨s.drives x, ?_, s.drives_raw x, s.drives_twn x, s.drives_trigger x, s.drives_regs x, s.drives_frame x⟩⟩
  · cases ha : s.mode.alive with
    | false => exact s.twin_dead _ ha
    | true =>
      have hd : x.driven = true := h.resolve_left fun hn => by rw [ha] at hn; cases hn
      refine (s.twin_alive _ ha).trans ?_
      rw [s.switchDrive_done fun y hy => by rw [hx] at hy; cases hy; exact hd]
  · refine (s.twin_alive _ ha).trans ?_
    rw [s.switchDrive_waiting hx hd]

theorem switchover_takeover (s : State) (x : Switch) (hx : s.twn.sw = some x) (hm : s.mode = .standby) (lo : Nat) (hlo : lo = (x.cv - 1) * 64) :
    ∃ t : State, exec .switchoverTakeover s = .next (settle t) ∧ t.twn.st = .primary ∧ t.twn.sw = none ∧ t.twn.killOut = true
      ∧ t.on TWN.IRQ_RAW.TAKEOVER = true ∧ t.on DSP.CTL.RUN = true ∧ t.mode.running = true
      ∧ t.f TWN.COUNT.SWITCHES = counted s TWN.COUNT.SWITCHES ∧ t.f TWN.LASTSW.TRIGGER = x.trig % 16
      ∧ t.raw = (s.advanceVt (s.boundary ((x.w + 200 + s.dsp.period - 1) / s.dsp.period))).raw
      ∧ t.f TWN.LASTSW.DEP = t.dep % 2 ^ TWN.LASTSW.DEP.wid
      ∧ (s.srvOn = true → s.on TBU.STS.REF_QUAL = true → t.srv = srvAcquire)
      ∧ (s.srvOn = true → s.on TBU.STS.REF_QUAL = false → t.srv = srvHoldover)
      ∧ (s.srvOn = false → t.srv = srvFree)
      ∧ (∃ e, t.signals = s.signals ++ [e] ∧ e.kind = 7)
      ∧ (x.trig ≠ 3 → s.on TWN.CTL.AMBIG = false → ∀ e ∈ s.slots, e.2.st = .queued →
        ∀ u, (eAngle e.2.bits = false ∧ e.2.place ≠ .parked ∧ u = startOf e.2.bits)
          ∨ (eAngle e.2.bits = true ∧ e.2.place = .lane ∧ u = e.2.start) →
        lo ≤ u → u < (x.w + 10) * 64 → s.slots.Pairwise (fun a b => a.1 < b.1) →
        (t.slot e.1).st = .retiring ∧ (t.slot e.1).out = outAborted) := by
  obtain ⟨hst, hsw, hkill, hrunning, hraw⟩ := State.takeover_standing x hm hx
  obtain ⟨htake, hrun⟩ := State.takeover_irq x hm hx
  obtain ⟨hcount, htrig⟩ := State.takeover_count x hm hx
  have hsrv := State.takeover_srv x hm hx
  refine ⟨s.takeover, exec_switchoverTakeover_of_standby s hm, hst, hsw, hkill, htake, hrun, hrunning, hcount, htrig, hraw,
    State.takeover_dep x hm hx, fun hon hq => ?_, fun hon hq => ?_, fun hon => ?_, State.takeover_signal x hm hx, ?_⟩
  · rw [hsrv, if_pos hon, if_pos hq]
  · rw [hsrv, if_pos hon, if_neg (by rw [hq]; exact Bool.false_ne_true)]
  · rw [hsrv, if_neg (by rw [hon]; exact Bool.false_ne_true)]
  · intro hne hamb e he hq u hu hge hlt hp
    have hslot := s.slot_of_mem he hp
    exact State.takeover_window x hm hx hne hamb (by rw [hslot]; exact hq) ⟨u, by rw [hslot]; exact hu, hlo ▸ hge, hlt⟩

theorem switchover_kill (s : State) :
    (s.mode.alive = true → s.twn.st = .primary → ∀ p, s.mode = .halt → s.pwr.haltFault = some p →
      ∃ t : State, exec .killInput s = .next (settle t) ∧ t.pwr.haltFault = none
        ∧ (p.1 = 2 → t.mode = .boot)
        ∧ (p.1 ≠ 2 → t.mode = .safe ∧ t.twn.killIn = true ∧ t.on DSP.CTL.RUN = false ∧ t.twn.st = .notReady
          ∧ t.on TWN.IRQ_RAW.DEPOSED = true))
    ∧ (s.mode.alive = true → s.twn.st = .primary → s.mode ≠ .halt ∨ s.pwr.haltFault = none →
      ∃ t : State, exec .killInput s = .next (settle t) ∧ t.twn.killIn = true ∧ t.on DSP.CTL.RUN = false ∧ t.twn.st = .notReady
        ∧ t.mode = .standby ∧ t.on TWN.IRQ_RAW.DEPOSED = true ∧ t.srv = srvFollow ∧ t.twn.queue = [] ∧ t.pwr.cmd = none
        ∧ (s.pwr.cmd.isSome = true → t.f PWR.CMDSTS.RESULT = 2))
    ∧ (s.mode.alive = true → s.twn.st ≠ .primary →
      exec .killInput s = .next (settle (({ s with twn := { s.twn with killIn := true } } : State).clr DSP.CTL.RUN)))
    ∧ (s.mode.alive = false → exec .killInput s = .next (settle { s with twn := { s.twn with killIn := true } }))
    ∧ exec .killInputRelease s = .next (settle { s with twn := { s.twn with killIn := false } }) := by
  obtain ⟨hkmode, hkpwr, hktwn⟩ := s.killed_keeps
  have hkin : s.killed.twn.killIn = true := by rw [hktwn]
  refine ⟨fun ha hst p hm hp => ?_, fun ha hst h => ?_, fun ha hst => ?_, fun ha => ?_, rfl⟩
  · obtain ⟨hnone, hboot, hsafe⟩ := s.killed.depose_reacts (p := p) (by rw [hkmode, hm]) (by rw [hkpwr, hp])
    refine ⟨s.killed.depose, by rw [s.exec_killInput ha, if_pos hst], hnone, hboot, fun hne => ?_⟩
    obtain ⟨hmode, hkill, hrest⟩ := hsafe hne
    exact ⟨hmode, hkill.trans hkin, hrest⟩
  · obtain ⟨⟨hkill, hrun, hnot, hmode, hirq⟩, hsrv, hqueue, hcmd, hresult⟩ := s.killed.depose_facts (by rw [hkmode, hkpwr]; exact h)
    exact ⟨s.killed.depose, by rw [s.exec_killInput ha, if_pos hst], hkill.trans hkin, hrun.trans s.killed_run, hnot, hmode, hirq, hsrv,
      hqueue, hcmd, fun hc => hresult (by rw [hkpwr]; exact hc)⟩
  · rw [s.exec_killInput ha, if_neg hst]
    rfl
  · have hexec : exec .killInput s = .next (settle (if s.mode.alive then s.kill else s.onTwn fun x => { x with killIn := true })) := rfl
    rw [hexec, if_neg (by rw [ha]; exact Bool.false_ne_true)]
    rfl

theorem switchover_commands (s : State) (r : Requester) (ho : s.opens r TWN.CMD.OP.off = true)
    (sw : Bool) (hsw : sw = (decide (s.twn.st = .primary) && decide (s.twn.peerSt = .ready)))
    (rj : Bool) (hrj : rj = (decide (s.twn.st = .notReady) && decide (s.mode = .standby)))
    (may : Bool) (hmay : may = s.hasRole r (if s.sealed TWN.page.base then .maker else .installer)) :
    (may = true → sw = true → ∀ w, (∀ v, s.twn.yieldAt = some v → s.cyc < v → w = v)
        ∧ (s.twn.yieldAt = none ∨ (∃ v, s.twn.yieldAt = some v ∧ v ≤ s.cyc) → w = (s.dep + 2) * s.dsp.period) →
      exec (.twnSwitchCmd r) s = .next (settle { s with twn := { s.twn with
        out := .switch w :: s.twn.out, yieldAt := some w, released := s.yielded } }))
    ∧ (may = false → sw = true → exec (.twnSwitchCmd r) s = .next (settle (s.discard TWN.CMD.OP.off r .role)))
    ∧ (sw = false → exec (.twnSwitchCmd r) s = .next (settle (s.discard TWN.CMD.OP.off r .mode)))
    ∧ (may = true → rj = true →
      ∃ t : State, exec (.twnRejoin r) s = .next (settle t) ∧ t.twn.st = .joining ∧ t.mode = .standby ∧ t.slots = []
        ∧ t.srv = srvFollow ∧ t.twn.copied = false ∧ t.twn.lock = false)
    ∧ (may = false → rj = true → exec (.twnRejoin r) s = .next (settle (s.discard TWN.CMD.OP.off r .role)))
    ∧ (rj = false → exec (.twnRejoin r) s = .next (settle (s.discard TWN.CMD.OP.off r .mode))) := by
  have hswitch : exec (.twnSwitchCmd r) s = .next (settle (s.twnCmd r 1)) := write_opens s r _ _ ho
  have hrejoin : exec (.twnRejoin r) s = .next (settle (s.twnCmd r 2)) := write_opens s r _ _ ho
  have hpair : sw = true ↔ s.twn.st = .primary ∧ s.twn.peerSt = .ready := by rw [hsw]; simp
  have halone : rj = true ↔ s.twn.st = .notReady ∧ s.mode = .standby := by rw [hrj]; simp
  rw [hswitch, hrejoin]
  refine ⟨fun hm h w ⟨hlater, hnow⟩ => ?_, fun hm h => ?_, fun h => ?_, fun hm h => ?_, fun hm h => ?_, fun h => ?_⟩
  · obtain ⟨hst, hpeer⟩ := hpair.mp h
    rw [s.twnCmd_switch r hst hpeer (hmay ▸ hm), s.switchAt_eq hlater hnow]
  · rw [s.twnCmd_role r (.inl ⟨rfl, hpair.mp h⟩) (hmay ▸ hm)]
  · rw [s.twnCmd_mode r (fun hn => by rw [hpair.mpr hn.2] at h; cases h) (fun hn => absurd hn.1 (by decide))]
  · obtain ⟨hst, hmode⟩ := halone.mp h
    rw [s.twnCmd_rejoin r hst hmode (hmay ▸ hm)]
    exact ⟨s.enterJoining, rfl, s.enterJoining_facts hmode⟩
  · rw [s.twnCmd_role r (.inr ⟨rfl, halone.mp h⟩) (hmay ▸ hm)]
  · rw [s.twnCmd_mode r (fun hn => absurd hn.1 (by decide)) (fun hn => by rw [halone.mpr hn.2] at h; cases h)]

theorem switchover_abort (s : State) :
    (s.aborting TWN.page.base = true → s.twn.st = .primary →
      ∃ t : State, exec .twnAbort s = .next (settle t) ∧ t.twn.queue = [] ∧ t.twn.unacked = [] ∧ t.twn.toRing = []
        ∧ t.twn.st = .primary ∧ t.twn.expect = s.twn.expect ∧ t.twn.txAt = s.twn.txAt
        ∧ (s.linked = true → ∃ b, t.twn.out = .heartbeat b :: s.twn.out ∧ b.rseq = rseqNever ∧ b.seq = s.twn.txSeq)
        ∧ (s.linked = false → t.twn.out = s.twn.out)
        ∧ (∀ e ∈ s.regs, holderReg e.1 = true → s.holderAt e.1 = 0x21 → t.holderAt e.1 = 0)
        ∧ { t with regs := s.regs, twn := s.twn } = s)
    ∧ (s.aborting TWN.page.base = true → s.twn.st = .ready ∨ s.twn.st = .joining →
      ∃ t : State, exec .twnAbort s = .next (settle t) ∧ t.twn.st = .notReady ∧ t.on TWN.IRQ_RAW.NOT_READY = true
        ∧ t.twn.linkUp = s.twn.linkUp ∧ (∀ e ∈ s.regs, holderReg e.1 = true → s.holderAt e.1 = 0x21 → t.holderAt e.1 = 0))
    ∧ (s.aborting TWN.page.base = true → s.twn.st = .solo ∨ s.twn.st = .notReady →
      ∃ t : State, exec .twnAbort s = .next (settle t) ∧ { t with regs := s.regs } = s
        ∧ (∀ e ∈ s.regs, holderReg e.1 = true → s.holderAt e.1 = 0x21 → t.holderAt e.1 = 0))
    ∧ (s.aborting TWN.page.base = false → exec .twnAbort s = .next (settle s)) := by
  refine ⟨fun hab hst => ?_, fun hab hst => ?_, fun hab hst => ?_, fun hab => ?_⟩
  · obtain ⟨hregs, hframe, ⟨hq, hu, hr, hp, he, ht⟩, hlinked, hunlinked⟩ := s.twnAbort_primary_facts hst
    exact ⟨s.twnAbort, s.exec_twnAbort hab, hq, hu, hr, hp, he, ht, hlinked, hunlinked,
      fun e he ha hid => (State.holderAt_of_regs _ hregs _).trans (s.twnFreed_holder e he ha hid), hframe⟩
  · obtain ⟨hnot, hirq, hlink⟩ := s.twnAbort_standby_facts hst
    refine ⟨s.twnAbort, s.exec_twnAbort hab, hnot, hirq, hlink, fun e he ha hid => ?_⟩
    rw [s.twnAbort_other (by rcases hst with h | h <;> rw [h] <;> decide), State.notReady_keeps_holder _ ha]
    exact s.twnFreed_holder e he ha hid
  · obtain ⟨m, hm⟩ := s.twnFreed_regs
    refine ⟨s.twnFreed, by rw [s.exec_twnAbort hab, s.twnAbort_alone hst], ?_, fun e he ha hid => s.twnFreed_holder e he ha hid⟩
    rw [hm]
  · have hexec : exec .twnAbort s = .next (settle (if s.aborting TWN.page.base then s.twnAbort else s)) := rfl
    rw [hexec, if_neg (by rw [hab]; exact Bool.false_ne_true)]

/-- Settles O50: each command of a switchover, what it does on the device that it finds, and where it does nothing. -/
theorem switchover : Obligations.Switchover := by
  refine ⟨switchover_frame, fun s h => switchover_none s h, fun s x hx => ?_, switchover_kill,
    fun s r ho sw hsw rj hrj may hmay => switchover_commands s r ho sw hsw rj hrj may hmay, switchover_abort⟩
  obtain ⟨hidle, hdrive⟩ := switchover_drive s x hx
  exact ⟨hidle, hdrive, s.exec_takeover_other, fun hm lo hlo => switchover_takeover s x hx hm lo hlo⟩

end

section
/-! PROOFS. What a turntable's operations leave of it: its tooth, its times, its registers (R116, R121, R138). -/

namespace Sys2Proof.Machine

variable (s : State) {n : Nat}

/-- A turntable but for what the dispatcher's side, the gap found and the period ring change. -/
def Turntable.bare (x : Turntable) : Turntable := { x with behind := [], repred := [], ann := [], gap := none, ring := [] }

/-- A register of the turntables, but for the interrupts. -/
def ttnWord (a : Nat) : Bool := 0x130000 ≤ a && a < 0x140000 && a % 0x100 ≠ 0x10

/-- What the turntables' own operations follow: the clock, turntable `n` bare, the others whole. -/
def State.ttBook (n : Nat) : Nat × (Nat → Turntable) := (s.raw, fun j => if j = n then (s.turn j).bare else s.turn j)

/-- With it the turntables' registers, which what happens outside them leaves. -/
def State.ttFar (n : Nat) : (Nat × (Nat → Turntable)) × (Nat → Word) := (s.ttBook n, fun a => if ttnWord a then s.reg a else 0)

/-! ### Outside the turntables -/

theorem State.foldl_ttFar {α : Type} {f : State → α → State} (h : ∀ t a, (f t a).ttFar n = t.ttFar n) (l : List α) :
    (l.foldl f s).ttFar n = s.ttFar n := s.foldl_keeps (State.ttFar · n) h l

theorem State.setReg_ttFar {a : Nat} (v : Word) (h : ttnWord a = false) : (s.setReg a v).ttFar n = s.ttFar n := by
  have hreg : (fun b => if ttnWord b then (s.setReg a v).reg b else 0) = fun b => if ttnWord b then s.reg b else 0 := by
    funext b
    split
    next hb =>
      refine s.reg_setReg_ne a v b fun hba => ?_
      rw [hba, h] at hb
      cases hb
    next => rfl
  unfold State.ttFar
  rw [hreg]
  rfl

theorem State.withSeen_ttFar (w : Seen) : ({ s with seenNow := w } : State).ttFar n = s.ttFar n := rfl

/-- An interrupt of a track. -/
@[simp] theorem State.tirq_ttFar (t : Nat) {g : Fld} (h : g.off = 0x100010) : (s.tirq t g).ttFar n = s.ttFar n := by
  refine (State.withSeen_ttFar _ _).trans (s.setReg_ttFar _ ?_)
  unfold ttnWord trkAt
  rw [h]
  simp only [Bool.and_eq_false_iff, decide_eq_false_iff_not]
  omega

/-- An interrupt of a ruling unit. -/
@[simp] theorem State.ruIrq_ttFar (u : Nat) {g : Fld} (h : 0x140000 ≤ g.off) : (s.ruIrq u g).ttFar n = s.ttFar n := by
  refine (State.withSeen_ttFar _ _).trans (s.setReg_ttFar _ ?_)
  unfold ttnWord
  simp only [Bool.and_eq_false_iff, decide_eq_false_iff_not]
  omega

@[simp] theorem State.setTrack_ttFar (t : Nat) (x : Track) : (s.setTrack t x).ttFar n = s.ttFar n := rfl
@[simp] theorem State.setRuler_ttFar (u : Nat) (x : Ruler) : (s.setRuler u x).ttFar n = s.ttFar n := rfl
@[simp] theorem State.setShunter_ttFar (u : Nat) (x : Shunter) : (s.setShunter u x).ttFar n = s.ttFar n := rfl
@[simp] theorem State.setSqr_ttFar (q : Nat) (x : Sequencer) : (s.setSqr q x).ttFar n = s.ttFar n := rfl
@[simp] theorem State.setSlot_ttFar (i : Nat) (x : Slot) : (s.setSlot i x).ttFar n = s.ttFar n := rfl
@[simp] theorem State.withEng_ttFar (x : SMap Engine) : ({ s with eng := x } : State).ttFar n = s.ttFar n := rfl
@[simp] theorem State.hang_ttFar (i : Nat) (p : Place) (t b : Nat) : (s.hang i p t b).ttFar n = s.ttFar n := rfl
@[simp] theorem State.promote_ttFar (t : Nat) : (s.promote t).ttFar n = s.ttFar n := rfl
@[simp] theorem State.trkDrop_ttFar (t i : Nat) : (s.trkDrop t i).ttFar n = s.ttFar n := rfl

@[simp] theorem State.acted_ttFar (c : LoadSrc) (o : Nat) : (s.acted c o).ttFar n = s.ttFar n := by
  unfold State.acted
  cases c with
  | direct => rfl
  | slot i => dsimp only; split <;> rfl

@[simp] theorem State.ruDropStart_ttFar (u o : Nat) : (s.ruDropStart u o).ttFar n = s.ttFar n := by
  unfold State.ruDropStart; dsimp only; split <;> simp

@[simp] theorem State.ruDropStop_ttFar (u o : Nat) : (s.ruDropStop u o).ttFar n = s.ttFar n := by
  unfold State.ruDropStop; dsimp only; split <;> simp

@[simp] theorem State.shDropStart_ttFar (u o : Nat) : (s.shDropStart u o).ttFar n = s.ttFar n := by
  unfold State.shDropStart; dsimp only; split <;> simp

@[simp] theorem State.withdraw_ttFar (i o : Nat) : (s.withdraw i o).ttFar n = s.ttFar n := by
  simp only [State.withdraw, apply_ite (State.ttFar · n), State.withEng_ttFar, State.trkDrop_ttFar, State.ruDropStart_ttFar,
    State.ruDropStop_ttFar, State.shDropStart_ttFar, State.setSqr_ttFar, State.acted_ttFar, ite_self]

@[simp] theorem State.ttWithdraw_ttFar (i o : Nat) : (s.ttWithdraw i o).ttFar n = s.ttFar n := by
  simp [State.ttWithdraw, apply_ite (State.ttFar · n)]

theorem State.setTurn_ttFar {x : Turntable} (h : x.bare = (s.turn n).bare) : (s.setTurn n x).ttFar n = s.ttFar n := by
  have hturn : (fun j => if j = n then ((s.setTurn n x).turn j).bare else (s.setTurn n x).turn j)
      = fun j => if j = n then (s.turn j).bare else s.turn j := by
    funext j
    rw [s.turn_setTurn n j x]
    split
    next hj => rw [h, hj]
    next => rfl
  unfold State.ttFar State.ttBook
  rw [hturn]
  rfl

@[simp] theorem State.ttDrop_ttFar (o : Nat) : (s.ttDrop n o).ttFar n = s.ttFar n := by
  have hmoved (t : State) (is : List Nat) : (is.foldl (fun s i => s.ttWithdraw i o) t).ttFar n = t.ttFar n :=
    t.foldl_ttFar (fun t i => t.ttWithdraw_ttFar i o) is
  have hback (t : State) (is : List Nat) : (is.foldl (fun s i => s.hang i .wheel 0 0) t).ttFar n = t.ttFar n :=
    t.foldl_ttFar (fun t i => t.hang_ttFar i .wheel 0 0) is
  unfold State.ttDrop
  extract_lets moved back t u
  have hu : u.ttFar n = s.ttFar n := (hback t back).trans (hmoved s moved)
  clear_value u
  refine Eq.trans (u.setTurn_ttFar ?_) hu
  rfl

@[simp] theorem State.ruStopAt_ttFar (u t : Nat) : (s.ruStopAt u t).ttFar n = s.ttFar n := by
  have hhard : (s.ruStopHard u t).ttFar n = s.ttFar n := by
    unfold State.ruStopHard
    dsimp only
    split
    · rfl
    · exact (State.setRuler_ttFar _ _ _).trans (s.ruIrq_ttFar u (by decide))
  have hsoft : (s.ruStopSoft u t).ttFar n = s.ttFar n := by
    unfold State.ruStopSoft
    dsimp only
    split
    · rfl
    · simp only [apply_ite (State.ttFar · n), State.setRuler_ttFar, ite_self]
  unfold State.ruStopAt
  split
  · exact hhard
  · exact hsoft

@[simp] theorem State.cutStarted_ttFar (m : Nat) : (s.cutStarted m).ttFar n = s.ttFar n := by
  unfold State.cutStarted
  dsimp only
  refine (State.foldl_ttFar _ (fun t u => ?_) _).trans (State.foldl_ttFar _ (fun t k => ?_) _)
  · split
    · split
      · unfold State.ruStopped
        rw [State.ruStopAt_ttFar, apply_ite (State.ttFar · n), State.ruDropStart_ttFar, ite_self]
      · rfl
    · rfl
  · split
    · split
      · rw [apply_ite (State.ttFar · n), State.promote_ttFar, State.tirq_ttFar _ _ rfl, ite_self, State.setTrack_ttFar]
      · rfl
    · rfl

@[simp] theorem State.linkTooth_ttFar (c u : Nat) : (s.linkTooth c u).ttFar n = s.ttFar n := by
  refine s.foldl_ttFar (fun t k => ?_) _
  dsimp only
  rw [State.setTrack_ttFar]
  unfold State.linkDelay
  dsimp only
  split
  · exact t.tirq_ttFar k rfl
  · rfl

/-! ### Within the turntables -/

theorem State.ttBook_of_far {t : State} (h : t.ttFar n = s.ttFar n) : t.ttBook n = s.ttBook n := congrArg Prod.fst h

theorem State.reg_of_far {t : State} (h : t.ttFar n = s.ttFar n) {a : Nat} (ha : ttnWord a = true) : t.reg a = s.reg a := by
  have hreg := congrFun (congrArg Prod.snd h) a
  dsimp only [State.ttFar] at hreg
  rwa [if_pos ha, if_pos ha] at hreg

theorem State.ttF_of_far {t : State} (h : t.ttFar n = s.ttFar n) {g : Fld} {m : Nat} (ha : ttnWord (g.off + pgAt m) = true) :
    t.ttF m g = s.ttF m g := by
  unfold State.ttF State.f
  rw [State.reg_of_far s h ha]

theorem State.raw_of_ttBook {t : State} (h : t.ttBook n = s.ttBook n) : t.raw = s.raw := congrArg Prod.fst h

theorem State.turn_of_ttBook {t : State} (h : t.ttBook n = s.ttBook n) : (t.turn n).bare = (s.turn n).bare := by
  have hturn := congrFun (congrArg Prod.snd h) n
  dsimp only [State.ttBook] at hturn
  rwa [if_pos rfl, if_pos rfl] at hturn

theorem State.other_of_ttBook {t : State} (h : t.ttBook n = s.ttBook n) {j : Nat} (hj : j ≠ n) : t.turn j = s.turn j := by
  have hturn := congrFun (congrArg Prod.snd h) j
  dsimp only [State.ttBook] at hturn
  rwa [if_neg hj, if_neg hj] at hturn

@[simp] theorem State.setF_ttBook (g : Fld) (v i : Nat) : (s.setF g v i).ttBook n = s.ttBook n := rfl
@[simp] theorem State.set1_ttBook (g : Fld) (i : Nat) : (s.set1 g i).ttBook n = s.ttBook n := rfl
@[simp] theorem State.clr_ttBook (g : Fld) (i : Nat) : (s.clr g i).ttBook n = s.ttBook n := rfl
@[simp] theorem State.bump_ttBook (g : Fld) (m i : Nat) : (s.bump g m i).ttBook n = s.ttBook n := rfl
@[simp] theorem State.setReg_ttBook (a : Nat) (v : Word) : (s.setReg a v).ttBook n = s.ttBook n := rfl
@[simp] theorem State.signal_ttBook (k i g u : Nat) : (s.signal k i g u).ttBook n = s.ttBook n := rfl
@[simp] theorem State.setTtState_ttBook (m st : Nat) : (s.setTtState m st).ttBook n = s.ttBook n := rfl

@[simp] theorem State.ttDrop_ttBook (o : Nat) : (s.ttDrop n o).ttBook n = s.ttBook n := State.ttBook_of_far s (s.ttDrop_ttFar o)

@[simp] theorem State.linkTooth_ttBook (c u : Nat) : (s.linkTooth c u).ttBook n = s.ttBook n := State.ttBook_of_far s (s.linkTooth_ttFar c u)

theorem State.setTurn_ttBook {x : Turntable} (h : x.bare = (s.turn n).bare) : (s.setTurn n x).ttBook n = s.ttBook n :=
  State.ttBook_of_far s (s.setTurn_ttFar h)

@[simp] theorem State.ttRaise_ttBook (m b : Nat) : (s.ttRaise m b).ttBook n = s.ttBook n := by
  unfold State.ttRaise
  split <;> rfl

@[simp] theorem State.ringPut_ttBook (iv : Nat) (g : Bool) : (s.ringPut n iv g).ttBook n = s.ttBook n := by
  have hecc (t : State) (a b c : Nat) : (t.setEcc a b c).ttBook n = t.ttBook n := rfl
  have htouch (t : State) (k : Nat) : (t.touch k).ttBook n = t.ttBook n := rfl
  have hincr (t : State) (g : Fld) (i : Nat) : (t.incr g i).ttBook n = t.ttBook n := rfl
  unfold State.ringPut
  split
  · rfl
  · dsimp only
    rw [State.setF_ttBook, apply_ite (State.ttBook · n), hincr, ite_self, hecc, htouch]
    refine s.setTurn_ttBook ?_
    rfl

/-- A sync error counted: no clean stop is kept (R119). -/
def State.syncCounted (n : Nat) : State := (s.bump TTN.CNT_EVT.HI 1 (pgAt n)).clr TTN.KS_ANGLE.STOP_CLEAN (pgAt n)

/-- No gap stands as the last one found. -/
def State.gapless (n : Nat) : State := s.setTurn n { s.turn n with gap := none }

theorem State.syncError_provisional (h : s.ttState n = ttProvisional) : s.syncError n
    = (((((s.syncCounted n).setTtState n ttHunting).clr TTN.STS.QS (pgAt n)).gapless n).ttDrop n outDiscarded,
      irqBit TTN.IRQ_RAW.SYNC_ERR + if (s.syncCounted n).ttOn n TTN.STS.QS then irqBit TTN.IRQ_RAW.QS_FAIL else 0) := by
  unfold State.syncError State.syncCounted State.gapless
  dsimp only
  rw [if_pos h]

theorem State.syncError_synced (h : s.ttState n = ttSynced) : s.syncError n
    = ((((s.syncCounted n).gapless n).setTtState n ttLost).ttDrop n outDiscarded,
      irqBit TTN.IRQ_RAW.SYNC_ERR + irqBit TTN.IRQ_RAW.LOST) := by
  unfold State.syncError State.syncCounted State.gapless
  dsimp only
  rw [if_neg (by rw [h]; decide), if_pos h]

theorem State.syncError_other (h1 : s.ttState n ≠ ttProvisional) (h2 : s.ttState n ≠ ttSynced) :
    s.syncError n = (s.syncCounted n, irqBit TTN.IRQ_RAW.SYNC_ERR) := by
  unfold State.syncError State.syncCounted
  dsimp only
  rw [if_neg h1, if_neg h2]

@[simp] theorem State.syncCounted_ttBook : (s.syncCounted n).ttBook n = s.ttBook n := by
  unfold State.syncCounted
  rw [State.clr_ttBook, State.bump_ttBook]

@[simp] theorem State.gapless_ttBook : (s.gapless n).ttBook n = s.ttBook n := by
  unfold State.gapless
  refine s.setTurn_ttBook ?_
  rfl

@[simp] theorem State.syncError_ttBook : (s.syncError n).1.ttBook n = s.ttBook n := by
  by_cases h1 : s.ttState n = ttProvisional
  · rw [s.syncError_provisional h1, State.ttDrop_ttBook, State.gapless_ttBook, State.clr_ttBook, State.setTtState_ttBook,
      State.syncCounted_ttBook]
  · by_cases h2 : s.ttState n = ttSynced
    · rw [s.syncError_synced h2, State.ttDrop_ttBook, State.setTtState_ttBook, State.gapless_ttBook, State.syncCounted_ttBook]
    · rw [s.syncError_other h1 h2, State.syncCounted_ttBook]

/-! ### The interrupts of a turntable -/

theorem State.f_ttRaise_ne {k : Fld} {i b : Nat} (h : k.off + i ≠ TTN.IRQ_RAW.SYNCED.off + pgAt n) : (s.ttRaise n b).f k i = s.f k i := by
  unfold State.ttRaise
  split
  · rfl
  · unfold State.f
    exact congrArg (fun w : Word => bitsAt w.toNat k.lo k.wid) (s.reg_setReg_ne _ _ _ h)

theorem bitsAt_one_of_testBit {w l : Nat} (h : w.testBit l = true) : bitsAt w l 1 ≠ 0 := by
  unfold bitsAt
  rw [Nat.shiftRight_eq_div_pow]
  rw [Nat.testBit_eq_decide_div_mod_eq, decide_eq_true_eq] at h
  omega

/-- An interrupt raised stands. -/
theorem State.on_ttRaise {g : Fld} {b : Nat} (ho : g.off = TTN.IRQ_RAW.SYNCED.off) (hw : g.wid = 1) (hl : g.lo < 32)
    (hb : b.testBit g.lo = true) : (s.ttRaise n b).on g (pgAt n) = true := by
  have hne : b ≠ 0 := fun h => by rw [h, Nat.zero_testBit] at hb; cases hb
  unfold State.ttRaise State.on State.f
  rw [if_neg hne, ho, hw]
  have hreg : ((s.setReg (TTN.IRQ_RAW.SYNCED.off + pgAt n) (word ((s.reg (TTN.IRQ_RAW.SYNCED.off + pgAt n)).toNat ||| b))).signal 3 n b s.vt).reg
      (TTN.IRQ_RAW.SYNCED.off + pgAt n) = word ((s.reg (TTN.IRQ_RAW.SYNCED.off + pgAt n)).toNat ||| b) :=
    (s.reg_setReg _ _ _).trans (if_pos rfl)
  dsimp only
  rw [hreg, decide_eq_true_eq]
  refine bitsAt_one_of_testBit ?_
  rw [BitVec.toNat_ofNat, Nat.testBit_mod_two_pow, Nat.testBit_or, hb, Bool.or_true, Bool.and_true, decide_eq_true_eq]
  exact hl

/-! ### A stall (R137, R138) -/

/-- A turntable as a stall leaves it. -/
def Turntable.stalled (x : Turntable) (a st : Nat) : Turntable :=
  { x with frozen := some a, before := st, deadline := none, hist := [], singles := [], linked := false, pper := none, now := x.now.unfit }

/-- Up to the registers of the stall. -/
def State.stallBooks (n : Nat) : State :=
  let k := if s.ttState n = ttSynced then s.keepStop n (s.ttAngle n (s.raw * 64)) else s
  ((((k.setTurn n ((k.turn n).stalled (s.ttAngle n (s.raw * 64)) (s.ttState n))).setTtState n ttStalled).clr TTN.STS.PRED_OK (pgAt n)).bump
    TTN.EVTCNT.STALLS 1 (pgAt n))

/-- The stall's outputs cut, where TTN.PRED asks for it. -/
def State.stallCuts (n : Nat) : State :=
  let t := s.ttDrop n outDiscarded
  if t.ttPred n TTN.PRED.CANCEL_ON_STALL = 1 then t.cutStarted n else t

theorem State.stallNow_eq : s.stallNow n = ((s.stallBooks n).stallCuts n).ttRaise n (irqBit TTN.IRQ_RAW.STALL) := rfl

theorem State.stallCuts_ttFar : (s.stallCuts n).ttFar n = s.ttFar n := by
  unfold State.stallCuts
  dsimp only
  rw [apply_ite (State.ttFar · n), State.cutStarted_ttFar, ite_self, State.ttDrop_ttFar]

theorem State.stallBooks_ttBook :
    (s.stallBooks n).ttBook n = (s.setTurn n ((s.turn n).stalled (s.ttAngle n (s.raw * 64)) (s.ttState n))).ttBook n := by
  unfold State.stallBooks
  dsimp only
  rw [State.bump_ttBook, State.clr_ttBook, State.setTtState_ttBook]
  split
  · rfl
  · rfl

theorem State.stallNow_ttBook :
    (s.stallNow n).ttBook n = (s.setTurn n ((s.turn n).stalled (s.ttAngle n (s.raw * 64)) (s.ttState n))).ttBook n := by
  rw [s.stallNow_eq, State.ttRaise_ttBook, State.ttBook_of_far _ (State.stallCuts_ttFar _), s.stallBooks_ttBook]

/-- A register of a turntable that a stall's cut leaves. -/
theorem State.stallNow_f {g : Fld} (hg : ttnWord (g.off + pgAt n) = true) (hi : g.off ≠ TTN.IRQ_RAW.SYNCED.off) :
    (s.stallNow n).f g (pgAt n) = (s.stallBooks n).f g (pgAt n) := by
  rw [s.stallNow_eq, State.f_ttRaise_ne _ (fun h => hi (Nat.add_right_cancel h))]
  exact State.ttF_of_far _ (State.stallCuts_ttFar _) hg

theorem State.stallBooks_state : (s.stallBooks n).f TTN.STS.STATE (pgAt n) = ttStalled := by
  unfold State.stallBooks State.setTtState
  dsimp only
  rw [State.f_bump_eq, State.f_setF_other _ _ _ _ _ _ (fun h => absurd (Nat.add_right_cancel h) (by decide)), State.f_clr_eq,
    State.f_setF_beside _ TTN.STS.PRED_OK TTN.STS.STATE _ _ _ ⟨rfl, by decide, by decide⟩, State.f_setF_self _ _ _ _ (by decide)]
  rfl

theorem State.stallBooks_pred : (s.stallBooks n).f TTN.STS.PRED_OK (pgAt n) = 0 := by
  unfold State.stallBooks State.setTtState
  dsimp only
  rw [State.f_bump_eq, State.f_setF_other _ _ _ _ _ _ (fun h => absurd (Nat.add_right_cancel h) (by decide)), State.f_clr_eq,
    State.f_setF_self _ _ _ _ (by decide), Nat.zero_mod]

theorem State.keepStop_stalls (a : Nat) : (s.keepStop n a).f TTN.EVTCNT.STALLS (pgAt n) = s.f TTN.EVTCNT.STALLS (pgAt n) := by
  have hne (o : Nat) (h : TTN.EVTCNT.STALLS.off ≠ o) : TTN.EVTCNT.STALLS.off + pgAt n ≠ o + pgAt n := fun he => h (Nat.add_right_cancel he)
  unfold State.keepStop State.f
  dsimp only
  rw [State.reg_setReg_ne _ _ _ _ (hne _ (by decide)), State.reg_setReg_ne _ _ _ _ (hne _ (by decide)),
    State.reg_setReg_ne _ _ _ _ (hne _ (by decide))]

theorem State.stallBooks_stalls : (s.stallBooks n).f TTN.EVTCNT.STALLS (pgAt n) = counted s TTN.EVTCNT.STALLS 1 (pgAt n) := by
  have hkeep : (if s.ttState n = ttSynced then s.keepStop n (s.ttAngle n (s.raw * 64)) else s).f TTN.EVTCNT.STALLS (pgAt n)
      = s.f TTN.EVTCNT.STALLS (pgAt n) := by
    split
    · exact s.keepStop_stalls _
    · rfl
  have hturn (t : State) (x : Turntable) (g : Fld) (i : Nat) : (t.setTurn n x).f g i = t.f g i := rfl
  unfold State.stallBooks State.setTtState
  dsimp only
  generalize (if s.ttState n = ttSynced then s.keepStop n (s.ttAngle n (s.raw * 64)) else s) = k at hkeep ⊢
  have hne : TTN.EVTCNT.STALLS.off + pgAt n ≠ TTN.STS.STATE.off + pgAt n := fun h => absurd (Nat.add_right_cancel h) (by decide)
  have hbase : (((k.setTurn n ((k.turn n).stalled (s.ttAngle n (s.raw * 64)) (s.ttState n))).setF TTN.STS.STATE ttStalled (pgAt n)).clr
      TTN.STS.PRED_OK (pgAt n)).f TTN.EVTCNT.STALLS (pgAt n) = s.f TTN.EVTCNT.STALLS (pgAt n) := by
    rw [State.f_clr_eq, State.f_setF_other _ TTN.STS.PRED_OK _ _ _ _ hne, State.f_setF_other _ _ _ _ _ _ hne, hturn, hkeep]
  rw [State.f_bump_eq, State.f_setF_self _ _ _ _ (by decide), hbase]
  exact s.counted_eq TTN.EVTCNT.STALLS (pgAt n) 1

theorem ttnWord_page {o : Nat} (hn : n < 16) (h : 0x130000 ≤ o ∧ o < 0x131000 ∧ o % 0x100 ≠ 0x10) : ttnWord (o + pgAt n) = true := by
  unfold ttnWord pgAt
  simp only [Bool.and_eq_true, decide_eq_true_eq]
  omega

theorem pgField_ne {g k : Fld} (h : k.off ≠ g.off) (n : Nat) : k.off + pgAt n ≠ g.off + pgAt n := fun he => h (Nat.add_right_cancel he)

/-- What a stall leaves (R137, R138). -/
theorem State.stallNow_facts (hn : n < 16) : (s.stallNow n).ttState n = ttStalled ∧ (s.stallNow n).ttOn n TTN.STS.PRED_OK = false
    ∧ (s.stallNow n).f TTN.EVTCNT.STALLS (pgAt n) = counted s TTN.EVTCNT.STALLS 1 (pgAt n)
    ∧ (s.stallNow n).on TTN.IRQ_RAW.STALL (pgAt n) = true ∧ ((s.stallNow n).turn n).deadline = none
    ∧ ((s.stallNow n).turn n).frozen = some (s.ttAngle n (s.raw * 64)) ∧ ((s.stallNow n).turn n).before = s.ttState n
    ∧ (s.stallNow n).raw = s.raw := by
  have hbook := s.stallNow_ttBook (n := n)
  have hturn := State.turn_of_ttBook _ hbook
  rw [s.turn_setTurn, if_pos rfl] at hturn
  refine ⟨?_, ?_, ?_, ?_, congrArg Turntable.deadline hturn, congrArg Turntable.frozen hturn, congrArg Turntable.before hturn,
    (State.raw_of_ttBook _ hbook).trans rfl⟩
  · exact (s.stallNow_f (ttnWord_page hn (by decide)) (by decide)).trans s.stallBooks_state
  · have hpred := (s.stallNow_f (g := TTN.STS.PRED_OK) (ttnWord_page hn (by decide)) (by decide)).trans s.stallBooks_pred
    unfold State.ttOn State.on
    rw [hpred]
    rfl
  · exact (s.stallNow_f (ttnWord_page hn (by decide)) (by decide)).trans s.stallBooks_stalls
  · rw [s.stallNow_eq]
    exact State.on_ttRaise _ rfl rfl (by decide) (by decide)

theorem State.stall_eq {d : Nat} (hd : (s.turn n).deadline = some d) (hr : ttRuns (s.ttState n) = true)
    (he : (s.turn n).edges.any (fun e => e.1 / 64 ≤ d / 64) = false) : s.stall n = (s.advance (d / 64 + 12)).stallNow n := by
  unfold State.stall
  dsimp only
  rw [hd]
  dsimp only
  rw [hr, he]
  rfl

/-! ### A mark that no tooth follows (R119) -/

theorem State.syncCounted_cnt : (s.syncCounted n).f TTN.CNT_EVT.HI (pgAt n) = counted s TTN.CNT_EVT.HI 1 (pgAt n) := by
  unfold State.syncCounted
  rw [State.f_clr_eq, State.f_setF_other _ _ _ _ _ _ (pgField_ne (by decide) n), State.f_bump_eq, State.f_setF_self _ _ _ _ (by decide)]
  exact s.counted_eq TTN.CNT_EVT.HI (pgAt n) 1

theorem State.gapless_f (g : Fld) (i : Nat) : (s.gapless n).f g i = s.f g i := rfl

theorem State.syncError_cnt (hn : n < 16) : (s.syncError n).1.f TTN.CNT_EVT.HI (pgAt n) = counted s TTN.CNT_EVT.HI 1 (pgAt n) := by
  have hdrop (t : State) : (t.ttDrop n outDiscarded).f TTN.CNT_EVT.HI (pgAt n) = t.f TTN.CNT_EVT.HI (pgAt n) :=
    State.ttF_of_far t (t.ttDrop_ttFar outDiscarded) (ttnWord_page hn (by decide))
  have hstate (t : State) (st : Nat) : (t.setTtState n st).f TTN.CNT_EVT.HI (pgAt n) = t.f TTN.CNT_EVT.HI (pgAt n) :=
    State.f_setF_other _ _ _ _ _ _ (pgField_ne (by decide) n)
  by_cases h1 : s.ttState n = ttProvisional
  · rw [s.syncError_provisional h1, hdrop, State.gapless_f, State.f_clr_eq, State.f_setF_other _ _ _ _ _ _ (pgField_ne (by decide) n),
      hstate, s.syncCounted_cnt]
  · by_cases h2 : s.ttState n = ttSynced
    · rw [s.syncError_synced h2, hdrop, hstate, State.gapless_f, s.syncCounted_cnt]
    · rw [s.syncError_other h1 h2, s.syncCounted_cnt]

theorem State.setTtState_state {st : Nat} (h : st < 8) : (s.setTtState n st).ttState n = st :=
  (State.f_setF_self _ _ _ _ (by decide)).trans (Nat.mod_eq_of_lt h)

theorem State.ttDrop_state (hn : n < 16) (o : Nat) : (s.ttDrop n o).ttState n = s.ttState n :=
  State.ttF_of_far s (s.ttDrop_ttFar o) (ttnWord_page hn (by decide))

theorem State.syncError_lost (hn : n < 16) (h : s.ttState n = ttSynced) : (s.syncError n).1.ttState n = ttLost := by
  rw [s.syncError_synced h, State.ttDrop_state _ hn, State.setTtState_state _ (by decide)]

theorem State.syncError_hunts (hn : n < 16) (h : s.ttState n = ttProvisional) : (s.syncError n).1.ttState n = ttHunting := by
  have hclr (t : State) : (t.clr TTN.STS.QS (pgAt n)).ttState n = t.ttState n :=
    State.f_setF_beside _ TTN.STS.QS TTN.STS.STATE _ _ _ ⟨rfl, by decide, by decide⟩
  have hgap (t : State) : (t.gapless n).ttState n = t.ttState n := rfl
  rw [s.syncError_provisional h, State.ttDrop_state _ hn, hgap, hclr, State.setTtState_state _ (by decide)]

theorem State.syncError_bits : (s.syncError n).2.testBit TTN.IRQ_RAW.SYNC_ERR.lo = true := by
  by_cases h1 : s.ttState n = ttProvisional
  · rw [s.syncError_provisional h1]
    dsimp only
    split <;> decide
  · by_cases h2 : s.ttState n = ttSynced
    · rw [s.syncError_synced h2]
      dsimp only
      decide
    · rw [s.syncError_other h1 h2]
      dsimp only
      decide

theorem State.markExpire_eq {u : Nat} {p : Nat × Nat} (hm : (s.turn n).marks = [u]) (hp : s.ttSingleNow n = some p)
    (he : (s.turn n).edges.any (fun e => u ≤ e.1 && e.1 ≤ u + p.1 / (2 * p.2)) = false) :
    s.markExpire n = (let t := (s.advance ((u + p.1 / (2 * p.2)) / 64 + 12)).setTurn n { s.turn n with marks := [] }
      (t.syncError n).1.ttRaise n (t.syncError n).2) := by
  unfold State.markExpire
  dsimp only
  rw [hm, hp]
  dsimp only
  rw [if_neg (by rw [he]; exact Bool.false_ne_true)]

/-! ### The fit (R126, R127) -/

/-- State `t` is `s` after the fit of turntable `n`, up to what it plans for its entries. -/
def State.FittedFrom (s : State) (n : Nat) (t : State) : Prop :=
  (t.turn n).fitDue = false ∧ (t.turn n).act = (s.turn n).now.time / 64 + 24 ∧ t.raw = max s.raw ((s.turn n).now.time / 64 + 20)
    ∧ t.ttOn n TTN.STS.PRED_OK = (t.turn n).now.ok ∧ ((s.turn n).hist = [] → (t.turn n).now.ok = false)
    ∧ (t.turn n).last = (s.turn n).last ∧ (t.turn n).tooth = (s.turn n).tooth
    ∧ (∀ j, j ≠ n → t.turn j = s.turn j) ∧ { t with raw := s.raw, ttn := s.ttn, regs := s.regs } = s

/-- What is planned for the entries leaves the fit. -/
theorem State.FittedFrom.plans {t : State} (h : s.FittedFrom n t) (r a : List Nat) :
    s.FittedFrom n (t.setTurn n { t.turn n with repred := r, ann := a }) := by
  obtain ⟨hdue, hact, hraw, hpred, hhist, hlast, htooth, hothers, hframe⟩ := h
  have hturn : (t.setTurn n { t.turn n with repred := r, ann := a }).turn n = { t.turn n with repred := r, ann := a } :=
    (t.turn_setTurn n n _).trans (if_pos rfl)
  have hon (x : Turntable) (g : Fld) : (t.setTurn n x).ttOn n g = t.ttOn n g := rfl
  unfold State.FittedFrom
  rw [hturn, hon]
  exact ⟨hdue, hact, hraw, hpred, hhist, hlast, htooth, fun j hj => (t.turn_setTurn n j _).trans ((if_neg hj).trans (hothers j hj)), hframe⟩

theorem State.toothFit_fits (h : (s.turn n).fitDue = true) : s.FittedFrom n (s.toothFit n) := by
  unfold State.toothFit
  extract_lets x b s1 m0 m1
  rw [if_neg (by rw [h]; decide)]
  generalize fitOf _ _ = wa
  obtain ⟨w, a⟩ := wa
  dsimp -zeta only
  extract_lets ok model span time s2 shown omega accel s3 st ks base deadline s4 live
  have hhist : x.hist = [] → ok = false := by
    intro hn
    have hm0 : m0 = 0 := by simp only [m0, hn, List.length_nil, Nat.min_zero]
    have hm1 : m1 = 0 := by simp only [m1, hm0, Nat.zero_min, ite_self]
    simp only [ok, hm1]
    rfl
  have hs3 : s3.ttOn n TTN.STS.PRED_OK = ok ∧ s3.turn = s.turn ∧ { s3 with raw := s.raw, ttn := s.ttn, regs := s.regs } = s
      ∧ s3.raw = max s.raw (x.now.time / 64 + 20) := by
    have hs2 : s2.ttOn n TTN.STS.PRED_OK = ok := by
      unfold State.ttOn State.on
      simp only [s2]
      rw [State.f_setF_self _ _ _ _ (by decide)]
      cases ok <;> rfl
    have hreg (t : State) (o : Nat) (v : Word) (ho : o ≠ TTN.STS.PRED_OK.off) :
        (t.setReg (o + pgAt n) v).ttOn n TTN.STS.PRED_OK = t.ttOn n TTN.STS.PRED_OK := by
      unfold State.ttOn State.on State.f
      rw [State.reg_setReg_ne _ _ _ _ fun he => ho (Nat.add_right_cancel he).symm]
    simp only [s3]
    split
    · refine ⟨?_, rfl, rfl, rfl⟩
      rw [hreg _ _ _ (by decide), hreg _ _ _ (by decide), hreg _ _ _ (by decide), hs2]
    · exact ⟨hs2, rfl, rfl, rfl⟩
  obtain ⟨hpred, hturns, hframe, hraw⟩ := hs3
  clear_value ok s3
  have hfit : s.FittedFrom n s4 := by
    unfold State.FittedFrom
    have hturn : s4.turn n = _ := (s3.turn_setTurn n n _).trans (if_pos rfl)
    rw [hturn]
    refine ⟨rfl, rfl, hraw, hpred, hhist, rfl, rfl, fun j hj => ?_, hframe⟩
    exact (s3.turn_setTurn n j _).trans ((if_neg hj).trans (congrFun hturns j))
  clear_value s4
  split
  · exact hfit.plans s _ _
  · exact hfit

/-! ### A tooth (R116, R126) -/

theorem State.linkTooth_signals (c u : Nat) : (s.linkTooth c u).signals = s.signals := by
  refine s.foldl_keeps State.signals (fun t k => ?_) _
  have hdelay : (t.linkDelay k 1024).1.signals = t.signals := by
    unfold State.linkDelay
    dsimp only
    split <;> rfl
  exact hdelay

theorem State.setTurn_keeps (x : Turntable) : (s.setTurn n x).raw = s.raw ∧ (∀ j, j ≠ n → (s.setTurn n x).turn j = s.turn j)
    ∧ (s.setTurn n x).turn n = x :=
  ⟨rfl, fun j hj => (s.turn_setTurn n j x).trans (if_neg hj), (s.turn_setTurn n n x).trans (if_pos rfl)⟩

/-- The marks judged: only they change. -/
theorem State.takeMarks_keeps (t : Nat) (single : Option (Nat × Nat)) : (s.takeMarks n t single).1.raw = s.raw
    ∧ (∀ j, j ≠ n → (s.takeMarks n t single).1.turn j = s.turn j)
    ∧ ((s.takeMarks n t single).1.turn n).edges = (s.turn n).edges := by
  have hset (ms : List Nat) : (s.setTurn n { s.turn n with marks := ms }).raw = s.raw
      ∧ (∀ j, j ≠ n → (s.setTurn n { s.turn n with marks := ms }).turn j = s.turn j)
      ∧ ((s.setTurn n { s.turn n with marks := ms }).turn n).edges = (s.turn n).edges := by
    obtain ⟨hraw, hothers, hturn⟩ := s.setTurn_keeps (n := n) { s.turn n with marks := ms }
    exact ⟨hraw, hothers, by rw [hturn]⟩
  unfold State.takeMarks
  extract_lets x mine s1
  split
  · split
    · exact hset _
    · exact hset _
  · exact hset _

/-- State `t` is `s` after tooth `v` of turntable `n` is accepted. -/
def State.TookTooth (s : State) (n : Nat) (v : ToothView) (t : State) : Prop :=
  t.raw = s.raw ∧ (∀ j, j ≠ n → t.turn j = s.turn j) ∧ (t.turn n).last = some v.t ∧ (t.turn n).edges = (s.turn n).edges
    ∧ (t.turn n).fitDue = true ∧ (t.turn n).deadline = none ∧ (t.turn n).frozen = none
    ∧ (v.known = true → v.change = false →
      (t.turn n).tooth = v.j ∧ (t.turn n).rev = nextRev (s.turn n).rev (s.turn n).tooth v.j v.rvs)

theorem State.TookTooth.of_ttBook {t u : State} {v : ToothView} (h : s.TookTooth n v t) (hu : u.ttBook n = t.ttBook n) :
    s.TookTooth n v u := by
  obtain ⟨hraw, hothers, hlast, hedges, hdue, hdead, hfrozen, hknown⟩ := h
  have hturn := State.turn_of_ttBook t hu
  have htooth := congrArg Turntable.tooth hturn
  have hrev := congrArg Turntable.rev hturn
  refine ⟨(State.raw_of_ttBook t hu).trans hraw, fun j hj => (State.other_of_ttBook t hu hj).trans (hothers j hj),
    (congrArg Turntable.last hturn).trans hlast, (congrArg Turntable.edges hturn).trans hedges,
    (congrArg Turntable.fitDue hturn).trans hdue, (congrArg Turntable.deadline hturn).trans hdead,
    (congrArg Turntable.frozen hturn).trans hfrozen, fun hk hc => ?_⟩
  obtain ⟨ht, hr⟩ := hknown hk hc
  exact ⟨htooth.trans ht, hrev.trans hr⟩

theorem State.acceptTooth_took (v : ToothView) (single : Option (Nat × Nat)) (race : Nat) :
    s.TookTooth n v (s.acceptTooth n v single race) ∧ ∃ (xs : List Signal) (q : Signal),
      (s.acceptTooth n v single race).signals = xs ++ [q] ∧ q.kind = 2 ∧ q.idx = n := by
  unfold State.acceptTooth
  extract_lets x st nt gs src hears
  have hmarks : ∀ p, p = (if hears = true then s.takeMarks n v.t single else (s.setTurn n { x with marks := [] }, none, false)) →
      p.1.raw = s.raw ∧ (∀ j, j ≠ n → p.1.turn j = s.turn j) ∧ (p.1.turn n).edges = (s.turn n).edges := by
    rintro p rfl
    split
    · exact s.takeMarks_keeps v.t single
    · obtain ⟨hraw, hothers, hturn⟩ := s.setTurn_keeps (n := n) { x with marks := [] }
      exact ⟨hraw, hothers, by rw [hturn]⟩
  generalize (if hears = true then s.takeMarks n v.t single else (s.setTurn n { x with marks := [] }, none, false)) = sml at hmarks
  obtain ⟨hraw, hothers, hedges⟩ := hmarks sml rfl
  clear hmarks
  obtain ⟨s1, mark1, late⟩ := sml
  dsimp -zeta only at hraw hothers hedges ⊢
  extract_lets gapMark mark wrong err agree found j rev located now0 now y gap singles hist left pred surge s2 s3 s4 s5 s6 s7 s8 s9 passed src10 s11 bits s12 s13
  have htook : s.TookTooth n v s2 := by
    have hturn : s2.turn n = _ := (s1.turn_setTurn n n _).trans (if_pos rfl)
    unfold State.TookTooth
    rw [hturn]
    refine ⟨hraw, fun j hj => ((s1.turn_setTurn n j _).trans (if_neg hj)).trans (hothers j hj), rfl, hedges, rfl, rfl, rfl, fun hk hc => ?_⟩
    simp only [j, rev, hk, hc, if_true, Bool.false_eq_true, if_false]
    exact ⟨trivial, rfl⟩
  have hbook : s9.ttBook n = s2.ttBook n := by
    have h3 : s3.ttBook n = s2.ttBook n := s2.setF_ttBook _ _ _
    have h4 : s4.ttBook n = s3.ttBook n := by simp only [s4, apply_ite (State.ttBook · n), State.clr_ttBook, ite_self]
    have h5 : s5.ttBook n = s4.ttBook n := s4.clr_ttBook _ _
    have h6 : s6.ttBook n = s5.ttBook n := by
      simp only [s6]
      split
      · exact State.ringPut_ttBook _ _ _
      · rfl
    have h7 : s7.ttBook n = s6.ttBook n := s6.setF_ttBook _ _ _
    have h8 : s8.ttBook n = s7.ttBook n := by simp only [s8, apply_ite (State.ttBook · n), State.bump_ttBook, ite_self]
    have h9 : s9.ttBook n = s8.ttBook n := by simp only [s9, apply_ite (State.ttBook · n), State.ttDrop_ttBook, ite_self]
    rw [h9, h8, h7, h6, h5, h4, h3]
  have hsync : ∀ E : State × Nat, E = (if err = true then s9.syncError n
      else
        if agree = true ∧ st = ttProvisional then ((s9.setTtState n ttSynced).clr TTN.STS.QS (pgAt n), irqBit TTN.IRQ_RAW.SYNCED)
        else if found = true then (s9.setTtState n ttProvisional, 0) else (s9, 0)) → E.1.ttBook n = s9.ttBook n := by
    rintro E rfl
    split
    · exact s9.syncError_ttBook
    · split
      · rw [State.clr_ttBook, State.setTtState_ttBook]
      · split
        · rw [State.setTtState_ttBook]
        · rfl
  have hlast : s13.ttBook n = s2.ttBook n := by
    have h11 : s11.ttBook n = s9.ttBook n := by
      refine Eq.trans (State.setTurn_ttBook _ ?_) (hsync _ rfl)
      rfl
    have h12 : s12.ttBook n = s11.ttBook n := s11.ttRaise_ttBook n bits
    have h13 : s13.ttBook n = s12.ttBook n := s12.signal_ttBook _ _ _ _
    rw [h13, h12, h11, hbook]
  have hsignals : ∃ q : Signal, s13.signals = s12.signals ++ [q] ∧ q.kind = 2 ∧ q.idx = n := ⟨_, rfl, rfl, rfl⟩
  clear_value s13
  refine ⟨htook.of_ttBook s ((s13.linkTooth_ttBook _ _).trans hlast), s12.signals, ?_⟩
  rw [s13.linkTooth_signals]
  exact hsignals

/-- The oldest edge taken from its queue, at its cycle (R126). -/
def State.edgeTaken (n u : Nat) (rest : List (Nat × Bool)) : State :=
  (s.advance (u / 64 + 12)).setTurn n { s.turn n with edges := rest }

/-- A stall before the tooth leaves the clock, the other turntables and the queue of edges. -/
theorem State.stallNow_keeps : (s.stallNow n).raw = s.raw ∧ (∀ j, j ≠ n → (s.stallNow n).turn j = s.turn j)
    ∧ ((s.stallNow n).turn n).edges = (s.turn n).edges := by
  have hbook := s.stallNow_ttBook (n := n)
  obtain ⟨hraw, hothers, hturn⟩ := s.setTurn_keeps (n := n) ((s.turn n).stalled (s.ttAngle n (s.raw * 64)) (s.ttState n))
  have hedges := congrArg Turntable.edges (State.turn_of_ttBook _ hbook)
  refine ⟨(State.raw_of_ttBook _ hbook).trans hraw, fun j hj => (State.other_of_ttBook _ hbook hj).trans (hothers j hj), hedges.trans ?_⟩
  rw [hturn]
  rfl

/-- A known tooth: no stall has come before it, and no direction input turns it round. -/
def State.Steady (n u : Nat) : Prop :=
  ttKnown (s.ttState n) = true ∧ s.ttOn n TTN.INSEL.DIR_EN = false ∧ (s.turn n).fresh = false
    ∧ ∀ d, (s.turn n).deadline = some d → u / 64 ≤ d / 64

theorem State.toothState_known (h : ttKnown (s.ttState n) = true) : s.toothState n = s.ttState n := by
  have hst : s.ttState n ≠ ttStalled ∧ s.ttState n ≠ ttLost := by
    constructor <;> intro hs <;> rw [hs] at h <;> cases h
  unfold State.toothState
  dsimp only
  rw [if_neg hst.1, if_neg fun hn => hst.2 hn.1]

section
variable {s} {u : Nat} {lvl : Bool} {rest : List (Nat × Bool)}

theorem State.toothProcess_near (he : (s.turn n).edges = (u, lvl) :: rest) (hen : s.ttOn n TTN.CTL.EN = true)
    (hl : ∃ l, (s.turn n).last = some l ∧ u < l + s.ttF n TTN.NOISE.MINP * 64) :
    s.toothProcess n = (s.edgeTaken n u rest).bump TTN.CNT_EVT.LO 1 (pgAt n) := by
  obtain ⟨l, hlast, hlt⟩ := hl
  unfold State.toothProcess
  extract_lets x
  split
  next hn => rw [he] at hn; cases hn
  next t level r hcons =>
  obtain ⟨⟨rfl, rfl⟩, rfl⟩ : (u = t ∧ lvl = level) ∧ rest = r := by simpa using he.symm.trans hcons
  extract_lets s0 near past s1 race st s2 y dirEn cur rvs change known
  have hen0 : s0.ttOn n TTN.CTL.EN = true := hen
  have hnear : near = true := by
    have hx : x.last = some l := hlast
    simp only [near, hx]
    exact decide_eq_true hlt
  rw [if_neg (by rw [hen0]; decide), if_pos hnear]
  rfl

theorem State.toothProcess_accepts (he : (s.turn n).edges = (u, lvl) :: rest) (hen : s.ttOn n TTN.CTL.EN = true)
    (hl : ∀ l, (s.turn n).last = some l → l + s.ttF n TTN.NOISE.MINP * 64 ≤ u) :
    ∃ (p : State) (v : ToothView) (single : Option (Nat × Nat)) (race : Nat), s.toothProcess n = p.acceptTooth n v single race ∧ v.t = u
      ∧ p.raw = max s.raw (u / 64 + 12) ∧ (∀ j, j ≠ n → p.turn j = s.turn j) ∧ (p.turn n).edges = rest
      ∧ (s.Steady n u → (v.known = true ∧ v.change = false ∧ v.rvs = false) ∧ v.j = (s.ttNext n (s.turn n).tooth false).1
        ∧ (p.turn n).tooth = (s.turn n).tooth ∧ (p.turn n).rev = (s.turn n).rev) := by
  unfold State.toothProcess
  extract_lets x
  split
  next hn => rw [he] at hn; cases hn
  next t level r hcons =>
  obtain ⟨⟨rfl, rfl⟩, rfl⟩ : (u = t ∧ lvl = level) ∧ rest = r := by simpa using he.symm.trans hcons
  extract_lets s0 near past s1 race st s2 y dirEn cur rvs change known
  have hen0 : s0.ttOn n TTN.CTL.EN = true := hen
  have hnear : near = false := by
    simp only [near]
    split
    next l hlast => exact decide_eq_false (Nat.not_lt.mpr (hl l hlast))
    next => rfl
  rw [if_neg (by rw [hen0]; decide), if_neg (by rw [hnear]; decide)]
  obtain ⟨hraw0, hothers0, hturn0⟩ := (s.advance (u / 64 + 12)).setTurn_keeps (n := n) { x with edges := rest }
  have hkeeps : s2.raw = max s.raw (u / 64 + 12) ∧ (∀ j, j ≠ n → s2.turn j = s.turn j) ∧ (s2.turn n).edges = rest := by
    have hs0 : s0.raw = max s.raw (u / 64 + 12) ∧ (∀ j, j ≠ n → s0.turn j = s.turn j) ∧ (s0.turn n).edges = rest :=
      ⟨hraw0, hothers0, by simp only [s0]; rw [hturn0]⟩
    have hs1 : s1.raw = max s.raw (u / 64 + 12) ∧ (∀ j, j ≠ n → s1.turn j = s.turn j) ∧ (s1.turn n).edges = rest := by
      simp only [s1]
      split
      · obtain ⟨hraw, hothers, hedges⟩ := s0.stallNow_keeps (n := n)
        exact ⟨hraw.trans hs0.1, fun j hj => (hothers j hj).trans (hs0.2.1 j hj), hedges.trans hs0.2.2⟩
      · exact hs0
    exact hs1
  obtain ⟨hraw, hothers, hedges⟩ := hkeeps
  have hsteady : s.Steady n u → known = true ∧ change = false ∧ rvs = false ∧ s2.ttNext n y.tooth rvs = s.ttNext n (s.turn n).tooth false
      ∧ (s2.turn n).tooth = (s.turn n).tooth ∧ (s2.turn n).rev = (s.turn n).rev := by
    rintro ⟨hknown, hdir, hfresh, hdead⟩
    have hpast : past = false := by
      simp only [past]
      split
      next d hd => rw [decide_eq_false (Nat.not_lt.mpr (hdead d hd)), Bool.and_false]
      next => rw [Bool.and_false]
    have h1 : s1 = s0 := by simp only [s1, hpast, Bool.false_eq_true, if_false]
    have hst : st = s.ttState n := by
      have h0 : s0.toothState n = s.ttState n := s0.toothState_known hknown
      simp only [st, h1]
      exact h0
    have hf (g : Fld) (i : Nat) (hg : g.off + i ≠ TTN.STS.STATE.off + pgAt n) : s2.f g i = s.f g i := by
      have h2 : s2.f g i = s1.f g i := State.f_setF_other _ _ _ _ _ _ hg
      rw [h2, h1]
      rfl
    have hturn : s2.turn n = s0.turn n := by rw [← h1]; rfl
    have hdirEn : dirEn = false := by
      have h := hf TTN.INSEL.DIR_EN (pgAt n) (pgField_ne (by decide) n)
      simp only [dirEn, State.ttOn, State.on, h]
      exact hdir
    have hrvs : rvs = false := by
      have hyf : y.fresh = false := by
        simp only [y, hturn, s0, hturn0]
        exact hfresh
      simp only [rvs, hdirEn, Bool.false_eq_true, if_false, hyf, Bool.false_and]
    have hteeth : s2.ttTeeth n = s.ttTeeth n := hf _ _ (pgField_ne (by decide) n)
    have hgaps : s2.ttGaps n = s.ttGaps n := by
      have hgap (g : Fld) (hg : g.off = 0x13004C) (k : Nat) : s2.f g (pgAt n + 4 * k) = s.f g (pgAt n + 4 * k) := by
        refine hf g _ ?_
        have ho : TTN.STS.STATE.off = 0x13000C := rfl
        omega
      unfold State.ttGaps State.on
      simp only [hgap TTN.GAP.EN rfl, hgap TTN.GAP.POS rfl, hgap TTN.GAP.LEN rfl]
    refine ⟨?_, ?_, hrvs, ?_, ?_, ?_⟩
    · simp only [known, hst, hknown]
    · simp only [change, hdirEn, Bool.false_and]
    · unfold State.ttNext
      rw [hteeth, hgaps, hrvs]
      simp only [y, hturn, s0, hturn0]
      rfl
    · simp only [hturn, s0, hturn0]
      rfl
    · simp only [hturn, s0, hturn0]
      rfl
  generalize hpair : (if change = true then (y.tooth, 0) else s2.ttNext n y.tooth rvs) = pair
  have hj : s.Steady n u → pair.1 = (s.ttNext n (s.turn n).tooth false).1 := by
    intro hs
    obtain ⟨-, hchange, -, hnext, -, -⟩ := hsteady hs
    rw [← hpair, if_neg (by rw [hchange]; decide), hnext]
  obtain ⟨j, exp⟩ := pair
  refine ⟨s2, _, _, _, rfl, rfl, hraw, hothers, hedges, fun hs => ?_⟩
  obtain ⟨hk, hc, hr, -, ht, hv⟩ := hsteady hs
  exact ⟨⟨hk, hc, hr⟩, hj hs, ht, hv⟩
end

end Sys2Proof.Machine

open Sys2Proof Sys2Proof.Machine

/-- Settles O22: the tooth from the cycle and the queue it is taken from, the fit and the stall from the registers that nothing else
of their cycle writes. -/
theorem teethAndStalls : Obligations.TeethAndStalls := by
  refine ⟨fun s n u lvl rest he hen => ⟨fun hl => ?_, fun hl => ?_⟩, fun s n h => ?_, fun s n u p hm hp he => ?_, fun s n d hd hr he => ?_⟩
  · refine ⟨(s.edgeTaken n.val u rest).bump TTN.CNT_EVT.LO 1 (pgAt n.val), ?_, ?_, ?_, rfl, rfl⟩
    · rw [← State.toothProcess_near he hen hl]; rfl
    · exact ((s.advance _).turn_setTurn n.val n.val _).trans (if_pos rfl)
    · rw [State.f_bump_eq, State.f_setF_self _ _ _ _ (by decide)]
      exact (s.edgeTaken n.val u rest).counted_eq TTN.CNT_EVT.LO (pgAt n.val) 1
  · obtain ⟨p, v, single, race, heq, hv, hraw, hothers, hedges, hsteady⟩ := State.toothProcess_accepts he hen hl
    obtain ⟨⟨hraw2, hothers2, hlast, hedges2, hdue, hdead, hfrozen, hknown⟩, xs, q, hsig, hkind, hidx⟩ :=
      p.acceptTooth_took (n := n.val) v single race
    refine ⟨p.acceptTooth n.val v single race, xs, q, ?_, hlast.trans (congrArg some hv), hedges2.trans hedges, hdue, hdead, hfrozen,
      hraw2.trans hraw, hsig, hkind, hidx, fun j hj => (hothers2 j hj).trans (hothers j hj), fun hk hdir hfresh hdead => ?_⟩
    · rw [← heq]; rfl
    · obtain ⟨⟨hvk, hvc, hvr⟩, hvj, ht, hrev⟩ := hsteady ⟨hk, hdir, hfresh, hdead⟩
      obtain ⟨htooth, hr⟩ := hknown hvk hvc
      exact ⟨htooth.trans hvj, by rw [hr, htooth, hrev, ht, hvr]⟩
  · exact ⟨s.toothFit n.val, rfl, s.toothFit_fits h⟩
  · have heq := s.markExpire_eq hm hp he
    obtain ⟨hraw, hothers, hturn⟩ :=
      (s.advance ((u + p.1 / (2 * p.2)) / 64 + 12)).setTurn_keeps (n := n.val) { s.turn n.val with marks := [] }
    dsimp only at heq
    generalize ht : (s.advance ((u + p.1 / (2 * p.2)) / 64 + 12)).setTurn n.val { s.turn n.val with marks := [] } = t at heq hraw hturn
    have hregs (g : Fld) (i : Nat) : t.f g i = s.f g i := by rw [← ht]; rfl
    have hn : n.val < 16 := by omega
    have hbook : ((t.syncError n.val).1.ttRaise n.val (t.syncError n.val).2).ttBook n.val = t.ttBook n.val := by
      rw [State.ttRaise_ttBook, State.syncError_ttBook]
    have hmarks := congrArg Turntable.marks (State.turn_of_ttBook t hbook)
    have hst : t.ttState n.val = s.ttState n.val := hregs _ _
    have hkeep (st : Nat) : ((t.syncError n.val).1.ttRaise n.val st).ttState n.val = (t.syncError n.val).1.ttState n.val :=
      State.f_ttRaise_ne _ (fun h => absurd (Nat.add_right_cancel h) (by decide))
    refine ⟨(t.syncError n.val).1.ttRaise n.val (t.syncError n.val).2, ?_, hmarks.trans ?_, ?_, ?_, fun hs => ⟨?_, ?_⟩, fun hs => ?_,
      (State.raw_of_ttBook t hbook).trans hraw⟩
    · rw [← heq]; rfl
    · rw [hturn]; rfl
    · rw [State.f_ttRaise_ne _ (fun h => absurd (Nat.add_right_cancel h) (by decide)), State.syncError_cnt _ hn]
      unfold counted
      rw [hregs]
    · exact State.on_ttRaise _ rfl rfl (by decide) t.syncError_bits
    · rw [hkeep, State.syncError_lost _ hn (hst.trans hs)]
    · refine State.on_ttRaise _ rfl rfl (by decide) ?_
      rw [t.syncError_synced (hst.trans hs)]
      dsimp only
      decide
    · rw [hkeep, State.syncError_hunts _ hn (hst.trans hs)]
  · have hn : n.val < 16 := by omega
    have heq := s.stall_eq hd hr he
    obtain ⟨hst, hpred, hstalls, hirq, hdead, hfrozen, hbefore, hraw⟩ := (s.advance (d / 64 + 12)).stallNow_facts hn
    refine ⟨(s.advance (d / 64 + 12)).stallNow n.val, ?_, hst, hpred, hstalls, hirq, hdead, hfrozen, hbefore, hraw⟩
    rw [← heq]; rfl

end

section
/-! PROOFS. The reference: its pulses, its messages, its loss (R32 to R40, R420). -/

namespace Sys2Proof.Machine

variable (s : State)

/-! ### A loss that is not due -/

theorem State.lossBy_none (u : Nat) (h : s.lossAt = none) : s.lossBy u = s := by
  unfold State.lossBy
  rw [h]

/-- A pulse rejected while no loss is to come (R37, R420). -/
theorem State.rejectPulse_present (h : s.lossAt = none) :
    s.rejectPulse = (s.bump TBU.CNT_EVT.LO).set1 TBU.IRQ_RAW.REF_REJ := by
  have hloss : ((s.bump TBU.CNT_EVT.LO).set1 TBU.IRQ_RAW.REF_REJ).lossAt = none := by
    have hlast : s.tbu.lastPulse = none := Option.map_eq_none_iff.mp h
    unfold State.lossAt
    rw [State.set1_tbu, State.bump_tbu, hlast]
    rfl
  unfold State.rejectPulse State.lossDue
  exact State.lossBy_none _ _ hloss

/-- A rejection of a pulse, counted. -/
theorem State.pulseRejected_facts : ((s.bump TBU.CNT_EVT.LO).set1 TBU.IRQ_RAW.REF_REJ).f TBU.CNT_EVT.LO = counted s TBU.CNT_EVT.LO
    ∧ ((s.bump TBU.CNT_EVT.LO).set1 TBU.IRQ_RAW.REF_REJ).on TBU.IRQ_RAW.REF_REJ = true := by
  constructor
  · rw [State.f_set1_eq, State.f_setF_other _ _ _ _ _ _ (by decide), State.f_bump_eq, State.f_setF_self _ _ _ _ (by decide)]
    exact s.counted_eq TBU.CNT_EVT.LO 0 1
  · exact State.on_set1 _ _ _ (by decide) rfl

/-- A message rejected (R420). -/
theorem State.rejectMessage_facts : s.rejectMessage.f TBU.CNT_EVT.HI = counted s TBU.CNT_EVT.HI
    ∧ s.rejectMessage.on TBU.IRQ_RAW.REF_REJ = true := by
  constructor
  · unfold State.rejectMessage
    rw [State.f_set1_eq, State.f_setF_other _ _ _ _ _ _ (by decide), State.f_bump_eq, State.f_setF_self _ _ _ _ (by decide)]
    exact s.counted_eq TBU.CNT_EVT.HI 0 1
  · exact State.on_set1 _ _ _ (by decide) rfl

theorem State.rejectMessage_frame : s.rejectMessage.tbu = s.tbu
    ∧ ({ s.rejectMessage with seenNow := s.seenNow, regs := s.regs } : State) = s := ⟨rfl, rfl⟩

/-! ### A pulse arrives -/

/-- The edge of a pulse entered in its vernier's histogram. -/
def State.pulseHeard (cyc : Nat) (code : Fin 128) : State := (s.advance cyc).hit vernRef code.val cyc

theorem State.exec_ppsEdge (cyc : Nat) (code : Fin 128) (ha : s.mode.alive = true) (hl : s.lossAt = none) :
    exec (.ppsEdge cyc code) s = .next (settle ((s.pulseHeard cyc code).pulse
      { edge := s.edgeU vernRef cyc code.val, stamp := s.refStamp (s.edgeU vernRef cyc code.val) })) := by
  have hloss : (s.advance cyc).lossBy (s.edgeU vernRef cyc code.val) = s.advance cyc := State.lossBy_none _ _ hl
  have hedge : (s.advance cyc).edgeU vernRef cyc code.val = s.edgeU vernRef cyc code.val := rfl
  have hexec : exec (.ppsEdge cyc code) s = execPpsEdge cyc code s := rfl
  rw [hexec]
  unfold execPpsEdge
  rw [if_pos ha]
  dsimp only
  rw [hedge, hloss]
  rfl

theorem State.pulseHeard_vernier (cyc : Nat) (code : Fin 128) :
    (s.pulseHeard cyc code).vernier vernRef = { (s.vernier vernRef).count code.val 1 with live := some cyc } :=
  (SMap.get_put _ _ _ _ _).trans (if_pos rfl)

theorem State.pulseHeard_vernier_ne (cyc : Nat) (code : Fin 128) {v : Nat} (h : v ≠ vernRef) :
    (s.pulseHeard cyc code).vernier v = s.vernier v :=
  (SMap.get_put _ _ _ _ _).trans (if_neg h)

theorem State.pulse_waits {p : Pulse} (ht : s.tbu.tenths = none) (ha : s.tbu.await = none)
    (h : s.nextNow = false ∨ s.on TBU.REF.RATE = true) :
    s.pulse p = { s with tbu := { s.tbu with pulses := s.tbu.pulses ++ [p] } } := by
  unfold State.pulse
  rw [ht, ite_self, ha]
  dsimp only
  rw [if_neg]
  rcases h with h | h <;> simp [h]

theorem State.pulse_rejected {p : Pulse} (ht : s.tbu.tenths = none) (ha : s.tbu.await = none) (hn : s.nextNow = true)
    (hr : s.on TBU.REF.RATE = false) : s.pulse p = s.rejectPulse := by
  unfold State.pulse
  rw [ht, ite_self, ha]
  dsimp only
  rw [hn, hr]
  rfl

/-- The message that awaited a pulse is answered. -/
def State.answered : State := { s with tbu := { s.tbu with await := none } }

/-- A pulse that a message awaits (R420). -/
theorem State.pulse_awaited {p : Pulse} {m : TodWait} (ht : s.tbu.tenths = none) (ha : s.tbu.await = some m) :
    s.pulse p = s.answered.judgeSecond p m.sec m.refOk
      (10 * msU ≤ p.edge - m.done && p.edge - m.done ≤ 990 * msU) := by
  unfold State.pulse
  rw [ht, ite_self, ha]
  rfl

/-! ### A second accepted (R36, R38) -/

/-- The books of a second accepted at 1 Hz. -/
def State.seconded (edge sec : Nat) : State :=
  { s with tbu := { s.tbu with
      prevPulse := some edge, lastSec := some (edge, sec), lastPulse := some edge, run := s.tbu.run + 1, tenths := none } }

/-- REF_QUAL, once the seconds in a row are enough. -/
def State.qualified : State := if s.f TBU.REF.QUAL_N ≤ s.tbu.run then s.set1 TBU.STS.REF_QUAL else s

theorem State.judgeSecond_accepts {p : Pulse} {sec : Nat} {intime : Bool} (hi : intime = true) (hl : s.tbu.lastSec = none)
    (hr : s.on TBU.REF.RATE = false) : s.judgeSecond p sec true intime
      = (s.seconded p.edge sec).qualified.acceptPulse (vtDiff p.stamp (s.vtOf sec 0)) true (s.straddles s.tbu.lastPulse p.edge) := by
  unfold State.judgeSecond
  extract_lets seqOk tbu1 s1 strad tbu2 s2 s3 tbu4
  have hs2 : s2 = s.seconded p.edge sec := by
    have hr1 : s1.on TBU.REF.RATE = false := hr
    simp only [s2, hr1]
    rfl
  have hs3 : s3 = (s.seconded p.edge sec).qualified := by
    simp only [s3, hs2]
    rfl
  have hvt : s3.vtOf sec 0 = s.vtOf sec 0 := by
    rw [hs3]
    unfold State.qualified
    split <;> rfl
  have hseq : seqOk = true := by simp only [seqOk, hl]
  have hgo : (true && intime && seqOk) = true := by rw [hi, hseq]; rfl
  rw [if_pos hgo, hvt, hs3]
  rfl

theorem State.qualified_keeps : s.qualified.tbu = s.tbu ∧ ({ s.qualified with regs := s.regs } : State) = s := by
  unfold State.qualified
  split <;> exact ⟨rfl, rfl⟩

theorem State.qualified_f {k : Fld} (h : k.off ≠ TBU.STS.REF_QUAL.off) : s.qualified.f k = s.f k := by
  unfold State.qualified
  split
  · rw [State.f_set1_eq]
    exact State.f_setF_other _ _ _ 0 0 _ h
  · rfl

theorem State.qualified_srv : s.qualified.srv = s.srv := by
  unfold State.qualified State.srv
  split
  · rw [State.f_set1_eq]
    exact State.f_setF_beside _ TBU.STS.REF_QUAL TBU.STS.SRV_STATE 0 0 1 (by decide)
  · rfl

theorem State.qualified_on (h : s.f TBU.REF.QUAL_N ≤ s.tbu.run) : s.qualified.on TBU.STS.REF_QUAL = true := by
  unfold State.qualified
  rw [if_pos h]
  exact State.on_set1 _ _ _ (by decide) rfl

/-- The phase error shown in TBU.PHERR. -/
def State.phaseShown (e : Int) : State := s.setF TBU.PHERR.V (bitsOfInt 32 (max (-(2 ^ 31 - 1)) (min (2 ^ 31 - 1) e)))

theorem State.phaseShown_f {k : Fld} (e : Int) (h : k.off ≠ TBU.PHERR.V.off) : (s.phaseShown e).f k = s.f k :=
  State.f_setF_other _ _ _ 0 0 _ h

theorem State.phaseShown_pherr (e : Int) :
    (s.phaseShown e).f TBU.PHERR.V = bitsOfInt 32 (max (-(2 ^ 31 - 1)) (min (2 ^ 31 - 1) e)) :=
  (State.f_setF_self _ _ _ _ (by decide)).trans (Nat.mod_eq_of_lt (bitsOfInt_lt 32 _))

/-- With the servo off an accepted pulse only shows its error. -/
theorem State.acceptPulse_off (e : Int) (whole strad : Bool) (h : s.srvOn = false) : s.acceptPulse e whole strad = s.phaseShown e := by
  have hon : (s.phaseShown e).srvOn = false := by
    unfold State.srvOn at h ⊢
    rw [State.on_eq, s.phaseShown_f e (by decide), ← State.on_eq, h]
  unfold State.acceptPulse
  exact if_pos (.inl (by rw [← State.phaseShown, hon]; rfl))

/-- What an accepted second leaves of a state with the servo off. -/
theorem State.judgeSecond_off {p : Pulse} {sec : Nat} {intime : Bool} (hi : intime = true) (hl : s.tbu.lastSec = none)
    (hr : s.on TBU.REF.RATE = false) (hoff : s.srvOn = false) :
    (s.judgeSecond p sec true intime).tbu = (s.seconded p.edge sec).tbu
      ∧ (s.judgeSecond p sec true intime).f TBU.PHERR.V
        = bitsOfInt 32 (max (-(2 ^ 31 - 1)) (min (2 ^ 31 - 1) (vtDiff p.stamp (s.vtOf sec 0))))
      ∧ (s.f TBU.REF.QUAL_N ≤ s.tbu.run + 1 → (s.judgeSecond p sec true intime).on TBU.STS.REF_QUAL = true)
      ∧ (s.judgeSecond p sec true intime).srv = s.srv
      ∧ ({ s.judgeSecond p sec true intime with regs := s.regs, tbu := s.tbu } : State) = s := by
  have hon : (s.seconded p.edge sec).qualified.srvOn = false := by
    unfold State.srvOn at hoff ⊢
    rw [State.on_eq, State.qualified_f _ (by decide)]
    exact hoff
  rw [s.judgeSecond_accepts hi hl hr, State.acceptPulse_off _ _ _ _ hon]
  obtain ⟨htbu, hframe⟩ := (s.seconded p.edge sec).qualified_keeps
  refine ⟨htbu, State.phaseShown_pherr _ _, fun hq => ?_, ?_, ?_⟩
  · rw [State.on_eq, State.phaseShown_f _ _ (by decide), ← State.on_eq]
    exact State.qualified_on _ hq
  · unfold State.srv
    rw [State.phaseShown_f _ _ (by decide)]
    exact (s.seconded p.edge sec).qualified_srv
  · have h := congrArg (fun u : State => ({ u with regs := s.regs, tbu := s.tbu } : State)) hframe
    exact h

/-! ### The servo (R38 to R40) -/

/-- BIG_ERR, outside Configure. -/
def State.errShown (e : Int) : State := if 1000 * 1000 * 256 < e.natAbs * 10 ∧ s.mode ≠ .configure then s.set1 TBU.IRQ_RAW.BIG_ERR else s

theorem State.errShown_keeps (e : Int) : (s.errShown e).tbu = s.tbu
    ∧ ({ s.errShown e with seenNow := s.seenNow, regs := s.regs } : State) = s := by
  unfold State.errShown
  split <;> exact ⟨rfl, rfl⟩

theorem State.errShown_f {k : Fld} (e : Int) (h : k.off ≠ TBU.IRQ_RAW.BIG_ERR.off) : (s.errShown e).f k = s.f k := by
  unfold State.errShown
  split
  · rw [State.f_set1_eq]
    exact State.f_setF_other _ _ _ 0 0 _ h
  · rfl

theorem State.qualify_running (e : Int) (h : s.srv = srvAcquire ∨ s.srv = srvLocked) : s.qualify e = (s, false) := by
  have h1 : ¬(s.srv = srvFree ∨ s.srv = srvHoldover) := by rcases h with h | h <;> rw [h] <;> decide
  have h2 : ¬(s.srv = srvQualify ∧ s.f TBU.REF.QUAL_N ≤ s.tbu.run) := by rcases h with h | h <;> rw [h] <;> simp
  unfold State.qualify
  rw [if_neg h1]
  exact if_neg h2

theorem State.acceptPulse_running (e : Int) (hon : s.srvOn = true) (h : s.srv = srvAcquire ∨ s.srv = srvLocked) :
    s.acceptPulse e true false = ((((s.phaseShown e).errShown e).servo e).lockStep e) := by
  have hon1 : (s.phaseShown e).srvOn = true := by
    unfold State.srvOn at hon ⊢
    rw [State.on_eq, s.phaseShown_f e (by decide), ← State.on_eq, hon]
  have hsrv1 : (s.phaseShown e).srv = s.srv := s.phaseShown_f e (by decide)
  have hsrv2 : ((s.phaseShown e).errShown e).srv = s.srv := ((s.phaseShown e).errShown_f e (by decide)).trans hsrv1
  have hstart : ¬((!(s.phaseShown e).srvOn) = true ∨ (s.phaseShown e).srv = srvFollow) := by
    rw [hon1, hsrv1]
    rcases h with h | h <;> rw [h] <;> decide
  have hq := State.qualify_running ((s.phaseShown e).errShown e) e (by rw [hsrv2]; exact h)
  unfold State.acceptPulse
  extract_lets s1 s2
  rw [if_neg (show ¬((!s1.srvOn) = true ∨ s1.srv = srvFollow) from hstart)]
  have hs2 : s2 = (s.phaseShown e).errShown e := rfl
  rw [hs2, if_pos rfl, hq]
  dsimp only
  rw [if_neg (by simp), hsrv2, if_pos h]

/-- The phase error in seconds. -/
def phaseSec (e : Int) : F64 := F64.ofRatio (e * 5) 128000000000

/-- The slew limit is reached. -/
def State.slewSat (e : Int) : Bool := (ppm (s.f TBU.SERVO.SLEW)).lt ((gains (s.f TBU.SERVO.BW)).1.mul (phaseSec e)).abs

/-- The proportional part, at the slew limit or below it. -/
def State.servoProp (e : Int) : F64 :=
  if s.slewSat e then (ppm (s.f TBU.SERVO.SLEW)).copysign ((gains (s.f TBU.SERVO.BW)).1.mul (phaseSec e))
  else (gains (s.f TBU.SERVO.BW)).1.mul (phaseSec e)

/-- The integral part at one pulse a second. -/
def State.servoInteg (e : Int) : F64 :=
  (if s.slewSat e then s.tbu.integ else s.tbu.integ.add (((gains (s.f TBU.SERVO.BW)).2.mul (F64.ofRatio 1 1)).mul (phaseSec e))).clamp
    (ppm (-200)) (ppm 200)

/-- The frequency word. -/
def State.servoCorr (e : Int) : Nat :=
  bitsOfInt 32 (clampCorr ((((s.servoInteg e).add (s.servoProp e)).neg).clamp (ppm (-200)) (ppm 200) |>.scalb 40).round)

/-- The servo's books after a pulse. -/
def State.withServo (x : F64) : State := { s with tbu := { s.tbu with integ := x, avg := (x.neg :: s.tbu.avg).take 2560 } }

theorem State.servo_eq (e : Int) (hr : s.on TBU.REF.RATE = false) : s.servo e
    = ((s.setF TBU.FREQ.CORR (s.servoCorr e)).setF TBU.STS.SLEW_SAT (if s.slewSat e then 1 else 0)).withServo (s.servoInteg e) := by
  have hrate : s.rateHz = 1 := by
    unfold State.rateHz
    rw [hr]
    rfl
  unfold State.servo
  extract_lets es g slew p sat p2 ts integ0 integ freq s2
  have hsat : sat = s.slewSat e := rfl
  have hp : p2 = s.servoProp e := rfl
  have hinteg : integ = s.servoInteg e := by
    simp only [integ, integ0, ts, hrate]
    rfl
  have hfreq : freq = (((s.servoInteg e).add (s.servoProp e)).neg).clamp (ppm (-200)) (ppm 200) := by
    simp only [freq, hinteg, hp]
  clear_value sat integ
  have hs2 : s2 = (s.setF TBU.FREQ.CORR (s.servoCorr e)).setF TBU.STS.SLEW_SAT (if s.slewSat e then 1 else 0) := by
    unfold State.servoCorr
    simp only [s2, hfreq, hsat]
    rfl
  have hbooks : s2.withServo integ = s2.withServo (s.servoInteg e) := by rw [hinteg]
  refine Eq.trans (b := s2.withServo integ) rfl ?_
  rw [hbooks, hs2]

theorem State.f_withServo (x : F64) (k : Fld) (j : Nat) : (s.withServo x).f k j = s.f k j := rfl

theorem State.servo_tbu (e : Int) (hr : s.on TBU.REF.RATE = false) :
    (s.servo e).tbu = { s.tbu with integ := s.servoInteg e, avg := ((s.servoInteg e).neg :: s.tbu.avg).take 2560 } := by
  have htbu (t : State) (x : F64) : (t.withServo x).tbu = { t.tbu with integ := x, avg := (x.neg :: t.tbu.avg).take 2560 } := rfl
  rw [s.servo_eq e hr, htbu, State.setF_tbu, State.setF_tbu]

theorem State.servo_corr (e : Int) (hr : s.on TBU.REF.RATE = false) : (s.servo e).f TBU.FREQ.CORR = s.servoCorr e := by
  rw [s.servo_eq e hr, State.f_withServo, State.f_setF_other _ _ _ _ _ _ (by decide), State.f_setF_self _ _ _ _ (by decide)]
  exact Nat.mod_eq_of_lt (bitsOfInt_lt 32 _)

theorem State.servo_sat (e : Int) (hr : s.on TBU.REF.RATE = false) : (s.servo e).on TBU.STS.SLEW_SAT = s.slewSat e := by
  rw [State.on_eq, s.servo_eq e hr, State.f_withServo, State.f_setF_self _ _ _ _ (by decide)]
  cases s.slewSat e <;> rfl

theorem State.servo_srv (e : Int) (hr : s.on TBU.REF.RATE = false) : (s.servo e).srv = s.srv := by
  unfold State.srv
  rw [s.servo_eq e hr, State.f_withServo, State.f_setF_beside _ TBU.STS.SLEW_SAT TBU.STS.SRV_STATE _ _ _ (by decide),
    State.f_setF_other _ _ _ _ _ _ (by decide)]

theorem State.servo_f {k : Fld} (e : Int) (hr : s.on TBU.REF.RATE = false) (h1 : k.off ≠ TBU.FREQ.CORR.off)
    (h2 : k.off ≠ TBU.STS.SLEW_SAT.off) : (s.servo e).f k = s.f k := by
  rw [s.servo_eq e hr, State.f_withServo, State.f_setF_other _ _ _ 0 0 _ h2, State.f_setF_other _ _ _ 0 0 _ h1]

/-- The state but for the timebase's books and the registers. -/
def State.besideTbu : State := { s with seenNow := {}, regs := [], tbu := {} }

theorem State.withTbu_besideTbu (x : Tbu) : ({ s with tbu := x } : State).besideTbu = s.besideTbu := rfl
theorem State.setF_besideTbu (g : Fld) (v i : Nat) : (s.setF g v i).besideTbu = s.besideTbu := rfl
theorem State.setSrv_besideTbu (n : Nat) : (s.setSrv n).besideTbu = s.besideTbu := rfl
theorem State.set1_besideTbu (g : Fld) (i : Nat) : (s.set1 g i).besideTbu = s.besideTbu := rfl

/-- The timebase's books that the step of the lock leaves. -/
def Tbu.servoPart (x : Tbu) : F64 × List F64 := (x.integ, x.avg)

theorem State.setSrv_f (n : Nat) {k : Fld} (h : k.off ≠ TBU.STS.SRV_STATE.off ∨ k = TBU.STS.SLEW_SAT) : (s.setSrv n).f k = s.f k := by
  rcases h with h | rfl
  · exact State.f_setF_other _ _ _ 0 0 _ h
  · exact State.f_setF_beside _ TBU.STS.SRV_STATE TBU.STS.SLEW_SAT 0 0 n (by decide)

/-- What the step of the lock leaves: the servo's integral part and the registers but TBU.STS and the interrupts. -/
theorem State.lockStep_keeps (e : Int) : (s.lockStep e).tbu.servoPart = s.tbu.servoPart
    ∧ (∀ k : Fld, k.off ≠ TBU.STS.SRV_STATE.off ∨ k = TBU.STS.SLEW_SAT → k.off ≠ TBU.IRQ_RAW.LOCKED.off → (s.lockStep e).f k = s.f k)
    ∧ (s.lockStep e).besideTbu = s.besideTbu := by
  have hirq (t : State) (k : Fld) (h : k.off ≠ TBU.IRQ_RAW.LOCKED.off) : (t.set1 TBU.IRQ_RAW.LOCKED).f k = t.f k :=
    (State.f_set1_eq _ _ _ _ _).trans (State.f_setF_other _ _ _ 0 0 _ h)
  unfold State.lockStep
  dsimp only
  by_cases h1 : s.srv = srvAcquire
  · rw [if_pos h1]
    generalize (if e.natAbs * 10 ≤ s.f TBU.SERVO.LOCK_THR * 256 then s.tbu.lockCnt + 1 else 0) = n
    split
    · refine ⟨?_, fun k hk h2 => ?_, ?_⟩
      · rfl
      · rw [State.f_withTbu, hirq _ _ h2, State.setSrv_f _ _ hk, State.f_withTbu]
      · rw [State.withTbu_besideTbu, State.set1_besideTbu, State.setSrv_besideTbu, State.withTbu_besideTbu]
    · exact ⟨rfl, fun _ _ _ => rfl, s.withTbu_besideTbu _⟩
  · rw [if_neg h1]
    by_cases h2 : s.srv = srvLocked
    · rw [if_pos h2]
      generalize (if 8 * s.f TBU.SERVO.LOCK_THR * 256 < e.natAbs * 10 then s.tbu.overCnt + 1 else 0) = n
      split
      · refine ⟨rfl, fun k hk _ => ?_, ?_⟩
        · rw [State.f_withTbu, State.setSrv_f _ _ hk]
        · rw [State.withTbu_besideTbu, State.setSrv_besideTbu]
      · exact ⟨rfl, fun _ _ _ => rfl, s.withTbu_besideTbu _⟩
    · rw [if_neg h2]
      exact ⟨rfl, fun _ _ _ => rfl, rfl⟩

theorem State.setSrv_srv {n : Nat} (h : n < 8) : (s.setSrv n).srv = n :=
  (State.f_setF_self _ _ _ _ (by decide)).trans (Nat.mod_eq_of_lt h)

theorem State.lockStep_acquire (e : Int) (h : s.srv = srvAcquire) :
    (s.lockStep e).srv = if e.natAbs * 10 ≤ s.f TBU.SERVO.LOCK_THR * 256 ∧ s.f TBU.SERVO.LOCK_N ≤ s.tbu.lockCnt + 1
      ∨ s.f TBU.SERVO.LOCK_N = 0 then srvLocked else srvAcquire := by
  have hcond : s.f TBU.SERVO.LOCK_N ≤ (if e.natAbs * 10 ≤ s.f TBU.SERVO.LOCK_THR * 256 then s.tbu.lockCnt + 1 else 0)
      ↔ e.natAbs * 10 ≤ s.f TBU.SERVO.LOCK_THR * 256 ∧ s.f TBU.SERVO.LOCK_N ≤ s.tbu.lockCnt + 1 ∨ s.f TBU.SERVO.LOCK_N = 0 := by
    split <;> omega
  have hirq (t : State) : (t.set1 TBU.IRQ_RAW.LOCKED).srv = t.srv :=
    (State.f_set1_eq _ _ _ _ _).trans (State.f_setF_other _ _ _ _ _ _ (by decide))
  have htbu (t : State) (x : Tbu) : ({ t with tbu := x } : State).srv = t.srv := rfl
  unfold State.lockStep
  dsimp only
  rw [if_pos h, State.f_withTbu]
  by_cases hc : s.f TBU.SERVO.LOCK_N ≤ (if e.natAbs * 10 ≤ s.f TBU.SERVO.LOCK_THR * 256 then s.tbu.lockCnt + 1 else 0)
  · rw [if_pos hc, if_pos (hcond.mp hc), htbu, hirq, State.setSrv_srv _ (by decide)]
  · rw [if_neg hc, if_neg (mt hcond.mpr hc), htbu, h]

theorem State.lockStep_locked (e : Int) (h : s.srv = srvLocked) :
    (s.lockStep e).srv = if 8 * s.f TBU.SERVO.LOCK_THR * 256 < e.natAbs * 10 ∧ 1 ≤ s.tbu.overCnt then srvAcquire else srvLocked := by
  have hcond : 2 ≤ (if 8 * s.f TBU.SERVO.LOCK_THR * 256 < e.natAbs * 10 then s.tbu.overCnt + 1 else 0)
      ↔ 8 * s.f TBU.SERVO.LOCK_THR * 256 < e.natAbs * 10 ∧ 1 ≤ s.tbu.overCnt := by
    split <;> omega
  have htbu (t : State) (x : Tbu) : ({ t with tbu := x } : State).srv = t.srv := rfl
  unfold State.lockStep
  dsimp only
  rw [if_neg (by rw [h]; decide), if_pos h]
  by_cases hc : 2 ≤ (if 8 * s.f TBU.SERVO.LOCK_THR * 256 < e.natAbs * 10 then s.tbu.overCnt + 1 else 0)
  · rw [if_pos hc, if_pos (hcond.mp hc), htbu, State.setSrv_srv _ (by decide)]
  · rw [if_neg hc, if_neg (mt hcond.mpr hc), htbu, h]

/-! ### A loss of the reference (R37, R41) -/

theorem State.copyFreqHold_keeps : s.copyFreqHold.srv = s.srv ∧ s.copyFreqHold.on TBU.STS.REF_QUAL = s.on TBU.STS.REF_QUAL
    ∧ s.copyFreqHold.tbu = s.tbu ∧ s.copyFreqHold.besideTbu = s.besideTbu := by
  refine ⟨?_, ?_, ?_, ?_⟩
  · unfold State.srv State.copyFreqHold
    dsimp only
    rw [State.f_setF_other _ _ _ _ _ _ (by decide), State.f_setF_other _ _ _ _ _ _ (by decide), State.f_setF_other _ _ _ _ _ _ (by decide)]
  · unfold State.copyFreqHold
    dsimp only
    rw [State.on_eq, State.f_setF_other _ _ _ _ _ _ (by decide), State.f_setF_other _ _ _ _ _ _ (by decide),
      State.f_setF_other _ _ _ _ _ _ (by decide), ← State.on_eq]
  · unfold State.copyFreqHold
    dsimp only
    rw [State.setF_tbu, State.setF_tbu, State.setF_tbu]
  · unfold State.copyFreqHold
    dsimp only
    rw [State.setF_besideTbu, State.setF_besideTbu, State.setF_besideTbu]

/-- The books of a lost reference. -/
def State.refGone : State := ({ s with tbu := { s.tbu with lastPulse := none, lastSec := none, run := 0, tenths := none } } : State).clr TBU.STS.REF_QUAL

/-- HOLDOVER at the frequency kept. -/
def State.holdsOver : State :=
  ((s.copyFreqHold.setF TBU.FREQ.CORR (s.copyFreqHold.f TBU.KS_FREQ.V)).setSrv srvHoldover).set1 TBU.IRQ_RAW.REF_LOST

theorem State.refLost_locked (h : s.srv = srvLocked) : s.refLost = s.refGone.holdsOver := by
  have hsrv : s.refGone.srv = srvLocked := by
    rw [← h]
    exact State.f_setF_beside _ TBU.STS.REF_QUAL TBU.STS.SRV_STATE 0 0 0 (by decide)
  have hloss : s.refLost = if s.refGone.srv = srvQualify then s.refGone.setSrv s.refGone.tbu.before
    else if s.refGone.srv = srvAcquire ∨ s.refGone.srv = srvLocked then s.refGone.holdsOver else s.refGone := rfl
  rw [hloss, if_neg (by rw [hsrv]; decide), if_pos (.inr hsrv)]

theorem State.holdsOver_facts : s.holdsOver.srv = srvHoldover ∧ s.holdsOver.on TBU.IRQ_RAW.REF_LOST = true
    ∧ s.holdsOver.on TBU.STS.REF_QUAL = s.on TBU.STS.REF_QUAL ∧ s.holdsOver.f TBU.FREQ.CORR = s.holdsOver.f TBU.KS_FREQ.V
    ∧ s.holdsOver.tbu = s.tbu ∧ s.holdsOver.besideTbu = s.besideTbu := by
  obtain ⟨-, hq, htbu, hbeside⟩ := s.copyFreqHold_keeps
  have hsrv (t : State) (n : Nat) (k : Fld) (h : k.off ≠ TBU.STS.SRV_STATE.off) : (t.setSrv n).f k = t.f k :=
    State.f_setF_other _ _ _ 0 0 _ h
  have hirq (t : State) (k : Fld) (h : k.off ≠ TBU.IRQ_RAW.REF_LOST.off) : (t.set1 TBU.IRQ_RAW.REF_LOST).f k = t.f k :=
    (State.f_set1_eq _ _ _ _ _).trans (State.f_setF_other _ _ _ 0 0 _ h)
  have hqual (t : State) (n : Nat) : (t.setSrv n).f TBU.STS.REF_QUAL = t.f TBU.STS.REF_QUAL :=
    State.f_setF_beside _ TBU.STS.SRV_STATE TBU.STS.REF_QUAL 0 0 n (by decide)
  unfold State.holdsOver
  refine ⟨?_, State.on_set1 _ _ _ (by decide) rfl, ?_, ?_, ?_, ?_⟩
  · unfold State.srv
    rw [hirq _ _ (by decide)]
    exact State.setSrv_srv _ (by decide)
  · rw [State.on_eq, hirq _ _ (by decide), hqual, State.f_setF_other _ _ _ _ _ _ (by decide), ← State.on_eq, hq]
  · rw [hirq _ _ (by decide), hsrv _ _ _ (by decide), hirq _ _ (by decide), hsrv _ _ _ (by decide), State.f_setF_self _ _ _ _ (by decide),
      State.f_setF_other _ _ _ _ _ _ (by decide)]
    exact Nat.mod_eq_of_lt (State.f_lt _ TBU.KS_FREQ.V 0)
  · have hset (u : State) (n : Nat) : (u.setSrv n).tbu = u.tbu := rfl
    rw [State.set1_tbu, hset, State.setF_tbu, htbu]
  · rw [State.set1_besideTbu, State.setSrv_besideTbu, State.setF_besideTbu, hbeside]

/-! ### A second accepted by a servo that runs -/

/-- The state the servo starts from, the pulse accepted. -/
def State.secondShown (edge sec : Nat) (e : Int) : State := ((s.seconded edge sec).qualified.phaseShown e).errShown e

theorem State.secondShown_tbu (edge sec : Nat) (e : Int) : (s.secondShown edge sec e).tbu = (s.seconded edge sec).tbu := by
  unfold State.secondShown
  rw [(State.errShown_keeps _ e).1]
  exact (s.seconded edge sec).qualified_keeps.1

theorem State.secondShown_f {k : Fld} (edge sec : Nat) (e : Int) (h1 : k.off ≠ TBU.STS.REF_QUAL.off) (h2 : k.off ≠ TBU.PHERR.V.off)
    (h3 : k.off ≠ TBU.IRQ_RAW.BIG_ERR.off) : (s.secondShown edge sec e).f k = s.f k := by
  unfold State.secondShown
  rw [State.errShown_f _ e h3, State.phaseShown_f _ e h2, State.qualified_f _ h1]
  rfl

theorem State.secondShown_srv (edge sec : Nat) (e : Int) : (s.secondShown edge sec e).srv = s.srv := by
  unfold State.secondShown State.srv
  rw [State.errShown_f _ e (by decide), State.phaseShown_f _ e (by decide)]
  exact (s.seconded edge sec).qualified_srv

theorem State.secondShown_pherr (edge sec : Nat) (e : Int) :
    (s.secondShown edge sec e).f TBU.PHERR.V = bitsOfInt 32 (max (-(2 ^ 31 - 1)) (min (2 ^ 31 - 1) e)) := by
  unfold State.secondShown
  rw [State.errShown_f _ e (by decide), State.phaseShown_pherr]

theorem State.secondShown_besideTbu (edge sec : Nat) (e : Int) : (s.secondShown edge sec e).besideTbu = s.besideTbu := by
  have herr (t : State) : (t.errShown e).besideTbu = t.besideTbu := by unfold State.errShown; split <;> rfl
  have hqual (t : State) : t.qualified.besideTbu = t.besideTbu := by unfold State.qualified; split <;> rfl
  unfold State.secondShown
  rw [herr]
  exact hqual _

section
variable {s} {p : Pulse} {sec : Nat} {intime : Bool} (hi : intime = true) (hl : s.tbu.lastSec = none) (hr : s.on TBU.REF.RATE = false)
  (hon : s.srvOn = true) (hs : s.tbu.lastStep = none) (hst : s.srv = srvAcquire ∨ s.srv = srvLocked)
  {e : Int} (he : e = vtDiff p.stamp (s.vtOf sec 0))
include hi hl hr hon hs hst he

theorem State.judgeSecond_running : s.judgeSecond p sec true intime = ((s.secondShown p.edge sec e).servo e).lockStep e := by
  have hstrad : s.straddles s.tbu.lastPulse p.edge = false := by
    unfold State.straddles
    rw [hs]
  have hq : (s.seconded p.edge sec).qualified.srvOn = true := by
    unfold State.srvOn at hon ⊢
    rw [State.on_eq, State.qualified_f _ (by decide)]
    exact hon
  have hsrv : (s.seconded p.edge sec).qualified.srv = s.srv := (s.seconded p.edge sec).qualified_srv
  rw [s.judgeSecond_accepts hi hl hr, ← he, hstrad, State.acceptPulse_running _ e hq (by rw [hsrv]; exact hst)]
  rfl

/-- What the servo makes of a second's phase error (R38 to R40). -/
theorem State.judgeSecond_servo :
    (s.judgeSecond p sec true intime).tbu.integ = s.servoInteg e
      ∧ (s.judgeSecond p sec true intime).f TBU.FREQ.CORR = s.servoCorr e
      ∧ (s.judgeSecond p sec true intime).on TBU.STS.SLEW_SAT = s.slewSat e
      ∧ (s.judgeSecond p sec true intime).tbu.avg = ((s.servoInteg e).neg :: s.tbu.avg).take 2560
      ∧ (s.judgeSecond p sec true intime).f TBU.PHERR.V = bitsOfInt 32 (max (-(2 ^ 31 - 1)) (min (2 ^ 31 - 1) e))
      ∧ (s.srv = srvAcquire → (s.judgeSecond p sec true intime).srv
        = (if e.natAbs * 10 ≤ s.f TBU.SERVO.LOCK_THR * 256 ∧ s.f TBU.SERVO.LOCK_N ≤ s.tbu.lockCnt + 1
            ∨ s.f TBU.SERVO.LOCK_N = 0 then srvLocked else srvAcquire))
      ∧ (s.srv = srvLocked → (s.judgeSecond p sec true intime).srv
        = (if 8 * s.f TBU.SERVO.LOCK_THR * 256 < e.natAbs * 10 ∧ 1 ≤ s.tbu.overCnt then srvAcquire else srvLocked))
      ∧ (s.judgeSecond p sec true intime).besideTbu = s.besideTbu := by
  rw [State.judgeSecond_running hi hl hr hon hs hst he]
  have htbu := s.secondShown_tbu p.edge sec e
  have hsrv := s.secondShown_srv p.edge sec e
  have hpherr := s.secondShown_pherr p.edge sec e
  have hbeside := s.secondShown_besideTbu p.edge sec e
  have hf {k : Fld} (h1 : k.off ≠ TBU.STS.REF_QUAL.off) (h2 : k.off ≠ TBU.PHERR.V.off) (h3 : k.off ≠ TBU.IRQ_RAW.BIG_ERR.off) :=
    s.secondShown_f p.edge sec e h1 h2 h3
  generalize s.secondShown p.edge sec e = x at htbu hsrv hpherr hbeside hf ⊢
  have hrx : x.on TBU.REF.RATE = false := by rw [State.on_eq, hf (by decide) (by decide) (by decide), ← State.on_eq, hr]
  have hsat : x.slewSat e = s.slewSat e := by
    unfold State.slewSat
    rw [hf (by decide) (by decide) (by decide), hf (by decide) (by decide) (by decide)]
  have hinteg : x.servoInteg e = s.servoInteg e := by
    unfold State.servoInteg
    rw [hsat, htbu, hf (by decide) (by decide) (by decide)]
    rfl
  have hprop : x.servoProp e = s.servoProp e := by
    unfold State.servoProp
    rw [hsat, hf (by decide) (by decide) (by decide), hf (by decide) (by decide) (by decide)]
  have hcorr : x.servoCorr e = s.servoCorr e := by
    unfold State.servoCorr
    rw [hinteg, hprop]
  have hstbu := x.servo_tbu e hrx
  obtain ⟨hkeep, hkeepf, hkeepb⟩ := (x.servo e).lockStep_keeps e
  have hkeepi : ((x.servo e).lockStep e).tbu.integ = (x.servo e).tbu.integ := congrArg Prod.fst hkeep
  have hkeepa : ((x.servo e).lockStep e).tbu.avg = (x.servo e).tbu.avg := congrArg Prod.snd hkeep
  have hframe : (x.servo e).besideTbu = x.besideTbu := by
    have hbooks (t : State) (y : F64) : (t.withServo y).besideTbu = t.besideTbu := rfl
    rw [x.servo_eq e hrx, hbooks, State.setF_besideTbu, State.setF_besideTbu]
  have hthr : (x.servo e).f TBU.SERVO.LOCK_THR = s.f TBU.SERVO.LOCK_THR := by
    rw [x.servo_f e hrx (by decide) (by decide), hf (by decide) (by decide) (by decide)]
  have hlockn : (x.servo e).f TBU.SERVO.LOCK_N = s.f TBU.SERVO.LOCK_N := by
    rw [x.servo_f e hrx (by decide) (by decide), hf (by decide) (by decide) (by decide)]
  have hservo : (x.servo e).srv = s.srv := (x.servo_srv e hrx).trans hsrv
  refine ⟨?_, ?_, ?_, ?_, ?_, fun h => ?_, fun h => ?_, ?_⟩
  · rw [hkeepi, hstbu]
    exact hinteg
  · rw [hkeepf _ (.inl (by decide)) (by decide), x.servo_corr e hrx, hcorr]
  · rw [State.on_eq, hkeepf _ (.inr rfl) (by decide), ← State.on_eq, x.servo_sat e hrx, hsat]
  · rw [hkeepa, hstbu, htbu, hinteg]
    rfl
  · rw [hkeepf _ (.inl (by decide)) (by decide), x.servo_f e hrx (by decide) (by decide), hpherr]
  · rw [State.lockStep_acquire _ e (hservo.trans h), hthr, hlockn, hstbu, htbu]
    rfl
  · rw [State.lockStep_locked _ e (hservo.trans h), hthr, hstbu, htbu]
    rfl
  · rw [hkeepb, hframe, hbeside]
end

end Sys2Proof.Machine

open Sys2Proof Sys2Proof.Machine

theorem referencePulses_unlock (s : State) (h : s.mode.powered = true) :
    ∃ t, exec .pllUnlock s = .next (settle t) ∧ t.on TBU.STS.PLL_LOCK = false ∧ t.on TBU.IRQ_RAW.PLL_UNLOCK = true
      ∧ t.pwr.faults = s.pwr.faults ++ [1] ∧ RegsBut s t [TBU.STS.PLL_LOCK.off, TBU.IRQ_RAW.PLL_UNLOCK.off, adr PWR.FLTSTS.FAULT]
      ∧ { t with seenNow := s.seenNow, regs := s.regs, pwr := s.pwr } = s := by
  have hexec : exec .pllUnlock s = .next (settle (if s.mode.powered then
    ((s.clr TBU.STS.PLL_LOCK).set1 TBU.IRQ_RAW.PLL_UNLOCK).fault 0x01 else s)) := rfl
  have hfaults (t : State) : (t.fault 0x01).pwr.faults = t.pwr.faults ++ [1] := rfl
  have hfault (t : State) : ({ t.fault 0x01 with seenNow := s.seenNow, regs := s.regs, pwr := s.pwr } : State)
      = { t with seenNow := s.seenNow, regs := s.regs, pwr := s.pwr } := rfl
  have hirq (t : State) (g : Fld) : ({ t.set1 g with seenNow := s.seenNow, regs := s.regs, pwr := s.pwr } : State)
      = { t with seenNow := s.seenNow, regs := s.regs, pwr := s.pwr } := rfl
  have hclr (t : State) (g : Fld) : ({ t.clr g with seenNow := s.seenNow, regs := s.regs, pwr := s.pwr } : State)
      = { t with seenNow := s.seenNow, regs := s.regs, pwr := s.pwr } := rfl
  refine ⟨((s.clr TBU.STS.PLL_LOCK).set1 TBU.IRQ_RAW.PLL_UNLOCK).fault 0x01, by rw [hexec, if_pos h], ?_, ?_,
    by rw [hfaults, State.set1_pwr, State.clr_pwr], ?_, by rw [hfault, hirq, hclr]⟩
  · rw [State.on_eq, State.f_fault_eq, State.f_setF_other _ _ _ _ _ _ (by decide), State.f_set1_eq, State.f_setF_other _ _ _ _ _ _ (by decide),
      State.f_clr_eq, State.f_setF_self _ _ _ _ (by decide)]
    rfl
  · rw [State.on_eq, State.f_fault_eq, State.f_setF_other _ _ _ _ _ _ (by decide), ← State.on_eq]
    exact State.on_set1 _ _ _ (by decide) rfl
  · refine RegsBut.fault (RegsBut.set1 (RegsBut.clr (RegsBut.refl s _) ?_) ?_) ?_
    all_goals decide

theorem referencePulses_edge (s : State) (cyc : Nat) (code : Fin 128) (ha : s.mode.alive = true) (hl : s.lossAt = none)
    (ht : s.tbu.tenths = none) (hn : s.tbu.await = none) :
    ∃ t, exec (.ppsEdge cyc code) s = .next (settle t) ∧ t.raw = max s.raw cyc
      ∧ t.vernier vernRef = { (s.vernier vernRef).count code.val 1 with live := some cyc }
      ∧ (∀ v, v ≠ vernRef → t.vernier v = s.vernier v)
      ∧ ((s.nextNow = false ∨ s.on TBU.REF.RATE = true) → t.regs = s.regs
          ∧ t.tbu.pulses = s.tbu.pulses ++ [{ edge := s.edgeU vernRef cyc code.val, stamp := s.refStamp (s.edgeU vernRef cyc code.val) }])
      ∧ ((s.nextNow = true ∧ s.on TBU.REF.RATE = false) → t.tbu.pulses = s.tbu.pulses
          ∧ t.f TBU.CNT_EVT.LO = counted s TBU.CNT_EVT.LO ∧ t.on TBU.IRQ_RAW.REF_REJ = true)
      ∧ { t with seenNow := s.seenNow, regs := s.regs, raw := s.raw, tbu := { t.tbu with verniers := s.tbu.verniers, pulses := s.tbu.pulses } } = s := by
  have hv := s.pulseHeard_vernier cyc code
  have hvs (v : Nat) (hne : v ≠ vernRef) := s.pulseHeard_vernier_ne cyc code hne
  refine ⟨_, s.exec_ppsEdge cyc code ha hl, ?_⟩
  by_cases h : s.nextNow = false ∨ s.on TBU.REF.RATE = true
  · rw [State.pulse_waits (s.pulseHeard cyc code) ht hn h]
    refine ⟨rfl, hv, hvs, fun _ => ⟨rfl, rfl⟩, fun hno => ?_, rfl⟩
    rcases h with h | h
    · rw [h] at hno; cases hno.1
    · rw [h] at hno; cases hno.2
  · have hnow : s.nextNow = true ∧ s.on TBU.REF.RATE = false := by
      rw [not_or] at h
      exact ⟨by simpa using h.1, by simpa using h.2⟩
    obtain ⟨hcnt, hirq⟩ := (s.pulseHeard cyc code).pulseRejected_facts
    rw [State.pulse_rejected (s.pulseHeard cyc code) ht hn hnow.1 hnow.2, State.rejectPulse_present (s.pulseHeard cyc code) hl]
    exact ⟨rfl, hv, hvs, fun hyes => absurd hyes h, fun _ => ⟨rfl, hcnt, hirq⟩, rfl⟩

/-- A gap within the window of R420. -/
theorem inWindowU {u d : Nat} (h1 : d + 10 * msU ≤ u) (h2 : u ≤ d + 990 * msU) : (10 * msU ≤ u - d && u - d ≤ 990 * msU) = true := by
  simp only [Bool.and_eq_true, decide_eq_true_eq]
  omega

theorem referencePulses_message (s : State) (bs : List Byte) (b : Nat) (m : Tod) (ha : s.mode.alive = true) (hd : s.decodeTod bs = some m)
    (hu : m.utc = none) : exec (.todMessage bs b) s = .next (settle (s.message1 m.sec m.refOk m.next1 b s.raw)) := by
  have hexec : exec (.todMessage bs b) s = execTodMessage bs b s := rfl
  rw [hexec]
  unfold execTodMessage
  rw [if_pos ha, hd]
  dsimp only
  rw [hu]
  rfl

/-- A message that names the pulse before it, at 1 Hz. -/
theorem message1_names (s : State) {sec b : Nat} {p : Pulse}
    (hp : (s.tbu.pulses.filter (fun p => p.edge < b * 64)).getLast? = some p) (hr : s.on TBU.REF.RATE = false) :
    s.message1 sec true false b s.raw = ({ s with tbu := { s.tbu with next1 := false, pulses := s.tbu.pulses.erase p } } : State).judgeSecond p sec
      true (10 * msU ≤ s.raw * 64 - p.edge && s.raw * 64 - p.edge ≤ 990 * msU) := by
  unfold State.message1
  dsimp only
  rw [if_neg Bool.false_ne_true, hp]
  dsimp only
  have hr1 (x : Tbu) : ({ s with tbu := x } : State).on TBU.REF.RATE = false := hr
  have hwin (x : Tbu) : ({ s with tbu := x } : State).windowU = 990 * msU := by
    unfold State.windowU
    rw [hr1]
    rfl
  rw [hr1, hwin]
  rfl

/-- A message that finds no pulse before it. -/
theorem referencePulses_unnamed (s : State) (bs : List Byte) (b : Nat) (m : Tod) (ha : s.mode.alive = true) (hd : s.decodeTod bs = some m)
    (hnext : m.next1 = false) (hu : m.utc = none) (hnone : s.tbu.pulses.filter (fun p => p.edge < b * 64) = []) :
    ∃ t, exec (.todMessage bs b) s = .next (settle t) ∧ t.tbu = { s.tbu with next1 := false }
      ∧ t.f TBU.CNT_EVT.HI = counted s TBU.CNT_EVT.HI ∧ t.on TBU.IRQ_RAW.REF_REJ = true
      ∧ { t with seenNow := s.seenNow, regs := s.regs, tbu := s.tbu } = s := by
  have hexec := referencePulses_message s bs b m ha hd hu
  have hreject : s.message1 m.sec m.refOk false b s.raw = ({ s with tbu := { s.tbu with next1 := false } } : State).rejectMessage := by
    unfold State.message1
    dsimp only
    rw [if_neg Bool.false_ne_true, hnone]
    rfl
  rw [hnext, hreject] at hexec
  generalize hw : ({ s with tbu := { s.tbu with next1 := false } } : State) = w at hexec
  obtain ⟨hcnt, hirq⟩ := w.rejectMessage_facts
  obtain ⟨htbu, hframe⟩ := w.rejectMessage_frame
  refine ⟨w.rejectMessage, hexec, by rw [htbu, ← hw], hcnt.trans ?_, hirq, ?_⟩
  · rw [← hw]; rfl
  · have hall := congrArg (fun u : State => ({ u with seenNow := s.seenNow, regs := s.regs, tbu := s.tbu } : State)) hframe
    refine Eq.trans hall ?_
    rw [← hw]

/-- A message that names the pulse before it (R420). -/
theorem referencePulses_named (s : State) (bs : List Byte) (b : Nat) (m : Tod) (ha : s.mode.alive = true) (hd : s.decodeTod bs = some m)
    (hnext : m.next1 = false) (hu : m.utc = none) (p : Pulse)
    (hp : (s.tbu.pulses.filter (fun p => p.edge < b * 64)).getLast? = some p) (hok : m.refOk = true) (hlast : s.tbu.lastSec = none)
    (hoff : s.srvOn = false) (hr : s.on TBU.REF.RATE = false) (h1 : p.edge + 10 * msU ≤ s.raw * 64) (h2 : s.raw * 64 ≤ p.edge + 990 * msU) :
    ∃ t, exec (.todMessage bs b) s = .next (settle t) ∧ t.tbu.pulses = s.tbu.pulses.erase p
      ∧ t.tbu.lastSec = some (p.edge, m.sec) ∧ t.tbu.lastPulse = some p.edge ∧ t.tbu.run = s.tbu.run + 1
      ∧ t.f TBU.PHERR.V = bitsOfInt 32 (max (-(2 ^ 31 - 1)) (min (2 ^ 31 - 1) (vtDiff p.stamp (s.vtOf m.sec 0))))
      ∧ (s.f TBU.REF.QUAL_N ≤ s.tbu.run + 1 → t.on TBU.STS.REF_QUAL = true) ∧ t.srv = s.srv
      ∧ { t with regs := s.regs, tbu := s.tbu } = s := by
  have hexec := referencePulses_message s bs b m ha hd hu
  rw [hnext] at hexec
  obtain ⟨htbu, hpherr, hqual, hsrv, hframe⟩ :=
    State.judgeSecond_off ({ s with tbu := { s.tbu with next1 := false, pulses := s.tbu.pulses.erase p } } : State)
      (p := p) (sec := m.sec) (inWindowU h1 h2) hlast hr hoff
  refine ⟨_, hexec, ?_⟩
  rw [hok, message1_names s hp hr]
  refine ⟨by rw [htbu]; rfl, by rw [htbu]; rfl, by rw [htbu]; rfl, by rw [htbu]; rfl, hpherr, hqual, hsrv, ?_⟩
  have hall := congrArg (fun u : State => ({ u with regs := s.regs, tbu := s.tbu } : State)) hframe
  exact hall

theorem referencePulses_close (s : State) (p : Pulse) (ps : List Pulse) (hp : s.tbu.pulses = p :: ps) (hl : s.lossAt = none) :
    ∃ t, exec .pulseWindowClose s = .next (settle t) ∧ t.tbu = { s.tbu with pulses := ps }
      ∧ t.raw = max s.raw ((p.edge + s.windowU + 63) / 64) ∧ t.f TBU.CNT_EVT.LO = counted s TBU.CNT_EVT.LO
      ∧ t.on TBU.IRQ_RAW.REF_REJ = true ∧ { t with seenNow := s.seenNow, regs := s.regs, tbu := s.tbu, raw := s.raw } = s := by
  generalize ht : ({ s with tbu := { s.tbu with pulses := ps } } : State).advanceU (p.edge + s.windowU) = t
  have hloss : t.lossAt = none := by rw [← ht]; exact hl
  have htbu : t.tbu = { s.tbu with pulses := ps } := by rw [← ht]; rfl
  have hraw : t.raw = max s.raw ((p.edge + s.windowU + 63) / 64) := by rw [← ht]; rfl
  have hcounted : counted t TBU.CNT_EVT.LO = counted s TBU.CNT_EVT.LO := by rw [← ht]; rfl
  have hframe : { t with seenNow := s.seenNow, regs := s.regs, tbu := s.tbu, raw := s.raw } = s := by rw [← ht]; rfl
  have hexec : exec .pulseWindowClose s = .next (settle ((t.bump TBU.CNT_EVT.LO).set1 TBU.IRQ_RAW.REF_REJ)) := by
    have he : exec .pulseWindowClose s = execPulseWindowClose s := rfl
    rw [he, ← State.rejectPulse_present t hloss, ← ht]
    unfold execPulseWindowClose
    rw [hp]
    rfl
  clear ht
  obtain ⟨hcnt, hirq⟩ := t.pulseRejected_facts
  have hset (u : State) (g : Fld) : ({ u.set1 g with seenNow := s.seenNow, regs := s.regs, tbu := s.tbu, raw := s.raw } : State)
      = { u with seenNow := s.seenNow, regs := s.regs, tbu := s.tbu, raw := s.raw } := rfl
  have hbump (u : State) (g : Fld) : ({ u.bump g with seenNow := s.seenNow, regs := s.regs, tbu := s.tbu, raw := s.raw } : State)
      = { u with seenNow := s.seenNow, regs := s.regs, tbu := s.tbu, raw := s.raw } := rfl
  refine ⟨_, hexec, ?_, ?_, hcnt.trans hcounted, hirq, ?_⟩
  · rw [State.set1_tbu, State.bump_tbu, htbu]
  · rw [State.set1_raw, State.bump_raw, hraw]
  · rw [hset, hbump, hframe]

theorem referencePulses_loss (s : State) (d : Nat) (hd : s.lossAt = some d) (hp : s.tbu.pulses = []) (hs : s.srv = srvLocked) :
    ∃ t, exec .refLoss s = .next (settle t) ∧ t.srv = srvHoldover ∧ t.on TBU.IRQ_RAW.REF_LOST = true
      ∧ t.on TBU.STS.REF_QUAL = false ∧ t.tbu.lastPulse = none ∧ t.tbu.run = 0 ∧ t.f TBU.FREQ.CORR = t.f TBU.KS_FREQ.V
      ∧ { t with seenNow := s.seenNow, regs := s.regs, tbu := s.tbu, raw := s.raw } = s := by
  generalize ht : s.advanceU (d + 1) = t
  have hraw : (d + 1 + 63) / 64 ≤ t.raw := by rw [← ht]; exact Nat.le_max_right _ _
  have hlost : t.lossDue = t.refLost := by
    have hat : t.lossAt = some d := by rw [← ht]; exact hd
    have hwaits : t.lossWaits d = false := by
      have hpt : t.tbu.pulses = [] := by rw [← ht]; exact hp
      unfold State.lossWaits
      rw [hpt]
      rfl
    unfold State.lossDue State.lossBy
    rw [hat]
    dsimp only
    rw [if_pos ⟨by omega, by rw [hwaits]; rfl⟩]
  have hst : t.srv = srvLocked := by rw [← ht]; exact hs
  have hexec : exec .refLoss s = .next (settle t.refGone.holdsOver) := by
    have he : exec .refLoss s = execRefLoss s := rfl
    rw [he, ← State.refLost_locked t hst, ← hlost, ← ht]
    unfold execRefLoss
    rw [hd]
    rfl
  obtain ⟨hsrv, hirq, hqual, hcorr, htbu, hbeside⟩ := t.refGone.holdsOver_facts
  refine ⟨_, hexec, hsrv, hirq, hqual.trans ?_, by rw [htbu]; rfl, by rw [htbu]; rfl, hcorr, ?_⟩
  · unfold State.refGone
    rw [State.on_eq, State.f_clr_eq, State.f_setF_self _ _ _ _ (by decide)]
    rfl
  · have hgone : t.refGone.besideTbu = t.besideTbu := (State.setF_besideTbu _ _ _ _).trans (State.withTbu_besideTbu _ _)
    have hframe : ({ t with seenNow := s.seenNow, regs := s.regs, tbu := s.tbu, raw := s.raw } : State) = s := by rw [← ht]; rfl
    generalize t.refGone.holdsOver = v at hbeside ⊢
    have hall := congrArg (fun u : State => ({ u with seenNow := s.seenNow, regs := s.regs, tbu := s.tbu, raw := s.raw } : State))
      (hbeside.trans hgone)
    exact hall.trans hframe

/-- Settles O9: a pulse and its message by what awaits what, the servo by its own equations. -/
theorem referencePulses : Obligations.ReferencePulses := by
  refine ⟨referencePulses_unlock, referencePulses_edge, ?_, ?_, ?_, ?_, ?_, ?_, ?_⟩
  · intro s cyc code m ha hl ht hm hok hlast hoff hr h1 h2
    have hjudge := State.judgeSecond_off (s.pulseHeard cyc code).answered
      (p := { edge := s.edgeU vernRef cyc code.val, stamp := s.refStamp (s.edgeU vernRef cyc code.val) }) (sec := m.sec)
      (inWindowU h1 h2) hlast hr hoff
    refine ⟨_, s.exec_ppsEdge cyc code ha hl, ?_⟩
    rw [State.pulse_awaited (s.pulseHeard cyc code) ht hm, hok]
    obtain ⟨htbu, hpherr, hqual, hsrv, hframe⟩ := hjudge
    refine ⟨by rw [htbu]; rfl, by rw [htbu]; rfl, by rw [htbu]; rfl, by rw [htbu]; rfl, hpherr, hqual, hsrv, ?_⟩
    have hall := congrArg (fun u : State => ({ u with regs := s.regs, raw := s.raw, tbu := s.tbu } : State)) hframe
    exact hall
  · intro s bs b m ha hd hnext hu hn
    refine ⟨_, referencePulses_message s bs b m ha hd hu, ?_⟩
    unfold State.message1
    dsimp only
    rw [if_pos hnext, hn, hnext]
    exact ⟨rfl, rfl⟩
  · intro s cyc code m ha hl ht hm hok hlast hon hr hstep hst h1 h2 e he es hes g hg sat hsat p hp
    have hjudge := State.judgeSecond_servo (s := (s.pulseHeard cyc code).answered)
      (p := { edge := s.edgeU vernRef cyc code.val, stamp := s.refStamp (s.edgeU vernRef cyc code.val) }) (sec := m.sec)
      (inWindowU h1 h2) hlast hr hon hstep hst he
    obtain ⟨hinteg, hcorr, hslew, havg, hpherr, hacq, hlock, hbeside⟩ := hjudge
    refine ⟨_, s.exec_ppsEdge cyc code ha hl, ?_⟩
    rw [State.pulse_awaited (s.pulseHeard cyc code) ht hm, hok]
    subst hes hg hsat hp
    refine ⟨hinteg, ?_, hslew, by rw [havg, hinteg]; rfl, hpherr, hacq, hlock, ?_⟩
    · rw [hcorr, hinteg]
      rfl
    · have hall := congrArg (fun u : State => ({ u with seenNow := s.seenNow, regs := s.regs, raw := s.raw, tbu := s.tbu } : State)) hbeside
      exact hall
  · exact fun s bs b m ha hd hnext hu => ⟨referencePulses_unnamed s bs b m ha hd hnext hu, referencePulses_named s bs b m ha hd hnext hu⟩
  · intro s bs b ha hd
    obtain ⟨hcnt, hirq⟩ := s.rejectMessage_facts
    refine ⟨s.rejectMessage, ?_, hcnt, hirq, s.rejectMessage_frame.2⟩
    have hexec : exec (.todMessage bs b) s = execTodMessage bs b s := rfl
    rw [hexec]
    unfold execTodMessage
    rw [if_pos ha, hd]
    rfl
  · exact referencePulses_close
  · exact referencePulses_loss

end

section
/-! PROOFS. Slots given back, reports, and the two commands at the timetable's door (R97, R100, R108, R354). -/

namespace Sys2Proof.Machine

variable (s : State)

/-! ### What the end of a consist leaves of the timetable's books -/

/-- The dispatcher, the clock and the tracks. -/
def State.ttKept : Dsp × Nat × SMap Track := (s.dsp, s.raw, s.trk)

variable {s} in
theorem State.fields_of_ttKept {t : State} (h : t.ttKept = s.ttKept) : t.dsp = s.dsp ∧ t.raw = s.raw ∧ t.trk = s.trk :=
  ⟨congrArg Prod.fst h, congrArg (fun p => p.2.1) h, congrArg (fun p => p.2.2) h⟩

@[simp] theorem State.set1_ttKept (g : Fld) (i : Nat) : (s.set1 g i).ttKept = s.ttKept := rfl
@[simp] theorem State.bump_ttKept (g : Fld) (n i : Nat) : (s.bump g n i).ttKept = s.ttKept := rfl
@[simp] theorem State.fault_ttKept (c : Nat) : (s.fault c).ttKept = s.ttKept := rfl
@[simp] theorem State.setPreg_ttKept (k a : Nat) (v : Word) : (s.setPreg k a v).ttKept = s.ttKept := rfl
@[simp] theorem State.setSlot_ttKept (i : Nat) (x : Slot) : (s.setSlot i x).ttKept = s.ttKept := rfl
@[simp] theorem State.setConsist_ttKept (k : Nat) (x : Consist) : (s.setConsist k x).ttKept = s.ttKept := rfl
@[simp] theorem State.withTwn_ttKept (x : Twn) : ({ s with twn := x } : State).ttKept = s.ttKept := rfl
@[simp] theorem State.setEngine_ttKept (e : Nat) (x : Engine) : (s.setEngine e x).ttKept = s.ttKept := rfl

@[simp] theorem State.acted_ttKept (c : LoadSrc) (o : Nat) : (s.acted c o).ttKept = s.ttKept := by
  unfold State.ttKept; simp

@[simp] theorem State.mirror_ttKept (m : Mirror) : (s.mirror m).ttKept = s.ttKept := by
  unfold State.ttKept; simp

@[simp] theorem State.noteOutcome_ttKept (w o : Nat) : (s.noteOutcome w o).ttKept = s.ttKept := by
  simp [State.noteOutcome, apply_ite State.ttKept]

@[simp] theorem State.consistEnd_ttKept (k o : Nat) : (s.consistEnd k o).ttKept = s.ttKept := by
  simp [State.consistEnd, apply_ite State.ttKept]

@[simp] theorem State.entryLost_ttKept (i : Nat) : (s.entryLost i).ttKept = s.ttKept := by
  unfold State.entryLost; split <;> simp

/-! ### The slots that the end of a consist touches -/

theorem State.slot_acted_other {i j : Nat} (h : j ≠ i) (o : Nat) : (s.acted (.slot i) o).slot j = s.slot j := by
  unfold State.acted
  dsimp only
  split
  · exact (s.slot_setSlot _ _ _).trans (if_neg h)
  · rfl

theorem State.slot_noteOutcome (w o j : Nat) : (s.noteOutcome w o).slot j = s.slot j :=
  State.slot_congr (by simp [State.noteOutcome, apply_ite State.slots]) j

/-- The end of a consist touches no entry but the one that ordered it (log entry 25). -/
theorem State.slot_consistEnd_other {k j : Nat} (h : j ≠ (s.consist k).entry) (o : Nat) : (s.consistEnd k o).slot j = s.slot j := by
  unfold State.consistEnd
  extract_lets x y ended twn forgotten told
  split
  · rfl
  · have hforgotten : forgotten.slot j = s.slot j := State.slot_congr
      (by simp only [forgotten, ended, apply_ite State.slots, State.mirror_slots, ite_self]) j
    have htold : told.slot j = forgotten.slot j := by
      simp only [told]
      split
      · exact forgotten.slot_acted_other h _
      · rfl
    rw [State.slot_noteOutcome, State.slot_congr (State.setConsist_slots _ _ _), htold, hforgotten]

theorem State.slot_entryLost_other {i j : Nat} (h : j ≠ i) : (s.entryLost i).slot j = s.slot j := by
  unfold State.entryLost
  split
  next => rfl
  next k hk =>
    have hentry : (s.consist k).entry = i := by
      have hfound := List.find?_some hk
      simp only [Bool.and_eq_true, decide_eq_true_eq] at hfound
      exact hfound.2
    exact s.slot_consistEnd_other (by rw [hentry]; exact h) _

/-! ### A slot given back -/

/-- What `freeSlot` gives its slot: the bits for the record, the outcome, nothing else. -/
def Slot.freed (x : Slot) (out : Nat) : Slot := { bits := x.bits, out := out }

theorem State.freeSlot_kept (i o : Nat) :
    (s.freeSlot i o).dsp = { s.dsp with freed := s.dsp.freed ++ [i] } ∧ (s.freeSlot i o).raw = s.raw ∧ (s.freeSlot i o).trk = s.trk := by
  have hlost (t : State) (h : t.ttKept = s.ttKept) (x : Slot) :
      ({ t.setSlot i x with dsp := { (t.setSlot i x).dsp with freed := (t.setSlot i x).dsp.freed ++ [i] } } : State).dsp
        = { s.dsp with freed := s.dsp.freed ++ [i] } ∧ (t.setSlot i x).raw = s.raw ∧ (t.setSlot i x).trk = s.trk := by
    obtain ⟨hdsp, hraw, htrk⟩ := State.fields_of_ttKept h
    refine ⟨?_, hraw, htrk⟩
    dsimp only
    rw [State.setSlot_dsp, hdsp]
  refine hlost _ ?_ _
  split
  · exact s.entryLost_ttKept i
  · rfl

theorem State.slot_freeSlot (i o j : Nat) : (s.freeSlot i o).slot j = if j = i then (s.slot i).freed o else s.slot j := by
  refine (State.slot_setSlot _ _ _ _).trans ?_
  split
  next => rfl
  next h =>
    split
    · exact s.slot_entryLost_other h
    · rfl

theorem State.freeAll_cons (i : Nat) (is : List Nat) (o : Nat) : s.freeAll (i :: is) o = (s.freeSlot i o).freeAll is o := rfl

theorem State.freeAll_kept (is : List Nat) (o : Nat) :
    (s.freeAll is o).dsp = { s.dsp with freed := s.dsp.freed ++ is } ∧ (s.freeAll is o).raw = s.raw ∧ (s.freeAll is o).trk = s.trk := by
  induction is generalizing s with
  | nil => exact ⟨by rw [List.append_nil]; rfl, rfl, rfl⟩
  | cons i is ih =>
    obtain ⟨hdsp, hraw, htrk⟩ := ih (s.freeSlot i o)
    obtain ⟨hdsp₁, hraw₁, htrk₁⟩ := s.freeSlot_kept i o
    rw [State.freeAll_cons, hdsp, hraw, htrk, hdsp₁, hraw₁, htrk₁]
    simp

theorem State.slot_freeAll_other {is : List Nat} {j : Nat} (h : j ∉ is) (o : Nat) : (s.freeAll is o).slot j = s.slot j := by
  induction is generalizing s with
  | nil => rfl
  | cons i is ih =>
    rw [List.mem_cons, not_or] at h
    rw [State.freeAll_cons, ih _ h.2, State.slot_freeSlot, if_neg h.1]

theorem State.slot_freeAll_mem {is : List Nat} {j : Nat} (h : j ∈ is) (o : Nat) :
    ((s.freeAll is o).slot j).st = .free ∧ ((s.freeAll is o).slot j).out = o := by
  induction is generalizing s with
  | nil => cases h
  | cons i is ih =>
    rw [State.freeAll_cons]
    by_cases hj : j ∈ is
    · exact ih _ hj
    · obtain rfl : j = i := (List.mem_cons.mp h).resolve_right hj
      rw [State.slot_freeAll_other _ hj, State.slot_freeSlot, if_pos rfl]
      exact ⟨rfl, rfl⟩

/-! ### Records to the peer and reports to the requester -/

@[simp] theorem State.noteMine_ttKept (r : Requester) : (s.noteMine r).ttKept = s.ttKept := by
  unfold State.noteMine; split <;> rfl

@[simp] theorem State.noteMine_slots (r : Requester) : (s.noteMine r).slots = s.slots := by
  unfold State.noteMine; split <;> rfl

@[simp] theorem State.mirrorCan_ttKept (r : Requester) (i : Nat) (c : Bool) : (s.mirrorCan r i c).ttKept = s.ttKept := by
  simp [State.mirrorCan]

@[simp] theorem State.mirrorCan_slots (r : Requester) (i : Nat) (c : Bool) : (s.mirrorCan r i c).slots = s.slots := by
  simp [State.mirrorCan]

@[simp] theorem State.ttResult_ttKept (e : Nat) (v : Word) (c : Nat) : (s.ttResult e v c).ttKept = s.ttKept := by
  unfold State.ttResult; dsimp only; split <;> rfl

@[simp] theorem State.ttResult_slots (e : Nat) (v : Word) (c : Nat) : (s.ttResult e v c).slots = s.slots := by
  unfold State.ttResult; dsimp only; split <;> rfl

@[simp] theorem State.ttResult_regs (e : Nat) (v : Word) (c : Nat) : (s.ttResult e v c).regs = s.regs := by
  unfold State.ttResult; dsimp only; split <;> rfl

@[simp] theorem State.report_ttKept (r : Requester) (lvl : Option Nat) (a : Nat) (v : Word) (c : Nat) :
    (s.report r lvl a v c).ttKept = s.ttKept := by
  unfold State.report; split
  · exact s.ttResult_ttKept _ _ _
  · rfl

@[simp] theorem State.report_slots (r : Requester) (lvl : Option Nat) (a : Nat) (v : Word) (c : Nat) :
    (s.report r lvl a v c).slots = s.slots := by
  unfold State.report; split
  · exact s.ttResult_slots _ _ _
  · rfl

@[simp] theorem State.report_regs (r : Requester) (lvl : Option Nat) (a : Nat) (v : Word) (c : Nat) :
    (s.report r lvl a v c).regs = s.regs := by
  unfold State.report; split
  · exact s.ttResult_regs _ _ _
  · rfl

/-- A requester without a microword that waits reads its report in its own register. -/
theorem State.report_none (r : Requester) (a : Nat) (v : Word) (c : Nat) : s.report r none a v c = s.setPreg r.id a v := by
  cases r <;> rfl

theorem State.preg_setPreg_reg {a b : Nat} (k : Nat) (v : Word) (h : b ≠ a) : (s.setPreg k a v).preg k b = s.preg k b :=
  SMap.get_put_ne _ _ _ _ _ (by unfold pkey; omega)

/-! ### An insertion launched -/

/-- What is launched: the three words held and the one that launches. -/
def State.launched (r : Requester) (v : Word) : PortReq :=
  { req := r
    bits := (s.preg r.id ins0).toNat + (s.preg r.id (ins0 + 4)).toNat * 2 ^ 32 + (s.preg r.id (ins0 + 8)).toNat * 2 ^ 64
      + v.toNat * 2 ^ 96
    park := decide (bitsAt (s.preg r.id DSP.INSCTL.PARK.off).toNat 0 1 = 1) }

theorem State.insBits_setPreg (r : Requester) (v : Word) : (s.setPreg r.id ins3 v).insBits r = (s.launched r v).bits := by
  have hheld (b : Nat) (h : b ≠ ins3) : (s.setPreg r.id ins3 v).preg r.id b = s.preg r.id b := s.preg_setPreg_reg _ _ h
  show ((s.setPreg r.id ins3 v).preg r.id (ins0 + 4 * 0)).toNat + ((s.setPreg r.id ins3 v).preg r.id (ins0 + 4 * 1)).toNat * 2 ^ 32
    + ((s.setPreg r.id ins3 v).preg r.id (ins0 + 4 * 2)).toNat * 2 ^ 64 + ((s.setPreg r.id ins3 v).preg r.id ins3).toNat * 2 ^ 96 = _
  rw [hheld _ (by decide), hheld _ (by decide), hheld _ (by decide), State.preg_setPreg_self]
  rfl

theorem State.insLaunch_free {r : Requester} (v : Word) (hp : s.insPends r = false) (hm : s.mqFull = false) :
    s.insLaunch r v = (s.setPreg r.id ins3 v).enterPort (s.launched r v) := by
  have hpark : (s.setPreg r.id ins3 v).preg r.id DSP.INSCTL.PARK.off = s.preg r.id DSP.INSCTL.PARK.off :=
    s.preg_setPreg_reg _ _ (by decide)
  unfold State.insLaunch
  rw [hp, hm]
  dsimp only
  rw [s.insBits_setPreg, hpark]
  rfl

/-! ### A cancellation -/

/-- The parked entries that CHAIN cancels with the entry. -/
def State.cancelRest (i : Nat) (chain : Bool) : List Nat := if chain then s.chainOf i else []

/-- The chain cancelled, and the record of it sent where there was one. -/
def State.cancelTold (r : Requester) (i : Nat) (chain : Bool) : State :=
  let t := s.freeAll (s.cancelRest i chain) outCancelled
  if s.cancelRest i chain = [] then t else t.mirrorCan r i chain

theorem State.cancelTold_slots (r : Requester) (i : Nat) (chain : Bool) :
    (s.cancelTold r i chain).slots = (s.freeAll (s.cancelRest i chain) outCancelled).slots := by
  simp [State.cancelTold, apply_ite State.slots]

theorem State.cancelTold_ttKept (r : Requester) (i : Nat) (chain : Bool) :
    (s.cancelTold r i chain).ttKept = (s.freeAll (s.cancelRest i chain) outCancelled).ttKept := by
  simp [State.cancelTold, apply_ite State.ttKept]

/-- The QUEUED entry freed after its chain. -/
def State.cancelFreed (i : Nat) (chain : Bool) : State := (s.freeAll (s.cancelRest i chain) outCancelled).freeSlot i outCancelled

theorem State.cancel_queued {r : Requester} {i : Nat} {chain : Bool} (h : (s.slot i).st = .queued) (hp : (s.slot i).place ≠ .reserved) :
    s.cancel r none i chain = ((s.cancelFreed i chain).mirrorCan r i chain).setPreg r.id DSP.CANRES.DONE.off (canWord 0 i) := by
  unfold State.cancel
  dsimp only
  rw [if_pos ⟨h, hp⟩, State.report_none]
  rfl

theorem State.cancel_active {r : Requester} {i : Nat} {chain : Bool} (h : (s.slot i).st = .active) :
    ∃ q : CancelReq, q = { req := r, slot := i, chain := chain, time := s.raw, told := decide (s.cancelRest i chain ≠ []) } ∧
      s.cancel r none i chain = ({ s.cancelTold r i chain with dsp :=
        { (s.cancelTold r i chain).dsp with cancels := (s.cancelTold r i chain).dsp.cancels ++ [q] } } : State).setPreg r.id
          DSP.CANRES.DONE.off (word (0x30000000 + i)) := by
  refine ⟨_, rfl, ?_⟩
  unfold State.cancel
  dsimp only
  rw [if_neg (by rw [h]; exact fun h => nomatch h.1), if_pos h]
  rfl

/-- An entry that is neither active nor to be freed: CHAIN alone acts, and the report says how the entry stood. -/
theorem State.cancel_told {r : Requester} {i : Nat} {chain : Bool} (hq : (s.slot i).st ≠ .queued ∨ (s.slot i).place = .reserved)
    (ha : (s.slot i).st ≠ .active) :
    s.cancel r none i chain = (s.cancelTold r i chain).setPreg r.id DSP.CANRES.DONE.off
      (canWord (if (s.slot i).st = .retiring then 2 else 3) i) := by
  unfold State.cancel
  dsimp only
  rw [if_neg (fun h => hq.elim (· h.1) h.2), if_neg ha, State.report_none, State.report_none]
  split <;> rfl

theorem State.slot_withDsp (x : Dsp) (j : Nat) : ({ s with dsp := x } : State).slot j = s.slot j := rfl

theorem State.slot_cancelRest_other {i j : Nat} {chain : Bool} (h : chain = true → j ∉ s.chainOf i) :
    (s.freeAll (s.cancelRest i chain) outCancelled).slot j = s.slot j := by
  refine s.slot_freeAll_other ?_ _
  unfold State.cancelRest
  split
  next hc => exact h hc
  next => exact List.not_mem_nil

theorem State.slot_cancelTold_other {r : Requester} {i j : Nat} {chain : Bool} (h : chain = true → j ∉ s.chainOf i) :
    (s.cancelTold r i chain).slot j = s.slot j :=
  (State.slot_congr (s.cancelTold_slots r i chain) j).trans (s.slot_cancelRest_other h)

theorem State.slot_cancelFreed_other {i j : Nat} {chain : Bool} (hj : j ≠ i) (h : chain = true → j ∉ s.chainOf i) :
    (s.cancelFreed i chain).slot j = s.slot j := by
  unfold State.cancelFreed
  rw [State.slot_freeSlot, if_neg hj, s.slot_cancelRest_other h]

theorem State.slot_cancel_chain {r : Requester} {i j : Nat} (h : j ∈ s.chainOf i) :
    ((s.cancel r none i true).slot j).st = .free ∧ ((s.cancel r none i true).slot j).out = outCancelled := by
  have hrest := s.slot_freeAll_mem h outCancelled
  have htold : ((s.cancelTold r i true).slot j).st = .free ∧ ((s.cancelTold r i true).slot j).out = outCancelled := by
    rw [State.slot_congr (s.cancelTold_slots r i true) j]
    exact hrest
  by_cases hq : (s.slot i).st = .queued ∧ (s.slot i).place ≠ .reserved
  · rw [s.cancel_queued hq.1 hq.2, State.slot_congr (State.setPreg_slots _ _ _ _) j, State.slot_congr (State.mirrorCan_slots _ _ _ _) j]
    unfold State.cancelFreed
    rw [State.slot_freeSlot]
    split
    · exact ⟨rfl, rfl⟩
    · exact hrest
  · rcases eq_or_ne (s.slot i).st .active with ha | ha
    · obtain ⟨q, -, hcancel⟩ := s.cancel_active (r := r) (chain := true) ha
      rw [hcancel, State.slot_congr (State.setPreg_slots _ _ _ _) j, State.slot_withDsp]
      exact htold
    · rw [s.cancel_told (by rw [not_and_or, not_not] at hq; exact hq) ha, State.slot_congr (State.setPreg_slots _ _ _ _) j]
      exact htold

end Sys2Proof.Machine
end

section
/-! PROOFS. The port of the timetable: an entry seated or refused, an ACTIVE entry withdrawn (R97, R100, R108). -/

namespace Sys2Proof.Machine

variable (s : State)

/-! ### What seating an entry leaves -/

/-- What the place of an entry is found by, and the port. -/
def State.seatBook : List PortReq × Nat × Int × Nat := (s.dsp.port, s.dsp.period, s.vtOff, s.raw)

variable {s} in
theorem State.dep_of_seatBook {t : State} (h : t.seatBook = s.seatBook) : t.dep = s.dep := by
  simp only [State.seatBook, Prod.mk.injEq] at h
  obtain ⟨-, hperiod, hoff, hraw⟩ := h
  unfold State.dep State.cyc State.vt State.vtAt
  rw [hperiod, hoff, hraw]

variable {s} in
theorem State.depOf_of_seatBook {t : State} (h : t.seatBook = s.seatBook) (c : Nat) : t.depOf c = s.depOf c := by
  simp only [State.seatBook, Prod.mk.injEq] at h
  unfold State.depOf
  rw [h.2.1]

@[simp] theorem State.freeTail_seatBook : s.freeTail.seatBook = s.seatBook := by
  unfold State.freeTail
  split
  · rfl
  · split <;> rfl

theorem State.freeTail_slots : s.freeTail.slots = s.slots := by
  unfold State.freeTail
  split
  · rfl
  · split <;> rfl

@[simp] theorem State.writeSlot_seatBook (i : Nat) (x : Slot) : (s.writeSlot i x).seatBook = s.seatBook :=
  (State.foldl_keeps _ State.seatBook (fun t j => by rfl) _).trans rfl

theorem State.slot_writeSlot (i j : Nat) (x : Slot) : (s.writeSlot i x).slot j = if j = i then x else s.slot j := by
  have hslots : (s.writeSlot i x).slots = (s.setSlot i x).slots :=
    (State.foldl_keeps _ State.slots (fun t j => t.setEcc_slots _ _ _) _).trans rfl
  rw [State.slot_congr hslots, State.slot_setSlot]

@[simp] theorem State.hang_seatBook (i : Nat) (p : Place) (c b : Nat) : (s.hang i p c b).seatBook = s.seatBook := rfl

theorem State.slot_hang (i j : Nat) (p : Place) (c b : Nat) :
    (s.hang i p c b).slot j = if j = i then { s.slot i with place := p, start := c, bkt := b, ord := s.dsp.ord } else s.slot j :=
  s.slot_setSlot i j _

/-- The place of a time-domain entry that starts at `c`: the overflow list, the wheel or the immediate list. -/
def State.timePlace (c : Nat) : Place := if s.dep + 4096 ≤ s.depOf c then .far else if s.dep + 2 ≤ s.depOf c then .rota else .imm

theorem State.placeTime_eq (i c : Nat) : ∃ b, s.placeTime i c = s.hang i (s.timePlace c) c b := by
  refine ⟨s.depOf c, ?_⟩
  unfold State.placeTime State.timePlace
  dsimp only
  split
  · rfl
  · split <;> rfl

/-- Where an entry is seated: parked, on its turntable's wheel, or in time. -/
def State.seatPlace (i : Nat) (park : Bool) : Place :=
  if park then .parked else if eAngle (s.slot i).bits then .wheel else s.timePlace (startOf (s.slot i).bits)

theorem State.seat_eq (i : Nat) (park : Bool) : ∃ c b, s.seat i park = s.hang i (s.seatPlace i park) c b
    ∧ (park = false → eAngle (s.slot i).bits = false → c = startOf (s.slot i).bits) := by
  unfold State.seat State.seatPlace State.placeEntry
  cases park with
  | true => exact ⟨0, 0, rfl, fun h => nomatch h⟩
  | false =>
    simp only [Bool.false_eq_true, if_false]
    cases ha : eAngle (s.slot i).bits with
    | true => exact ⟨0, 0, rfl, fun _ h => nomatch h⟩
    | false =>
      obtain ⟨b, hb⟩ := s.placeTime_eq i (startOf (s.slot i).bits)
      exact ⟨_, b, hb, fun _ _ => rfl⟩

@[simp] theorem State.seat_seatBook (i : Nat) (park : Bool) : (s.seat i park).seatBook = s.seatBook := by
  obtain ⟨c, b, hseat, -⟩ := s.seat_eq i park
  rw [hseat, State.hang_seatBook]

variable {s} in
theorem State.seatBook_of_ttKept {t : State} (h : t.ttKept = s.ttKept) (hv : t.vtOff = s.vtOff) : t.seatBook = s.seatBook := by
  obtain ⟨hdsp, hraw, -⟩ := State.fields_of_ttKept h
  unfold State.seatBook
  rw [hdsp, hraw, hv]

@[simp] theorem State.mirror_seatBook (m : Mirror) : (s.mirror m).seatBook = s.seatBook :=
  State.seatBook_of_ttKept (s.mirror_ttKept m) (s.mirror_vtOff m)

@[simp] theorem State.noteMine_seatBook (r : Requester) : (s.noteMine r).seatBook = s.seatBook := by
  unfold State.noteMine; split <;> rfl

@[simp] theorem State.report_seatBook (r : Requester) (lvl : Option Nat) (a : Nat) (v : Word) (c : Nat) :
    (s.report r lvl a v c).seatBook = s.seatBook := by
  unfold State.report State.ttResult
  split
  · dsimp only; split <;> rfl
  · rfl

/-! ### An insertion served -/

/-- The state in which the port serves a request: two cycles later, the request gone. -/
def State.serving (p : PortReq) : State :=
  { s.advance (s.raw + 2) with dsp := { s.dsp with port := s.dsp.port.erase p, portLast := rankOf p.req } }

theorem State.insertCode_serving (p : PortReq) (b : Nat) (park : Bool) : (s.serving p).insertCode b park = s.insertCode b park := rfl

theorem State.serving_seatBook (p : PortReq) : (s.serving p).seatBook = (s.dsp.port.erase p, s.dsp.period, s.vtOff, s.raw + 2) := by
  have hraw : max s.raw (s.raw + 2) = s.raw + 2 := Nat.max_eq_right (Nat.le_add_right _ _)
  exact congrArg (fun c => (s.dsp.port.erase p, s.dsp.period, s.vtOff, c)) hraw

theorem State.insertServe_eq {p : PortReq} (hp : pickPort s.dsp.portLast s.dsp.port = some p) :
    ∀ x, x = (s.serving p).insert p.req p.bits p.park →
      s.insertServe = x.1.report p.req p.lvl DSP.INSRES.DONE.off (insWord x.2.1 x.2.2) (x.1.raw + 6) := by
  rintro _ rfl
  unfold State.insertServe
  rw [hp]
  rfl

/-- The entry seated in slot `i`. -/
def State.seated (i b : Nat) (park : Bool) : State := (s.freeTail.writeSlot i { bits := b, st := .queued }).seat i park

@[simp] theorem State.seated_seatBook (i b : Nat) (park : Bool) : (s.seated i b park).seatBook = s.seatBook := by
  simp [State.seated]

theorem State.slot_seated_other {i j : Nat} (h : j ≠ i) (b : Nat) (park : Bool) : (s.seated i b park).slot j = s.slot j := by
  unfold State.seated
  obtain ⟨c, k, hseat, -⟩ := (s.freeTail.writeSlot i { bits := b, st := .queued }).seat_eq i park
  rw [hseat, State.slot_hang, if_neg h, State.slot_writeSlot, if_neg h, State.slot_congr s.freeTail_slots]

theorem State.slot_seated (i b : Nat) (park : Bool) :
    ((s.seated i b park).slot i).st = .queued ∧ ((s.seated i b park).slot i).bits = b
      ∧ ((s.seated i b park).slot i).place = (if park then .parked else if eAngle b then .wheel else s.timePlace (startOf b))
      ∧ (park = false → eAngle b = false → ((s.seated i b park).slot i).start = startOf b) := by
  unfold State.seated
  obtain ⟨w, hw⟩ : ∃ w, w = s.freeTail.writeSlot i { bits := b, st := .queued } := ⟨_, rfl⟩
  have hslot : w.slot i = { bits := b, st := .queued } := by rw [hw, State.slot_writeSlot, if_pos rfl]
  have hbook : w.seatBook = s.seatBook := by rw [hw, State.writeSlot_seatBook, State.freeTail_seatBook]
  rw [← hw]
  obtain ⟨c, k, hseat, hstart⟩ := w.seat_eq i park
  have hplace : w.timePlace (startOf b) = s.timePlace (startOf b) := by
    unfold State.timePlace
    rw [State.dep_of_seatBook hbook, State.depOf_of_seatBook hbook]
  unfold State.seatPlace at hseat
  rw [hslot] at hseat hstart
  rw [hplace] at hseat
  rw [hseat, State.slot_hang, if_pos rfl, hslot]
  exact ⟨rfl, rfl, rfl, hstart⟩

theorem State.insert_seated {r : Requester} {b i : Nat} {park : Bool} (hc : s.insertCode b park = 0) (hi : s.freeHead = some i) :
    s.insert r b park = (((s.seated i b park).mirror (.ins i park r.id b)).noteMine r, 0, i) := by
  unfold State.insert State.takeSlot
  rw [hc, hi]
  rfl

theorem State.insert_refused {r : Requester} {b : Nat} {park : Bool} (hc : s.insertCode b park ≠ 0) :
    s.insert r b park = (s.insRefused r (s.insertCode b park), s.insertCode b park, 0) := by
  unfold State.insert
  exact if_pos hc

/-! ### An insertion refused -/

theorem State.insRefused_slots (r : Requester) (c : Nat) : (s.insRefused r c).slots = s.slots := by simp [State.insRefused]

theorem State.insRefused_seatBook (r : Requester) (c : Nat) : (s.insRefused r c).seatBook = s.seatBook := rfl

theorem State.on_of_regs {t : State} (h : t.regs = s.regs) (g : Fld) (i : Nat) : t.on g i = s.on g i := by
  unfold State.on State.f State.reg
  rw [h]

theorem State.insRefused_on (r : Requester) (c : Nat) : (s.insRefused r c).on DSP.IRQ_RAW.INS_REJ = true := by
  have hkept : (s.insRefused r c).on DSP.IRQ_RAW.INS_REJ = (s.set1 DSP.IRQ_RAW.INS_REJ).on DSP.IRQ_RAW.INS_REJ := by
    unfold State.on State.f State.insRefused
    rw [State.reg_capture_ne _ _ _ _ _ _ (by decide)]
  rw [hkept, State.on_set1 _ _ _ (by decide) (by decide)]

/-! ### An ACTIVE entry withdrawn -/

/-- The dispatcher and the clock. -/
def State.dspRaw : Dsp × Nat := (s.dsp, s.raw)

variable {s} in
theorem State.dspRaw_of_ttKept {t : State} (h : t.ttKept = s.ttKept) : t.dspRaw = s.dspRaw := by
  obtain ⟨hdsp, hraw, -⟩ := State.fields_of_ttKept h
  unfold State.dspRaw
  rw [hdsp, hraw]

@[simp] theorem State.acted_dspRaw (c : LoadSrc) (o : Nat) : (s.acted c o).dspRaw = s.dspRaw := State.dspRaw_of_ttKept (s.acted_ttKept c o)
@[simp] theorem State.setRuler_dspRaw (u : Nat) (x : Ruler) : (s.setRuler u x).dspRaw = s.dspRaw := rfl
@[simp] theorem State.setShunter_dspRaw (u : Nat) (x : Shunter) : (s.setShunter u x).dspRaw = s.dspRaw := rfl
@[simp] theorem State.setSqr_dspRaw (q : Nat) (x : Sequencer) : (s.setSqr q x).dspRaw = s.dspRaw := rfl
@[simp] theorem State.withEng_dspRaw (x : SMap Engine) : ({ s with eng := x } : State).dspRaw = s.dspRaw := rfl
@[simp] theorem State.trkDrop_dspRaw (t i : Nat) : (s.trkDrop t i).dspRaw = s.dspRaw := rfl

@[simp] theorem State.ruDropStart_dspRaw (u o : Nat) : (s.ruDropStart u o).dspRaw = s.dspRaw := by
  unfold State.ruDropStart; dsimp only; split <;> simp

@[simp] theorem State.ruDropStop_dspRaw (u o : Nat) : (s.ruDropStop u o).dspRaw = s.dspRaw := by
  unfold State.ruDropStop; dsimp only; split <;> simp

@[simp] theorem State.shDropStart_dspRaw (u o : Nat) : (s.shDropStart u o).dspRaw = s.dspRaw := by
  unfold State.shDropStart; dsimp only; split <;> simp

@[simp] theorem State.withdraw_dspRaw (i o : Nat) : (s.withdraw i o).dspRaw = s.dspRaw := by
  simp only [State.withdraw, apply_ite State.dspRaw, State.withEng_dspRaw, State.trkDrop_dspRaw, State.ruDropStart_dspRaw,
    State.ruDropStop_dspRaw, State.shDropStart_dspRaw, State.setSqr_dspRaw, State.acted_dspRaw, ite_self]

/-- The compare was not loaded by entry `i`. -/
theorem Cmp.of_drop (c : Option Cmp) (i : Nat) : Cmp.of (if Cmp.of c i then none else c) i = false := by
  cases h : Cmp.of c i with
  | true => rfl
  | false => exact h

theorem Cmp.of_wake (c : Option Cmp) (now i : Nat) : Cmp.of (c.map (fun c => c.wake now)) i = Cmp.of c i := by
  unfold Cmp.of
  rw [Option.map_map]
  rfl

/-- What is promoted had been loaded by the same entry. -/
theorem Track.promote_of {x : Track} {i : Nat} (m now : Nat) (ha : Cmp.of x.aAct i = false) (hs : Cmp.of x.aShd i = false)
    (hb : Cmp.of x.bAct i = false) (ht : Cmp.of x.bShd i = false) :
    Cmp.of (x.promote m now).aAct i = false ∧ Cmp.of (x.promote m now).bAct i = false := by
  have hs' := (Cmp.of_wake x.aShd now i).trans hs
  have ht' := (Cmp.of_wake x.bShd now i).trans ht
  unfold Track.promote
  split
  · split
    · exact ⟨hs', ht'⟩
    · exact ⟨ha, hb⟩
  · split
    · exact ⟨ha, hb⟩
    · extract_lets y
      have hy : Cmp.of y.aAct i = false ∧ y.bAct = x.bAct ∧ y.bShd = x.bShd := by
        simp only [y]
        split
        · exact ⟨hs', rfl, rfl⟩
        · exact ⟨ha, rfl, rfl⟩
      obtain ⟨hya, hyb, hyt⟩ := hy
      clear_value y
      split
      · refine ⟨hya, ?_⟩
        dsimp only
        rw [hyt]
        exact ht'
      · exact ⟨hya, by rw [hyb]; exact hb⟩

theorem State.track_setTrack_self (t : Nat) (x : Track) : (s.setTrack t x).track t = x := SMap.get_put_self _ _ _ _

theorem State.trkDrop_of (t i : Nat) :
    Cmp.of ((s.trkDrop t i).track t).aAct i = false ∧ Cmp.of ((s.trkDrop t i).track t).bAct i = false := by
  unfold State.trkDrop State.promote
  extract_lets x d y
  rw [State.track_setTrack_self, State.track_setTrack_self]
  exact Track.promote_of (x := y) _ _ (Cmp.of_drop x.aAct i) (Cmp.of_drop x.aShd i) (Cmp.of_drop x.bAct i) (Cmp.of_drop x.bShd i)

theorem State.withdraw_of_track {i : Nat} (o : Nat) (h : trackAction (eAction (s.slot i).bits) = true) :
    s.withdraw i o = (s.acted (.slot i) o).trkDrop (eTarget (s.slot i).bits) i := by
  unfold State.withdraw
  extract_lets b a t src u
  exact if_pos h

/-! ### A cancellation resolved (R108) -/

/-- The state in which the cancellation at the head is resolved: two cycles after it was made, the cancellation gone. -/
def State.resolving (q : CancelReq) (qs : List CancelReq) : State :=
  State.advance { s with dsp := { s.dsp with cancels := qs } } (q.time + 2)

/-- The entry withdrawn from its target and its slot given back. -/
def State.withdrawn (i : Nat) : State := (s.withdraw i outCancelled).freeSlot i outCancelled

theorem State.withdrawn_cancels (i : Nat) : (s.withdrawn i).dsp.cancels = s.dsp.cancels ∧ (s.withdrawn i).raw = s.raw := by
  have hkept := s.withdraw_dspRaw i outCancelled
  obtain ⟨hdsp, hraw, -⟩ := (s.withdraw i outCancelled).freeSlot_kept i outCancelled
  unfold State.withdrawn
  rw [hdsp, hraw]
  exact ⟨congrArg (fun p : Dsp × Nat => p.1.cancels) hkept, congrArg (fun p : Dsp × Nat => p.2) hkept⟩

theorem State.slot_withdrawn (i : Nat) : ((s.withdrawn i).slot i).st = .free ∧ ((s.withdrawn i).slot i).out = outCancelled := by
  unfold State.withdrawn
  rw [State.slot_freeSlot, if_pos rfl]
  exact ⟨rfl, rfl⟩

theorem State.track_congr {t : State} (h : t.trk = s.trk) (n : Nat) : t.track n = s.track n := by
  unfold State.track; rw [h]

theorem State.withdrawn_of (i : Nat) (h : trackAction (eAction (s.slot i).bits) = true) :
    Cmp.of ((s.withdrawn i).track (eTarget (s.slot i).bits)).aAct i = false
      ∧ Cmp.of ((s.withdrawn i).track (eTarget (s.slot i).bits)).bAct i = false := by
  obtain ⟨-, -, htrk⟩ := (s.withdraw i outCancelled).freeSlot_kept i outCancelled
  unfold State.withdrawn
  rw [State.track_congr _ htrk, s.withdraw_of_track _ h]
  exact (s.acted (.slot i) outCancelled).trkDrop_of _ _

/-- The record of a withdrawal, unless it went with the chain. -/
def State.withdrawnTold (q : CancelReq) : State :=
  if q.told then s.withdrawn q.slot else (s.withdrawn q.slot).mirrorCan q.req q.slot q.chain

theorem State.withdrawnTold_kept (q : CancelReq) :
    (s.withdrawnTold q).ttKept = (s.withdrawn q.slot).ttKept ∧ (s.withdrawnTold q).slots = (s.withdrawn q.slot).slots := by
  unfold State.withdrawnTold
  split
  · exact ⟨rfl, rfl⟩
  · exact ⟨State.mirrorCan_ttKept _ _ _ _, State.mirrorCan_slots _ _ _ _⟩

theorem State.cancelResolve_withdrawn {q : CancelReq} {qs : List CancelReq} (hq : s.dsp.cancels = q :: qs)
    (hst : (s.slot q.slot).st = .active) (ha : (s.slot q.slot).acted = none) :
    s.cancelResolve = ((s.resolving q qs).withdrawnTold q).report q.req q.lvl DSP.CANRES.DONE.off (canWord 1 q.slot) (q.time + 8) := by
  unfold State.cancelResolve
  rw [hq]
  exact if_pos ⟨hst, ha⟩

theorem State.cancelResolve_late {q : CancelReq} {qs : List CancelReq} (hq : s.dsp.cancels = q :: qs)
    (h : (s.slot q.slot).st ≠ .active ∨ (s.slot q.slot).acted ≠ none) :
    s.cancelResolve = (s.resolving q qs).report q.req q.lvl DSP.CANRES.DONE.off (canWord 2 q.slot) (q.time + 8) := by
  unfold State.cancelResolve
  rw [hq]
  exact if_neg fun hc => h.elim (· hc.1) (· hc.2)

end Sys2Proof.Machine
end

section
/-! PROOFS. Insertions and cancellations, clause by clause (R97, R100, R108, R354). -/

namespace Sys2Proof.Machine

variable (s : State)

theorem exec_insertionLaunch_opens {r : Requester} (v : Word) (h : s.opens r ins3 = true) :
    exec (.insertionLaunch r v) s = .next (settle (s.insLaunch r v)) :=
  write_opens s r ins3 (fun s => s.insLaunch r v) h

theorem exec_cancelWrite_opens {r : Requester} (v : Word) (h : s.opens r DSP.CANCEL.INDEX.off = true) :
    exec (.cancelWrite r v) s = .next (settle (s.cancelPut r v)) :=
  write_opens s r DSP.CANCEL.INDEX.off (fun s => s.cancelPut r v) h

/-- R97: a launch goes to the port. -/
theorem insertion_launched (r : Requester) (v : Word) (h : s.opens r ins3 = true) (hp : s.dsp.port.any (fun p => p.req = r) = false)
    (hm : s.mqFull = false) :
    ∃ (t : State) (p : PortReq), exec (.insertionLaunch r v) s = .next (settle t) ∧ t.dsp = { s.dsp with port := s.dsp.port ++ [p] }
      ∧ p.req = r ∧ p.lvl = none ∧ p.bits = (s.preg r.id ins0).toNat + (s.preg r.id (ins0 + 4)).toNat * 2 ^ 32
          + (s.preg r.id (ins0 + 8)).toNat * 2 ^ 64 + v.toNat * 2 ^ 96
      ∧ p.park = decide (bitsAt (s.preg r.id DSP.INSCTL.PARK.off).toNat 0 1 = 1)
      ∧ { t with dsp := s.dsp, preqs := s.preqs } = s :=
  ⟨(s.setPreg r.id ins3 v).enterPort (s.launched r v), s.launched r v,
    by rw [exec_insertionLaunch_opens s v h, s.insLaunch_free v hp hm], rfl, rfl, rfl, rfl, rfl, rfl⟩

/-- R97, R100: an insertion served and seated. -/
theorem insertion_seated (p : PortReq) (i : Nat) (halive : s.mode.alive = true) (hp : pickPort s.dsp.portLast s.dsp.port = some p)
    (hc : s.insertCode p.bits p.park = 0) (hi : s.freeHead = some i) :
    ∃ t : State, exec .insertionServe s = .next (settle t) ∧ (t.slot i).st = .queued ∧ (t.slot i).bits = p.bits
      ∧ (p.park = true → (t.slot i).place = .parked) ∧ (p.park = false → eAngle p.bits = true → (t.slot i).place = .wheel)
      ∧ (p.park = false → eAngle p.bits = false → (t.slot i).start = startOf p.bits
        ∧ (t.slot i).place = (if t.dep + 4096 ≤ t.depOf (startOf p.bits) then .far
            else if t.dep + 2 ≤ t.depOf (startOf p.bits) then .rota else .imm))
      ∧ (∀ j, j ≠ i → t.slot j = s.slot j) ∧ t.dsp.port = s.dsp.port.erase p ∧ t.raw = s.raw + 2
      ∧ (p.lvl = none → t.preg p.req.id DSP.INSRES.DONE.off = insWord 0 i) := by
  have hins := (s.serving p).insert_seated (r := p.req) hc hi
  have hserve := s.insertServe_eq hp _ hins.symm
  refine ⟨s.insertServe, by rw [exec_insertionServe, execInsertionServe, if_pos halive]; rfl, ?_⟩
  rw [hserve]
  obtain ⟨u, hu⟩ : ∃ u, u = (s.serving p).seated i p.bits p.park := ⟨_, rfl⟩
  obtain ⟨t, ht⟩ : ∃ t, t = ((u.mirror (.ins i p.park p.req.id p.bits)).noteMine p.req).report p.req p.lvl DSP.INSRES.DONE.off
      (insWord 0 i) (((u.mirror (.ins i p.park p.req.id p.bits)).noteMine p.req).raw + 6) := ⟨_, rfl⟩
  have hslot (j : Nat) : t.slot j = u.slot j := State.slot_congr (by simp [ht]) j
  have hbook : t.seatBook = (s.serving p).seatBook := by simp [ht, hu]
  have hdone : p.lvl = none → t.preg p.req.id DSP.INSRES.DONE.off = insWord 0 i := fun hl => by
    rw [ht, hl, State.report_none, State.preg_setPreg_self]
  rw [← hu]
  dsimp only
  rw [← ht]
  obtain ⟨hst, hbits, hplace, hstart⟩ := (s.serving p).slot_seated i p.bits p.park
  have hport := hbook.trans (s.serving_seatBook p)
  simp only [State.seatBook, Prod.mk.injEq] at hport
  refine ⟨by rw [hslot, hu, hst], by rw [hslot, hu, hbits], fun hpark => ?_, fun hpark ha => ?_, fun hpark ha => ⟨?_, ?_⟩,
    fun j hj => ?_, hport.1, hport.2.2.2, hdone⟩
  · rw [hslot, hu, hplace, if_pos hpark]
  · rw [hslot, hu, hplace, hpark, if_neg Bool.false_ne_true, if_pos ha]
  · rw [hslot, hu, hstart hpark ha]
  · rw [hslot, hu, hplace, hpark, if_neg Bool.false_ne_true, ha, if_neg Bool.false_ne_true]
    unfold State.timePlace
    rw [State.dep_of_seatBook hbook, State.depOf_of_seatBook hbook]
  · rw [hslot, hu]
    exact (s.serving p).slot_seated_other hj _ _

/-- R97: an insertion refused by the checks. -/
theorem insertion_refused (p : PortReq) (halive : s.mode.alive = true) (hp : pickPort s.dsp.portLast s.dsp.port = some p)
    (hc : s.insertCode p.bits p.park ≠ 0) :
    ∃ t : State, exec .insertionServe s = .next (settle t) ∧ t.slots = s.slots ∧ t.on DSP.IRQ_RAW.INS_REJ = true
      ∧ t.dsp.port = s.dsp.port.erase p ∧ t.raw = s.raw + 2
      ∧ (p.lvl = none → t.preg p.req.id DSP.INSRES.DONE.off = insWord (s.insertCode p.bits p.park) 0) := by
  have hins := (s.serving p).insert_refused (r := p.req) hc
  have hserve := s.insertServe_eq hp _ hins.symm
  refine ⟨s.insertServe, by rw [exec_insertionServe, execInsertionServe, if_pos halive]; rfl, ?_⟩
  rw [hserve]
  dsimp only
  obtain ⟨u, hu⟩ : ∃ u, u = (s.serving p).insRefused p.req (s.insertCode p.bits p.park) := ⟨_, rfl⟩
  have hbook : u.seatBook = (s.serving p).seatBook := by rw [hu, State.insRefused_seatBook]
  have hslots : u.slots = s.slots := by rw [hu, State.insRefused_slots]; rfl
  have hon : u.on DSP.IRQ_RAW.INS_REJ = true := by rw [hu, State.insRefused_on]
  rw [State.insertCode_serving, ← hu]
  have hport := (u.report_seatBook p.req p.lvl DSP.INSRES.DONE.off (insWord (s.insertCode p.bits p.park) 0) (u.raw + 6)).trans
    (hbook.trans (s.serving_seatBook p))
  simp only [State.seatBook, Prod.mk.injEq] at hport
  refine ⟨(u.report_slots _ _ _ _ _).trans hslots, ?_, hport.1, hport.2.2.2, fun hl => ?_⟩
  · rw [State.on_of_regs u (u.report_regs _ _ _ _ _), hon]
  · rw [hl, State.report_none, State.preg_setPreg_self]

/-- R108: a cancellation that no other of its requester is before. -/
theorem cancelPut_free {r : Requester} (v : Word) (h : s.dsp.cancels.any (fun q => q.req = r) = false) :
    s.cancelPut r v = s.cancel r none (bitsAt v.toNat 0 14) (decide (bitsAt v.toNat 31 1 = 1)) := by
  unfold State.cancelPut
  exact if_neg (ne_true_of_eq_false h)

theorem exec_cancel_free {r : Requester} (v : Word) (ho : s.opens r DSP.CANCEL.INDEX.off = true)
    (h : s.dsp.cancels.any (fun q => q.req = r) = false) :
    exec (.cancelWrite r v) s = .next (settle (s.cancel r none (bitsAt v.toNat 0 14) (decide (bitsAt v.toNat 31 1 = 1)))) := by
  rw [exec_cancelWrite_opens s v ho, cancelPut_free s v h]

theorem cancelled_queued (r : Requester) (i : Nat) (chain : Bool) (h : (s.slot i).st = .queued) (hp : (s.slot i).place ≠ .reserved) :
    ∃ t, t = s.cancel r none i chain ∧ (t.slot i).st = .free ∧ (t.slot i).out = outCancelled
      ∧ (∀ j, j ≠ i → (chain = true → j ∉ s.chainOf i) → t.slot j = s.slot j)
      ∧ (chain = false → t.dsp.freed = s.dsp.freed ++ [i]) ∧ t.preg r.id DSP.CANRES.DONE.off = canWord 0 i := by
  refine ⟨_, rfl, ?_⟩
  rw [s.cancel_queued h hp]
  have hslot (j : Nat) : (((s.cancelFreed i chain).mirrorCan r i chain).setPreg r.id DSP.CANRES.DONE.off (canWord 0 i)).slot j
      = (s.cancelFreed i chain).slot j :=
    (State.slot_congr (State.setPreg_slots _ _ _ _) j).trans (State.slot_congr (State.mirrorCan_slots _ _ _ _) j)
  have hself : (s.cancelFreed i chain).slot i
      = ((s.freeAll (s.cancelRest i chain) outCancelled).slot i).freed outCancelled := by
    unfold State.cancelFreed
    rw [State.slot_freeSlot, if_pos rfl]
  refine ⟨by rw [hslot, hself]; rfl, by rw [hslot, hself]; rfl, fun j hj hc => by rw [hslot, s.slot_cancelFreed_other hj hc],
    fun hc => ?_, State.preg_setPreg_self _ _ _ _⟩
  subst hc
  obtain ⟨hdsp, -, -⟩ := State.fields_of_ttKept (State.mirrorCan_ttKept (s.cancelFreed i false) r i false)
  obtain ⟨hfreed, -, -⟩ := s.freeSlot_kept i outCancelled
  rw [State.setPreg_dsp, hdsp]
  exact congrArg Dsp.freed hfreed

theorem cancelled_active (r : Requester) (i : Nat) (chain : Bool) (h : (s.slot i).st = .active) :
    ∃ t, t = s.cancel r none i chain ∧ (∀ j, (chain = true → j ∉ s.chainOf i) → t.slot j = s.slot j)
      ∧ t.dsp.cancels = s.dsp.cancels ++ [{ req := r, slot := i, chain := chain, time := s.raw
                                            told := decide (chain = true ∧ s.chainOf i ≠ []) }]
      ∧ t.preg r.id DSP.CANRES.DONE.off = word (0x30000000 + i) := by
  refine ⟨_, rfl, ?_⟩
  obtain ⟨q, hq, hcancel⟩ := s.cancel_active (r := r) (chain := chain) h
  have htold : decide (s.cancelRest i chain ≠ []) = decide (chain = true ∧ s.chainOf i ≠ []) := by
    unfold State.cancelRest
    cases chain <;> simp
  rw [htold] at hq
  obtain ⟨hdsp, -, -⟩ := State.fields_of_ttKept (s.cancelTold_ttKept r i chain)
  obtain ⟨hfreed, -, -⟩ := s.freeAll_kept (s.cancelRest i chain) outCancelled
  rw [hcancel]
  refine ⟨fun j hj => ?_, ?_, State.preg_setPreg_self _ _ _ _⟩
  · rw [State.slot_congr (State.setPreg_slots _ _ _ _) j, State.slot_withDsp, s.slot_cancelTold_other hj]
  · rw [State.setPreg_dsp, hdsp, hfreed, hq]

theorem cancelled_late (r : Requester) (i : Nat) (chain : Bool) (h : (s.slot i).st = .retiring ∨ (s.slot i).st = .free) :
    ∃ t, t = s.cancel r none i chain ∧ (∀ j, (chain = true → j ∉ s.chainOf i) → t.slot j = s.slot j)
      ∧ t.preg r.id DSP.CANRES.DONE.off = canWord (if (s.slot i).st = .retiring then 2 else 3) i := by
  refine ⟨_, rfl, ?_⟩
  have hq : (s.slot i).st ≠ .queued := by rcases h with h | h <;> rw [h] <;> decide
  have ha : (s.slot i).st ≠ .active := by rcases h with h | h <;> rw [h] <;> decide
  rw [s.cancel_told (.inl hq) ha]
  exact ⟨fun j hj => (State.slot_congr (State.setPreg_slots _ _ _ _) j).trans (s.slot_cancelTold_other hj), State.preg_setPreg_self _ _ _ _⟩

/-- R108: the ACTIVE entry withdrawn, where nothing of it has acted. -/
theorem cancel_withdrawn (q : CancelReq) (qs : List CancelReq) (hq : s.dsp.cancels = q :: qs) (hst : (s.slot q.slot).st = .active)
    (ha : (s.slot q.slot).acted = none) :
    ∃ t : State, exec .cancelResolve s = .next (settle t) ∧ (t.slot q.slot).st = .free ∧ (t.slot q.slot).out = outCancelled
      ∧ t.raw = max s.raw (q.time + 2) ∧ t.dsp.cancels = qs
      ∧ (trackAction (eAction (s.slot q.slot).bits) = true →
          Cmp.of (t.track (eTarget (s.slot q.slot).bits)).aAct q.slot = false
          ∧ Cmp.of (t.track (eTarget (s.slot q.slot).bits)).bAct q.slot = false)
      ∧ (q.lvl = none → t.preg q.req.id DSP.CANRES.DONE.off = canWord 1 q.slot) := by
  refine ⟨s.cancelResolve, rfl, ?_⟩
  rw [s.cancelResolve_withdrawn hq hst ha]
  obtain ⟨u, hu⟩ : ∃ u, u = s.resolving q qs := ⟨_, rfl⟩
  have huraw : u.raw = max s.raw (q.time + 2) := by rw [hu]; rfl
  have hucancels : u.dsp.cancels = qs := by rw [hu]; rfl
  have huslot : u.slot q.slot = s.slot q.slot := by rw [hu]; rfl
  rw [← hu]
  clear hu
  obtain ⟨hkept, hslots⟩ := u.withdrawnTold_kept q
  obtain ⟨hcancels, hraw⟩ := u.withdrawn_cancels q.slot
  obtain ⟨hst', hout⟩ := u.slot_withdrawn q.slot
  obtain ⟨hdsp, hrawkept, htrk⟩ := State.fields_of_ttKept
    (((u.withdrawnTold q).report_ttKept q.req q.lvl DSP.CANRES.DONE.off (canWord 1 q.slot) (q.time + 8)).trans hkept)
  have hslot := State.slot_congr
    (((u.withdrawnTold q).report_slots q.req q.lvl DSP.CANRES.DONE.off (canWord 1 q.slot) (q.time + 8)).trans hslots) q.slot
  refine ⟨by rw [hslot, hst'], by rw [hslot, hout], by rw [hrawkept, hraw, huraw], by rw [hdsp, hcancels, hucancels], fun hact => ?_,
    fun hl => by rw [hl, State.report_none, State.preg_setPreg_self]⟩
  rw [State.track_congr _ htrk, ← huslot]
  exact u.withdrawn_of q.slot (by rw [huslot]; exact hact)

/-- R108: a cancellation that comes too late reports so. -/
theorem cancel_tooLate (q : CancelReq) (qs : List CancelReq) (hq : s.dsp.cancels = q :: qs)
    (h : (s.slot q.slot).st ≠ .active ∨ (s.slot q.slot).acted ≠ none) :
    ∃ t : State, exec .cancelResolve s = .next (settle t) ∧ t.slots = s.slots ∧ t.dsp.cancels = qs ∧ t.trk = s.trk
      ∧ t.raw = max s.raw (q.time + 2) ∧ (q.lvl = none → t.preg q.req.id DSP.CANRES.DONE.off = canWord 2 q.slot) := by
  refine ⟨s.cancelResolve, rfl, ?_⟩
  rw [s.cancelResolve_late hq h]
  obtain ⟨hdsp, hraw, htrk⟩ := State.fields_of_ttKept
    ((s.resolving q qs).report_ttKept q.req q.lvl DSP.CANRES.DONE.off (canWord 2 q.slot) (q.time + 8))
  refine ⟨(State.report_slots _ _ _ _ _ _).trans rfl, by rw [hdsp]; rfl, htrk.trans rfl, hraw.trans rfl,
    fun hl => by rw [hl, State.report_none, State.preg_setPreg_self]⟩

end Sys2Proof.Machine

open Sys2Proof Sys2Proof.Machine

/-- Settles O17: the launch, the port's service and the cancellations clause by clause; the end of a consist that a freed entry
ordered touches no other entry. -/
theorem insertionsAndCancellations : Obligations.InsertionsAndCancellations := by
  unfold Obligations.InsertionsAndCancellations
  refine ⟨insertion_launched, fun s r v h hp => ?_, fun s r v h hp hm => ?_, insertion_seated, insertion_refused,
    fun s r v i h hc _ hi => ?_, fun s r v h hc => ?_,
    fun s q qs hq => ⟨fun hst ha => cancel_withdrawn s q qs hq hst ha, fun h => cancel_tooLate s q qs hq h⟩⟩
  · rw [exec_insertionLaunch_opens s v h]
    unfold State.insLaunch State.insPends
    rw [hp, if_pos rfl]
  · rw [exec_insertionLaunch_opens s v h]
    unfold State.insLaunch State.insPends
    rw [hp, hm, if_neg Bool.false_ne_true, if_pos rfl]
  · have hexec := exec_cancel_free s v h hc
    rw [← hi] at hexec
    refine ⟨fun hst hp => ?_, fun hst => ?_, fun hst => ?_, fun hchain => ?_⟩
    · obtain ⟨t, ht, hst', hout, hother, hfreed, hdone⟩ :=
        cancelled_queued s r i (decide (bitsAt v.toNat 31 1 = 1)) hst hp
      exact ⟨t, by rw [hexec, ht], hst', hout, fun j hj hc => hother j hj (fun hd => hc (of_decide_eq_true hd)),
        fun hz => hfreed (decide_eq_false (by rw [hz]; decide)), hdone⟩
    · obtain ⟨t, ht, hother, hcancels, hdone⟩ := cancelled_active s r i (decide (bitsAt v.toNat 31 1 = 1)) hst
      refine ⟨t, by rw [hexec, ht], fun j hc => hother j (fun hd => hc (of_decide_eq_true hd)), ?_, hdone⟩
      rw [hcancels]
      simp only [decide_eq_true_eq]
    · obtain ⟨t, ht, hother, hdone⟩ := cancelled_late s r i (decide (bitsAt v.toNat 31 1 = 1)) hst
      exact ⟨t, by rw [hexec, ht], fun j hc => hother j (fun hd => hc (of_decide_eq_true hd)), hdone⟩
    · refine ⟨s.cancel r none i true, ?_, fun j hj => s.slot_cancel_chain hj⟩
      rw [hexec, decide_eq_true hchain]
  · rw [exec_cancelWrite_opens s v h]
    unfold State.cancelPut State.canPends
    dsimp only
    rw [hc, if_pos rfl]
end

section
/-! PROOFS. A frame of mirror records on a STANDBY: received before, after a gap, or in order (R345, R352). -/

namespace Sys2Proof.Machine

variable (s : State)

/-! ### A frame -/

/-- A record applied, its SEQ the highest in order. -/
def State.took (n : Nat) (m : Mirror) : State := (s.applyRec n m).onTwn fun x => { x with rxSeq := n }

/-- Records applied in order from SEQ `n`. -/
def State.takes (s : State) (n : Nat) : List Mirror → State
  | [] => s
  | m :: ms => (s.took n m).takes (n + 1) ms

/-- The acknowledgement of the highest SEQ in order, and the consists that it covers (R355). -/
def State.acknowledged : State :=
  s.onTwn fun x => { x with out := .ack x.rxSeq s.vt :: x.out, cons := ackCons x.rxSeq s.cyc x.cons }

/-- What a record in order leaves: no heartbeat waits to be verified. -/
def State.Idle : Prop := s.twn.check = []

theorem State.acknowledged_verify (h : s.Idle) :
    ((s.send (.ack s.twn.rxSeq s.vt)).onTwn fun x =>
      { x with cons := ackCons x.rxSeq (s.send (.ack s.twn.rxSeq s.vt)).cyc x.cons }).verify = s.acknowledged :=
  State.verify_idle s.acknowledged h

section
variable {s} (hl : s.linked = true) (hst : s.twn.st.standby = true)
include hl hst

theorem State.rxMirror_standby (n : Nat) (ms : List Mirror) : ∀ t, t = (if s.twn.rxSeq + 1 < n then s
      else ((ms.zipIdx n).filter (fun p => s.twn.rxSeq + 1 ≤ p.2)).foldl
        (fun s p => ((s.applyRec p.2 p.1).onTwn fun x => { x with rxSeq := p.2 }).verify) s) → t.Idle →
      s.rxMirror n ms = t.acknowledged := by
  rintro t ht hidle
  rw [← t.acknowledged_verify hidle, ht]
  unfold State.rxMirror
  rw [hl, hst]
  rfl

/-- A frame after a gap is discarded. -/
theorem State.rxMirror_gap {n : Nat} (hi : s.Idle) (hn : s.twn.rxSeq + 1 < n) (ms : List Mirror) :
    s.rxMirror n ms = s.acknowledged :=
  State.rxMirror_standby hl hst n ms s (if_pos hn).symm hi

/-- Records received before are dropped. -/
theorem State.rxMirror_before {n : Nat} (hi : s.Idle) {ms : List Mirror} (hn : n ≤ s.twn.rxSeq) (hms : n + ms.length ≤ s.twn.rxSeq + 1) :
    s.rxMirror n ms = s.acknowledged := by
  refine State.rxMirror_standby hl hst n ms s ?_ hi
  have hnone : (ms.zipIdx n).filter (fun p => s.twn.rxSeq + 1 ≤ p.2) = [] := by
    rw [List.filter_eq_nil_iff]
    intro p hp
    have hlt := List.snd_lt_add_of_mem_zipIdx hp
    rw [decide_eq_true_eq]
    omega
  rw [if_neg (by omega), hnone]
  rfl

/-- Records in order are applied one after the other. -/
theorem State.rxMirror_inOrder {n : Nat} (hn : n = s.twn.rxSeq + 1) {ms : List Mirror}
    (hfold : (ms.zipIdx n).foldl (fun s p => (s.took p.2 p.1).verify) s = s.takes n ms) (hi : (s.takes n ms).Idle) :
    s.rxMirror n ms = (s.takes n ms).acknowledged := by
  refine State.rxMirror_standby hl hst n ms _ ?_ hi
  have hall : (ms.zipIdx n).filter (fun p => s.twn.rxSeq + 1 ≤ p.2) = ms.zipIdx n := by
    rw [List.filter_eq_self]
    intro p hp
    have hle := List.le_snd_of_mem_zipIdx hp
    rw [decide_eq_true_eq]
    omega
  rw [if_neg (by omega), hall]
  exact hfold.symm

/-- One record in order. -/
theorem State.rxMirror_one {n : Nat} (hn : n = s.twn.rxSeq + 1) {m : Mirror} (hi : (s.took n m).Idle) :
    s.rxMirror n [m] = (s.took n m).acknowledged :=
  State.rxMirror_inOrder hl hst hn (State.verify_idle _ hi) hi
end

/-! ### What a record leaves of the pair's books -/

/-- The pair's books and the clock. -/
def State.twnBook : Twn × Nat × Int := (s.twn, s.raw, s.vtOff)

variable {s} in
theorem State.fields_of_twnBook {t : State} (h : t.twnBook = s.twnBook) : t.twn = s.twn ∧ t.raw = s.raw ∧ t.vtOff = s.vtOff :=
  ⟨congrArg (fun p => p.1) h, congrArg (fun p => p.2.1) h, congrArg (fun p => p.2.2) h⟩

variable {s} in
theorem State.vt_of_twnBook {t : State} (h : t.twnBook = s.twnBook) : t.vt = s.vt := by
  obtain ⟨-, hraw, hoff⟩ := State.fields_of_twnBook h
  unfold State.vt State.vtAt
  rw [hraw, hoff]

@[simp] theorem State.set1_twnBook (g : Fld) (i : Nat) : (s.set1 g i).twnBook = s.twnBook := rfl
@[simp] theorem State.bump_twnBook (g : Fld) (n i : Nat) : (s.bump g n i).twnBook = s.twnBook := rfl
@[simp] theorem State.fault_twnBook (c : Nat) : (s.fault c).twnBook = s.twnBook := rfl
@[simp] theorem State.setPreg_twnBook (k a : Nat) (v : Word) : (s.setPreg k a v).twnBook = s.twnBook := rfl
@[simp] theorem State.setSlot_twnBook (i : Nat) (x : Slot) : (s.setSlot i x).twnBook = s.twnBook := rfl
@[simp] theorem State.setConsist_twnBook (k : Nat) (x : Consist) : (s.setConsist k x).twnBook = s.twnBook := rfl
@[simp] theorem State.withDsp_twnBook (x : Dsp) : ({ s with dsp := x } : State).twnBook = s.twnBook := rfl
@[simp] theorem State.hang_twnBook (i : Nat) (p : Place) (c b : Nat) : (s.hang i p c b).twnBook = s.twnBook := rfl

@[simp] theorem State.acted_twnBook (c : LoadSrc) (o : Nat) : (s.acted c o).twnBook = s.twnBook := by
  unfold State.twnBook; simp

@[simp] theorem State.noteOutcome_twnBook (w o : Nat) : (s.noteOutcome w o).twnBook = s.twnBook := by
  simp [State.noteOutcome, apply_ite State.twnBook]

@[simp] theorem State.claimSlot_twnBook (i : Nat) : (s.claimSlot i).twnBook = s.twnBook := by
  simp [State.claimSlot, apply_ite State.twnBook]

theorem State.claimSlot_slots (i : Nat) : (s.claimSlot i).slots = s.slots := by
  simp [State.claimSlot, apply_ite State.slots]

@[simp] theorem State.writeSlot_twnBook (i : Nat) (x : Slot) : (s.writeSlot i x).twnBook = s.twnBook :=
  (State.foldl_keeps _ State.twnBook (fun t j => by rfl) _).trans rfl

@[simp] theorem State.seat_twnBook (i : Nat) (park : Bool) : (s.seat i park).twnBook = s.twnBook := by
  obtain ⟨c, b, hseat, -⟩ := s.seat_eq i park
  rw [hseat, State.hang_twnBook]

@[simp] theorem State.putEntryAt_twnBook (i b : Nat) (park r : Bool) : (s.putEntryAt i b park r).twnBook = s.twnBook := by
  simp [State.putEntryAt, apply_ite State.twnBook]

theorem State.applyCan_eq (i : Nat) (chain : Bool) : s.applyCan i chain
    = if ((s.freeAll (s.cancelRest i chain) outCancelled).slot i).st = .queued
      then (s.freeAll (s.cancelRest i chain) outCancelled).freeSlot i outCancelled
      else s.freeAll (s.cancelRest i chain) outCancelled := rfl

section
variable {s} (hp : s.twn.st ≠ .primary)
include hp

/-- A device that is no PRIMARY mirrors nothing. -/
theorem State.mirror_of_not_primary (m : Mirror) : s.mirror m = s := by
  unfold State.mirror State.mirrors
  rw [decide_eq_false hp]
  rfl

theorem State.consistEnd_twnBook (k o : Nat) : (s.consistEnd k o).twnBook = s.twnBook := by
  unfold State.consistEnd
  extract_lets x y ended twn forgotten told
  split
  · rfl
  · have hended : ended = s := by
      simp only [ended, State.mirror_of_not_primary hp, ite_self]
    have hforgotten : forgotten = s := by
      simp only [forgotten]
      rw [hended, if_neg hp]
    have htold : told.twnBook = s.twnBook := by
      simp only [told, apply_ite State.twnBook, State.acted_twnBook, ite_self, hforgotten]
    rw [State.noteOutcome_twnBook, State.setConsist_twnBook, htold]

theorem State.entryLost_twnBook (i : Nat) : (s.entryLost i).twnBook = s.twnBook := by
  unfold State.entryLost
  split
  · rfl
  · exact State.consistEnd_twnBook hp _ _

theorem State.freeSlot_twnBook (i o : Nat) : (s.freeSlot i o).twnBook = s.twnBook := by
  unfold State.freeSlot
  dsimp only
  rw [State.withDsp_twnBook, State.setSlot_twnBook]
  split
  · exact State.entryLost_twnBook hp i
  · rfl

theorem State.freeAll_twnBook (is : List Nat) (o : Nat) : (s.freeAll is o).twnBook = s.twnBook := by
  induction is generalizing s with
  | nil => rfl
  | cons i is ih =>
    have hone := State.freeSlot_twnBook hp i o
    rw [State.freeAll_cons, ih (by rw [(State.fields_of_twnBook hone).1]; exact hp), hone]

theorem State.applyCan_twnBook (i : Nat) (chain : Bool) : (s.applyCan i chain).twnBook = s.twnBook := by
  have hall := State.freeAll_twnBook hp (s.cancelRest i chain) outCancelled
  rw [s.applyCan_eq]
  split
  · rw [State.freeSlot_twnBook (by rw [(State.fields_of_twnBook hall).1]; exact hp), hall]
  · exact hall

theorem State.retire_twnBook (i o : Nat) : (s.retire i o).twnBook = s.twnBook := by
  unfold State.retire
  extract_lets x lost put
  have hlost : lost.twnBook = s.twnBook := by
    simp only [lost]
    split
    · rfl
    · exact State.entryLost_twnBook hp i
  have hput : put.twnBook = s.twnBook := (lost.setSlot_twnBook i _).trans hlost
  clear_value put
  rw [State.mirror_of_not_primary (by rw [(State.fields_of_twnBook hput).1]; exact hp), hput]

theorem State.applyRet_twnBook (i o : Nat) : (s.applyRet i o).twnBook = s.twnBook := by
  unfold State.applyRet
  split
  · rfl
  · split
    · exact State.retire_twnBook hp i o
    · rfl

/-- A record of the timetable leaves the pair's books and the clock. -/
theorem State.applyRec_twnBook {n : Nat} {m : Mirror}
    (h : (∃ i p r b, m = .ins i p r b) ∨ (∃ i c r, m = .can i c r) ∨ ∃ i o, m = .ret i o) : (s.applyRec n m).twnBook = s.twnBook := by
  obtain ⟨i, p, r, b, rfl⟩ | ⟨i, c, r, rfl⟩ | ⟨i, o, rfl⟩ := h
  · exact s.putEntryAt_twnBook i b p false
  · exact State.applyCan_twnBook hp i c
  · exact State.applyRet_twnBook hp i o
end

/-- A record of the timetable (R352): an insertion, a cancellation or a retirement. -/
def Mirror.OfEntry (m : Mirror) : Prop := (∃ i p r b, m = .ins i p r b) ∨ (∃ i c r, m = .can i c r) ∨ ∃ i o, m = .ret i o

theorem State.onTwn_twnBook (f : Twn → Twn) : (s.onTwn f).twnBook = (f s.twn, s.raw, s.vtOff) := rfl

theorem State.took_twnBook (hp : s.twn.st ≠ .primary) {m : Mirror} (hm : m.OfEntry) (n : Nat) :
    (s.took n m).twnBook = ({ s.twn with rxSeq := n }, s.raw, s.vtOff) := by
  obtain ⟨htwn, hraw, hoff⟩ := State.fields_of_twnBook (State.applyRec_twnBook hp (n := n) hm)
  unfold State.took
  rw [State.onTwn_twnBook, htwn, hraw, hoff]

theorem State.takes_twnBook {ms : List Mirror} (hm : ∀ m ∈ ms, m.OfEntry) : ∀ {s : State} {n : Nat}, s.twn.st ≠ .primary →
    n = s.twn.rxSeq + 1 → (s.takes n ms).twnBook = ({ s.twn with rxSeq := s.twn.rxSeq + ms.length }, s.raw, s.vtOff) := by
  induction ms with
  | nil => exact fun {s n} _ _ => rfl
  | cons m ms ih =>
    rintro s n hp rfl
    have htook := s.took_twnBook hp (hm m List.mem_cons_self) (s.twn.rxSeq + 1)
    have htwn : (s.took (s.twn.rxSeq + 1) m).twn = { s.twn with rxSeq := s.twn.rxSeq + 1 } := congrArg (fun p => p.1) htook
    have hraw : (s.took (s.twn.rxSeq + 1) m).raw = s.raw := congrArg (fun p => p.2.1) htook
    have hoff : (s.took (s.twn.rxSeq + 1) m).vtOff = s.vtOff := congrArg (fun p => p.2.2) htook
    have hrest := ih (fun m' h => hm m' (List.mem_cons_of_mem _ h)) (s := s.took (s.twn.rxSeq + 1) m) (n := s.twn.rxSeq + 1 + 1)
      (by rw [htwn]; exact hp) (by rw [htwn])
    rw [htwn, hraw, hoff] at hrest
    show ((s.took (s.twn.rxSeq + 1) m).takes (s.twn.rxSeq + 1 + 1) ms).twnBook = _
    rw [hrest, List.length_cons, Nat.add_right_comm, Nat.add_assoc]

/-- While no heartbeat waits, nothing is verified between the records. -/
theorem State.foldl_took {ms : List Mirror} (hm : ∀ m ∈ ms, m.OfEntry) : ∀ {s : State} {n : Nat}, s.twn.st ≠ .primary → s.Idle →
    (ms.zipIdx n).foldl (fun s p => (s.took p.2 p.1).verify) s = s.takes n ms := by
  induction ms with
  | nil => exact fun {s n} _ _ => rfl
  | cons m ms ih =>
    intro s n hp hi
    have htook := s.took_twnBook hp (hm m List.mem_cons_self) n
    have htwn : (s.took n m).twn = { s.twn with rxSeq := n } := congrArg (fun p => p.1) htook
    have hidle : (s.took n m).Idle := by
      unfold State.Idle
      rw [htwn]
      exact hi
    rw [List.zipIdx_cons, List.foldl_cons, State.verify_idle _ hidle]
    exact ih (fun m' h => hm m' (List.mem_cons_of_mem _ h)) (by rw [htwn]; exact hp) hidle

/-- A frame of the timetable's records in order: the records applied, the highest acknowledged, the clock where it was. -/
theorem State.rxMirror_entries {n : Nat} (hl : s.linked = true) (hst : s.twn.st.standby = true) (hi : s.Idle)
    (hn : n = s.twn.rxSeq + 1) {ms : List Mirror} (hm : ∀ m ∈ ms, m.OfEntry) :
    ∃ t, t = s.rxMirror n ms ∧ t.slots = (s.takes n ms).slots ∧ t.twn.rxSeq = s.twn.rxSeq + ms.length
      ∧ t.twn.out = .ack t.twn.rxSeq s.vt :: s.twn.out ∧ t.raw = s.raw := by
  have hp : s.twn.st ≠ .primary := fun h => by rw [h] at hst; cases hst
  have hbook := State.takes_twnBook hm hp hn
  have htwn : (s.takes n ms).twn = { s.twn with rxSeq := s.twn.rxSeq + ms.length } := congrArg (fun p => p.1) hbook
  have hraw : (s.takes n ms).raw = s.raw := congrArg (fun p => p.2.1) hbook
  have hoff : (s.takes n ms).vtOff = s.vtOff := congrArg (fun p => p.2.2) hbook
  have hvt : (s.takes n ms).vt = s.vt := by
    unfold State.vt State.vtAt
    rw [hraw, hoff]
  have hidle : (s.takes n ms).Idle := by
    unfold State.Idle
    rw [htwn]
    exact hi
  refine ⟨_, rfl, ?_⟩
  rw [State.rxMirror_inOrder hl hst hn (State.foldl_took hm hp hi) hidle]
  generalize s.takes n ms = u at *
  unfold State.acknowledged
  refine ⟨rfl, by rw [← show u.twn.rxSeq = s.twn.rxSeq + ms.length by rw [htwn]]; rfl, ?_, hraw⟩
  show Frame.ack u.twn.rxSeq u.vt :: u.twn.out = Frame.ack u.twn.rxSeq s.vt :: s.twn.out
  rw [hvt, htwn]

/-! ### The slots that a frame's records touch -/

/-- Records that each touch the slot of their own key. -/
theorem State.slot_takes {α : Type} {g : α → Mirror} {key : α → Nat} {inv : State → Prop} {rel : α → Slot → Slot → Prop}
    (hinv : ∀ s n a, inv s → inv (State.took s n (g a)))
    (hother : ∀ s n a j, j ≠ key a → (State.took s n (g a)).slot j = s.slot j)
    (hself : ∀ s n a, inv s → rel a (s.slot (key a)) ((State.took s n (g a)).slot (key a))) (as : List α) :
    ∀ (s : State) (n : Nat), inv s → (as.map key).Nodup →
      (∀ a ∈ as, rel a (s.slot (key a)) ((s.takes n (as.map g)).slot (key a)))
        ∧ ∀ j, j ∉ as.map key → (s.takes n (as.map g)).slot j = s.slot j := by
  induction as with
  | nil => exact fun s n _ _ => ⟨fun _ ha => absurd ha List.not_mem_nil, fun _ _ => rfl⟩
  | cons a as ih =>
    intro s n hi hnd
    rw [List.map_cons, List.nodup_cons] at hnd
    obtain ⟨ha, hnd⟩ := hnd
    obtain ⟨hin, hout⟩ := ih (s.took n (g a)) (n + 1) (hinv s n a hi) hnd
    have htakes : s.takes n ((a :: as).map g) = (s.took n (g a)).takes (n + 1) (as.map g) := rfl
    rw [htakes]
    refine ⟨fun b hb => ?_, fun j hj => ?_⟩
    · rcases List.mem_cons.mp hb with rfl | hb
      · rw [hout _ ha]
        exact hself s n b hi
      · have hne : key b ≠ key a := fun h => ha (by rw [← h]; exact List.mem_map_of_mem hb)
        have hrel := hin b hb
        rw [hother s n a _ hne] at hrel
        exact hrel
    · rw [List.map_cons, List.mem_cons, not_or] at hj
      rw [hout j hj.2, hother s n a j hj.1]

/-! ### An entry put into the slot of its record -/

theorem State.slot_putEntryAt_other {i j : Nat} (h : j ≠ i) (b : Nat) (park r : Bool) : (s.putEntryAt i b park r).slot j = s.slot j := by
  unfold State.putEntryAt
  extract_lets c w
  have hw : w.slot j = s.slot j := by
    simp only [w]
    rw [State.slot_writeSlot, if_neg h, State.slot_congr (s.claimSlot_slots i)]
  split
  · exact hw
  · obtain ⟨c, k, hseat, -⟩ := w.seat_eq i park
    rw [hseat, State.slot_hang, if_neg h, hw]

theorem State.timePlace_ne_parked (c : Nat) : s.timePlace c ≠ .parked := by
  unfold State.timePlace
  split
  · decide
  · split <;> decide

theorem State.slot_putEntryAt (i b : Nat) (park : Bool) :
    ((s.putEntryAt i b park false).slot i).bits = b ∧ ((s.putEntryAt i b park false).slot i).st = .queued
      ∧ (((s.putEntryAt i b park false).slot i).place = .parked ↔ park = true) := by
  unfold State.putEntryAt
  extract_lets c w
  have hw : w.slot i = { bits := b, st := .queued } := by
    simp only [w]
    rw [State.slot_writeSlot, if_pos rfl]
    rfl
  rw [if_neg Bool.false_ne_true]
  obtain ⟨c, k, hseat, -⟩ := w.seat_eq i park
  rw [hseat, State.slot_hang, if_pos rfl, hw]
  refine ⟨rfl, rfl, ?_⟩
  dsimp only
  unfold State.seatPlace
  cases park with
  | true => exact ⟨fun _ => rfl, fun _ => rfl⟩
  | false =>
    rw [if_neg Bool.false_ne_true]
    refine ⟨fun h => ?_, fun h => nomatch h⟩
    split at h
    · cases h
    · exact absurd h (w.timePlace_ne_parked _)

theorem State.slot_putEntryAt_bulk (i b : Nat) (park r : Bool) :
    ((s.putEntryAt i b park r).slot i).bits = b ∧ ((s.putEntryAt i b park r).slot i).st = (if r then .retiring else .queued) := by
  cases r with
  | false => exact ⟨(s.slot_putEntryAt i b park).1, (s.slot_putEntryAt i b park).2.1⟩
  | true =>
    have hw : (s.putEntryAt i b park true).slot i = { bits := b, st := .retiring } := by
      unfold State.putEntryAt
      extract_lets c w
      rw [if_pos rfl]
      simp only [w]
      rw [State.slot_writeSlot, if_pos rfl]
      rfl
    rw [hw]
    exact ⟨rfl, rfl⟩

/-! ### A cancellation and a retirement -/

theorem State.slot_applyCan (i : Nat) (chain : Bool) (j : Nat) : (s.applyCan i chain).slot j
    = if j = i ∧ ((s.freeAll (s.cancelRest i chain) outCancelled).slot i).st = .queued
      then ((s.freeAll (s.cancelRest i chain) outCancelled).slot i).freed outCancelled
      else (s.freeAll (s.cancelRest i chain) outCancelled).slot j := by
  rw [s.applyCan_eq]
  split
  next h =>
    rw [State.slot_freeSlot]
    simp only [h, and_true]
  next h =>
    rw [if_neg fun hc => h hc.2]

theorem State.slot_retire (i o j : Nat) : (s.retire i o).slot j
    = if j = i then { s.slot i with
        st := .retiring, place := .nowhere, out := o, acted := none, held := false, chain := eLinked (s.slot i).bits } else s.slot j := by
  unfold State.retire
  extract_lets x lost put
  rw [State.slot_congr (State.mirror_slots _ _)]
  refine (State.slot_setSlot _ _ _ _).trans ?_
  split
  next => rfl
  next h =>
    simp only [lost]
    split
    · rfl
    · exact s.slot_entryLost_other h

theorem State.slot_applyRet_other {i j : Nat} (h : j ≠ i) (o : Nat) : (s.applyRet i o).slot j = s.slot j := by
  unfold State.applyRet
  split
  · rfl
  · split
    · rw [State.slot_retire, if_neg h]
    · rfl

/-- Without a commanded switchover on its way, a QUEUED entry retires with the record's outcome. -/
theorem State.slot_applyRet (hsw : s.twn.sw = none) (i o : Nat) :
    ((s.slot i).st = .queued → ((s.applyRet i o).slot i).st = .retiring ∧ ((s.applyRet i o).slot i).out = o)
      ∧ ((s.slot i).st ≠ .queued → (s.applyRet i o).slot i = s.slot i) := by
  have hc : s.commanded = false := by
    unfold State.commanded
    rw [hsw]
  have hret : s.applyRet i o = if (s.slot i).st = .queued then s.retire i o else s := by
    unfold State.applyRet
    rw [hc, Bool.and_false]
    rfl
  rw [hret]
  refine ⟨fun h => ?_, fun h => by rw [if_neg h]⟩
  rw [if_pos h, State.slot_retire, if_pos rfl]
  exact ⟨rfl, rfl⟩

theorem State.took_twn {n : Nat} {m : Mirror} (hp : s.twn.st ≠ .primary) (hm : m.OfEntry) :
    (s.took n m).twn = { s.twn with rxSeq := n } := congrArg (fun p => p.1) (s.took_twnBook hp hm n)

/-- What CHAIN cancels waits parked. -/
theorem State.queued_of_mem_chainFrom {j : Nat} : ∀ {n i : Nat}, j ∈ s.chainFrom n i → (s.slot j).st = .queued := by
  intro n
  induction n with
  | zero => exact fun h => absurd h List.not_mem_nil
  | succ n ih =>
    intro i h
    unfold State.chainFrom at h
    dsimp only at h
    split at h
    next hq =>
      rcases List.mem_cons.mp h with rfl | h
      · exact hq.1
      · split at h
        · exact ih h
        · exact absurd h List.not_mem_nil
    next => exact absurd h List.not_mem_nil

theorem State.queued_of_mem_cancelRest {i j : Nat} {chain : Bool} (h : j ∈ s.cancelRest i chain) : (s.slot j).st = .queued := by
  unfold State.cancelRest State.chainOf at h
  dsimp only at h
  split at h
  · split at h
    · exact s.queued_of_mem_chainFrom h
    · exact absurd h List.not_mem_nil
  · exact absurd h List.not_mem_nil

end Sys2Proof.Machine
end

section
/-! PROOFS. Mirror records on a STANDBY, kind by kind (R352, R355, R364). -/

namespace Sys2Proof.Machine

variable {s : State}

/-! ### Frames that change nothing but the acknowledgement -/

theorem State.acknowledged_frame (s : State) : ∃ t, t = s.acknowledged ∧ t.twn.rxSeq = s.twn.rxSeq
    ∧ t.twn.out = .ack s.twn.rxSeq s.vt :: s.twn.out ∧ { t with twn := s.twn } = s := ⟨_, rfl, rfl, rfl, rfl⟩

theorem State.rxMirror_elsewhere (h : s.linked = false ∨ s.twn.st.standby = false) (n : Nat) (ms : List Mirror) :
    s.rxMirror n ms = s := by
  unfold State.rxMirror
  rw [if_pos]
  rcases h with h | h <;> rw [h]
  · rfl
  · rw [Bool.not_false, Bool.or_true]

/-- Neither a device that is no STANDBY nor one without a link takes a frame. -/
theorem State.twin_rxMirror_elsewhere (h : s.mode.alive = false ∨ s.linked = false ∨ s.twn.st.standby = false) (n : Nat)
    (ms : List Mirror) : (s.twin fun s => s.rxMirror n ms) = .next (settle s) := by
  cases ha : s.mode.alive with
  | false => exact s.twin_dead _ ha
  | true =>
    refine (s.twin_alive _ ha).trans ?_
    rw [State.rxMirror_elsewhere (h.resolve_left (by simp [ha])) n ms]

/-- The frames of the link that carry mirror records. -/
def frameOf : Instr → Option (Nat × List Mirror)
  | .insFrame n xs => some (n, xs.map fun r => .ins r.slot r.park r.req r.bits)
  | .canFrame n i f o => some (n, [.can i f o])
  | .retFrame n rs => some (n, rs.map fun p => .ret p.1 p.2)
  | .consFrame n i o w b f vs => some (n, [.cons i o w b f vs])
  | .consAtFrame n i b => some (n, [.consAt i b])
  | .consEndFrame n i o => some (n, [.consEnd i o])
  | .mapFrame n b w => some (n, [.map b w])
  | .bulkFrame n bs f => some (n, [.bulk bs f])
  | _ => none

theorem exec_frame {c : Instr} {n : Nat} {ms : List Mirror} (h : frameOf c = some (n, ms)) :
    exec c s = s.twin fun s => s.rxMirror n ms := by
  unfold frameOf at h
  split at h <;> cases h <;> rfl

theorem exec_frame_alive {c : Instr} {n : Nat} {ms : List Mirror} (ha : s.mode.alive = true) (h : frameOf c = some (n, ms)) :
    exec c s = .next (settle (s.rxMirror n ms)) := (exec_frame h).trans (s.twin_alive _ ha)

/-- A frame that only brings the acknowledgement again. -/
theorem frame_again {c : Instr} {n : Nat} {ms : List Mirror} (ha : s.mode.alive = true) (h : frameOf c = some (n, ms))
    (hr : s.rxMirror n ms = s.acknowledged) : ∃ t : State, exec c s = .next (settle t) ∧ t.twn.rxSeq = s.twn.rxSeq
      ∧ t.twn.out = .ack s.twn.rxSeq s.vt :: s.twn.out ∧ { t with twn := s.twn } = s := by
  obtain ⟨t, ht, hrest⟩ := s.acknowledged_frame
  exact ⟨t, by rw [exec_frame_alive ha h, hr, ht], hrest⟩

/-! ### Records of the timetable in order -/

section
variable (ha : s.mode.alive = true) (hl : s.linked = true) (hst : s.twn.st.standby = true) (hi : s.twn.check = [])
  {n : Nat} (hn : n = s.twn.rxSeq + 1)
include ha hl hst hi hn

theorem frame_entries {c : Instr} {ms : List Mirror} (hc : frameOf c = some (n, ms)) (hm : ∀ m ∈ ms, m.OfEntry) :
    ∃ t : State, exec c s = .next (settle t) ∧ (∀ j, t.slot j = (s.takes n ms).slot j)
      ∧ t.twn.rxSeq = s.twn.rxSeq + ms.length ∧ t.twn.out = .ack t.twn.rxSeq s.vt :: s.twn.out ∧ t.raw = s.raw := by
  obtain ⟨t, ht, hslots, hrest⟩ := s.rxMirror_entries hl hst hi hn hm
  exact ⟨t, by rw [exec_frame_alive ha hc, ht], State.slot_congr hslots, hrest⟩

theorem insFrame_inOrder (xs : List InsRec) (hnd : (xs.map (fun x => x.slot)).Nodup) :
    ∃ t : State, exec (.insFrame n xs) s = .next (settle t)
      ∧ (∀ x ∈ xs, (t.slot x.slot).bits = x.bits ∧ (t.slot x.slot).st = .queued
        ∧ ((t.slot x.slot).place = .parked ↔ x.park = true))
      ∧ (∀ j, j ∉ xs.map (fun x => x.slot) → t.slot j = s.slot j)
      ∧ t.twn.rxSeq = s.twn.rxSeq + xs.length ∧ t.twn.out = .ack t.twn.rxSeq s.vt :: s.twn.out ∧ t.raw = s.raw := by
  obtain ⟨t, hexec, hslot, hseq, hout, hraw⟩ := frame_entries ha hl hst hi hn (c := .insFrame n xs) rfl (by
    intro m hm
    obtain ⟨r, -, rfl⟩ := List.mem_map.mp hm
    exact .inl ⟨_, _, _, _, rfl⟩)
  rw [List.length_map] at hseq
  obtain ⟨hin, hother⟩ := State.slot_takes (g := fun r : InsRec => .ins r.slot r.park r.req r.bits) (key := InsRec.slot)
    (inv := fun _ => True) (rel := fun x _ y => y.bits = x.bits ∧ y.st = .queued ∧ (y.place = .parked ↔ x.park = true))
    (fun _ _ _ _ => trivial) (fun s _ x j hj => s.slot_putEntryAt_other hj x.bits x.park false)
    (fun s _ x _ => s.slot_putEntryAt x.slot x.bits x.park) xs s n trivial hnd
  exact ⟨t, hexec, fun x hx => by rw [hslot]; exact hin x hx, fun j hj => by rw [hslot]; exact hother j hj, hseq, hout, hraw⟩

theorem canFrame_inOrder (i q : Nat) (chain : Bool) :
    ∃ t : State, exec (.canFrame n i chain q) s = .next (settle t)
      ∧ ((s.slot i).st = .queued → (t.slot i).st = .free ∧ (t.slot i).out = outCancelled)
      ∧ ((s.slot i).st ≠ .queued → t.slot i = s.slot i)
      ∧ (∀ j, j ≠ i → (chain = true → j ∉ s.chainOf i) → t.slot j = s.slot j)
      ∧ (chain = true → ∀ j ∈ s.chainOf i, (t.slot j).st = .free)
      ∧ t.twn.rxSeq = n ∧ t.twn.out = .ack n s.vt :: s.twn.out ∧ t.raw = s.raw := by
  obtain ⟨t, hexec, hslot, hseq, hout, hraw⟩ := frame_entries ha hl hst hi hn (c := .canFrame n i chain q) rfl (by
    intro m hm
    rw [List.mem_singleton.mp hm]
    exact .inr (.inl ⟨_, _, _, rfl⟩))
  have hseq' : t.twn.rxSeq = n := hseq.trans hn.symm
  rw [hseq'] at hout
  have hcan (j : Nat) : t.slot j = _ := (hslot j).trans (s.slot_applyCan i chain j)
  have hrest (j : Nat) (h : j ∈ s.cancelRest i chain) := s.slot_freeAll_mem h outCancelled
  have hkept (j : Nat) (h : j ∉ s.cancelRest i chain) := s.slot_freeAll_other h outCancelled
  refine ⟨t, hexec, fun hq => ?_, fun hq => ?_, fun j hj hc => ?_, fun hc j hj => ?_, hseq', hout, hraw⟩
  · rw [hcan]
    by_cases hmem : i ∈ s.cancelRest i chain
    · rw [if_neg (by rw [(hrest i hmem).1]; exact fun h => nomatch h.2)]
      exact hrest i hmem
    · rw [if_pos ⟨rfl, by rw [hkept i hmem, hq]⟩]
      exact ⟨rfl, rfl⟩
  · have hmem : i ∉ s.cancelRest i chain := fun h => hq (s.queued_of_mem_cancelRest h)
    rw [hcan, if_neg (by rw [hkept i hmem]; exact fun h => hq h.2), hkept i hmem]
  · rw [hcan, if_neg (fun h => hj h.1), s.slot_cancelRest_other hc]
  · have hmem : j ∈ s.cancelRest i chain := by
      unfold State.cancelRest
      rw [if_pos hc]
      exact hj
    rw [hcan]
    split
    · rfl
    · exact (hrest j hmem).1

theorem retFrame_inOrder (rs : List (Nat × Nat)) (hnd : (rs.map (fun p => p.1)).Nodup) (hsw : s.twn.sw = none) :
    ∃ t : State, exec (.retFrame n rs) s = .next (settle t)
      ∧ (∀ p ∈ rs, ((s.slot p.1).st = .queued → (t.slot p.1).st = .retiring ∧ (t.slot p.1).out = p.2)
        ∧ ((s.slot p.1).st ≠ .queued → t.slot p.1 = s.slot p.1))
      ∧ (∀ j, j ∉ rs.map (fun p => p.1) → t.slot j = s.slot j)
      ∧ t.twn.rxSeq = s.twn.rxSeq + rs.length ∧ t.twn.out = .ack t.twn.rxSeq s.vt :: s.twn.out ∧ t.raw = s.raw := by
  obtain ⟨t, hexec, hslot, hseq, hout, hraw⟩ := frame_entries ha hl hst hi hn (c := .retFrame n rs) rfl (by
    intro m hm
    obtain ⟨r, -, rfl⟩ := List.mem_map.mp hm
    exact .inr (.inr ⟨_, _, rfl⟩))
  rw [List.length_map] at hseq
  have hp : s.twn.st ≠ .primary := fun h => by rw [h] at hst; cases hst
  obtain ⟨hin, hother⟩ := State.slot_takes (g := fun p : Nat × Nat => .ret p.1 p.2) (key := Prod.fst)
    (inv := fun u => u.twn.st ≠ .primary ∧ u.twn.sw = none)
    (rel := fun p x y => (x.st = .queued → y.st = .retiring ∧ y.out = p.2) ∧ (x.st ≠ .queued → y = x))
    (fun u n p h => by
      rw [u.took_twn h.1 (.inr (.inr ⟨_, _, rfl⟩))]
      exact h)
    (fun u _ p j hj => u.slot_applyRet_other hj p.2)
    (fun u _ p h => u.slot_applyRet h.2 p.1 p.2) rs s n ⟨hp, hsw⟩ hnd
  exact ⟨t, hexec, fun x hx => by rw [hslot]; exact hin x hx, fun j hj => by rw [hslot]; exact hother j hj, hseq, hout, hraw⟩
end

end Sys2Proof.Machine
end

section
/-! PROOFS. Records of consists, of the mapping and of the copy; acknowledgements and the frames of a PRIMARY (R345, R355, R364). -/

namespace Sys2Proof.Machine

variable {s : State}

/-! ### Consists -/

/-- A consist whose last record an acknowledgement of `n` covers. -/
theorem ackCons_one (n c : Nat) (m : MirCns) : ackCons n c [m]
    = [if m.acked = none ∧ m.seq ≤ n ∧ (m.complete = true ∨ m.vals = []) then { m with acked := some c } else m] := by
  unfold ackCons
  rw [List.map_singleton]
  simp only [Bool.and_eq_true, Bool.or_eq_true, decide_eq_true_eq, and_assoc]

/-- An acknowledgement changes `acked` alone. -/
theorem ackCons_map {α : Type} {f : MirCns → α} (h : ∀ m a, f { m with acked := a } = f m) (n c : Nat) (ms : List MirCns) :
    (ackCons n c ms).map f = ms.map f := by
  unfold ackCons
  rw [List.map_map]
  refine List.map_congr_left fun m _ => ?_
  dsimp only [Function.comp]
  split
  · exact h m _
  · rfl

/-- A state whose records up to SEQ `n` are applied, acknowledged. -/
def State.ackedAt (u : State) (n : Nat) : State :=
  { u with twn := { u.twn with rxSeq := n, out := .ack n u.vt :: u.twn.out, cons := ackCons n u.cyc u.twn.cons } }

theorem State.onTwn_acknowledged (u : State) (n : Nat) : (u.onTwn fun x => { x with rxSeq := n }).acknowledged = u.ackedAt n := rfl

theorem State.onTwn_vt (u : State) (f : Twn → Twn) : (u.onTwn f).vt = u.vt := rfl
theorem State.onTwn_cyc (u : State) (f : Twn → Twn) : (u.onTwn f).cyc = u.cyc := rfl
theorem State.ackedAt_cons (u : State) (n : Nat) : (u.ackedAt n).twn.cons = ackCons n u.cyc u.twn.cons := rfl
theorem State.ackedAt_out (u : State) (n : Nat) : (u.ackedAt n).twn.out = .ack n u.vt :: u.twn.out := rfl
theorem State.ackedAt_rxSeq (u : State) (n : Nat) : (u.ackedAt n).twn.rxSeq = n := rfl
theorem State.ackedAt_st (u : State) (n : Nat) : (u.ackedAt n).twn.st = u.twn.st := rfl
theorem State.ackedAt_frame (u : State) (n : Nat) (w : Twn) : ({ u.ackedAt n with twn := w } : State) = { u with twn := w } := rfl
/-- The mapping that a record brings. -/
def State.mapped (u : State) (v a : Nat) : State := { u with tbu := { u.tbu with mapVt := v, mapTai := a } }.nextSec

theorem State.mapped_ackedAt (u : State) (v a n : Nat) : ((u.mapped v a).ackedAt n).tbu.mapVt = v ∧ ((u.mapped v a).ackedAt n).tbu.mapTai = a
    ∧ ((u.mapped v a).ackedAt n).twn.rxSeq = n ∧ ((u.mapped v a).ackedAt n).slots = u.slots
    ∧ { (u.mapped v a).ackedAt n with
        tbu := { ((u.mapped v a).ackedAt n).tbu with mapVt := u.tbu.mapVt, mapTai := u.tbu.mapTai }, regs := u.regs, twn := u.twn } = u := by
  have hnext (w : State) : ∃ m, w.nextSec = { w with regs := m } := ⟨_, rfl⟩
  obtain ⟨m, hm⟩ := hnext { u with tbu := { u.tbu with mapVt := v, mapTai := a } }
  unfold State.mapped
  rw [hm]
  exact ⟨rfl, rfl, rfl, rfl, rfl⟩

/-- The books of the consists without the one that has ended. -/
theorem applyConsEnd_one {d : Nat} {m : MirCns} (hcons : s.twn.cons = [m]) (h : s.commanded = false ∨ d ≠ coEntryLost) :
    s.applyConsEnd m.slot d = if m.verdict = some true
      then (s.onTwn fun x => { x with cons := x.cons.filter (fun c => c.slot ≠ m.slot) }).diverge
      else s.onTwn fun x => { x with cons := x.cons.filter (fun c => c.slot ≠ m.slot) } := by
  have hbad : s.twn.cons.any (fun c => c.slot = m.slot && c.verdict = some true) = decide (m.verdict = some true) := by
    simp [hcons]
  unfold State.applyConsEnd
  rw [if_neg]
  · dsimp only
    rw [hbad]
    simp only [decide_eq_true_eq]
  · intro hc
    rw [Bool.and_eq_true, decide_eq_true_eq] at hc
    rcases h with h | h
    · rw [h] at hc
      exact Bool.false_ne_true hc.2
    · exact h hc.1

/-- What a divergence leaves of the pair's books. -/
theorem diverge_books (u : State) (hu : u.twn.st.standby = true) (hj : u.twn.st ≠ .joining) : u.diverge.twn.st = .notReady
    ∧ u.diverge.on TWN.IRQ_RAW.DIVERGE = true ∧ u.diverge.twn.cons = u.twn.cons ∧ u.diverge.twn.check = u.twn.check := by
  by_cases hr : u.twn.st = .ready
  · obtain ⟨hst, hon, -⟩ := u.diverge_ready hr
    obtain ⟨o, ho⟩ := u.diverge_twn hr
    exact ⟨hst, hon, by rw [ho], by rw [ho]⟩
  · have hnr : u.twn.st = .notReady := by
      revert hu hj hr
      cases u.twn.st <;> decide
    have hsame : u.diverge = (u.set1 TWN.IRQ_RAW.DIVERGE).fault 9 := by
      unfold State.diverge State.notReady
      rw [State.fault_twn, State.set1_twn, if_neg]
      rw [hnr]
      decide
    rw [hsame]
    refine ⟨hnr, ?_, rfl, rfl⟩
    rw [State.on_fault_ne _ _ _ _ (by decide)]
    exact State.on_set1 _ _ _ (by decide) rfl

section
variable (ha : s.mode.alive = true) (hl : s.linked = true) (hst : s.twn.st.standby = true)
  {n : Nat} (hn : n = s.twn.rxSeq + 1)
include ha hl hst hn

/-- One record in order. -/
theorem frame_one {c : Instr} {m : Mirror} (hc : frameOf c = some (n, [m])) (hidle : (s.applyRec n m).twn.check = []) :
    exec c s = .next (settle ((s.applyRec n m).ackedAt n)) := by
  rw [exec_frame_alive ha hc, State.rxMirror_one hl hst hn hidle, State.took, State.onTwn_acknowledged]

variable (hi : s.twn.check = [])
include hi

/-- A record of consists changes their books, the SEQ and what is sent. -/
theorem frame_cons {c : Instr} {m : Mirror} (hc : frameOf c = some (n, [m])) {f : List MirCns → List MirCns}
    (hm : s.applyRec n m = s.onTwn fun x => { x with cons := f x.cons }) :
    ∃ t : State, exec c s = .next (settle t) ∧ t.twn.cons = ackCons n s.cyc (f s.twn.cons) ∧ t.twn.st = s.twn.st
      ∧ t.twn.rxSeq = n ∧ t.twn.out = .ack n s.vt :: s.twn.out ∧ { t with twn := s.twn } = s := by
  have hidle : (s.applyRec n m).twn.check = [] := by rw [hm]; exact hi
  refine ⟨_, frame_one ha hl hst hn hc hidle, ?_⟩
  rw [hm, State.ackedAt_cons, State.ackedAt_out, State.ackedAt_rxSeq, State.ackedAt_st, State.ackedAt_frame, State.onTwn_vt,
    State.onTwn_cyc]
  exact ⟨rfl, rfl, rfl, rfl, rfl⟩

/-- A record that a commanded switchover makes void. -/
theorem frame_void {c : Instr} {m : Mirror} (hc : frameOf c = some (n, [m])) (hm : s.applyRec n m = s) :
    ∃ t : State, exec c s = .next (settle t) ∧ t.twn.cons = ackCons n s.cyc s.twn.cons ∧ t.twn.st = s.twn.st
      ∧ t.twn.rxSeq = n ∧ t.twn.out = .ack n s.vt :: s.twn.out ∧ { t with twn := s.twn } = s :=
  frame_cons ha hl hst hn hi hc (f := id) hm

theorem retFrame_commanded (i : Nat) (hsw : (s.twn.sw.map Switch.trig) = some 3) :
    ∃ t : State, exec (.retFrame n [(i, outCancelled)]) s = .next (settle t) ∧ t.twn.rxSeq = n ∧ { t with twn := s.twn } = s := by
  have hc : s.commanded = true := by
    unfold State.commanded
    obtain ⟨w, hw, htrig⟩ := Option.map_eq_some_iff.mp hsw
    rw [hw]
    exact decide_eq_true htrig
  have hm : s.applyRec n (.ret i outCancelled) = s := by
    show s.applyRet i outCancelled = s
    unfold State.applyRet
    rw [hc]
    rfl
  obtain ⟨t, hexec, -, -, hseq, -, hrest⟩ := frame_void ha hl hst hn hi (c := .retFrame n [(i, outCancelled)]) rfl hm
  exact ⟨t, hexec, hseq, hrest⟩

theorem consFrame_first (k o w b : Nat) (last : Bool) (vs : List (Nat × Word)) (hcons : s.twn.cons = []) :
    ∃ t : State, exec (.consFrame n k o w b last vs) s = .next (settle t)
      ∧ t.twn.cons = [{ slot := k, owner := o, whn := w, dep := if w = whEntry then none else some b
                        entry := if w = whEntry then b else 0, vals := vs, complete := last, seq := n
                        acked := if last ∨ vs = [] then some s.cyc else none }]
      ∧ t.twn.rxSeq = n ∧ t.twn.out = .ack n s.vt :: s.twn.out ∧ { t with twn := s.twn } = s := by
  obtain ⟨t, hexec, htcons, -, hrest⟩ := frame_cons ha hl hst hn hi (c := .consFrame n k o w b last vs)
    (f := addCons k o w b n last vs) rfl rfl
  refine ⟨t, hexec, ?_, hrest⟩
  rw [htcons, hcons]
  unfold addCons
  rw [List.any_nil, if_neg Bool.false_ne_true, List.nil_append, ackCons_one]
  by_cases h : last = true ∨ vs = []
  · rw [if_pos ⟨rfl, Nat.le_refl _, h⟩, if_pos h]
  · rw [if_neg fun hc => h hc.2.2, if_neg h]

theorem consFrame_next (k o w b : Nat) (last : Bool) (vs : List (Nat × Word)) (m : MirCns) (hcons : s.twn.cons = [m])
    (hk : m.slot = k) (hm : m.complete = false) :
    ∃ t : State, exec (.consFrame n k o w b last vs) s = .next (settle t)
      ∧ (t.twn.cons.map MirCns.vals) = [m.vals ++ vs] ∧ (t.twn.cons.map MirCns.complete) = [last]
      ∧ t.twn.rxSeq = n ∧ t.twn.out = .ack n s.vt :: s.twn.out ∧ { t with twn := s.twn } = s := by
  obtain ⟨t, hexec, htcons, -, hrest⟩ := frame_cons ha hl hst hn hi (c := .consFrame n k o w b last vs)
    (f := addCons k o w b n last vs) rfl rfl
  have hadd : addCons k o w b n last vs [m] = [{ m with vals := m.vals ++ vs, complete := last, seq := n }] := by
    simp [addCons, hk, hm]
  rw [hcons, hadd] at htcons
  refine ⟨t, hexec, ?_, ?_, hrest⟩
  · rw [htcons, ackCons_map (fun _ _ => rfl)]
    rfl
  · rw [htcons, ackCons_map (fun _ _ => rfl)]
    rfl

theorem consAtFrame_inOrder (d : Nat) (m : MirCns) (hcons : s.twn.cons = [m]) (hw : m.whn = whEntry) (hm : m.complete = true) :
    ∃ t : State, exec (.consAtFrame n m.slot d) s = .next (settle t)
      ∧ t.twn.cons = [{ m with dep := some d, seq := n, acked := some s.cyc }]
      ∧ t.twn.rxSeq = n ∧ t.twn.out = .ack n s.vt :: s.twn.out ∧ { t with twn := s.twn } = s := by
  obtain ⟨t, hexec, htcons, -, hrest⟩ := frame_cons ha hl hst hn hi (c := .consAtFrame n m.slot d)
    (f := consAt m.slot d n) rfl rfl
  have hat : consAt m.slot d n [m] = [{ m with dep := some d, seq := n, acked := none }] := by
    simp [consAt, hw]
  refine ⟨t, hexec, ?_, hrest⟩
  rw [htcons, hcons, hat, ackCons_one, if_pos ⟨rfl, Nat.le_refl _, .inl hm⟩]

theorem consEndFrame_void (d : Nat) (m : MirCns) (hcons : s.twn.cons = [m]) (hc : s.commanded = true) (hd : d = coEntryLost) :
    ∃ t : State, exec (.consEndFrame n m.slot d) s = .next (settle t) ∧ t.twn.cons.map MirCns.slot = [m.slot]
      ∧ t.twn.rxSeq = n ∧ t.twn.out = .ack n s.vt :: s.twn.out ∧ { t with twn := s.twn } = s := by
  have hm : s.applyRec n (.consEnd m.slot d) = s := by
    show s.applyConsEnd m.slot d = s
    unfold State.applyConsEnd
    rw [hc, hd]
    rfl
  obtain ⟨t, hexec, htcons, -, hrest⟩ := frame_void ha hl hst hn hi (c := .consEndFrame n m.slot d) rfl hm
  refine ⟨t, hexec, ?_, hrest⟩
  rw [htcons, hcons, ackCons_map (fun _ _ => rfl)]
  rfl

theorem consEndFrame_agrees (d : Nat) (m : MirCns) (hcons : s.twn.cons = [m]) (h : s.commanded = false ∨ d ≠ coEntryLost)
    (hv : m.verdict ≠ some true) :
    ∃ t : State, exec (.consEndFrame n m.slot d) s = .next (settle t) ∧ t.twn.cons = [] ∧ t.twn.rxSeq = n
      ∧ t.twn.st = s.twn.st ∧ t.twn.out = .ack n s.vt :: s.twn.out ∧ { t with twn := s.twn } = s := by
  obtain ⟨t, hexec, htcons, htst, htseq, hrest⟩ := frame_cons ha hl hst hn hi (c := .consEndFrame n m.slot d)
    (f := List.filter fun c => c.slot ≠ m.slot) rfl ((applyConsEnd_one hcons h).trans (if_neg hv))
  refine ⟨t, hexec, ?_, htseq, htst, hrest⟩
  rw [htcons, hcons]
  simp [ackCons]

theorem consEndFrame_differs (hj : s.twn.st ≠ .joining) (d : Nat) (m : MirCns) (hcons : s.twn.cons = [m])
    (h : s.commanded = false ∨ d ≠ coEntryLost) (hv : m.verdict = some true) :
    ∃ t : State, exec (.consEndFrame n m.slot d) s = .next (settle t) ∧ t.twn.cons = [] ∧ t.twn.rxSeq = n
      ∧ t.on TWN.IRQ_RAW.DIVERGE = true ∧ t.twn.st = .notReady ∧ t.pwr.faults = s.pwr.faults ++ [9] := by
  obtain ⟨u, hu⟩ : ∃ u, u = s.onTwn fun x => { x with cons := x.cons.filter (fun c => c.slot ≠ m.slot) } := ⟨_, rfl⟩
  have happly : s.applyRec n (.consEnd m.slot d) = u.diverge := by
    rw [hu]
    exact (applyConsEnd_one hcons h).trans (if_pos hv)
  have hucons : u.twn.cons = [] := by
    rw [hu]
    show s.twn.cons.filter _ = []
    rw [hcons]
    simp
  obtain ⟨htst, hon, htcons, htcheck⟩ := diverge_books u (by rw [hu]; exact hst) (by rw [hu]; exact hj)
  have hidle : (s.applyRec n (.consEnd m.slot d)).twn.check = [] := by
    rw [happly, htcheck, hu]
    exact hi
  have hfaults : u.diverge.pwr.faults = s.pwr.faults ++ [9] := by
    rw [u.diverge_faults, hu]
    rfl
  refine ⟨_, frame_one ha hl hst hn (c := .consEndFrame n m.slot d) rfl hidle, ?_⟩
  rw [happly, State.ackedAt_cons, State.ackedAt_rxSeq, State.ackedAt_st, htcons, hucons]
  exact ⟨rfl, rfl, hon, htst, hfaults⟩

/-! ### The mapping and the copy -/

theorem mapFrame_inOrder (v a : Nat) :
    ∃ t : State, exec (.mapFrame n v a) s = .next (settle t) ∧ t.tbu.mapVt = v ∧ t.tbu.mapTai = a ∧ t.twn.rxSeq = n
      ∧ t.slots = s.slots ∧ { t with tbu := { t.tbu with mapVt := s.tbu.mapVt, mapTai := s.tbu.mapTai }, regs := s.regs, twn := s.twn } = s := by
  exact ⟨_, frame_one ha hl hst hn (c := .mapFrame n v a) rfl hi, s.mapped_ackedAt v a n⟩
end

theorem State.takes_bulk {n : Nat} {xs : List BulkRec} {last : Bool} : s.applyRec n (.bulk xs last)
    = (xs.foldl (fun s r => s.putEntryAt r.slot r.bits r.park (r.state = 3)) s).onTwn fun x => { x with copied := x.copied || last } := rfl

theorem State.foldl_putEntryAt_twnBook (xs : List BulkRec) (s : State) :
    (xs.foldl (fun s r => s.putEntryAt r.slot r.bits r.park (r.state = 3)) s).twnBook = s.twnBook :=
  s.foldl_keeps State.twnBook (fun t _ => t.putEntryAt_twnBook _ _ _ _) xs

theorem State.slot_foldl_putEntryAt (xs : List BulkRec) : ∀ s : State, (xs.map (fun x => x.slot)).Nodup →
    (∀ x ∈ xs, ((xs.foldl (fun s r => s.putEntryAt r.slot r.bits r.park (r.state = 3)) s).slot x.slot).bits = x.bits
        ∧ ((xs.foldl (fun s r => s.putEntryAt r.slot r.bits r.park (r.state = 3)) s).slot x.slot).st
          = if x.state = 3 then .retiring else .queued)
      ∧ ∀ j, j ∉ xs.map (fun x => x.slot) →
        (xs.foldl (fun s r => s.putEntryAt r.slot r.bits r.park (r.state = 3)) s).slot j = s.slot j := by
  induction xs with
  | nil => exact fun s _ => ⟨fun _ h => absurd h List.not_mem_nil, fun _ _ => rfl⟩
  | cons x xs ih =>
    intro s hnd
    rw [List.map_cons, List.nodup_cons] at hnd
    obtain ⟨hin, hother⟩ := ih (s.putEntryAt x.slot x.bits x.park (x.state = 3)) hnd.2
    rw [List.foldl_cons]
    refine ⟨fun y hy => ?_, fun j hj => ?_⟩
    · rcases List.mem_cons.mp hy with rfl | hy
      · rw [hother _ hnd.1]
        have hslot := s.slot_putEntryAt_bulk y.slot y.bits y.park (y.state = 3)
        simp only [decide_eq_true_eq] at hslot
        exact hslot
      · exact hin y hy
    · rw [List.map_cons, List.mem_cons, not_or] at hj
      rw [hother j hj.2, s.slot_putEntryAt_other hj.1]

theorem bulkFrame_inOrder (s : State) (n : Nat) (xs : List BulkRec) (last : Bool) (ha : s.mode.alive = true) (hl : s.linked = true)
    (hst : s.twn.st = .joining) (hi : s.twn.check = []) (hn : n = s.twn.rxSeq + 1) (hnd : (xs.map (fun x => x.slot)).Nodup) :
    ∃ t : State, exec (.bulkFrame n xs last) s = .next (settle t)
      ∧ (∀ x ∈ xs, (t.slot x.slot).bits = x.bits ∧ ((t.slot x.slot).st = if x.state = 3 then .retiring else .queued))
      ∧ (∀ j, j ∉ xs.map (fun x => x.slot) → t.slot j = s.slot j)
      ∧ t.twn.copied = (s.twn.copied || last) ∧ t.twn.rxSeq = n
      ∧ t.twn.out = .ack n s.vt :: s.twn.out := by
  have hbook := State.foldl_putEntryAt_twnBook xs s
  obtain ⟨htwn, -, -⟩ := State.fields_of_twnBook hbook
  have hvt := State.vt_of_twnBook hbook
  obtain ⟨hin, hother⟩ := State.slot_foldl_putEntryAt xs s hnd
  have hidle : (s.applyRec n (.bulk xs last)).twn.check = [] := by
    rw [State.takes_bulk]
    show (xs.foldl (fun s r => s.putEntryAt r.slot r.bits r.park (r.state = 3)) s).twn.check = []
    rw [htwn, hi]
  refine ⟨_, frame_one ha hl (by rw [hst]; rfl) hn (c := .bulkFrame n xs last) rfl hidle, ?_⟩
  rw [State.takes_bulk, State.ackedAt_out, State.ackedAt_rxSeq, State.onTwn_vt, hvt, ← htwn]
  exact ⟨hin, hother, rfl, rfl, rfl⟩

end Sys2Proof.Machine
end

section
/-! PROOFS. The PRIMARY's side: acknowledgements received, records sent; the family settled (R345, R346, R355). -/

namespace Sys2Proof.Machine

variable (s : State)

/-! ### An acknowledgement received -/

theorem State.rxAck_none {q : Nat} (h : s.linked = false ∨ s.twn.st ≠ .primary ∨ s.twn.mirSeq < q) (l : Nat) : s.rxAck q l = s := by
  unfold State.rxAck
  rw [if_pos]
  rcases h with h | h | h
  · simp [h]
  · simp [h]
  · simp [h]

theorem State.rxAck_taken {q : Nat} (hl : s.linked = true) (hst : s.twn.st = .primary) (hq : q ≤ s.twn.mirSeq) (l : Nat) :
    s.rxAck q l = s.onTwn fun x => { x.acked q with cons := ackCons q (l / 64) x.cons } := by
  unfold State.rxAck
  rw [hl, hst, if_neg]
  simp [Nat.not_lt.mpr hq]

theorem exec_ackFrame_none {q : Nat} (h : s.mode.alive = false ∨ s.linked = false ∨ s.twn.st ≠ .primary ∨ s.twn.mirSeq < q) (l : Nat) :
    exec (.ackFrame q l) s = .next (settle s) := by
  cases ha : s.mode.alive with
  | false => exact s.twin_dead (fun s => s.rxAck q l) ha
  | true =>
    refine (s.twin_alive (fun s => s.rxAck q l) ha).trans ?_
    rw [s.rxAck_none (h.resolve_left (by simp [ha])) l]

theorem ackCons_eq (q c : Nat) (ms : List MirCns) : ackCons q c ms = ms.map (fun m =>
    if m.acked = none ∧ m.seq ≤ q ∧ (m.complete = true ∨ m.vals = []) then { m with acked := some c } else m) := by
  unfold ackCons
  simp only [Bool.and_eq_true, Bool.or_eq_true, decide_eq_true_eq, and_assoc]

theorem ackFrame_taken (q l : Nat) (ha : s.mode.alive = true) (hl : s.linked = true) (hst : s.twn.st = .primary)
    (hq : q ≤ s.twn.mirSeq) :
    ∃ t : State, exec (.ackFrame q l) s = .next (settle t) ∧ t.twn.out = s.twn.out
      ∧ (q = s.twn.mirAck → t.twn.queue = s.twn.unacked ++ s.twn.queue ∧ t.twn.unacked = [] ∧ t.twn.mirAck = s.twn.mirAck)
      ∧ (q ≠ s.twn.mirAck → t.twn.unacked = s.twn.unacked.filter (fun p => q < p.1)
        ∧ t.twn.queue = s.twn.queue.filter (fun p => q < p.1) ∧ t.twn.mirAck = max s.twn.mirAck q)
      ∧ t.twn.cons = s.twn.cons.map (fun m =>
          if m.acked = none ∧ m.seq ≤ q ∧ (m.complete = true ∨ m.vals = []) then { m with acked := some (l / 64) } else m)
      ∧ { t with twn := s.twn } = s := by
  obtain ⟨y, hy⟩ : ∃ y, y = s.twn.acked q := ⟨_, rfl⟩
  have hack : s.rxAck q l = { s with twn := { y with cons := ackCons q (l / 64) s.twn.cons } } := by
    rw [s.rxAck_taken hl hst hq l, hy]
    rfl
  unfold Twn.acked at hy
  refine ⟨_, (s.twin_alive (fun s => s.rxAck q l) ha).trans (by rw [hack]), ?_⟩
  dsimp only
  rw [ackCons_eq]
  by_cases h : q = s.twn.mirAck
  · rw [if_pos h] at hy
    subst hy
    exact ⟨rfl, fun _ => ⟨rfl, rfl, rfl⟩, fun hn => absurd h hn, rfl, rfl⟩
  · rw [if_neg h] at hy
    subst hy
    exact ⟨rfl, fun he => absurd he h, fun _ => ⟨rfl, rfl, rfl⟩, rfl, rfl⟩

/-! ### A cycle of the siding that holds the mirror queue -/

/-- The state but for its memories and registers, and whether the link's enable is set. -/
def State.besideMem : State × Bool := ({ s with mem := {}, regs := [] }, s.on TWN.CTL.EN)

variable {s} in
theorem State.frame_of_besideMem {t : State} (h : t.besideMem = s.besideMem) :
    ({ t with mem := s.mem, regs := s.regs } : State) = s :=
  congrArg (fun p : State × Bool => { p.1 with mem := s.mem, regs := s.regs }) h

variable {s} in
theorem State.twn_of_besideMem {t : State} (h : t.besideMem = s.besideMem) : t.twn = s.twn :=
  congrArg (fun p : State × Bool => p.1.twn) h

variable {s} in
theorem State.linked_of_besideMem {t : State} (h : t.besideMem = s.besideMem) : t.linked = s.linked := by
  have hon : t.on TWN.CTL.EN = s.on TWN.CTL.EN := congrArg (fun p : State × Bool => p.2) h
  unfold State.linked
  rw [hon, State.twn_of_besideMem h]

@[simp] theorem State.withMem_besideMem (x : Mem) : ({ s with mem := x } : State).besideMem = s.besideMem := rfl
@[simp] theorem State.useBank_besideMem (d n : Nat) : (s.useBank d n).besideMem = s.besideMem := rfl
@[simp] theorem State.setEcc_besideMem (k i e : Nat) : (s.setEcc k i e).besideMem = s.besideMem := rfl
@[simp] theorem State.putRelief_besideMem (i : Nat) (v : Word) : (s.putRelief i v).besideMem = s.besideMem := rfl
@[simp] theorem State.putHome_besideMem (i : Nat) (v : Word) : (s.putHome i v).besideMem = s.besideMem := rfl

@[simp] theorem State.noteWait_besideMem (n : Nat) : (s.noteWait n).besideMem = s.besideMem := by
  have hon : (s.noteWait n).on TWN.CTL.EN = s.on TWN.CTL.EN := by
    unfold State.on State.f State.noteWait State.setF
    rw [s.reg_setReg_ne _ _ _ (by decide)]
  unfold State.besideMem
  rw [hon]
  rfl

@[simp] theorem State.copyFlush_besideMem : s.copyFlush.besideMem = s.besideMem := by
  unfold State.copyFlush
  split
  · rfl
  · dsimp only; split <;> simp

@[simp] theorem State.copyMeets_besideMem (d c : Nat) (m : Bool) : (s.copyMeets d c m).besideMem = s.besideMem := by
  simp [State.copyMeets, apply_ite State.besideMem]

@[simp] theorem State.passCopy_besideMem (d : Nat) (w : Wait) : (s.passCopy d w).besideMem = s.besideMem := by
  simp [State.passCopy, apply_ite State.besideMem]

@[simp] theorem State.noteGrant_besideMem (d : Nat) (w : Wait) : (s.noteGrant d w).besideMem = s.besideMem := by
  simp [State.noteGrant, apply_ite State.besideMem]

theorem State.serve_dma_besideMem {w : Wait} {tag : Nat} (h : w.kind = .dma tag) : (s.serve w).besideMem = s.besideMem := by
  unfold State.serve
  rw [h]
  dsimp only
  rw [State.withMem_besideMem, State.noteWait_besideMem]

theorem State.give_dma_besideMem (d : Nat) {w : Wait} {tag : Nat} (h : w.kind = .dma tag) :
    (s.give d w).besideMem = s.besideMem := by
  simp [State.give, State.serve_dma_besideMem _ h]

/-- A DMA-class requester that has its cycle goes on in a state that only memories and registers of the memory make differ. -/
theorem State.dma_ready {d tag : Nat} (h : s.dmaReady d tag = true) (k : State → State) :
    ∃ u, u.besideMem = s.besideMem ∧ s.dma d tag k = k u := by
  unfold State.dma
  extract_lets done w
  by_cases hg : s.mem.granted.contains (d, tag) = true
  · rw [if_pos hg]
    exact ⟨done s, rfl, rfl⟩
  · have hadm : s.admits d w = true := by
      unfold State.dmaReady at h
      rw [Bool.or_eq_true] at h
      exact h.resolve_left hg
    rw [if_neg hg, if_pos hadm]
    exact ⟨done (s.give d w), s.give_dma_besideMem d (dmaWait_kind s.mem.waits d tag s.raw), rfl⟩

/-- One that has none waits. -/
theorem State.dma_waits {d tag : Nat} (h : s.dmaReady d tag = false) (k : State → State) :
    ∃ t, t = s.dma d tag k ∧ t.twn = s.twn ∧ s.dmaWait d tag ∈ t.mem.waits
      ∧ { t with mem := { t.mem with waits := s.mem.waits } } = s := by
  unfold State.dmaReady at h
  rw [Bool.or_eq_false_iff] at h
  have hdma : s.dma d tag k = if s.mem.waits.contains (s.dmaWait d tag) then s
      else { s with mem := { s.mem with waits := s.mem.waits ++ [s.dmaWait d tag] } } := by
    unfold State.dma
    dsimp only
    rw [if_neg (by rw [h.1]; exact Bool.false_ne_true), if_neg (by rw [h.2]; exact Bool.false_ne_true)]
  refine ⟨_, rfl, ?_⟩
  rw [hdma]
  split
  next hw => exact ⟨rfl, List.contains_iff_mem.mp hw, rfl⟩
  next => exact ⟨rfl, List.mem_append_right _ List.mem_cons_self, rfl⟩

/-! ### Records sent -/

theorem State.mirrorSend_sent (hl : s.linked = true) (hst : s.twn.st = .primary) {q : List (Nat × Mirror)} {x : Nat × Mirror}
    {rest : List (Nat × Mirror)} (hq : q = if s.twn.queue = [] then s.twn.unacked else s.twn.queue) (hx : q = x :: rest) :
    s.mirrorSend = if s.twn.queue = [] then s.send (.mirror x.1 ((q.take (batch q)).map (fun p => p.2)))
      else (s.send (.mirror x.1 ((q.take (batch q)).map (fun p => p.2)))).onTwn fun t => { t with
        queue := t.queue.drop (batch q), unacked := t.unacked ++ q.take (batch q)
        mirSeq := max t.mirSeq (x.1 + (q.take (batch q)).length - 1) } := by
  obtain ⟨n, m⟩ := x
  unfold State.mirrorSend
  rw [hl, hst]
  simp only [Bool.not_true, ne_eq, not_true, decide_false, Bool.or_false, Bool.false_eq_true, if_false]
  rw [← hq, hx]

theorem execMirrorSend_none (h : s.mode.alive = false ∨ s.linked = false ∨ s.twn.st ≠ .primary ∨ s.twn.toRing ≠ []
    ∨ (s.twn.queue = [] ∧ s.twn.unacked = [])) : exec .mirrorSend s = .next (settle s) := by
  cases ha : s.mode.alive with
  | false => exact s.twin_dead _ ha
  | true =>
    refine (s.twin_alive _ ha).trans ?_
    rw [if_neg]
    simp only [Bool.and_eq_true, Bool.or_eq_true, decide_eq_true_eq]
    rintro ⟨⟨⟨hl, hst⟩, hr⟩, hq⟩
    rcases h with h | h | h | h | ⟨h, h'⟩
    · rw [ha] at h; cases h
    · rw [hl] at h; cases h
    · exact h hst
    · exact h hr
    · exact hq.elim (· h) (· h')

section
variable {s} (ha : s.mode.alive = true) (hl : s.linked = true) (hst : s.twn.st = .primary) (hr : s.twn.toRing = [])
  {q rest : List (Nat × Mirror)} {x : Nat × Mirror} (hq : q = if s.twn.queue = [] then s.twn.unacked else s.twn.queue)
  (hx : q = x :: rest)
include ha hl hst hr hq hx

theorem execMirrorSend_dma : exec .mirrorSend s = .next (settle (s.dma (s.f TWN.MQ.SIDING) 41 State.mirrorSend)) := by
  refine (s.twin_alive _ ha).trans ?_
  rw [if_pos]
  simp only [Bool.and_eq_true, Bool.or_eq_true, decide_eq_true_eq]
  refine ⟨⟨⟨hl, hst⟩, hr⟩, ?_⟩
  by_cases he : s.twn.queue = []
  · rw [if_pos he, hx] at hq
    exact .inr fun hn => by rw [hn] at hq; cases hq
  · exact .inl he

theorem mirrorSend_ready (hd : s.dmaReady (s.f TWN.MQ.SIDING) 41 = true) :
    ∃ t : State, exec .mirrorSend s = .next (settle t) ∧ t.twn.out = .mirror x.1 ((q.take (batch q)).map (fun p => p.2)) :: s.twn.out
      ∧ (s.twn.queue = [] → t.twn = { s.twn with out := t.twn.out })
      ∧ (s.twn.queue ≠ [] → t.twn = { s.twn with
          out := t.twn.out, queue := q.drop (batch q), unacked := s.twn.unacked ++ q.take (batch q)
          mirSeq := max s.twn.mirSeq (x.1 + (q.take (batch q)).length - 1) })
      ∧ { t with mem := s.mem, regs := s.regs, twn := s.twn } = s := by
  obtain ⟨u, hu, hdma⟩ := s.dma_ready hd State.mirrorSend
  have htwn := State.twn_of_besideMem hu
  have hframe (w : Twn) : ({ { u with twn := w } with mem := s.mem, regs := s.regs, twn := s.twn } : State) = s :=
    (congrArg (fun y : State => { y with twn := s.twn }) (State.frame_of_besideMem hu)).trans rfl
  have hsend := u.mirrorSend_sent (by rw [State.linked_of_besideMem hu, hl]) (by rw [htwn, hst]) (by rw [htwn]; exact hq) hx
  rw [htwn] at hsend
  refine ⟨_, (execMirrorSend_dma ha hl hst hr hq hx).trans (by rw [hdma]), ?_⟩
  by_cases he : s.twn.queue = []
  · rw [hsend, if_pos he]
    unfold State.send State.onTwn
    rw [htwn]
    exact ⟨rfl, fun _ => rfl, fun h => absurd he h, hframe _⟩
  · rw [if_neg he] at hq
    rw [hsend, if_neg he]
    unfold State.send State.onTwn
    rw [htwn]
    exact ⟨rfl, fun h => absurd h he, fun _ => by rw [hq], hframe _⟩

theorem mirrorSend_waits (hd : s.dmaReady (s.f TWN.MQ.SIDING) 41 = false) :
    ∃ t : State, exec .mirrorSend s = .next (settle t) ∧ t.twn = s.twn ∧ s.dmaWait (s.f TWN.MQ.SIDING) 41 ∈ t.mem.waits
      ∧ { t with mem := { t.mem with waits := s.mem.waits } } = s := by
  obtain ⟨t, ht, hrest⟩ := s.dma_waits hd State.mirrorSend
  exact ⟨t, (execMirrorSend_dma ha hl hst hr hq hx).trans (by rw [ht]), hrest⟩
end

/-! ### Frames after a gap and frames received before -/

section
variable {s} (ha : s.mode.alive = true) (hl : s.linked = true) (hst : s.twn.st.standby = true) (hi : s.twn.check = [])
  {c : Instr} {n : Nat} {ms : List Mirror} (hc : frameOf c = some (n, ms))
include ha hl hst hi hc

theorem frame_gap (hn : s.twn.rxSeq + 1 < n) :
    ∃ t : State, exec c s = .next (settle t) ∧ t.twn.rxSeq = s.twn.rxSeq ∧ t.twn.out = .ack s.twn.rxSeq s.vt :: s.twn.out
      ∧ { t with twn := s.twn } = s :=
  frame_again ha hc (State.rxMirror_gap hl hst hi hn ms)

theorem frame_before (hn : n ≤ s.twn.rxSeq) (hms : n + ms.length ≤ s.twn.rxSeq + 1) :
    ∃ t : State, exec c s = .next (settle t) ∧ t.twn.rxSeq = s.twn.rxSeq ∧ t.twn.out = .ack s.twn.rxSeq s.vt :: s.twn.out
      ∧ { t with twn := s.twn } = s :=
  frame_again ha hc (State.rxMirror_before hl hst hi hn hms)
end

end Sys2Proof.Machine
end

section
/-! PROOFS. Mirror records, the family settled (R345, R352, R355, R364). -/

namespace Sys2Proof.Machine

/-- Every frame of the list carries records from SEQ `n`. -/
theorem frameOf_mem {n : Nat} {xs : List InsRec} {i o w b : Nat} {f : Bool} {rs : List (Nat × Nat)} {vs : List (Nat × Word)}
    {bs : List BulkRec} {c : Instr}
    (h : c ∈ .bulkFrame n bs f :: [Instr.insFrame n xs, .canFrame n i f o, .retFrame n rs, .consFrame n i o w b f vs,
      .consAtFrame n i b, .consEndFrame n i o, .mapFrame n b w]) : ∃ ms, frameOf c = some (n, ms) := by
  simp only [List.mem_cons, List.not_mem_nil, or_false] at h
  rcases h with rfl | rfl | rfl | rfl | rfl | rfl | rfl | rfl
  all_goals exact ⟨_, rfl⟩

/-- The frames of records received before: none reaches beyond SEQ `k`. -/
theorem frameOf_before {n k : Nat} {xs : List InsRec} {i o w b : Nat} {f : Bool} {rs : List (Nat × Nat)} {vs : List (Nat × Word)}
    {bs : List BulkRec} {c : Instr} (hn : n ≤ k)
    (h : c ∈ (if n + xs.length ≤ k + 1 then [Instr.insFrame n xs] else [])
      ++ (if n + rs.length ≤ k + 1 then [Instr.retFrame n rs] else []) ++ [Instr.canFrame n i f o, .consFrame n i o w b f vs,
        .consAtFrame n i b, .consEndFrame n i o, .mapFrame n b w, .bulkFrame n bs f]) :
    ∃ ms, frameOf c = some (n, ms) ∧ n + ms.length ≤ k + 1 := by
  rw [List.mem_append, List.mem_append] at h
  rcases h with (h | h) | h
  · split at h
    next hx =>
      rw [List.mem_singleton.mp h]
      exact ⟨_, rfl, by rw [List.length_map]; exact hx⟩
    next => exact absurd h List.not_mem_nil
  · split at h
    next hx =>
      rw [List.mem_singleton.mp h]
      exact ⟨_, rfl, by rw [List.length_map]; exact hx⟩
    next => exact absurd h List.not_mem_nil
  · simp only [List.mem_cons, List.not_mem_nil, or_false] at h
    rcases h with rfl | rfl | rfl | rfl | rfl | rfl
    all_goals exact ⟨_, rfl, Nat.add_le_add_right hn 1⟩

end Sys2Proof.Machine

open Sys2Proof Sys2Proof.Machine

/-- Settles O49: a frame's records one after the other, none verified while no heartbeat waits; each record touches the slot it
names, the books of the consists or the mapping. -/
theorem mirrorRecords : Obligations.MirrorRecords := by
  unfold Obligations.MirrorRecords
  refine ⟨fun s n xs i o w b f rs vs bs cs hcs => ?_, fun s ha hl hst hi _ n hn => ?_, fun s n xs last ha hl hst hi hn hnd => ?_,
    fun s q l => ⟨fun h => ?_, fun _ _ _ hq => ?_, fun ha hl hst hq => ackFrame_taken s q l ha hl hst hq⟩,
    fun s h => execMirrorSend_none s h, fun s ha hl hst hr again hagain q hq x rest hx d hd k hk => ?_⟩
  · subst hcs
    refine ⟨fun h c hc => ?_, fun ha hl hst hi hn c hc => ?_, fun ha hl hst hi hn c hc => ?_⟩
    · obtain ⟨ms, hms⟩ := frameOf_mem hc
      rw [exec_frame hms]
      exact State.twin_rxMirror_elsewhere h n ms
    · obtain ⟨ms, hms⟩ := frameOf_mem hc
      exact frame_gap ha hl hst hi hms hn
    · obtain ⟨ms, hms, hlen⟩ := frameOf_before hn hc
      exact frame_before ha hl hst hi hms hn hlen
  · refine ⟨fun xs hnd _ => insFrame_inOrder ha hl hst hi hn xs hnd, fun i q chain => canFrame_inOrder ha hl hst hi hn i q chain,
      fun rs hnd hsw => retFrame_inOrder ha hl hst hi hn rs hnd hsw, fun i hsw _ => retFrame_commanded ha hl hst hn hi i hsw,
      fun k o w b last vs => ⟨fun hc => consFrame_first ha hl hst hn hi k o w b last vs hc, fun m ms hc hms hk hm => ?_⟩,
      fun d m ms hc hms => ?_, fun v a => mapFrame_inOrder ha hl hst hn hi v a⟩
    · subst hms
      exact consFrame_next ha hl hst hn hi k o w b last vs m hc hk hm
    · subst hms
      refine ⟨fun hw hm => consAtFrame_inOrder ha hl hst hn hi d m hc hw hm,
        fun hcom hd => consEndFrame_void ha hl hst hn hi d m hc hcom hd, fun h => ?_⟩
      by_cases hv : m.verdict = some true
      · obtain ⟨t, hexec, htcons, hseq, hrest⟩ := consEndFrame_differs ha hl hst hn hi ‹_› d m hc h hv
        exact ⟨t, hexec, htcons, hseq, fun hn => absurd hv hn, fun _ => hrest⟩
      · obtain ⟨t, hexec, htcons, hseq, hrest⟩ := consEndFrame_agrees ha hl hst hn hi d m hc h hv
        exact ⟨t, hexec, htcons, hseq, fun _ => hrest, fun he => absurd he hv⟩
  · exact bulkFrame_inOrder s n xs last ha hl hst hi hn hnd
  · exact exec_ackFrame_none s (h.imp_right (Or.imp_right .inl)) l
  · exact exec_ackFrame_none s (.inr (.inr (.inr hq))) l
  · have hq' : q = if s.twn.queue = [] then s.twn.unacked else s.twn.queue := by
      rw [hq, hagain]
      simp only [decide_eq_true_eq]
    subst hd hk
    refine ⟨fun hready => ?_, fun hwait => mirrorSend_waits ha hl hst hr hq' hx hwait⟩
    obtain ⟨t, hexec, hout, hagain', hnew, hframe⟩ := mirrorSend_ready ha hl hst hr hq' hx hready
    exact ⟨t, hexec, hout, fun h => hagain' (of_decide_eq_true (hagain ▸ h)),
      fun h => hnew (of_decide_eq_false (hagain ▸ h)), hframe⟩
end
